-- ==== Sys2Proof/Word.lean ====
section
/-! DEFINITION. The word types of the device and the sparse table type that holds registers, memory
bytes and every other numbered collection of the state. -/

namespace Sys2Proof

/-- A control register is 32 bits wide (R8). -/
abbrev Word := BitVec 32

/-- A byte of memory. -/
abbrev Byte := BitVec 8

/-- A sparse collection: (key, value) pairs, keys rising, no entry equal to what an unlisted key
reads as. -/
abbrev Table (κ α : Type) := List (κ × α)

end Sys2Proof
end

