-- ==== Sys2Proof/Syntax.lean ====
section
/-! DEFINITION. The commands and events that the device takes, one constructor for each row of the
operation table, and the types of their operands. -/

namespace Sys2Proof

/-- The path of a register or memory access (R12): Hearth, BAR0/BAR2 of a PCIe endpoint, the CZ
control protocol (a session number). -/
inductive Path where
  | hearth
  | bar (port : Fin 2)
  | cz (session : Nat)
deriving DecidableEq, Repr

/-- How a program command or a LEAVE comes: a write of its command register, or the opcode of the CZ control protocol that
stands for it, with connection and REQ_ID (R566). -/
inductive Via where
  | reg (path : Path)
  | cz (conn : Nat) (req : BitVec 64)
deriving DecidableEq, Repr

/-- How a JOIN comes: of the entry in STM_SUB_STAGE, or of the entry that is the body of SUB_JOIN (R422, R566). -/
inductive JoinVia where
  | reg (path : Path)
  | cz (conn : Nat) (req : BitVec 64) (entry : List Byte)
deriving DecidableEq, Repr

/-- Pins that the device drives. -/
inductive Pin where
  | tout (n : Fin 8)
  | faultN | pwrgd | pwrCycleReq
  | returnSwitch
deriving DecidableEq, Repr

/-- Units from which items and messages leave the device. -/
inductive Port where
  | fabric (p : Nat) | ethernet (p : Nat) | pcie (p : Nat) | management | displayPort (d : Nat)
  | opal (n : Nat) | hall | mailbox
deriving DecidableEq, Repr

/-- Rings without a drop counter (R33). -/
inductive RewriteRing where
  | completion | telemetry | fabric
deriving DecidableEq, Repr

/-- Rings whose HEAD the host advances besides the event queue. -/
inductive HeadRing where
  | jasper | completion | telemetry
deriving DecidableEq, Repr

/-- The classes of peak overdrive of R52. -/
inductive Peak where
  | upTo6 | upTo12 | above12
deriving DecidableEq, Repr

/-- The phase-window loops of R67. -/
inductive Loop where
  | jc (k : Fin 8) | tile | byp | mem (m : Fin 4) | core | serdes | pix (d : Fin 2) | aon
deriving DecidableEq, Repr


/-- What the SECDED of a tile's memories reports while an instruction runs (R139, R162, R170): nothing,
a corrected word at a byte address of the tile's window, or a double-bit error in the data memory that the
instruction reads, or in the program memory or control store. -/
inductive JEcc where
  | clean
  | corrected (addr : BitVec 24)
  | data
  | program
deriving DecidableEq, Repr

/-- What the check bits find while a customer instruction runs: nothing; a corrected word; an uncorrectable
program-memory word, the instruction itself; an uncorrectable microword at a control-store address, met when it is
fetched; an uncorrectable data-memory byte, met when it is read (R162, R170). -/
inductive MicEcc where
  | clean
  | corrected (addr : BitVec 24)
  | program
  | control (upc : BitVec 12)
  | data (addr : BitVec 21)
deriving DecidableEq, Repr

/-- The flags field of a Jextan instruction word (R145), with the report of the memories. -/
structure JFlags where
  pred : Bool
  cond : BitVec 3
  sat : Bool
  setf : Bool
  pu : Bool
  xf : Bool
  ecc : JEcc
deriving DecidableEq, Repr

/-- The operands of the V format (R146). -/
structure JV where
  az : BitVec 3
  ax : BitVec 3
  ay : BitVec 3
  lane : BitVec 2
  gp : BitVec 5
  n : BitVec 16
  param : BitVec 16
deriving DecidableEq, Repr


/-- What the hot-plug line of a display does (R378): it rises, falls, or an IRQ_HPD reports a lost link. -/
inductive Hpd where
  | rise | fall | lostLink
deriving DecidableEq, Repr


/-- What a fabric message's header says (R447): HOPS, RETRIED, DST, SRC, INC, SEQ and FLOW, and whether its TYPE is none of
R448's. -/
structure FabHdr where
  hops : BitVec 4
  retried : Bool
  dst : BitVec 12
  src : BitVec 12
  inc : BitVec 16
  seq : BitVec 32
  flow : BitVec 16
  unknown : Bool := false
deriving DecidableEq, Repr

/-- A grandmaster candidate (R464). -/
structure FabGm where
  uid : BitVec 64
  prio : BitVec 8
  ref : Bool
deriving DecidableEq, Repr

/-- A link entry of an LSA (R451): the neighbour's UID and address, local and remote port, cost. -/
structure FabLink where
  uid : BitVec 64
  addr : BitVec 12
  lport : Fin 6
  rport : Fin 6
  cost : BitVec 17
deriving DecidableEq, Repr

/-- An LSA (R451). -/
structure FabLsa where
  uid : BitVec 64
  addr : BitVec 12
  addrState : BitVec 2
  inc : BitVec 32
  seq : BitVec 32
  links : List FabLink
deriving DecidableEq, Repr

/-- A HELLO's payload (R449). -/
structure FabHello where
  uid : BitVec 64
  addr : BitVec 12
  addrState : BitVec 2
  port : Fin 6
  inc : BitVec 32
  lsaSeq : BitVec 32
  held : Bool
  gm : FabGm
deriving DecidableEq, Repr

/-- A TIME message on a link (R462), with its OT96 stamps: a request that arrives at t2 and is answered at t3,
or an answer that arrives at t4. -/
inductive FabTime where
  | request (t1 t2 t3 : BitVec 96)
  | answer (t1 t2 t3 t4 : BitVec 96)
deriving DecidableEq, Repr


/-- A received Ethernet frame, as far as R427 distinguishes frames: addresses are IPv4 in 32 or IPv6 in 128 bits. -/
inductive EthFrame where
  | arpRequest (target sender : BitVec 32) (mac : BitVec 48)
  | arpReply (sender : BitVec 32) (mac : BitVec 48)
  | ndSolicit (target sender : BitVec 128) (mac : BitVec 48)
  | ndAdvert (target : BitVec 128) (mac : BitVec 48)
  | echo4 (dst src : BitVec 32) (payload : List Byte)
  | echo6 (dst src : BitVec 128) (payload : List Byte)
  | pause
  | other
deriving DecidableEq, Repr

/-- A PTP port identity: clock identity and port number. -/
structure PtpPort where
  clock : BitVec 64
  port : BitVec 16
deriving DecidableEq, Repr

/-- The dataset that a master's Announce messages give: that of its grandmaster, with the steps from it and the port that
sends the messages. -/
structure PtpMaster where
  prio1 : BitVec 8
  cls : BitVec 8
  accuracy : BitVec 8
  variance : BitVec 16
  prio2 : BitVec 8
  gm : BitVec 64
  steps : BitVec 16
  sender : PtpPort
  /-- the Announce interval in ms -/
  intervalMs : BitVec 32
deriving DecidableEq, Repr

/-- A PTP message that reaches the servo (R430): an Announce; a Sync, with the Follow_Up of a two-step master; a
Delay_Resp.  t1 is the master's departure, t2 this port's arrival, t3 the departure of its delay request, t4 the master's
arrival, each an OT96 number as the ports stamped it. -/
inductive PtpMsg where
  | announce (m : PtpMaster)
  | sync (sender : PtpPort) (t1 t2 : BitVec 96)
  | delayResp (sender : PtpPort) (t3 t4 : BitVec 96)
deriving DecidableEq, Repr

/-- What the device finds on a drive when a set starts (R433, R439): its format is supported, its capacity and
largest transfer in bytes, the two superblock copies, and RECORD_SEQ of the last valid record of the segment after
LAST_CLOSED. -/
structure NvmProbe where
  drive : Fin 32
  good : Bool
  capacity : Nat
  xfer : Nat
  copyA : List Byte
  copyB : List Byte
  lastRec : Option (BitVec 64)
deriving DecidableEq, Repr

/-- What the pantry's monitors read (R510, R511, R524): per lane the vertical eye in mV, the horizontal eye in
mUI, −100 × log10 of the pre-FEC symbol error ratio over 10 s, and the retries; per core the corrected errors and
machine checks; the slowdown of dies 0 to 10 in 0.1 ‰; the Attic's free spare blocks, retired blocks, highest
erase count and bytes written. -/
structure PanSample where
  lanes : List (Nat × Nat × Nat × Nat) := []
  cores : List (Nat × Nat) := []
  ages : List Int := []
  atticFree : Nat := 512
  atticRetired : Nat := 0
  erase : Nat := 0
  atticBytes : Nat := 0
deriving DecidableEq, Repr


/-- From where a command of the CZ control protocol comes: a session, SEC_CMD, or the JTAG mailbox (R562, R563,
R566). -/
inductive CzSource where
  | session (id : Nat)
  | secCmd
  | jtag
deriving DecidableEq, Repr


/-- A function that step 2 of the ladder re-initialises (R572). -/
inductive ReinitUnit where
  | tile (n : Fin 68)
  | pc (h : Fin 128)
  | port (p : Fin 6)
  | die (k : Fin 8)
  | renderer (p : Fin 17)
  | cleaner (k : Fin 8)
  | relock
deriving DecidableEq, Repr


/-- An LV pair (R216): the frequency of NCO x of a tile, a renderer's levels, a scan-out's size, or two paired
parameter words 2k and 2k + 1 of a tile. -/
inductive LvPair where
  | nco (tile : Fin 68) (x : Fin 16)
  | level (p : Fin 17)
  | size (d : Fin 2)
  | param (tile : Fin 68) (k : Fin 128)
deriving DecidableEq, Repr

/-- The commands and events of the device: one constructor for each row of the operation table.
The operands are what the table's row leaves to the outside: which unit, what the host wrote, what was
measured. -/
inductive Instr where
  /-- REG_WRITE (R11) -/
  | regWrite (path : Path) (addr : BitVec 48) (bytes : List Byte)
  /-- RC_READ (R11) -/
  | rcRead (path : Path) (addr : BitVec 48) (len : Nat)
  /-- CAPTURE_READ (R143) -/
  | captureRead (path : Path) (addr : BitVec 48) (len : Nat)
  /-- EVQ_WRITE_ACK (R33) -/
  | evqWriteAck (error : Bool)
  /-- RING_REWRITE_RETRY (R33) -/
  | ringRewriteRetry (ring : RewriteRing)
  /-- EVQ_ENABLE (R608) -/
  | evqEnable (path : Path) (value : BitVec 32)
  /-- EVQ_DISABLE (R608) -/
  | evqDisable (path : Path) (value : BitVec 32)
  /-- EVQ_HEAD_WRITE (R33) -/
  | evqHeadWrite (path : Path) (value : BitVec 32)
  /-- RING_HEAD_WRITE (R34) -/
  | ringHeadWrite (path : Path) (ring : HeadRing) (value : BitVec 16)
  /-- BLOCK_CLOSE (R47) -/
  | blockClose (k : Fin 8) (codes : List (List (BitVec 12)))
  /-- BLOCK_LAND (R332) -/
  | blockLand (k : Fin 8)
  /-- RING_WRITE_ISSUE (R334) -/
  | ringWriteIssue (q : Fin 128)
  /-- RING_WRITE_ACK (R331) -/
  | ringWriteAck (q : Fin 128)
  /-- BLOCK_TILE_ARRIVAL (R134) -/
  | blockTileArrival (k : Fin 8)
  /-- DIE_LINK_CRC (R571) -/
  | dieLinkCrc (k : Fin 8) (hub : Bool)
  /-- RANGE_HOLD_END (R40) -/
  | rangeHoldEnd (ch : Fin 256) (sample : Nat)
  /-- OVER_RANGE_EXCURSION (R50) -/
  | overRangeExcursion (ch : Fin 256) (first : Nat) (signs : List Bool) (over6 : Option Nat) (peak : Peak)
  /-- CLAMP_ENGAGE (R54) -/
  | clampEngage (ch : Fin 256) (sample : Nat) (neg : Bool)
  /-- CLAMP_DISENGAGE (R54) -/
  | clampDisengage (ch : Fin 256) (sample : Nat)
  /-- CLAMP_RECOVERY_END (R54) -/
  | clampRecoveryEnd (ch : Fin 256) (sample : Nat)
  /-- COMPARATOR_CROSSING (R59) -/
  | comparatorCrossing (ch : Fin 256) (above raw : Bool)
  /-- COMPARATOR_ACCEPT (R61) -/
  | comparatorAccept (ch : Fin 256) (above : Bool) (samples : BitVec 5)
  /-- COMPARATOR_BLANK_END (R61) -/
  | comparatorBlankEnd (ch : Fin 256) (above : Bool)
  /-- CMP_SETTLE_END (R63) -/
  | cmpSettleEnd (ch : Fin 256) (above inBand : Bool)
  /-- CMP_RESETTLE_END (R64) -/
  | cmpResettleEnd (ch : Fin 256)
  /-- REFIN_EDGE (R71) -/
  | refinEdge
  /-- REF_QUALIFY_END (R71) -/
  | refQualifyEnd (hz : Nat)
  /-- REF_MISSING_EDGE (R72) -/
  | refMissingEdge (coastPpb : Int)
  /-- LOCK_GATE_END (R74) -/
  | lockGateEnd (quarters synHz tclkHz : Nat) (slip : Bool)
  /-- PLL_PHASE_LOCK (R75) -/
  | pllPhaseLock (loop : Loop)
  /-- PLL_PHASE_UNLOCK (R75) -/
  | pllPhaseUnlock (loop : Loop)
  /-- RELOCK_STEP_DONE (R86) -/
  | relockStepDone
  /-- RELOCK_FAIL (R89) -/
  | relockFail
  /-- RELOCK_RETRY (R89) -/
  | relockRetry
  /-- BYP_UNLOCK (R97) -/
  | bypUnlock
  /-- OFFSET_WRITE (R83) -/
  | offsetWrite (path : Path) (value : BitVec 32)
  /-- OFFSET_SLEW_DONE (R83) -/
  | offsetSlewDone
  /-- DELAY_WRITE (R79) -/
  | delayWrite (path : Path) (d : Fin 12) (value : BitVec 32)
  /-- DELAY_STEP (R79) -/
  | delayStep (d : Fin 12)
  /-- PHASE_JUMP_MEASURED (R92) -/
  | phaseJumpMeasured (jumpPs : Int) (predicted : Nat)
  /-- TIN_EDGE (R107) -/
  | tinEdge (n : Fin 25) (rising : Bool) (inst : Nat)
  /-- TURN_LOST (R259) -/
  | turnLost
  /-- TIN_SETTLE_END (R102) -/
  | tinSettleEnd (n : Fin 16) (inBand raw : Bool)
  /-- LOOP_UNLOCK (R104) -/
  | loopUnlock
  /-- TDC_CAL_INTERVAL (R105) -/
  | tdcCalInterval
  /-- TDC_CAL_DONE (R105) -/
  | tdcCalDone (n : Fin 16) (conv : Bool) (deviation : Nat)
  /-- CAL_NOW (R105) -/
  | calNow (path : Path)
  /-- PAIR_WIN_EXPIRE (R109) -/
  | pairWinExpire (n : Fin 16)
  /-- FREQ_GATE_END (R112) -/
  | freqGateEnd (n : Fin 16)
  /-- STATS_COMPLETE (R113) -/
  | statsComplete (n : Fin 16)
  /-- TDC_RING_WRITE_ACK (R114) -/
  | tdcRingWriteAck (error : Bool)
  /-- TIME_SRC_ERROR (R117) -/
  | timeSrcError (errorFs : Int)
  /-- TIME_SRC_LOST (R117) -/
  | timeSrcLost
  /-- SET_ARM (R118) -/
  | setArm (path : Path) (value : BitVec 32)
  /-- BOUNDARY_MARKER_STAMP (R121) -/
  | boundaryMarkerStamp (k : Fin 8) (block ot : Nat)
  /-- ANCHOR_WRITE_ACK (R350) -/
  | anchorWriteAck (error : Bool)
  /-- EPOCH_ANNOUNCE (R124) -/
  | epochAnnounce
  /-- EPOCH_BOUNDARY (R128) -/
  | epochBoundary (marks : List Nat)
  /-- EPOCH_TIMEOUT (R125) -/
  | epochTimeout
  /-- EPO_PAGE_COMPLETE (R128) -/
  | epoPageComplete
  /-- EPO_ACK (R129) -/
  | epoAck (path : Path) (value : BitVec 32)
  /-- NOP (R148) -/
  | jNop (tile : Fin 68) (fl : JFlags)
  /-- HALT (R148) -/
  | jHalt (tile : Fin 68) (fl : JFlags)
  /-- B (R148) -/
  | jB (tile : Fin 68) (fl : JFlags) (g : BitVec 5) (imm : BitVec 16) (target : BitVec 14)
  /-- CALL (R156) -/
  | jCall (tile : Fin 68) (fl : JFlags) (g : BitVec 5) (imm : BitVec 16) (target : BitVec 14)
  /-- RET (R156) -/
  | jRet (tile : Fin 68) (fl : JFlags)
  /-- REP (R155) -/
  | jRep (tile : Fin 68) (fl : JFlags) (g : BitVec 5) (imm : BitVec 16) (target : BitVec 14)
  /-- BRK (R155) -/
  | jBrk (tile : Fin 68) (fl : JFlags) (g : BitVec 5) (imm : BitVec 16) (target : BitVec 14)
  /-- WAITEV (R154) -/
  | jWaitev (tile : Fin 68) (fl : JFlags) (d : BitVec 5) (mask : BitVec 6)
  /-- EVCLR (R157) -/
  | jEvclr (tile : Fin 68) (fl : JFlags) (d : BitVec 5) (mask : BitVec 6)
  /-- FENCE (R161) -/
  | jFence (tile : Fin 68) (fl : JFlags)
  /-- ADD (R148) -/
  | jAdd (tile : Fin 68) (fl : JFlags) (d sr t : BitVec 5)
  /-- SUB (R148) -/
  | jSub (tile : Fin 68) (fl : JFlags) (d sr t : BitVec 5)
  /-- AND (R148) -/
  | jAnd (tile : Fin 68) (fl : JFlags) (d sr t : BitVec 5)
  /-- OR (R148) -/
  | jOr (tile : Fin 68) (fl : JFlags) (d sr t : BitVec 5)
  /-- XOR (R148) -/
  | jXor (tile : Fin 68) (fl : JFlags) (d sr t : BitVec 5)
  /-- SHL (R148) -/
  | jShl (tile : Fin 68) (fl : JFlags) (d sr t : BitVec 5)
  /-- SHR (R148) -/
  | jShr (tile : Fin 68) (fl : JFlags) (d sr t : BitVec 5)
  /-- SAR (R148) -/
  | jSar (tile : Fin 68) (fl : JFlags) (d sr t : BitVec 5)
  /-- MUL (R148) -/
  | jMul (tile : Fin 68) (fl : JFlags) (d sr t : BitVec 5)
  /-- MULH (R148) -/
  | jMulh (tile : Fin 68) (fl : JFlags) (d sr t : BitVec 5)
  /-- MIN (R148) -/
  | jMin (tile : Fin 68) (fl : JFlags) (d sr t : BitVec 5)
  /-- MAX (R148) -/
  | jMax (tile : Fin 68) (fl : JFlags) (d sr t : BitVec 5)
  /-- CLZ (R148) -/
  | jClz (tile : Fin 68) (fl : JFlags) (d sr t : BitVec 5)
  /-- CMP (R148) -/
  | jCmp (tile : Fin 68) (fl : JFlags) (d sr t : BitVec 5)
  /-- MOV (R148) -/
  | jMov (tile : Fin 68) (fl : JFlags) (d sr t : BitVec 5)
  /-- ADDI (R148) -/
  | jAddi (tile : Fin 68) (fl : JFlags) (d sr : BitVec 5) (imm : BitVec 32)
  /-- ANDI (R148) -/
  | jAndi (tile : Fin 68) (fl : JFlags) (d sr : BitVec 5) (imm : BitVec 32)
  /-- ORI (R148) -/
  | jOri (tile : Fin 68) (fl : JFlags) (d sr : BitVec 5) (imm : BitVec 32)
  /-- XORI (R148) -/
  | jXori (tile : Fin 68) (fl : JFlags) (d sr : BitVec 5) (imm : BitVec 32)
  /-- SHLI (R148) -/
  | jShli (tile : Fin 68) (fl : JFlags) (d sr : BitVec 5) (imm : BitVec 32)
  /-- SHRI (R148) -/
  | jShri (tile : Fin 68) (fl : JFlags) (d sr : BitVec 5) (imm : BitVec 32)
  /-- SARI (R148) -/
  | jSari (tile : Fin 68) (fl : JFlags) (d sr : BitVec 5) (imm : BitVec 32)
  /-- CMPI (R148) -/
  | jCmpi (tile : Fin 68) (fl : JFlags) (d sr : BitVec 5) (imm : BitVec 32)
  /-- LI (R148) -/
  | jLi (tile : Fin 68) (fl : JFlags) (d sr : BitVec 5) (imm : BitVec 32)
  /-- LDW (R148) -/
  | jLdw (tile : Fin 68) (fl : JFlags) (g : BitVec 5) (a : BitVec 3) (off : BitVec 32)
  /-- STW (R148) -/
  | jStw (tile : Fin 68) (fl : JFlags) (g : BitVec 5) (a : BitVec 3) (off : BitVec 32)
  /-- LDH (R148) -/
  | jLdh (tile : Fin 68) (fl : JFlags) (g : BitVec 5) (a : BitVec 3) (off : BitVec 32)
  /-- STH (R148) -/
  | jSth (tile : Fin 68) (fl : JFlags) (g : BitVec 5) (a : BitVec 3) (off : BitVec 32)
  /-- LDP (R144) -/
  | jLdp (tile : Fin 68) (fl : JFlags) (d sr : BitVec 5) (imm : BitVec 32)
  /-- RDS (R143) -/
  | jRds (tile : Fin 68) (fl : JFlags) (d sr : BitVec 5) (imm : BitVec 32)
  /-- WRS (R143) -/
  | jWrs (tile : Fin 68) (fl : JFlags) (d sr : BitVec 5) (imm : BitVec 32)
  /-- ACFG (R142) -/
  | jAcfg (tile : Fin 68) (fl : JFlags) (a : BitVec 3) (g : BitVec 5) (imm : BitVec 32)
  /-- AADD (R142) -/
  | jAadd (tile : Fin 68) (fl : JFlags) (a : BitVec 3) (g : BitVec 5) (imm : BitVec 32)
  /-- MOVA (R142) -/
  | jMova (tile : Fin 68) (fl : JFlags) (a : BitVec 3) (g : BitVec 5) (imm : BitVec 32)
  /-- MOVG (R142) -/
  | jMovg (tile : Fin 68) (fl : JFlags) (a : BitVec 3) (g : BitVec 5) (imm : BitVec 32)
  /-- WAITIN (R154) -/
  | jWaitin (tile : Fin 68) (fl : JFlags) (v : JV)
  /-- INADV (R135) -/
  | jInadv (tile : Fin 68) (fl : JFlags) (v : JV)
  /-- WAITX (R265) -/
  | jWaitx (tile : Fin 68) (fl : JFlags) (v : JV)
  /-- FFTR (R150) -/
  | jFftr (tile : Fin 68) (fl : JFlags) (v : JV)
  /-- FFTC (R150) -/
  | jFftc (tile : Fin 68) (fl : JFlags) (v : JV)
  /-- IFFTC (R150) -/
  | jIfftc (tile : Fin 68) (fl : JFlags) (v : JV)
  /-- DET (R153) -/
  | jDet (tile : Fin 68) (fl : JFlags) (v : JV)
  /-- XSPEC (R148) -/
  | jXspec (tile : Fin 68) (fl : JFlags) (v : JV)
  /-- MASKC (R291) -/
  | jMaskc (tile : Fin 68) (fl : JFlags) (v : JV)
  /-- NCO (R225) -/
  | jNco (tile : Fin 68) (fl : JFlags) (v : JV)
  /-- DECIM (R228) -/
  | jDecim (tile : Fin 68) (fl : JFlags) (v : JV)
  /-- THR (R293) -/
  | jThr (tile : Fin 68) (fl : JFlags) (v : JV)
  /-- FEAT (R296) -/
  | jFeat (tile : Fin 68) (fl : JFlags) (v : JV)
  /-- VADD (R148) -/
  | jVadd (tile : Fin 68) (fl : JFlags) (v : JV)
  /-- VSUB (R148) -/
  | jVsub (tile : Fin 68) (fl : JFlags) (v : JV)
  /-- VMUL (R148) -/
  | jVmul (tile : Fin 68) (fl : JFlags) (v : JV)
  /-- VCMUL (R148) -/
  | jVcmul (tile : Fin 68) (fl : JFlags) (v : JV)
  /-- VSCALE (R148) -/
  | jVscale (tile : Fin 68) (fl : JFlags) (v : JV)
  /-- VCONV (R148) -/
  | jVconv (tile : Fin 68) (fl : JFlags) (v : JV)
  /-- CDOT (R148) -/
  | jCdot (tile : Fin 68) (fl : JFlags) (v : JV)
  /-- BCOPY (R148) -/
  | jBcopy (tile : Fin 68) (fl : JFlags) (v : JV)
  /-- FILL (R148) -/
  | jFill (tile : Fin 68) (fl : JFlags) (v : JV)
  /-- SPOUT (R160) -/
  | jSpout (tile : Fin 68) (fl : JFlags) (v : JV)
  /-- TRGC (R284) -/
  | jTrgc (tile : Fin 68) (fl : JFlags) (v : JV)
  /-- XMIT (R160) -/
  | jXmit (tile : Fin 68) (fl : JFlags) (v : JV)
  /-- XLD (R161) -/
  | jXld (tile : Fin 68) (fl : JFlags) (v : JV)
  /-- XCH (R160) -/
  | jXch (tile : Fin 68) (fl : JFlags) (v : JV)
  /-- CUSTOMER_INSTR (R182) -/
  | customerInstr (tile : Fin 68) (word : BitVec 64) (ecc : MicEcc)
  /-- TILE_UWD (R184) -/
  | tileUwd (tile : Fin 68) (opcode : BitVec 8) (upc : BitVec 12)
  /-- XLD_LAND (R161) -/
  | xldLand (tile : Fin 68)
  /-- XCH_ARRIVAL (R264) -/
  | xchArrival (g : Fin 64) (sender : Fin 68) (items : Nat)
  /-- PARAM_WRITE (R217) -/
  | paramWrite (path : Path) (tile : Fin 68) (p : BitVec 8) (value : BitVec 32)
  /-- PAIR_FIRST_WRITE (R216) -/
  | pairFirstWrite (path : Path) (pair : LvPair) (value : BitVec 32)
  /-- PAIR_SECOND_WRITE (R216) -/
  | pairSecondWrite (path : Path) (pair : LvPair) (value : BitVec 32)
  /-- PRG_LOAD (R199) -/
  | prgLoad (via : Via)
  /-- PRG_VALIDATION_END (R200) -/
  | prgValidationEnd
  /-- PRG_COMMIT (R206) -/
  | prgCommit (via : Via) (atEpoch : Bool)
  /-- COMMIT_VALIDATION_END (R206) -/
  | commitValidationEnd
  /-- PRG_ABORT (R208) -/
  | prgAbort (via : Via)
  /-- PRG_RESUME (R219) -/
  | prgResume (via : Via)
  /-- PRG_HOLD (R218) -/
  | prgHold (via : Via)
  /-- STORE_BOOT (R220) -/
  | storeBoot (via : Via)
  /-- BOOT_STORE_DONE (R220) -/
  | bootStoreDone (ok : Bool)
  /-- TILE_RELOAD_DONE (R212) -/
  | tileReloadDone (tile : Fin 68)
  /-- GROUP_LATE (R214) -/
  | groupLate (g : Fin 64) (tile : Fin 68)
  /-- RPL_GO (R270) -/
  | rplGo (path : Path) (k : Fin 8) (src rate : Fin 8)
  /-- RPL_BLOCK_FEED (R271) -/
  | rplBlockFeed (k : Fin 8) (stall : Nat)
  /-- RPL_STOP (R273) -/
  | rplStop (path : Path) (k : Fin 8) (src rate : Fin 8)
  /-- COMBINER_EVENT_ARRIVAL (R285) -/
  | combinerEventArrival (code : BitVec 12) (t : Nat)
  /-- CELL_FIRE (R287) -/
  | cellFire (c : Fin 64) (u : Nat)
  /-- TOUT_PULSE_END (R288) -/
  | toutPulseEnd (n : Fin 8)
  /-- TIMER_FIRE (R289) -/
  | timerFire (j : Fin 8) (t : Nat)
  /-- SW_TRIGGER (R289) -/
  | swTrigger (path : Path) (value : BitVec 32)
  /-- DEF_REARM (R301) -/
  | defRearm (d : Fin 32)
  /-- RECORD_TIMEOUT (R302) -/
  | recordTimeout (d : Fin 32)
  /-- REC_COPY_BLOCK (R303) -/
  | recCopyBlock (j : Nat)
  /-- ITEM_RECORD_ARRIVAL (R310) -/
  | itemRecordArrival (d : Fin 32) (item : List Byte)
  /-- RECORD_WRITE_ACKED (R311) -/
  | recordWriteAcked
  /-- INDEX_WRITE_ACK (R311) -/
  | indexWriteAck
  /-- RTV_DOORBELL (R313) -/
  | rtvDoorbell (path : Path) (tail : BitVec 16)
  /-- RTV_START (R314) -/
  | rtvStart
  /-- RTV_COMPLETE (R315) -/
  | rtvComplete (j : Nat)
  /-- PLANNED_STALL_RETRY (R335) -/
  | plannedStallRetry
  /-- FC_GO (R341) -/
  | fcGo (path : Path) (value : BitVec 32)
  /-- FREQ_CHANGE_DONE (R341) -/
  | freqChangeDone (aligned : Bool)
  /-- REFRESH_DUE (R340) -/
  | refreshDue (h : Fin 128)
  /-- SCRUB_READ (R344) -/
  | scrubRead (h : Fin 128) (bank : Fin 48) (row : BitVec 16) (col : Fin 32) (corrected : Bool)
  /-- PC_FREEZE (R351) -/
  | pcFreeze (h : Fin 128) (cause : Fin 3) (bank : Fin 48) (row : BitVec 16) (col : Fin 32) (synd : BitVec 16)
  /-- LOSS_ENTRY_ACK (R354) -/
  | lossEntryAck
  /-- PC_RELEASE (R355) -/
  | pcRelease (h : Fin 128)
  /-- PC_REINIT_DONE (R355) -/
  | pcReinitDone (h : Fin 128) (passed : Bool) (rows : List (Fin 48 × BitVec 16))
  /-- PC_RETIRE (R355) -/
  | pcRetire (h : Fin 128)
  /-- SOFT_REPAIR (R345) -/
  | softRepair (h : Fin 128) (bank : Fin 48) (row : BitVec 16)
  /-- HARD_REPAIR (R345) -/
  | hardRepair (h : Fin 128) (bank : Fin 48) (row : BitVec 16)
  /-- OPL_RECORD_ARRIVAL (R362) -/
  | oplRecordArrival (l : Fin 16) (item : List Byte)
  /-- OPL_PLOT (R364) -/
  | oplPlot (p : Fin 17)
  /-- OPL_DECAY_STEP (R366) -/
  | oplDecayStep (p : Fin 17)
  /-- OPL_FRAME_REQUEST (R371) -/
  | oplFrameRequest (p : Fin 17)
  /-- OPL_FLIP (R373) -/
  | oplFlip (p : Fin 17)
  /-- VID_BASE_COMMIT (R379) -/
  | vidBaseCommit (path : Path) (d : Fin 2) (value : BitVec 32)
  /-- VID_LATCH (R379) -/
  | vidLatch (d : Fin 2) (pinError : BitVec 48)
  /-- FLIP_RETIRED (R381) -/
  | flipRetired (d : Fin 2) (rend : Option (Fin 16))
  /-- HPD_CHANGE (R378) -/
  | hpdChange (d : Fin 2) (hpd : Hpd)
  /-- LINK_TRAIN_DONE (R378) -/
  | linkTrainDone (d : Fin 2) (sinkRate : Fin 4) (sinkLanes : Fin 3) (passed : Bool)
  /-- UNDERRUN (R383) -/
  | underrun (d : Fin 2) (line x : Nat)
  /-- DMA_START (R402) -/
  | dmaStart (path : Path) (c : Fin 32)
  /-- DMA_STOP (R402) -/
  | dmaStop (path : Path) (c : Fin 32)
  /-- DMA_DOORBELL (R400) -/
  | dmaDoorbell (path : Path) (c : Fin 32)
  /-- DMA_DESC_FETCH (R395) -/
  | dmaDescFetch (c : Fin 32) (link : BitVec 64) (desc : List Byte) (error : Bool)
  /-- DMA_WRITES_ACKED (R398) -/
  | dmaWritesAcked (c : Fin 32) (n : Nat) (src : List Byte) (error : Bool)
  /-- DMA_READBACK_DONE (R398) -/
  | dmaReadbackDone (c : Fin 32) (src dst : List Byte) (error : Bool)
  /-- DMA_PROGRESS (R399) -/
  | dmaProgress (c : Fin 32) (src : List Byte) (error : Bool)
  /-- DMA_DRAIN (R406) -/
  | dmaDrain (domain : Fin 3)
  /-- DMA_DRAIN_TIMEOUT (R406) -/
  | dmaDrainTimeout (domain : Fin 3)
  /-- BAR_ACCESS (R409) -/
  | barAccess (port : Fin 2) (bar2 : Bool) (offset : BitVec 64) (len : Nat) (write : Option (List Byte))
  /-- PCI_INBOUND (R411) -/
  | pciInbound (p : Fin 2) (addr : BitVec 64) (len : Nat) (write : Option (List Byte))
  /-- PCI_CFG_ACCESS (R411) -/
  | pciCfgAccess (path : Path) (p : Fin 2) (write : Option (BitVec 32)) (result : Fin 4) (data : BitVec 32)
  /-- PCI_DISABLE (R408) -/
  | pciDisable (path : Path) (p : Fin 2) (value : BitVec 32)
  /-- PCI_LINK_UP (R412) -/
  | pciLinkUp (p : Fin 2) (speed : Fin 6) (width : Fin 4)
  /-- PCI_LINK_DOWN (R412) -/
  | pciLinkDown (p : Fin 2)
  /-- PCI_AER (R407) -/
  | pciAer (p : Fin 2) (status requester : BitVec 32)
  /-- STREAM_ITEM (R417) -/
  | streamItem (stream : Fin 64) (item : List Byte)
  /-- SUB_SEND (R425) -/
  | subSend (n : Fin 256) (entry : List Byte)
  /-- JOIN (R422) -/
  | join (via : JoinVia)
  /-- LEAVE (R423) -/
  | leave (via : Via) (gen : BitVec 16) (n : Fin 256)
  /-- STM_RING_DB (R431) -/
  | stmRingDb (path : Path) (n : Fin 256) (entry : List Byte)
  /-- PCIE_RING_POLL (R431) -/
  | pcieRingPoll (n : Fin 256) (entry : List Byte)
  /-- NEXT_HOP_RETRY (R428) -/
  | nextHopRetry (n : Fin 256)
  /-- ETH_RX_FRAME (R427) -/
  | ethRxFrame (p : Fin 6) (frame : EthFrame)
  /-- PTP_MESSAGE_RX (R430) -/
  | ptpMessageRx (p : Fin 6) (domain : BitVec 8) (transport : Fin 3) (m : PtpMsg)
  /-- PTP_ANNOUNCE_TIMEOUT (R430) -/
  | ptpAnnounceTimeout
  /-- NVME_CMD_COMPLETE (R434) -/
  | nvmeCmdComplete (d : Fin 32) (j : Nat) (status : BitVec 16)
  /-- NVME_CMD_TIMEOUT (R434) -/
  | nvmeCmdTimeout (d : Fin 32) (j : Nat)
  /-- NVM_FLUSH_TIMER (R435) -/
  | nvmFlushTimer (d : Fin 32)
  /-- NVM_SET_START (R439) -/
  | nvmSetStart (n : Fin 4) (probes : List NvmProbe)
  /-- NVM_FORMAT (R439) -/
  | nvmFormat (path : Path) (n : Fin 4) (capacities : List (Fin 32 × Nat))
  /-- LINK_SIGNAL_DETECT (R445) -/
  | linkSignalDetect (p : Fin 6) (lanes : BitVec 5)
  /-- LINK_BRINGUP_STEP_DONE (R445) -/
  | linkBringupStepDone (p : Fin 6) (uid : BitVec 64) (rport : Fin 6) (mode : Fin 4) (asymPs : Int)
  /-- LINK_SIGNAL_LOSS (R445) -/
  | linkSignalLoss (p : Fin 6) (lane : Fin 5)
  /-- FLIT_CRC_FAIL (R444) -/
  | flitCrcFail (p : Fin 6) (retry : Bool)
  /-- HELLO_SEND (R449) -/
  | helloSend (p : Fin 6)
  /-- HELLO_RX (R449) -/
  | helloRx (p : Fin 6) (h : FabHello)
  /-- NBR_TIMEOUT (R449) -/
  | nbrTimeout (p : Fin 6)
  /-- LSA_RX (R451) -/
  | lsaRx (p : Fin 6) (h : FabHdr) (l : FabLsa)
  /-- LSA_REFRESH (R451) -/
  | lsaRefresh
  /-- LSA_EXPIRE (R451) -/
  | lsaExpire (uid : BitVec 64)
  /-- ROUTE_INSTALL (R456) -/
  | routeInstall
  /-- ADDR_CLAIM_TIMER (R454) -/
  | addrClaimTimer
  /-- TIME_EXCHANGE (R462) -/
  | timeExchange (p : Fin 6) (t1 : BitVec 96)
  /-- TIME_RX (R462) -/
  | timeRx (p : Fin 6) (m : FabTime)
  /-- FAB_TIME_SERVO (R465) -/
  | fabTimeServo
  /-- GM_ANNOUNCE (R464) -/
  | gmAnnounce
  /-- GM_TIMEOUT (R464) -/
  | gmTimeout
  /-- FAB_TRIGGER_RX (R459) -/
  | fabTriggerRx (h : FabHdr) (tree : Fin 2) (id : Fin 64) (cell : BitVec 8) (t : BitVec 96) (tseq : BitVec 32)
  /-- FAB_ITEM_RX (R468) -/
  | fabItemRx (h : FabHdr) (entry : List Byte)
  /-- FAB_RTV_REQ_RX (R467) -/
  | fabRtvReqRx (h : FabHdr) (entry : List Byte)
  /-- FAB_CREDIT_RX (R466) -/
  | fabCreditRx (h : FabHdr) (grant : Bool) (n : BitVec 32)
  /-- FAB_RX_RD_WRITE (R468) -/
  | fabRxRdWrite (path : Path) (value : BitVec 32)
  /-- CAL_TRIGGER (R475) -/
  | calTrigger (k : Fin 8) (sl : Fin 34)
  /-- CAL_RUN (R475) -/
  | calRun (path : Path) (k : Fin 8) (sl : Fin 34)
  /-- CAL_RUN_DIE (R475) -/
  | calRunDie (path : Path) (k : Fin 8)
  /-- CAL_RUN_START (R476) -/
  | calRunStart (k : Fin 8)
  /-- CAL_COMPARE (R479) -/
  | calCompare (k : Fin 8) (pass : Bool)
  /-- CAL_RUN_DONE (R481) -/
  | calRunDone (k : Fin 8) (offs gain skew : List Int) (term : Int)
  /-- CAL_HOLD_END (R483) -/
  | calHoldEnd (k : Fin 8)
  /-- CAL_QUIET_OPEN (R484) -/
  | calQuietOpen (k : Fin 8)
  /-- CAL_FORCE (R484) -/
  | calForce (k : Fin 8)
  /-- CAL_APPLY (R488) -/
  | calApply (path : Path) (k : Fin 8) (sl : Fin 34) (whole : Bool)
  /-- CAL_EXPORT (R489) -/
  | calExport (path : Path) (attic : Bool)
  /-- CAL_IMPORT (R490) -/
  | calImport (path : Path)
  /-- CAL_COMMIT_ARM (R491) -/
  | calCommitArm (path : Path) (key : BitVec 32)
  /-- CAL_COMMIT (R491) -/
  | calCommit (path : Path)
  /-- CAL_CLEAR_SUSPECT (R482) -/
  | calClearSuspect (path : Path) (k : Fin 8) (sl : Fin 34)
  /-- CAL_COPY (R487) -/
  | calCopy (path : Path) (k : Fin 8) (sl : Fin 34) (whole : Bool)
  /-- PAN_MONITOR_SAMPLE (R510) -/
  | panMonitorSample (sample : PanSample)
  /-- PAN_HISTORY_HOUR (R524) -/
  | panHistoryHour
  /-- PAN_APPROVE (R514) -/
  | panApprove (path : Path) (kind : BitVec 4) (unit : BitVec 16)
  /-- PAN_DECLINE (R514) -/
  | panDecline (path : Path) (kind : BitVec 4) (unit : BitVec 16)
  /-- PAN_SWAP (R513) -/
  | panSwap (path : Path) (kind : BitVec 4) (unit : BitVec 16)
  /-- PAN_ROTATE_NOW (R515) -/
  | panRotateNow (path : Path) (kind : BitVec 4) (unit : BitVec 16)
  /-- PAN_RETIRE (R497) -/
  | panRetire (path : Path) (kind : BitVec 4) (unit : BitVec 16)
  /-- ROTATION_STEP (R515) -/
  | rotationStep (d : Fin 2)
  /-- MIGRATION_LOAD_DONE (R501) -/
  | migrationLoadDone (d : Fin 2)
  /-- HALT_EVENT (R159) -/
  | haltEvent (tile : Fin 68)
  /-- SELFTEST_DONE (R516) -/
  | selftestDone (renderer : Bool) (unit : Fin 68) (fail : Option (Fin 4)) (rows : Option (Fin 33))
  /-- OPAL_ROTATION (R517) -/
  | opalRotation
  /-- OPAL_COPY_DONE (R504) -/
  | opalCopyDone
  /-- MEM_MOVE_COPY_DONE (R505) -/
  | memMoveCopyDone
  /-- LANE_SWAP (R508) -/
  | laneSwap (p : Fin 6) (ok : Bool)
  /-- CORE_OFFLINE_ACK (R568) -/
  | coreOfflineAck
  /-- CORE_SWAP_TIMEOUT (R568) -/
  | coreSwapTimeout
  /-- SUPPLY_CMP_CROSSING (R530) -/
  | supplyCmpCrossing (y : Fin 3) (good : Bool)
  /-- SUPPLY_QUALIFIED_LOW (R531) -/
  | supplyQualifiedLow (y : Fin 2)
  /-- SWITCH_MOVE_DONE (R534) -/
  | switchMoveDone (ns : BitVec 32)
  /-- RETURN_COUNT_EXPIRE (R535) -/
  | returnCountExpire
  /-- RETURN_A (R535) -/
  | returnA (path : Path)
  /-- FORCE_B (R535) -/
  | forceB (path : Path)
  /-- PWR_STANDBY (R542) -/
  | pwrStandby (path : Path) (forced : Bool)
  /-- OS_SHUTDOWN_DONE (R542) -/
  | osShutdownDone (reported : Bool)
  /-- WAKE (R539) -/
  | wake (path : Path)
  /-- PWR_CYCLE (R580) -/
  | pwrCycle (path : Path)
  /-- VHK_LOW (R538) -/
  | vhkLow (reading : BitVec 16)
  /-- VHK_POWER_LOSS (R538) -/
  | vhkPowerLoss
  /-- VHK_POWER_ON (R539) -/
  | vhkPowerOn
  /-- RAIL_STEP_DONE (R541) -/
  | railStepDone
  /-- RAIL_FAIL (R541) -/
  | railFail (rail : Fin 8)
  /-- OVERTEMP_STOP (R544) -/
  | overtempStop (site : Fin 40)
  /-- ADC_PASS_TICK (R546) -/
  | adcPassTick
  /-- ADC_CONVERSION_DONE (R545) -/
  | adcConversionDone (value : BitVec 16)
  /-- ADC_URGENT (R547) -/
  | adcUrgent (path : Path) (input : BitVec 6)
  /-- ROM_BOOT (R551) -/
  | romBoot (bootsel : BitVec 3)
  /-- BOOT_WATCHDOG (R552) -/
  | bootWatchdog (bootsel : BitVec 3)
  /-- BOOT_END (R552) -/
  | bootEnd (gpio : BitVec 12)
  /-- OS_READY (R553) -/
  | osReady
  /-- TRNG_FAIL (R557) -/
  | trngFail (adaptive : Bool)
  /-- CZ_SESSION_CONNECT (R564) -/
  | czSessionConnect (conn : Nat) (key issuer : List Byte)
  /-- OPEN (R566) -/
  | czOpen (conn : Nat) (req : BitVec 64)
  /-- SESSION_RESUME (R567) -/
  | sessionResume (conn : Nat) (req sid : BitVec 64)
  /-- READ_REG (R566) -/
  | readReg (conn : Nat) (req : BitVec 64) (body : List Byte)
  /-- WRITE_REG (R566) -/
  | writeReg (conn : Nat) (req : BitVec 64) (body : List Byte)
  /-- READ_MEM (R566) -/
  | readMem (conn : Nat) (req : BitVec 64) (body : List Byte)
  /-- WRITE_MEM (R566) -/
  | writeMem (conn : Nat) (req : BitVec 64) (body : List Byte)
  /-- LOAD_IMAGE (R566) -/
  | loadImage (conn : Nat) (req : BitVec 64) (body : List Byte)
  /-- ATTEST (R561) -/
  | attest (src : CzSource) (req : BitVec 64) (body : List Byte)
  /-- GET_CERT (R556) -/
  | getCert (src : CzSource) (req : BitVec 64)
  /-- CZ_CAL_EXPORT (R566) -/
  | czCalExport (src : CzSource) (req : BitVec 64) (body : List Byte)
  /-- FW_WRITE (R552) -/
  | fwWrite (src : CzSource) (req : BitVec 64) (body : List Byte)
  /-- FW_ACTIVATE (R552) -/
  | fwActivate (src : CzSource) (req : BitVec 64) (body : List Byte)
  /-- LOCK_FW (R555) -/
  | lockFw (src : CzSource) (req : BitVec 64) (ok : Bool)
  /-- LOCK_OWNER (R555) -/
  | lockOwner (src : CzSource) (req : BitVec 64) (ok : Bool)
  /-- PLATFORM_WRITE (R554) -/
  | platformWrite (src : CzSource) (req : BitVec 64) (body : List Byte)
  /-- OWNER_INSTALL (R559) -/
  | ownerInstall (src : CzSource) (req : BitVec 64) (body : List Byte)
  /-- OWNER_UPDATE (R560) -/
  | ownerUpdate (src : CzSource) (req : BitVec 64) (body : List Byte)
  /-- OWNER_CLEAR (R559) -/
  | ownerClear (src : CzSource) (req : BitVec 64) (body : List Byte)
  /-- DEBUG_CHAL (R562) -/
  | debugChal (src : CzSource) (req : BitVec 64)
  /-- DEBUG_TOKEN (R562) -/
  | debugToken (src : CzSource) (req : BitVec 64) (body : List Byte)
  /-- DEBUG_CLOSE (R562) -/
  | debugClose (path : Path)
  /-- DEBUG_LIFE_EXPIRE (R562) -/
  | debugLifeExpire
  /-- DEBUG_CHAL_EXPIRE (R562) -/
  | debugChalExpire
  /-- MBOX_WORD (R563) -/
  | mboxWord (valid last : Bool) (word : BitVec 32)
  /-- EVQ_SUBSCRIBE (R566) -/
  | evqSubscribe (conn : Nat) (req : BitVec 64) (floor : BitVec 8)
  /-- FAULT_FREEZE (R574) -/
  | faultFreeze (source : Fin 22) (inst : BitVec 10)
  /-- SAFE_HOLD_EXPIRE (R575) -/
  | safeHoldExpire
  /-- RCV_HOLD (R575) -/
  | rcvHold (path : Path)
  /-- RCV_WARM (R575) -/
  | rcvWarm (path : Path)
  /-- RCV_PWR_CYCLE (R580) -/
  | rcvPwrCycle (path : Path)
  /-- RESET_N_LOW (R593) -/
  | resetNLow
  /-- WARM_RESET_TIMEOUT (R580) -/
  | warmResetTimeout
  /-- PC_HOLD_EXPIRE (R573) -/
  | pcHoldExpire (h : Fin 128)
  /-- REINIT_TIMEOUT (R572) -/
  | reinitTimeout (unit : ReinitUnit)
  /-- PWR_CYCLE_IGNORED (R581) -/
  | pwrCycleIgnored
  /-- SUPPLY_SETTLE_END (R532) -/
  | supplySettleEnd (y : Fin 3) (state : Fin 3)
  /-- RESET_N_RISE (R593) -/
  | resetNRise
  /-- DIE_RESUMED (R572) -/
  | dieResumed (k : Fin 8)
  /-- UART_RECOVERY_IMAGE (R551) -/
  | uartRecoveryImage (image : List Byte)
  /-- ANNOUNCE_RX (R464) -/
  | announceRx (p : Fin 6) (h : FabHdr) (gm : FabGm)
  /-- CZ_SESSION_END (R567) -/
  | czSessionEnd (conn : Nat)
  /-- PCI_CPL_TIMEOUT (R407) -/
  | pciCplTimeout (p : Fin 2) (chan : Option (Fin 32))
  /-- VERNIER_LOOP_LOCK (R104) -/
  | vernierLoopLock
  /-- TRNG_RECOVERED (R557) -/
  | trngRecovered
  /-- RETURN_SLEW_IN_LOCK_WIN (R93) -/
  | returnSlewInLockWin
  /-- STACK_SLEEP (R342) -/
  | stackSleep (m : Fin 4) (hearthStopped : Bool)
  /-- STACK_WAKE (R342) -/
  | stackWake (m : Fin 4)
  /-- CAL_COMMITTED (R491) -/
  | calCommitted (ok : Bool)
  /-- OPAL_RENDERER_ERROR (R572) -/
  | opalRendererError (p : Fin 17)
deriving DecidableEq, Repr

end Sys2Proof
end

