-- ==== Sys2Proof/Decode.lean ====
section
/-! DEFINITION. The command that a word spells by the operation table's bits.  No row of the table gives bits: a
command reaches the device as a write of a register, a bus transfer or an event, not as a word.  The instruction words of
a tile, which stand in its program memory, are decoded by R145, R146 and R148. -/

namespace Sys2Proof

/-- No word spells a command: no row of the table gives bits. -/
def decodeTableWord (_nbits _w : Nat) : Option Instr := none

/-- The flags of a Jextan instruction word, whose memories report nothing (R145). -/
def vendorFlags (w : BitVec 64) : JFlags :=
  ⟨w.getLsbD 55, w.extractLsb' 52 3, w.getLsbD 51, w.getLsbD 50, w.getLsbD 49, w.getLsbD 48, .clean⟩

/-- The operands of the V format (R146). -/
def vOperands (w : BitVec 64) : JV :=
  ⟨w.extractLsb' 45 3, w.extractLsb' 42 3, w.extractLsb' 39 3, w.extractLsb' 37 2, w.extractLsb' 32 5,
    w.extractLsb' 16 16, w.extractLsb' 0 16⟩

/-- The vendor instruction that a word of program memory is on a tile: its opcode picks the row of R148, whose format
gives the operands; none for an opcode that no row has (R145, R146, R148). -/
def vendorInstr (tile : Fin 68) (w : BitVec 64) : Option Instr :=
  let fl := vendorFlags w
  let d : BitVec 5 := w.extractLsb' 43 5
  let sr : BitVec 5 := w.extractLsb' 38 5
  let t : BitVec 5 := w.extractLsb' 33 5
  let a : BitVec 3 := w.extractLsb' 40 3
  let az : BitVec 3 := w.extractLsb' 45 3
  let ag : BitVec 5 := w.extractLsb' 40 5
  let imm : BitVec 32 := w.extractLsb' 0 32
  let imm16 : BitVec 16 := w.extractLsb' 16 16
  let target : BitVec 14 := w.extractLsb' 0 14
  let mask : BitVec 6 := w.extractLsb' 32 6
  let v := vOperands w
  match (w.extractLsb' 56 8).toNat with
  | 0x00 => some (.jNop tile fl)
  | 0x01 => some (.jHalt tile fl)
  | 0x02 => some (.jB tile fl d imm16 target)
  | 0x03 => some (.jCall tile fl d imm16 target)
  | 0x04 => some (.jRet tile fl)
  | 0x05 => some (.jRep tile fl d imm16 target)
  | 0x06 => some (.jBrk tile fl d imm16 target)
  | 0x07 => some (.jWaitev tile fl d mask)
  | 0x08 => some (.jEvclr tile fl d mask)
  | 0x09 => some (.jFence tile fl)
  | 0x10 => some (.jAdd tile fl d sr t)
  | 0x11 => some (.jSub tile fl d sr t)
  | 0x12 => some (.jAnd tile fl d sr t)
  | 0x13 => some (.jOr tile fl d sr t)
  | 0x14 => some (.jXor tile fl d sr t)
  | 0x15 => some (.jShl tile fl d sr t)
  | 0x16 => some (.jShr tile fl d sr t)
  | 0x17 => some (.jSar tile fl d sr t)
  | 0x18 => some (.jMul tile fl d sr t)
  | 0x19 => some (.jMulh tile fl d sr t)
  | 0x1A => some (.jMin tile fl d sr t)
  | 0x1B => some (.jMax tile fl d sr t)
  | 0x1C => some (.jClz tile fl d sr t)
  | 0x1D => some (.jCmp tile fl d sr t)
  | 0x1E => some (.jMov tile fl d sr t)
  | 0x20 => some (.jAddi tile fl d sr imm)
  | 0x21 => some (.jAndi tile fl d sr imm)
  | 0x22 => some (.jOri tile fl d sr imm)
  | 0x23 => some (.jXori tile fl d sr imm)
  | 0x24 => some (.jShli tile fl d sr imm)
  | 0x25 => some (.jShri tile fl d sr imm)
  | 0x26 => some (.jSari tile fl d sr imm)
  | 0x27 => some (.jCmpi tile fl d sr imm)
  | 0x28 => some (.jLi tile fl d sr imm)
  | 0x30 => some (.jLdw tile fl d a imm)
  | 0x31 => some (.jStw tile fl d a imm)
  | 0x32 => some (.jLdh tile fl d a imm)
  | 0x33 => some (.jSth tile fl d a imm)
  | 0x34 => some (.jLdp tile fl d sr imm)
  | 0x35 => some (.jRds tile fl d sr imm)
  | 0x36 => some (.jWrs tile fl d sr imm)
  | 0x38 => some (.jAcfg tile fl az ag imm)
  | 0x39 => some (.jAadd tile fl az ag imm)
  | 0x3A => some (.jMova tile fl az ag imm)
  | 0x3B => some (.jMovg tile fl az ag imm)
  | 0x40 => some (.jWaitin tile fl v)
  | 0x41 => some (.jInadv tile fl v)
  | 0x42 => some (.jWaitx tile fl v)
  | 0x50 => some (.jFftr tile fl v)
  | 0x51 => some (.jFftc tile fl v)
  | 0x52 => some (.jIfftc tile fl v)
  | 0x53 => some (.jDet tile fl v)
  | 0x54 => some (.jXspec tile fl v)
  | 0x55 => some (.jMaskc tile fl v)
  | 0x56 => some (.jNco tile fl v)
  | 0x57 => some (.jDecim tile fl v)
  | 0x58 => some (.jThr tile fl v)
  | 0x59 => some (.jFeat tile fl v)
  | 0x60 => some (.jVadd tile fl v)
  | 0x61 => some (.jVsub tile fl v)
  | 0x62 => some (.jVmul tile fl v)
  | 0x63 => some (.jVcmul tile fl v)
  | 0x64 => some (.jVscale tile fl v)
  | 0x65 => some (.jVconv tile fl v)
  | 0x66 => some (.jCdot tile fl v)
  | 0x68 => some (.jBcopy tile fl v)
  | 0x69 => some (.jFill tile fl v)
  | 0x70 => some (.jSpout tile fl v)
  | 0x71 => some (.jTrgc tile fl v)
  | 0x72 => some (.jXmit tile fl v)
  | 0x73 => some (.jXld tile fl v)
  | 0x74 => some (.jXch tile fl v)
  | _ => none

end Sys2Proof
end

