-- ==== Sys2Proof/Config.lean ====
section
/-! DEFINITION. What the manual leaves open and the machine goes on with: free values.  Each is an
opaque constant without a body, so no proof can see what it is.  `State.free` counts the draws. -/

namespace Sys2Proof

/-- A free value: the n-th draw of an open value (`kind` names what is open, `args` the operands the
value may depend on). -/
opaque Config.free : String → List Int → Nat → Nat

/-- The bytes of a fresh random string (TRNG output, R557): the n-th draw of `len` bytes. -/
opaque Config.random : Nat → Nat → List Byte

/-- The device's signature (by a key of Onyx or of the unit) over a message: key name, message. -/
opaque Config.sign : String → List Byte → List Byte

/-- The public key of the device identity key, 64 bytes (R556). -/
opaque Config.identityPub : List Byte

/-- The vendor's public key, 64 bytes; the fuses hold its SHA-256 (R549, R550). -/
opaque Config.vendorPub : List Byte

/-- The device's certificate and its chain, in the Attic (R556). -/
opaque Config.certificate : List Byte

/-- The tap h[i] of the half-band filter of DECIM (R229), which the manual does not list. -/
opaque Config.halfBandTap : Nat → Int

end Sys2Proof
end

