-- ==== Sys2Proof/Machine/Reg.lean ====
section
/-! DEFINITION. The names of the register blocks (R29), of the control registers, and of the access
types of R11.  Where each register lies and what its fields are is in `Machine/RegMap.lean`. -/

namespace Sys2Proof.Machine

/-- The register blocks of R29, in the order of their source index. -/
inductive Block where
  | SYS | PWR | CLK | TDC | EPO | EVQ | TRG | CEL | LND | DMA | STM
  | NVM | PCI | FAB | CAL | PAN | SEC | HK | VID | OPL | CNV | GT
deriving DecidableEq, Repr

/-- The access types of R11.  `LVT` is an LV field whose description says that it reads the target. -/
inductive Acc where
  | RW | RO | WO | W1C | W1S | RC | ST | LV | LVT
deriving DecidableEq, Repr

/-- Every control register of the manual, in the order of the chapters.  An indexed register is one
name; its instances are numbered (block instance first, then the indices of its offset). -/
inductive Reg where
  | EVQ_BASE_LO | EVQ_BASE_HI | EVQ_SIZE | EVQ_CTRL | EVQ_TAIL
  | EVQ_HEAD | EVQ_DROPPED | EVQ_STATUS | CNV_ID | CNV_CTRL
  | CNV_STATUS | CNV_SEQ_LO | CNV_SEQ_HI | CNV_CH_CFG | CNV_CH_UOFFS
  | CNV_CH_UGAIN | CNV_CH_CMP_HI | CNV_CH_CMP_LO | CNV_CH_CMP_CFG | CNV_CH_CMP_STAT
  | CNV_CH_ROUTE | CNV_CH_FLAGS | CNV_CH_PROT_COUNT | CNV_SL_TRIM_A | CNV_SL_TRIM_B
  | CNV_SL_STATE | CLK_STATUS | CLK_REF_CFG | CLK_REF_NOM | CLK_SYN_INT
  | CLK_SYN_FRAC | CLK_SYN_OFFSET | CLK_POLICY | CLK_CEIL | CLK_BYP
  | CLK_JC_CFG | CLK_TCLK_INT | CLK_TCLK_FRAC | CLK_JUMP | CLK_FREQ_ERR
  | CLK_FLAGS | CLK_DIE_DLY | CLK_CKO_CFG | CLK_CKO_DLY | CLK_CKO_STAT
  | TDC_STATUS | TDC_TIME_CFG | TDC_CAL | TDC_OT_CAP | TDC_OT_SET
  | TDC_RING_BASE_LO | TDC_RING_BASE_HI | TDC_RING_PTR | TDC_RING_DROPPED | TDC_IN_CFG
  | TDC_IN_FUNC | TDC_IN_PARAM | TDC_IN_STAT | TDC_IN_ERR | TDC_IN_DEAD
  | EPO_CFG | EPO_PERIOD | EPO_TYPE_SEQ | EPO_PAGE_BASE | EPO_ACK
  | EPO_NUM_LO | EPO_NUM_HI | EPO_COUNTS | GT_ID | GT_STATUS
  | GT_PC | GT_FAULT | GT_FRAME | GT_RING | GT_LOST
  | GT_OUT_DROPS | GT_ECC_CORR | GT_UDISP_A | GT_UDISP_B | GT_UFAULT
  | SYS_ID | SYS_IMG_ADDR_LO | SYS_IMG_ADDR_HI | SYS_IMG_LEN | SYS_PRG_CMD
  | SYS_PRG_EPOCH_LO | SYS_PRG_EPOCH_HI | SYS_PRG_STATUS | SYS_PRG_REPORT_LO | SYS_PRG_REPORT_HI
  | SYS_PRG_ERRORS | SYS_PRG_POLICY | SYS_HELD_DISCARDS | SYS_PRG_DIGEST | GT_NCO_FLO
  | GT_NCO_FHI | GT_NCO_STAT | GT_NCO_PHASE | GT_DSP_SAT | SYS_OCT_STAT
  | SYS_RPL_START_LO | SYS_RPL_START_HI | SYS_RPL_LEN | SYS_RPL_CTRL | SYS_RPL_STAT
  | EPO_TURN_CFG | EPO_TURN_DLY | EPO_TURN_STAT | EPO_TURN_ERR | EPO_TURN_BASE_LO
  | EPO_TURN_BASE_HI | GT_XRX_CFG | GT_XRX_STAT | GT_XRX_DROPS | TRG_SW
  | TRG_TOUT_CFG | TRG_TMR_PERIOD | TRG_TMR_PHASE | TRG_PIN_BUDGET | TRG_PIN_USED
  | TRG_RTV_BASE_LO | TRG_RTC_BASE_LO | TRG_RTV_BASE_HI | TRG_RTC_BASE_HI | TRG_RTV_PTR
  | TRG_RTC_PTR | TRG_REC_CFG | TRG_IDX_NEXT_LO | TRG_IDX_NEXT_HI | TRG_CELL_IN
  | TRG_CELL_TERM | TRG_CELL_CFG | TRG_CELL_WIN | TRG_CELL_OUT | TRG_CELL_GRP_LO
  | TRG_CELL_GRP_HI | TRG_CELL_FIRES | TRG_CELL_LATE | TRG_DEF_CFG | TRG_DEF_PRE
  | TRG_DEF_POST | TRG_DEF_MAXEXT | TRG_DEF_TIMEOUT | TRG_DEF_CNT | TRG_DEF_STAT
  | TRG_DEF_CH | CEL_STATUS | CEL_RING_CFG | CEL_REFRESH | CEL_SCRUB
  | CEL_FC_CTRL | CEL_FC_STAT | CEL_ECC_CORR | CEL_ECC_UNCORR | CEL_POISON
  | CEL_REPAIR | CEL_FROZEN | CEL_FREEZE_CMD | CEL_DIAG_SEL | CEL_DIAG_ADDR
  | CEL_DIAG_SYND | CEL_LOSS_NEXT_LO | CEL_LOSS_NEXT_HI | CEL_ANCHOR_NEXT_LO | CEL_ANCHOR_NEXT_HI
  | CEL_RING_OFS | CEL_HEAD_LO | CEL_HEAD_HI | CEL_FLOOR_LO | CEL_FLOOR_HI
  | CEL_PREV_OFS | CEL_PREV_LAST_LO | CEL_PREV_LAST_HI | LND_STATUS | LND_FILL
  | LND_PEAK | LND_CFG | LND_DISCARDS | LND_DEFERS | OPL_ID
  | OPL_CFG | OPL_MAP | OPL_LEVEL_BOT | OPL_LEVEL_STEP | OPL_DECAY
  | OPL_COLOUR | OPL_FRAME_CNT | OPL_SKIP | OPL_BUF | OPL_STAT
  | OPL_SPECTRA | OPL_DROPS | OPL_FRAMES | OPL_CMAP | VID_CTRL
  | VID_SIZE_W | VID_SIZE_H | VID_HTIM | VID_VTIM | VID_PCLK
  | VID_STRIDE | VID_BASE | VID_BASE_ACT | VID_RETIRED | VID_FRAME_LO
  | VID_FRAME_HI | VID_FLIP_FRAME | VID_FLIP_TS | VID_LAT_TOL | VID_STATUS
  | VID_UNDERRUN | VID_CRC_SRC0 | VID_CRC_PIN0 | VID_CRC_SRC1 | VID_CRC_PIN1
  | VID_CRC_STAT | VID_OVL_CFG | VID_OVL_POS | DMA_STATUS | DMA_RATE
  | DMA_ERRSUM | DMA_CH_HEAD_LO | DMA_CH_HEAD_HI | DMA_CH_CTRL | DMA_CH_DB
  | DMA_CH_STAT | DMA_CH_CUR_LO | DMA_CH_CUR_HI | DMA_CH_DONE | PCI_CTRL
  | PCI_STATUS | PCI_WIN_OFS | PCI_IN_BASE | PCI_IN_SIZE | PCI_IRQ_ROUTE_LO
  | PCI_IRQ_ROUTE_HI | PCI_CFG_ADDR | PCI_CFG_DATA | PCI_CFG_STAT | PCI_ERR
  | STM_CMD | STM_CMD_STAT | STM_FIRST_SEQ_LO | STM_FIRST_SEQ_HI | STM_RING_DB
  | STM_SUB_STAGE | STM_PTP_CFG | STM_PTP_ASYM | STM_ETH_ADDR | STM_ETH_RXDISC
  | STM_SUB | STM_SUB_DROPS | NVM_SET_CFG | NVM_SET_CMD | NVM_SET_STAT
  | NVM_DRIVE | NVM_DRIVE_NSID | FAB_STATUS | FAB_ADDR_CFG | FAB_UID_LO
  | FAB_UID_HI | FAB_TIME_CFG | FAB_GM | FAB_COUNTS | FAB_NO_ROUTE
  | FAB_TRG_SUB_LO | FAB_TRG_SUB_HI | FAB_TRG_DUAL_LO | FAB_TRG_DUAL_HI | FAB_RX_BASE_LO
  | FAB_RX_BASE_HI | FAB_RX_WP | FAB_RX_RD | FAB_PORT_CFG | FAB_PORT_STAT
  | FAB_PORT_ASYM | FAB_PORT_DELAY | FAB_PORT_ERR | CAL_CFG | CAL_QUIET
  | CAL_CMD | CAL_CMD_STAT | CAL_REC_ADDR_LO | CAL_REC_ADDR_HI | CAL_COMMIT_ARM
  | CAL_INFO | CAL_COUNTS | CAL_ATTIC_DIGEST | CAL_DIE_STAT | PAN_POLICY
  | PAN_ROT | PAN_THR_A | PAN_THR_B | PAN_CMD | PAN_CMD_STAT
  | PAN_ASK | PAN_CMD_ROW | PAN_TEL_BASE_LO | PAN_TEL_BASE_HI | PAN_TEL_PTR
  | PAN_SPARES | PAN_AGE | PAN_MOVE | EPO_PAGE_CFG | EPO_SKIPPED
  | PWR_STATUS | PWR_CMP_CFG | PWR_CMP_STAT | PWR_SW_CFG | PWR_CMD
  | PWR_FLAGS | PWR_SW_COUNT | PWR_SW_LAST | HK_ADC_CFG | HK_ADC_PERIOD
  | HK_ADC_CMD | HK_ADC_STAT | HK_URGENT_RES | HK_THERM | HK_ADC_SEQ
  | HK_RESULT | SEC_STATUS | SEC_MBOX_ADDR_LO | SEC_MBOX_ADDR_HI | SEC_CMD
  | SEC_CMD_STAT | SEC_DBG_CHAL | SEC_DBG_STAT | SEC_DBG_CMD | SEC_FW_DIGEST
  | SYS_RCV_CFG | SYS_RCV_CMD | SYS_RCV_STAT | SYS_PM
deriving DecidableEq, Repr

/-- One field of a register's table: name, bits [hi:lo], access type, reset value (0 where the table
refers to another source: see `Reg.resetSpecial`), and whether the field is in the always-on domain. -/
structure FieldDesc where
  name : String
  hi : Nat
  lo : Nat
  acc : Acc
  reset : Nat
  alwaysOn : Bool
deriving DecidableEq, Repr

/-- Where a register lies: its block, its first offset, the (count, stride) of each index of its
offset, and its fields. -/
structure RegDesc where
  block : Block
  offset : Nat
  dims : List (Nat × Nat)
  fields : List FieldDesc
deriving DecidableEq, Repr

/-- A register instance. -/
abbrev RegKey := Reg × Nat

/-- The order in which register instances are listed. -/
def RegKey.lt (a b : RegKey) : Bool :=
  decide (a.1.ctorIdx < b.1.ctorIdx) || (a.1.ctorIdx == b.1.ctorIdx && decide (a.2 < b.2))

/-- A named field of a register, as the operations read and write it. -/
structure Fld where
  reg : Reg
  hi : Nat
  lo : Nat
deriving DecidableEq, Repr

end Sys2Proof.Machine
end

