-- ==== Sys2Proof/Machine/RegMap.lean ====
section
/-! DEFINITION. The register map: for each register of the manual's register tables its block, offset,
indices and fields (name, bits, access type of R11, reset value), and the bases of the blocks (R29). -/

namespace Sys2Proof.Machine

/-! The descriptor of each register, from its table in the manual (file and rule are in INVENTORY.md). -/

def EVQ_BASE_LO.desc : RegDesc := ⟨.EVQ, 0x0, [], [⟨"BASE_LO", 31, 6, .RW, 0, false⟩]⟩
def EVQ_BASE_HI.desc : RegDesc := ⟨.EVQ, 0x4, [], [⟨"BASE_HI", 15, 0, .RW, 32, false⟩]⟩
def EVQ_SIZE.desc : RegDesc := ⟨.EVQ, 0x8, [], [⟨"SIZE_LOG2", 4, 0, .RW, 10, false⟩]⟩
def EVQ_CTRL.desc : RegDesc := ⟨.EVQ, 0xC, [], [
      ⟨"IRQ_THRESHOLD", 15, 8, .RW, 1, false⟩,
      ⟨"IRQ_EN", 1, 1, .RW, 0, false⟩,
      ⟨"ENABLE", 0, 0, .RW, 0, false⟩]⟩
def EVQ_TAIL.desc : RegDesc := ⟨.EVQ, 0x10, [], [⟨"TAIL", 15, 0, .RO, 0, false⟩]⟩
def EVQ_HEAD.desc : RegDesc := ⟨.EVQ, 0x14, [], [⟨"HEAD", 15, 0, .RW, 0, false⟩]⟩
def EVQ_DROPPED.desc : RegDesc := ⟨.EVQ, 0x18, [], [⟨"DROPPED", 31, 0, .RC, 0, false⟩]⟩
def EVQ_STATUS.desc : RegDesc := ⟨.EVQ, 0x1C, [], [
      ⟨"WR_ERR", 2, 2, .W1C, 0, false⟩,
      ⟨"IRQ_PEND", 1, 1, .W1C, 0, false⟩,
      ⟨"FULL", 0, 0, .RO, 0, false⟩]⟩
def CNV_ID.desc : RegDesc := ⟨.CNV, 0x0, [], [⟨"SLICES", 15, 8, .RO, 34, false⟩, ⟨"DIE", 3, 0, .RO, 0, false⟩]⟩
def CNV_CTRL.desc : RegDesc := ⟨.CNV, 0x4, [], [
      ⟨"HUB_COPY", 3, 3, .RO, 0, false⟩,
      ⟨"ANA_COPY", 2, 2, .RO, 0, false⟩,
      ⟨"RATE_DIV", 1, 0, .ST, 0, false⟩]⟩
def CNV_STATUS.desc : RegDesc := ⟨.CNV, 0x8, [], [
      ⟨"HOLDING", 4, 4, .RO, 0, false⟩,
      ⟨"BUS_BUSY", 3, 2, .RO, 0, false⟩,
      ⟨"CLKQ", 1, 0, .RO, 3, false⟩]⟩
def CNV_SEQ_LO.desc : RegDesc := ⟨.CNV, 0x10, [], [⟨"SEQ_LO", 31, 0, .RO, 0, false⟩]⟩
def CNV_SEQ_HI.desc : RegDesc := ⟨.CNV, 0x14, [], [⟨"SEQ_HI", 31, 0, .RO, 0, false⟩]⟩
def CNV_CH_CFG.desc : RegDesc := ⟨.CNV, 0x100, [(32, 0x40)], [
      ⟨"CM_DRIVE", 2, 2, .ST, 0, false⟩,
      ⟨"RANGE", 1, 0, .ST, 1, false⟩]⟩
def CNV_CH_UOFFS.desc : RegDesc := ⟨.CNV, 0x104, [(32, 0x40)], [⟨"UOFFS", 15, 0, .ST, 0, false⟩]⟩
def CNV_CH_UGAIN.desc : RegDesc := ⟨.CNV, 0x108, [(32, 0x40)], [⟨"UGAIN", 15, 0, .ST, 32768, false⟩]⟩
def CNV_CH_CMP_HI.desc : RegDesc := ⟨.CNV, 0x10C, [(32, 0x40)], [
      ⟨"HYST", 19, 16, .ST, 2, false⟩,
      ⟨"HI_TH", 9, 0, .ST, 1023, false⟩]⟩
def CNV_CH_CMP_LO.desc : RegDesc := ⟨.CNV, 0x110, [(32, 0x40)], [
      ⟨"HYST", 19, 16, .ST, 2, false⟩,
      ⟨"LO_TH", 9, 0, .ST, 0, false⟩]⟩
def CNV_CH_CMP_CFG.desc : RegDesc := ⟨.CNV, 0x114, [(32, 0x40)], [
      ⟨"SETTLE", 23, 16, .ST, 10, false⟩,
      ⟨"BLANK", 15, 8, .ST, 8, false⟩,
      ⟨"TICK_SEL", 3, 2, .ST, 0, false⟩,
      ⟨"MODE", 1, 0, .ST, 1, false⟩]⟩
def CNV_CH_CMP_STAT.desc : RegDesc := ⟨.CNV, 0x118, [(32, 0x40)], [
      ⟨"INBAND_LO", 5, 5, .RO, 0, false⟩,
      ⟨"INBAND_HI", 4, 4, .RO, 0, false⟩,
      ⟨"UNSETTLED_LO", 3, 3, .RO, 1, false⟩,
      ⟨"UNSETTLED_HI", 2, 2, .RO, 1, false⟩,
      ⟨"BELOW", 1, 1, .RO, 0, false⟩,
      ⟨"ABOVE", 0, 0, .RO, 0, false⟩]⟩
def CNV_CH_ROUTE.desc : RegDesc := ⟨.CNV, 0x11C, [(32, 0x40)], [
      ⟨"STALE_NOW", 8, 8, .RO, 0, false⟩,
      ⟨"CALGEN", 7, 4, .RO, 0, false⟩,
      ⟨"SHADOW", 3, 2, .RO, 0, false⟩,
      ⟨"SERVING", 1, 0, .RO, 0, false⟩]⟩
def CNV_CH_FLAGS.desc : RegDesc := ⟨.CNV, 0x120, [(32, 0x40)], [
      ⟨"CLIP_SEEN", 3, 3, .W1C, 0, false⟩,
      ⟨"PROT_SEEN", 2, 2, .W1C, 0, false⟩,
      ⟨"NBR_SEEN", 1, 1, .W1C, 0, false⟩,
      ⟨"OVR_SEEN", 0, 0, .W1C, 0, false⟩]⟩
def CNV_CH_PROT_COUNT.desc : RegDesc := ⟨.CNV, 0x124, [(32, 0x40)], [⟨"COUNT", 31, 0, .RC, 0, false⟩]⟩
def CNV_SL_TRIM_A.desc : RegDesc := ⟨.CNV, 0x1000, [(34, 0x10)], [
      ⟨"SKEW_TRIM", 27, 20, .RO, 0, true⟩,
      ⟨"GAIN_TRIM", 19, 10, .RO, 0, true⟩,
      ⟨"OFFS_TRIM", 9, 0, .RO, 0, true⟩]⟩
def CNV_SL_TRIM_B.desc : RegDesc := ⟨.CNV, 0x1004, [(34, 0x10)], [⟨"TERM_TRIM", 5, 0, .RO, 0, false⟩]⟩
def CNV_SL_STATE.desc : RegDesc := ⟨.CNV, 0x1008, [(34, 0x10)], [
      ⟨"REJECTS", 15, 8, .RO, 0, false⟩,
      ⟨"CALGEN", 7, 4, .RO, 0, false⟩,
      ⟨"SUSPECT", 2, 2, .RO, 0, false⟩,
      ⟨"ROLE", 1, 0, .RO, 0, false⟩]⟩
def CLK_STATUS.desc : RegDesc := ⟨.CLK, 0x0, [], [
      ⟨"JC_LOCK", 23, 16, .RO, 0, false⟩,
      ⟨"SLEWING", 12, 12, .RO, 0, false⟩,
      ⟨"BYP_LOCK", 11, 11, .RO, 0, false⟩,
      ⟨"TILE_LOCK", 10, 10, .RO, 0, false⟩,
      ⟨"SYN_LOCK", 9, 9, .RO, 0, false⟩,
      ⟨"TREE", 7, 6, .RO, 2, false⟩,
      ⟨"REF_STATE", 5, 4, .RO, 0, false⟩]⟩
def CLK_REF_CFG.desc : RegDesc := ⟨.CLK, 0x4, [], [
      ⟨"TOL_PPM", 31, 16, .ST, 100, false⟩,
      ⟨"QUAL", 15, 8, .ST, 10, false⟩,
      ⟨"REF_DIV", 7, 2, .ST, 1, false⟩,
      ⟨"SRC_SEL", 0, 0, .ST, 1, false⟩]⟩
def CLK_REF_NOM.desc : RegDesc := ⟨.CLK, 0x8, [], [⟨"NOM_HZ", 31, 0, .ST, 10000000, false⟩]⟩
def CLK_SYN_INT.desc : RegDesc := ⟨.CLK, 0x10, [], [⟨"N_INT", 8, 0, .ST, 32, false⟩]⟩
def CLK_SYN_FRAC.desc : RegDesc := ⟨.CLK, 0x14, [], [⟨"N_FRAC", 31, 0, .ST, 0, false⟩]⟩
def CLK_SYN_OFFSET.desc : RegDesc := ⟨.CLK, 0x18, [], [⟨"OFFSET", 31, 0, .LVT, 0, false⟩]⟩
def CLK_POLICY.desc : RegDesc := ⟨.CLK, 0x1C, [], [
      ⟨"SLEW_RATE", 31, 24, .ST, 10, false⟩,
      ⟨"RET_SLEW", 23, 16, .ST, 100, false⟩,
      ⟨"RETURN", 0, 0, .ST, 0, false⟩]⟩
def CLK_CEIL.desc : RegDesc := ⟨.CLK, 0x20, [], [⟨"CEIL_PPM", 14, 0, .ST, 20000, false⟩]⟩
def CLK_BYP.desc : RegDesc := ⟨.CLK, 0x24, [], [⟨"BYP_MULT", 4, 0, .ST, 31, false⟩]⟩
def CLK_JC_CFG.desc : RegDesc := ⟨.CLK, 0x28, [], [
      ⟨"UNLOCK_WIN", 15, 8, .ST, 50, false⟩,
      ⟨"LOCK_WIN", 7, 0, .ST, 10, false⟩]⟩
def CLK_TCLK_INT.desc : RegDesc := ⟨.CLK, 0x30, [], [⟨"T_INT", 8, 0, .RO, 16, false⟩]⟩
def CLK_TCLK_FRAC.desc : RegDesc := ⟨.CLK, 0x34, [], [⟨"T_FRAC", 31, 0, .RO, 0, false⟩]⟩
def CLK_JUMP.desc : RegDesc := ⟨.CLK, 0x40, [], [⟨"JUMP_PS", 31, 0, .RO, 0, true⟩]⟩
def CLK_FREQ_ERR.desc : RegDesc := ⟨.CLK, 0x44, [], [⟨"ERR", 31, 0, .RO, 0, false⟩]⟩
def CLK_FLAGS.desc : RegDesc := ⟨.CLK, 0x48, [], [
      ⟨"OFFSET_REFUSED", 5, 5, .W1C, 0, false⟩,
      ⟨"CEIL_HIT", 4, 4, .W1C, 0, false⟩,
      ⟨"BYP_SEEN", 3, 3, .W1C, 0, false⟩,
      ⟨"JC_UNLOCK_SEEN", 2, 2, .W1C, 0, false⟩,
      ⟨"SYN_UNLOCK_SEEN", 1, 1, .W1C, 0, false⟩,
      ⟨"REF_LOST_SEEN", 0, 0, .W1C, 0, false⟩]⟩
def CLK_DIE_DLY.desc : RegDesc := ⟨.CLK, 0x100, [(8, 0x4)], [
      ⟨"STEP_IVL", 19, 16, .ST, 10, false⟩,
      ⟨"FINE", 9, 0, .LVT, 0, false⟩]⟩
def CLK_CKO_CFG.desc : RegDesc := ⟨.CLK, 0x200, [(4, 0x10)], [
      ⟨"EN", 31, 31, .ST, 0, false⟩,
      ⟨"FREE_RUN", 30, 30, .ST, 0, false⟩,
      ⟨"SRC", 29, 28, .ST, 0, false⟩,
      ⟨"STEP_IVL", 27, 24, .ST, 0, false⟩,
      ⟨"COARSE", 23, 16, .ST, 0, false⟩,
      ⟨"DIV", 15, 0, .ST, 32, false⟩]⟩
def CLK_CKO_DLY.desc : RegDesc := ⟨.CLK, 0x204, [(4, 0x10)], [⟨"FINE", 9, 0, .LVT, 0, false⟩]⟩
def CLK_CKO_STAT.desc : RegDesc := ⟨.CLK, 0x208, [(4, 0x10)], [
      ⟨"SLEWING", 2, 2, .RO, 0, false⟩,
      ⟨"GATED", 1, 1, .RO, 0, false⟩,
      ⟨"RUNNING", 0, 0, .RO, 0, false⟩]⟩
def TDC_STATUS.desc : RegDesc := ⟨.TDC, 0x0, [], [
      ⟨"TIME_SRC_OK", 3, 3, .RO, 0, false⟩,
      ⟨"TIME_VALID", 2, 2, .RO, 0, false⟩,
      ⟨"CAL_DONE", 1, 1, .RO, 0, false⟩,
      ⟨"LOOP_LOCK", 0, 0, .RO, 0, false⟩]⟩
def TDC_TIME_CFG.desc : RegDesc := ⟨.TDC, 0x4, [], [
      ⟨"SET_ARM", 31, 31, .W1S, 0, false⟩,
      ⟨"OT_SLEW", 23, 16, .ST, 10, false⟩,
      ⟨"STEP_THR", 15, 8, .ST, 1, false⟩,
      ⟨"SRC_IDX", 7, 4, .ST, 0, false⟩,
      ⟨"REF_PRESCALE", 3, 2, .ST, 0, false⟩,
      ⟨"TIME_SRC", 1, 0, .ST, 0, false⟩]⟩
def TDC_CAL.desc : RegDesc := ⟨.TDC, 0x8, [], [
      ⟨"INTERVAL", 31, 16, .ST, 60, false⟩,
      ⟨"CAL_NOW", 0, 0, .W1S, 0, false⟩]⟩
def TDC_OT_CAP.desc : RegDesc := ⟨.TDC, 0x10, [(4, 0x4)], [⟨"VALUE", 31, 0, .RO, 0, false⟩]⟩
def TDC_OT_SET.desc : RegDesc := ⟨.TDC, 0x20, [(2, 0x4)], [⟨"SEC", 31, 0, .RW, 0, false⟩]⟩
def TDC_RING_BASE_LO.desc : RegDesc := ⟨.TDC, 0x30, [], [⟨"BASE_LO", 31, 6, .RW, 0, false⟩]⟩
def TDC_RING_BASE_HI.desc : RegDesc := ⟨.TDC, 0x34, [], [
      ⟨"ENABLE", 31, 31, .RW, 0, false⟩,
      ⟨"IRQ_EN", 30, 30, .RW, 0, false⟩,
      ⟨"IRQ_PEND", 29, 29, .W1C, 0, false⟩,
      ⟨"SIZE_LOG2", 28, 24, .RW, 12, false⟩,
      ⟨"BASE_HI", 15, 0, .RW, 32, false⟩]⟩
def TDC_RING_PTR.desc : RegDesc := ⟨.TDC, 0x38, [], [⟨"HEAD", 31, 16, .RW, 0, false⟩, ⟨"TAIL", 15, 0, .RO, 0, false⟩]⟩
def TDC_RING_DROPPED.desc : RegDesc := ⟨.TDC, 0x3C, [], [⟨"DROPPED", 31, 0, .RC, 0, false⟩]⟩
def TDC_IN_CFG.desc : RegDesc := ⟨.TDC, 0x100, [(16, 0x20)], [
      ⟨"MODE", 29, 28, .ST, 3, false⟩,
      ⟨"SLOPE", 27, 26, .ST, 0, false⟩,
      ⟨"HYST", 23, 20, .ST, 2, false⟩,
      ⟨"SETTLE", 19, 12, .ST, 10, false⟩,
      ⟨"THRESH", 11, 0, .ST, 1500, false⟩]⟩
def TDC_IN_FUNC.desc : RegDesc := ⟨.TDC, 0x104, [(16, 0x20)], [
      ⟨"FUNC", 31, 30, .ST, 0, false⟩,
      ⟨"SIGNED", 29, 29, .ST, 0, false⟩,
      ⟨"RING_EN", 28, 28, .ST, 0, false⟩,
      ⟨"PARTNER", 27, 24, .ST, 0, false⟩,
      ⟨"PRESCALE_LOG2", 20, 16, .ST, 0, false⟩]⟩
def TDC_IN_PARAM.desc : RegDesc := ⟨.TDC, 0x108, [(16, 0x20)], [⟨"PARAM", 31, 0, .ST, 1000, false⟩]⟩
def TDC_IN_STAT.desc : RegDesc := ⟨.TDC, 0x10C, [(16, 0x20)], [
      ⟨"CONV", 3, 3, .RO, 0, false⟩,
      ⟨"INBAND", 2, 2, .RO, 0, false⟩,
      ⟨"UNSETTLED", 1, 1, .RO, 1, false⟩,
      ⟨"LEVEL", 0, 0, .RO, 0, false⟩]⟩
def TDC_IN_ERR.desc : RegDesc := ⟨.TDC, 0x110, [(16, 0x20)], [
      ⟨"UNPAIRED", 31, 16, .RC, 0, false⟩,
      ⟨"ORDER", 15, 0, .RC, 0, false⟩]⟩
def TDC_IN_DEAD.desc : RegDesc := ⟨.TDC, 0x114, [(16, 0x20)], [⟨"DEAD", 31, 0, .RC, 0, false⟩]⟩
def EPO_CFG.desc : RegDesc := ⟨.EPO, 0x0, [], [
      ⟨"TYPE_SRC", 24, 24, .ST, 0, false⟩,
      ⟨"TYPE_TIN", 23, 20, .ST, 0, false⟩,
      ⟨"TYPE_LEN", 19, 16, .ST, 1, false⟩,
      ⟨"EPO_TIN", 11, 8, .ST, 0, false⟩,
      ⟨"SRC", 1, 0, .ST, 0, false⟩]⟩
def EPO_PERIOD.desc : RegDesc := ⟨.EPO, 0x4, [], [⟨"PERIOD", 31, 0, .ST, 1000000, false⟩]⟩
def EPO_TYPE_SEQ.desc : RegDesc := ⟨.EPO, 0x8, [], [⟨"SEQ", 31, 0, .ST, 0, false⟩]⟩
def EPO_PAGE_BASE.desc : RegDesc := ⟨.EPO, 0xC, [], [⟨"BASE", 31, 0, .RW, 2097152, false⟩]⟩
def EPO_ACK.desc : RegDesc := ⟨.EPO, 0x10, [], [⟨"EPOCH", 31, 0, .WO, 0, false⟩]⟩
def EPO_NUM_LO.desc : RegDesc := ⟨.EPO, 0x14, [], [⟨"NUM_LO", 31, 0, .RO, 0, false⟩]⟩
def EPO_NUM_HI.desc : RegDesc := ⟨.EPO, 0x18, [], [⟨"NUM_HI", 31, 0, .RO, 0, false⟩]⟩
def EPO_COUNTS.desc : RegDesc := ⟨.EPO, 0x1C, [], [
      ⟨"STATS_MISSED", 31, 16, .RC, 0, false⟩,
      ⟨"SHORT", 15, 0, .RC, 0, false⟩]⟩
def GT_ID.desc : RegDesc := ⟨.GT, 0x0, [], [
      ⟨"GROUP", 17, 8, .RO, 0, false⟩,
      ⟨"DIE", 7, 7, .RO, 0, false⟩,
      ⟨"TILE", 6, 0, .RO, 0, false⟩]⟩
def GT_STATUS.desc : RegDesc := ⟨.GT, 0x4, [], [
      ⟨"HALT_CAUSE", 26, 24, .RO, 0, false⟩,
      ⟨"EVP", 17, 12, .RO, 0, false⟩,
      ⟨"CALL_DEPTH", 10, 6, .RO, 0, false⟩,
      ⟨"REP_DEPTH", 5, 3, .RO, 0, false⟩,
      ⟨"STATE", 2, 0, .RO, 0, false⟩]⟩
def GT_PC.desc : RegDesc := ⟨.GT, 0x8, [], [⟨"PC", 13, 0, .RO, 0, false⟩]⟩
def GT_FAULT.desc : RegDesc := ⟨.GT, 0xC, [], [
      ⟨"VALID", 31, 31, .RO, 0, false⟩,
      ⟨"PC", 29, 16, .RO, 0, false⟩,
      ⟨"CODE", 7, 0, .RO, 0, false⟩]⟩
def GT_FRAME.desc : RegDesc := ⟨.GT, 0x10, [], [⟨"FRAME_LEN", 23, 0, .ST, 1024, false⟩]⟩
def GT_RING.desc : RegDesc := ⟨.GT, 0x20, [(4, 0x4)], [
      ⟨"EN", 31, 31, .ST, 0, false⟩,
      ⟨"B_LOG2", 19, 16, .ST, 7, false⟩,
      ⟨"BASE", 14, 0, .ST, 0, false⟩]⟩
def GT_LOST.desc : RegDesc := ⟨.GT, 0x40, [], [⟨"LOST", 31, 0, .RC, 0, false⟩]⟩
def GT_OUT_DROPS.desc : RegDesc := ⟨.GT, 0x44, [], [⟨"DROPS", 31, 0, .RC, 0, false⟩]⟩
def GT_ECC_CORR.desc : RegDesc := ⟨.GT, 0x48, [], [⟨"CORR", 31, 0, .RC, 0, false⟩]⟩
def GT_UDISP_A.desc : RegDesc := ⟨.GT, 0x100, [(64, 0x8)], [
      ⟨"VALID", 31, 31, .ST, 0, false⟩,
      ⟨"FMT", 30, 28, .ST, 0, false⟩,
      ⟨"BOUND", 25, 12, .ST, 0, false⟩,
      ⟨"START", 11, 0, .ST, 0, false⟩]⟩
def GT_UDISP_B.desc : RegDesc := ⟨.GT, 0x104, [(64, 0x8)], [⟨"MAXN", 31, 16, .ST, 0, false⟩]⟩
def GT_UFAULT.desc : RegDesc := ⟨.GT, 0x4C, [], [
      ⟨"VALID", 31, 31, .RO, 0, false⟩,
      ⟨"UPC", 27, 16, .RO, 0, false⟩,
      ⟨"OPCODE", 7, 0, .RO, 0, false⟩]⟩
def SYS_ID.desc : RegDesc := ⟨.SYS, 0x0, [], [⟨"PART", 31, 16, .RO, 9568, false⟩, ⟨"REV", 7, 0, .RO, 176, false⟩]⟩
def SYS_IMG_ADDR_LO.desc : RegDesc := ⟨.SYS, 0x100, [], [⟨"ADDR_LO", 31, 6, .RW, 0, false⟩]⟩
def SYS_IMG_ADDR_HI.desc : RegDesc := ⟨.SYS, 0x104, [], [⟨"ADDR_HI", 15, 0, .RW, 0, false⟩]⟩
def SYS_IMG_LEN.desc : RegDesc := ⟨.SYS, 0x108, [], [⟨"LEN", 31, 0, .RW, 0, false⟩]⟩
def SYS_PRG_CMD.desc : RegDesc := ⟨.SYS, 0x10C, [], [⟨"SWITCH", 4, 4, .WO, 0, false⟩, ⟨"CMD", 3, 0, .WO, 0, false⟩]⟩
def SYS_PRG_EPOCH_LO.desc : RegDesc := ⟨.SYS, 0x110, [], [⟨"EPOCH_LO", 31, 0, .RW, 0, false⟩]⟩
def SYS_PRG_EPOCH_HI.desc : RegDesc := ⟨.SYS, 0x114, [], [⟨"EPOCH_HI", 31, 0, .RW, 0, false⟩]⟩
def SYS_PRG_STATUS.desc : RegDesc := ⟨.SYS, 0x118, [], [
      ⟨"CMD_REJECTED", 8, 8, .W1C, 0, false⟩,
      ⟨"DIRTY", 7, 7, .RO, 0, false⟩,
      ⟨"HAS_RUN", 6, 6, .RO, 0, false⟩,
      ⟨"RESULT", 5, 4, .RO, 0, false⟩,
      ⟨"BUSY", 3, 3, .RO, 0, false⟩,
      ⟨"STATE", 2, 0, .RO, 0, false⟩]⟩
def SYS_PRG_REPORT_LO.desc : RegDesc := ⟨.SYS, 0x11C, [], [⟨"BASE_LO", 31, 6, .RW, 0, false⟩]⟩
def SYS_PRG_REPORT_HI.desc : RegDesc := ⟨.SYS, 0x120, [], [⟨"BASE_HI", 15, 0, .RW, 32, false⟩]⟩
def SYS_PRG_ERRORS.desc : RegDesc := ⟨.SYS, 0x124, [], [⟨"COUNT", 31, 0, .RO, 0, false⟩]⟩
def SYS_PRG_POLICY.desc : RegDesc := ⟨.SYS, 0x128, [], [
      ⟨"AUTO", 2, 1, .RO, 0, false⟩,
      ⟨"SIG_REQ", 0, 0, .RO, 0, false⟩]⟩
def SYS_HELD_DISCARDS.desc : RegDesc := ⟨.SYS, 0x12C, [], [⟨"COUNT", 31, 0, .RC, 0, false⟩]⟩
def SYS_PRG_DIGEST.desc : RegDesc := ⟨.SYS, 0x140, [(8, 0x4)], [⟨"DIGEST", 31, 0, .RO, 0, false⟩]⟩
def GT_NCO_FLO.desc : RegDesc := ⟨.GT, 0x300, [(16, 0x10)], [⟨"FREQ_LO", 31, 0, .LV, 0, false⟩]⟩
def GT_NCO_FHI.desc : RegDesc := ⟨.GT, 0x304, [(16, 0x10)], [⟨"FREQ_HI", 15, 0, .LV, 0, false⟩]⟩
def GT_NCO_STAT.desc : RegDesc := ⟨.GT, 0x308, [(16, 0x10)], [⟨"PAIR_PEND", 0, 0, .RO, 0, false⟩]⟩
def GT_NCO_PHASE.desc : RegDesc := ⟨.GT, 0x30C, [(16, 0x10)], [⟨"PHASE", 15, 0, .ST, 0, false⟩]⟩
def GT_DSP_SAT.desc : RegDesc := ⟨.GT, 0x50, [], [⟨"COUNT", 31, 0, .RC, 0, false⟩]⟩
def SYS_OCT_STAT.desc : RegDesc := ⟨.SYS, 0x200, [(8, 0x20)], [
      ⟨"RPL_BUSY", 6, 6, .RO, 0, false⟩,
      ⟨"RATE_DIV", 5, 4, .RO, 0, false⟩,
      ⟨"MODE", 3, 0, .RO, 0, false⟩]⟩
def SYS_RPL_START_LO.desc : RegDesc := ⟨.SYS, 0x204, [(8, 0x20)], [⟨"START_LO", 31, 0, .RW, 0, false⟩]⟩
def SYS_RPL_START_HI.desc : RegDesc := ⟨.SYS, 0x208, [(8, 0x20)], [⟨"START_HI", 31, 0, .RW, 0, false⟩]⟩
def SYS_RPL_LEN.desc : RegDesc := ⟨.SYS, 0x20C, [(8, 0x20)], [⟨"LEN", 31, 0, .RW, 1, false⟩]⟩
def SYS_RPL_CTRL.desc : RegDesc := ⟨.SYS, 0x210, [(8, 0x20)], [
      ⟨"GO", 31, 31, .WO, 0, false⟩,
      ⟨"STOP", 30, 30, .WO, 0, false⟩,
      ⟨"RATE", 6, 4, .RW, 0, false⟩,
      ⟨"SRC", 2, 0, .RW, 0, false⟩]⟩
def SYS_RPL_STAT.desc : RegDesc := ⟨.SYS, 0x214, [(8, 0x20)], [
      ⟨"STATUS", 31, 28, .RO, 0, false⟩,
      ⟨"ERR", 27, 24, .RO, 0, false⟩,
      ⟨"STALL", 23, 0, .RO, 0, false⟩]⟩
def EPO_TURN_CFG.desc : RegDesc := ⟨.EPO, 0x40, [], [
      ⟨"EN", 31, 31, .ST, 0, false⟩,
      ⟨"TURN_TIN", 27, 24, .ST, 0, false⟩,
      ⟨"TOL", 23, 16, .ST, 20, false⟩,
      ⟨"SLOTS", 15, 0, .ST, 1, false⟩]⟩
def EPO_TURN_DLY.desc : RegDesc := ⟨.EPO, 0x44, [], [⟨"DLY", 31, 0, .ST, 0, false⟩]⟩
def EPO_TURN_STAT.desc : RegDesc := ⟨.EPO, 0x48, [], [
      ⟨"SLIPS", 23, 16, .RC, 0, false⟩,
      ⟨"OUTLIERS", 15, 8, .RC, 0, false⟩,
      ⟨"STATE", 1, 0, .RO, 0, false⟩]⟩
def EPO_TURN_ERR.desc : RegDesc := ⟨.EPO, 0x4C, [], [⟨"ERR", 31, 0, .RO, 0, false⟩]⟩
def EPO_TURN_BASE_LO.desc : RegDesc := ⟨.EPO, 0x50, [], [⟨"BASE_LO", 31, 0, .RO, 0, false⟩]⟩
def EPO_TURN_BASE_HI.desc : RegDesc := ⟨.EPO, 0x54, [], [⟨"BASE_HI", 31, 0, .RO, 0, false⟩]⟩
def GT_XRX_CFG.desc : RegDesc := ⟨.GT, 0x60, [(4, 0x8)], [
      ⟨"EN", 31, 31, .ST, 0, false⟩,
      ⟨"SIZE_LOG2", 27, 24, .ST, 4, false⟩,
      ⟨"ROUTE", 23, 16, .ST, 0, false⟩,
      ⟨"BASE", 14, 0, .ST, 0, false⟩]⟩
def GT_XRX_STAT.desc : RegDesc := ⟨.GT, 0x64, [(4, 0x8)], [
      ⟨"CLAIMED", 31, 15, .RO, 0, false⟩,
      ⟨"FILL", 14, 0, .RO, 0, false⟩]⟩
def GT_XRX_DROPS.desc : RegDesc := ⟨.GT, 0x80, [], [⟨"DROPS", 31, 0, .RC, 0, false⟩]⟩
def TRG_SW.desc : RegDesc := ⟨.TRG, 0x4, [], [⟨"FIRE", 15, 0, .W1S, 0, false⟩]⟩
def TRG_TOUT_CFG.desc : RegDesc := ⟨.TRG, 0x10, [(8, 0x4)], [
      ⟨"INV", 31, 31, .ST, 0, false⟩,
      ⟨"WIDTH", 15, 0, .ST, 40, false⟩]⟩
def TRG_TMR_PERIOD.desc : RegDesc := ⟨.TRG, 0x40, [(8, 0x8)], [⟨"PERIOD", 31, 0, .ST, 0, false⟩]⟩
def TRG_TMR_PHASE.desc : RegDesc := ⟨.TRG, 0x44, [(8, 0x8)], [⟨"PHASE", 31, 0, .ST, 0, false⟩]⟩
def TRG_PIN_BUDGET.desc : RegDesc := ⟨.TRG, 0x80, [], [⟨"MIB", 14, 0, .ST, 4096, false⟩]⟩
def TRG_PIN_USED.desc : RegDesc := ⟨.TRG, 0x84, [], [⟨"KIB", 31, 0, .RO, 0, false⟩]⟩
def TRG_RTV_BASE_LO.desc : RegDesc := ⟨.TRG, 0x90, [], [⟨"BASE_LO", 31, 6, .RW, 0, false⟩]⟩
def TRG_RTC_BASE_LO.desc : RegDesc := ⟨.TRG, 0xA0, [], [⟨"BASE_LO", 31, 6, .RW, 0, false⟩]⟩
def TRG_RTV_BASE_HI.desc : RegDesc := ⟨.TRG, 0x94, [], [
      ⟨"ENABLE", 31, 31, .RW, 0, false⟩,
      ⟨"IRQ_EN", 30, 30, .RW, 0, false⟩,
      ⟨"IRQ_PEND", 29, 29, .W1C, 0, false⟩,
      ⟨"SIZE_LOG2", 28, 24, .RW, 8, false⟩,
      ⟨"BASE_HI", 15, 0, .RW, 32, false⟩]⟩
def TRG_RTC_BASE_HI.desc : RegDesc := ⟨.TRG, 0xA4, [], [
      ⟨"ENABLE", 31, 31, .RW, 0, false⟩,
      ⟨"IRQ_EN", 30, 30, .RW, 0, false⟩,
      ⟨"IRQ_PEND", 29, 29, .W1C, 0, false⟩,
      ⟨"SIZE_LOG2", 28, 24, .RW, 8, false⟩,
      ⟨"BASE_HI", 15, 0, .RW, 32, false⟩]⟩
def TRG_RTV_PTR.desc : RegDesc := ⟨.TRG, 0x98, [], [⟨"TAIL", 31, 16, .RW, 0, false⟩, ⟨"HEAD", 15, 0, .RO, 0, false⟩]⟩
def TRG_RTC_PTR.desc : RegDesc := ⟨.TRG, 0xA8, [], [⟨"HEAD", 31, 16, .RW, 0, false⟩, ⟨"TAIL", 15, 0, .RO, 0, false⟩]⟩
def TRG_REC_CFG.desc : RegDesc := ⟨.TRG, 0xB0, [], [⟨"FULL", 0, 0, .ST, 0, false⟩]⟩
def TRG_IDX_NEXT_LO.desc : RegDesc := ⟨.TRG, 0xB4, [], [⟨"NEXT", 31, 0, .RO, 0, false⟩]⟩
def TRG_IDX_NEXT_HI.desc : RegDesc := ⟨.TRG, 0xB8, [], [⟨"NEXT", 31, 0, .RO, 0, false⟩]⟩
def TRG_CELL_IN.desc : RegDesc := ⟨.TRG, 0x1000, [(64, 0x80), (16, 0x4)], [
      ⟨"EN", 31, 31, .ST, 0, false⟩,
      ⟨"SRC", 11, 0, .ST, 0, false⟩]⟩
def TRG_CELL_TERM.desc : RegDesc := ⟨.TRG, 0x1040, [(64, 0x80), (4, 0x4)], [
      ⟨"VETO", 31, 16, .ST, 0, false⟩,
      ⟨"REQ", 15, 0, .ST, 0, false⟩]⟩
def TRG_CELL_CFG.desc : RegDesc := ⟨.TRG, 0x1050, [(64, 0x80)], [
      ⟨"EN", 31, 31, .ST, 0, false⟩,
      ⟨"FUNC", 30, 30, .ST, 0, false⟩,
      ⟨"M", 24, 20, .ST, 1, false⟩,
      ⟨"REF", 19, 16, .ST, 0, false⟩,
      ⟨"REF_EN", 15, 15, .ST, 0, false⟩,
      ⟨"LAT", 13, 0, .ST, 0, false⟩]⟩
def TRG_CELL_WIN.desc : RegDesc := ⟨.TRG, 0x1054, [(64, 0x80)], [⟨"W", 11, 0, .ST, 1, false⟩]⟩
def TRG_CELL_OUT.desc : RegDesc := ⟨.TRG, 0x1058, [(64, 0x80)], [
      ⟨"FAB_EN", 31, 31, .ST, 0, false⟩,
      ⟨"FAB_ID", 29, 24, .ST, 0, false⟩,
      ⟨"TOUT", 7, 0, .ST, 0, false⟩]⟩
def TRG_CELL_GRP_LO.desc : RegDesc := ⟨.TRG, 0x105C, [(64, 0x80)], [⟨"GROUPS", 31, 0, .ST, 0, false⟩]⟩
def TRG_CELL_GRP_HI.desc : RegDesc := ⟨.TRG, 0x1060, [(64, 0x80)], [⟨"GROUPS", 31, 0, .ST, 0, false⟩]⟩
def TRG_CELL_FIRES.desc : RegDesc := ⟨.TRG, 0x1064, [(64, 0x80)], [⟨"FIRES", 31, 0, .RC, 0, false⟩]⟩
def TRG_CELL_LATE.desc : RegDesc := ⟨.TRG, 0x1068, [(64, 0x80)], [
      ⟨"LATE", 31, 16, .RC, 0, false⟩,
      ⟨"OVF", 15, 0, .RC, 0, false⟩]⟩
def TRG_DEF_CFG.desc : RegDesc := ⟨.TRG, 0x4000, [(32, 0x40)], [
      ⟨"EN", 31, 31, .ST, 0, false⟩,
      ⟨"CELL", 29, 24, .ST, 0, false⟩,
      ⟨"POLICY", 23, 22, .ST, 0, false⟩,
      ⟨"QDEPTH", 21, 20, .ST, 3, false⟩,
      ⟨"REDUCE", 18, 16, .ST, 0, false⟩,
      ⟨"SEGS_M1", 15, 0, .ST, 0, false⟩]⟩
def TRG_DEF_PRE.desc : RegDesc := ⟨.TRG, 0x4004, [(32, 0x40)], [⟨"NS", 31, 0, .ST, 0, false⟩]⟩
def TRG_DEF_POST.desc : RegDesc := ⟨.TRG, 0x4008, [(32, 0x40)], [⟨"NS", 31, 0, .ST, 0, false⟩]⟩
def TRG_DEF_MAXEXT.desc : RegDesc := ⟨.TRG, 0x400C, [(32, 0x40)], [⟨"NS", 31, 0, .ST, 0, false⟩]⟩
def TRG_DEF_TIMEOUT.desc : RegDesc := ⟨.TRG, 0x4010, [(32, 0x40)], [⟨"MS", 31, 0, .ST, 0, false⟩]⟩
def TRG_DEF_CNT.desc : RegDesc := ⟨.TRG, 0x4014, [(32, 0x40)], [
      ⟨"IGNORED", 31, 16, .RC, 0, false⟩,
      ⟨"DROPPED", 15, 0, .RC, 0, false⟩]⟩
def TRG_DEF_STAT.desc : RegDesc := ⟨.TRG, 0x4018, [(32, 0x40)], [
      ⟨"SEGS_NOW", 31, 16, .RO, 0, false⟩,
      ⟨"OPEN", 3, 3, .RO, 0, false⟩,
      ⟨"QUEUED", 2, 0, .RO, 0, false⟩]⟩
def TRG_DEF_CH.desc : RegDesc := ⟨.TRG, 0x4020, [(32, 0x40), (8, 0x4)], [⟨"CH", 31, 0, .ST, 0, false⟩]⟩
def CEL_STATUS.desc : RegDesc := ⟨.CEL, 0x0, [], [
      ⟨"HOT", 15, 12, .RO, 0, false⟩,
      ⟨"ASLEEP", 11, 8, .RO, 0, false⟩,
      ⟨"FC_BUSY", 1, 1, .RO, 0, false⟩,
      ⟨"RING_RUN", 0, 0, .RO, 0, false⟩]⟩
def CEL_RING_CFG.desc : RegDesc := ⟨.CEL, 0x4, [], [⟨"RING_GIB", 6, 0, .RO, 0, false⟩]⟩
def CEL_REFRESH.desc : RegDesc := ⟨.CEL, 0x8, [], [⟨"POSTPONE", 3, 0, .ST, 8, false⟩]⟩
def CEL_SCRUB.desc : RegDesc := ⟨.CEL, 0xC, [], [⟨"EN", 31, 31, .ST, 1, false⟩, ⟨"PERIOD_H", 7, 0, .ST, 24, false⟩]⟩
def CEL_FC_CTRL.desc : RegDesc := ⟨.CEL, 0x10, [], [
      ⟨"GO", 31, 31, .WO, 0, false⟩,
      ⟨"RATE", 5, 4, .RW, 0, false⟩,
      ⟨"STACKS", 3, 0, .RW, 0, false⟩]⟩
def CEL_FC_STAT.desc : RegDesc := ⟨.CEL, 0x14, [], [⟨"RATE", 7, 0, .RO, 0, false⟩]⟩
def CEL_ECC_CORR.desc : RegDesc := ⟨.CEL, 0x18, [], [⟨"COUNT", 31, 0, .RC, 0, false⟩]⟩
def CEL_ECC_UNCORR.desc : RegDesc := ⟨.CEL, 0x1C, [], [⟨"COUNT", 31, 0, .RC, 0, false⟩]⟩
def CEL_POISON.desc : RegDesc := ⟨.CEL, 0x20, [], [⟨"COUNT", 31, 0, .RC, 0, false⟩]⟩
def CEL_REPAIR.desc : RegDesc := ⟨.CEL, 0x24, [], [
      ⟨"SPARE_MIN", 31, 24, .RO, 0, false⟩,
      ⟨"HARD", 23, 12, .RO, 0, false⟩,
      ⟨"SOFT", 11, 0, .RO, 0, false⟩]⟩
def CEL_FROZEN.desc : RegDesc := ⟨.CEL, 0x30, [(4, 0x4)], [⟨"FROZEN", 31, 0, .RO, 0, true⟩]⟩
def CEL_FREEZE_CMD.desc : RegDesc := ⟨.CEL, 0x40, [], [⟨"CMD", 9, 8, .WO, 0, false⟩, ⟨"HPC", 6, 0, .WO, 0, false⟩]⟩
def CEL_DIAG_SEL.desc : RegDesc := ⟨.CEL, 0x44, [], [⟨"HPC", 6, 0, .RW, 0, false⟩]⟩
def CEL_DIAG_ADDR.desc : RegDesc := ⟨.CEL, 0x48, [], [
      ⟨"BANK", 31, 26, .RO, 0, true⟩,
      ⟨"ROW", 25, 10, .RO, 0, true⟩,
      ⟨"COL", 9, 5, .RO, 0, true⟩]⟩
def CEL_DIAG_SYND.desc : RegDesc := ⟨.CEL, 0x4C, [], [
      ⟨"CAUSE", 31, 24, .RO, 0, true⟩,
      ⟨"RETRIES", 23, 16, .RO, 0, true⟩,
      ⟨"SYND", 15, 0, .RO, 0, true⟩]⟩
def CEL_LOSS_NEXT_LO.desc : RegDesc := ⟨.CEL, 0x50, [], [⟨"NEXT", 31, 0, .RO, 0, false⟩]⟩
def CEL_LOSS_NEXT_HI.desc : RegDesc := ⟨.CEL, 0x54, [], [⟨"NEXT", 31, 0, .RO, 0, false⟩]⟩
def CEL_ANCHOR_NEXT_LO.desc : RegDesc := ⟨.CEL, 0x58, [], [⟨"NEXT", 31, 0, .RO, 0, false⟩]⟩
def CEL_ANCHOR_NEXT_HI.desc : RegDesc := ⟨.CEL, 0x5C, [], [⟨"NEXT", 31, 0, .RO, 0, false⟩]⟩
def CEL_RING_OFS.desc : RegDesc := ⟨.CEL, 0x100, [(8, 0x20)], [⟨"OFS", 21, 0, .RO, 0, true⟩]⟩
def CEL_HEAD_LO.desc : RegDesc := ⟨.CEL, 0x104, [(8, 0x20)], [⟨"HEAD", 31, 0, .RO, 0, false⟩]⟩
def CEL_HEAD_HI.desc : RegDesc := ⟨.CEL, 0x108, [(8, 0x20)], [⟨"HEAD", 31, 0, .RO, 0, false⟩]⟩
def CEL_FLOOR_LO.desc : RegDesc := ⟨.CEL, 0x10C, [(8, 0x20)], [⟨"FLOOR", 31, 0, .RO, 0, false⟩]⟩
def CEL_FLOOR_HI.desc : RegDesc := ⟨.CEL, 0x110, [(8, 0x20)], [⟨"FLOOR", 31, 0, .RO, 0, false⟩]⟩
def CEL_PREV_OFS.desc : RegDesc := ⟨.CEL, 0x114, [(8, 0x20)], [
      ⟨"VALID", 31, 31, .RO, 0, true⟩,
      ⟨"PREV_GIB", 28, 22, .RO, 0, true⟩,
      ⟨"OFS", 21, 0, .RO, 0, true⟩]⟩
def CEL_PREV_LAST_LO.desc : RegDesc := ⟨.CEL, 0x118, [(8, 0x20)], [⟨"LAST", 31, 0, .RO, 0, true⟩]⟩
def CEL_PREV_LAST_HI.desc : RegDesc := ⟨.CEL, 0x11C, [(8, 0x20)], [⟨"LAST", 31, 0, .RO, 0, true⟩]⟩
def LND_STATUS.desc : RegDesc := ⟨.LND, 0x0, [], [
      ⟨"FULL", 2, 2, .RO, 0, false⟩,
      ⟨"CAPPED", 1, 1, .RO, 0, false⟩,
      ⟨"GATE_OPEN", 0, 0, .RO, 0, false⟩]⟩
def LND_FILL.desc : RegDesc := ⟨.LND, 0x4, [], [⟨"KIB", 15, 0, .RO, 0, false⟩]⟩
def LND_PEAK.desc : RegDesc := ⟨.LND, 0x8, [], [⟨"KIB", 15, 0, .RC, 0, false⟩]⟩
def LND_CFG.desc : RegDesc := ⟨.LND, 0xC, [], [
      ⟨"PC_CAP", 31, 20, .ST, 2048, false⟩,
      ⟨"PC_GATE", 19, 12, .ST, 8, false⟩,
      ⟨"GATE", 11, 0, .ST, 1024, false⟩]⟩
def LND_DISCARDS.desc : RegDesc := ⟨.LND, 0x10, [], [⟨"COUNT", 31, 0, .RC, 0, false⟩]⟩
def LND_DEFERS.desc : RegDesc := ⟨.LND, 0x14, [], [⟨"COUNT", 31, 0, .RC, 0, false⟩]⟩
def OPL_ID.desc : RegDesc := ⟨.OPL, 0x0, [], [⟨"LOGICAL", 12, 8, .RO, 0, false⟩, ⟨"PHYS", 4, 0, .RO, 0, false⟩]⟩
def OPL_CFG.desc : RegDesc := ⟨.OPL, 0x4, [], [
      ⟨"EN", 31, 31, .ST, 0, false⟩,
      ⟨"LOG_MAP", 30, 30, .ST, 0, false⟩,
      ⟨"FRAME_SRC", 29, 28, .ST, 0, false⟩,
      ⟨"NBUF", 27, 26, .ST, 1, false⟩,
      ⟨"CLAMP", 25, 25, .ST, 0, false⟩,
      ⟨"INC", 23, 16, .ST, 1, false⟩,
      ⟨"CHANNEL", 7, 0, .ST, 0, false⟩]⟩
def OPL_MAP.desc : RegDesc := ⟨.OPL, 0x8, [], [
      ⟨"W_BINS", 31, 16, .ST, 1024, false⟩,
      ⟨"FIRST_BIN", 15, 0, .ST, 0, false⟩]⟩
def OPL_LEVEL_BOT.desc : RegDesc := ⟨.OPL, 0xC, [], [⟨"BOTTOM", 15, 0, .LV, 63616, false⟩]⟩
def OPL_LEVEL_STEP.desc : RegDesc := ⟨.OPL, 0x10, [], [⟨"STEP", 15, 0, .LV, 128, false⟩]⟩
def OPL_DECAY.desc : RegDesc := ⟨.OPL, 0x14, [], [⟨"TICK", 31, 16, .ST, 1024, false⟩, ⟨"D", 3, 0, .ST, 4, false⟩]⟩
def OPL_COLOUR.desc : RegDesc := ⟨.OPL, 0x18, [], [⟨"REF255", 31, 16, .ST, 0, false⟩, ⟨"CGAIN", 7, 0, .ST, 16, false⟩]⟩
def OPL_FRAME_CNT.desc : RegDesc := ⟨.OPL, 0x1C, [], [⟨"FRAME_SPECTRA", 23, 0, .ST, 52083, false⟩]⟩
def OPL_SKIP.desc : RegDesc := ⟨.OPL, 0x20, [], [⟨"SKIP_FLAGS", 15, 0, .ST, 0, false⟩]⟩
def OPL_BUF.desc : RegDesc := ⟨.OPL, 0x40, [(4, 0x4)], [⟨"ADDR", 31, 0, .ST, 0, false⟩]⟩
def OPL_STAT.desc : RegDesc := ⟨.OPL, 0x50, [], [
      ⟨"PAIR_PEND", 8, 8, .RO, 0, false⟩,
      ⟨"BUF_STATE", 7, 0, .RO, 0, false⟩]⟩
def OPL_SPECTRA.desc : RegDesc := ⟨.OPL, 0x54, [], [⟨"COUNT", 31, 0, .RC, 0, false⟩]⟩
def OPL_DROPS.desc : RegDesc := ⟨.OPL, 0x58, [], [
      ⟨"SKIPPED", 31, 16, .RC, 0, false⟩,
      ⟨"DROPPED", 15, 0, .RC, 0, false⟩]⟩
def OPL_FRAMES.desc : RegDesc := ⟨.OPL, 0x5C, [], [
      ⟨"FENCE_HIT", 31, 16, .RC, 0, false⟩,
      ⟨"FRAME_SKIP", 15, 0, .RC, 0, false⟩]⟩
def OPL_CMAP.desc : RegDesc := ⟨.OPL, 0x400, [(256, 0x4)], [
      ⟨"TRANSPARENT", 31, 31, .ST, 0, false⟩,
      ⟨"RGB", 29, 0, .ST, 0, false⟩]⟩
def VID_CTRL.desc : RegDesc := ⟨.VID, 0x100, [(2, 0x100)], [
      ⟨"EN", 31, 31, .ST, 0, false⟩,
      ⟨"HS_POL", 30, 30, .ST, 0, false⟩,
      ⟨"VS_POL", 29, 29, .ST, 0, false⟩,
      ⟨"SSC", 28, 28, .ST, 0, false⟩,
      ⟨"BPC", 27, 26, .ST, 1, false⟩,
      ⟨"MAX_LANES", 25, 24, .ST, 2, false⟩,
      ⟨"MAX_RATE", 23, 22, .ST, 3, false⟩,
      ⟨"BASE_FMT", 0, 0, .ST, 0, false⟩]⟩
def VID_SIZE_W.desc : RegDesc := ⟨.VID, 0x104, [(2, 0x100)], [⟨"HACT", 12, 0, .LV, 3840, false⟩]⟩
def VID_SIZE_H.desc : RegDesc := ⟨.VID, 0x108, [(2, 0x100)], [⟨"VACT", 11, 0, .LV, 2160, false⟩]⟩
def VID_HTIM.desc : RegDesc := ⟨.VID, 0x10C, [(2, 0x100)], [
      ⟨"BP", 29, 20, .ST, 296, false⟩,
      ⟨"SYNC", 19, 10, .ST, 88, false⟩,
      ⟨"FP", 9, 0, .ST, 176, false⟩]⟩
def VID_VTIM.desc : RegDesc := ⟨.VID, 0x110, [(2, 0x100)], [
      ⟨"BP", 29, 20, .ST, 72, false⟩,
      ⟨"SYNC", 19, 10, .ST, 10, false⟩,
      ⟨"FP", 9, 0, .ST, 8, false⟩]⟩
def VID_PCLK.desc : RegDesc := ⟨.VID, 0x114, [(2, 0x100)], [⟨"KHZ", 31, 0, .ST, 594000, false⟩]⟩
def VID_STRIDE.desc : RegDesc := ⟨.VID, 0x118, [(2, 0x100)], [⟨"STRIDE", 15, 0, .ST, 240, false⟩]⟩
def VID_BASE.desc : RegDesc := ⟨.VID, 0x120, [(2, 0x100)], [⟨"ADDR", 31, 0, .LVT, 0, false⟩]⟩
def VID_BASE_ACT.desc : RegDesc := ⟨.VID, 0x124, [(2, 0x100)], [⟨"ADDR", 31, 0, .RO, 0, false⟩]⟩
def VID_RETIRED.desc : RegDesc := ⟨.VID, 0x128, [(2, 0x100)], [⟨"ADDR", 31, 0, .RO, 0, false⟩]⟩
def VID_FRAME_LO.desc : RegDesc := ⟨.VID, 0x12C, [(2, 0x100)], [⟨"FRAME", 31, 0, .RO, 0, false⟩]⟩
def VID_FRAME_HI.desc : RegDesc := ⟨.VID, 0x130, [(2, 0x100)], [⟨"FRAME", 31, 0, .RO, 0, false⟩]⟩
def VID_FLIP_FRAME.desc : RegDesc := ⟨.VID, 0x134, [(2, 0x100)], [⟨"FRAME", 31, 0, .RO, 0, false⟩]⟩
def VID_FLIP_TS.desc : RegDesc := ⟨.VID, 0x138, [(2, 0x100), (4, 0x4)], [⟨"VALUE", 31, 0, .RO, 0, false⟩]⟩
def VID_LAT_TOL.desc : RegDesc := ⟨.VID, 0x148, [(2, 0x100)], [⟨"NS", 31, 0, .RO, 4294967295, false⟩]⟩
def VID_STATUS.desc : RegDesc := ⟨.VID, 0x14C, [(2, 0x100)], [
      ⟨"PAIR_PEND", 31, 31, .RO, 0, false⟩,
      ⟨"BASE_PEND", 30, 30, .RO, 0, false⟩,
      ⟨"HPD", 29, 29, .RO, 0, false⟩,
      ⟨"TRAINED", 28, 28, .RO, 0, false⟩,
      ⟨"LANES", 27, 26, .RO, 0, false⟩,
      ⟨"RATE", 25, 24, .RO, 0, false⟩]⟩
def VID_UNDERRUN.desc : RegDesc := ⟨.VID, 0x150, [(2, 0x100)], [⟨"COUNT", 31, 0, .RC, 0, false⟩]⟩
def VID_CRC_SRC0.desc : RegDesc := ⟨.VID, 0x154, [(2, 0x100)], [
      ⟨"G", 31, 16, .RO, 0, false⟩,
      ⟨"R", 15, 0, .RO, 0, false⟩]⟩
def VID_CRC_PIN0.desc : RegDesc := ⟨.VID, 0x15C, [(2, 0x100)], [
      ⟨"G", 31, 16, .RO, 0, false⟩,
      ⟨"R", 15, 0, .RO, 0, false⟩]⟩
def VID_CRC_SRC1.desc : RegDesc := ⟨.VID, 0x158, [(2, 0x100)], [⟨"B", 15, 0, .RO, 0, false⟩]⟩
def VID_CRC_PIN1.desc : RegDesc := ⟨.VID, 0x160, [(2, 0x100)], [⟨"B", 15, 0, .RO, 0, false⟩]⟩
def VID_CRC_STAT.desc : RegDesc := ⟨.VID, 0x164, [(2, 0x100)], [
      ⟨"PIN_VALID", 31, 31, .RO, 0, false⟩,
      ⟨"MISMATCH", 15, 0, .RC, 0, false⟩]⟩
def VID_OVL_CFG.desc : RegDesc := ⟨.VID, 0x180, [(2, 0x100), (4, 0x8)], [
      ⟨"EN", 31, 31, .ST, 0, false⟩,
      ⟨"REND", 11, 8, .ST, 0, false⟩,
      ⟨"SX", 5, 4, .ST, 1, false⟩,
      ⟨"SY", 3, 0, .ST, 1, false⟩]⟩
def VID_OVL_POS.desc : RegDesc := ⟨.VID, 0x184, [(2, 0x100), (4, 0x8)], [
      ⟨"Y0", 27, 16, .ST, 0, false⟩,
      ⟨"X0", 12, 0, .ST, 0, false⟩]⟩
def DMA_STATUS.desc : RegDesc := ⟨.DMA, 0x0, [], [⟨"BUSY", 31, 0, .RO, 0, false⟩]⟩
def DMA_RATE.desc : RegDesc := ⟨.DMA, 0x4, [], [⟨"GBPS", 5, 0, .RW, 60, false⟩]⟩
def DMA_ERRSUM.desc : RegDesc := ⟨.DMA, 0x8, [], [⟨"HALTED", 31, 0, .W1C, 0, false⟩]⟩
def DMA_CH_HEAD_LO.desc : RegDesc := ⟨.DMA, 0x100, [(32, 0x20)], [⟨"ADDR_LO", 31, 6, .RW, 0, false⟩]⟩
def DMA_CH_HEAD_HI.desc : RegDesc := ⟨.DMA, 0x104, [(32, 0x20)], [⟨"ADDR_HI", 31, 0, .RW, 0, false⟩]⟩
def DMA_CH_CTRL.desc : RegDesc := ⟨.DMA, 0x108, [(32, 0x20)], [
      ⟨"START", 31, 31, .WO, 0, false⟩,
      ⟨"STOP", 30, 30, .WO, 0, false⟩,
      ⟨"DSPACE", 29, 28, .RW, 0, false⟩,
      ⟨"IRQ_EN", 0, 0, .RW, 0, false⟩]⟩
def DMA_CH_DB.desc : RegDesc := ⟨.DMA, 0x10C, [(32, 0x20)], [⟨"RING", 31, 0, .WO, 0, false⟩]⟩
def DMA_CH_STAT.desc : RegDesc := ⟨.DMA, 0x110, [(32, 0x20)], [
      ⟨"DB_COUNT", 31, 16, .RO, 0, false⟩,
      ⟨"LAST_STATUS", 11, 8, .RO, 0, false⟩,
      ⟨"IRQ_PEND", 7, 7, .W1C, 0, false⟩,
      ⟨"STATE", 2, 0, .RO, 0, false⟩]⟩
def DMA_CH_CUR_LO.desc : RegDesc := ⟨.DMA, 0x114, [(32, 0x20)], [⟨"ADDR", 31, 0, .RO, 0, false⟩]⟩
def DMA_CH_CUR_HI.desc : RegDesc := ⟨.DMA, 0x118, [(32, 0x20)], [⟨"ADDR", 31, 0, .RO, 0, false⟩]⟩
def DMA_CH_DONE.desc : RegDesc := ⟨.DMA, 0x11C, [(32, 0x20)], [⟨"COUNT", 31, 0, .RC, 0, false⟩]⟩
def PCI_CTRL.desc : RegDesc := ⟨.PCI, 0x0, [], [
      ⟨"EN", 31, 31, .RW, 0, false⟩,
      ⟨"ROLE", 30, 30, .RW, 0, false⟩,
      ⟨"MAX_SPEED", 29, 27, .RW, 5, false⟩,
      ⟨"MAX_WIDTH", 26, 25, .RW, 3, false⟩]⟩
def PCI_STATUS.desc : RegDesc := ⟨.PCI, 0x4, [], [
      ⟨"LINK_UP", 31, 31, .RO, 0, false⟩,
      ⟨"SPEED", 30, 28, .RO, 0, false⟩,
      ⟨"WIDTH", 27, 26, .RO, 0, false⟩,
      ⟨"FLIT", 25, 25, .RO, 0, false⟩,
      ⟨"DRAINING", 24, 24, .RO, 0, false⟩]⟩
def PCI_WIN_OFS.desc : RegDesc := ⟨.PCI, 0x8, [], [⟨"OFS", 31, 0, .RW, 0, false⟩]⟩
def PCI_IN_BASE.desc : RegDesc := ⟨.PCI, 0xC, [], [⟨"BASE", 31, 0, .RW, 0, false⟩]⟩
def PCI_IN_SIZE.desc : RegDesc := ⟨.PCI, 0x10, [], [⟨"IN_LOG2", 5, 0, .RW, 0, false⟩]⟩
def PCI_IRQ_ROUTE_LO.desc : RegDesc := ⟨.PCI, 0x14, [], [⟨"ROUTE", 31, 0, .RW, 0, false⟩]⟩
def PCI_IRQ_ROUTE_HI.desc : RegDesc := ⟨.PCI, 0x18, [], [⟨"ROUTE", 31, 0, .RW, 0, false⟩]⟩
def PCI_CFG_ADDR.desc : RegDesc := ⟨.PCI, 0x20, [], [
      ⟨"BUS", 27, 20, .RW, 0, false⟩,
      ⟨"DEV", 19, 15, .RW, 0, false⟩,
      ⟨"FN", 14, 12, .RW, 0, false⟩,
      ⟨"REG", 11, 2, .RW, 0, false⟩]⟩
def PCI_CFG_DATA.desc : RegDesc := ⟨.PCI, 0x24, [], [⟨"DATA", 31, 0, .RW, 0, false⟩]⟩
def PCI_CFG_STAT.desc : RegDesc := ⟨.PCI, 0x28, [], [⟨"RESULT", 1, 0, .RO, 0, false⟩]⟩
def PCI_ERR.desc : RegDesc := ⟨.PCI, 0x2C, [], [
      ⟨"CPL_TIMEOUT", 31, 16, .RC, 0, false⟩,
      ⟨"UR_CA", 15, 0, .RC, 0, false⟩]⟩
def STM_CMD.desc : RegDesc := ⟨.STM, 0x4, [], [
      ⟨"CMD", 31, 28, .WO, 0, false⟩,
      ⟨"GEN", 23, 8, .WO, 0, false⟩,
      ⟨"INDEX", 7, 0, .WO, 0, false⟩]⟩
def STM_CMD_STAT.desc : RegDesc := ⟨.STM, 0x8, [], [
      ⟨"RESULT", 31, 28, .RO, 0, false⟩,
      ⟨"BUSY", 27, 27, .RO, 0, false⟩,
      ⟨"GEN", 23, 8, .RO, 0, false⟩,
      ⟨"INDEX", 7, 0, .RO, 0, false⟩]⟩
def STM_FIRST_SEQ_LO.desc : RegDesc := ⟨.STM, 0xC, [], [⟨"SEQ", 31, 0, .RO, 0, false⟩]⟩
def STM_FIRST_SEQ_HI.desc : RegDesc := ⟨.STM, 0x10, [], [⟨"SEQ", 31, 0, .RO, 0, false⟩]⟩
def STM_RING_DB.desc : RegDesc := ⟨.STM, 0x14, [], [⟨"INDEX", 7, 0, .WO, 0, false⟩]⟩
def STM_SUB_STAGE.desc : RegDesc := ⟨.STM, 0x40, [(16, 0x4)], [⟨"DATA", 31, 0, .RW, 0, false⟩]⟩
def STM_PTP_CFG.desc : RegDesc := ⟨.STM, 0x100, [], [
      ⟨"TRANSPORT", 9, 8, .ST, 1, false⟩,
      ⟨"DOMAIN", 7, 0, .ST, 0, false⟩]⟩
def STM_PTP_ASYM.desc : RegDesc := ⟨.STM, 0x104, [], [⟨"ASYM_PS", 31, 0, .ST, 0, false⟩]⟩
def STM_ETH_ADDR.desc : RegDesc := ⟨.STM, 0x200, [(6, 0x40), (12, 0x4)], [⟨"DATA", 31, 0, .ST, 0, false⟩]⟩
def STM_ETH_RXDISC.desc : RegDesc := ⟨.STM, 0x230, [(6, 0x40)], [⟨"COUNT", 31, 0, .RC, 0, false⟩]⟩
def STM_SUB.desc : RegDesc := ⟨.STM, 0x1000, [(256, 0x40), (16, 0x4)], [⟨"DATA", 31, 0, .RO, 0, false⟩]⟩
def STM_SUB_DROPS.desc : RegDesc := ⟨.STM, 0x5000, [(256, 0x4)], [⟨"COUNT", 31, 0, .RC, 0, false⟩]⟩
def NVM_SET_CFG.desc : RegDesc := ⟨.NVM, 0x0, [(4, 0x10)], [
      ⟨"EN", 31, 31, .ST, 0, false⟩,
      ⟨"POLICY", 30, 30, .ST, 0, false⟩,
      ⟨"FLUSH_MS", 29, 16, .ST, 100, false⟩]⟩
def NVM_SET_CMD.desc : RegDesc := ⟨.NVM, 0x4, [(4, 0x10)], [⟨"FORMAT", 0, 0, .WO, 0, false⟩]⟩
def NVM_SET_STAT.desc : RegDesc := ⟨.NVM, 0x8, [(4, 0x10)], [
      ⟨"FAILED", 31, 16, .RO, 0, false⟩,
      ⟨"STATE", 1, 0, .RO, 0, false⟩]⟩
def NVM_DRIVE.desc : RegDesc := ⟨.NVM, 0x100, [(32, 0x8)], [
      ⟨"EN", 31, 31, .ST, 0, false⟩,
      ⟨"PORT", 30, 30, .ST, 0, false⟩,
      ⟨"SET", 29, 28, .ST, 0, false⟩,
      ⟨"INDEX", 27, 24, .ST, 0, false⟩,
      ⟨"BUS", 23, 16, .ST, 0, false⟩,
      ⟨"DEV", 15, 11, .ST, 0, false⟩,
      ⟨"FN", 10, 8, .ST, 0, false⟩]⟩
def NVM_DRIVE_NSID.desc : RegDesc := ⟨.NVM, 0x104, [(32, 0x8)], [⟨"NSID", 31, 0, .ST, 1, false⟩]⟩
def FAB_STATUS.desc : RegDesc := ⟨.FAB, 0x0, [], [
      ⟨"TRG_BOUND", 31, 28, .RO, 0, false⟩,
      ⟨"GM_HOPS", 27, 24, .RO, 0, false⟩,
      ⟨"IS_GM", 23, 23, .RO, 0, false⟩,
      ⟨"ADDR_STATE", 15, 14, .RO, 0, false⟩,
      ⟨"ADDR", 11, 0, .RO, 0, false⟩]⟩
def FAB_ADDR_CFG.desc : RegDesc := ⟨.FAB, 0x4, [], [⟨"MODE", 13, 12, .ST, 0, false⟩, ⟨"ADDR", 11, 0, .ST, 0, false⟩]⟩
def FAB_UID_LO.desc : RegDesc := ⟨.FAB, 0x8, [], [⟨"UID", 31, 0, .RO, 0, false⟩]⟩
def FAB_UID_HI.desc : RegDesc := ⟨.FAB, 0xC, [], [⟨"UID", 31, 0, .RO, 0, false⟩]⟩
def FAB_TIME_CFG.desc : RegDesc := ⟨.FAB, 0x10, [], [⟨"PRIO", 7, 0, .ST, 128, false⟩]⟩
def FAB_GM.desc : RegDesc := ⟨.FAB, 0x14, [], [
      ⟨"REF", 20, 20, .RO, 0, false⟩,
      ⟨"PRIO", 19, 12, .RO, 0, false⟩,
      ⟨"ADDR", 11, 0, .RO, 0, false⟩]⟩
def FAB_COUNTS.desc : RegDesc := ⟨.FAB, 0x18, [], [⟨"STALE", 31, 16, .RC, 0, false⟩, ⟨"DUP", 15, 0, .RC, 0, false⟩]⟩
def FAB_NO_ROUTE.desc : RegDesc := ⟨.FAB, 0x1C, [], [⟨"COUNT", 31, 0, .RC, 0, false⟩]⟩
def FAB_TRG_SUB_LO.desc : RegDesc := ⟨.FAB, 0x20, [], [⟨"SUB", 31, 0, .ST, 0, false⟩]⟩
def FAB_TRG_SUB_HI.desc : RegDesc := ⟨.FAB, 0x24, [], [⟨"SUB", 31, 0, .ST, 0, false⟩]⟩
def FAB_TRG_DUAL_LO.desc : RegDesc := ⟨.FAB, 0x28, [], [⟨"DUAL", 31, 0, .ST, 0, false⟩]⟩
def FAB_TRG_DUAL_HI.desc : RegDesc := ⟨.FAB, 0x2C, [], [⟨"DUAL", 31, 0, .ST, 0, false⟩]⟩
def FAB_RX_BASE_LO.desc : RegDesc := ⟨.FAB, 0x30, [], [⟨"BASE_LO", 31, 6, .RW, 0, false⟩]⟩
def FAB_RX_BASE_HI.desc : RegDesc := ⟨.FAB, 0x34, [], [
      ⟨"ENABLE", 31, 31, .RW, 0, false⟩,
      ⟨"SIZE_LOG2", 28, 24, .RW, 14, false⟩,
      ⟨"BASE_HI", 15, 0, .RW, 32, false⟩]⟩
def FAB_RX_WP.desc : RegDesc := ⟨.FAB, 0x38, [], [⟨"UNITS", 31, 0, .RO, 0, false⟩]⟩
def FAB_RX_RD.desc : RegDesc := ⟨.FAB, 0x3C, [], [⟨"UNITS", 31, 0, .RW, 0, false⟩]⟩
def FAB_PORT_CFG.desc : RegDesc := ⟨.FAB, 0x100, [(6, 0x20)], [
      ⟨"MODE", 17, 16, .ST, 0, false⟩,
      ⟨"COST", 15, 0, .ST, 1, false⟩]⟩
def FAB_PORT_STAT.desc : RegDesc := ⟨.FAB, 0x104, [(6, 0x20)], [
      ⟨"STATE", 31, 29, .RO, 0, false⟩,
      ⟨"LANES", 28, 26, .RO, 0, false⟩,
      ⟨"SPARE_LANE", 23, 21, .RO, 4, false⟩,
      ⟨"NBR_ADDR", 11, 0, .RO, 0, false⟩]⟩
def FAB_PORT_ASYM.desc : RegDesc := ⟨.FAB, 0x108, [(6, 0x20)], [⟨"ASYM_PS", 31, 0, .ST, 0, false⟩]⟩
def FAB_PORT_DELAY.desc : RegDesc := ⟨.FAB, 0x10C, [(6, 0x20)], [⟨"PS", 31, 0, .RO, 0, false⟩]⟩
def FAB_PORT_ERR.desc : RegDesc := ⟨.FAB, 0x110, [(6, 0x20)], [
      ⟨"RETRAINS", 31, 16, .RC, 0, false⟩,
      ⟨"RETRIES", 15, 0, .RC, 0, false⟩]⟩
def CAL_CFG.desc : RegDesc := ⟨.CAL, 0x0, [], [
      ⟨"AUTO", 31, 31, .ST, 1, false⟩,
      ⟨"BOOT_CAL", 30, 30, .ST, 1, false⟩,
      ⟨"DRIFT", 15, 8, .ST, 30, false⟩,
      ⟨"AGE_H", 7, 0, .ST, 0, false⟩]⟩
def CAL_QUIET.desc : RegDesc := ⟨.CAL, 0x4, [], [
      ⟨"SRC", 31, 30, .ST, 0, false⟩,
      ⟨"ALL", 29, 29, .ST, 0, false⟩,
      ⟨"LEVEL", 28, 28, .ST, 1, false⟩,
      ⟨"TIN", 27, 24, .ST, 0, false⟩,
      ⟨"TYPE_MASK", 23, 20, .ST, 0, false⟩,
      ⟨"FORCE_S", 15, 0, .ST, 0, false⟩]⟩
def CAL_CMD.desc : RegDesc := ⟨.CAL, 0x8, [], [
      ⟨"CMD", 31, 28, .WO, 0, false⟩,
      ⟨"SOURCE", 27, 27, .WO, 0, false⟩,
      ⟨"WHOLE_DIE", 26, 26, .WO, 0, false⟩,
      ⟨"DIE", 11, 8, .WO, 0, false⟩,
      ⟨"SLICE", 5, 0, .WO, 0, false⟩]⟩
def CAL_CMD_STAT.desc : RegDesc := ⟨.CAL, 0xC, [], [⟨"BUSY", 4, 4, .RO, 0, false⟩, ⟨"RESULT", 3, 0, .RO, 0, false⟩]⟩
def CAL_REC_ADDR_LO.desc : RegDesc := ⟨.CAL, 0x10, [], [⟨"ADDR", 31, 6, .RW, 0, false⟩]⟩
def CAL_REC_ADDR_HI.desc : RegDesc := ⟨.CAL, 0x14, [], [⟨"ADDR", 15, 0, .RW, 0x20, false⟩]⟩
def CAL_COMMIT_ARM.desc : RegDesc := ⟨.CAL, 0x18, [], [⟨"KEY", 31, 0, .WO, 0, false⟩]⟩
def CAL_INFO.desc : RegDesc := ⟨.CAL, 0x1C, [], [
      ⟨"FACTORY", 31, 31, .RO, 0, false⟩,
      ⟨"COMMIT_COUNT", 15, 0, .RO, 0, false⟩]⟩
def CAL_COUNTS.desc : RegDesc := ⟨.CAL, 0x20, [], [
      ⟨"STALE", 31, 16, .RC, 0, false⟩,
      ⟨"HITLESS", 15, 0, .RC, 0, false⟩]⟩
def CAL_ATTIC_DIGEST.desc : RegDesc := ⟨.CAL, 0x40, [(8, 0x4)], [⟨"DIGEST", 31, 0, .RO, 0, false⟩]⟩
def CAL_DIE_STAT.desc : RegDesc := ⟨.CAL, 0x100, [(8, 0x10)], [
      ⟨"FREE_SPARES", 31, 30, .RO, 2, false⟩,
      ⟨"QUEUED", 29, 24, .RO, 0, false⟩,
      ⟨"PHASE", 23, 21, .RO, 0, false⟩,
      ⟨"SUSPECTS", 15, 8, .RO, 0, false⟩,
      ⟨"SLICE", 5, 0, .RO, 0, false⟩]⟩
def PAN_POLICY.desc : RegDesc := ⟨.PAN, 0x0, [], [⟨"POLICY", 11, 0, .ST, 0, false⟩]⟩
def PAN_ROT.desc : RegDesc := ⟨.PAN, 0x4, [], [
      ⟨"EN", 31, 31, .ST, 1, false⟩,
      ⟨"OPAL_MIN", 23, 16, .ST, 60, false⟩,
      ⟨"TILE_MIN", 15, 8, .ST, 10, false⟩,
      ⟨"TEL_MIN", 7, 0, .ST, 1, false⟩]⟩
def PAN_THR_A.desc : RegDesc := ⟨.PAN, 0x8, [], [
      ⟨"TRIM_MARGIN", 31, 24, .ST, 16, false⟩,
      ⟨"TILE_ECC_H", 23, 16, .ST, 16, false⟩,
      ⟨"CORE_ECC_H", 15, 8, .ST, 16, false⟩,
      ⟨"AGE_PM", 7, 0, .ST, 40, false⟩]⟩
def PAN_THR_B.desc : RegDesc := ⟨.PAN, 0xC, [], [
      ⟨"LANE_EYE_MV", 31, 24, .ST, 12, false⟩,
      ⟨"LANE_SER_EXP", 23, 20, .ST, 5, false⟩,
      ⟨"ROW_PASSES", 19, 16, .ST, 2, false⟩,
      ⟨"HBM_CORR_H", 15, 0, .ST, 1000, false⟩]⟩
def PAN_CMD.desc : RegDesc := ⟨.PAN, 0x10, [], [
      ⟨"CMD", 31, 28, .WO, 0, false⟩,
      ⟨"KIND", 27, 24, .WO, 0, false⟩,
      ⟨"UNIT", 15, 0, .WO, 0, false⟩]⟩
def PAN_CMD_STAT.desc : RegDesc := ⟨.PAN, 0x14, [], [⟨"BUSY", 3, 3, .RO, 0, false⟩, ⟨"RESULT", 2, 0, .RO, 0, false⟩]⟩
def PAN_ASK.desc : RegDesc := ⟨.PAN, 0x18, [], [
      ⟨"VALID", 31, 31, .RO, 0, false⟩,
      ⟨"KIND", 27, 24, .RO, 0, false⟩,
      ⟨"COUNT", 23, 16, .RO, 0, false⟩,
      ⟨"UNIT", 15, 0, .RO, 0, false⟩]⟩
def PAN_CMD_ROW.desc : RegDesc := ⟨.PAN, 0x1C, [], [⟨"BANK", 21, 16, .RW, 0, false⟩, ⟨"ROW", 15, 0, .RW, 0, false⟩]⟩
def PAN_TEL_BASE_LO.desc : RegDesc := ⟨.PAN, 0x20, [], [⟨"BASE_LO", 31, 14, .RW, 0, false⟩]⟩
def PAN_TEL_BASE_HI.desc : RegDesc := ⟨.PAN, 0x24, [], [
      ⟨"ENABLE", 31, 31, .RW, 0, false⟩,
      ⟨"SIZE_LOG2", 27, 24, .RW, 6, false⟩,
      ⟨"BASE_HI", 15, 0, .RW, 32, false⟩]⟩
def PAN_TEL_PTR.desc : RegDesc := ⟨.PAN, 0x28, [], [⟨"HEAD", 31, 16, .RW, 0, false⟩, ⟨"TAIL", 15, 0, .RO, 0, false⟩]⟩
def PAN_SPARES.desc : RegDesc := ⟨.PAN, 0x40, [(9, 0x4)], [
      ⟨"FREE", 31, 16, .RO, 0, false⟩,
      ⟨"RETIRED", 15, 0, .RO, 0, true⟩]⟩
def PAN_AGE.desc : RegDesc := ⟨.PAN, 0x80, [(11, 0x4)], [⟨"SLOW", 15, 0, .RO, 0, false⟩]⟩
def PAN_MOVE.desc : RegDesc := ⟨.PAN, 0xB0, [], [
      ⟨"BUSY", 31, 31, .RO, 0, false⟩,
      ⟨"HPC", 30, 24, .RO, 0, false⟩,
      ⟨"RESERVE", 23, 20, .RO, 0, false⟩,
      ⟨"DONE_PM", 9, 0, .RO, 0, false⟩]⟩
def EPO_PAGE_CFG.desc : RegDesc := ⟨.EPO, 0x20, [], [⟨"SECT", 6, 0, .ST, 127, false⟩]⟩
def EPO_SKIPPED.desc : RegDesc := ⟨.EPO, 0x24, [], [⟨"COUNT", 31, 0, .RC, 0, false⟩]⟩
def PWR_STATUS.desc : RegDesc := ⟨.PWR, 0x0, [], [
      ⟨"STATE", 31, 29, .RO, 1, false⟩,
      ⟨"DRAINING", 28, 28, .RO, 0, false⟩,
      ⟨"PHASES_B", 22, 16, .RO, 0, false⟩,
      ⟨"SOURCE", 11, 10, .RO, 3, false⟩,
      ⟨"FORCED_B", 9, 9, .RO, 0, false⟩,
      ⟨"RETURN_PEND", 8, 8, .RO, 0, false⟩,
      ⟨"PWRGD", 7, 7, .RO, 0, false⟩]⟩
def PWR_CMP_CFG.desc : RegDesc := ⟨.PWR, 0x10, [(3, 0x4)], [
      ⟨"MODE", 31, 30, .ST, 0, false⟩,
      ⟨"SETTLE", 29, 22, .ST, 200, false⟩,
      ⟨"HYST", 21, 18, .ST, 4, false⟩,
      ⟨"THRESH", 11, 0, .ST, 0, false⟩]⟩
def PWR_CMP_STAT.desc : RegDesc := ⟨.PWR, 0x20, [], [
      ⟨"INBAND", 10, 8, .RO, 0, false⟩,
      ⟨"UNSETTLED", 6, 4, .RO, 7, false⟩,
      ⟨"GOOD", 2, 0, .RO, 0, false⟩]⟩
def PWR_SW_CFG.desc : RegDesc := ⟨.PWR, 0x24, [], [
      ⟨"AUTO_RETURN", 31, 31, .ST, 1, false⟩,
      ⟨"AUTO_START", 30, 30, .ST, 0, true⟩,
      ⟨"RETURN_MS", 9, 0, .ST, 100, false⟩]⟩
def PWR_CMD.desc : RegDesc := ⟨.PWR, 0x28, [], [⟨"CMD", 31, 28, .WO, 0, false⟩, ⟨"FORCED", 27, 27, .WO, 0, false⟩]⟩
def PWR_FLAGS.desc : RegDesc := ⟨.PWR, 0x2C, [], [
      ⟨"BOTH_FAIL_SEEN", 4, 4, .W1C, 0, true⟩,
      ⟨"OVERTEMP_SEEN", 3, 3, .W1C, 0, true⟩,
      ⟨"VHK_LOW_SEEN", 2, 2, .W1C, 0, true⟩,
      ⟨"SW_SEEN", 1, 1, .W1C, 0, true⟩,
      ⟨"INBAND_SEEN", 0, 0, .W1C, 0, true⟩]⟩
def PWR_SW_COUNT.desc : RegDesc := ⟨.PWR, 0x30, [], [⟨"TO_A", 31, 16, .RC, 0, false⟩, ⟨"TO_B", 15, 0, .RC, 0, false⟩]⟩
def PWR_SW_LAST.desc : RegDesc := ⟨.PWR, 0x34, [], [⟨"NS", 31, 0, .RO, 0, false⟩]⟩
def HK_ADC_CFG.desc : RegDesc := ⟨.HK, 0x0, [], [
      ⟨"EN", 31, 31, .ST, 1, false⟩,
      ⟨"TRIG", 30, 30, .ST, 0, false⟩,
      ⟨"PWM_GRP", 29, 26, .ST, 0, false⟩,
      ⟨"DELAY", 25, 14, .ST, 10, false⟩,
      ⟨"LEN", 6, 0, .ST, 64, false⟩]⟩
def HK_ADC_PERIOD.desc : RegDesc := ⟨.HK, 0x4, [], [⟨"US", 31, 0, .ST, 1000, false⟩]⟩
def HK_ADC_CMD.desc : RegDesc := ⟨.HK, 0x8, [], [⟨"URGENT", 31, 31, .WO, 0, false⟩, ⟨"INPUT", 5, 0, .WO, 0, false⟩]⟩
def HK_ADC_STAT.desc : RegDesc := ⟨.HK, 0xC, [], [
      ⟨"OVERRUN", 31, 16, .RC, 0, false⟩,
      ⟨"URG_LOST", 15, 12, .RC, 0, false⟩,
      ⟨"ABORTS", 11, 8, .RC, 0, false⟩,
      ⟨"BUSY", 7, 7, .RO, 0, false⟩,
      ⟨"URGENT_BUSY", 6, 6, .RO, 0, false⟩,
      ⟨"CUR", 5, 0, .RO, 0, false⟩]⟩
def HK_URGENT_RES.desc : RegDesc := ⟨.HK, 0x10, [], [
      ⟨"INPUT", 21, 16, .RO, 0, false⟩,
      ⟨"VALUE", 15, 0, .RO, 0, false⟩]⟩
def HK_THERM.desc : RegDesc := ⟨.HK, 0x14, [], [⟨"WARN", 15, 8, .ST, 100, false⟩, ⟨"STOP", 7, 0, .ST, 115, false⟩]⟩
def HK_ADC_SEQ.desc : RegDesc := ⟨.HK, 0x40, [(16, 0x4)], [
      ⟨"ENTRY3", 29, 24, .ST, 0, false⟩,
      ⟨"ENTRY2", 21, 16, .ST, 0, false⟩,
      ⟨"ENTRY1", 13, 8, .ST, 0, false⟩,
      ⟨"ENTRY0", 5, 0, .ST, 0, false⟩]⟩
def HK_RESULT.desc : RegDesc := ⟨.HK, 0x100, [(64, 0x4)], [
      ⟨"PASS", 31, 16, .RO, 0, false⟩,
      ⟨"VALUE", 15, 0, .RO, 32768, false⟩]⟩
def SEC_STATUS.desc : RegDesc := ⟨.SEC, 0x0, [], [
      ⟨"FW_SVN", 31, 24, .RO, 0, false⟩,
      ⟨"OWNER_SEQ", 23, 19, .RO, 0, false⟩,
      ⟨"BOOTSEL", 18, 16, .RO, 0, false⟩,
      ⟨"SLOT", 15, 14, .RO, 0, false⟩,
      ⟨"TRIES", 13, 12, .RO, 0, false⟩,
      ⟨"OS_READY", 11, 11, .RO, 0, false⟩,
      ⟨"OWNER", 10, 10, .RO, 0, false⟩,
      ⟨"PRESENCE", 9, 9, .RO, 0, false⟩,
      ⟨"TRNG_OK", 8, 8, .RO, 0, false⟩,
      ⟨"DBG_POLICY", 1, 0, .RO, 0, false⟩]⟩
def SEC_MBOX_ADDR_LO.desc : RegDesc := ⟨.SEC, 0x10, [], [⟨"ADDR_LO", 31, 6, .RW, 0, false⟩]⟩
def SEC_MBOX_ADDR_HI.desc : RegDesc := ⟨.SEC, 0x14, [], [⟨"ADDR_HI", 15, 0, .RW, 32, false⟩]⟩
def SEC_CMD.desc : RegDesc := ⟨.SEC, 0x18, [], [⟨"OPCODE", 31, 24, .WO, 0, false⟩, ⟨"LENGTH", 23, 0, .WO, 0, false⟩]⟩
def SEC_CMD_STAT.desc : RegDesc := ⟨.SEC, 0x1C, [], [⟨"BUSY", 8, 8, .RO, 0, false⟩, ⟨"STATUS", 7, 0, .RO, 0, false⟩]⟩
def SEC_DBG_CHAL.desc : RegDesc := ⟨.SEC, 0x20, [(8, 0x4)], [⟨"CHAL", 31, 0, .RO, 0, false⟩]⟩
def SEC_DBG_STAT.desc : RegDesc := ⟨.SEC, 0x40, [], [
      ⟨"LIFE_S", 31, 16, .RO, 0, false⟩,
      ⟨"SCOPE", 2, 0, .RO, 0, false⟩]⟩
def SEC_DBG_CMD.desc : RegDesc := ⟨.SEC, 0x44, [], [⟨"CHAL", 31, 31, .WO, 0, false⟩, ⟨"CLOSE", 30, 30, .WO, 0, false⟩]⟩
def SEC_FW_DIGEST.desc : RegDesc := ⟨.SEC, 0x80, [(2, 0x20), (8, 0x4)], [⟨"DIGEST", 31, 0, .RO, 0, false⟩]⟩
def SYS_RCV_CFG.desc : RegDesc := ⟨.SYS, 0x300, [], [
      ⟨"SAFE_AUTO", 31, 31, .ST, 1, false⟩,
      ⟨"PC_AUTO", 30, 30, .ST, 0, false⟩,
      ⟨"PM_HOLD", 29, 29, .ST, 0, true⟩,
      ⟨"WARM_WINDOW", 28, 24, .ST, 10, false⟩,
      ⟨"SAFE_HOLD_S", 23, 16, .ST, 60, false⟩,
      ⟨"PC_HOLD_S", 15, 8, .ST, 30, false⟩,
      ⟨"RELOCK_S", 7, 0, .ST, 60, false⟩]⟩
def SYS_RCV_CMD.desc : RegDesc := ⟨.SYS, 0x304, [], [⟨"CMD", 31, 28, .WO, 0, false⟩]⟩
def SYS_RCV_STAT.desc : RegDesc := ⟨.SYS, 0x308, [], [
      ⟨"HOLD_LEFT", 31, 16, .RO, 0, false⟩,
      ⟨"WARM_COUNT", 15, 8, .RO, 0, true⟩,
      ⟨"STEP", 2, 0, .RO, 0, false⟩]⟩
def SYS_PM.desc : RegDesc := ⟨.SYS, 0x340, [(16, 0x4)], [⟨"DATA", 31, 0, .RO, 0, true⟩]⟩

/-- The descriptor of a register. -/
def Reg.desc (r : Reg) : RegDesc :=
  match r with
  | .EVQ_BASE_LO => EVQ_BASE_LO.desc
  | .EVQ_BASE_HI => EVQ_BASE_HI.desc
  | .EVQ_SIZE => EVQ_SIZE.desc
  | .EVQ_CTRL => EVQ_CTRL.desc
  | .EVQ_TAIL => EVQ_TAIL.desc
  | .EVQ_HEAD => EVQ_HEAD.desc
  | .EVQ_DROPPED => EVQ_DROPPED.desc
  | .EVQ_STATUS => EVQ_STATUS.desc
  | .CNV_ID => CNV_ID.desc
  | .CNV_CTRL => CNV_CTRL.desc
  | .CNV_STATUS => CNV_STATUS.desc
  | .CNV_SEQ_LO => CNV_SEQ_LO.desc
  | .CNV_SEQ_HI => CNV_SEQ_HI.desc
  | .CNV_CH_CFG => CNV_CH_CFG.desc
  | .CNV_CH_UOFFS => CNV_CH_UOFFS.desc
  | .CNV_CH_UGAIN => CNV_CH_UGAIN.desc
  | .CNV_CH_CMP_HI => CNV_CH_CMP_HI.desc
  | .CNV_CH_CMP_LO => CNV_CH_CMP_LO.desc
  | .CNV_CH_CMP_CFG => CNV_CH_CMP_CFG.desc
  | .CNV_CH_CMP_STAT => CNV_CH_CMP_STAT.desc
  | .CNV_CH_ROUTE => CNV_CH_ROUTE.desc
  | .CNV_CH_FLAGS => CNV_CH_FLAGS.desc
  | .CNV_CH_PROT_COUNT => CNV_CH_PROT_COUNT.desc
  | .CNV_SL_TRIM_A => CNV_SL_TRIM_A.desc
  | .CNV_SL_TRIM_B => CNV_SL_TRIM_B.desc
  | .CNV_SL_STATE => CNV_SL_STATE.desc
  | .CLK_STATUS => CLK_STATUS.desc
  | .CLK_REF_CFG => CLK_REF_CFG.desc
  | .CLK_REF_NOM => CLK_REF_NOM.desc
  | .CLK_SYN_INT => CLK_SYN_INT.desc
  | .CLK_SYN_FRAC => CLK_SYN_FRAC.desc
  | .CLK_SYN_OFFSET => CLK_SYN_OFFSET.desc
  | .CLK_POLICY => CLK_POLICY.desc
  | .CLK_CEIL => CLK_CEIL.desc
  | .CLK_BYP => CLK_BYP.desc
  | .CLK_JC_CFG => CLK_JC_CFG.desc
  | .CLK_TCLK_INT => CLK_TCLK_INT.desc
  | .CLK_TCLK_FRAC => CLK_TCLK_FRAC.desc
  | .CLK_JUMP => CLK_JUMP.desc
  | .CLK_FREQ_ERR => CLK_FREQ_ERR.desc
  | .CLK_FLAGS => CLK_FLAGS.desc
  | .CLK_DIE_DLY => CLK_DIE_DLY.desc
  | .CLK_CKO_CFG => CLK_CKO_CFG.desc
  | .CLK_CKO_DLY => CLK_CKO_DLY.desc
  | .CLK_CKO_STAT => CLK_CKO_STAT.desc
  | .TDC_STATUS => TDC_STATUS.desc
  | .TDC_TIME_CFG => TDC_TIME_CFG.desc
  | .TDC_CAL => TDC_CAL.desc
  | .TDC_OT_CAP => TDC_OT_CAP.desc
  | .TDC_OT_SET => TDC_OT_SET.desc
  | .TDC_RING_BASE_LO => TDC_RING_BASE_LO.desc
  | .TDC_RING_BASE_HI => TDC_RING_BASE_HI.desc
  | .TDC_RING_PTR => TDC_RING_PTR.desc
  | .TDC_RING_DROPPED => TDC_RING_DROPPED.desc
  | .TDC_IN_CFG => TDC_IN_CFG.desc
  | .TDC_IN_FUNC => TDC_IN_FUNC.desc
  | .TDC_IN_PARAM => TDC_IN_PARAM.desc
  | .TDC_IN_STAT => TDC_IN_STAT.desc
  | .TDC_IN_ERR => TDC_IN_ERR.desc
  | .TDC_IN_DEAD => TDC_IN_DEAD.desc
  | .EPO_CFG => EPO_CFG.desc
  | .EPO_PERIOD => EPO_PERIOD.desc
  | .EPO_TYPE_SEQ => EPO_TYPE_SEQ.desc
  | .EPO_PAGE_BASE => EPO_PAGE_BASE.desc
  | .EPO_ACK => EPO_ACK.desc
  | .EPO_NUM_LO => EPO_NUM_LO.desc
  | .EPO_NUM_HI => EPO_NUM_HI.desc
  | .EPO_COUNTS => EPO_COUNTS.desc
  | .GT_ID => GT_ID.desc
  | .GT_STATUS => GT_STATUS.desc
  | .GT_PC => GT_PC.desc
  | .GT_FAULT => GT_FAULT.desc
  | .GT_FRAME => GT_FRAME.desc
  | .GT_RING => GT_RING.desc
  | .GT_LOST => GT_LOST.desc
  | .GT_OUT_DROPS => GT_OUT_DROPS.desc
  | .GT_ECC_CORR => GT_ECC_CORR.desc
  | .GT_UDISP_A => GT_UDISP_A.desc
  | .GT_UDISP_B => GT_UDISP_B.desc
  | .GT_UFAULT => GT_UFAULT.desc
  | .SYS_ID => SYS_ID.desc
  | .SYS_IMG_ADDR_LO => SYS_IMG_ADDR_LO.desc
  | .SYS_IMG_ADDR_HI => SYS_IMG_ADDR_HI.desc
  | .SYS_IMG_LEN => SYS_IMG_LEN.desc
  | .SYS_PRG_CMD => SYS_PRG_CMD.desc
  | .SYS_PRG_EPOCH_LO => SYS_PRG_EPOCH_LO.desc
  | .SYS_PRG_EPOCH_HI => SYS_PRG_EPOCH_HI.desc
  | .SYS_PRG_STATUS => SYS_PRG_STATUS.desc
  | .SYS_PRG_REPORT_LO => SYS_PRG_REPORT_LO.desc
  | .SYS_PRG_REPORT_HI => SYS_PRG_REPORT_HI.desc
  | .SYS_PRG_ERRORS => SYS_PRG_ERRORS.desc
  | .SYS_PRG_POLICY => SYS_PRG_POLICY.desc
  | .SYS_HELD_DISCARDS => SYS_HELD_DISCARDS.desc
  | .SYS_PRG_DIGEST => SYS_PRG_DIGEST.desc
  | .GT_NCO_FLO => GT_NCO_FLO.desc
  | .GT_NCO_FHI => GT_NCO_FHI.desc
  | .GT_NCO_STAT => GT_NCO_STAT.desc
  | .GT_NCO_PHASE => GT_NCO_PHASE.desc
  | .GT_DSP_SAT => GT_DSP_SAT.desc
  | .SYS_OCT_STAT => SYS_OCT_STAT.desc
  | .SYS_RPL_START_LO => SYS_RPL_START_LO.desc
  | .SYS_RPL_START_HI => SYS_RPL_START_HI.desc
  | .SYS_RPL_LEN => SYS_RPL_LEN.desc
  | .SYS_RPL_CTRL => SYS_RPL_CTRL.desc
  | .SYS_RPL_STAT => SYS_RPL_STAT.desc
  | .EPO_TURN_CFG => EPO_TURN_CFG.desc
  | .EPO_TURN_DLY => EPO_TURN_DLY.desc
  | .EPO_TURN_STAT => EPO_TURN_STAT.desc
  | .EPO_TURN_ERR => EPO_TURN_ERR.desc
  | .EPO_TURN_BASE_LO => EPO_TURN_BASE_LO.desc
  | .EPO_TURN_BASE_HI => EPO_TURN_BASE_HI.desc
  | .GT_XRX_CFG => GT_XRX_CFG.desc
  | .GT_XRX_STAT => GT_XRX_STAT.desc
  | .GT_XRX_DROPS => GT_XRX_DROPS.desc
  | .TRG_SW => TRG_SW.desc
  | .TRG_TOUT_CFG => TRG_TOUT_CFG.desc
  | .TRG_TMR_PERIOD => TRG_TMR_PERIOD.desc
  | .TRG_TMR_PHASE => TRG_TMR_PHASE.desc
  | .TRG_PIN_BUDGET => TRG_PIN_BUDGET.desc
  | .TRG_PIN_USED => TRG_PIN_USED.desc
  | .TRG_RTV_BASE_LO => TRG_RTV_BASE_LO.desc
  | .TRG_RTC_BASE_LO => TRG_RTC_BASE_LO.desc
  | .TRG_RTV_BASE_HI => TRG_RTV_BASE_HI.desc
  | .TRG_RTC_BASE_HI => TRG_RTC_BASE_HI.desc
  | .TRG_RTV_PTR => TRG_RTV_PTR.desc
  | .TRG_RTC_PTR => TRG_RTC_PTR.desc
  | .TRG_REC_CFG => TRG_REC_CFG.desc
  | .TRG_IDX_NEXT_LO => TRG_IDX_NEXT_LO.desc
  | .TRG_IDX_NEXT_HI => TRG_IDX_NEXT_HI.desc
  | .TRG_CELL_IN => TRG_CELL_IN.desc
  | .TRG_CELL_TERM => TRG_CELL_TERM.desc
  | .TRG_CELL_CFG => TRG_CELL_CFG.desc
  | .TRG_CELL_WIN => TRG_CELL_WIN.desc
  | .TRG_CELL_OUT => TRG_CELL_OUT.desc
  | .TRG_CELL_GRP_LO => TRG_CELL_GRP_LO.desc
  | .TRG_CELL_GRP_HI => TRG_CELL_GRP_HI.desc
  | .TRG_CELL_FIRES => TRG_CELL_FIRES.desc
  | .TRG_CELL_LATE => TRG_CELL_LATE.desc
  | .TRG_DEF_CFG => TRG_DEF_CFG.desc
  | .TRG_DEF_PRE => TRG_DEF_PRE.desc
  | .TRG_DEF_POST => TRG_DEF_POST.desc
  | .TRG_DEF_MAXEXT => TRG_DEF_MAXEXT.desc
  | .TRG_DEF_TIMEOUT => TRG_DEF_TIMEOUT.desc
  | .TRG_DEF_CNT => TRG_DEF_CNT.desc
  | .TRG_DEF_STAT => TRG_DEF_STAT.desc
  | .TRG_DEF_CH => TRG_DEF_CH.desc
  | .CEL_STATUS => CEL_STATUS.desc
  | .CEL_RING_CFG => CEL_RING_CFG.desc
  | .CEL_REFRESH => CEL_REFRESH.desc
  | .CEL_SCRUB => CEL_SCRUB.desc
  | .CEL_FC_CTRL => CEL_FC_CTRL.desc
  | .CEL_FC_STAT => CEL_FC_STAT.desc
  | .CEL_ECC_CORR => CEL_ECC_CORR.desc
  | .CEL_ECC_UNCORR => CEL_ECC_UNCORR.desc
  | .CEL_POISON => CEL_POISON.desc
  | .CEL_REPAIR => CEL_REPAIR.desc
  | .CEL_FROZEN => CEL_FROZEN.desc
  | .CEL_FREEZE_CMD => CEL_FREEZE_CMD.desc
  | .CEL_DIAG_SEL => CEL_DIAG_SEL.desc
  | .CEL_DIAG_ADDR => CEL_DIAG_ADDR.desc
  | .CEL_DIAG_SYND => CEL_DIAG_SYND.desc
  | .CEL_LOSS_NEXT_LO => CEL_LOSS_NEXT_LO.desc
  | .CEL_LOSS_NEXT_HI => CEL_LOSS_NEXT_HI.desc
  | .CEL_ANCHOR_NEXT_LO => CEL_ANCHOR_NEXT_LO.desc
  | .CEL_ANCHOR_NEXT_HI => CEL_ANCHOR_NEXT_HI.desc
  | .CEL_RING_OFS => CEL_RING_OFS.desc
  | .CEL_HEAD_LO => CEL_HEAD_LO.desc
  | .CEL_HEAD_HI => CEL_HEAD_HI.desc
  | .CEL_FLOOR_LO => CEL_FLOOR_LO.desc
  | .CEL_FLOOR_HI => CEL_FLOOR_HI.desc
  | .CEL_PREV_OFS => CEL_PREV_OFS.desc
  | .CEL_PREV_LAST_LO => CEL_PREV_LAST_LO.desc
  | .CEL_PREV_LAST_HI => CEL_PREV_LAST_HI.desc
  | .LND_STATUS => LND_STATUS.desc
  | .LND_FILL => LND_FILL.desc
  | .LND_PEAK => LND_PEAK.desc
  | .LND_CFG => LND_CFG.desc
  | .LND_DISCARDS => LND_DISCARDS.desc
  | .LND_DEFERS => LND_DEFERS.desc
  | .OPL_ID => OPL_ID.desc
  | .OPL_CFG => OPL_CFG.desc
  | .OPL_MAP => OPL_MAP.desc
  | .OPL_LEVEL_BOT => OPL_LEVEL_BOT.desc
  | .OPL_LEVEL_STEP => OPL_LEVEL_STEP.desc
  | .OPL_DECAY => OPL_DECAY.desc
  | .OPL_COLOUR => OPL_COLOUR.desc
  | .OPL_FRAME_CNT => OPL_FRAME_CNT.desc
  | .OPL_SKIP => OPL_SKIP.desc
  | .OPL_BUF => OPL_BUF.desc
  | .OPL_STAT => OPL_STAT.desc
  | .OPL_SPECTRA => OPL_SPECTRA.desc
  | .OPL_DROPS => OPL_DROPS.desc
  | .OPL_FRAMES => OPL_FRAMES.desc
  | .OPL_CMAP => OPL_CMAP.desc
  | .VID_CTRL => VID_CTRL.desc
  | .VID_SIZE_W => VID_SIZE_W.desc
  | .VID_SIZE_H => VID_SIZE_H.desc
  | .VID_HTIM => VID_HTIM.desc
  | .VID_VTIM => VID_VTIM.desc
  | .VID_PCLK => VID_PCLK.desc
  | .VID_STRIDE => VID_STRIDE.desc
  | .VID_BASE => VID_BASE.desc
  | .VID_BASE_ACT => VID_BASE_ACT.desc
  | .VID_RETIRED => VID_RETIRED.desc
  | .VID_FRAME_LO => VID_FRAME_LO.desc
  | .VID_FRAME_HI => VID_FRAME_HI.desc
  | .VID_FLIP_FRAME => VID_FLIP_FRAME.desc
  | .VID_FLIP_TS => VID_FLIP_TS.desc
  | .VID_LAT_TOL => VID_LAT_TOL.desc
  | .VID_STATUS => VID_STATUS.desc
  | .VID_UNDERRUN => VID_UNDERRUN.desc
  | .VID_CRC_SRC0 => VID_CRC_SRC0.desc
  | .VID_CRC_PIN0 => VID_CRC_PIN0.desc
  | .VID_CRC_SRC1 => VID_CRC_SRC1.desc
  | .VID_CRC_PIN1 => VID_CRC_PIN1.desc
  | .VID_CRC_STAT => VID_CRC_STAT.desc
  | .VID_OVL_CFG => VID_OVL_CFG.desc
  | .VID_OVL_POS => VID_OVL_POS.desc
  | .DMA_STATUS => DMA_STATUS.desc
  | .DMA_RATE => DMA_RATE.desc
  | .DMA_ERRSUM => DMA_ERRSUM.desc
  | .DMA_CH_HEAD_LO => DMA_CH_HEAD_LO.desc
  | .DMA_CH_HEAD_HI => DMA_CH_HEAD_HI.desc
  | .DMA_CH_CTRL => DMA_CH_CTRL.desc
  | .DMA_CH_DB => DMA_CH_DB.desc
  | .DMA_CH_STAT => DMA_CH_STAT.desc
  | .DMA_CH_CUR_LO => DMA_CH_CUR_LO.desc
  | .DMA_CH_CUR_HI => DMA_CH_CUR_HI.desc
  | .DMA_CH_DONE => DMA_CH_DONE.desc
  | .PCI_CTRL => PCI_CTRL.desc
  | .PCI_STATUS => PCI_STATUS.desc
  | .PCI_WIN_OFS => PCI_WIN_OFS.desc
  | .PCI_IN_BASE => PCI_IN_BASE.desc
  | .PCI_IN_SIZE => PCI_IN_SIZE.desc
  | .PCI_IRQ_ROUTE_LO => PCI_IRQ_ROUTE_LO.desc
  | .PCI_IRQ_ROUTE_HI => PCI_IRQ_ROUTE_HI.desc
  | .PCI_CFG_ADDR => PCI_CFG_ADDR.desc
  | .PCI_CFG_DATA => PCI_CFG_DATA.desc
  | .PCI_CFG_STAT => PCI_CFG_STAT.desc
  | .PCI_ERR => PCI_ERR.desc
  | .STM_CMD => STM_CMD.desc
  | .STM_CMD_STAT => STM_CMD_STAT.desc
  | .STM_FIRST_SEQ_LO => STM_FIRST_SEQ_LO.desc
  | .STM_FIRST_SEQ_HI => STM_FIRST_SEQ_HI.desc
  | .STM_RING_DB => STM_RING_DB.desc
  | .STM_SUB_STAGE => STM_SUB_STAGE.desc
  | .STM_PTP_CFG => STM_PTP_CFG.desc
  | .STM_PTP_ASYM => STM_PTP_ASYM.desc
  | .STM_ETH_ADDR => STM_ETH_ADDR.desc
  | .STM_ETH_RXDISC => STM_ETH_RXDISC.desc
  | .STM_SUB => STM_SUB.desc
  | .STM_SUB_DROPS => STM_SUB_DROPS.desc
  | .NVM_SET_CFG => NVM_SET_CFG.desc
  | .NVM_SET_CMD => NVM_SET_CMD.desc
  | .NVM_SET_STAT => NVM_SET_STAT.desc
  | .NVM_DRIVE => NVM_DRIVE.desc
  | .NVM_DRIVE_NSID => NVM_DRIVE_NSID.desc
  | .FAB_STATUS => FAB_STATUS.desc
  | .FAB_ADDR_CFG => FAB_ADDR_CFG.desc
  | .FAB_UID_LO => FAB_UID_LO.desc
  | .FAB_UID_HI => FAB_UID_HI.desc
  | .FAB_TIME_CFG => FAB_TIME_CFG.desc
  | .FAB_GM => FAB_GM.desc
  | .FAB_COUNTS => FAB_COUNTS.desc
  | .FAB_NO_ROUTE => FAB_NO_ROUTE.desc
  | .FAB_TRG_SUB_LO => FAB_TRG_SUB_LO.desc
  | .FAB_TRG_SUB_HI => FAB_TRG_SUB_HI.desc
  | .FAB_TRG_DUAL_LO => FAB_TRG_DUAL_LO.desc
  | .FAB_TRG_DUAL_HI => FAB_TRG_DUAL_HI.desc
  | .FAB_RX_BASE_LO => FAB_RX_BASE_LO.desc
  | .FAB_RX_BASE_HI => FAB_RX_BASE_HI.desc
  | .FAB_RX_WP => FAB_RX_WP.desc
  | .FAB_RX_RD => FAB_RX_RD.desc
  | .FAB_PORT_CFG => FAB_PORT_CFG.desc
  | .FAB_PORT_STAT => FAB_PORT_STAT.desc
  | .FAB_PORT_ASYM => FAB_PORT_ASYM.desc
  | .FAB_PORT_DELAY => FAB_PORT_DELAY.desc
  | .FAB_PORT_ERR => FAB_PORT_ERR.desc
  | .CAL_CFG => CAL_CFG.desc
  | .CAL_QUIET => CAL_QUIET.desc
  | .CAL_CMD => CAL_CMD.desc
  | .CAL_CMD_STAT => CAL_CMD_STAT.desc
  | .CAL_REC_ADDR_LO => CAL_REC_ADDR_LO.desc
  | .CAL_REC_ADDR_HI => CAL_REC_ADDR_HI.desc
  | .CAL_COMMIT_ARM => CAL_COMMIT_ARM.desc
  | .CAL_INFO => CAL_INFO.desc
  | .CAL_COUNTS => CAL_COUNTS.desc
  | .CAL_ATTIC_DIGEST => CAL_ATTIC_DIGEST.desc
  | .CAL_DIE_STAT => CAL_DIE_STAT.desc
  | .PAN_POLICY => PAN_POLICY.desc
  | .PAN_ROT => PAN_ROT.desc
  | .PAN_THR_A => PAN_THR_A.desc
  | .PAN_THR_B => PAN_THR_B.desc
  | .PAN_CMD => PAN_CMD.desc
  | .PAN_CMD_STAT => PAN_CMD_STAT.desc
  | .PAN_ASK => PAN_ASK.desc
  | .PAN_CMD_ROW => PAN_CMD_ROW.desc
  | .PAN_TEL_BASE_LO => PAN_TEL_BASE_LO.desc
  | .PAN_TEL_BASE_HI => PAN_TEL_BASE_HI.desc
  | .PAN_TEL_PTR => PAN_TEL_PTR.desc
  | .PAN_SPARES => PAN_SPARES.desc
  | .PAN_AGE => PAN_AGE.desc
  | .PAN_MOVE => PAN_MOVE.desc
  | .EPO_PAGE_CFG => EPO_PAGE_CFG.desc
  | .EPO_SKIPPED => EPO_SKIPPED.desc
  | .PWR_STATUS => PWR_STATUS.desc
  | .PWR_CMP_CFG => PWR_CMP_CFG.desc
  | .PWR_CMP_STAT => PWR_CMP_STAT.desc
  | .PWR_SW_CFG => PWR_SW_CFG.desc
  | .PWR_CMD => PWR_CMD.desc
  | .PWR_FLAGS => PWR_FLAGS.desc
  | .PWR_SW_COUNT => PWR_SW_COUNT.desc
  | .PWR_SW_LAST => PWR_SW_LAST.desc
  | .HK_ADC_CFG => HK_ADC_CFG.desc
  | .HK_ADC_PERIOD => HK_ADC_PERIOD.desc
  | .HK_ADC_CMD => HK_ADC_CMD.desc
  | .HK_ADC_STAT => HK_ADC_STAT.desc
  | .HK_URGENT_RES => HK_URGENT_RES.desc
  | .HK_THERM => HK_THERM.desc
  | .HK_ADC_SEQ => HK_ADC_SEQ.desc
  | .HK_RESULT => HK_RESULT.desc
  | .SEC_STATUS => SEC_STATUS.desc
  | .SEC_MBOX_ADDR_LO => SEC_MBOX_ADDR_LO.desc
  | .SEC_MBOX_ADDR_HI => SEC_MBOX_ADDR_HI.desc
  | .SEC_CMD => SEC_CMD.desc
  | .SEC_CMD_STAT => SEC_CMD_STAT.desc
  | .SEC_DBG_CHAL => SEC_DBG_CHAL.desc
  | .SEC_DBG_STAT => SEC_DBG_STAT.desc
  | .SEC_DBG_CMD => SEC_DBG_CMD.desc
  | .SEC_FW_DIGEST => SEC_FW_DIGEST.desc
  | .SYS_RCV_CFG => SYS_RCV_CFG.desc
  | .SYS_RCV_CMD => SYS_RCV_CMD.desc
  | .SYS_RCV_STAT => SYS_RCV_STAT.desc
  | .SYS_PM => SYS_PM.desc

/-- Every register, in the order of `Reg`. -/
def Reg.all : List Reg := List.flatten [
  [.EVQ_BASE_LO, .EVQ_BASE_HI, .EVQ_SIZE, .EVQ_CTRL, .EVQ_TAIL,
   .EVQ_HEAD, .EVQ_DROPPED, .EVQ_STATUS, .CNV_ID, .CNV_CTRL,
   .CNV_STATUS, .CNV_SEQ_LO, .CNV_SEQ_HI, .CNV_CH_CFG, .CNV_CH_UOFFS,
   .CNV_CH_UGAIN, .CNV_CH_CMP_HI, .CNV_CH_CMP_LO, .CNV_CH_CMP_CFG, .CNV_CH_CMP_STAT,
   .CNV_CH_ROUTE, .CNV_CH_FLAGS, .CNV_CH_PROT_COUNT, .CNV_SL_TRIM_A, .CNV_SL_TRIM_B,
   .CNV_SL_STATE, .CLK_STATUS, .CLK_REF_CFG, .CLK_REF_NOM, .CLK_SYN_INT,
   .CLK_SYN_FRAC, .CLK_SYN_OFFSET, .CLK_POLICY, .CLK_CEIL, .CLK_BYP,
   .CLK_JC_CFG, .CLK_TCLK_INT, .CLK_TCLK_FRAC, .CLK_JUMP, .CLK_FREQ_ERR],
  [.CLK_FLAGS, .CLK_DIE_DLY, .CLK_CKO_CFG, .CLK_CKO_DLY, .CLK_CKO_STAT,
   .TDC_STATUS, .TDC_TIME_CFG, .TDC_CAL, .TDC_OT_CAP, .TDC_OT_SET,
   .TDC_RING_BASE_LO, .TDC_RING_BASE_HI, .TDC_RING_PTR, .TDC_RING_DROPPED, .TDC_IN_CFG,
   .TDC_IN_FUNC, .TDC_IN_PARAM, .TDC_IN_STAT, .TDC_IN_ERR, .TDC_IN_DEAD,
   .EPO_CFG, .EPO_PERIOD, .EPO_TYPE_SEQ, .EPO_PAGE_BASE, .EPO_ACK,
   .EPO_NUM_LO, .EPO_NUM_HI, .EPO_COUNTS, .GT_ID, .GT_STATUS,
   .GT_PC, .GT_FAULT, .GT_FRAME, .GT_RING, .GT_LOST,
   .GT_OUT_DROPS, .GT_ECC_CORR, .GT_UDISP_A, .GT_UDISP_B, .GT_UFAULT],
  [.SYS_ID, .SYS_IMG_ADDR_LO, .SYS_IMG_ADDR_HI, .SYS_IMG_LEN, .SYS_PRG_CMD,
   .SYS_PRG_EPOCH_LO, .SYS_PRG_EPOCH_HI, .SYS_PRG_STATUS, .SYS_PRG_REPORT_LO, .SYS_PRG_REPORT_HI,
   .SYS_PRG_ERRORS, .SYS_PRG_POLICY, .SYS_HELD_DISCARDS, .SYS_PRG_DIGEST, .GT_NCO_FLO,
   .GT_NCO_FHI, .GT_NCO_STAT, .GT_NCO_PHASE, .GT_DSP_SAT, .SYS_OCT_STAT,
   .SYS_RPL_START_LO, .SYS_RPL_START_HI, .SYS_RPL_LEN, .SYS_RPL_CTRL, .SYS_RPL_STAT,
   .EPO_TURN_CFG, .EPO_TURN_DLY, .EPO_TURN_STAT, .EPO_TURN_ERR, .EPO_TURN_BASE_LO,
   .EPO_TURN_BASE_HI, .GT_XRX_CFG, .GT_XRX_STAT, .GT_XRX_DROPS, .TRG_SW,
   .TRG_TOUT_CFG, .TRG_TMR_PERIOD, .TRG_TMR_PHASE, .TRG_PIN_BUDGET, .TRG_PIN_USED],
  [.TRG_RTV_BASE_LO, .TRG_RTC_BASE_LO, .TRG_RTV_BASE_HI, .TRG_RTC_BASE_HI, .TRG_RTV_PTR,
   .TRG_RTC_PTR, .TRG_REC_CFG, .TRG_IDX_NEXT_LO, .TRG_IDX_NEXT_HI, .TRG_CELL_IN,
   .TRG_CELL_TERM, .TRG_CELL_CFG, .TRG_CELL_WIN, .TRG_CELL_OUT, .TRG_CELL_GRP_LO,
   .TRG_CELL_GRP_HI, .TRG_CELL_FIRES, .TRG_CELL_LATE, .TRG_DEF_CFG, .TRG_DEF_PRE,
   .TRG_DEF_POST, .TRG_DEF_MAXEXT, .TRG_DEF_TIMEOUT, .TRG_DEF_CNT, .TRG_DEF_STAT,
   .TRG_DEF_CH, .CEL_STATUS, .CEL_RING_CFG, .CEL_REFRESH, .CEL_SCRUB,
   .CEL_FC_CTRL, .CEL_FC_STAT, .CEL_ECC_CORR, .CEL_ECC_UNCORR, .CEL_POISON,
   .CEL_REPAIR, .CEL_FROZEN, .CEL_FREEZE_CMD, .CEL_DIAG_SEL, .CEL_DIAG_ADDR],
  [.CEL_DIAG_SYND, .CEL_LOSS_NEXT_LO, .CEL_LOSS_NEXT_HI, .CEL_ANCHOR_NEXT_LO, .CEL_ANCHOR_NEXT_HI,
   .CEL_RING_OFS, .CEL_HEAD_LO, .CEL_HEAD_HI, .CEL_FLOOR_LO, .CEL_FLOOR_HI,
   .CEL_PREV_OFS, .CEL_PREV_LAST_LO, .CEL_PREV_LAST_HI, .LND_STATUS, .LND_FILL,
   .LND_PEAK, .LND_CFG, .LND_DISCARDS, .LND_DEFERS, .OPL_ID,
   .OPL_CFG, .OPL_MAP, .OPL_LEVEL_BOT, .OPL_LEVEL_STEP, .OPL_DECAY,
   .OPL_COLOUR, .OPL_FRAME_CNT, .OPL_SKIP, .OPL_BUF, .OPL_STAT,
   .OPL_SPECTRA, .OPL_DROPS, .OPL_FRAMES, .OPL_CMAP, .VID_CTRL,
   .VID_SIZE_W, .VID_SIZE_H, .VID_HTIM, .VID_VTIM, .VID_PCLK],
  [.VID_STRIDE, .VID_BASE, .VID_BASE_ACT, .VID_RETIRED, .VID_FRAME_LO,
   .VID_FRAME_HI, .VID_FLIP_FRAME, .VID_FLIP_TS, .VID_LAT_TOL, .VID_STATUS,
   .VID_UNDERRUN, .VID_CRC_SRC0, .VID_CRC_PIN0, .VID_CRC_SRC1, .VID_CRC_PIN1,
   .VID_CRC_STAT, .VID_OVL_CFG, .VID_OVL_POS, .DMA_STATUS, .DMA_RATE,
   .DMA_ERRSUM, .DMA_CH_HEAD_LO, .DMA_CH_HEAD_HI, .DMA_CH_CTRL, .DMA_CH_DB,
   .DMA_CH_STAT, .DMA_CH_CUR_LO, .DMA_CH_CUR_HI, .DMA_CH_DONE, .PCI_CTRL,
   .PCI_STATUS, .PCI_WIN_OFS, .PCI_IN_BASE, .PCI_IN_SIZE, .PCI_IRQ_ROUTE_LO,
   .PCI_IRQ_ROUTE_HI, .PCI_CFG_ADDR, .PCI_CFG_DATA, .PCI_CFG_STAT, .PCI_ERR],
  [.STM_CMD, .STM_CMD_STAT, .STM_FIRST_SEQ_LO, .STM_FIRST_SEQ_HI, .STM_RING_DB,
   .STM_SUB_STAGE, .STM_PTP_CFG, .STM_PTP_ASYM, .STM_ETH_ADDR, .STM_ETH_RXDISC,
   .STM_SUB, .STM_SUB_DROPS, .NVM_SET_CFG, .NVM_SET_CMD, .NVM_SET_STAT,
   .NVM_DRIVE, .NVM_DRIVE_NSID, .FAB_STATUS, .FAB_ADDR_CFG, .FAB_UID_LO,
   .FAB_UID_HI, .FAB_TIME_CFG, .FAB_GM, .FAB_COUNTS, .FAB_NO_ROUTE,
   .FAB_TRG_SUB_LO, .FAB_TRG_SUB_HI, .FAB_TRG_DUAL_LO, .FAB_TRG_DUAL_HI, .FAB_RX_BASE_LO,
   .FAB_RX_BASE_HI, .FAB_RX_WP, .FAB_RX_RD, .FAB_PORT_CFG, .FAB_PORT_STAT,
   .FAB_PORT_ASYM, .FAB_PORT_DELAY, .FAB_PORT_ERR, .CAL_CFG, .CAL_QUIET],
  [.CAL_CMD, .CAL_CMD_STAT, .CAL_REC_ADDR_LO, .CAL_REC_ADDR_HI, .CAL_COMMIT_ARM,
   .CAL_INFO, .CAL_COUNTS, .CAL_ATTIC_DIGEST, .CAL_DIE_STAT, .PAN_POLICY,
   .PAN_ROT, .PAN_THR_A, .PAN_THR_B, .PAN_CMD, .PAN_CMD_STAT,
   .PAN_ASK, .PAN_CMD_ROW, .PAN_TEL_BASE_LO, .PAN_TEL_BASE_HI, .PAN_TEL_PTR,
   .PAN_SPARES, .PAN_AGE, .PAN_MOVE, .EPO_PAGE_CFG, .EPO_SKIPPED,
   .PWR_STATUS, .PWR_CMP_CFG, .PWR_CMP_STAT, .PWR_SW_CFG, .PWR_CMD,
   .PWR_FLAGS, .PWR_SW_COUNT, .PWR_SW_LAST, .HK_ADC_CFG, .HK_ADC_PERIOD,
   .HK_ADC_CMD, .HK_ADC_STAT, .HK_URGENT_RES, .HK_THERM, .HK_ADC_SEQ],
  [.HK_RESULT, .SEC_STATUS, .SEC_MBOX_ADDR_LO, .SEC_MBOX_ADDR_HI, .SEC_CMD,
   .SEC_CMD_STAT, .SEC_DBG_CHAL, .SEC_DBG_STAT, .SEC_DBG_CMD, .SEC_FW_DIGEST,
   .SYS_RCV_CFG, .SYS_RCV_CMD, .SYS_RCV_STAT, .SYS_PM]]

/-! The named fields, one name per row of the register tables. -/

abbrev EVQ_BASE_LO.BASE_LO : Fld := ⟨.EVQ_BASE_LO, 31, 6⟩
abbrev EVQ_BASE_HI.BASE_HI : Fld := ⟨.EVQ_BASE_HI, 15, 0⟩
abbrev EVQ_SIZE.SIZE_LOG2 : Fld := ⟨.EVQ_SIZE, 4, 0⟩
abbrev EVQ_CTRL.IRQ_THRESHOLD : Fld := ⟨.EVQ_CTRL, 15, 8⟩
abbrev EVQ_CTRL.IRQ_EN : Fld := ⟨.EVQ_CTRL, 1, 1⟩
abbrev EVQ_CTRL.ENABLE : Fld := ⟨.EVQ_CTRL, 0, 0⟩
abbrev EVQ_TAIL.TAIL : Fld := ⟨.EVQ_TAIL, 15, 0⟩
abbrev EVQ_HEAD.HEAD : Fld := ⟨.EVQ_HEAD, 15, 0⟩
abbrev EVQ_DROPPED.DROPPED : Fld := ⟨.EVQ_DROPPED, 31, 0⟩
abbrev EVQ_STATUS.WR_ERR : Fld := ⟨.EVQ_STATUS, 2, 2⟩
abbrev EVQ_STATUS.IRQ_PEND : Fld := ⟨.EVQ_STATUS, 1, 1⟩
abbrev EVQ_STATUS.FULL : Fld := ⟨.EVQ_STATUS, 0, 0⟩
abbrev CNV_ID.SLICES : Fld := ⟨.CNV_ID, 15, 8⟩
abbrev CNV_ID.DIE : Fld := ⟨.CNV_ID, 3, 0⟩
abbrev CNV_CTRL.HUB_COPY : Fld := ⟨.CNV_CTRL, 3, 3⟩
abbrev CNV_CTRL.ANA_COPY : Fld := ⟨.CNV_CTRL, 2, 2⟩
abbrev CNV_CTRL.RATE_DIV : Fld := ⟨.CNV_CTRL, 1, 0⟩
abbrev CNV_STATUS.HOLDING : Fld := ⟨.CNV_STATUS, 4, 4⟩
abbrev CNV_STATUS.BUS_BUSY : Fld := ⟨.CNV_STATUS, 3, 2⟩
abbrev CNV_STATUS.CLKQ : Fld := ⟨.CNV_STATUS, 1, 0⟩
abbrev CNV_SEQ_LO.SEQ_LO : Fld := ⟨.CNV_SEQ_LO, 31, 0⟩
abbrev CNV_SEQ_HI.SEQ_HI : Fld := ⟨.CNV_SEQ_HI, 31, 0⟩
abbrev CNV_CH_CFG.CM_DRIVE : Fld := ⟨.CNV_CH_CFG, 2, 2⟩
abbrev CNV_CH_CFG.RANGE : Fld := ⟨.CNV_CH_CFG, 1, 0⟩
abbrev CNV_CH_UOFFS.UOFFS : Fld := ⟨.CNV_CH_UOFFS, 15, 0⟩
abbrev CNV_CH_UGAIN.UGAIN : Fld := ⟨.CNV_CH_UGAIN, 15, 0⟩
abbrev CNV_CH_CMP_HI.HYST : Fld := ⟨.CNV_CH_CMP_HI, 19, 16⟩
abbrev CNV_CH_CMP_HI.HI_TH : Fld := ⟨.CNV_CH_CMP_HI, 9, 0⟩
abbrev CNV_CH_CMP_LO.HYST : Fld := ⟨.CNV_CH_CMP_LO, 19, 16⟩
abbrev CNV_CH_CMP_LO.LO_TH : Fld := ⟨.CNV_CH_CMP_LO, 9, 0⟩
abbrev CNV_CH_CMP_CFG.SETTLE : Fld := ⟨.CNV_CH_CMP_CFG, 23, 16⟩
abbrev CNV_CH_CMP_CFG.BLANK : Fld := ⟨.CNV_CH_CMP_CFG, 15, 8⟩
abbrev CNV_CH_CMP_CFG.TICK_SEL : Fld := ⟨.CNV_CH_CMP_CFG, 3, 2⟩
abbrev CNV_CH_CMP_CFG.MODE : Fld := ⟨.CNV_CH_CMP_CFG, 1, 0⟩
abbrev CNV_CH_CMP_STAT.INBAND_LO : Fld := ⟨.CNV_CH_CMP_STAT, 5, 5⟩
abbrev CNV_CH_CMP_STAT.INBAND_HI : Fld := ⟨.CNV_CH_CMP_STAT, 4, 4⟩
abbrev CNV_CH_CMP_STAT.UNSETTLED_LO : Fld := ⟨.CNV_CH_CMP_STAT, 3, 3⟩
abbrev CNV_CH_CMP_STAT.UNSETTLED_HI : Fld := ⟨.CNV_CH_CMP_STAT, 2, 2⟩
abbrev CNV_CH_CMP_STAT.BELOW : Fld := ⟨.CNV_CH_CMP_STAT, 1, 1⟩
abbrev CNV_CH_CMP_STAT.ABOVE : Fld := ⟨.CNV_CH_CMP_STAT, 0, 0⟩
abbrev CNV_CH_ROUTE.STALE_NOW : Fld := ⟨.CNV_CH_ROUTE, 8, 8⟩
abbrev CNV_CH_ROUTE.CALGEN : Fld := ⟨.CNV_CH_ROUTE, 7, 4⟩
abbrev CNV_CH_ROUTE.SHADOW : Fld := ⟨.CNV_CH_ROUTE, 3, 2⟩
abbrev CNV_CH_ROUTE.SERVING : Fld := ⟨.CNV_CH_ROUTE, 1, 0⟩
abbrev CNV_CH_FLAGS.CLIP_SEEN : Fld := ⟨.CNV_CH_FLAGS, 3, 3⟩
abbrev CNV_CH_FLAGS.PROT_SEEN : Fld := ⟨.CNV_CH_FLAGS, 2, 2⟩
abbrev CNV_CH_FLAGS.NBR_SEEN : Fld := ⟨.CNV_CH_FLAGS, 1, 1⟩
abbrev CNV_CH_FLAGS.OVR_SEEN : Fld := ⟨.CNV_CH_FLAGS, 0, 0⟩
abbrev CNV_CH_PROT_COUNT.COUNT : Fld := ⟨.CNV_CH_PROT_COUNT, 31, 0⟩
abbrev CNV_SL_TRIM_A.SKEW_TRIM : Fld := ⟨.CNV_SL_TRIM_A, 27, 20⟩
abbrev CNV_SL_TRIM_A.GAIN_TRIM : Fld := ⟨.CNV_SL_TRIM_A, 19, 10⟩
abbrev CNV_SL_TRIM_A.OFFS_TRIM : Fld := ⟨.CNV_SL_TRIM_A, 9, 0⟩
abbrev CNV_SL_TRIM_B.TERM_TRIM : Fld := ⟨.CNV_SL_TRIM_B, 5, 0⟩
abbrev CNV_SL_STATE.REJECTS : Fld := ⟨.CNV_SL_STATE, 15, 8⟩
abbrev CNV_SL_STATE.CALGEN : Fld := ⟨.CNV_SL_STATE, 7, 4⟩
abbrev CNV_SL_STATE.SUSPECT : Fld := ⟨.CNV_SL_STATE, 2, 2⟩
abbrev CNV_SL_STATE.ROLE : Fld := ⟨.CNV_SL_STATE, 1, 0⟩
abbrev CLK_STATUS.JC_LOCK : Fld := ⟨.CLK_STATUS, 23, 16⟩
abbrev CLK_STATUS.SLEWING : Fld := ⟨.CLK_STATUS, 12, 12⟩
abbrev CLK_STATUS.BYP_LOCK : Fld := ⟨.CLK_STATUS, 11, 11⟩
abbrev CLK_STATUS.TILE_LOCK : Fld := ⟨.CLK_STATUS, 10, 10⟩
abbrev CLK_STATUS.SYN_LOCK : Fld := ⟨.CLK_STATUS, 9, 9⟩
abbrev CLK_STATUS.TREE : Fld := ⟨.CLK_STATUS, 7, 6⟩
abbrev CLK_STATUS.REF_STATE : Fld := ⟨.CLK_STATUS, 5, 4⟩
abbrev CLK_REF_CFG.TOL_PPM : Fld := ⟨.CLK_REF_CFG, 31, 16⟩
abbrev CLK_REF_CFG.QUAL : Fld := ⟨.CLK_REF_CFG, 15, 8⟩
abbrev CLK_REF_CFG.REF_DIV : Fld := ⟨.CLK_REF_CFG, 7, 2⟩
abbrev CLK_REF_CFG.SRC_SEL : Fld := ⟨.CLK_REF_CFG, 0, 0⟩
abbrev CLK_REF_NOM.NOM_HZ : Fld := ⟨.CLK_REF_NOM, 31, 0⟩
abbrev CLK_SYN_INT.N_INT : Fld := ⟨.CLK_SYN_INT, 8, 0⟩
abbrev CLK_SYN_FRAC.N_FRAC : Fld := ⟨.CLK_SYN_FRAC, 31, 0⟩
abbrev CLK_SYN_OFFSET.OFFSET : Fld := ⟨.CLK_SYN_OFFSET, 31, 0⟩
abbrev CLK_POLICY.SLEW_RATE : Fld := ⟨.CLK_POLICY, 31, 24⟩
abbrev CLK_POLICY.RET_SLEW : Fld := ⟨.CLK_POLICY, 23, 16⟩
abbrev CLK_POLICY.RETURN : Fld := ⟨.CLK_POLICY, 0, 0⟩
abbrev CLK_CEIL.CEIL_PPM : Fld := ⟨.CLK_CEIL, 14, 0⟩
abbrev CLK_BYP.BYP_MULT : Fld := ⟨.CLK_BYP, 4, 0⟩
abbrev CLK_JC_CFG.UNLOCK_WIN : Fld := ⟨.CLK_JC_CFG, 15, 8⟩
abbrev CLK_JC_CFG.LOCK_WIN : Fld := ⟨.CLK_JC_CFG, 7, 0⟩
abbrev CLK_TCLK_INT.T_INT : Fld := ⟨.CLK_TCLK_INT, 8, 0⟩
abbrev CLK_TCLK_FRAC.T_FRAC : Fld := ⟨.CLK_TCLK_FRAC, 31, 0⟩
abbrev CLK_JUMP.JUMP_PS : Fld := ⟨.CLK_JUMP, 31, 0⟩
abbrev CLK_FREQ_ERR.ERR : Fld := ⟨.CLK_FREQ_ERR, 31, 0⟩
abbrev CLK_FLAGS.OFFSET_REFUSED : Fld := ⟨.CLK_FLAGS, 5, 5⟩
abbrev CLK_FLAGS.CEIL_HIT : Fld := ⟨.CLK_FLAGS, 4, 4⟩
abbrev CLK_FLAGS.BYP_SEEN : Fld := ⟨.CLK_FLAGS, 3, 3⟩
abbrev CLK_FLAGS.JC_UNLOCK_SEEN : Fld := ⟨.CLK_FLAGS, 2, 2⟩
abbrev CLK_FLAGS.SYN_UNLOCK_SEEN : Fld := ⟨.CLK_FLAGS, 1, 1⟩
abbrev CLK_FLAGS.REF_LOST_SEEN : Fld := ⟨.CLK_FLAGS, 0, 0⟩
abbrev CLK_DIE_DLY.STEP_IVL : Fld := ⟨.CLK_DIE_DLY, 19, 16⟩
abbrev CLK_DIE_DLY.FINE : Fld := ⟨.CLK_DIE_DLY, 9, 0⟩
abbrev CLK_CKO_CFG.EN : Fld := ⟨.CLK_CKO_CFG, 31, 31⟩
abbrev CLK_CKO_CFG.FREE_RUN : Fld := ⟨.CLK_CKO_CFG, 30, 30⟩
abbrev CLK_CKO_CFG.SRC : Fld := ⟨.CLK_CKO_CFG, 29, 28⟩
abbrev CLK_CKO_CFG.STEP_IVL : Fld := ⟨.CLK_CKO_CFG, 27, 24⟩
abbrev CLK_CKO_CFG.COARSE : Fld := ⟨.CLK_CKO_CFG, 23, 16⟩
abbrev CLK_CKO_CFG.DIV : Fld := ⟨.CLK_CKO_CFG, 15, 0⟩
abbrev CLK_CKO_DLY.FINE : Fld := ⟨.CLK_CKO_DLY, 9, 0⟩
abbrev CLK_CKO_STAT.SLEWING : Fld := ⟨.CLK_CKO_STAT, 2, 2⟩
abbrev CLK_CKO_STAT.GATED : Fld := ⟨.CLK_CKO_STAT, 1, 1⟩
abbrev CLK_CKO_STAT.RUNNING : Fld := ⟨.CLK_CKO_STAT, 0, 0⟩
abbrev TDC_STATUS.TIME_SRC_OK : Fld := ⟨.TDC_STATUS, 3, 3⟩
abbrev TDC_STATUS.TIME_VALID : Fld := ⟨.TDC_STATUS, 2, 2⟩
abbrev TDC_STATUS.CAL_DONE : Fld := ⟨.TDC_STATUS, 1, 1⟩
abbrev TDC_STATUS.LOOP_LOCK : Fld := ⟨.TDC_STATUS, 0, 0⟩
abbrev TDC_TIME_CFG.SET_ARM : Fld := ⟨.TDC_TIME_CFG, 31, 31⟩
abbrev TDC_TIME_CFG.OT_SLEW : Fld := ⟨.TDC_TIME_CFG, 23, 16⟩
abbrev TDC_TIME_CFG.STEP_THR : Fld := ⟨.TDC_TIME_CFG, 15, 8⟩
abbrev TDC_TIME_CFG.SRC_IDX : Fld := ⟨.TDC_TIME_CFG, 7, 4⟩
abbrev TDC_TIME_CFG.REF_PRESCALE : Fld := ⟨.TDC_TIME_CFG, 3, 2⟩
abbrev TDC_TIME_CFG.TIME_SRC : Fld := ⟨.TDC_TIME_CFG, 1, 0⟩
abbrev TDC_CAL.INTERVAL : Fld := ⟨.TDC_CAL, 31, 16⟩
abbrev TDC_CAL.CAL_NOW : Fld := ⟨.TDC_CAL, 0, 0⟩
abbrev TDC_OT_CAP.VALUE : Fld := ⟨.TDC_OT_CAP, 31, 0⟩
abbrev TDC_OT_SET.SEC : Fld := ⟨.TDC_OT_SET, 31, 0⟩
abbrev TDC_RING_BASE_LO.BASE_LO : Fld := ⟨.TDC_RING_BASE_LO, 31, 6⟩
abbrev TDC_RING_BASE_HI.ENABLE : Fld := ⟨.TDC_RING_BASE_HI, 31, 31⟩
abbrev TDC_RING_BASE_HI.IRQ_EN : Fld := ⟨.TDC_RING_BASE_HI, 30, 30⟩
abbrev TDC_RING_BASE_HI.IRQ_PEND : Fld := ⟨.TDC_RING_BASE_HI, 29, 29⟩
abbrev TDC_RING_BASE_HI.SIZE_LOG2 : Fld := ⟨.TDC_RING_BASE_HI, 28, 24⟩
abbrev TDC_RING_BASE_HI.BASE_HI : Fld := ⟨.TDC_RING_BASE_HI, 15, 0⟩
abbrev TDC_RING_PTR.HEAD : Fld := ⟨.TDC_RING_PTR, 31, 16⟩
abbrev TDC_RING_PTR.TAIL : Fld := ⟨.TDC_RING_PTR, 15, 0⟩
abbrev TDC_RING_DROPPED.DROPPED : Fld := ⟨.TDC_RING_DROPPED, 31, 0⟩
abbrev TDC_IN_CFG.MODE : Fld := ⟨.TDC_IN_CFG, 29, 28⟩
abbrev TDC_IN_CFG.SLOPE : Fld := ⟨.TDC_IN_CFG, 27, 26⟩
abbrev TDC_IN_CFG.HYST : Fld := ⟨.TDC_IN_CFG, 23, 20⟩
abbrev TDC_IN_CFG.SETTLE : Fld := ⟨.TDC_IN_CFG, 19, 12⟩
abbrev TDC_IN_CFG.THRESH : Fld := ⟨.TDC_IN_CFG, 11, 0⟩
abbrev TDC_IN_FUNC.FUNC : Fld := ⟨.TDC_IN_FUNC, 31, 30⟩
abbrev TDC_IN_FUNC.SIGNED : Fld := ⟨.TDC_IN_FUNC, 29, 29⟩
abbrev TDC_IN_FUNC.RING_EN : Fld := ⟨.TDC_IN_FUNC, 28, 28⟩
abbrev TDC_IN_FUNC.PARTNER : Fld := ⟨.TDC_IN_FUNC, 27, 24⟩
abbrev TDC_IN_FUNC.PRESCALE_LOG2 : Fld := ⟨.TDC_IN_FUNC, 20, 16⟩
abbrev TDC_IN_PARAM.PARAM : Fld := ⟨.TDC_IN_PARAM, 31, 0⟩
abbrev TDC_IN_STAT.CONV : Fld := ⟨.TDC_IN_STAT, 3, 3⟩
abbrev TDC_IN_STAT.INBAND : Fld := ⟨.TDC_IN_STAT, 2, 2⟩
abbrev TDC_IN_STAT.UNSETTLED : Fld := ⟨.TDC_IN_STAT, 1, 1⟩
abbrev TDC_IN_STAT.LEVEL : Fld := ⟨.TDC_IN_STAT, 0, 0⟩
abbrev TDC_IN_ERR.UNPAIRED : Fld := ⟨.TDC_IN_ERR, 31, 16⟩
abbrev TDC_IN_ERR.ORDER : Fld := ⟨.TDC_IN_ERR, 15, 0⟩
abbrev TDC_IN_DEAD.DEAD : Fld := ⟨.TDC_IN_DEAD, 31, 0⟩
abbrev EPO_CFG.TYPE_SRC : Fld := ⟨.EPO_CFG, 24, 24⟩
abbrev EPO_CFG.TYPE_TIN : Fld := ⟨.EPO_CFG, 23, 20⟩
abbrev EPO_CFG.TYPE_LEN : Fld := ⟨.EPO_CFG, 19, 16⟩
abbrev EPO_CFG.EPO_TIN : Fld := ⟨.EPO_CFG, 11, 8⟩
abbrev EPO_CFG.SRC : Fld := ⟨.EPO_CFG, 1, 0⟩
abbrev EPO_PERIOD.PERIOD : Fld := ⟨.EPO_PERIOD, 31, 0⟩
abbrev EPO_TYPE_SEQ.SEQ : Fld := ⟨.EPO_TYPE_SEQ, 31, 0⟩
abbrev EPO_PAGE_BASE.BASE : Fld := ⟨.EPO_PAGE_BASE, 31, 0⟩
abbrev EPO_ACK.EPOCH : Fld := ⟨.EPO_ACK, 31, 0⟩
abbrev EPO_NUM_LO.NUM_LO : Fld := ⟨.EPO_NUM_LO, 31, 0⟩
abbrev EPO_NUM_HI.NUM_HI : Fld := ⟨.EPO_NUM_HI, 31, 0⟩
abbrev EPO_COUNTS.STATS_MISSED : Fld := ⟨.EPO_COUNTS, 31, 16⟩
abbrev EPO_COUNTS.SHORT : Fld := ⟨.EPO_COUNTS, 15, 0⟩
abbrev GT_ID.GROUP : Fld := ⟨.GT_ID, 17, 8⟩
abbrev GT_ID.DIE : Fld := ⟨.GT_ID, 7, 7⟩
abbrev GT_ID.TILE : Fld := ⟨.GT_ID, 6, 0⟩
abbrev GT_STATUS.HALT_CAUSE : Fld := ⟨.GT_STATUS, 26, 24⟩
abbrev GT_STATUS.EVP : Fld := ⟨.GT_STATUS, 17, 12⟩
abbrev GT_STATUS.CALL_DEPTH : Fld := ⟨.GT_STATUS, 10, 6⟩
abbrev GT_STATUS.REP_DEPTH : Fld := ⟨.GT_STATUS, 5, 3⟩
abbrev GT_STATUS.STATE : Fld := ⟨.GT_STATUS, 2, 0⟩
abbrev GT_PC.PC : Fld := ⟨.GT_PC, 13, 0⟩
abbrev GT_FAULT.VALID : Fld := ⟨.GT_FAULT, 31, 31⟩
abbrev GT_FAULT.PC : Fld := ⟨.GT_FAULT, 29, 16⟩
abbrev GT_FAULT.CODE : Fld := ⟨.GT_FAULT, 7, 0⟩
abbrev GT_FRAME.FRAME_LEN : Fld := ⟨.GT_FRAME, 23, 0⟩
abbrev GT_RING.EN : Fld := ⟨.GT_RING, 31, 31⟩
abbrev GT_RING.B_LOG2 : Fld := ⟨.GT_RING, 19, 16⟩
abbrev GT_RING.BASE : Fld := ⟨.GT_RING, 14, 0⟩
abbrev GT_LOST.LOST : Fld := ⟨.GT_LOST, 31, 0⟩
abbrev GT_OUT_DROPS.DROPS : Fld := ⟨.GT_OUT_DROPS, 31, 0⟩
abbrev GT_ECC_CORR.CORR : Fld := ⟨.GT_ECC_CORR, 31, 0⟩
abbrev GT_UDISP_A.VALID : Fld := ⟨.GT_UDISP_A, 31, 31⟩
abbrev GT_UDISP_A.FMT : Fld := ⟨.GT_UDISP_A, 30, 28⟩
abbrev GT_UDISP_A.BOUND : Fld := ⟨.GT_UDISP_A, 25, 12⟩
abbrev GT_UDISP_A.START : Fld := ⟨.GT_UDISP_A, 11, 0⟩
abbrev GT_UDISP_B.MAXN : Fld := ⟨.GT_UDISP_B, 31, 16⟩
abbrev GT_UFAULT.VALID : Fld := ⟨.GT_UFAULT, 31, 31⟩
abbrev GT_UFAULT.UPC : Fld := ⟨.GT_UFAULT, 27, 16⟩
abbrev GT_UFAULT.OPCODE : Fld := ⟨.GT_UFAULT, 7, 0⟩
abbrev SYS_ID.PART : Fld := ⟨.SYS_ID, 31, 16⟩
abbrev SYS_ID.REV : Fld := ⟨.SYS_ID, 7, 0⟩
abbrev SYS_IMG_ADDR_LO.ADDR_LO : Fld := ⟨.SYS_IMG_ADDR_LO, 31, 6⟩
abbrev SYS_IMG_ADDR_HI.ADDR_HI : Fld := ⟨.SYS_IMG_ADDR_HI, 15, 0⟩
abbrev SYS_IMG_LEN.LEN : Fld := ⟨.SYS_IMG_LEN, 31, 0⟩
abbrev SYS_PRG_CMD.SWITCH : Fld := ⟨.SYS_PRG_CMD, 4, 4⟩
abbrev SYS_PRG_CMD.CMD : Fld := ⟨.SYS_PRG_CMD, 3, 0⟩
abbrev SYS_PRG_EPOCH_LO.EPOCH_LO : Fld := ⟨.SYS_PRG_EPOCH_LO, 31, 0⟩
abbrev SYS_PRG_EPOCH_HI.EPOCH_HI : Fld := ⟨.SYS_PRG_EPOCH_HI, 31, 0⟩
abbrev SYS_PRG_STATUS.CMD_REJECTED : Fld := ⟨.SYS_PRG_STATUS, 8, 8⟩
abbrev SYS_PRG_STATUS.DIRTY : Fld := ⟨.SYS_PRG_STATUS, 7, 7⟩
abbrev SYS_PRG_STATUS.HAS_RUN : Fld := ⟨.SYS_PRG_STATUS, 6, 6⟩
abbrev SYS_PRG_STATUS.RESULT : Fld := ⟨.SYS_PRG_STATUS, 5, 4⟩
abbrev SYS_PRG_STATUS.BUSY : Fld := ⟨.SYS_PRG_STATUS, 3, 3⟩
abbrev SYS_PRG_STATUS.STATE : Fld := ⟨.SYS_PRG_STATUS, 2, 0⟩
abbrev SYS_PRG_REPORT_LO.BASE_LO : Fld := ⟨.SYS_PRG_REPORT_LO, 31, 6⟩
abbrev SYS_PRG_REPORT_HI.BASE_HI : Fld := ⟨.SYS_PRG_REPORT_HI, 15, 0⟩
abbrev SYS_PRG_ERRORS.COUNT : Fld := ⟨.SYS_PRG_ERRORS, 31, 0⟩
abbrev SYS_PRG_POLICY.AUTO : Fld := ⟨.SYS_PRG_POLICY, 2, 1⟩
abbrev SYS_PRG_POLICY.SIG_REQ : Fld := ⟨.SYS_PRG_POLICY, 0, 0⟩
abbrev SYS_HELD_DISCARDS.COUNT : Fld := ⟨.SYS_HELD_DISCARDS, 31, 0⟩
abbrev SYS_PRG_DIGEST.DIGEST : Fld := ⟨.SYS_PRG_DIGEST, 31, 0⟩
abbrev GT_NCO_FLO.FREQ_LO : Fld := ⟨.GT_NCO_FLO, 31, 0⟩
abbrev GT_NCO_FHI.FREQ_HI : Fld := ⟨.GT_NCO_FHI, 15, 0⟩
abbrev GT_NCO_STAT.PAIR_PEND : Fld := ⟨.GT_NCO_STAT, 0, 0⟩
abbrev GT_NCO_PHASE.PHASE : Fld := ⟨.GT_NCO_PHASE, 15, 0⟩
abbrev GT_DSP_SAT.COUNT : Fld := ⟨.GT_DSP_SAT, 31, 0⟩
abbrev SYS_OCT_STAT.RPL_BUSY : Fld := ⟨.SYS_OCT_STAT, 6, 6⟩
abbrev SYS_OCT_STAT.RATE_DIV : Fld := ⟨.SYS_OCT_STAT, 5, 4⟩
abbrev SYS_OCT_STAT.MODE : Fld := ⟨.SYS_OCT_STAT, 3, 0⟩
abbrev SYS_RPL_START_LO.START_LO : Fld := ⟨.SYS_RPL_START_LO, 31, 0⟩
abbrev SYS_RPL_START_HI.START_HI : Fld := ⟨.SYS_RPL_START_HI, 31, 0⟩
abbrev SYS_RPL_LEN.LEN : Fld := ⟨.SYS_RPL_LEN, 31, 0⟩
abbrev SYS_RPL_CTRL.GO : Fld := ⟨.SYS_RPL_CTRL, 31, 31⟩
abbrev SYS_RPL_CTRL.STOP : Fld := ⟨.SYS_RPL_CTRL, 30, 30⟩
abbrev SYS_RPL_CTRL.RATE : Fld := ⟨.SYS_RPL_CTRL, 6, 4⟩
abbrev SYS_RPL_CTRL.SRC : Fld := ⟨.SYS_RPL_CTRL, 2, 0⟩
abbrev SYS_RPL_STAT.STATUS : Fld := ⟨.SYS_RPL_STAT, 31, 28⟩
abbrev SYS_RPL_STAT.ERR : Fld := ⟨.SYS_RPL_STAT, 27, 24⟩
abbrev SYS_RPL_STAT.STALL : Fld := ⟨.SYS_RPL_STAT, 23, 0⟩
abbrev EPO_TURN_CFG.EN : Fld := ⟨.EPO_TURN_CFG, 31, 31⟩
abbrev EPO_TURN_CFG.TURN_TIN : Fld := ⟨.EPO_TURN_CFG, 27, 24⟩
abbrev EPO_TURN_CFG.TOL : Fld := ⟨.EPO_TURN_CFG, 23, 16⟩
abbrev EPO_TURN_CFG.SLOTS : Fld := ⟨.EPO_TURN_CFG, 15, 0⟩
abbrev EPO_TURN_DLY.DLY : Fld := ⟨.EPO_TURN_DLY, 31, 0⟩
abbrev EPO_TURN_STAT.SLIPS : Fld := ⟨.EPO_TURN_STAT, 23, 16⟩
abbrev EPO_TURN_STAT.OUTLIERS : Fld := ⟨.EPO_TURN_STAT, 15, 8⟩
abbrev EPO_TURN_STAT.STATE : Fld := ⟨.EPO_TURN_STAT, 1, 0⟩
abbrev EPO_TURN_ERR.ERR : Fld := ⟨.EPO_TURN_ERR, 31, 0⟩
abbrev EPO_TURN_BASE_LO.BASE_LO : Fld := ⟨.EPO_TURN_BASE_LO, 31, 0⟩
abbrev EPO_TURN_BASE_HI.BASE_HI : Fld := ⟨.EPO_TURN_BASE_HI, 31, 0⟩
abbrev GT_XRX_CFG.EN : Fld := ⟨.GT_XRX_CFG, 31, 31⟩
abbrev GT_XRX_CFG.SIZE_LOG2 : Fld := ⟨.GT_XRX_CFG, 27, 24⟩
abbrev GT_XRX_CFG.ROUTE : Fld := ⟨.GT_XRX_CFG, 23, 16⟩
abbrev GT_XRX_CFG.BASE : Fld := ⟨.GT_XRX_CFG, 14, 0⟩
abbrev GT_XRX_STAT.CLAIMED : Fld := ⟨.GT_XRX_STAT, 31, 15⟩
abbrev GT_XRX_STAT.FILL : Fld := ⟨.GT_XRX_STAT, 14, 0⟩
abbrev GT_XRX_DROPS.DROPS : Fld := ⟨.GT_XRX_DROPS, 31, 0⟩
abbrev TRG_SW.FIRE : Fld := ⟨.TRG_SW, 15, 0⟩
abbrev TRG_TOUT_CFG.INV : Fld := ⟨.TRG_TOUT_CFG, 31, 31⟩
abbrev TRG_TOUT_CFG.WIDTH : Fld := ⟨.TRG_TOUT_CFG, 15, 0⟩
abbrev TRG_TMR_PERIOD.PERIOD : Fld := ⟨.TRG_TMR_PERIOD, 31, 0⟩
abbrev TRG_TMR_PHASE.PHASE : Fld := ⟨.TRG_TMR_PHASE, 31, 0⟩
abbrev TRG_PIN_BUDGET.MIB : Fld := ⟨.TRG_PIN_BUDGET, 14, 0⟩
abbrev TRG_PIN_USED.KIB : Fld := ⟨.TRG_PIN_USED, 31, 0⟩
abbrev TRG_RTV_BASE_LO.BASE_LO : Fld := ⟨.TRG_RTV_BASE_LO, 31, 6⟩
abbrev TRG_RTC_BASE_LO.BASE_LO : Fld := ⟨.TRG_RTC_BASE_LO, 31, 6⟩
abbrev TRG_RTV_BASE_HI.ENABLE : Fld := ⟨.TRG_RTV_BASE_HI, 31, 31⟩
abbrev TRG_RTV_BASE_HI.IRQ_EN : Fld := ⟨.TRG_RTV_BASE_HI, 30, 30⟩
abbrev TRG_RTV_BASE_HI.IRQ_PEND : Fld := ⟨.TRG_RTV_BASE_HI, 29, 29⟩
abbrev TRG_RTV_BASE_HI.SIZE_LOG2 : Fld := ⟨.TRG_RTV_BASE_HI, 28, 24⟩
abbrev TRG_RTV_BASE_HI.BASE_HI : Fld := ⟨.TRG_RTV_BASE_HI, 15, 0⟩
abbrev TRG_RTC_BASE_HI.ENABLE : Fld := ⟨.TRG_RTC_BASE_HI, 31, 31⟩
abbrev TRG_RTC_BASE_HI.IRQ_EN : Fld := ⟨.TRG_RTC_BASE_HI, 30, 30⟩
abbrev TRG_RTC_BASE_HI.IRQ_PEND : Fld := ⟨.TRG_RTC_BASE_HI, 29, 29⟩
abbrev TRG_RTC_BASE_HI.SIZE_LOG2 : Fld := ⟨.TRG_RTC_BASE_HI, 28, 24⟩
abbrev TRG_RTC_BASE_HI.BASE_HI : Fld := ⟨.TRG_RTC_BASE_HI, 15, 0⟩
abbrev TRG_RTV_PTR.TAIL : Fld := ⟨.TRG_RTV_PTR, 31, 16⟩
abbrev TRG_RTV_PTR.HEAD : Fld := ⟨.TRG_RTV_PTR, 15, 0⟩
abbrev TRG_RTC_PTR.HEAD : Fld := ⟨.TRG_RTC_PTR, 31, 16⟩
abbrev TRG_RTC_PTR.TAIL : Fld := ⟨.TRG_RTC_PTR, 15, 0⟩
abbrev TRG_REC_CFG.FULL : Fld := ⟨.TRG_REC_CFG, 0, 0⟩
abbrev TRG_IDX_NEXT_LO.NEXT : Fld := ⟨.TRG_IDX_NEXT_LO, 31, 0⟩
abbrev TRG_IDX_NEXT_HI.NEXT : Fld := ⟨.TRG_IDX_NEXT_HI, 31, 0⟩
abbrev TRG_CELL_IN.EN : Fld := ⟨.TRG_CELL_IN, 31, 31⟩
abbrev TRG_CELL_IN.SRC : Fld := ⟨.TRG_CELL_IN, 11, 0⟩
abbrev TRG_CELL_TERM.VETO : Fld := ⟨.TRG_CELL_TERM, 31, 16⟩
abbrev TRG_CELL_TERM.REQ : Fld := ⟨.TRG_CELL_TERM, 15, 0⟩
abbrev TRG_CELL_CFG.EN : Fld := ⟨.TRG_CELL_CFG, 31, 31⟩
abbrev TRG_CELL_CFG.FUNC : Fld := ⟨.TRG_CELL_CFG, 30, 30⟩
abbrev TRG_CELL_CFG.M : Fld := ⟨.TRG_CELL_CFG, 24, 20⟩
abbrev TRG_CELL_CFG.REF : Fld := ⟨.TRG_CELL_CFG, 19, 16⟩
abbrev TRG_CELL_CFG.REF_EN : Fld := ⟨.TRG_CELL_CFG, 15, 15⟩
abbrev TRG_CELL_CFG.LAT : Fld := ⟨.TRG_CELL_CFG, 13, 0⟩
abbrev TRG_CELL_WIN.W : Fld := ⟨.TRG_CELL_WIN, 11, 0⟩
abbrev TRG_CELL_OUT.FAB_EN : Fld := ⟨.TRG_CELL_OUT, 31, 31⟩
abbrev TRG_CELL_OUT.FAB_ID : Fld := ⟨.TRG_CELL_OUT, 29, 24⟩
abbrev TRG_CELL_OUT.TOUT : Fld := ⟨.TRG_CELL_OUT, 7, 0⟩
abbrev TRG_CELL_GRP_LO.GROUPS : Fld := ⟨.TRG_CELL_GRP_LO, 31, 0⟩
abbrev TRG_CELL_GRP_HI.GROUPS : Fld := ⟨.TRG_CELL_GRP_HI, 31, 0⟩
abbrev TRG_CELL_FIRES.FIRES : Fld := ⟨.TRG_CELL_FIRES, 31, 0⟩
abbrev TRG_CELL_LATE.LATE : Fld := ⟨.TRG_CELL_LATE, 31, 16⟩
abbrev TRG_CELL_LATE.OVF : Fld := ⟨.TRG_CELL_LATE, 15, 0⟩
abbrev TRG_DEF_CFG.EN : Fld := ⟨.TRG_DEF_CFG, 31, 31⟩
abbrev TRG_DEF_CFG.CELL : Fld := ⟨.TRG_DEF_CFG, 29, 24⟩
abbrev TRG_DEF_CFG.POLICY : Fld := ⟨.TRG_DEF_CFG, 23, 22⟩
abbrev TRG_DEF_CFG.QDEPTH : Fld := ⟨.TRG_DEF_CFG, 21, 20⟩
abbrev TRG_DEF_CFG.REDUCE : Fld := ⟨.TRG_DEF_CFG, 18, 16⟩
abbrev TRG_DEF_CFG.SEGS_M1 : Fld := ⟨.TRG_DEF_CFG, 15, 0⟩
abbrev TRG_DEF_PRE.NS : Fld := ⟨.TRG_DEF_PRE, 31, 0⟩
abbrev TRG_DEF_POST.NS : Fld := ⟨.TRG_DEF_POST, 31, 0⟩
abbrev TRG_DEF_MAXEXT.NS : Fld := ⟨.TRG_DEF_MAXEXT, 31, 0⟩
abbrev TRG_DEF_TIMEOUT.MS : Fld := ⟨.TRG_DEF_TIMEOUT, 31, 0⟩
abbrev TRG_DEF_CNT.IGNORED : Fld := ⟨.TRG_DEF_CNT, 31, 16⟩
abbrev TRG_DEF_CNT.DROPPED : Fld := ⟨.TRG_DEF_CNT, 15, 0⟩
abbrev TRG_DEF_STAT.SEGS_NOW : Fld := ⟨.TRG_DEF_STAT, 31, 16⟩
abbrev TRG_DEF_STAT.OPEN : Fld := ⟨.TRG_DEF_STAT, 3, 3⟩
abbrev TRG_DEF_STAT.QUEUED : Fld := ⟨.TRG_DEF_STAT, 2, 0⟩
abbrev TRG_DEF_CH.CH : Fld := ⟨.TRG_DEF_CH, 31, 0⟩
abbrev CEL_STATUS.HOT : Fld := ⟨.CEL_STATUS, 15, 12⟩
abbrev CEL_STATUS.ASLEEP : Fld := ⟨.CEL_STATUS, 11, 8⟩
abbrev CEL_STATUS.FC_BUSY : Fld := ⟨.CEL_STATUS, 1, 1⟩
abbrev CEL_STATUS.RING_RUN : Fld := ⟨.CEL_STATUS, 0, 0⟩
abbrev CEL_RING_CFG.RING_GIB : Fld := ⟨.CEL_RING_CFG, 6, 0⟩
abbrev CEL_REFRESH.POSTPONE : Fld := ⟨.CEL_REFRESH, 3, 0⟩
abbrev CEL_SCRUB.EN : Fld := ⟨.CEL_SCRUB, 31, 31⟩
abbrev CEL_SCRUB.PERIOD_H : Fld := ⟨.CEL_SCRUB, 7, 0⟩
abbrev CEL_FC_CTRL.GO : Fld := ⟨.CEL_FC_CTRL, 31, 31⟩
abbrev CEL_FC_CTRL.RATE : Fld := ⟨.CEL_FC_CTRL, 5, 4⟩
abbrev CEL_FC_CTRL.STACKS : Fld := ⟨.CEL_FC_CTRL, 3, 0⟩
abbrev CEL_FC_STAT.RATE : Fld := ⟨.CEL_FC_STAT, 7, 0⟩
abbrev CEL_ECC_CORR.COUNT : Fld := ⟨.CEL_ECC_CORR, 31, 0⟩
abbrev CEL_ECC_UNCORR.COUNT : Fld := ⟨.CEL_ECC_UNCORR, 31, 0⟩
abbrev CEL_POISON.COUNT : Fld := ⟨.CEL_POISON, 31, 0⟩
abbrev CEL_REPAIR.SPARE_MIN : Fld := ⟨.CEL_REPAIR, 31, 24⟩
abbrev CEL_REPAIR.HARD : Fld := ⟨.CEL_REPAIR, 23, 12⟩
abbrev CEL_REPAIR.SOFT : Fld := ⟨.CEL_REPAIR, 11, 0⟩
abbrev CEL_FROZEN.FROZEN : Fld := ⟨.CEL_FROZEN, 31, 0⟩
abbrev CEL_FREEZE_CMD.CMD : Fld := ⟨.CEL_FREEZE_CMD, 9, 8⟩
abbrev CEL_FREEZE_CMD.HPC : Fld := ⟨.CEL_FREEZE_CMD, 6, 0⟩
abbrev CEL_DIAG_SEL.HPC : Fld := ⟨.CEL_DIAG_SEL, 6, 0⟩
abbrev CEL_DIAG_ADDR.BANK : Fld := ⟨.CEL_DIAG_ADDR, 31, 26⟩
abbrev CEL_DIAG_ADDR.ROW : Fld := ⟨.CEL_DIAG_ADDR, 25, 10⟩
abbrev CEL_DIAG_ADDR.COL : Fld := ⟨.CEL_DIAG_ADDR, 9, 5⟩
abbrev CEL_DIAG_SYND.CAUSE : Fld := ⟨.CEL_DIAG_SYND, 31, 24⟩
abbrev CEL_DIAG_SYND.RETRIES : Fld := ⟨.CEL_DIAG_SYND, 23, 16⟩
abbrev CEL_DIAG_SYND.SYND : Fld := ⟨.CEL_DIAG_SYND, 15, 0⟩
abbrev CEL_LOSS_NEXT_LO.NEXT : Fld := ⟨.CEL_LOSS_NEXT_LO, 31, 0⟩
abbrev CEL_LOSS_NEXT_HI.NEXT : Fld := ⟨.CEL_LOSS_NEXT_HI, 31, 0⟩
abbrev CEL_ANCHOR_NEXT_LO.NEXT : Fld := ⟨.CEL_ANCHOR_NEXT_LO, 31, 0⟩
abbrev CEL_ANCHOR_NEXT_HI.NEXT : Fld := ⟨.CEL_ANCHOR_NEXT_HI, 31, 0⟩
abbrev CEL_RING_OFS.OFS : Fld := ⟨.CEL_RING_OFS, 21, 0⟩
abbrev CEL_HEAD_LO.HEAD : Fld := ⟨.CEL_HEAD_LO, 31, 0⟩
abbrev CEL_HEAD_HI.HEAD : Fld := ⟨.CEL_HEAD_HI, 31, 0⟩
abbrev CEL_FLOOR_LO.FLOOR : Fld := ⟨.CEL_FLOOR_LO, 31, 0⟩
abbrev CEL_FLOOR_HI.FLOOR : Fld := ⟨.CEL_FLOOR_HI, 31, 0⟩
abbrev CEL_PREV_OFS.VALID : Fld := ⟨.CEL_PREV_OFS, 31, 31⟩
abbrev CEL_PREV_OFS.PREV_GIB : Fld := ⟨.CEL_PREV_OFS, 28, 22⟩
abbrev CEL_PREV_OFS.OFS : Fld := ⟨.CEL_PREV_OFS, 21, 0⟩
abbrev CEL_PREV_LAST_LO.LAST : Fld := ⟨.CEL_PREV_LAST_LO, 31, 0⟩
abbrev CEL_PREV_LAST_HI.LAST : Fld := ⟨.CEL_PREV_LAST_HI, 31, 0⟩
abbrev LND_STATUS.FULL : Fld := ⟨.LND_STATUS, 2, 2⟩
abbrev LND_STATUS.CAPPED : Fld := ⟨.LND_STATUS, 1, 1⟩
abbrev LND_STATUS.GATE_OPEN : Fld := ⟨.LND_STATUS, 0, 0⟩
abbrev LND_FILL.KIB : Fld := ⟨.LND_FILL, 15, 0⟩
abbrev LND_PEAK.KIB : Fld := ⟨.LND_PEAK, 15, 0⟩
abbrev LND_CFG.PC_CAP : Fld := ⟨.LND_CFG, 31, 20⟩
abbrev LND_CFG.PC_GATE : Fld := ⟨.LND_CFG, 19, 12⟩
abbrev LND_CFG.GATE : Fld := ⟨.LND_CFG, 11, 0⟩
abbrev LND_DISCARDS.COUNT : Fld := ⟨.LND_DISCARDS, 31, 0⟩
abbrev LND_DEFERS.COUNT : Fld := ⟨.LND_DEFERS, 31, 0⟩
abbrev OPL_ID.LOGICAL : Fld := ⟨.OPL_ID, 12, 8⟩
abbrev OPL_ID.PHYS : Fld := ⟨.OPL_ID, 4, 0⟩
abbrev OPL_CFG.EN : Fld := ⟨.OPL_CFG, 31, 31⟩
abbrev OPL_CFG.LOG_MAP : Fld := ⟨.OPL_CFG, 30, 30⟩
abbrev OPL_CFG.FRAME_SRC : Fld := ⟨.OPL_CFG, 29, 28⟩
abbrev OPL_CFG.NBUF : Fld := ⟨.OPL_CFG, 27, 26⟩
abbrev OPL_CFG.CLAMP : Fld := ⟨.OPL_CFG, 25, 25⟩
abbrev OPL_CFG.INC : Fld := ⟨.OPL_CFG, 23, 16⟩
abbrev OPL_CFG.CHANNEL : Fld := ⟨.OPL_CFG, 7, 0⟩
abbrev OPL_MAP.W_BINS : Fld := ⟨.OPL_MAP, 31, 16⟩
abbrev OPL_MAP.FIRST_BIN : Fld := ⟨.OPL_MAP, 15, 0⟩
abbrev OPL_LEVEL_BOT.BOTTOM : Fld := ⟨.OPL_LEVEL_BOT, 15, 0⟩
abbrev OPL_LEVEL_STEP.STEP : Fld := ⟨.OPL_LEVEL_STEP, 15, 0⟩
abbrev OPL_DECAY.TICK : Fld := ⟨.OPL_DECAY, 31, 16⟩
abbrev OPL_DECAY.D : Fld := ⟨.OPL_DECAY, 3, 0⟩
abbrev OPL_COLOUR.REF255 : Fld := ⟨.OPL_COLOUR, 31, 16⟩
abbrev OPL_COLOUR.CGAIN : Fld := ⟨.OPL_COLOUR, 7, 0⟩
abbrev OPL_FRAME_CNT.FRAME_SPECTRA : Fld := ⟨.OPL_FRAME_CNT, 23, 0⟩
abbrev OPL_SKIP.SKIP_FLAGS : Fld := ⟨.OPL_SKIP, 15, 0⟩
abbrev OPL_BUF.ADDR : Fld := ⟨.OPL_BUF, 31, 0⟩
abbrev OPL_STAT.PAIR_PEND : Fld := ⟨.OPL_STAT, 8, 8⟩
abbrev OPL_STAT.BUF_STATE : Fld := ⟨.OPL_STAT, 7, 0⟩
abbrev OPL_SPECTRA.COUNT : Fld := ⟨.OPL_SPECTRA, 31, 0⟩
abbrev OPL_DROPS.SKIPPED : Fld := ⟨.OPL_DROPS, 31, 16⟩
abbrev OPL_DROPS.DROPPED : Fld := ⟨.OPL_DROPS, 15, 0⟩
abbrev OPL_FRAMES.FENCE_HIT : Fld := ⟨.OPL_FRAMES, 31, 16⟩
abbrev OPL_FRAMES.FRAME_SKIP : Fld := ⟨.OPL_FRAMES, 15, 0⟩
abbrev OPL_CMAP.TRANSPARENT : Fld := ⟨.OPL_CMAP, 31, 31⟩
abbrev OPL_CMAP.RGB : Fld := ⟨.OPL_CMAP, 29, 0⟩
abbrev VID_CTRL.EN : Fld := ⟨.VID_CTRL, 31, 31⟩
abbrev VID_CTRL.HS_POL : Fld := ⟨.VID_CTRL, 30, 30⟩
abbrev VID_CTRL.VS_POL : Fld := ⟨.VID_CTRL, 29, 29⟩
abbrev VID_CTRL.SSC : Fld := ⟨.VID_CTRL, 28, 28⟩
abbrev VID_CTRL.BPC : Fld := ⟨.VID_CTRL, 27, 26⟩
abbrev VID_CTRL.MAX_LANES : Fld := ⟨.VID_CTRL, 25, 24⟩
abbrev VID_CTRL.MAX_RATE : Fld := ⟨.VID_CTRL, 23, 22⟩
abbrev VID_CTRL.BASE_FMT : Fld := ⟨.VID_CTRL, 0, 0⟩
abbrev VID_SIZE_W.HACT : Fld := ⟨.VID_SIZE_W, 12, 0⟩
abbrev VID_SIZE_H.VACT : Fld := ⟨.VID_SIZE_H, 11, 0⟩
abbrev VID_HTIM.BP : Fld := ⟨.VID_HTIM, 29, 20⟩
abbrev VID_HTIM.SYNC : Fld := ⟨.VID_HTIM, 19, 10⟩
abbrev VID_HTIM.FP : Fld := ⟨.VID_HTIM, 9, 0⟩
abbrev VID_VTIM.BP : Fld := ⟨.VID_VTIM, 29, 20⟩
abbrev VID_VTIM.SYNC : Fld := ⟨.VID_VTIM, 19, 10⟩
abbrev VID_VTIM.FP : Fld := ⟨.VID_VTIM, 9, 0⟩
abbrev VID_PCLK.KHZ : Fld := ⟨.VID_PCLK, 31, 0⟩
abbrev VID_STRIDE.STRIDE : Fld := ⟨.VID_STRIDE, 15, 0⟩
abbrev VID_BASE.ADDR : Fld := ⟨.VID_BASE, 31, 0⟩
abbrev VID_BASE_ACT.ADDR : Fld := ⟨.VID_BASE_ACT, 31, 0⟩
abbrev VID_RETIRED.ADDR : Fld := ⟨.VID_RETIRED, 31, 0⟩
abbrev VID_FRAME_LO.FRAME : Fld := ⟨.VID_FRAME_LO, 31, 0⟩
abbrev VID_FRAME_HI.FRAME : Fld := ⟨.VID_FRAME_HI, 31, 0⟩
abbrev VID_FLIP_FRAME.FRAME : Fld := ⟨.VID_FLIP_FRAME, 31, 0⟩
abbrev VID_FLIP_TS.VALUE : Fld := ⟨.VID_FLIP_TS, 31, 0⟩
abbrev VID_LAT_TOL.NS : Fld := ⟨.VID_LAT_TOL, 31, 0⟩
abbrev VID_STATUS.PAIR_PEND : Fld := ⟨.VID_STATUS, 31, 31⟩
abbrev VID_STATUS.BASE_PEND : Fld := ⟨.VID_STATUS, 30, 30⟩
abbrev VID_STATUS.HPD : Fld := ⟨.VID_STATUS, 29, 29⟩
abbrev VID_STATUS.TRAINED : Fld := ⟨.VID_STATUS, 28, 28⟩
abbrev VID_STATUS.LANES : Fld := ⟨.VID_STATUS, 27, 26⟩
abbrev VID_STATUS.RATE : Fld := ⟨.VID_STATUS, 25, 24⟩
abbrev VID_UNDERRUN.COUNT : Fld := ⟨.VID_UNDERRUN, 31, 0⟩
abbrev VID_CRC_SRC0.G : Fld := ⟨.VID_CRC_SRC0, 31, 16⟩
abbrev VID_CRC_SRC0.R : Fld := ⟨.VID_CRC_SRC0, 15, 0⟩
abbrev VID_CRC_PIN0.G : Fld := ⟨.VID_CRC_PIN0, 31, 16⟩
abbrev VID_CRC_PIN0.R : Fld := ⟨.VID_CRC_PIN0, 15, 0⟩
abbrev VID_CRC_SRC1.B : Fld := ⟨.VID_CRC_SRC1, 15, 0⟩
abbrev VID_CRC_PIN1.B : Fld := ⟨.VID_CRC_PIN1, 15, 0⟩
abbrev VID_CRC_STAT.PIN_VALID : Fld := ⟨.VID_CRC_STAT, 31, 31⟩
abbrev VID_CRC_STAT.MISMATCH : Fld := ⟨.VID_CRC_STAT, 15, 0⟩
abbrev VID_OVL_CFG.EN : Fld := ⟨.VID_OVL_CFG, 31, 31⟩
abbrev VID_OVL_CFG.REND : Fld := ⟨.VID_OVL_CFG, 11, 8⟩
abbrev VID_OVL_CFG.SX : Fld := ⟨.VID_OVL_CFG, 5, 4⟩
abbrev VID_OVL_CFG.SY : Fld := ⟨.VID_OVL_CFG, 3, 0⟩
abbrev VID_OVL_POS.Y0 : Fld := ⟨.VID_OVL_POS, 27, 16⟩
abbrev VID_OVL_POS.X0 : Fld := ⟨.VID_OVL_POS, 12, 0⟩
abbrev DMA_STATUS.BUSY : Fld := ⟨.DMA_STATUS, 31, 0⟩
abbrev DMA_RATE.GBPS : Fld := ⟨.DMA_RATE, 5, 0⟩
abbrev DMA_ERRSUM.HALTED : Fld := ⟨.DMA_ERRSUM, 31, 0⟩
abbrev DMA_CH_HEAD_LO.ADDR_LO : Fld := ⟨.DMA_CH_HEAD_LO, 31, 6⟩
abbrev DMA_CH_HEAD_HI.ADDR_HI : Fld := ⟨.DMA_CH_HEAD_HI, 31, 0⟩
abbrev DMA_CH_CTRL.START : Fld := ⟨.DMA_CH_CTRL, 31, 31⟩
abbrev DMA_CH_CTRL.STOP : Fld := ⟨.DMA_CH_CTRL, 30, 30⟩
abbrev DMA_CH_CTRL.DSPACE : Fld := ⟨.DMA_CH_CTRL, 29, 28⟩
abbrev DMA_CH_CTRL.IRQ_EN : Fld := ⟨.DMA_CH_CTRL, 0, 0⟩
abbrev DMA_CH_DB.RING : Fld := ⟨.DMA_CH_DB, 31, 0⟩
abbrev DMA_CH_STAT.DB_COUNT : Fld := ⟨.DMA_CH_STAT, 31, 16⟩
abbrev DMA_CH_STAT.LAST_STATUS : Fld := ⟨.DMA_CH_STAT, 11, 8⟩
abbrev DMA_CH_STAT.IRQ_PEND : Fld := ⟨.DMA_CH_STAT, 7, 7⟩
abbrev DMA_CH_STAT.STATE : Fld := ⟨.DMA_CH_STAT, 2, 0⟩
abbrev DMA_CH_CUR_LO.ADDR : Fld := ⟨.DMA_CH_CUR_LO, 31, 0⟩
abbrev DMA_CH_CUR_HI.ADDR : Fld := ⟨.DMA_CH_CUR_HI, 31, 0⟩
abbrev DMA_CH_DONE.COUNT : Fld := ⟨.DMA_CH_DONE, 31, 0⟩
abbrev PCI_CTRL.EN : Fld := ⟨.PCI_CTRL, 31, 31⟩
abbrev PCI_CTRL.ROLE : Fld := ⟨.PCI_CTRL, 30, 30⟩
abbrev PCI_CTRL.MAX_SPEED : Fld := ⟨.PCI_CTRL, 29, 27⟩
abbrev PCI_CTRL.MAX_WIDTH : Fld := ⟨.PCI_CTRL, 26, 25⟩
abbrev PCI_STATUS.LINK_UP : Fld := ⟨.PCI_STATUS, 31, 31⟩
abbrev PCI_STATUS.SPEED : Fld := ⟨.PCI_STATUS, 30, 28⟩
abbrev PCI_STATUS.WIDTH : Fld := ⟨.PCI_STATUS, 27, 26⟩
abbrev PCI_STATUS.FLIT : Fld := ⟨.PCI_STATUS, 25, 25⟩
abbrev PCI_STATUS.DRAINING : Fld := ⟨.PCI_STATUS, 24, 24⟩
abbrev PCI_WIN_OFS.OFS : Fld := ⟨.PCI_WIN_OFS, 31, 0⟩
abbrev PCI_IN_BASE.BASE : Fld := ⟨.PCI_IN_BASE, 31, 0⟩
abbrev PCI_IN_SIZE.IN_LOG2 : Fld := ⟨.PCI_IN_SIZE, 5, 0⟩
abbrev PCI_IRQ_ROUTE_LO.ROUTE : Fld := ⟨.PCI_IRQ_ROUTE_LO, 31, 0⟩
abbrev PCI_IRQ_ROUTE_HI.ROUTE : Fld := ⟨.PCI_IRQ_ROUTE_HI, 31, 0⟩
abbrev PCI_CFG_ADDR.BUS : Fld := ⟨.PCI_CFG_ADDR, 27, 20⟩
abbrev PCI_CFG_ADDR.DEV : Fld := ⟨.PCI_CFG_ADDR, 19, 15⟩
abbrev PCI_CFG_ADDR.FN : Fld := ⟨.PCI_CFG_ADDR, 14, 12⟩
abbrev PCI_CFG_ADDR.REG : Fld := ⟨.PCI_CFG_ADDR, 11, 2⟩
abbrev PCI_CFG_DATA.DATA : Fld := ⟨.PCI_CFG_DATA, 31, 0⟩
abbrev PCI_CFG_STAT.RESULT : Fld := ⟨.PCI_CFG_STAT, 1, 0⟩
abbrev PCI_ERR.CPL_TIMEOUT : Fld := ⟨.PCI_ERR, 31, 16⟩
abbrev PCI_ERR.UR_CA : Fld := ⟨.PCI_ERR, 15, 0⟩
abbrev STM_CMD.CMD : Fld := ⟨.STM_CMD, 31, 28⟩
abbrev STM_CMD.GEN : Fld := ⟨.STM_CMD, 23, 8⟩
abbrev STM_CMD.INDEX : Fld := ⟨.STM_CMD, 7, 0⟩
abbrev STM_CMD_STAT.RESULT : Fld := ⟨.STM_CMD_STAT, 31, 28⟩
abbrev STM_CMD_STAT.BUSY : Fld := ⟨.STM_CMD_STAT, 27, 27⟩
abbrev STM_CMD_STAT.GEN : Fld := ⟨.STM_CMD_STAT, 23, 8⟩
abbrev STM_CMD_STAT.INDEX : Fld := ⟨.STM_CMD_STAT, 7, 0⟩
abbrev STM_FIRST_SEQ_LO.SEQ : Fld := ⟨.STM_FIRST_SEQ_LO, 31, 0⟩
abbrev STM_FIRST_SEQ_HI.SEQ : Fld := ⟨.STM_FIRST_SEQ_HI, 31, 0⟩
abbrev STM_RING_DB.INDEX : Fld := ⟨.STM_RING_DB, 7, 0⟩
abbrev STM_SUB_STAGE.DATA : Fld := ⟨.STM_SUB_STAGE, 31, 0⟩
abbrev STM_PTP_CFG.TRANSPORT : Fld := ⟨.STM_PTP_CFG, 9, 8⟩
abbrev STM_PTP_CFG.DOMAIN : Fld := ⟨.STM_PTP_CFG, 7, 0⟩
abbrev STM_PTP_ASYM.ASYM_PS : Fld := ⟨.STM_PTP_ASYM, 31, 0⟩
abbrev STM_ETH_ADDR.DATA : Fld := ⟨.STM_ETH_ADDR, 31, 0⟩
abbrev STM_ETH_RXDISC.COUNT : Fld := ⟨.STM_ETH_RXDISC, 31, 0⟩
abbrev STM_SUB.DATA : Fld := ⟨.STM_SUB, 31, 0⟩
abbrev STM_SUB_DROPS.COUNT : Fld := ⟨.STM_SUB_DROPS, 31, 0⟩
abbrev NVM_SET_CFG.EN : Fld := ⟨.NVM_SET_CFG, 31, 31⟩
abbrev NVM_SET_CFG.POLICY : Fld := ⟨.NVM_SET_CFG, 30, 30⟩
abbrev NVM_SET_CFG.FLUSH_MS : Fld := ⟨.NVM_SET_CFG, 29, 16⟩
abbrev NVM_SET_CMD.FORMAT : Fld := ⟨.NVM_SET_CMD, 0, 0⟩
abbrev NVM_SET_STAT.FAILED : Fld := ⟨.NVM_SET_STAT, 31, 16⟩
abbrev NVM_SET_STAT.STATE : Fld := ⟨.NVM_SET_STAT, 1, 0⟩
abbrev NVM_DRIVE.EN : Fld := ⟨.NVM_DRIVE, 31, 31⟩
abbrev NVM_DRIVE.PORT : Fld := ⟨.NVM_DRIVE, 30, 30⟩
abbrev NVM_DRIVE.SET : Fld := ⟨.NVM_DRIVE, 29, 28⟩
abbrev NVM_DRIVE.INDEX : Fld := ⟨.NVM_DRIVE, 27, 24⟩
abbrev NVM_DRIVE.BUS : Fld := ⟨.NVM_DRIVE, 23, 16⟩
abbrev NVM_DRIVE.DEV : Fld := ⟨.NVM_DRIVE, 15, 11⟩
abbrev NVM_DRIVE.FN : Fld := ⟨.NVM_DRIVE, 10, 8⟩
abbrev NVM_DRIVE_NSID.NSID : Fld := ⟨.NVM_DRIVE_NSID, 31, 0⟩
abbrev FAB_STATUS.TRG_BOUND : Fld := ⟨.FAB_STATUS, 31, 28⟩
abbrev FAB_STATUS.GM_HOPS : Fld := ⟨.FAB_STATUS, 27, 24⟩
abbrev FAB_STATUS.IS_GM : Fld := ⟨.FAB_STATUS, 23, 23⟩
abbrev FAB_STATUS.ADDR_STATE : Fld := ⟨.FAB_STATUS, 15, 14⟩
abbrev FAB_STATUS.ADDR : Fld := ⟨.FAB_STATUS, 11, 0⟩
abbrev FAB_ADDR_CFG.MODE : Fld := ⟨.FAB_ADDR_CFG, 13, 12⟩
abbrev FAB_ADDR_CFG.ADDR : Fld := ⟨.FAB_ADDR_CFG, 11, 0⟩
abbrev FAB_UID_LO.UID : Fld := ⟨.FAB_UID_LO, 31, 0⟩
abbrev FAB_UID_HI.UID : Fld := ⟨.FAB_UID_HI, 31, 0⟩
abbrev FAB_TIME_CFG.PRIO : Fld := ⟨.FAB_TIME_CFG, 7, 0⟩
abbrev FAB_GM.REF : Fld := ⟨.FAB_GM, 20, 20⟩
abbrev FAB_GM.PRIO : Fld := ⟨.FAB_GM, 19, 12⟩
abbrev FAB_GM.ADDR : Fld := ⟨.FAB_GM, 11, 0⟩
abbrev FAB_COUNTS.STALE : Fld := ⟨.FAB_COUNTS, 31, 16⟩
abbrev FAB_COUNTS.DUP : Fld := ⟨.FAB_COUNTS, 15, 0⟩
abbrev FAB_NO_ROUTE.COUNT : Fld := ⟨.FAB_NO_ROUTE, 31, 0⟩
abbrev FAB_TRG_SUB_LO.SUB : Fld := ⟨.FAB_TRG_SUB_LO, 31, 0⟩
abbrev FAB_TRG_SUB_HI.SUB : Fld := ⟨.FAB_TRG_SUB_HI, 31, 0⟩
abbrev FAB_TRG_DUAL_LO.DUAL : Fld := ⟨.FAB_TRG_DUAL_LO, 31, 0⟩
abbrev FAB_TRG_DUAL_HI.DUAL : Fld := ⟨.FAB_TRG_DUAL_HI, 31, 0⟩
abbrev FAB_RX_BASE_LO.BASE_LO : Fld := ⟨.FAB_RX_BASE_LO, 31, 6⟩
abbrev FAB_RX_BASE_HI.ENABLE : Fld := ⟨.FAB_RX_BASE_HI, 31, 31⟩
abbrev FAB_RX_BASE_HI.SIZE_LOG2 : Fld := ⟨.FAB_RX_BASE_HI, 28, 24⟩
abbrev FAB_RX_BASE_HI.BASE_HI : Fld := ⟨.FAB_RX_BASE_HI, 15, 0⟩
abbrev FAB_RX_WP.UNITS : Fld := ⟨.FAB_RX_WP, 31, 0⟩
abbrev FAB_RX_RD.UNITS : Fld := ⟨.FAB_RX_RD, 31, 0⟩
abbrev FAB_PORT_CFG.MODE : Fld := ⟨.FAB_PORT_CFG, 17, 16⟩
abbrev FAB_PORT_CFG.COST : Fld := ⟨.FAB_PORT_CFG, 15, 0⟩
abbrev FAB_PORT_STAT.STATE : Fld := ⟨.FAB_PORT_STAT, 31, 29⟩
abbrev FAB_PORT_STAT.LANES : Fld := ⟨.FAB_PORT_STAT, 28, 26⟩
abbrev FAB_PORT_STAT.SPARE_LANE : Fld := ⟨.FAB_PORT_STAT, 23, 21⟩
abbrev FAB_PORT_STAT.NBR_ADDR : Fld := ⟨.FAB_PORT_STAT, 11, 0⟩
abbrev FAB_PORT_ASYM.ASYM_PS : Fld := ⟨.FAB_PORT_ASYM, 31, 0⟩
abbrev FAB_PORT_DELAY.PS : Fld := ⟨.FAB_PORT_DELAY, 31, 0⟩
abbrev FAB_PORT_ERR.RETRAINS : Fld := ⟨.FAB_PORT_ERR, 31, 16⟩
abbrev FAB_PORT_ERR.RETRIES : Fld := ⟨.FAB_PORT_ERR, 15, 0⟩
abbrev CAL_CFG.AUTO : Fld := ⟨.CAL_CFG, 31, 31⟩
abbrev CAL_CFG.BOOT_CAL : Fld := ⟨.CAL_CFG, 30, 30⟩
abbrev CAL_CFG.DRIFT : Fld := ⟨.CAL_CFG, 15, 8⟩
abbrev CAL_CFG.AGE_H : Fld := ⟨.CAL_CFG, 7, 0⟩
abbrev CAL_QUIET.SRC : Fld := ⟨.CAL_QUIET, 31, 30⟩
abbrev CAL_QUIET.ALL : Fld := ⟨.CAL_QUIET, 29, 29⟩
abbrev CAL_QUIET.LEVEL : Fld := ⟨.CAL_QUIET, 28, 28⟩
abbrev CAL_QUIET.TIN : Fld := ⟨.CAL_QUIET, 27, 24⟩
abbrev CAL_QUIET.TYPE_MASK : Fld := ⟨.CAL_QUIET, 23, 20⟩
abbrev CAL_QUIET.FORCE_S : Fld := ⟨.CAL_QUIET, 15, 0⟩
abbrev CAL_CMD.CMD : Fld := ⟨.CAL_CMD, 31, 28⟩
abbrev CAL_CMD.SOURCE : Fld := ⟨.CAL_CMD, 27, 27⟩
abbrev CAL_CMD.WHOLE_DIE : Fld := ⟨.CAL_CMD, 26, 26⟩
abbrev CAL_CMD.DIE : Fld := ⟨.CAL_CMD, 11, 8⟩
abbrev CAL_CMD.SLICE : Fld := ⟨.CAL_CMD, 5, 0⟩
abbrev CAL_CMD_STAT.BUSY : Fld := ⟨.CAL_CMD_STAT, 4, 4⟩
abbrev CAL_CMD_STAT.RESULT : Fld := ⟨.CAL_CMD_STAT, 3, 0⟩
abbrev CAL_REC_ADDR_LO.ADDR : Fld := ⟨.CAL_REC_ADDR_LO, 31, 6⟩
abbrev CAL_REC_ADDR_HI.ADDR : Fld := ⟨.CAL_REC_ADDR_HI, 15, 0⟩
abbrev CAL_COMMIT_ARM.KEY : Fld := ⟨.CAL_COMMIT_ARM, 31, 0⟩
abbrev CAL_INFO.FACTORY : Fld := ⟨.CAL_INFO, 31, 31⟩
abbrev CAL_INFO.COMMIT_COUNT : Fld := ⟨.CAL_INFO, 15, 0⟩
abbrev CAL_COUNTS.STALE : Fld := ⟨.CAL_COUNTS, 31, 16⟩
abbrev CAL_COUNTS.HITLESS : Fld := ⟨.CAL_COUNTS, 15, 0⟩
abbrev CAL_ATTIC_DIGEST.DIGEST : Fld := ⟨.CAL_ATTIC_DIGEST, 31, 0⟩
abbrev CAL_DIE_STAT.FREE_SPARES : Fld := ⟨.CAL_DIE_STAT, 31, 30⟩
abbrev CAL_DIE_STAT.QUEUED : Fld := ⟨.CAL_DIE_STAT, 29, 24⟩
abbrev CAL_DIE_STAT.PHASE : Fld := ⟨.CAL_DIE_STAT, 23, 21⟩
abbrev CAL_DIE_STAT.SUSPECTS : Fld := ⟨.CAL_DIE_STAT, 15, 8⟩
abbrev CAL_DIE_STAT.SLICE : Fld := ⟨.CAL_DIE_STAT, 5, 0⟩
abbrev PAN_POLICY.POLICY : Fld := ⟨.PAN_POLICY, 11, 0⟩
abbrev PAN_ROT.EN : Fld := ⟨.PAN_ROT, 31, 31⟩
abbrev PAN_ROT.OPAL_MIN : Fld := ⟨.PAN_ROT, 23, 16⟩
abbrev PAN_ROT.TILE_MIN : Fld := ⟨.PAN_ROT, 15, 8⟩
abbrev PAN_ROT.TEL_MIN : Fld := ⟨.PAN_ROT, 7, 0⟩
abbrev PAN_THR_A.TRIM_MARGIN : Fld := ⟨.PAN_THR_A, 31, 24⟩
abbrev PAN_THR_A.TILE_ECC_H : Fld := ⟨.PAN_THR_A, 23, 16⟩
abbrev PAN_THR_A.CORE_ECC_H : Fld := ⟨.PAN_THR_A, 15, 8⟩
abbrev PAN_THR_A.AGE_PM : Fld := ⟨.PAN_THR_A, 7, 0⟩
abbrev PAN_THR_B.LANE_EYE_MV : Fld := ⟨.PAN_THR_B, 31, 24⟩
abbrev PAN_THR_B.LANE_SER_EXP : Fld := ⟨.PAN_THR_B, 23, 20⟩
abbrev PAN_THR_B.ROW_PASSES : Fld := ⟨.PAN_THR_B, 19, 16⟩
abbrev PAN_THR_B.HBM_CORR_H : Fld := ⟨.PAN_THR_B, 15, 0⟩
abbrev PAN_CMD.CMD : Fld := ⟨.PAN_CMD, 31, 28⟩
abbrev PAN_CMD.KIND : Fld := ⟨.PAN_CMD, 27, 24⟩
abbrev PAN_CMD.UNIT : Fld := ⟨.PAN_CMD, 15, 0⟩
abbrev PAN_CMD_STAT.BUSY : Fld := ⟨.PAN_CMD_STAT, 3, 3⟩
abbrev PAN_CMD_STAT.RESULT : Fld := ⟨.PAN_CMD_STAT, 2, 0⟩
abbrev PAN_ASK.VALID : Fld := ⟨.PAN_ASK, 31, 31⟩
abbrev PAN_ASK.KIND : Fld := ⟨.PAN_ASK, 27, 24⟩
abbrev PAN_ASK.COUNT : Fld := ⟨.PAN_ASK, 23, 16⟩
abbrev PAN_ASK.UNIT : Fld := ⟨.PAN_ASK, 15, 0⟩
abbrev PAN_CMD_ROW.BANK : Fld := ⟨.PAN_CMD_ROW, 21, 16⟩
abbrev PAN_CMD_ROW.ROW : Fld := ⟨.PAN_CMD_ROW, 15, 0⟩
abbrev PAN_TEL_BASE_LO.BASE_LO : Fld := ⟨.PAN_TEL_BASE_LO, 31, 14⟩
abbrev PAN_TEL_BASE_HI.ENABLE : Fld := ⟨.PAN_TEL_BASE_HI, 31, 31⟩
abbrev PAN_TEL_BASE_HI.SIZE_LOG2 : Fld := ⟨.PAN_TEL_BASE_HI, 27, 24⟩
abbrev PAN_TEL_BASE_HI.BASE_HI : Fld := ⟨.PAN_TEL_BASE_HI, 15, 0⟩
abbrev PAN_TEL_PTR.HEAD : Fld := ⟨.PAN_TEL_PTR, 31, 16⟩
abbrev PAN_TEL_PTR.TAIL : Fld := ⟨.PAN_TEL_PTR, 15, 0⟩
abbrev PAN_SPARES.FREE : Fld := ⟨.PAN_SPARES, 31, 16⟩
abbrev PAN_SPARES.RETIRED : Fld := ⟨.PAN_SPARES, 15, 0⟩
abbrev PAN_AGE.SLOW : Fld := ⟨.PAN_AGE, 15, 0⟩
abbrev PAN_MOVE.BUSY : Fld := ⟨.PAN_MOVE, 31, 31⟩
abbrev PAN_MOVE.HPC : Fld := ⟨.PAN_MOVE, 30, 24⟩
abbrev PAN_MOVE.RESERVE : Fld := ⟨.PAN_MOVE, 23, 20⟩
abbrev PAN_MOVE.DONE_PM : Fld := ⟨.PAN_MOVE, 9, 0⟩
abbrev EPO_PAGE_CFG.SECT : Fld := ⟨.EPO_PAGE_CFG, 6, 0⟩
abbrev EPO_SKIPPED.COUNT : Fld := ⟨.EPO_SKIPPED, 31, 0⟩
abbrev PWR_STATUS.STATE : Fld := ⟨.PWR_STATUS, 31, 29⟩
abbrev PWR_STATUS.DRAINING : Fld := ⟨.PWR_STATUS, 28, 28⟩
abbrev PWR_STATUS.PHASES_B : Fld := ⟨.PWR_STATUS, 22, 16⟩
abbrev PWR_STATUS.SOURCE : Fld := ⟨.PWR_STATUS, 11, 10⟩
abbrev PWR_STATUS.FORCED_B : Fld := ⟨.PWR_STATUS, 9, 9⟩
abbrev PWR_STATUS.RETURN_PEND : Fld := ⟨.PWR_STATUS, 8, 8⟩
abbrev PWR_STATUS.PWRGD : Fld := ⟨.PWR_STATUS, 7, 7⟩
abbrev PWR_CMP_CFG.MODE : Fld := ⟨.PWR_CMP_CFG, 31, 30⟩
abbrev PWR_CMP_CFG.SETTLE : Fld := ⟨.PWR_CMP_CFG, 29, 22⟩
abbrev PWR_CMP_CFG.HYST : Fld := ⟨.PWR_CMP_CFG, 21, 18⟩
abbrev PWR_CMP_CFG.THRESH : Fld := ⟨.PWR_CMP_CFG, 11, 0⟩
abbrev PWR_CMP_STAT.INBAND : Fld := ⟨.PWR_CMP_STAT, 10, 8⟩
abbrev PWR_CMP_STAT.UNSETTLED : Fld := ⟨.PWR_CMP_STAT, 6, 4⟩
abbrev PWR_CMP_STAT.GOOD : Fld := ⟨.PWR_CMP_STAT, 2, 0⟩
abbrev PWR_SW_CFG.AUTO_RETURN : Fld := ⟨.PWR_SW_CFG, 31, 31⟩
abbrev PWR_SW_CFG.AUTO_START : Fld := ⟨.PWR_SW_CFG, 30, 30⟩
abbrev PWR_SW_CFG.RETURN_MS : Fld := ⟨.PWR_SW_CFG, 9, 0⟩
abbrev PWR_CMD.CMD : Fld := ⟨.PWR_CMD, 31, 28⟩
abbrev PWR_CMD.FORCED : Fld := ⟨.PWR_CMD, 27, 27⟩
abbrev PWR_FLAGS.BOTH_FAIL_SEEN : Fld := ⟨.PWR_FLAGS, 4, 4⟩
abbrev PWR_FLAGS.OVERTEMP_SEEN : Fld := ⟨.PWR_FLAGS, 3, 3⟩
abbrev PWR_FLAGS.VHK_LOW_SEEN : Fld := ⟨.PWR_FLAGS, 2, 2⟩
abbrev PWR_FLAGS.SW_SEEN : Fld := ⟨.PWR_FLAGS, 1, 1⟩
abbrev PWR_FLAGS.INBAND_SEEN : Fld := ⟨.PWR_FLAGS, 0, 0⟩
abbrev PWR_SW_COUNT.TO_A : Fld := ⟨.PWR_SW_COUNT, 31, 16⟩
abbrev PWR_SW_COUNT.TO_B : Fld := ⟨.PWR_SW_COUNT, 15, 0⟩
abbrev PWR_SW_LAST.NS : Fld := ⟨.PWR_SW_LAST, 31, 0⟩
abbrev HK_ADC_CFG.EN : Fld := ⟨.HK_ADC_CFG, 31, 31⟩
abbrev HK_ADC_CFG.TRIG : Fld := ⟨.HK_ADC_CFG, 30, 30⟩
abbrev HK_ADC_CFG.PWM_GRP : Fld := ⟨.HK_ADC_CFG, 29, 26⟩
abbrev HK_ADC_CFG.DELAY : Fld := ⟨.HK_ADC_CFG, 25, 14⟩
abbrev HK_ADC_CFG.LEN : Fld := ⟨.HK_ADC_CFG, 6, 0⟩
abbrev HK_ADC_PERIOD.US : Fld := ⟨.HK_ADC_PERIOD, 31, 0⟩
abbrev HK_ADC_CMD.URGENT : Fld := ⟨.HK_ADC_CMD, 31, 31⟩
abbrev HK_ADC_CMD.INPUT : Fld := ⟨.HK_ADC_CMD, 5, 0⟩
abbrev HK_ADC_STAT.OVERRUN : Fld := ⟨.HK_ADC_STAT, 31, 16⟩
abbrev HK_ADC_STAT.URG_LOST : Fld := ⟨.HK_ADC_STAT, 15, 12⟩
abbrev HK_ADC_STAT.ABORTS : Fld := ⟨.HK_ADC_STAT, 11, 8⟩
abbrev HK_ADC_STAT.BUSY : Fld := ⟨.HK_ADC_STAT, 7, 7⟩
abbrev HK_ADC_STAT.URGENT_BUSY : Fld := ⟨.HK_ADC_STAT, 6, 6⟩
abbrev HK_ADC_STAT.CUR : Fld := ⟨.HK_ADC_STAT, 5, 0⟩
abbrev HK_URGENT_RES.INPUT : Fld := ⟨.HK_URGENT_RES, 21, 16⟩
abbrev HK_URGENT_RES.VALUE : Fld := ⟨.HK_URGENT_RES, 15, 0⟩
abbrev HK_THERM.WARN : Fld := ⟨.HK_THERM, 15, 8⟩
abbrev HK_THERM.STOP : Fld := ⟨.HK_THERM, 7, 0⟩
abbrev HK_ADC_SEQ.ENTRY0 : Fld := ⟨.HK_ADC_SEQ, 5, 0⟩
abbrev HK_ADC_SEQ.ENTRY1 : Fld := ⟨.HK_ADC_SEQ, 13, 8⟩
abbrev HK_ADC_SEQ.ENTRY2 : Fld := ⟨.HK_ADC_SEQ, 21, 16⟩
abbrev HK_ADC_SEQ.ENTRY3 : Fld := ⟨.HK_ADC_SEQ, 29, 24⟩
abbrev HK_RESULT.PASS : Fld := ⟨.HK_RESULT, 31, 16⟩
abbrev HK_RESULT.VALUE : Fld := ⟨.HK_RESULT, 15, 0⟩
abbrev SEC_STATUS.FW_SVN : Fld := ⟨.SEC_STATUS, 31, 24⟩
abbrev SEC_STATUS.OWNER_SEQ : Fld := ⟨.SEC_STATUS, 23, 19⟩
abbrev SEC_STATUS.BOOTSEL : Fld := ⟨.SEC_STATUS, 18, 16⟩
abbrev SEC_STATUS.SLOT : Fld := ⟨.SEC_STATUS, 15, 14⟩
abbrev SEC_STATUS.TRIES : Fld := ⟨.SEC_STATUS, 13, 12⟩
abbrev SEC_STATUS.OS_READY : Fld := ⟨.SEC_STATUS, 11, 11⟩
abbrev SEC_STATUS.OWNER : Fld := ⟨.SEC_STATUS, 10, 10⟩
abbrev SEC_STATUS.PRESENCE : Fld := ⟨.SEC_STATUS, 9, 9⟩
abbrev SEC_STATUS.TRNG_OK : Fld := ⟨.SEC_STATUS, 8, 8⟩
abbrev SEC_STATUS.DBG_POLICY : Fld := ⟨.SEC_STATUS, 1, 0⟩
abbrev SEC_MBOX_ADDR_LO.ADDR_LO : Fld := ⟨.SEC_MBOX_ADDR_LO, 31, 6⟩
abbrev SEC_MBOX_ADDR_HI.ADDR_HI : Fld := ⟨.SEC_MBOX_ADDR_HI, 15, 0⟩
abbrev SEC_CMD.OPCODE : Fld := ⟨.SEC_CMD, 31, 24⟩
abbrev SEC_CMD.LENGTH : Fld := ⟨.SEC_CMD, 23, 0⟩
abbrev SEC_CMD_STAT.BUSY : Fld := ⟨.SEC_CMD_STAT, 8, 8⟩
abbrev SEC_CMD_STAT.STATUS : Fld := ⟨.SEC_CMD_STAT, 7, 0⟩
abbrev SEC_DBG_CHAL.CHAL : Fld := ⟨.SEC_DBG_CHAL, 31, 0⟩
abbrev SEC_DBG_STAT.LIFE_S : Fld := ⟨.SEC_DBG_STAT, 31, 16⟩
abbrev SEC_DBG_STAT.SCOPE : Fld := ⟨.SEC_DBG_STAT, 2, 0⟩
abbrev SEC_DBG_CMD.CHAL : Fld := ⟨.SEC_DBG_CMD, 31, 31⟩
abbrev SEC_DBG_CMD.CLOSE : Fld := ⟨.SEC_DBG_CMD, 30, 30⟩
abbrev SEC_FW_DIGEST.DIGEST : Fld := ⟨.SEC_FW_DIGEST, 31, 0⟩
abbrev SYS_RCV_CFG.SAFE_AUTO : Fld := ⟨.SYS_RCV_CFG, 31, 31⟩
abbrev SYS_RCV_CFG.PC_AUTO : Fld := ⟨.SYS_RCV_CFG, 30, 30⟩
abbrev SYS_RCV_CFG.PM_HOLD : Fld := ⟨.SYS_RCV_CFG, 29, 29⟩
abbrev SYS_RCV_CFG.WARM_WINDOW : Fld := ⟨.SYS_RCV_CFG, 28, 24⟩
abbrev SYS_RCV_CFG.SAFE_HOLD_S : Fld := ⟨.SYS_RCV_CFG, 23, 16⟩
abbrev SYS_RCV_CFG.PC_HOLD_S : Fld := ⟨.SYS_RCV_CFG, 15, 8⟩
abbrev SYS_RCV_CFG.RELOCK_S : Fld := ⟨.SYS_RCV_CFG, 7, 0⟩
abbrev SYS_RCV_CMD.CMD : Fld := ⟨.SYS_RCV_CMD, 31, 28⟩
abbrev SYS_RCV_STAT.HOLD_LEFT : Fld := ⟨.SYS_RCV_STAT, 31, 16⟩
abbrev SYS_RCV_STAT.WARM_COUNT : Fld := ⟨.SYS_RCV_STAT, 15, 8⟩
abbrev SYS_RCV_STAT.STEP : Fld := ⟨.SYS_RCV_STAT, 2, 0⟩
abbrev SYS_PM.DATA : Fld := ⟨.SYS_PM, 31, 0⟩

end Sys2Proof.Machine
end

