-- ==== Sys2Proof/Machine/Bits.lean ====
section
/-! DEFINITION. Sparse tables, bit fields, byte order and signed numbers: the helpers that every unit
uses. -/

namespace Sys2Proof.Machine

/-! ## Sparse tables -/

/-- The entry at `k`, if one is listed. -/
def Table.get? {κ α : Type} [DecidableEq κ] : Table κ α → κ → Option α
  | [], _ => none
  | (k', v) :: t, k => if k' = k then some v else Table.get? t k

/-- The entry at `k`, or `d` for an unlisted key. -/
def Table.getD {κ α : Type} [DecidableEq κ] (t : Table κ α) (k : κ) (d : α) : α :=
  (Table.get? t k).getD d

/-- Remove the entry at `k`. -/
def Table.erase {κ α : Type} [DecidableEq κ] : Table κ α → κ → Table κ α
  | [], _ => []
  | (k', v) :: t, k => if k' = k then Table.erase t k else (k', v) :: Table.erase t k

/-- Insert or replace the entry at `k`, keeping the keys in the order `lt`. -/
def Table.insert {κ α : Type} [DecidableEq κ] (lt : κ → κ → Bool) : Table κ α → κ → α → Table κ α
  | [], k, v => [(k, v)]
  | (k', v') :: t, k, v =>
    if k' = k then (k, v) :: t
    else if lt k k' then (k, v) :: (k', v') :: t
    else (k', v') :: Table.insert lt t k v

/-- Set the entry at `k` to `v`; the value that an unlisted key reads as (`d`) removes the entry, so
that equal contents are equal tables. -/
def Table.put {κ α : Type} [DecidableEq κ] [DecidableEq α] (lt : κ → κ → Bool) (d : α)
    (t : Table κ α) (k : κ) (v : α) : Table κ α :=
  if v = d then Table.erase t k else Table.insert lt t k v

/-- The order of natural-number keys. -/
def natLt (a b : Nat) : Bool := decide (a < b)

/-- `Table.put` for number keys. -/
def Table.set {α : Type} [DecidableEq α] (d : α) (t : Table Nat α) (k : Nat) (v : α) : Table Nat α :=
  Table.put natLt d t k v

/-- Apply `f` to the entry at `k`. -/
def Table.modify {α : Type} [DecidableEq α] (d : α) (t : Table Nat α) (k : Nat) (f : α → α) :
    Table Nat α :=
  Table.set d t k (f (Table.getD t k d))

/-- Keys strictly rising under `lt`. -/
def Table.sorted {κ α : Type} (lt : κ → κ → Bool) : Table κ α → Bool
  | [] => true
  | [_] => true
  | a :: b :: t => lt a.1 b.1 && Table.sorted lt (b :: t)

/-- The canonical form: keys rising, no entry equal to what an unlisted key reads as. -/
def Table.wf {κ α : Type} [DecidableEq α] (lt : κ → κ → Bool) (d : κ → α) (t : Table κ α) : Bool :=
  Table.sorted lt t && t.all (fun e => decide (e.2 ≠ d e.1))

/-! ## Lists -/

/-- Element `i` of a list, or `d`. -/
def nth {α : Type} (l : List α) (i : Nat) (d : α) : α := l.getD i d

/-- Replace element `i` of a list. -/
def setNth {α : Type} (l : List α) (i : Nat) (v : α) : List α := l.set i v

/-- Update element `i` of a list. -/
def modNth {α : Type} (l : List α) (i : Nat) (f : α → α) (d : α) : List α :=
  l.set i (f (l.getD i d))

/-- Sum of a list of integers. -/
def isum (l : List Int) : Int := l.foldl (· + ·) 0

/-- Repeat a function `n` times. -/
def iter {α : Type} (f : α → α) : Nat → α → α
  | 0, a => a
  | n + 1, a => iter f n (f a)

/-! ## Bits and signed numbers -/

/-- 1 for true. -/
def b2n (b : Bool) : Nat := if b then 1 else 0

/-- Bit `i` of `n`. -/
def bit (n i : Nat) : Bool := n.testBit i

/-- Bits [hi:lo] of `n`. -/
def bits (n hi lo : Nat) : Nat := (n >>> lo) % 2 ^ (hi + 1 - lo)

/-- `n` with bits [hi:lo] replaced by `v`. -/
def withBits (n hi lo v : Nat) : Nat :=
  n - (bits n hi lo) * 2 ^ lo + (v % 2 ^ (hi + 1 - lo)) * 2 ^ lo

/-- The `w`-bit two's complement of an integer. -/
def toU (w : Nat) (i : Int) : Nat := (i % (2 ^ w : Nat)).toNat

/-- The integer that `w` bits stand for in two's complement. -/
def toS (w n : Nat) : Int :=
  if n % 2 ^ w < 2 ^ (w - 1) then ((n % 2 ^ w : Nat) : Int) else ((n % 2 ^ w : Nat) : Int) - (2 ^ w : Nat)

/-- Saturate to the signed range of `w` bits. -/
def satS (w : Nat) (i : Int) : Int :=
  if i > (2 ^ (w - 1) : Nat) - 1 then (2 ^ (w - 1) : Nat) - 1
  else if i < -((2 ^ (w - 1) : Nat) : Int) then -((2 ^ (w - 1) : Nat) : Int) else i

/-- Saturate a count at `w` bits. -/
def satU (w n : Nat) : Nat := if n < 2 ^ w then n else 2 ^ w - 1

/-- Division of integers that truncates toward zero (the manual's convention). -/
def tdiv (a b : Int) : Int := Int.tdiv a b

/-- Round a quotient to the nearest integer, halves away from zero. -/
def rdiv (a : Int) (b : Nat) : Int :=
  if a < 0 then -((((-a).toNat * 2 + b) / (2 * b) : Nat) : Int) else ((a.toNat * 2 + b) / (2 * b) : Nat)

/-- Clamp an integer to [lo, hi]. -/
def clampI (lo hi v : Int) : Int := if v < lo then lo else if v > hi then hi else v

/-- Integer square root: the largest r with r * r ≤ n, by bits. -/
def isqrt (n : Nat) : Nat :=
  (List.range 64).foldl (fun r i =>
    let c := r + 2 ^ (63 - i)
    if c * c ≤ n then c else r) 0

/-! ## Bytes, little-endian -/

/-- The `n` little-endian bytes of a number. -/
def leBytes : Nat → Nat → List Byte
  | 0, _ => []
  | n + 1, v => BitVec.ofNat 8 v :: leBytes n (v / 256)

/-- The number that little-endian bytes spell. -/
def ofLe : List Byte → Nat
  | [] => 0
  | b :: t => b.toNat + 256 * ofLe t

/-- The `n` big-endian bytes of a number. -/
def beBytes (n v : Nat) : List Byte := (leBytes n v).reverse

/-- The number that big-endian bytes spell. -/
def ofBe (l : List Byte) : Nat := ofLe l.reverse

/-- `n` zero bytes. -/
def zeros (n : Nat) : List Byte := List.replicate n 0

/-- Bytes `[a, a+n)` of a list. -/
def slice (l : List Byte) (a n : Nat) : List Byte := (l.drop a).take n

/-- Little-endian field of `n` bytes at offset `a`. -/
def le (l : List Byte) (a n : Nat) : Nat := ofLe (slice l a n)

/-- Pack fields given as (offset from byte 20, width in bytes, value) into the number `Event.detail`. -/
def detail (fs : List (Nat × Nat × Nat)) : Nat :=
  fs.foldl (fun acc f => acc + (f.2.2 % 2 ^ (8 * f.2.1)) * 2 ^ (8 * f.1)) 0

end Sys2Proof.Machine
end

