-- ==== Sys2Proof/Machine/EventKinds.lean ====
section
/-! DEFINITION. The events of the device: for each its block, number and severity, from the event tables
of the chapters (R65, R98, R130, R166, R223, R279, R317, R357, R389, R413, R441, R470, R494, R525, R548,
R569, R582). -/

namespace Sys2Proof.Machine

/-- The source index of a block (R29). -/
def Block.index (b : Block) : Nat :=
  match b with
  | .SYS => 0 | .PWR => 1 | .CLK => 2 | .TDC => 3 | .EPO => 4 | .EVQ => 5 | .TRG => 6 | .CEL => 7
  | .LND => 8 | .DMA => 9 | .STM => 10 | .NVM => 11 | .PCI => 12 | .FAB => 13 | .CAL => 14
  | .PAN => 15 | .SEC => 16 | .HK => 17 | .VID => 18 | .OPL => 19 | .CNV => 20 | .GT => 21

/-- An event kind: the block that defines it, its number, its severity (0 info, 1 notice, 2 warning,
3 error, 4 fatal; R30). -/
structure EventKind where
  block : Block
  number : Nat
  severity : Nat
deriving DecidableEq, Repr

def Ev.PROT_ENGAGED : EventKind := ⟨.CNV, 0x001, 2⟩
def Ev.CMP_INBAND : EventKind := ⟨.CNV, 0x002, 1⟩
def Ev.RANGE_SETTLED : EventKind := ⟨.CNV, 0x003, 0⟩
def Ev.DIE_RESUMED : EventKind := ⟨.CNV, 0x004, 1⟩
def Ev.REF_LOST : EventKind := ⟨.CLK, 0x001, 2⟩
def Ev.REF_QUALIFIED : EventKind := ⟨.CLK, 0x002, 0⟩
def Ev.COAST_ENTER : EventKind := ⟨.CLK, 0x003, 2⟩
def Ev.COAST_EXIT : EventKind := ⟨.CLK, 0x004, 1⟩
def Ev.SLEW_DONE : EventKind := ⟨.CLK, 0x005, 0⟩
def Ev.STEP_APPLIED : EventKind := ⟨.CLK, 0x006, 1⟩
def Ev.SYN_UNLOCK : EventKind := ⟨.CLK, 0x007, 3⟩
def Ev.BYPASS_ENTER : EventKind := ⟨.CLK, 0x008, 2⟩
def Ev.RELOCKED : EventKind := ⟨.CLK, 0x009, 1⟩
def Ev.RELOCK_FAIL : EventKind := ⟨.CLK, 0x00A, 3⟩
def Ev.JC_UNLOCK : EventKind := ⟨.CLK, 0x00B, 3⟩
def Ev.BYP_UNLOCK : EventKind := ⟨.CLK, 0x00C, 4⟩
def Ev.LOOP_UNLOCK : EventKind := ⟨.TDC, 0x001, 3⟩
def Ev.TIN_INBAND : EventKind := ⟨.TDC, 0x002, 1⟩
def Ev.CAL_FAIL : EventKind := ⟨.TDC, 0x003, 2⟩
def Ev.TIME_STEP : EventKind := ⟨.TDC, 0x004, 1⟩
def Ev.TIME_SRC_LOST : EventKind := ⟨.TDC, 0x005, 2⟩
def Ev.AMBIG_JUMP : EventKind := ⟨.TDC, 0x006, 2⟩
def Ev.PAGE_READY : EventKind := ⟨.EPO, 0x001, 0⟩
def Ev.STATS_MISSED : EventKind := ⟨.EPO, 0x002, 2⟩
def Ev.EPOCH_TIMEOUT : EventKind := ⟨.EPO, 0x003, 1⟩
def Ev.TILE_FAULT : EventKind := ⟨.GT, 0x001, 3⟩
def Ev.IN_OVERRUN : EventKind := ⟨.GT, 0x002, 2⟩
def Ev.OUT_DROP : EventKind := ⟨.GT, 0x003, 1⟩
def Ev.DM_CORR : EventKind := ⟨.GT, 0x004, 1⟩
def Ev.TILE_HALTED : EventKind := ⟨.GT, 0x005, 1⟩
def Ev.WRITE_REFUSED : EventKind := ⟨.GT, 0x007, 2⟩
def Ev.PRG_LOADED : EventKind := ⟨.SYS, 0x010, 0⟩
def Ev.PRG_REFUSED : EventKind := ⟨.SYS, 0x011, 3⟩
def Ev.COMMIT_ACCEPTED : EventKind := ⟨.SYS, 0x012, 0⟩
def Ev.SWITCH_DONE : EventKind := ⟨.SYS, 0x013, 1⟩
def Ev.HELD_ENTER : EventKind := ⟨.SYS, 0x014, 2⟩
def Ev.HELD_EXIT : EventKind := ⟨.SYS, 0x015, 1⟩
def Ev.GROUP_LATE : EventKind := ⟨.SYS, 0x016, 3⟩
def Ev.TURN_LOCKED : EventKind := ⟨.EPO, 0x004, 0⟩
def Ev.TURN_SLIP : EventKind := ⟨.EPO, 0x005, 2⟩
def Ev.TURN_LOST : EventKind := ⟨.EPO, 0x006, 2⟩
def Ev.RPL_DONE : EventKind := ⟨.SYS, 0x020, 1⟩
def Ev.XRX_DROP : EventKind := ⟨.GT, 0x006, 1⟩
def Ev.REC_DROPPED : EventKind := ⟨.TRG, 0x001, 1⟩
def Ev.REC_OVERRUN : EventKind := ⟨.TRG, 0x002, 2⟩
def Ev.RTV_OVERRUN : EventKind := ⟨.TRG, 0x003, 2⟩
def Ev.CELL_LATE : EventKind := ⟨.TRG, 0x004, 1⟩
def Ev.PIN_WAIT : EventKind := ⟨.TRG, 0x005, 0⟩
def Ev.PC_FROZEN : EventKind := ⟨.CEL, 0x001, 3⟩
def Ev.PC_RELEASED : EventKind := ⟨.CEL, 0x002, 1⟩
def Ev.ECC_CORR : EventKind := ⟨.CEL, 0x003, 1⟩
def Ev.ROW_REPAIRED : EventKind := ⟨.CEL, 0x004, 1⟩
def Ev.FREQ_CHANGED : EventKind := ⟨.CEL, 0x005, 0⟩
def Ev.LOSS_OPEN : EventKind := ⟨.CEL, 0x006, 2⟩
def Ev.LOSS_CLOSED : EventKind := ⟨.CEL, 0x007, 1⟩
def Ev.LND_DISCARD : EventKind := ⟨.LND, 0x001, 3⟩
def Ev.STALL_DEFERRED : EventKind := ⟨.LND, 0x002, 0⟩
def Ev.FLIP_RETIRED : EventKind := ⟨.VID, 0x001, 0⟩
def Ev.HPD_CHANGE : EventKind := ⟨.VID, 0x002, 1⟩
def Ev.LINK_TRAINED : EventKind := ⟨.VID, 0x003, 0⟩
def Ev.LINK_FAIL : EventKind := ⟨.VID, 0x004, 3⟩
def Ev.UNDERRUN : EventKind := ⟨.VID, 0x005, 2⟩
def Ev.CRC_MISMATCH : EventKind := ⟨.VID, 0x006, 3⟩
def Ev.FENCE_HIT : EventKind := ⟨.OPL, 0x001, 1⟩
def Ev.OPL_DROP : EventKind := ⟨.OPL, 0x002, 1⟩
def Ev.DMA_ERROR : EventKind := ⟨.DMA, 0x001, 3⟩
def Ev.DMA_DRAINED : EventKind := ⟨.DMA, 0x002, 0⟩
def Ev.PCI_LINK_UP : EventKind := ⟨.PCI, 0x001, 0⟩
def Ev.PCI_LINK_DOWN : EventKind := ⟨.PCI, 0x002, 2⟩
def Ev.PCI_AER : EventKind := ⟨.PCI, 0x003, 3⟩
def Ev.SUB_JOINED : EventKind := ⟨.STM, 0x001, 0⟩
def Ev.SUB_LEFT : EventKind := ⟨.STM, 0x002, 1⟩
def Ev.STM_DROP : EventKind := ⟨.STM, 0x003, 1⟩
def Ev.NEXT_HOP_FAIL : EventKind := ⟨.STM, 0x004, 2⟩
def Ev.PTP_MASTER : EventKind := ⟨.STM, 0x005, 0⟩
def Ev.DRIVE_READY : EventKind := ⟨.NVM, 0x001, 0⟩
def Ev.DRIVE_FAILED : EventKind := ⟨.NVM, 0x002, 3⟩
def Ev.SET_FULL : EventKind := ⟨.NVM, 0x003, 2⟩
def Ev.SET_MISMATCH : EventKind := ⟨.NVM, 0x004, 3⟩
def Ev.NBR_UP : EventKind := ⟨.FAB, 0x001, 0⟩
def Ev.NBR_DOWN : EventKind := ⟨.FAB, 0x002, 2⟩
def Ev.LINK_MISMATCH : EventKind := ⟨.FAB, 0x003, 3⟩
def Ev.ADDR_CLAIMED : EventKind := ⟨.FAB, 0x004, 0⟩
def Ev.ADDR_CHANGED : EventKind := ⟨.FAB, 0x005, 2⟩
def Ev.ADDR_CONFLICT : EventKind := ⟨.FAB, 0x006, 3⟩
def Ev.GM_CHANGED : EventKind := ⟨.FAB, 0x007, 1⟩
def Ev.LINK_RETRAIN : EventKind := ⟨.FAB, 0x008, 2⟩
def Ev.CAL_REJECT : EventKind := ⟨.CAL, 0x001, 2⟩
def Ev.CAL_SUSPECT : EventKind := ⟨.CAL, 0x002, 3⟩
def Ev.CAL_HITFUL : EventKind := ⟨.CAL, 0x003, 2⟩
def Ev.CAL_OVERDUE : EventKind := ⟨.CAL, 0x004, 2⟩
def Ev.CAL_COMMITTED : EventKind := ⟨.CAL, 0x005, 1⟩
def Ev.HANDOVER_FAIL : EventKind := ⟨.CAL, 0x006, 2⟩
def Ev.SPARE_USED : EventKind := ⟨.PAN, 0x001, 1⟩
def Ev.SPARE_ASK : EventKind := ⟨.PAN, 0x002, 1⟩
def Ev.WEAR : EventKind := ⟨.PAN, 0x003, 2⟩
def Ev.SPARE_EMPTY : EventKind := ⟨.PAN, 0x004, 2⟩
def Ev.SWAP_FAIL : EventKind := ⟨.PAN, 0x005, 3⟩
def Ev.SELFTEST_FAIL : EventKind := ⟨.PAN, 0x006, 3⟩
def Ev.ROTATED : EventKind := ⟨.PAN, 0x007, 0⟩
def Ev.AGE_WARN : EventKind := ⟨.PAN, 0x008, 2⟩
def Ev.PAGE_SKIPPED : EventKind := ⟨.EPO, 0x007, 1⟩
def Ev.SWITCH_TO_B : EventKind := ⟨.PWR, 0x001, 2⟩
def Ev.SWITCH_TO_A : EventKind := ⟨.PWR, 0x002, 1⟩
def Ev.BOTH_FAIL : EventKind := ⟨.PWR, 0x003, 4⟩
def Ev.SUPPLY_INBAND : EventKind := ⟨.PWR, 0x004, 1⟩
def Ev.VHK_LOW : EventKind := ⟨.PWR, 0x005, 2⟩
def Ev.OVERTEMP : EventKind := ⟨.PWR, 0x006, 2⟩
def Ev.RAIL_FAIL : EventKind := ⟨.PWR, 0x007, 4⟩
def Ev.ADC_OVERRUN : EventKind := ⟨.HK, 0x001, 0⟩
def Ev.BOOT_SLOT : EventKind := ⟨.SEC, 0x001, 0⟩
def Ev.FW_FALLBACK : EventKind := ⟨.SEC, 0x002, 3⟩
def Ev.OWNER_CHANGED : EventKind := ⟨.SEC, 0x003, 1⟩
def Ev.DEBUG_UNLOCKED : EventKind := ⟨.SEC, 0x004, 2⟩
def Ev.AUTH_FAIL : EventKind := ⟨.SEC, 0x005, 2⟩
def Ev.FUSE_ADVANCED : EventKind := ⟨.SEC, 0x006, 1⟩
def Ev.FUSE_FAIL : EventKind := ⟨.SEC, 0x007, 3⟩
def Ev.TRNG_FAIL : EventKind := ⟨.SEC, 0x008, 3⟩
def Ev.FAULT_FREEZE : EventKind := ⟨.SYS, 0x030, 4⟩
def Ev.WARM_RESET : EventKind := ⟨.SYS, 0x031, 4⟩
def Ev.FUNC_REINIT : EventKind := ⟨.SYS, 0x032, 3⟩
def Ev.FUNC_RETIRED : EventKind := ⟨.SYS, 0x033, 3⟩
def Ev.PWR_CYCLE : EventKind := ⟨.SYS, 0x034, 4⟩

end Sys2Proof.Machine
end

