-- ==== Sys2Proof/Machine/Types.lean ====
section
/-! DEFINITION. The parts of the state that are not control registers: queues, transfers in progress,
filters and sequences of each unit of the device.  All are plain data.  Register fields that the manual
gives a home in a register are kept there (`Machine/Reg.lean`) and not repeated here. -/

namespace Sys2Proof.Machine

/-! ## Outputs of the block -/

/-- What the device sends out: completions on the path of an access, interrupts, pins and messages. -/
inductive Out where
  /-- an access completed with a bus error (R8, R27, R606) -/
  | busError (path : Path) (addr : Nat)
  /-- a read through PCIe port `p` completed with completer abort, or with unsupported request (R409, R411) -/
  | pciError (p : Nat) (abort : Bool) (addr : Nat)
  /-- a read request of `n` bytes at a bus address leaves PCIe port `p` (R397) -/
  | readReq (p addr n : Nat)
  /-- a read completed with these bytes -/
  | readDone (path : Path) (addr : Nat) (bytes : List Byte)
  /-- a write completed -/
  | writeDone (path : Path) (addr : Nat)
  /-- interrupt source `s` to Hearth's interrupt controller (R410) -/
  | irq (s : Nat)
  /-- interrupt source `s` as MSI-X vector `s` on PCIe port `p` (R410) -/
  | msix (p s : Nat)
  /-- a pin is driven to a level -/
  | pin (p : Pin) (level : Bool)
  /-- every VIO-bank pin other than FAULT_N and PWRGD is put in high impedance (R537) -/
  | pinsOff
  /-- an item, message or frame leaves a unit: unit, its parameters, its bytes -/
  | send (u : Port) (args : List Nat) (bytes : List Byte)
  /-- a response of the CZ control protocol (R565): connection, REQ_ID, opcode, STATUS, ORIG_STATUS, body -/
  | czResp (conn req op status orig : Nat) (body : List Byte)
  /-- an event pushed to a connection (R565) -/
  | czEvent (conn : Nat) (body : List Byte)
  /-- a word that the JTAG mailbox returns: VALID, LAST, the word (R563) -/
  | jtag (valid last : Bool) (w : BitVec 32)
deriving DecidableEq, Repr

/-! ## Event queue (R30 to R35, R607 to R609) -/

/-- An event as raised: the fields of R30 that do not depend on the queue. `detail` is bytes 20 to 31,
little-endian; the stamp is OT96 (seconds in the high 48 bits). -/
structure Event where
  code : Nat
  source : Nat
  severity : Nat
  seq : Nat
  stamp : Nat
  detail : Nat
deriving DecidableEq, Repr

/-- An entry whose write has been issued, with its OVF_BEFORE flag. -/
structure EvqWrite where
  ev : Event
  ovf : Bool
deriving DecidableEq, Repr

/-- One command in the history window (R359). -/
structure HistCmd where
  cycle : Nat
  cmd : Nat
  bank : Nat
  source : Nat
  row : Nat
  col : Nat
  result : Nat
deriving DecidableEq, Repr

/-- One entry of the Attic event log (R35, R582): an event, or a note that has no event of its own. -/
inductive AtticEntry where
  | event (e : Event)
  | noFirmware
  | pwrCycleIgnored
  | diagnosis (hpc addr synd : Nat) (window : List HistCmd)
deriving DecidableEq, Repr

/-- The event queue's hidden state. `count` and `attic` are always-on. -/
structure EvqState where
  count : Nat := 0
  hold : List Event := []
  inFlight : List EvqWrite := []
  ovf : Bool := false
  attic : List AtticEntry := []
  lastSeq : Nat := 0
deriving DecidableEq, Repr

/-- A ring written under R33 and R34 (Jasper results, retrieval completions, telemetry): entries
whose writes are issued, oldest first, each with its bytes. -/
structure RingState where
  inFlight : List (List Byte) := []
  ovf : Bool := false
  /-- the TCLK cycle of the last rewrite of an entry acknowledged with error (R33) -/
  lastTry : Nat := 0
  /-- the front entry was acknowledged with error status and waits for its rewrite (R33) -/
  failed : Bool := false
  /-- the TCLK cycle of the latest entry that the Jasper ring accepted (R114) -/
  latest : Option Nat := none
deriving DecidableEq, Repr

/-! ## Time base (R115 to R118) -/

/-- OT96 in units of 2^-80 s, its rate word, the error still to slew out, the step waiting for the
next epoch boundary, and the TCLK cycle from which the interval of the next vernier calibration counts (R105). -/
structure TimeState where
  ot : Nat := 0
  rate : Nat := 755578637259143
  slewLeft : Int := 0
  step : Option Int := none
  calAt : Nat := 0
  /-- running: false while the time base is unpowered -/
  running : Bool := false
deriving DecidableEq, Repr

/-- The latest anchor of a die (R119), as far as R120 needs it: block, OT96 time of its sample 0
(2^-80 s), sample period (2^-64 s). -/
structure Anchor where
  block : Nat
  time : Nat
  period : Nat
deriving DecidableEq, Repr

/-! ## Converter dies (chapter 2) -/

/-- Samples from `start` up to but not including `stop` (none: still open). -/
structure Span where
  start : Nat
  stop : Option Nat
deriving DecidableEq, Repr

/-- A sample block (R45): channel, full block count, the 128 bytes. -/
structure SBlock where
  ch : Nat
  count : Nat
  bytes : List Byte
deriving DecidableEq, Repr

/-- The user correction that was in force before a switch-point sample (R57). -/
structure OldCorrection where
  upTo : Nat
  uoffs : Nat
  ugain : Nat
deriving DecidableEq, Repr

/-- The hidden state of one channel's input network and slice. -/
structure Chan where
  last : Nat := 0
  /-- the 2 µs hold of R40 in progress: RANGE changed; the sample at which it began; a hold for calibration is in
  progress (R483, R488) -/
  hold : Option Bool := none
  holdAt : Nat := 0
  calHold : Bool := false
  /-- the spans of the holds of R40, and of those for calibration -/
  stale : List Span := []
  calStale : List Span := []
  dirty : List Span := []
  prot : List Span := []
  /-- intervals of NBR, each with the overdriven neighbour that causes it (R53) -/
  nbr : List (Nat × Span) := []
  corr : Option OldCorrection := none
  /-- the clamp is engaged; its 200 ns recovery runs; the time the last recovery ended -/
  clamp : Bool := false
  recovering : Bool := false
  recovered : Option Nat := none
  /-- the first sample after the clamp disengaged (R54) -/
  clampOff : Nat := 0
  /-- polarity of the engagement in progress (true: negative) -/
  clampNeg : Bool := false
  /-- the slice that serves from the next block boundary (CNV_CH_ROUTE.SERVING's code; R44) -/
  serveNext : Option Nat := none
  /-- trims changed: the blocks with which CALGEN advances (R49) -/
  newTrims : List Nat := []
  /-- runs of samples beyond full scale: first index and, for each sample, whether it is negative; the
  end and the peak class of the latest run -/
  excs : List (Nat × List Bool) := []
  excEnd : Nat := 0
  excPeak : Option Peak := none
  /-- the first sample of the latest run above +6 dBFS (R53); the clamp or its recovery overlaps the latest run (R54) -/
  excOver6 : Option Nat := none
  excClamped : Bool := false
deriving DecidableEq, Repr

/-- The hidden state of one comparator output: the raw output, blanking (R61), settling (R64), and the TCLK cycles
at which the settle interval, the blanking and the settling began. -/
structure CmpOut where
  raw : Bool := false
  blanking : Bool := false
  settling : Bool := false
  since : Nat := 0
  blankAt : Nat := 0
  settleAt : Nat := 0
deriving DecidableEq, Repr

/-- The hidden state of one converter die. -/
structure Die where
  /-- the block counter has started (R48) -/
  started : Bool := false
  /-- blocks closed so far: the full count of the block in progress -/
  count : Nat := 0
  /-- the die is being re-initialised and produces no blocks (R48, R572) -/
  down : Bool := false
  /-- block periods whose blocks were in flight when its links were reset (R26) -/
  missed : Nat := 0
  /-- the TCLK cycle at which the re-initialisation began -/
  downSince : Nat := 0
  /-- the last block that the die produces after its octant has entered SERV, and the first after it has left (R274) -/
  lastBlock : Option Nat := none
  firstBlock : Nat := 0
  /-- worst CLKQ of the block in progress (R47) -/
  worst : Nat := 3
  /-- the die clock runs on bypass; a switch to bypass is under way (R96); the TCLK cycle at which the die's cleaner
  alone put it there (R90) -/
  onBypass : Bool := true
  switching : Bool := false
  bypSince : Option Nat := none
  /-- blocks on the hub link and on the analysis link, oldest first -/
  hubLink : List SBlock := []
  anaLink : List SBlock := []
  /-- failures in a row of the front block of the hub link and of the analysis link (R571) -/
  hubFails : Nat := 0
  anaFails : Nat := 0
  /-- blocks produced whose ring write is not settled (R331): (channel, count) -/
  unsettled : List (Nat × Nat) := []
  /-- a ring write was acknowledged since power-up or the last warm reset (R327) -/
  ringWrote : Bool := false
  /-- the highest full count whose ring write was acknowledged (R327) -/
  ringLast : Nat := 0
  head : Nat := 0
  floor : Nat := 0
  /-- the anchors written, newest first (R119, R120) -/
  anchors : List Anchor := []
  ambig : Bool := false
deriving DecidableEq, Repr

/-! ## Quartz (chapter 3) -/

/-- How a returning reference is taken up (R93, R94). -/
inductive ReturnKind where
  | measuring | slew | closing | step
deriving DecidableEq, Repr

/-- The hidden state of Quartz. -/
structure ClkState where
  /-- REFIN edges seen in the gate in progress; consecutive good synthesiser gates (R74) -/
  goodGates : Nat := 0
  /-- the synthesiser has a coasting word (R72), as ppb from nominal -/
  coastPpb : Option Int := none
  /-- the return in progress (R92 to R94) -/
  ret : Option ReturnKind := none
  /-- whole reference periods of the last jump, as the time base resolved them (R123) -/
  periods : Int := 0
  /-- the TCLK cycle at which the return slew started -/
  retStart : Nat := 0
  /-- the cycle from which the slew runs at the RET_SLEW in force, and the phase closed before it, in 1/160,000 ps -/
  retAt : Nat := 0
  retMoved : Nat := 0
  /-- the reference tree has been declared locked since power-up or warm reset (R69, R96) -/
  everLocked : Bool := false
  /-- the step of the relock sequence in progress (R86), 0 when none runs -/
  relock : Nat := 0
  /-- attempts since step 4 first ran, and the TCLK cycles at which step 4 last and first ran -/
  attempts : Nat := 0
  step4At : Nat := 0
  relockStart : Nat := 0
  /-- the loop locks that CLK_STATUS does not show: memory PLLs, core PLL, SerDes, pixel
  synthesisers, always-on PLL -/
  memLock : List Bool := [false, false, false, false]
  coreLock : Bool := false
  serdesLock : Bool := false
  pixLock : List Bool := [false, false]
  aonLock : Bool := false
  /-- offset in force (ppb) and whether a slew waits for its frame boundary -/
  offset : Int := 0
  offsetWaits : Bool := false
  /-- the TCLK cycle at which the offset slew in progress began, and the target that it moves toward (R83) -/
  slewAt : Option Nat := none
  slewTo : Int := 0
  /-- block boundaries of die 0 that were frame boundaries (R79) -/
  frameCount : Nat := 0
  /-- fine delays in force: dies 0 to 7 then CKO 0 to 3 -/
  delay : Table Nat Nat := []
  /-- delays that the latest anchors include -/
  delayBase : Table Nat Nat := []
  /-- delays that are moving (same numbering), the targets that they move toward, and the TCLK cycle of each one's
  latest step or start (R79) -/
  moving : List Nat := []
  delayTo : Table Nat Nat := []
  stepAt : Table Nat Nat := []
  /-- source periods by which the latest COARSE change lengthened a period of each CKO output (R78) -/
  stretch : Table Nat Nat := []
  /-- fine-delay and offset targets waiting for the next block boundary of die 0 (R79) -/
  delayWaits : List Nat := []
  /-- the TCLK cycle at which REF_STATE entered QUALIFYING, and the measured frequency (R71) -/
  qualAt : Nat := 0
  refHz : Nat := 0
  /-- the TCLK cycle at which RELOCK_FAIL was first raised in this outage (R570) -/
  failSince : Option Nat := none
  /-- the TCLK cycle of the latest RELOCK_FAIL (R89) -/
  failAt : Nat := 0
  /-- the bypass PLL has been acquired in this BOOT (R97) -/
  bypDone : Bool := false
deriving DecidableEq, Repr

/-! ## Timing inputs (chapter 4) -/

/-- A stamp of an accepted edge: instant in vernier steps of 1/160 TCLK cycle, direction, and OT96. -/
structure Stamp where
  inst : Nat
  rising : Bool
  ot : Nat
deriving DecidableEq, Repr

/-- Running sums of a STATS function (R113), in fs. -/
structure StatsAcc where
  n : Nat := 0
  sum : Int := 0
  sumSq : Nat := 0
  min : Int := 0
  max : Int := 0
  flags : Nat := 0
deriving DecidableEq, Repr

/-- The hidden state of one timing input. -/
structure Tin where
  raw : Bool := false
  /-- the last edge stamped (dead time, R107), and its OT96 time (2^-80 s) -/
  lastKept : Option Nat := none
  stampOt : Nat := 0
  edges : Nat := 0
  results : Nat := 0
  /-- PARTNER = i: the previous edge (R108); ORDERED: the armed start (R109) -/
  armed : Option Stamp := none
  /-- SIGNED: starts and stops not yet paired (R110) -/
  starts : List Stamp := []
  stops : List Stamp := []
  /-- ORDERED: a stop without a start, until its cycle has passed (R111) -/
  pendStop : Option Stamp := none
  /-- FREQ: (edge count, stamp) of the gate in progress, the instants at which edges were dropped, and the instant at which
  the gate began (R112) -/
  gate : List (Nat × Nat) := []
  gateDrops : List Nat := []
  gateAt : Nat := 0
  stats : StatsAcc := {}
  /-- a valid table of converter 0 and 1; a calibration of the converter is running (R105) -/
  table0 : Bool := false
  table1 : Bool := false
  calRuns : List Nat := []
  /-- the TCLK cycle at which the run in progress began; its converter waits to exchange roles; the converter that
  serves -/
  calFrom : Nat := 0
  swap : Bool := false
  conv : Bool := false
  /-- the TCLK cycle at which the settle interval began; settling after a change, and the cycle at which it began (R64,
  R102) -/
  since : Nat := 0
  settling : Bool := false
  settleAt : Nat := 0
deriving DecidableEq, Repr

/-- A statistics page (R521): its epoch, the boundaries of the epoch (OT 2^-80 s), type, FLAGS and SECT, and the TCLK
cycle at which the page began. -/
structure PageInfo where
  epoch : Nat := 0
  start : Nat := 0
  stop : Nat := 0
  type : Nat := 0
  flags : Nat := 0
  sect : Nat := 0
  began : Option Nat := none
deriving DecidableEq, Repr

/-- The epoch counter and page writer (R124 to R129). -/
structure EpochState where
  num : Nat := 0
  type : Nat := 0
  /-- label of the last boundary (OT 2^-80 s), after a step at it, and its TCLK cycle -/
  lastOt : Nat := 0
  lastCycle : Nat := 0
  /-- boundary sample of each die at the last boundary (R126) -/
  bounds : Table Nat Nat := []
  /-- markers counted toward PERIOD (SRC = TURN) -/
  markers : Nat := 0
  /-- boundary times that edges have fixed and that wait for their announcement, oldest first; the timer instant that was
  ignored last (R125) -/
  candidates : List Nat := []
  ignored : Nat := 0
  /-- boundary time announced to the dies (OT 2^-80 s) -/
  announced : Option Nat := none
  /-- a page is being written; what is known of the page begun last; epochs acknowledged by the host (low 32 bits) -/
  writing : Bool := false
  page : PageInfo := {}
  acked : List Nat := []
  /-- the epoch in progress was forced by EPOCH_TIMEOUT, or saw an OT96 step -/
  forced : Bool := false
  stepped : Bool := false
  /-- epochs whose pages stand in memory, unacknowledged ones among them -/
  pages : List Nat := []
  /-- the cycle of the last PAGE_SKIPPED's skip (R525) -/
  lastSkip : Option Nat := none
  /-- counters of the current epoch and of the one whose page is written, by the offset in the page at
  which they stand (R522); sums of means stand at offset + 0x10000 with their counts at + 0x20000 -/
  stats : Table Nat Int := []
  prev : Table Nat Int := []
  /-- counters of the epoch that begins in the present cycle, until its boundary is worked out (R126) -/
  early : Table Nat Int := []
deriving DecidableEq, Repr

/-! ## Cellar and landing buffer (chapter 11) -/

/-- A block waiting in a landing queue, or issued to the memory: where it goes. -/
structure RingWrite where
  blk : SBlock
  addr : Nat
deriving DecidableEq, Repr

/-- A region of the cellar partition (R323). -/
structure Region where
  type : Nat
  inst : Nat
  offset : Nat
  length : Nat
deriving DecidableEq, Repr

/-- A loss-map entry (R353). `closed`: the END stamp once closed. -/
structure LossEntry where
  entry : Nat
  cause : Nat
  hpc : Nat
  opened : Nat
  first : List (Option Nat)
  last : List (Option Nat)
  closed : Option Nat
  /-- its OPEN write has been acknowledged -/
  acked : Bool
deriving DecidableEq, Repr

/-- Why a pseudo-channel does not serve (R333, R351, R355). -/
inductive PcState where
  | ok | frozen | reinit | retired
deriving DecidableEq, Repr

/-- A planned stall that waits for the gates of R335. -/
inductive Stall where
  | freq (mask rate : Nat)
  | repair (hpc bank row : Nat)
deriving DecidableEq, Repr

/-- The hidden state of the cellar, its controllers and the landing buffer. -/
structure CelState where
  regions : List Region := []
  /-- landing queues by cellar pseudo-channel -/
  queues : Table Nat (List RingWrite) := []
  /-- ring writes in the TCLK-to-MCLK queues of the stacks, oldest first (R25) -/
  cross : List RingWrite := []
  /-- ring writes issued and not acknowledged -/
  issued : List RingWrite := []
  capped : List Nat := []
  /-- the ring writer writes -/
  running : Bool := false
  pc : Table Nat PcState := []
  lossNext : Nat := 0
  losses : List LossEntry := []
  anchorNext : Nat := 0
  /-- anchors whose writes are issued, oldest first -/
  anchors : List (List Byte) := []
  /-- blocks discarded since the last LND_DISCARD event and the time of the last discard -/
  discards : Nat := 0
  lastDiscard : Option Nat := none
  corrections : Nat := 0
  lastCorr : Option Nat := none
  /-- planned stall in progress, waiting ones, and when the last one ended -/
  stall : Option Stall := none
  /-- deferred stalls, each with the cycle of its last attempt -/
  waiting : List (Stall × Nat) := []
  stallEnd : Option Nat := none
  stallStart : Nat := 0
  /-- stacks in self-refresh: CEL_STATUS.ASLEEP -/
  asleep : Nat := 0
  /-- HBM pseudo-channels of corrected reads that are not counted yet (R343) -/
  corrPend : List Nat := []
  /-- commands put into the history so far: the model's own count, behind the free cycle of each -/
  cmds : Nat := 0
  /-- refreshes owed by each HBM pseudo-channel (R340) -/
  owed : Table Nat Nat := []
  /-- command history of each HBM pseudo-channel, oldest first (R351, R359) -/
  history : Table Nat (List HistCmd) := []
  /-- diagnosis of each frozen pseudo-channel: (CEL_DIAG_ADDR, CEL_DIAG_SYND) -/
  diag : Table Nat (Nat × Nat) := []
  /-- times at which each pseudo-channel froze (R573) -/
  freezes : Table Nat (List Nat) := []
  /-- spare rows used per (hpc*64 + bank); rows repaired (soft) as (hpc, bank, row) -/
  rows : Table Nat Nat := []
  soft : List (Nat × Nat × Nat) := []
  /-- the stacks have power and the soft repairs are in force in them (R345) -/
  softOn : Bool := false
  /-- scrub passes in which a row needed a correction, by (hpc*64+bank)*65536+row (R344): how many,
  and the pass of the latest; the pass that each pseudo-channel is in -/
  scrub : Table Nat (Nat × Nat) := []
  scrubPass : Table Nat Nat := []
  /-- cellar pseudo-channels that the pantry has moved: h to its reserve 136 to 143 (R505, R506) -/
  moved : Table Nat Nat := []
  /-- the RING_GIB under which blocks below FLOOR_k were written (R328) -/
  oldGib : Nat := 0
deriving DecidableEq, Repr

/-! ## Tiles (chapters 5, 6, 8 and 9) -/

/-- An address register (R142). -/
structure AReg where
  addr : Nat := 0
  base : Nat := 0
  len : Nat := 0x180000
  step : Int := 0
  mode : Nat := 0
deriving DecidableEq, Repr

/-- A level of the block-repeat stack (R155): first and last address of the body, passes left, and the
call depth at which it was opened. -/
structure RepLevel where
  first : Nat
  last : Nat
  left : Nat
  depth : Nat
deriving DecidableEq, Repr

/-- Where an item of the output queue goes: a Hall route (SPOUT, SIG), a physical address (XMIT), an
exchange route (XCH). -/
inductive ItemDest where
  | route (r : Nat)
  | phys (addr : Nat)
  | exchange (r : Nat)
deriving DecidableEq, Repr

/-- An item that has left a tile on a Hall route and has not arrived: the route's KIND and TARGET, and its bytes (R196). -/
structure HallItem where
  kind : Nat
  target : Nat
  bytes : List Byte
deriving DecidableEq, Repr

/-- An item of the output queue (R160); `muted`: the output cut discards it (R502); `since`: the sample from which its
data may be made (R219). -/
structure OutItem where
  dest : ItemDest
  bytes : List Byte
  muted : Bool
  since : Nat := 0
deriving DecidableEq, Repr

/-- A request of XLD that has not landed (R161): physical source, the destination register as it was at issue, 64-byte
units. -/
structure XldReq where
  src : Nat
  dst : AReg
  units : Nat
deriving DecidableEq, Repr

/-- A receive ring (R264, R265): units arrived and not claimed, units claimed, next unit to write. -/
structure XRing where
  fill : Nat := 0
  claimed : Nat := 0
  next : Nat := 0
deriving DecidableEq, Repr

/-- The NCO pair before the latest change, and the sample index of the change (R226). -/
structure NcoOld where
  phOfs : Nat
  freq : Nat
  from_ : Nat
deriving DecidableEq, Repr

/-- What the spare map assigns to a tile: its group at power-up (R133), none, or group g. -/
inductive Assign where
  | home | none | serves (g : Nat)
deriving DecidableEq, Repr

/-- The state of one Garnet tile that its GT registers do not hold.  Tables read 0 for unlisted keys. -/
structure Tile where
  /-- GT_STATUS.STATE: 0 idle, 1 running, 2 shadow, 3 halted, 4 faulted, 5 loading -/
  state : Nat := 0
  haltCause : Nat := 0
  assign : Assign := .home
  /-- pending events (R157) and event mask (R143) -/
  evp : Nat := 0
  evm : Nat := 31
  /-- general registers g1 to g31 and flags (R141) -/
  g : Table Nat Nat := []
  z : Bool := false
  n : Bool := false
  c : Bool := false
  v : Bool := false
  /-- address registers (R142) -/
  a : Table Nat AReg := []
  pc : Nat := 0
  calls : List Nat := []
  reps : List RepLevel := []
  /-- the TCLK cycle at which the program started (CYC counts from it) -/
  started : Nat := 0
  /-- EXP and PASS_MSB of the last transform -/
  exp : Int := 0
  passMsb : Nat := 0
  /-- read pointer and write index of each lane (R135) -/
  rp : Table Nat Nat := []
  wi : Table Nat Nat := []
  epIdx : Nat := 0
  swIdx : Nat := 0
  frIdx : Nat := 0
  /-- high words captured by RDS (R143), by index of the low word -/
  capt : Table Nat Nat := []
  /-- it restarts for a replay, with COMMIT set in its EVP (R270) -/
  goStart : Bool := false
  /-- output queue, candidate port (code, time), requests of XLD -/
  out : List OutItem := []
  /-- the lowest RP of the lanes in use when the last item was queued, or at the start (R219) -/
  outRp : Nat := 0
  cands : List (Nat × Nat) := []
  xlds : List XldReq := []
  /-- items on the exchange that have left and not arrived, oldest first: target group, route, bytes (R264) -/
  xsent : List (Nat × Nat × List Byte) := []
  /-- the cycles at which the targets of writes that have left acknowledge them (R161) -/
  acks : List Nat := []
  /-- the ladder reloads it in the next cycle: it has faulted and no spare takes its group (R572) -/
  ladder : Bool := false
  /-- items that the tile queues now are discarded (R502) -/
  muted : Bool := false
  /-- output drops since the last OUT_DROP, and when the last drop came -/
  drops : Nat := 0
  lastDrop : Option Nat := none
  xrxDrops : Nat := 0
  xrxLast : Option Nat := none
  /-- parameter bank: in force, staged ST words, LV words waiting, and the LV and pair bitmaps (R144) -/
  params : Table Nat Nat := []
  pStaged : Table Nat Nat := []
  pLv : Table Nat Nat := []
  pHeld : Table Nat Nat := []
  lvMap : Nat := 0
  pairMap : Nat := 0
  /-- NCO phase offsets and the pairs before the latest change, by x = 4l + n (R226) -/
  phOfs : Table Nat Nat := []
  ncoOld : Table Nat (Option NcoOld) := []
  /-- DECIM histories by 12l + slot, newest input first (R228); ARMED of each lane (R293) -/
  slots : Table Nat (List (Int × Int)) := []
  armed : Nat := 0
  xrings : Table Nat XRing := []
  /-- boundary sample whose block EPOCH waits for, and the switch-point sample that COMMIT waits for -/
  epDue : Option Nat := none
  swDue : Option Nat := none
  /-- the tile reloads at the switch point; it has taken its new GT fields -/
  reload : Bool := false
  gtTaken : Bool := false
  /-- a spare that loads for a migration or a late group starts at this frame boundary (R501, R503) -/
  startAt : Option Nat := none
  /-- the output cut of a migration takes place at the first frame boundary after this one (R502) -/
  cutAfter : Option Nat := none
deriving DecidableEq, Repr

/-! ## Combiner, records and retrieval (chapter 10) -/

/-- An event on a cell's timeline: cycle from which it is present, carried time (2^-80 s), late, source. -/
structure CellEvent where
  cycle : Int
  time : Nat
  late : Bool
  src : Nat
deriving DecidableEq, Repr

/-- The timeline of one cell: events of each of its 16 inputs; late events since the last CELL_LATE
event and when the last late event came. -/
structure Cell where
  inputs : Table Nat (List CellEvent) := []
  /-- the timeline as the cell before the last switch point sees it (R289) -/
  oldInputs : Table Nat (List CellEvent) := []
  /-- the latest timeline cycles at which the cells in force, and those before the last switch point, fired -/
  fired : Option Int := none
  firedOld : Option Int := none
  lateCount : Nat := 0
  lastLate : Option Nat := none
deriving DecidableEq, Repr

/-- A firing: reference time, firing cell, cause (R306), late. -/
structure Firing where
  time : Nat
  cell : Nat
  cause : Nat
  late : Bool
deriving DecidableEq, Repr

/-- The window of one channel in a segment or retrieval: first sample, samples, first block, blocks,
and the blocks copied so far (oldest first). -/
structure Window where
  ch : Nat
  s0 : Nat
  len : Nat
  first : Nat
  blocks : Nat
  done : List (List Byte)
deriving DecidableEq, Repr

/-- What a copy job is for: a segment of definition d, or a retrieval request. -/
inductive JobKind where
  | segment (d : Nat)
  | retrieval (req dest : Nat) (remote : Option Nat)
deriving DecidableEq, Repr

/-- A copy job of the record engine (R303, R308, R309): its firing, windows, and how it went. -/
structure Job where
  kind : JobKind
  fire : Firing
  windows : List Window
  /-- RETRIGGER extension in ns; for a retrieval its LEN_NS -/
  ext : Nat
  triggers : Nat
  /-- the window is complete in the ring: the segment has closed (R301) -/
  closed : Bool
  /-- the pin broke -/
  broken : Bool
  /-- status judged at the start of a retrieval (R314) -/
  status : Nat
  /-- ring configuration when the pin was taken: RING_GIB and OFS by die (R328) -/
  gib : Nat
  /-- time of sample 0 of the first block that is not copied, once that is known (R315) -/
  cut : Option Nat := none
  /-- the TCLK cycle at which the segment was made -/
  made : Nat := 0
deriving DecidableEq, Repr

/-- A segment that is complete: its header data and its windows with their blocks. -/
structure Segment where
  fire : Firing
  windows : List Window
  ext : Nat
  triggers : Nat
  overrun : Bool
deriving DecidableEq, Repr

/-- The state of one record definition (R299 to R302). -/
structure Def where
  queue : List Firing := []
  /-- between the close of a segment and its re-arm -/
  rearming : Bool := false
  /-- segments of the record being made -/
  segs : List Segment := []
  /-- TCLK cycle of the first segment of the record being made -/
  since : Option Nat := none
  /-- a switch point has changed the definition; its record closes when the segments of firings before t_B are
  complete (R302) -/
  switched : Bool := false
  /-- drops since the last REC_DROPPED, and when the last drop came -/
  drops : Nat := 0
  lastDrop : Option Nat := none
deriving DecidableEq, Repr

/-- A record on its way into the store (R311). -/
structure RecordWrite where
  recnum : Nat
  offset : Nat
  bytes : List Byte
  index : List Byte
  failed : Bool
deriving DecidableEq, Repr

/-- A record that the store holds. -/
structure StoredRecord where
  recnum : Nat
  offset : Nat
  length : Nat
deriving DecidableEq, Repr

/-- The hidden state of the combiner and the record engine. -/
structure TrgState where
  cells : Table Nat Cell := []
  /-- level changes by source code, newest first: (cycle, level) -/
  levels : Table Nat (List (Int × Bool)) := []
  /-- running TOUT pulses: the TCLK cycle at which each ends (R288) -/
  tout : Table Nat Nat := []
  /-- the instant (ns) at which each timer fired last (R289) -/
  timers : Table Nat Nat := []
  /-- firings on their way to the cells above: cycle of arrival, cell, reference time (R288) -/
  links : List (Nat × Nat × Nat) := []
  /-- cells and definitions in force before the last switch point, and its boundary time (R289) -/
  oldRegs : Table RegKey Word := []
  oldUntil : Nat := 0
  defs : Table Nat Def := []
  jobs : List Job := []
  recnum : Nat := 0
  /-- records whose bytes are being written, and whose index entries are being written -/
  writing : List RecordWrite := []
  indexing : List RecordWrite := []
  stored : List StoredRecord := []
  writePtr : Nat := 0
  idxNext : Nat := 0
  /-- fabric message sequence number (R459) -/
  seq : Nat := 0
deriving DecidableEq, Repr

/-! ## Engine programs (chapter 7) -/

/-- A section of an engine program image (R190): type, instance, content, and its entry's number and OFFSET
in the image. -/
structure Section where
  type : Nat
  inst : Nat
  bytes : List Byte
  idx : Nat := 0
  off : Nat := 0
deriving DecidableEq, Repr

/-- What the device keeps of an image beside its sections: DIGEST, BOOT_OK, PROG_VERSION, and whether an
owner key signed it. -/
structure ImageInfo where
  digest : List Byte
  bootOk : Bool
  signed : Bool
  version : Nat
deriving DecidableEq, Repr

/-- A commit (R206): the switch point asked for (none: NEXT), and once accepted its earliest time. -/
structure Commit where
  epoch : Option Nat
  /-- validation has ended and the commit is accepted -/
  accepted : Bool
  /-- OT96 time (2^-80 s) from which a boundary serves -/
  after : Nat
  /-- the housekeeping commits the boot program (R221) -/
  boot : Bool
deriving DecidableEq, Repr

/-- The engine program in force, the staging bank's sections, and commands in progress. -/
structure ProgState where
  force : List Section := []
  forceInfo : Option ImageInfo := none
  forceImage : List Byte := []
  staged : List Section := []
  stagedInfo : Option ImageInfo := none
  stagedImage : List Byte := []
  /-- parameter words that the host staged, by 256 × group + word; those of the image stand in the sections
  (R205) -/
  params : Table Nat Nat := []
  /-- where the image gives bits of a staged register, the latest first: mask, the section's number, the byte of the
  image -/
  origin : Table RegKey (List (Nat × Nat × Nat)) := []
  /-- GT fields that the host staged before the switch point and that tiles have not swapped yet -/
  gtTake : Table RegKey Word := []
  /-- the image that LOAD copied and that is being validated, with its SYS_IMG_LEN -/
  loading : Option (Nat × List Byte) := none
  commit : Option Commit := none
  /-- RESUME: boundaries from this OT96 time on leave HELD (R219) -/
  resume : Option Nat := none
  /-- the boundary sample of each octant from which on outputs restarted (R219) -/
  restart : Table Nat Nat := []
  /-- a switch is running: its boundary time, its cycle, its epoch, and groups left without a tile -/
  switching : Bool := false
  switchOt : Nat := 0
  switchAt : Nat := 0
  switchEpoch : Nat := 0
  late : List Nat := []
  /-- STORE_BOOT is writing; the boot-program area of the Attic -/
  storing : Option (List Byte) := none
  boot : List Byte := []
deriving DecidableEq, Repr

/-! ## Turn tracker and replay (chapter 9) -/

/-- The turn tracker (R257 to R261). -/
structure TurnState where
  /-- turn sample of turn 0 per die (SYNC octants) -/
  base : Table Nat Nat := []
  outlier : Bool := false
  /-- last confirmed turn sample -/
  confirmed : Nat := 0
  /-- the turn sample of the lowest SYNC octant from which predicted turns without a confirming edge are counted -/
  countFrom : Nat := 0
  /-- TURN_LOST has been raised since -/
  lost : Bool := false
deriving DecidableEq, Repr

/-- A replay of one octant (R269 to R273). -/
structure Replay where
  running : Bool := false
  src : Nat := 0
  next : Nat := 0
  left : Nat := 0
  fed : Nat := 0
  stop : Bool := false
  gib : Nat := 0
  rate : Nat := 0
  lastFeed : Nat := 0
  /-- stall gathered, in TCLK cycles -/
  stall : Nat := 0
deriving DecidableEq, Repr

end Sys2Proof.Machine
end

