-- ==== Sys2Proof/Machine/UnitTypes.lean ====
section
/-! DEFINITION. The parts of the state of the display, host-interface, storage, fabric, calibration, pantry,
power, security and recovery units (chapters 12 to 20) that are not control registers. -/

namespace Sys2Proof.Machine

/-- Occurrences counted for an event that is raised at the first one after a pause: how many since the last
event, and the TCLK cycle of the last occurrence. -/
structure Burst where
  n : Nat := 0
  last : Option Nat := none
deriving DecidableEq, Repr

/-- One more occurrence at cycle `now`: is the event raised, with which count, and the burst after it. -/
def Burst.hit (b : Burst) (now gap k : Nat) : Bool × Nat × Burst :=
  let fresh := match b.last with
    | some l => decide (l + gap ≤ now)
    | none => true
  (fresh, b.n + k, ⟨if fresh then 0 else b.n + k, some now⟩)

/-! ## Opal renderers and scan-outs (chapter 12) -/

/-- A frame buffer of a renderer: being written, and the scan-outs on which it is pending, front or
retiring, each with the address that the frame was written at. -/
structure OplBuf where
  writing : Bool := false
  pending : List (Nat × Nat) := []
  front : List (Nat × Nat) := []
  retiring : List (Nat × Nat) := []
deriving DecidableEq, Repr

/-- The hidden state of one physical renderer.  A cell is numbered 256 × column + row. -/
structure Opal where
  queue : List (List Byte) := []
  cells : Table Nat Nat := []
  /-- SEQ of the last record of its channel (R362) -/
  lastSeq : Option Nat := none
  /-- records plotted since the last decay step and since the last request of FRAME_SRC 0 -/
  ticks : Nat := 0
  records : Nat := 0
  /-- a decay step is due (R366); a frame request waits since this cycle (R371) -/
  decayDue : Bool := false
  due : Option Nat := none
  /-- the TCLK cycle of the last accepted request -/
  lastReq : Option Nat := none
  bufs : Table Nat OplBuf := []
  /-- frames being written, oldest first: the buffer and its address, and what the cells held at the request and after
  each change since (R372) -/
  frames : List ((Nat × Nat) × List (Table Nat Nat)) := []
  drop : Burst := {}
  fence : Burst := {}
deriving DecidableEq, Repr

/-- The hidden state of one scan-out. -/
structure Scan where
  /-- the committed bases that wait for a latch, each with the TCLK cycle of its commit: the last, and one before it
  that a latch in the cycle of the last would still take (R379) -/
  base : List (Nat × Nat) := []
  /-- a latch has taken a base -/
  based : Bool := false
  /-- replaced bases whose fetches have not all returned, oldest first, with the last frame that showed each -/
  retiring : List (Nat × Nat) := []
  /-- overlay windows latched: (VID_OVL_CFG, VID_OVL_POS) of windows 0 to 3 -/
  ovl : List (Nat × Nat) := []
  /-- a latch has begun a frame, and when its first active pixel is due, in 2^-80 s -/
  live : Bool := false
  start : Nat := 0
  /-- the lines fetched and composed so far; those whose fetch is under way, each with its 64-byte units as they stood
  when it began (R382) -/
  lines : List (List Nat) := []
  early : List (List (Nat × List Byte)) := []
  /-- the fetch engine read nothing during a part of the frame (R386) -/
  unread : Bool := false
  /-- lines sent black from a pixel on -/
  black : List (Nat × Nat) := []
  training : Bool := false
  under : Burst := {}
deriving DecidableEq, Repr

/-- A swap of a logical renderer to the spare (R504): it waits for the old renderer's decay step, the cells
are being copied, or both renderers plot. -/
inductive OplSwapStep where
  | waiting | copying | both
deriving DecidableEq, Repr

/-- Why a spare is brought in (R525): a wear candidate, a failure, a host command, or rotation (R515, R517). -/
inductive SwapCause where
  | wear | failure | host | rotation
deriving DecidableEq, Repr

structure OplSwap where
  logical : Nat
  old : Nat
  new : Nat
  step : OplSwapStep
  cause : SwapCause
  retire : Bool := false
deriving DecidableEq, Repr

/-! ## DMA (chapter 13) -/

/-- Where a channel stands: idle or halted; about to read the LINK word of its descriptor; about to fetch the
descriptor; parked on the LINK word or on a descriptor not owned; moving data; waiting for the read-back. -/
inductive DmaPhase where
  | idle | relink | fetch | parkLink | parkOwn | data | readback
deriving DecidableEq, Repr

/-- The hidden state of one DMA channel: the space of its chain, its descriptor's address and bytes, the doorbell
count C, the bytes done, and the status with which the descriptor is being ended early (STOPPED, PWR_ABORT). -/
structure Dma where
  phase : DmaPhase := .idle
  space : Nat := 0
  addr : Nat := 0
  desc : List Byte := []
  count : Nat := 0
  done : Nat := 0
  ending : Option Nat := none
deriving DecidableEq, Repr

/-- The domains that drain: memory, PE0, PE1; for each that drains, the descriptors aborted so far (R406). -/
structure DmaState where
  chans : Table Nat Dma := []
  draining : Table Nat Nat := []
deriving DecidableEq, Repr

/-! ## Streams and the record log (chapter 14) -/

/-- An item in a stream's region: the WP at which it starts, the bytes it takes there, its length, its ITEM_SEQ and
when it arrived (OT96, 2^-80 s). -/
structure StmItem where
  start : Nat
  size : Nat
  len : Nat
  seq : Nat
  arr : Nat
deriving DecidableEq, Repr

/-- A declared stream (R416, R417). -/
structure Stream where
  wp : Nat := 0
  seq : Nat := 0
  items : List StmItem := []
deriving DecidableEq, Repr

/-- What the subscriber table does not show of a subscriber: RD, bytes of the item at RD already sent (none: it
is not being sent), drops to report with the next item, the token bucket in 1/1600 byte and the cycle of its last
filling (R425), the cause of a leave that waits for the item, joined from a seed, next-hop requests (R428), the
next ring entry, whether it waits at it, and the CTRL that waits for the read-back of its data (R431), drops since the last
STM_DROP. -/
structure Sub where
  rd : Nat := 0
  sent : Option Nat := none
  drops : Nat := 0
  tokens : Int := 0
  filled : Nat := 0
  leaving : Option Nat := none
  seed : Bool := false
  hopTry : Option Nat := none
  hopFailed : Bool := false
  ring : Nat := 0
  waiting : Bool := false
  back : Option Nat := none
  burst : Burst := {}
deriving DecidableEq, Repr

/-- A cached next hop: port, version 6, address, MAC address, the cycle at which it was learned. -/
structure NextHop where
  port : Nat
  v6 : Bool
  ip : Nat
  mac : Nat
  since : Nat
deriving DecidableEq, Repr

/-- A command to a drive (R432): a Write of bytes at a byte address, a Flush, a deallocation of a range. -/
inductive NvmOp where
  | write (a : Nat) (bs : List Byte)
  | read (a n : Nat)
  | flush
  | dealloc (a n : Nat)
deriving DecidableEq, Repr

/-- A command with the tries that failed and the cycle at which it was issued. -/
structure NvmCmd where
  op : NvmOp
  tries : Nat := 0
  issued : Option Nat := none
deriving DecidableEq, Repr

/-- The hidden state of a drive of a running set. -/
structure NvmDrive where
  segCount : Nat := 0
  xfer : Nat := 262144
  /-- the superblock's GENERATION, LAST_CLOSED and LAST_SLOT -/
  gen : Nat := 0
  lastClosed : Option Nat := none
  lastSlot : Nat := 0
  /-- slots in use; the next SEG_SEQ and slot -/
  used : Nat := 0
  nextSeq : Nat := 0
  nextSlot : Nat := 0
  /-- the open segment: SEG_SEQ and slot, bytes filled, checkpoints written, the first record of each 256 KiB by its
  number (segment offset, RECORD_SEQ, arrival time) -/
  seg : Option (Nat × Nat) := none
  fill : Nat := 0
  ckpts : Nat := 0
  entries : Table Nat (Nat × Nat × Nat) := []
  /-- bytes gathered for the next Write and where they go -/
  buf : List Byte := []
  bufAt : Nat := 0
  cmds : List NvmCmd := []
  /-- records not completed: byte address, size, subscriber -/
  recs : List (Nat × Nat × Nat) := []
  /-- the OT96 time at which the open segment was opened, until its header leaves with the first record -/
  opened : Option Nat := none
deriving DecidableEq, Repr

/-- A log set: SET_ID and the next RECORD_SEQ. -/
structure NvmSet where
  setId : List Byte := []
  /-- unique ID of the device that formatted the set (R436) -/
  uid : Nat := 0
  recSeq : Nat := 0
deriving DecidableEq, Repr

/-- The hidden state of the stream engine, its PTP servo and the NVMe host. -/
structure StmState where
  streams : Table Nat Stream := []
  subs : Table Nat Sub := []
  hops : List NextHop := []
  /-- when the bytes that the engine has sent have left it, in 1/100 cycle (R426) -/
  sentTo : Nat := 0
  /-- masters heard with the cycle of their last Announce; the master chosen -/
  masters : List (PtpMaster × Nat) := []
  master : Option PtpPort := none
  /-- t1 and t2 of the Sync whose delay is being measured -/
  sync : Option (Int × Int) := none
  sets : Table Nat NvmSet := []
  drives : Table Nat NvmDrive := []
deriving DecidableEq, Repr

/-! ## The fabric (chapter 15) -/

/-- The hidden state of a fabric port: the bring-up step in progress (R445; 0 none); the neighbour's UID and port;
the lanes in use; the device part of asym in ps (R463); the last hello; failed retries of one flit in a row (R444);
the latest 16 offsets and delays, newest first, in 2^-80 s (R462). -/
structure FabPort where
  step : Nat := 0
  uid : Nat := 0
  rport : Nat := 0
  lanes : Nat := 0xF
  asym : Int := 0
  lastHello : Option Nat := none
  fails : Nat := 0
  /-- the messages of the latest 256 flits sent, newest first; the one whose flit failed last (R444) -/
  replay : List (List Nat × List Byte) := []
  again : Option (List Nat × List Byte) := none
  offsets : List Int := []
  delays : List Int := []
deriving DecidableEq, Repr

/-- The duplicate filter of a source address (R461): INC, the highest SEQ, the SEQ values seen in the window. -/
structure FabFilter where
  inc : Nat
  high : Nat
  seen : List Nat
deriving DecidableEq, Repr

/-- A retrieval result on its way to another module (R467): the module, REQ_ID, the result, the bytes sent, the
completion entry. -/
structure FabXfer where
  dst : Nat
  req : Nat
  data : List Byte
  off : Nat
  entry : List Byte
deriving DecidableEq, Repr

/-- The hidden state of the fabric unit. -/
structure FabState where
  /-- it runs, from BOOT onwards; its incarnation, LSA_SEQ and address candidates (R450, R451, R454) -/
  on : Bool := false
  inc : Nat := 0
  lsaSeq : Nat := 0
  started : Nat := 0
  firstNbr : Option Nat := none
  ports : Table Nat FabPort := []
  /-- the LSAs of other modules with the cycle of their last refresh; those that the installed routes and trees
  were computed from, this module's own among them (R456) -/
  db : List (FabLsa × Nat) := []
  inst : List FabLsa := []
  filters : Table Nat FabFilter := []
  /-- grandmaster candidates heard, with the cycle; the grandmaster (none: this module) -/
  cands : List (FabGm × Nat) := []
  gm : Option FabGm := none
  /-- the time parent of the last interval (R465) -/
  parent : Option Nat := none
  /-- receive-ring bytes granted and not arrived, by source; requests that wait, oldest first (R466) -/
  granted : Table Nat Nat := []
  /-- receive-ring entries that wait, the first one to be written again after an error, and its last try (R33) -/
  rxHeld : List (List Byte) := []
  rxTry : Nat := 0
  asks : List (Nat × Nat) := []
  /-- credit held, and credit asked for and not received, by destination -/
  credit : Table Nat Nat := []
  asked : Table Nat Nat := []
  /-- retrieval requests of other modules that wait: entries of the request ring ahead, source, entry (R467) -/
  rtvWait : List (Nat × Nat × List Byte) := []
  xfers : List FabXfer := []
deriving DecidableEq, Repr

/-! ## Calibration (chapter 16) -/

/-- An entry of a calibration set (R487): the trims of the three ranges, TERM, T_CAL in 0.1 °C. -/
structure CalEntry where
  r0 : Nat := 0
  r1 : Nat := 0
  r2 : Nat := 0
  term : Nat := 0
  tcal : Int := 0
deriving DecidableEq, Repr

/-- A run, APPLY or pantry swap that waits or is in progress: the slice; asked by the host; the cycle at which it was
queued; CAL_OVERDUE has been raised. -/
inductive CalTask where
  | run | apply | swap (cause : SwapCause)
deriving DecidableEq, Repr

structure CalJob where
  slice : Nat
  task : CalTask
  host : Bool
  since : Nat
  overdue : Bool := false
deriving DecidableEq, Repr

/-- How a job runs (R477): in place, hitless with a spare, or with a hold. -/
inductive CalWay where
  | inPlace
  | hitless (spare : Nat)
  | hold (start stop : Nat)
deriving DecidableEq, Repr

/-- The job in progress on a die: its channel; CAL_DIE_STAT.PHASE; the entry before the result was loaded; the run's
result has come, and whether it changed the trims; step 6 is being repeated (R479); step 3 or 7 waits for the block
boundary (R478); for a result that was loaded, the last run and the rejects in a row before it (R479). -/
structure CalCur where
  job : CalJob
  way : CalWay
  chan : Option Nat
  phase : Nat
  old : CalEntry
  done : Bool := false
  changed : Bool := false
  again : Bool := false
  await : Bool := false
  undo : Option (Option Nat × Nat) := none
  /-- the cycle at which the phase began (R473, R478) -/
  since : Nat := 0
deriving DecidableEq, Repr

/-- The calibration engine of a die. -/
structure CalDie where
  queue : List CalJob := []
  cur : Option CalCur := none
  /-- CAL_HITFUL has been raised since the die last had a free spare (R485) -/
  hitful : Bool := false
deriving DecidableEq, Repr

/-- The calibration sets and engines: volatile set, host buffer and Attic set by entry 34k + s; the cycle of the
last accepted run of each; comparison failures in a row; the arming of COMMIT and the set being committed. -/
structure CalState where
  dies : Table Nat CalDie := []
  vol : Table Nat CalEntry := []
  host : Table Nat CalEntry := []
  attic : Table Nat CalEntry := []
  lastRun : Table Nat Nat := []
  cmpFails : Table Nat Nat := []
  armed : Option Nat := none
  committing : Option (Table Nat CalEntry) := none
deriving DecidableEq, Repr

/-! ## Power and housekeeping (chapter 18) -/

/-- Temperature sites and the sequencer's latest results: signed 0.01 °C by site; VALUE by input. -/
structure HkState where
  temps : Table Nat Int := []
  /-- entry of the running pass; an urgent request interrupted the pass (R546, R547) -/
  pos : Option Nat := none
  interrupted : Bool := false
  /-- urgent requests, the running one first; latest urgent reading of each input -/
  urgent : List Nat := []
  readings : Table Nat Nat := []
  overBurst : Burst := {}
  /-- the cycle from which each timer counts, by its number -/
  timers : Table Nat Nat := []
deriving DecidableEq, Repr

/-- A move of the phases to another input: 0 VIN_A, 1 VIN_B; since when; SWITCH_TO_A's cause (R534, R548). -/
structure PwrMove where
  dest : Nat
  since : Nat
  cause : Nat
deriving DecidableEq, Repr

/-- The hidden state of the supplies and the power sequences. -/
structure PwrState where
  move : Option PwrMove := none
  /-- qualifications that arrived while a move ran (R536) -/
  lowWaits : List Nat := []
  /-- the cycle from which VIN_A has been good while the device runs on VIN_B (R535) -/
  retFrom : Option Nat := none
  /-- the rail step of R541 in progress, 0 when none is -/
  rail : Nat := 0
  /-- the system image was asked to shut down at this cycle (R542) -/
  down : Option Nat := none
  /-- WAKE waits for a source; only WAKE leaves STANDBY -/
  wake : Bool := false
  hold : Bool := false
  /-- the cycle of the last over-temperature stop; sites above WARN (R544) -/
  stopAt : Option Nat := none
  above : List Nat := []
  /-- FAULT_N is driven low; RESET_N is low; the straps on GPIO0 to GPIO11 -/
  faultN : Bool := false
  resetLow : Bool := false
  strap : Nat := 0
deriving DecidableEq, Repr

/-! ## The pantry (chapter 17) -/

/-- A request that waits for the owner (R514): kind, unit, and the monitor row of R510. -/
structure PanAsk where
  kind : Nat
  unit : Nat
  monitor : Nat
deriving DecidableEq, Repr

/-- A swap that is to run: the row word of a unit of kind 8; `retire`: the unit is not to become a spare. -/
structure PanSwap where
  kind : Nat
  unit : Nat
  row : Nat := 0
  cause : SwapCause
  retire : Bool := false
deriving DecidableEq, Repr

/-- A tile migration (R501); `loaded`: step 1 has ended. -/
structure Migration where
  group : Nat
  old : Nat
  spare : Nat
  cause : SwapCause
  retire : Bool := false
  loaded : Bool := false
deriving DecidableEq, Repr

/-- A memory move (R505), or the replacement of a channel that cannot be copied (`dead`; R506). -/
structure MemMove where
  hpc : Nat
  reserve : Nat
  dead : Bool
  cause : SwapCause
  since : Nat
deriving DecidableEq, Repr

/-- A core swap that waits for the answer to OFFLINE (R509, R568). -/
structure CoreSwap where
  core : Nat
  spare : Nat
  cause : SwapCause
  since : Nat
deriving DecidableEq, Repr

/-- The hidden state of the pantry. -/
structure PanState where
  /-- role bytes (R524) of units of kinds 1 to 5 that differ from the identity map, by 1024 × kind + unit -/
  roles : Table Nat Nat := []
  asks : List PanAsk := []
  /-- thresholds that a unit is above, as (kind, unit, threshold) -/
  crossed : List (Nat × Nat × Nat) := []
  /-- thresholds that a unit has ever crossed -/
  seen : List (Nat × Nat × Nat) := []
  /-- units held back by DECLINE: kind, unit, the TCLK cycle -/
  declined : List (Nat × Nat × Nat) := []
  /-- swaps that wait for their spare or their lane, or for a switch point (R499, R209) -/
  waiting : List PanSwap := []
  /-- the migration of each analysis die -/
  migs : Table Nat Migration := []
  move : Option MemMove := none
  lane : Option PanSwap := none
  core : Option CoreSwap := none
  /-- the next group of each die, and the next logical renderer, to rotate (R515, R517) -/
  rotNext : Table Nat Nat := []
  oplNext : Nat := 0
  /-- a rotation that ROTATE_NOW started is in progress -/
  rotNow : Bool := false
  /-- the kind and unit whose swap APPROVE started: it runs under PAN_CMD_STAT.BUSY (R526) -/
  approved : Option (Nat × Nat) := none
  /-- corrections since power-up, by tile and by HBM pseudo-channel; what they were when the hour began and when
  the last telemetry record was written -/
  tileEcc : Table Nat Nat := []
  hbmCorr : Table Nat Nat := []
  hourTile : Table Nat Nat := []
  hourHbm : Table Nat Nat := []
  hourCore : Table Nat Nat := []
  telHbm : Table Nat Nat := []
  /-- self-tests passed, and the last result (0 passed, 1 + code failed), by tile -/
  tests : Table Nat (Nat × Nat) := []
  /-- control-store rows with a corrected error, by tile; spare rows used (R170, R507) -/
  csBad : Table Nat (List Nat) := []
  csUsed : Table Nat Nat := []
  /-- rows whose repair the host asked for: HBM pseudo-channel and row word -/
  rowHost : List (Nat × Nat) := []
  sample : PanSample := {}
  ageWarned : List Nat := []
  telNum : Nat := 0
  histNum : Nat := 0
  /-- the pantry history in the Attic, oldest first -/
  history : List (List Byte) := []
deriving DecidableEq, Repr

/-! ## The recovery ladder (chapter 20) -/

/-- The hidden state of the ladder: the cycles of step-2 runs by 1024 × source index + instance (R572); the cycle of
SAFE entry while the count of R575 runs; the cycles of warm resets and their number since power-up; the warm reset in progress began at; its step 5
waits for RESET_N; the cycle at which PWR_CYCLE_REQ was driven. -/
structure RcvState where
  steps : Table Nat (List Nat) := []
  safeAt : Option Nat := none
  warms : List Nat := []
  warmCount : Nat := 0
  warmAt : Option Nat := none
  waitPin : Bool := false
  cycleAt : Option Nat := none
  /-- the last warm reset was started by the ladder (R577) -/
  byLadder : Bool := false
deriving DecidableEq, Repr

/-! ## Boot and security (chapter 19) -/

/-- The owner record in the Attic (R558). -/
structure Owner where
  seq : Nat
  sigReq : Bool
  auto : Nat
  policy : Nat
  progMin : Nat
  keys : List (List Byte)
deriving DecidableEq, Repr

/-- The platform record in the Attic (R554): EN and ROLE of port p in bits 2p and 2p + 1 of `pci`, FAB_ADDR_CFG,
FAB_PORT_CFG.MODE of port p in bits [2p+1:2p] of `modes`, AUTO_START, and the MAC address of each port. -/
structure Platform where
  pci : Nat := 0
  /-- the link limits of the ports, coded as MAX_SPEED and MAX_WIDTH: R408 has the Attic hold them, R554 does not list them
  (log entry 106) -/
  pciLimits : List (Nat × Nat) := [(5, 3), (5, 3)]
  fabAddr : Nat := 0
  modes : Nat := 0
  autoStart : Bool := false
  macs : List Nat := [0, 0, 0, 0, 0, 0]
deriving DecidableEq, Repr

/-- What waits for the TRNG (R557): a debug challenge for a requester, a copy of such a request, a challenge that
SEC_DBG_CMD asked for, the fabric's incarnation, the SET_ID of a log set. -/
inductive TrngAsk where
  | challenge (src : CzSource) (req : Nat)
  | copy (conn : Nat) (req : Nat)
  | chalReg
  | fabric
  | format (n : Nat) (capacities : List (Fin 32 × Nat))
deriving DecidableEq, Repr

/-- A session of the CZ control protocol (R564 to R567): its connection, its SESSION_ID, the responses by REQ_ID,
oldest first, the severity from which events are pushed, and the cycle at which it ended. -/
structure Session where
  conn : Option Nat
  id : Nat
  cache : List (Nat × Nat × List Byte) := []
  floor : Option Nat := none
  ended : Option Nat := none
deriving DecidableEq, Repr

/-- The hidden state of Onyx and of the boot chain. -/
structure SecState where
  /-- the firmware slots: byte 2^29 × slot + offset; the slot record (R549, R551) -/
  flash : Table Nat Byte := []
  active : Nat := 0
  pend : Option Nat := none
  tries : Nat := 0
  /-- fuse counters (R555) -/
  fwSvn : Nat := 0
  ownerSeq : Nat := 0
  owner : Option Owner := none
  plat : Platform := {}
  /-- the firmware that runs: 0 A, 1 B, 2 recovery; its SVN; the ROM waits in recovery -/
  running : Option Nat := none
  svn : Nat := 0
  recovery : Bool := false
  /-- the recovery image in on-die SRAM -/
  image : List Byte := []
  bootsel : Nat := 0
  /-- the cycle from which the watchdog counts (R552) -/
  bootAt : Nat := 0
  osReady : Bool := false
  trngOk : Bool := false
  waits : List TrngAsk := []
  /-- the open challenge and the cycle at which it was drawn; the open scopes and when they close (R562) -/
  chal : Option (List Byte × Nat) := none
  scope : Nat := 0
  lifeEnd : Nat := 0
  unlocked : Bool := false
  /-- connections that have no session yet, and sessions -/
  conns : List Nat := []
  sessions : List Session := []
  /-- words of the JTAG mailbox that arrived, and response words that wait (R563) -/
  mboxIn : List (BitVec 32) := []
  mboxOut : List (BitVec 32) := []
deriving DecidableEq, Repr

end Sys2Proof.Machine
end

