-- ==== Sys2Proof/Machine/State.lean ====
section
/-! DEFINITION. The state of the device as plain data, the reasons a step can stop, and the state after
reset.  Registers, memory bytes and numbered units are sparse tables: what an unlisted key reads as is
`Reg.reset` for a register, 0 for a byte of memory, and the structure's default for a unit. -/

namespace Sys2Proof.Machine

/-- The reasons for which the model faults.  There is none: an access that the manual refuses completes
with a bus error, which is an effect (`Out.busError`), and an event that cannot occur changes nothing. -/
inductive Fault where
deriving DecidableEq, Repr

/-- The reasons for which the model refuses a command. -/
inductive Refusal where
  /-- raised by `exec` for a command that has no meaning yet; safe -/
  | notModelled (mnemonic : String)
deriving DecidableEq, Repr

/-- The device states (R4). -/
inductive DevState where
  | off | standby | boot | held | run | service | safe
deriving DecidableEq, Repr

/-- The whole device. -/
structure State where
  /-- the commands that wait, first in, first out -/
  pending : List Instr := []
  /-- TCLK cycles since power-up -/
  now : Nat := 0
  /-- draws of free values (the model's own field; no rule rests on it) -/
  free : Nat := 0
  /-- the device state (SYS_PRG_STATUS.STATE and PWR_STATUS.STATE show it) -/
  dev : DevState := .standby
  /-- control registers in force, by register and instance -/
  regs : Table RegKey Word := []
  /-- staged copies of ST fields written since they last took effect -/
  staged : Table RegKey Word := []
  /-- LV values accepted and waiting for the next frame boundary -/
  lv : Table RegKey Word := []
  /-- first registers of LV pairs, held (R216) -/
  held : Table RegKey Word := []
  /-- words captured by the last read of a low word (R13, R143) -/
  capt : Table RegKey Word := []
  /-- bytes of the 48-bit physical address space that are not registers -/
  mem : Table Nat Byte := []
  /-- what the device has sent out, newest first -/
  out : List Out := []
  evq : EvqState := {}
  jasper : RingState := {}
  completion : RingState := {}
  telemetry : RingState := {}
  time : TimeState := {}
  dies : Table Nat Die := []
  chans : Table Nat Chan := []
  /-- comparator outputs: 2 × channel + (0 ABOVE, 1 BELOW) -/
  cmps : Table Nat CmpOut := []
  clk : ClkState := {}
  tins : Table Nat Tin := []
  epoch : EpochState := {}
  cel : CelState := {}
  tiles : Table Nat Tile := []
  /-- items on Hall routes of kinds 1 to 3 that have left their tiles and not arrived (R196) -/
  hall : List HallItem := []
  prog : ProgState := {}
  trg : TrgState := {}
  turn : TurnState := {}
  replays : Table Nat Replay := []
  /-- renderers by physical number; the physical renderer of each logical one (unlisted: the same number);
  the swap in progress -/
  opals : Table Nat Opal := []
  oplMap : Table Nat Nat := []
  oplSwap : Option OplSwap := none
  scans : Table Nat Scan := []
  dma : DmaState := {}
  /-- the MSI-X table of PCIe port p, from byte 65,536 × p (R409) -/
  msix : Table Nat Byte := []
  stm : StmState := {}
  fab : FabState := {}
  cal : CalState := {}
  hk : HkState := {}
  pwr : PwrState := {}
  pan : PanState := {}
  rcv : RcvState := {}
  sec : SecState := {}
deriving DecidableEq, Repr

/-- The machine right after reset: every register at its reset value, nothing listed in memory. -/
def State.reset : State := {}

end Sys2Proof.Machine
end

