-- ==== Sys2Proof/Machine/Ops.lean ====
section
/-! DEFINITION. The operations that every unit shares: registers and their fields, memory, free values,
the event queue, rings, interrupts, device time.  Taking an exception has no counterpart in this block;
its place is taken by raising an event (`State.raise`) and delivering an interrupt (`State.irq`). -/

namespace Sys2Proof.Machine

/-- What a meaning answers. -/
abbrev Res := Host.Outcome State Fault Refusal

/-! ## Registers -/

/-- How many instances of a block there are (R29). -/
def Block.count (b : Block) : Nat :=
  match b with
  | .PCI => 2
  | .OPL => 17
  | .CNV => 8
  | .GT => 68
  | _ => 1

/-- How many instances a register has. -/
def Reg.count (r : Reg) : Nat := r.desc.dims.foldl (fun n d => n * d.1) r.desc.block.count

/-- The base address of instance n of a block (R29). -/
def Block.base (b : Block) (n : Nat) : Nat :=
  match b with
  | .SYS => 0x004000000000
  | .PWR => 0x004000010000
  | .CLK => 0x004000020000
  | .TDC => 0x004000030000
  | .EPO => 0x004000040000
  | .EVQ => 0x004000050000
  | .TRG => 0x004000060000
  | .CEL => 0x004000070000
  | .LND => 0x004000080000
  | .DMA => 0x004000090000
  | .STM => 0x0040000A0000
  | .NVM => 0x0040000B0000
  | .PCI => 0x0040000C0000 + n * 0x10000
  | .FAB => 0x0040000E0000
  | .CAL => 0x0040000F0000
  | .PAN => 0x004000100000
  | .SEC => 0x004000110000
  | .HK => 0x004000120000
  | .VID => 0x004000130000
  | .OPL => 0x004000200000 + n * 0x10000
  | .CNV => 0x004000400000 + n * 0x10000
  | .GT => 0x003000F00000 + n * 0x01000000

/-- The offset that the indices of an instance number give: the last index counts fastest. -/
def dimOffset : List (Nat × Nat) → Nat → Nat
  | [], _ => 0
  | d :: rest, i =>
    let n := rest.foldl (fun n e => n * e.1) 1
    i / n * d.2 + dimOffset rest (i % n)

/-- The address of a register instance. -/
def Reg.addr (r : Reg) (i : Nat) : Nat :=
  let n := r.desc.dims.foldl (fun n e => n * e.1) 1
  r.desc.block.base (i / n) + r.desc.offset + dimOffset r.desc.dims (i % n)

/-- The reset value of a register whose table gives one value for every instance. -/
def Reg.resetPlain (r : Reg) : Nat :=
  r.desc.fields.foldl (fun acc f => acc + f.reset * 2 ^ f.lo) 0

/-- The reset value of a register (R10): its table's, which for some registers depends on the
instance.  Fields that the table takes from the Attic, the fuses or the straps are as log entry 2 says. -/
def Reg.reset (r : Reg) (i : Nat) : Word :=
  match r with
  | .CNV_ID => BitVec.ofNat 32 (34 * 256 + i)
  | .TDC_IN_FUNC => BitVec.ofNat 32 (i * 2 ^ 24)
  | .OPL_CMAP => BitVec.ofNat 32 ((i % 256) * 0x100401)
  | .HK_ADC_SEQ =>
    BitVec.ofNat 32 (4 * i + (4 * i + 1) * 2 ^ 8 + (4 * i + 2) * 2 ^ 16 + (4 * i + 3) * 2 ^ 24)
  | .PWR_CMP_CFG =>
    BitVec.ofNat 32 (200 * 2 ^ 22 + 4 * 2 ^ 18 +
      (if i = 2 then 2 * 2 ^ 30 + 1650 else 1 * 2 ^ 30 + 1620))
  | .CAL_INFO => BitVec.ofNat 32 (2 ^ 31)
  | .CNV_SL_STATE => if 32 ≤ i % 34 then 1 else 0
  | _ => BitVec.ofNat 32 r.resetPlain

/-- The value in force of a register instance. -/
def State.reg (s : State) (r : Reg) (i : Nat) : Word := Table.getD s.regs (r, i) (r.reset i)

/-- Set the value in force of a register instance. -/
def State.setReg (s : State) (r : Reg) (i : Nat) (v : Word) : State :=
  { s with regs := Table.put RegKey.lt (r.reset i) s.regs (r, i) v }

/-- Read a field in force. -/
def State.fld (s : State) (f : Fld) (i : Nat) : Nat := bits (s.reg f.reg i).toNat f.hi f.lo

/-- Write a field in force. -/
def State.setFld (s : State) (f : Fld) (i v : Nat) : State :=
  s.setReg f.reg i (BitVec.ofNat 32 (withBits (s.reg f.reg i).toNat f.hi f.lo v))

/-- Is a one-bit field 1? -/
def State.flag (s : State) (f : Fld) (i : Nat) : Bool := s.fld f i == 1

/-- Set a one-bit field. -/
def State.setFlag (s : State) (f : Fld) (i : Nat) (b : Bool) : State := s.setFld f i (b2n b)

/-- Add to a saturating counter field. -/
def State.addFld (s : State) (f : Fld) (i n : Nat) : State :=
  s.setFld f i (satU (f.hi + 1 - f.lo) (s.fld f i + n))

/-- The staged value of a register: what the staging bank holds, else the value in force. -/
def State.stagedReg (s : State) (r : Reg) (i : Nat) : Word :=
  Table.getD s.staged (r, i) (s.reg r i)

/-- The staged value of a field. -/
def State.sfld (s : State) (f : Fld) (i : Nat) : Nat := bits (s.stagedReg f.reg i).toNat f.hi f.lo

/-- Put a value into the staging bank. -/
def State.stage (s : State) (r : Reg) (i : Nat) (v : Word) : State :=
  { s with staged := Table.insert RegKey.lt s.staged (r, i) v }

/-- The bits of the fields of an access type. -/
def Reg.mask (r : Reg) (p : Acc → Bool) : Nat :=
  r.desc.fields.foldl (fun m f => if p f.acc then m ||| (2 ^ (f.hi + 1) - 2 ^ f.lo) else m) 0

/-- The ST bits of a register instance; two words of STM_ETH_ADDR have reserved bits. -/
def Reg.stMask (r : Reg) (i : Nat) : Nat :=
  match r with
  | .STM_ETH_ADDR => if i % 12 = 5 then 2 ^ 30 - 1 else if i % 12 = 11 then 2 ^ 12 - 1 else 2 ^ 32 - 1
  | r => r.mask (fun a => a == .ST)

/-- The RW bits of a register instance; the high word of TDC_OT_SET has reserved bits (R9, R131). -/
def Reg.rwMask (r : Reg) (i : Nat) : Nat :=
  match r with
  | .TDC_OT_SET => if i = 1 then 2 ^ 16 - 1 else 2 ^ 32 - 1
  | r => r.mask (fun a => a == .RW)

/-- The bits of a register instance that come into force at a switch point: its ST fields, and the live fields that
the DISPLAY section gives (R205, R387). -/
def Reg.takeMask (r : Reg) (i : Nat) : Nat :=
  match r.desc.block with
  | .OPL | .VID => r.mask (fun a => a == .ST || a == .LV || a == .LVT)
  | _ => r.stMask i

/-- The bits of `new` under a mask put over those of `old`. -/
def mergeBits (mask old new : Nat) : Nat := old - (old &&& mask) + (new &&& mask)

/-- A staged word comes into force. -/
def State.takeWord (s : State) (k : RegKey) (v : Word) : State :=
  s.setReg k.1 k.2 (BitVec.ofNat 32 (mergeBits (k.1.takeMask k.2) (s.reg k.1 k.2).toNat v.toNat))

/-- A 64-bit value in a pair of registers. -/
def State.reg64 (s : State) (lo hi : Reg) (i : Nat) : Nat :=
  (s.reg lo i).toNat + (s.reg hi i).toNat * 2 ^ 32

/-- Set a 64-bit value in a pair of registers. -/
def State.setReg64 (s : State) (lo hi : Reg) (i v : Nat) : State :=
  (s.setReg lo i (BitVec.ofNat 32 v)).setReg hi i (BitVec.ofNat 32 (v / 2 ^ 32))

/-! ## Units -/

def State.die (s : State) (k : Nat) : Die := Table.getD s.dies k {}

def State.setDie (s : State) (k : Nat) (d : Die) : State := { s with dies := Table.set {} s.dies k d }

def State.chan (s : State) (c : Nat) : Chan := Table.getD s.chans c {}

def State.setChan (s : State) (c : Nat) (d : Chan) : State := { s with chans := Table.set {} s.chans c d }

def State.cmp (s : State) (x : Nat) : CmpOut := Table.getD s.cmps x {}

def State.setCmp (s : State) (x : Nat) (d : CmpOut) : State := { s with cmps := Table.set {} s.cmps x d }

/-- The settle interval of a comparator output begins (R63). -/
def State.cmpSince (s : State) (x : Nat) : State := s.setCmp x { s.cmp x with since := s.now }

def State.tin (s : State) (i : Nat) : Tin := Table.getD s.tins i {}

def State.setTin (s : State) (i : Nat) (d : Tin) : State := { s with tins := Table.set {} s.tins i d }

def State.tile (s : State) (n : Nat) : Tile := Table.getD s.tiles n {}

def State.setTile (s : State) (n : Nat) (t : Tile) : State := { s with tiles := Table.set {} s.tiles n t }

def State.setProg (s : State) (f : ProgState → ProgState) : State := { s with prog := f s.prog }

def State.def_ (s : State) (d : Nat) : Def := Table.getD s.trg.defs d {}

def State.setDef (s : State) (d : Nat) (x : Def) : State :=
  { s with trg := { s.trg with defs := Table.set {} s.trg.defs d x } }

def State.replay (s : State) (k : Nat) : Replay := Table.getD s.replays k {}

def State.setReplay (s : State) (k : Nat) (x : Replay) : State :=
  { s with replays := Table.set {} s.replays k x }

/-- The mode in force of octant k (R251). -/
def State.mode (s : State) (k : Nat) : Nat := s.fld SYS_OCT_STAT.MODE k

/-- Fold a state operation over the numbers below n. -/
def State.each (s : State) (n : Nat) (f : State → Nat → State) : State := (List.range n).foldl f s

/-- Fold a state operation over a list. -/
def State.over {α : Type} (s : State) (l : List α) (f : State → α → State) : State := l.foldl f s

/-- Apply an operation only if a condition holds. -/
def State.when (s : State) (c : Bool) (f : State → State) : State := if c then f s else s

/-- Outputs are active: only in RUN (R4, R218). -/
def State.outputsOn (s : State) : Bool := s.dev == .run

/-- Send something out of the device. -/
def State.emit (s : State) (o : Out) : State := { s with out := o :: s.out }

/-- A host write of a register instance has completed on its path. -/
def State.wrote (s : State) (path : Path) (r : Reg) (i : Nat) : State := s.emit (.writeDone path (r.addr i))

/-- Draw a free value: `kind` names what the manual leaves open, `args` what it may depend on. -/
def State.draw (s : State) (kind : String) (args : List Int) : Nat × State :=
  (Config.free kind args s.free, { s with free := s.free + 1 })

/-! ## Epoch counters (R522, R523) -/

/-- The page of the epoch before the present one is being written; other counters of that epoch are discarded
(R521). -/
def State.pageOpen (s : State) : Bool := s.epoch.writing && s.epoch.page.epoch + 1 == s.epoch.num

/-- The announced boundary lies in the present TCLK cycle, or before it: events belong to the new epoch (R126). -/
def State.newEpoch (s : State) : Bool :=
  match s.epoch.announced with
  | some t => decide (t < s.time.ot + s.time.rate)
  | none => false

/-- Update the counters of the newest epoch, kept at their offsets in the statistics page, or those of the epoch before
it (`old`). -/
def State.statIn (s : State) (old : Bool) (f : Table Nat Int → Table Nat Int) : State :=
  { s with epoch :=
    if s.newEpoch then
      if old then { s.epoch with stats := f s.epoch.stats } else { s.epoch with early := f s.epoch.early }
    else if !old then { s.epoch with stats := f s.epoch.stats }
    else if s.pageOpen then { s.epoch with prev := f s.epoch.prev } else s.epoch }

/-- Add to a counter in a table. -/
def statAdd (t : Table Nat Int) (off : Nat) (n : Int) : Table Nat Int :=
  Table.insert natLt t off (Table.getD t off 0 + n)

/-- Add to a counter of the newest epoch. -/
def State.stat (s : State) (off : Nat) (n : Int) : State :=
  if n = 0 then s else s.statIn false (fun t => statAdd t off n)

/-- Add to a counter of the epoch before the newest one. -/
def State.statPrev (s : State) (off : Nat) (n : Int) : State :=
  if n = 0 then s else s.statIn true (fun t => statAdd t off n)

/-- Lower a minimum, or raise a maximum, in a table of epoch counters. -/
def statLow (t : Table Nat Int) (off : Nat) (v : Int) : Table Nat Int :=
  Table.insert natLt t off (min v (Table.getD t off v))
def statHigh (t : Table Nat Int) (off : Nat) (v : Int) : Table Nat Int :=
  Table.insert natLt t off (max v (Table.getD t off v))

/-- A measured value joins the minimum, maximum and mean that stand at three offsets. -/
def State.statMeasure (s : State) (lo hi mean : Nat) (v : Int) : State :=
  ((s.statIn false (fun t => statHigh (statLow t lo v) hi v)).stat (mean + 0x10000) v).stat (mean + 0x20000) 1

/-! ## Device time -/

/-- TCLK cycles in a microsecond, a millisecond and a second (TCLK is 1.6 GHz, R20). -/
def usCycles : Nat := 1600
def msCycles : Nat := 1600000
def sCycles : Nat := 1600000000

/-- The numbers of the timers: a conversion and a pass of the housekeeping ADC (R545, R546), the rotation of analysis
die d (R515) and of the renderers (R517), the settle interval and the low state of supply y (R531, R532), the Flush of
drive d (R435), the last deferral of a planned stall (R335), the drain of DMA domain d (R406), the reading of
subscriber i's ring entry (R431), the hello and the time exchange of port p, the LSA, the ANNOUNCE and the time servo
(R449, R451, R462, R464, R465), and the scrub pass and the refresh of pseudo-channel h
(R340, R344). -/
def tmConversion : Nat := 0
def tmPass : Nat := 1
def tmRotation (d : Nat) : Nat := 2 + d
def tmOpal : Nat := 4
def tmSettle (y : Nat) : Nat := 5 + y
def tmLow (y : Nat) : Nat := 8 + y
def tmFlush (d : Nat) : Nat := 16 + d
def tmPoll (i : Nat) : Nat := 512 + i
def tmStall : Nat := 32
def tmHello (p : Nat) : Nat := 40 + p
def tmExchange (p : Nat) : Nat := 46 + p
def tmLsa : Nat := 52
def tmAnnounce : Nat := 53
def tmServo : Nat := 54
def tmDrain (d : Nat) : Nat := 33 + d
def tmOver (site : Nat) : Nat := 448 + site
def tmTile (n : Nat) : Nat := 2048 + n
def tmPc (h : Nat) : Nat := 2176 + h
def tmPort (p : Nat) : Nat := 2400 + p
def tmRenderer : Nat := 2410
def tmTel : Nat := 55
def tmHour : Nat := 56
def tmScrub (h : Nat) : Nat := 64 + h
def tmRefresh (h : Nat) : Nat := 192 + h

/-- Timer k counts from now on. -/
def State.timerSet (s : State) (k : Nat) : State :=
  { s with hk := { s.hk with timers := Table.insert natLt s.hk.timers k s.now } }

/-- Timer k has counted that many cycles; one that has not been set is due. -/
def State.timerDue (s : State) (k cycles : Nat) : Bool :=
  match Table.get? s.hk.timers k with
  | some t => decide (t + cycles ≤ s.now)
  | none => true

/-- OT96 as the 96-bit number of R115: seconds in the high half, 2^-48 s in the low half. -/
def State.ot96 (s : State) : Nat := s.time.ot / 2 ^ 32 % 2 ^ 96

/-- OT96 of a time in units of 2^-80 s. -/
def toOt96 (t : Nat) : Nat := t / 2 ^ 32 % 2 ^ 96

/-- Femtoseconds as units of 2^-80 s, truncated toward zero. -/
def fsToOt (fs : Int) : Int := tdiv (fs * (2 ^ 80 : Nat)) (10 ^ 15 : Nat)

/-- Units of 2^-80 s as femtoseconds, truncated toward zero. -/
def otToFs (t : Int) : Int := tdiv (t * (10 ^ 15 : Nat)) (2 ^ 80 : Nat)

/-- Fraction and seconds of a time as the six bytes each of R30, R119 and R353. -/
def otBytes (t : Nat) : List Byte :=
  leBytes 6 (toOt96 t % 2 ^ 48) ++ leBytes 6 (toOt96 t / 2 ^ 48)

/-! ## Memory -/

/-- A byte of memory; what nothing has written reads as 0 (log entry 3). -/
def State.byte (s : State) (a : Nat) : Byte := Table.getD s.mem a 0

/-- Write a byte of memory. -/
def State.setByte (s : State) (a : Nat) (b : Byte) : State := { s with mem := Table.set 0 s.mem a b }

/-- Read `n` bytes from address `a`. -/
def State.bytes (s : State) (a n : Nat) : List Byte := (List.range n).map (fun i => s.byte (a + i))

/-- Write bytes from address `a` upward. -/
def State.setBytes : State → Nat → List Byte → State
  | s, _, [] => s
  | s, a, b :: t => (s.setByte a b).setBytes (a + 1) t

/-- A little-endian number of `n` bytes at address `a`. -/
def State.load (s : State) (a n : Nat) : Nat := ofLe (s.bytes a n)

/-- Store a little-endian number of `n` bytes at address `a`. -/
def State.store (s : State) (a n v : Nat) : State := s.setBytes a (leBytes n v)

/-- The size of the cellar and of system memory (R27). -/
def cellarSize : Nat := 128 * 2 ^ 30
def sysBase : Nat := 0x002000000000
def sysSize : Nat := 8 * 2 ^ 30

/-- The range [a, a+n) lies wholly in system memory. -/
def inSystem (a n : Nat) : Bool := sysBase ≤ a && a + n ≤ sysBase + sysSize

/-- The range [a, a+n) lies wholly in the cellar. -/
def inCellar (a n : Nat) : Bool := a + n ≤ cellarSize

/-- The base of tile n's window (R27, R28). -/
def tileBase (n : Nat) : Nat := 0x003000000000 + n * 0x01000000

/-- The HBM pseudo-channel of unit u of a top pseudo-channel q = 128 to 143 (R320). -/
def topHpc (q u : Nat) : Nat := 32 * ((q - 128) / 4) + 8 * ((q - 128) % 4) + u % 8

/-- The HBM pseudo-channel that holds a byte of the cellar or of system memory (R320, R321), through the
memory moves of R505; none for other addresses. -/
def CelState.hpcOf (c : CelState) (a : Nat) : Option Nat :=
  if a < cellarSize then
    let q := a / 128 % 128
    match Table.get? c.moved q with
    | some r => some (topHpc r (a / 16384))
    | none => some q
  else if sysBase ≤ a && a < sysBase + sysSize then
    some (topHpc (128 + (a - sysBase) / 2 ^ 30) ((a - sysBase) % 2 ^ 30 / 128))
  else none
def State.hpcOf (s : State) (a : Nat) : Option Nat := s.cel.hpcOf a

/-- The offset of a byte within its HBM pseudo-channel: a top part lies above 1,024 MiB (R320, R321). -/
def CelState.hbmOffset (c : CelState) (a : Nat) : Nat :=
  if a < cellarSize then
    if (Table.get? c.moved (a / 128 % 128)).isSome then 2 ^ 30 + 128 * (a / 16384 / 8) + a % 128
    else 128 * (a / 16384) + a % 128
  else 2 ^ 30 + 128 * ((a - sysBase) % 2 ^ 30 / 128 / 8) + a % 128

def CelState.pcOf (c : CelState) (h : Nat) : PcState := Table.getD c.pc h .ok
def State.pc (s : State) (h : Nat) : PcState := s.cel.pcOf h

/-- The HBM pseudo-channel h does not serve: frozen, retired or being re-initialised (R352, R355). -/
def State.pcDown (s : State) (h : Nat) : Bool := s.pc h != .ok

/-- Does an address lie on a pseudo-channel that does not serve? -/
def State.poisoned (s : State) (a : Nat) : Bool :=
  match s.hpcOf a with
  | some h => s.pcDown h
  | none => false

/-- Does any byte of [a, a+n) lie on such a pseudo-channel?  Judged per 128-byte unit. -/
def State.poisonedRange (s : State) (a n : Nat) : Bool :=
  n != 0 && (List.range ((a + n - 1) / 128 - a / 128 + 1)).any (fun i => s.poisoned ((a / 128 + i) * 128))

/-- Write bytes by a device writer: those on a frozen pseudo-channel are discarded (R352). -/
def State.devWrite : State → Nat → List Byte → State
  | s, _, [] => s
  | s, a, b :: t => ((if s.poisoned a then s else s.setByte a b) : State).devWrite (a + 1) t

/-! ## Commands of the memory controllers (R339, R342, R343, R351, R359) -/

/-- Source classes of the Hall (R359). -/
def srcRing : Nat := 0
def srcRecord : Nat := 1
def srcReplay : Nat := 2
def srcTile : Nat := 3
def srcDma : Nat := 4
def srcHearth : Nat := 5
def srcPcie : Nat := 6
def srcDisplay : Nat := 7
def srcStream : Nat := 8
def srcScrub : Nat := 9
def srcControl : Nat := 10

/-- The source class of a unit that R359 does not list (the event unit, the housekeeping, the fabric). -/
def State.srcOther (s : State) : Nat := Config.free "Hall source class of an unlisted unit" [] s.now % 11

/-- Bank, row and 32-byte column of an offset of an HBM pseudo-channel; the manual gives rows of 1 KiB
and leaves the mapping of rows and banks open. -/
def hbmPlace (h off : Nat) : Nat × Nat × Nat :=
  (Config.free "hbm bank" [h, (off / 1024 : Nat)] 0 % 48, Config.free "hbm row" [h, (off / 1024 : Nat)] 0 % 65536,
   off % 1024 / 32)

/-- Append commands (cmd, bank, row, col, result) of a source to the history of h, which keeps the latest 256.  No
command goes to a frozen channel (R351).  The MCLK cycle of issue is a free value. -/
def CelState.hist (c : CelState) (now h source : Nat) (cs : List (Nat × Nat × Nat × Nat × Nat)) : CelState :=
  if c.pcOf h == .frozen || c.pcOf h == .retired then c
  else
    let new := (List.range cs.length).filterMap (fun (i : Nat) => (cs[i]?).map (fun (x : Nat × Nat × Nat × Nat × Nat) =>
      (⟨Config.free "mclk" [(h / 32 : Nat), (now : Nat), (i : Nat)] c.cmds % 2 ^ 32, x.1, x.2.1, source, x.2.2.1, x.2.2.2.1,
        x.2.2.2.2⟩ : HistCmd)))
    let all := Table.getD c.history h [] ++ new
    { c with history := Table.set [] c.history h (all.drop (all.length - 256)), cmds := c.cmds + cs.length }
def State.hist (s : State) (h source : Nat) (cs : List (Nat × Nat × Nat × Nat × Nat)) : State :=
  { s with cel := s.cel.hist s.now h source cs }

/-- A planned stall keeps HBM pseudo-channel h unavailable (R335). -/
def CelState.stallAt (c : CelState) (h : Nat) : Bool :=
  match c.stall with
  | some (.freq mask _) => bit mask (h / 32)
  | some (.repair h' _ _) => h == h'
  | none => false

/-- Stack m enters self-refresh, which cancels owed refreshes (R340); `pre`: the command before, if any. -/
def CelState.sleep (c : CelState) (now m : Nat) (pre : List (Nat × Nat × Nat × Nat × Nat)) : CelState :=
  let c := { c with asleep := c.asleep ||| 2 ^ m }
  (List.range 32).foldl (fun (c : CelState) j =>
    ({ c with owed := Table.set 0 c.owed (32 * m + j) 0 } : CelState).hist now (32 * m + j) srcControl
      (pre ++ [(6, 0, 0, 0, 0)])) c

/-- Stack m leaves self-refresh (R342). -/
def CelState.wake (c : CelState) (now m : Nat) : CelState :=
  if bit c.asleep m then
    (List.range 32).foldl (fun (c : CelState) j => c.hist now (32 * m + j) srcControl [(7, 0, 0, 0, 0)])
      { c with asleep := withBits c.asleep m m 0 }
  else c

/-- One access to `n` bytes of a 128-byte unit: activate, its 32-byte bursts, precharge.  A read takes whole halves of
64 bytes; a write takes the bursts it touches, and reads first those it fills only in part (R339).  Whether a read is
corrected is free (R343).  A sleeping stack wakes for it (R342); a channel that does not serve takes no command (R351,
R352). -/
def CelState.access (c : CelState) (now source : Nat) (write : Bool) (a n : Nat) : CelState :=
  match c.hpcOf a with
  | none => c
  | some h =>
    if c.pcOf h != .ok || n = 0 then c
    else
      let c := if c.stallAt h then c else c.wake now (h / 32)
      let off := c.hbmOffset a
      let p := hbmPlace h off
      let burst := fun (k : Nat) => off - a % 32 + 32 * k
      let fixed := fun (o : Nat) => Config.free "corrected read" [(h : Nat), (o / 32 : Nat), (c.cmds : Nat)] now % 2 = 1
      let get := fun (o : Nat) => (2, p.1, p.2.1, o % 1024 / 32, b2n (decide (fixed o)))
      let reads := if write then
          ((List.range ((a % 32 + n + 31) / 32)).filter (fun k =>
            decide (32 * k < a % 32) || decide (a % 32 + n < 32 * (k + 1)))).map burst
        else (List.range (2 * ((a % 64 + n + 63) / 64))).map (fun k => off - a % 64 + 32 * k)
      let writes := if write then (List.range ((a % 32 + n + 31) / 32)).map burst else []
      let c := c.hist now h source ([(1, p.1, p.2.1, p.2.2, 0)] ++ reads.map get ++
        writes.map (fun o => (3, p.1, p.2.1, o % 1024 / 32, 0)) ++ [(4, p.1, p.2.1, p.2.2, 0)])
      { c with corrPend := c.corrPend ++ (reads.filter (fun o => decide (fixed o))).map (fun _ => h) }

/-- The accesses of a request of `n` bytes at a, one for each 128-byte unit (R339). -/
def CelState.log (c : CelState) (now source : Nat) (write : Bool) (a n : Nat) : CelState :=
  if n = 0 then c
  else (List.range ((a + n - 1) / 128 - a / 128 + 1)).foldl (fun (c : CelState) i =>
    let lo := max a ((a / 128 + i) * 128)
    c.access now source write lo (min (a + n) ((a / 128 + i + 1) * 128) - lo)) c

/-- The mirror writes of a move of h to reserve r: every write to h goes to the reserve as well (R505). -/
def CelState.mirror (c : CelState) (now h r a n : Nat) : CelState :=
  if n = 0 then c
  else
    let c' := (List.range ((a + n - 1) / 128 - a / 128 + 1)).foldl (fun (c : CelState) i =>
      let lo := max a ((a / 128 + i) * 128)
      if (a / 128 + i) % 128 = h && lo < cellarSize then
        c.access now srcControl true lo (min (a + n) ((a / 128 + i + 1) * 128) - lo)
      else c) { c with moved := Table.insert natLt c.moved h r }
    { c' with moved := c.moved }

/-- The commands of a request, and of its mirror writes while a live move runs. -/
def State.memLog (s : State) (source : Nat) (write : Bool) (a n : Nat) : State :=
  let c := s.cel.log s.now source write a n
  { s with cel := match s.pan.move with
    | some m => if write && !m.dead then c.mirror s.now m.hpc m.reserve a n else c
    | none => c }

/-- A device write with the accesses it makes. -/
def State.devPut (s : State) (source a : Nat) (bs : List Byte) : State :=
  (s.devWrite a bs).memLog source true a bs.length

/-- A read with the accesses it makes; one of memory that does not serve is a poisoned read (R352). -/
def State.readBy (s : State) (source a n : Nat) : State :=
  (s.when (s.poisonedRange a n) (·.addFld CEL_POISON.COUNT 0 1)).memLog source false a n

/-- The stacks leave the self-refresh of a warm reset: R356 does not say when; at the end of BOOT, or at the first access
before it (DESIGN CHOICE, log entry 106). -/
def State.stacksWake (s : State) : State :=
  { s with cel := (List.range 4).foldl (fun (c : CelState) m => c.wake s.now m) s.cel }

/-! ## Requests through PCIe (R409, R411, R415) -/

/-- A request answered or dropped as unsupported or aborted, in either direction (PCI_ERR). -/
def State.pciUr (s : State) (p : Nat) : State := s.addFld PCI_ERR.UR_CA p 1

/-- The result of a configuration access: 1 unsupported request and 3 completer abort are counted (R415). -/
def State.cfgResult (s : State) (p result : Nat) : State :=
  (s.setFld PCI_CFG_STAT.RESULT p result).when (result == 1 || result == 3) (·.pciUr p)

/-- A poisoned read through PCIe completes with completer abort, or with unsupported request: R352 and chapter 13 do not
say with which. -/
def State.poisonAbort (s : State) (a : Nat) : Bool :=
  decide (Config.free "a poisoned read completes with completer abort" [(a : Nat)] s.now % 2 = 1)

/-- BAR2 of an endpoint takes 1 GiB to 256 GiB: which of them, its host sets through the resizable-BAR capability, which
no command reaches (R409). -/
def barSize (p : Nat) : Nat := 2 ^ (30 + Config.free "log2 of the size of BAR2, above 30" [(p : Nat)] 0 % 9)

/-! ## Interrupts (R410) -/

/-- The endpoint ports that claim interrupt source n. -/
def State.irqPorts (s : State) (n : Nat) : List Nat :=
  (List.range 2).filter (fun p =>
    s.fld PCI_CTRL.ROLE p == 0 &&
    bit (s.reg64 .PCI_IRQ_ROUTE_LO .PCI_IRQ_ROUTE_HI p) n)

/-- Deliver interrupt source n: to each endpoint that claims it, else to Hearth. -/
def State.irq (s : State) (n : Nat) : State :=
  match s.irqPorts n with
  | [] => s.emit (.irq n)
  | ps => s.over ps (fun s p => s.emit (.msix p n))

/-- Set a pending bit; if it rises while its enable is 1, the interrupt fires. -/
def State.pend (s : State) (pendF enF : Fld) (i n : Nat) : State :=
  let rises := !s.flag pendF i && s.flag enF i
  (s.setFlag pendF i true).when rises (·.irq n)

/-! ## Events (R30 to R35, R607) -/

/-- CODE and SOURCE as R30 packs them. -/
def packSource (b : Block) (n : Nat) : Nat := b.index * 1024 + n % 1024

/-- The 32 bytes of an event entry (R30). -/
def Event.bytes (e : Event) (ovf : Bool) : List Byte :=
  leBytes 2 e.code ++ leBytes 2 e.source ++ leBytes 1 e.severity ++ leBytes 1 (b2n ovf) ++
  leBytes 2 e.seq ++ leBytes 6 (e.stamp % 2 ^ 48) ++ leBytes 6 (e.stamp / 2 ^ 48) ++
  leBytes 12 e.detail

/-- Entries of the event queue. -/
def State.evqEntries (s : State) : Nat := 2 ^ s.fld EVQ_SIZE.SIZE_LOG2 0

/-- The address of the event queue. -/
def State.evqBase (s : State) : Nat :=
  s.fld EVQ_BASE_LO.BASE_LO 0 * 64 + s.fld EVQ_BASE_HI.BASE_HI 0 * 2 ^ 32

/-- The queue is full: every entry but one is written or in flight (R34). -/
def State.evqFull (s : State) : Bool :=
  (s.fld EVQ_TAIL.TAIL 0 + s.evq.inFlight.length + 1) % s.evqEntries == s.fld EVQ_HEAD.HEAD 0

/-- Count an event as dropped; the next entry written carries OVF_BEFORE (R34). -/
def State.evqDrop (s : State) : State :=
  let s := (s.addFld EVQ_DROPPED.DROPPED 0 1).stat 0xD6 1
  { s with evq := { s.evq with ovf := true } }

/-- Issue the write of an entry. -/
def State.evqIssue (s : State) (e : Event) : State :=
  { s with evq := { s.evq with inFlight := s.evq.inFlight ++ [⟨e, s.evq.ovf⟩], ovf := false } }

/-- Put an event into the hold buffer of 256 entries, or drop it (R35). -/
def State.evqHold (s : State) (e : Event) : State :=
  if s.evq.hold.length < 256 then { s with evq := { s.evq with hold := s.evq.hold ++ [e] } }
  else s.evqDrop

/-- Write held events first, oldest first, while the queue has room (R35). -/
def State.evqFlush : Nat → State → State
  | 0, s => s
  | n + 1, s =>
    match s.evq.hold with
    | [] => s
    | e :: rest =>
      if s.evqFull then s
      else State.evqFlush n (({ s with evq := { s.evq with hold := rest } } : State).evqIssue e)

/-- Queue an event behind those held: written, held while ENABLE is 0, or dropped at a full queue (R34, R35). -/
def State.evqPut (s : State) (e : Event) : State :=
  if s.flag EVQ_CTRL.ENABLE 0 then
    let s := s.evqFlush 256
    if s.evqFull then s.evqDrop else s.evqIssue e
  else s.evqHold e

/-- An event goes to the connections that subscribed to its severity (R565, R566). -/
def State.pushEvent (s : State) (e : Event) : State :=
  s.over s.sec.sessions (fun s x =>
    match x.conn, x.floor with
    | some c, some f => if f ≤ e.severity then s.emit (.czEvent c (e.bytes false)) else s
    | _, _ => s)

/-- Raise an event of a given severity: count it (R607), queue it, and write severities error and
fatal, and every recovery event, to the Attic event log (R35, R582). -/
def State.raiseSev (s : State) (k : EventKind) (sev inst dt : Nat) : State :=
  let e : Event := ⟨packSource k.block k.number, packSource k.block inst, sev, s.evq.count % 65536,
    s.ot96, dt % 2 ^ 96⟩
  let s : State := { s with evq := { s.evq with count := s.evq.count + 1 } }
  let s : State := s.when (3 ≤ sev) (fun s =>
    { s with evq := { s.evq with attic := s.evq.attic ++ [.event e] } })
  (s.pushEvent e).evqPut e

/-- Raise an event: kind, instance (R31), and the DETAIL fields as (byte offset from 20, width, value). -/
def State.raise (s : State) (k : EventKind) (inst : Nat) (fs : List (Nat × Nat × Nat)) : State :=
  s.raiseSev k k.severity inst (detail fs)

/-- The interrupt condition of R609 after TAIL advanced past an entry of severity `sev`. -/
def State.evqIrq (s : State) (sev : Nat) : State :=
  let thr := s.fld EVQ_CTRL.IRQ_THRESHOLD 0
  let n := (s.fld EVQ_TAIL.TAIL 0 + s.evqEntries - s.fld EVQ_HEAD.HEAD 0) % s.evqEntries
  s.when ((thr != 0 && thr ≤ n) || 3 ≤ sev)
    (·.pend EVQ_STATUS.IRQ_PEND EVQ_CTRL.IRQ_EN 0 0)

/-- The oldest issued entry is acknowledged without error: its bytes stand in memory, TAIL advances,
and the interrupt condition is judged (R33, R609). -/
def State.evqAckOk (s : State) : State :=
  match s.evq.inFlight with
  | [] => s
  | w :: rest =>
    let tail := s.fld EVQ_TAIL.TAIL 0
    let s := (s.setBytes (s.evqBase + 32 * tail) (w.ev.bytes w.ovf)).memLog s.srcOther true (s.evqBase + 32 * tail) 32
    let s : State := { s with evq := { s.evq with inFlight := rest, lastSeq := w.ev.seq } }
    let s := s.setFld EVQ_TAIL.TAIL 0 ((tail + 1) % s.evqEntries)
    s.evqIrq w.ev.severity

/-- The oldest issued entry is acknowledged with error status: it is not complete, its event is
dropped, and the next event is written into the same entry (R33). -/
def State.evqAckErr (s : State) : State :=
  match s.evq.inFlight with
  | [] => s
  | _ :: rest =>
    let s := s.setFlag EVQ_STATUS.WR_ERR 0 true
    let s := (s.addFld EVQ_DROPPED.DROPPED 0 1).stat 0xD6 1
    match rest with
    | [] => { s with evq := { s.evq with inFlight := [], ovf := true } }
    | w :: r => { s with evq := { s.evq with inFlight := { w with ovf := true } :: r } }

/-- Does the queue lie wholly in system memory (R608)? -/
def State.evqInSystem (s : State) : Bool := inSystem s.evqBase (32 * s.evqEntries)

/-- The settling of a comparator after a change, in TCLK cycles: 50 ns and the response time of its mode, 1.5 ns, 20 ns,
400 ns or 5 µs (R60, R64, R102). -/
def settleTime (mode : Nat) : Nat :=
  match mode with
  | 0 => 83
  | 1 => 112
  | 2 => 720
  | _ => 8080

/-! ## Other rings of R33 and R34 -/

/-- Is index `v` between the old HEAD and TAIL (inclusive), in a ring of `n` entries? -/
def headOk (n head tail v : Nat) : Bool :=
  v < n && decide ((v + n - head) % n ≤ (tail + n - head) % n)

/-! ## Sample rates -/

/-- The reference frequency f_src in Hz (R67). -/
def State.fSrc (s : State) : Nat :=
  if s.fld CLK_REF_CFG.SRC_SEL 0 = 0 then s.fld CLK_REF_NOM.NOM_HZ 0 else 100000000

/-- The synthesiser frequency at zero offset, as a fraction (numerator, denominator) in Hz (R68). -/
def State.fSyn (s : State) : Nat × Nat :=
  (s.fSrc * (s.fld CLK_SYN_INT.N_INT 0 * 2 ^ 32 + s.fld CLK_SYN_FRAC.N_FRAC 0),
   s.fld CLK_REF_CFG.REF_DIV 0 * 2 ^ 32)

/-- The offset in force: during a slew it moves from its start at SLEW_RATE ppm per ms toward the target
(R83). -/
def State.offsetNow (s : State) : Int :=
  match s.clk.slewAt with
  | none => s.clk.offset
  | some t =>
    let target := s.clk.slewTo
    let moved : Int := s.fld CLK_POLICY.SLEW_RATE 0 * 1000 * (s.now - t) / msCycles
    if s.clk.offset ≤ target then min target (s.clk.offset + moved) else max target (s.clk.offset - moved)

/-- What the reference tree runs at, in ppb from its nominal frequency: the offset in force while a loop follows the
source, the coasting word while it coasts, that word lowered or raised by RET_SLEW while a return slews (R68, R91, R93;
a return by STEP is locked in frequency, R94). -/
def State.treePpb (s : State) : Int :=
  match s.clk.coastPpb, s.clk.ret with
  | some w, none => w
  | some w, some .measuring => w
  | some w, some .slew =>
    let slew : Int := 10 * s.fld CLK_POLICY.RET_SLEW 0
    if 0 < toS 32 (s.fld CLK_JUMP.JUMP_PS 0) then w - slew else w + slew
  | _, _ => s.offsetNow

/-- The synthesiser frequency now, as a fraction in Hz (R68). -/
def State.fTree (s : State) : Nat × Nat :=
  (s.fSyn.1 * (1000000000 + s.treePpb).toNat, s.fSyn.2 * 1000000000)

/-- The sample frequency of octant k now, as a fraction in Hz: the synthesiser, or the
bypass clock (R85), through the octant divider. -/
def State.fOct (s : State) (k : Nat) : Nat × Nat :=
  let d := 2 ^ s.fld SYS_OCT_STAT.RATE_DIV k
  if (s.die k).onBypass then (s.fld CLK_BYP.BYP_MULT 0 * 100000000, d)
  else (s.fTree.1, s.fTree.2 * d)

/-- The tile PLL word at zero offset, in 2^-32: 1.6 GHz / f_pfd, rounded up (R68). -/
def State.tileNominal (s : State) : Nat :=
  let src := s.fSrc
  if src = 0 then 0 else (1600000000 * s.fld CLK_REF_CFG.REF_DIV 0 * 2 ^ 32 + src - 1) / src

/-- The nominal rate word of OT96 in 2^-80 s: 1 / f_TCLK at zero offset (R68, R115); the manual does not say how it is
rounded: to the nearest (log entry 92). -/
def State.nominalRate (s : State) : Nat :=
  let d := s.fSrc * s.tileNominal
  (rdiv ((2 ^ 112 * s.fld CLK_REF_CFG.REF_DIV 0 : Nat) : Int) d).toNat

/-- The tile PLL word in force, scaled by the offset (R68, R83). -/
def State.tileWord (s : State) : Nat :=
  (s.tileNominal * (1000000000 + s.offsetNow).toNat + 999999999) / 1000000000

/-- The dies and TCLK run on bypass: before the first lock and over a relock (R69, R86). -/
def State.bypassTree (s : State) : Bool := s.clk.relock != 0 || (!s.clk.everLocked && s.clk.coastPpb.isNone)

/-- The source clock of CKO n, taken after the bypass switch, as a fraction in Hz (R76, R77, R88). -/
def State.ckoSource (s : State) (n : Nat) : Nat × Nat :=
  match s.fld CLK_CKO_CFG.SRC n with
  | 0 => if s.bypassTree then (s.fld CLK_BYP.BYP_MULT 0 * 100000000, 1) else s.fTree
  | 1 =>
    if s.bypassTree then (1600000000, 1)
    else (s.tileNominal * s.fSrc * (1000000000 + s.treePpb).toNat, s.fld CLK_REF_CFG.REF_DIV 0 * 2 ^ 32 * 1000000000)
  | _ => (100000000, 1)

/-- The frequency of CKO n, as a fraction in Hz (R77, R88). -/
def State.ckoFreq (s : State) (n : Nat) : Nat × Nat :=
  ((s.ckoSource n).1, (s.ckoSource n).2 * s.fld CLK_CKO_CFG.DIV n)

/-- The sample period of octant k in 2^-64 s, rounded to nearest with ties away from zero (R119). -/
def State.period (s : State) (k : Nat) : Nat :=
  (rdiv ((s.fOct k).2 * 2 ^ 64 : Nat) (s.fOct k).1).toNat

/-- Samples of octant k that are taken within `ps` picoseconds of a sample, that one included. -/
def State.samplesWithin (s : State) (k ps : Nat) : Nat :=
  (ps * (s.fOct k).1 + (s.fOct k).2 * 10 ^ 12 - 1) / ((s.fOct k).2 * 10 ^ 12)

/-- The anchor that R120 takes for sample i: the latest with 80 × B ≤ i, else the oldest. -/
def anchorFor (l : List Anchor) (i : Nat) : Option Anchor :=
  match l.find? (fun a => decide (80 * a.block ≤ i)) with
  | some a => some a
  | none => l.getLast?

/-- The item of a Hall route of this KIND and TARGET arrives: it is on the Hall no more; none where no such item has left a
tile (R196). -/
def State.offHall (s : State) (kind target : Nat) (item : List Byte) : Option State :=
  if s.hall.contains ⟨kind, target, item⟩ then some { s with hall := s.hall.erase ⟨kind, target, item⟩ } else none

/-- OT96 time (2^-80 s) of sample index i on die k (R120). -/
def State.sampleTime (s : State) (k i : Nat) : Nat :=
  match anchorFor (s.die k).anchors i with
  | some a => (a.time : Int) + (((i : Int) - (80 * a.block : Nat)) * (a.period * 2 ^ 16 : Nat)) |>.toNat
  | none => i * s.period k * 2 ^ 16

/-- The first sample index at or after time t by one anchor. -/
def Anchor.sampleAt (a : Anchor) (t : Nat) : Nat :=
  let p := a.period * 2 ^ 16
  if p = 0 then 80 * a.block
  else if a.time ≤ t then 80 * a.block + (t - a.time + p - 1) / p
  else 80 * a.block - (a.time - t) / p

/-- `sampleAt` over the anchors, newest first; `next` is the first sample of the anchor after them. -/
def sampleAtIn (next : Option Nat) (t : Nat) : List Anchor → Nat
  | [] => 0
  | [a] => match next with
    | some n => min n (a.sampleAt t)
    | none => a.sampleAt t
  | a :: rest =>
    if a.time ≤ t then
      match next with
      | some n => min n (a.sampleAt t)
      | none => a.sampleAt t
    else sampleAtIn (some (80 * a.block)) t rest

/-- The first sample index of die k whose time by R120 is at or after `t` (R126). -/
def State.sampleAt (s : State) (k t : Nat) : Nat :=
  match (s.die k).anchors with
  | [] => let p := s.period k * 2 ^ 16
          if p = 0 then 0 else (t + p - 1) / p
  | l => sampleAtIn none t l

/-! ## Responses of the CZ control protocol (R565, R567) -/

def State.setSec (s : State) (f : SecState → SecState) : State := { s with sec := f s.sec }

/-- Statuses of R565. -/
def czOK : Nat := 0
def czDUPLICATE : Nat := 1
def czBAD_REQUEST : Nat := 2
def czDENIED : Nat := 3
def czBUS_ERROR : Nat := 4
def czREFUSED : Nat := 5
def czBUSY : Nat := 6

/-- The session of a connection. -/
def State.session (s : State) (c : Nat) : Option Session := s.sec.sessions.find? (fun x => x.conn == some c)

/-- Change the session of a connection. -/
def State.modSession (s : State) (c : Nat) (f : Session → Session) : State :=
  s.setSec (fun x => { x with sessions := x.sessions.map (fun y => if y.conn = some c then f y else y) })

/-- The address of the command buffer. -/
def State.mboxAddr (s : State) : Nat :=
  bits (s.reg .SEC_MBOX_ADDR_LO 0).toNat 31 6 * 64 + bits (s.reg .SEC_MBOX_ADDR_HI 0).toNat 15 0 * 2 ^ 32

/-- The header of a response (R565). -/
def czHeader (op status req len : Nat) : List Byte :=
  [0x43, 0x5A, 1, 2] ++ leBytes 2 op ++ leBytes 1 status ++ zeros 1 ++ leBytes 8 req ++ leBytes 4 len ++ zeros 12

/-- Bytes as 32-bit words. -/
def byteWords : Nat → List Byte → List (BitVec 32)
  | 0, _ => []
  | _, [] => []
  | n + 1, l => BitVec.ofNat 32 (le l 0 4) :: byteWords n (l.drop 4)

/-- Answer a request: a session keeps its last 1,024 responses; SEC_CMD leaves the response in the buffer; the mailbox
sends it word by word. -/
def State.czAnswer (s : State) (src : CzSource) (req op status : Nat) (body : List Byte) : State :=
  match src with
  | .session c =>
    let s := s.modSession c (fun y =>
      let l := y.cache ++ [(req, status, body)]
      { y with cache := l.drop (l.length - 1024) })
    s.emit (.czResp c req op status 0 body)
  | .secCmd =>
    let a := s.mboxAddr
    let s := s.when (inSystem a body.length) (fun s => s.devPut s.srcOther a body)
    (s.setFld SEC_CMD_STAT.STATUS 0 status).setFlag SEC_CMD_STAT.BUSY 0 false
  | .jtag =>
    let bs := czHeader op status req body.length ++ body
    s.setSec (fun x => { x with mboxOut := x.mboxOut ++ byteWords (bs.length / 4 + 1) bs })

/-- A request of the source runs: one whose REQ_ID the session has answered is answered from its cache, one that is
still running waits (R567).  Without a session it is a bad request.  Through the mailbox only DEBUG_CHAL and DEBUG_TOKEN
run; any other opcode is answered with DENIED (R563). -/
def State.czRequest (s : State) (src : CzSource) (req op : Nat) (f : State → State) : State :=
  match src with
  | .session c =>
    match s.session c with
    | none => s.emit (.czResp c req op czBAD_REQUEST 0 [])
    | some y =>
      match y.cache.find? (fun e => e.1 == req) with
      | some e => s.emit (.czResp c req op czDUPLICATE e.2.1 e.2.2)
      | none =>
        if s.sec.waits.contains (.challenge src req) then
          s.setSec (fun x => { x with waits := x.waits ++ [.copy c req] })
        else f s
  | .secCmd => f (s.setFlag SEC_CMD_STAT.BUSY 0 true)
  | .jtag => if op = 0x70 || op = 0x71 then f s else s.czAnswer .jtag req op czDENIED []

/-- Run an operation that answers a status and a body. -/
def State.czRun (s : State) (src : CzSource) (req op : Nat) (f : State → Nat × List Byte × State) : State :=
  s.czRequest src req op (fun s =>
    let r := f s
    r.2.2.czAnswer src req op r.1 r.2.1)

end Sys2Proof.Machine
end

