-- ==== Sys2Proof/Machine/TileOps.lean ====
section
/-! DEFINITION. What the rest of the device does to a tile: which group it serves, pending events and their
sampling, the halt, faults and non-stopping errors (R133, R144, R157 to R163). -/

namespace Sys2Proof.Machine

/-- Bits of EVP (R157). -/
def evFRAME : Nat := 0
def evEPOCH : Nat := 1
def evCOMMIT : Nat := 2
def evTRIGIN : Nat := 3
def evFAULT : Nat := 4
def evHALT : Nat := 5

/-- GT_STATUS.STATE codes. -/
def gtIDLE : Nat := 0
def gtRUN : Nat := 1
def gtSHADOW : Nat := 2
def gtHALTED : Nat := 3
def gtFAULTED : Nat := 4
def gtLOADING : Nat := 5

/-- The group of tile n by the spare map at power-up (R133). -/
def homeGroup (n : Nat) : Option Nat :=
  if n < 32 then some n else if 34 ≤ n && n < 66 then some (n - 2) else none

/-- Where the setup of group g, the values that wait included, is kept while no tile serves it: a place of its own
beyond the tiles (R205, R252). -/
def groupSlot (g : Nat) : Nat := 68 + g

/-- The group that tile n serves or shadows. -/
def State.groupOf (s : State) (n : Nat) : Option Nat :=
  match (s.tile n).assign with
  | .home => homeGroup n
  | .none => none
  | .serves g => some g

/-- The first channel of the tile's group (R133); 0x3FF while it serves none. -/
def State.groupCh (s : State) (n : Nat) : Nat :=
  match s.groupOf n with
  | some g => 4 * g
  | none => 0x3FF

/-- The tiles that serve or shadow group g. -/
def State.tilesOf (s : State) (g : Nat) : List Nat :=
  (List.range 68).filter (fun n => s.groupOf n == some g)

/-- The tile that serves group g (a shadow does not), or else the place of its setup. -/
def State.groupTile (s : State) (g : Nat) : Nat :=
  ((s.tilesOf g).find? (fun n => (s.tile n).state != gtSHADOW)).getD (groupSlot g)

/-- Does a tile execute instructions: running, or running in shadow? -/
def Tile.runs (t : Tile) : Bool := t.state == 1 || t.state == 2

/-- The tile runs in the sense of R12 and R28. -/
def State.tileInService (s : State) (n : Nat) : Bool := (s.tile n).runs

/-! ## Parameters and NCOs at a frame boundary (R144, R226) -/

/-- The frequency word of NCO x of tile n. -/
def State.ncoFreq (s : State) (n x : Nat) : Nat :=
  (s.reg .GT_NCO_FLO (16 * n + x)).toNat + s.fld GT_NCO_FHI.FREQ_HI (16 * n + x) * 2 ^ 32

/-- NCO x takes its latched pair at frame boundary `f` (R226). -/
def State.ncoTake (s : State) (n x f : Nat) : State :=
  let i := 16 * n + x
  match Table.get? s.lv (.GT_NCO_FLO, i), Table.get? s.lv (.GT_NCO_FHI, i) with
  | some lo, some hi =>
    let old := s.ncoFreq n x
    let t := s.tile n
    let p := Table.getD t.phOfs x 0
    let s := (s.setReg .GT_NCO_FLO i lo).setReg .GT_NCO_FHI i hi
    let new := s.ncoFreq n x
    let p' := toU 48 ((p : Int) + ((old : Int) - new) * f)
    let s := s.setTile n { t with
      phOfs := Table.set 0 t.phOfs x p', ncoOld := Table.set none t.ncoOld x (some ⟨p, old, f⟩) }
    { s with lv := Table.erase (Table.erase s.lv (.GT_NCO_FLO, i)) (.GT_NCO_FHI, i) }
  | _, _ => s

/-- Entries of one table put over another. -/
def overlay (t u : Table Nat Nat) : Table Nat Nat := u.foldl (fun t e => Table.set 0 t e.1 e.2) t

/-- The tile samples FRAME: the LV words and NCO pairs that wait take effect (R144, R226), and the output
cut of a migration takes place: the old tile's later items are discarded, the spare's are sent (R502). -/
def State.sampleFrame (s : State) (n f : Nat) : State :=
  let t := s.tile n
  if t.runs then
    let cut := match t.cutAfter with
      | some g => decide (g < f)
      | none => false
    let s := s.setTile n { t with
      params := overlay t.params t.pLv, pLv := [],
      muted := if cut then t.state == gtRUN else t.muted,
      cutAfter := if cut then none else t.cutAfter }
    s.each 16 (fun s x => s.ncoTake n x f)
  else s

/-! ## Events (R157 to R159) -/

/-- HALT is pending: the tile stops with cause 2 (R159). -/
def State.haltTile (s : State) (n cause : Nat) : State :=
  let t := s.tile n
  if t.runs then
    (s.setTile n { t with state := gtHALTED, haltCause := cause }).raise Ev.TILE_HALTED n [(0, 1, cause)]
  else s

/-- Set a bit of a tile's EVP.  Between two commands every tile is at an instruction boundary, so HALT is
sampled at once (log entry 30). -/
def State.tileEvent (s : State) (n b : Nat) : State :=
  let t := s.tile n
  (s.setTile n { t with evp := t.evp ||| 2 ^ b }).when (b == evHALT) (·.haltTile n 2)

/-! ## Faults and non-stopping errors (R162, R163) -/

def flILLEGAL_OP : Nat := 1
def flBAD_OPERAND : Nat := 2
def flMEM_RANGE : Nat := 3
def flDM_ECC : Nat := 4
def flPM_ECC : Nat := 5
def flRPT_STACK : Nat := 6
def flRPT_ESC : Nat := 7
def flCALL_STACK : Nat := 8
def flPC_END : Nat := 9
def flTILE_UWD : Nat := 10

/-- Count a corrected word for the monitors of R510; a row of the control store is noted for repair (R507). -/
def State.noteCorr (s : State) (n addr : Nat) : State :=
  let p := s.pan
  let row := (addr - 0x100000) / 32
  let cs := decide (0x100000 ≤ addr) && decide (addr < 0x120000) && !(Table.getD p.csBad n []).contains row
  let bad := Table.getD p.csBad n []
  let p := { p with tileEcc := Table.set 0 p.tileEcc n (Table.getD p.tileEcc n 0 + 1) }
  { s with pan := if cs then { p with csBad := Table.set [] p.csBad n (bad ++ [row]) } else p }

/-- A corrected word of a tile's memories (R163, R170). -/
def State.tileCorr (s : State) (n addr : Nat) : State :=
  let s := (((s.addFld GT_ECC_CORR.CORR n 1).stat (0x2A08 + 16 * n) 1).tileEvent n evFAULT).noteCorr n addr
  s.raise Ev.DM_CORR n [(0, 3, addr)]

/-! ## The output queue (R160) -/

/-- Size of the output queue in bytes. -/
def outSize : Nat := 65536

/-- Free bytes in the output queue. -/
def Tile.outFree (t : Tile) : Nat := outSize - t.out.foldl (fun k i => k + i.bytes.length) 0

/-- Count a dropped output item; OUT_DROP at the first drop after 1 ms without one (R160, R166). -/
def State.outDrop (s : State) (n : Nat) : State :=
  let t := s.tile n
  let fresh := match t.lastDrop with
    | some l => decide (l + msCycles ≤ s.now)
    | none => true
  let s := s.setTile n { t with lastDrop := some s.now, drops := if fresh then 0 else t.drops + 1 }
  let s := ((s.addFld GT_OUT_DROPS.DROPS n 1).stat (0x2A04 + 16 * n) 1).tileEvent n evFAULT
  s.when fresh (·.raise Ev.OUT_DROP n [(0, 4, t.drops + 1)])

/-- Is lane l in use: does its ring receive (R134)? -/
def State.ringEn (s : State) (n l : Nat) : Bool := s.flag GT_RING.EN (4 * n + l)

/-- The lowest RP of the lanes that tile n uses; lane 0's WI when it uses none. -/
def State.rpLow (s : State) (n : Nat) : Nat :=
  let t := s.tile n
  (((List.range 4).filter (s.ringEn n)).map (fun l => Table.getD t.rp l 0)).min?.getD (Table.getD t.wi 0 0)

/-- Put an item into the output queue if it fits; the flag tells whether it was queued.  Its data are taken to be made of
samples at or after the lowest RP that stood when the item before it was queued (DESIGN CHOICE, log entry 104). -/
def State.outPut (s : State) (n : Nat) (d : ItemDest) (bs : List Byte) : Bool × State :=
  let t := s.tile n
  if bs.length ≤ t.outFree then
    (true, s.setTile n { t with out := t.out ++ [⟨d, bs, t.muted, t.outRp⟩], outRp := s.rpLow n })
  else (false, s.outDrop n)

/-- Put a candidate into the candidate port, which holds 16 (R160). -/
def State.candPut (s : State) (n code time : Nat) : State :=
  let t := s.tile n
  if t.muted then s
  else if t.cands.length < 16 then s.setTile n { t with cands := t.cands ++ [(code, time)] }
  else s.outDrop n

/-- XPEND: writes and reads outstanding for FENCE (R143, R161). -/
def Tile.xpend (t : Tile) : Nat := t.out.length + t.acks.length + t.xlds.length

end Sys2Proof.Machine
end

