-- ==== Sys2Proof/Machine/Operands.lean ====
section
/-! DEFINITION. The operand forms of Jextan: general and address registers, data memory, element
addressing, and the checks of a V-format operand (R139 to R142, R146, R149, R175). -/

namespace Sys2Proof.Machine

/-! ## Data memory (R28, R139) -/

/-- Size of the data memory in bytes. -/
def dmSize : Nat := 0x180000

/-- Program memory, control store and data memory in the tile's window (R28). -/
def pmBase (n : Nat) : Nat := tileBase n
def csBase (n : Nat) : Nat := tileBase n + 0x100000
def dmBase (n : Nat) : Nat := tileBase n + 0x400000

/-- A little-endian number of k bytes in the data memory of tile n. -/
def State.dmLoad (s : State) (n a k : Nat) : Nat := s.load (dmBase n + a) k

/-- The signed number of k bytes. -/
def State.dmInt (s : State) (n a k : Nat) : Int := toS (8 * k) (s.dmLoad n a k)

/-- Store a little-endian number of k bytes; bytes past the data memory are not written. -/
def State.dmStore (s : State) (n a k v : Nat) : State :=
  if a + k ≤ dmSize then s.store (dmBase n + a) k v else s

/-- Bytes of the data memory. -/
def State.dmBytes (s : State) (n a k : Nat) : List Byte := s.bytes (dmBase n + a) k

/-- Store bytes in the data memory. -/
def State.dmPut (s : State) (n a : Nat) (bs : List Byte) : State := s.setBytes (dmBase n + a) bs

/-! ## General registers (R141) -/

/-- g0 reads 0. -/
def Tile.gr (t : Tile) (r : Nat) : Nat := if r = 0 then 0 else Table.getD t.g r 0

/-- A register as a signed number. -/
def Tile.gs (t : Tile) (r : Nat) : Int := toS 32 (t.gr r)

/-- Writes to g0 are discarded. -/
def Tile.setGr (t : Tile) (r v : Nat) : Tile :=
  if r = 0 then t else { t with g := Table.set 0 t.g r (v % 2 ^ 32) }

/-- Write a register of tile n. -/
def State.setGr (s : State) (n r v : Nat) : State := s.setTile n ((s.tile n).setGr r v)

/-- Set the Z flag of tile n. -/
def State.setZ (s : State) (n : Nat) (b : Bool) : State := s.setTile n { s.tile n with z := b }

/-! ## Address registers (R142) -/

def Tile.ar (t : Tile) (i : Nat) : AReg := Table.getD t.a i {}
def Tile.setAr (t : Tile) (i : Nat) (x : AReg) : Tile := { t with a := Table.set {} t.a i x }

/-- The byte `d` bytes past ADDR, under the register's mode; modes 2 and 3 count from BASE. -/
def AReg.at_ (x : AReg) (d : Int) : Int :=
  match x.mode with
  | 0 => x.addr + d
  | 1 => if x.len = 0 then x.base else x.base + ((x.addr : Int) - x.base + d) % x.len
  | _ => x.base + d

/-- The value that ADDR takes when it moves there: it has 21 bits. -/
def AReg.off (x : AReg) (d : Int) : Nat := toU 21 (x.at_ d)

/-- ADDR moved by d: along the ring in MODULO, linearly otherwise. -/
def AReg.move (x : AReg) (d : Int) : AReg :=
  match x.mode with
  | 1 => { x with addr := x.off d }
  | _ => { x with addr := toU 21 (x.addr + d) }

/-- Post-update (R142): none in modes 2 and 3. -/
def AReg.post (x : AReg) : AReg := if x.mode < 2 then x.move x.step else x

/-- log2 of a power of two; none for other numbers. -/
def log2? (v : Nat) : Option Nat := (List.range 22).find? (fun k => 2 ^ k == v)

/-- Digit reversal of i over m digits of w bits. -/
def revDigits (w m i : Nat) : Nat :=
  (List.range m).foldl (fun acc j => acc * 2 ^ w + i / 2 ^ (w * j) % 2 ^ w) 0

/-- k = log2(LEN / esize) of a mode-2 or mode-3 operand, where the register serves it (R142). -/
def AReg.revK (x : AReg) (esize : Nat) : Option Nat :=
  if x.len % esize = 0 then
    match log2? (x.len / esize) with
    | some k => if x.mode = 3 && k % 2 = 1 then none else some k
    | none => none
  else none

/-- Does the register's mode serve elements of this size? -/
def AReg.serves (x : AReg) (esize : Nat) : Bool :=
  match x.mode with
  | 0 => true
  | 1 => x.len != 0
  | _ => (x.revK esize).isSome

/-- The byte address of element i of a vector operand (R142); the index is taken modulo the elements
that LEN holds in modes 2 and 3. -/
def AReg.elem (x : AReg) (esize i : Nat) : Nat :=
  match x.mode with
  | 0 => x.addr + i * esize
  | 1 => (x.at_ (i * esize : Nat)).toNat
  | 2 => x.base + esize * revDigits 1 ((x.revK esize).getD 0) i
  | _ => x.base + esize * revDigits 2 ((x.revK esize).getD 0 / 2) i

/-- Byte i of an operand that is no plain vector (a header with entries, a slot with its trailer, a table): along the ring
in MODULO, contiguous in the other modes, from BASE in modes 2 and 3.  What those two modes do to such an operand, which
has no one element size, R142 does not say (DESIGN CHOICE, log entry 103). -/
def AReg.byteAt (x : AReg) (i : Nat) : Nat :=
  match x.mode with
  | 0 => x.addr + i
  | 1 => (x.at_ (i : Nat)).toNat
  | _ => x.base + i

/-! ## Operands of a V-format instruction (R146, R149) -/

/-- Why an instruction faults: the code of R162, and the bytes of its destination that may be written. -/
structure JErr where
  code : Nat
  part : List Nat

/-- The result of an instruction's body. -/
abbrev JRes := Except JErr State

def badOperand : JErr := ⟨flBAD_OPERAND, []⟩

/-- Fail with BAD_OPERAND unless a condition holds. -/
def need (b : Bool) : Except JErr Unit := if b then .ok () else .error badOperand

/-- An operand: where its elements lie, their size and number, its first byte, the alignment it needs,
whether the mode serves it, and its extents (start, bytes). -/
structure Opnd where
  addr : Nat → Nat
  esize : Nat
  n : Nat
  start : Nat
  align : Nat
  ok : Bool
  ext : List (Nat × Nat)

/-- The extents of n elements of a vector operand; in modes 2 and 3 those of each element. -/
def AReg.extents (x : AReg) (esize n : Nat) : List (Nat × Nat) :=
  if n = 0 then []
  else match x.mode with
    | 0 => [(x.addr, n * esize)]
    | 1 =>
      let a := (x.at_ 0).toNat
      if x.base + x.len < a + n * esize then
        if x.len ≤ n * esize then [(x.base, x.len)]
        else [(a, x.base + x.len - a), (x.base, n * esize - (x.base + x.len - a))]
      else [(a, n * esize)]
    | _ => if x.len ≤ n * esize then [(x.base, x.len)] else (List.range n).map (fun i => (x.elem esize i, esize))

/-- A vector of n elements through a register. -/
def vecOp (x : AReg) (esize n align : Nat) : Opnd :=
  ⟨x.elem esize, esize, n, x.elem esize 0, align, x.serves esize, x.extents esize n⟩

/-- An operand of a number of bytes that is no plain vector. -/
def linOp (x : AReg) (bytes align : Nat) : Opnd :=
  ⟨x.byteAt, 1, bytes, x.byteAt 0, align, x.mode != 1 || x.len != 0,
    if x.mode = 1 then x.extents 1 bytes else if bytes = 0 then [] else [(x.byteAt 0, bytes)]⟩

/-- The part of such an operand from byte `ofs` on. -/
def linFrom (x : AReg) (ofs bytes align : Nat) : Opnd :=
  linOp (match x.mode with
    | 0 => { x with addr := x.addr + ofs }
    | 1 => { x with addr := x.off (ofs : Nat) }
    | _ => { x with base := x.base + ofs }) bytes align

/-- An operand of n × 64 bytes: its elements are the 64-byte units that the count counts. -/
def blkOp (x : AReg) (n : Nat) : Opnd :=
  if x.mode < 2 then linOp x (64 * n) 64
  else ⟨fun i => x.elem 64 (i / 64) + i % 64, 1, 64 * n, x.elem 64 0, 64, x.serves 64, x.extents 64 n⟩

/-- Bytes a to a + k - 1 of an operand. -/
def State.opBytes (s : State) (n : Nat) (o : Opnd) (a k : Nat) : List Byte :=
  (List.range k).map (fun i => s.byte (dmBase n + o.addr (a + i)))

/-- Store bytes in an operand from its byte a on. -/
def State.opPut (s : State) (n : Nat) (o : Opnd) : Nat → List Byte → State
  | _, [] => s
  | a, b :: t => (s.setByte (dmBase n + o.addr a) b).opPut n o (a + 1) t

/-- Do two extents share a byte? -/
def extMeet (a b : Nat × Nat) : Bool := decide (a.1 < b.1 + b.2) && decide (b.1 < a.1 + a.2)

/-- Do two operands share a byte? -/
def Opnd.meets (a b : Opnd) : Bool := a.ext.any (fun x => b.ext.any (extMeet x))

/-- Two operands are equal: the same elements in the same order. -/
def Opnd.same (a b : Opnd) : Bool :=
  a.n == b.n && a.esize == b.esize && (List.range a.n).all (fun i => a.addr i == b.addr i)

/-- Two operands start at the same byte: what 'equal' can mean for NCO, whose elements differ in size. -/
def Opnd.sameStart (a b : Opnd) : Bool := a.start == b.start

/-- Every element lies below byte 0x18_0000. -/
def Opnd.inRange (o : Opnd) : Bool := (List.range o.n).all (fun i => decide (o.addr i + o.esize ≤ dmSize))

/-- The bytes of a destination that exist. -/
def Opnd.bytesOf (o : Opnd) : List Nat :=
  ((List.range o.n).map (fun i => (List.range o.esize).map (o.addr i + ·))).flatten.filter
    (fun a => decide (a < dmSize))

/-- No destination may equal a source. -/
def noneEqual (_ _ : Opnd) : Bool := false

/-- The checks of R149: alignment and mode, overlap of the destination with a source (a destination equal to
a source, by `equal`, is permitted), range. -/
def checkOps (srcs : List Opnd) (dst : Option Opnd) (equal : Opnd → Opnd → Bool) : Except JErr Unit :=
  let all := srcs ++ dst.toList
  if !all.all (fun o => o.ok && o.start % o.align == 0) then .error badOperand
  else
    let clash := match dst with
      | some d => srcs.any (fun o => d.meets o && !equal o d)
      | none => false
    if clash then .error badOperand
    else if all.all Opnd.inRange then .ok ()
    else .error ⟨flMEM_RANGE, match dst with | some d => d.bytesOf | none => []⟩

/-- The count of a V-format instruction (R146). -/
def Tile.vcount (t : Tile) (v : JV) : Nat := if v.n.toNat = 0 then t.gr v.gp.toNat else v.n.toNat

/-- Round a number up to a multiple's count: ceil(a / b). -/
def ceilDiv (a b : Nat) : Nat := (a + b - 1) / b

/-- A vendor instruction of more than 8,192 cycles is the fault BAD_OPERAND (R149). -/
def needCycles (c : Nat) : Except JErr Unit := need (decide (c ≤ 8192))

/-- Post-update of ax and az, one register named twice once (R145). -/
def State.postUpdate (s : State) (n : Nat) (fl : JFlags) (v : JV) : State :=
  if fl.pu then
    let t := s.tile n
    let t := t.setAr v.ax.toNat (t.ar v.ax.toNat).post
    let t := if v.az = v.ax then t else t.setAr v.az.toNat (t.ar v.az.toNat).post
    s.setTile n t
  else s

/-! ## Element formats (R140) -/

/-- A C32 element. -/
def State.c32 (s : State) (n a : Nat) : Int × Int := (s.dmInt n a 4, s.dmInt n (a + 4) 4)

/-- Store a C32 element. -/
def State.putC32 (s : State) (n a : Nat) (x : Int × Int) : State :=
  (s.dmStore n a 4 (toU 32 x.1)).dmStore n (a + 4) 4 (toU 32 x.2)

/-- Store a 48-bit accumulator, sign-extended (A48). -/
def State.putA48 (s : State) (n a : Nat) (x : Int) : State := s.dmStore n a 8 (toU 64 (toS 48 (toU 48 x)))

/-- The value of an A48. -/
def State.a48 (s : State) (n a : Nat) : Int := toS 48 (s.dmLoad n a 6)

/-- A shift right by s that rounds to nearest, ties away from zero; a negative s shifts left (R152). -/
def shiftRound (x : Int) (s : Int) : Int :=
  if s ≤ 0 then x * (2 ^ s.natAbs : Nat) else rdiv x (2 ^ s.natAbs)

/-- Position of the leading one of a number; 0 for 0. -/
def topBit (v : Nat) : Nat := Nat.log2 v

end Sys2Proof.Machine
end

