-- ==== Sys2Proof/Machine/Phys.lean ====
section
/-! DEFINITION. The physical address space as device readers and writers reach it: the tile windows, the read-only
regions, and the memory side that stalls (R27, R28, R335, R342). -/

namespace Sys2Proof.Machine

/-- The range [a, a+n) lies wholly in [b, b+len). -/
def within (a n b len : Nat) : Bool := decide (b ≤ a) && decide (a + n ≤ b + len)

/-- The range lies in the SRAM of one renderer or in the Attic window (R27). -/
def inReadOnly (a n : Nat) : Bool :=
  (List.range 17).any (fun k => within a n (0x005000000000 + k * 0x100000) 0x80000) ||
  within a n 0x006000000000 (2 ^ 31)

/-! ## Tile windows (R28) -/

/-- The range lies in program memory, control store or data memory of tile n's window. -/
def inTileMem (n a len : Nat) : Bool :=
  within a len (pmBase n) 0x20000 || within a len (csBase n) 0x20000 || within a len (dmBase n) dmSize

/-- The tile in one of whose memories the range lies. -/
def tileAt (a len : Nat) : Option Nat :=
  let n := (a - tileBase 0) / 0x01000000
  if decide (tileBase 0 ≤ a) && decide (n < 68) && inTileMem n a len then some n else none

/-- Bytes 24 to 31 of a microword read 0 and ignore writes. -/
def tileHole (a : Nat) : Bool :=
  decide (0x100000 ≤ a % 0x01000000) && decide (a % 0x01000000 < 0x120000) && decide (24 ≤ a % 32)

/-- A byte of a tile's memories. -/
def State.tileByte (s : State) (a : Nat) : Byte := if tileHole a then 0 else s.byte a

/-- Bytes written into a tile's memories: microwords have no bytes 24 to 31. -/
def State.tilePut : State → Nat → List Byte → State
  | s, _, [] => s
  | s, a, b :: t => ((if tileHole a then s else s.setByte a b) : State).tilePut (a + 1) t

/-! ## Device readers and writers (R27, R28, R352) -/

/-- A byte of a renderer's SRAM: of the 16-bit cells, little-endian.  Which cell lies where is free, since the manual
gives no layout of the 512 KiB. -/
def State.opalByte (s : State) (o : Nat) : Byte :=
  let cell := Config.free "cell at an address of the Opal SRAM" [(o % 0x100000 / 2 : Nat)] 0 % 262144
  BitVec.ofNat 8 (Table.getD (Table.getD s.opals (o / 0x100000) {}).cells cell 0 / 256 ^ (o % 2))

/-- One byte of the address space as a device reader sees it; what lies outside every region, in the control registers
and in the Attic window, whose layout is not given, is free. -/
def State.anyByte (s : State) (a : Nat) : Byte :=
  if inCellar a 1 || inSystem a 1 then s.byte a
  else if (tileAt a 1).isSome then s.tileByte a
  else if inReadOnly a 1 && decide (a < 0x006000000000) then s.opalByte (a - 0x005000000000)
  else BitVec.ofNat 8 (Config.free "byte read outside the memories" [(a : Nat)] s.free)

/-- The vendor region of a control store, microwords 0x000 to 0x9FF of 32 bytes (R168). -/
def vendorSize : Nat := 81920

/-- The range touches the vendor region of the control store of tile n. -/
def touchesVendor (n a len : Nat) : Bool := decide (a < csBase n + vendorSize) && decide (csBase n < a + len)

/-- A device writes a range of the address space: memory that serves, or the memories of a tile that is not in service,
but no vendor microcode.  None: the write completes with a bus error and changes nothing (R27, R28, R168, R352). -/
def State.physPut (s : State) (source a : Nat) (bs : List Byte) : Option State :=
  if inCellar a bs.length || inSystem a bs.length then
    if s.poisonedRange a bs.length then none else some ((s.setBytes a bs).memLog source true a bs.length)
  else match tileAt a bs.length with
    | some m =>
      if (s.tile m).state = 0 && !touchesVendor m a bs.length then some (s.tilePut a bs) else none
    | none => none

/-- A tile writes one 64-byte unit to a physical address; a write that is refused changes nothing. -/
def State.physUnit (s : State) (a : Nat) (bs : List Byte) : State := (s.physPut srcTile a bs).getD s

/-- A tile writes 64-byte units from address a upward (R160). -/
def State.physWrite (s : State) (a : Nat) (bs : List Byte) : State :=
  s.each (bs.length / 64) (fun s i => s.physUnit (a + 64 * i) (slice bs (64 * i) 64))

/-! ## Stalls of the memory side (R335, R342) -/

/-- Does the stall in progress, or a sleep, keep HBM pseudo-channel h unavailable (R335, R342)? -/
def State.stalled (s : State) (h : Nat) : Bool := s.cel.stallAt h || bit s.cel.asleep (h / 32)

end Sys2Proof.Machine
end

