-- ==== Sys2Proof/Machine/DmaEngine.lean ====
section
/-! DEFINITION. The DMA engine (R392 to R406). -/

namespace Sys2Proof.Machine

def State.dmaCh (s : State) (c : Nat) : Dma := Table.getD s.dma.chans c {}
def State.setDma (s : State) (c : Nat) (d : Dma) : State :=
  { s with dma := { s.dma with chans := Table.set {} s.dma.chans c d } }

/-! ## Codes -/

def dmIDLE : Nat := 0
def dmRUNNING : Nat := 1
def dmPARKED : Nat := 2
def dmHALTED : Nat := 3
def dmDRAINING : Nat := 4
def dmSTOPPING : Nat := 5

def dsOK : Nat := 0
def dsDIFFERENT : Nat := 1
def dsBAD_DESC : Nat := 2
def dsBAD_ADDR : Nat := 3
def dsMEM_ERR : Nat := 4
def dsPCIE_ERR : Nat := 5
def dsPWR_REFUSED : Nat := 6
def dsPWR_ABORT : Nat := 7
def dsSTOPPED : Nat := 8

/-! ## Descriptor fields (R393) -/

def Dma.ctrl (d : Dma) : Nat := le d.desc 0 4
def Dma.op (d : Dma) : Nat := bits d.ctrl 29 27
def Dma.sspace (d : Dma) : Nat := bits d.ctrl 26 25
def Dma.dspace (d : Dma) : Nat := bits d.ctrl 24 23
def Dma.len (d : Dma) : Nat := le d.desc 4 4
def Dma.src (d : Dma) : Nat := le d.desc 8 8
def Dma.dst (d : Dma) : Nat := le d.desc 16 8
def Dma.progress (d : Dma) : Nat := le d.desc 32 8
def Dma.stream (d : Dma) : Bool := d.op == 3
def Dma.srcWrap (d : Dma) : Nat := if d.stream then le d.desc 24 1 else 0
def Dma.dstWrap (d : Dma) : Nat := if d.stream then le d.desc 25 1 else 0
def Dma.piece (d : Dma) : Nat := 2 ^ le d.desc 26 1
def Dma.usesSrc (d : Dma) : Bool := d.op == 0 || d.op == 2 || d.op == 3
def Dma.writes (d : Dma) : Bool := d.op == 0 || d.op == 1 || d.op == 3

/-- Byte i of a range that starts at a and wraps at 2^w (0: not) (R396). -/
def wrapAddr (a w i : Nat) : Nat := if w = 0 then a + i else a - a % 2 ^ w + (a % 2 ^ w + i) % 2 ^ w

/-- The one or two contiguous pieces of such a range of n bytes. -/
def pieces (a w n : Nat) : List (Nat × Nat) :=
  if w = 0 || a % 2 ^ w + n ≤ 2 ^ w then [(a, n)]
  else [(a, 2 ^ w - a % 2 ^ w), (a - a % 2 ^ w, n - (2 ^ w - a % 2 ^ w))]

/-! ## Spaces (R392) -/

/-- A range of a space may be read, may be written. -/
def dmaReadable (space : Nat) (r : Nat × Nat) : Bool :=
  if space = 0 then inCellar r.1 r.2 || inSystem r.1 r.2 || inReadOnly r.1 r.2
  else decide (space < 3) && decide (r.1 + r.2 ≤ 2 ^ 64)
def dmaWritable (space : Nat) (r : Nat × Nat) : Bool :=
  if space = 0 then inCellar r.1 r.2 || inSystem r.1 r.2 else decide (space < 3) && decide (r.1 + r.2 ≤ 2 ^ 64)

/-- The link of the port of a space is up. -/
def State.spaceUp (s : State) (space : Nat) : Bool := space == 0 || s.flag PCI_STATUS.LINK_UP (space - 1)

/-- The maximum read request size of port p, which its host sets. -/
def maxRead (p : Nat) : Nat := 128 * 2 ^ (Config.free "maximum read request size of a port" [(p : Nat)] 0 % 6)

/-- Read requests of n bytes from a on: split at 4,096-byte boundaries and at m bytes (R397). -/
def readSplits (m : Nat) : Nat → Nat → Nat → List (Nat × Nat)
  | 0, _, _ => []
  | fuel + 1, a, n =>
    if n = 0 then []
    else
      let k := min n (min m (4096 - a % 4096))
      (a, k) :: readSplits m fuel (a + k) (n - k)

/-- The engine reads a range of a space: in space 0 the whole aligned 64-byte units that cover it, through PCIe exactly
the range (R397). -/
def State.spaceRead (s : State) (space a n : Nat) : State :=
  if n = 0 then s
  else if space = 0 then s.readBy srcDma (a / 64 * 64) ((a + n + 63) / 64 * 64 - a / 64 * 64)
  else s.over (readSplits (maxRead (space - 1)) n a n) (fun s e => s.emit (.readReq (space - 1) e.1 e.2))

/-- Write bytes into a space; through PCIe they leave on the port. -/
def State.spaceWrite (s : State) (space a : Nat) (bs : List Byte) : State :=
  if space = 0 then s.devPut srcDma a bs else s.emit (.send (.pcie (space - 1)) [a] bs)

/-! ## Completion (R398, R400, R402, R403, R406) -/

/-- The domain of a space: 0 memory, 1 PE0, 2 PE1. -/
def State.drains (s : State) (dom : Nat) : Bool := (Table.get? s.dma.draining dom).isSome

/-- A descriptor's source, destination or progress word lies in a domain. -/
def Dma.touches (d : Dma) (dom : Nat) : Bool :=
  (d.usesSrc && d.sspace == dom) || (d.op != 4 && d.dspace == dom)

/-- The descriptor itself, or what it touches, lies in a domain. -/
def Dma.uses (d : Dma) (dom : Nat) : Bool := d.space == dom || d.touches dom

/-- The engine has drained a domain when no running descriptor uses it (R406). -/
def State.dmaDrained (s : State) (dom : Nat) : State :=
  match Table.get? s.dma.draining dom with
  | none => s
  | some n =>
    let busy := (List.range 32).any (fun c =>
      let d := s.dmaCh c
      (d.phase == .data || d.phase == .readback) && d.uses dom)
    if busy then s
    else
      let s : State := { s with dma := { s.dma with draining := Table.erase s.dma.draining dom } }
      let s := s.raise Ev.DMA_DRAINED 0 [(0, 1, dom), (1, 2, n)]
      if dom = 0 then s
      else
        let p := dom - 1
        let was := s.flag PCI_STATUS.LINK_UP p
        let s := (s.setFlag PCI_STATUS.DRAINING p false).setFlag PCI_STATUS.LINK_UP p false
        s.when was (·.raise Ev.PCI_LINK_DOWN p [(0, 1, 0)])

/-- A channel halts at its descriptor (R403, R406). -/
def State.dmaHalt (s : State) (c status : Nat) (unwritten : Bool) : State :=
  let d := s.dmaCh c
  let s := (s.setFld DMA_CH_STAT.STATE c dmHALTED).setFld DMA_ERRSUM.HALTED 0 (s.fld DMA_ERRSUM.HALTED 0 ||| 2 ^ c)
  (s.setDma c { d with phase := .idle, ending := none }).raise Ev.DMA_ERROR 0
    [(0, 1, c), (1, 1, status), (2, 8, d.addr), (10, 1, b2n unwritten)]

/-- Steps 4 to 6 of R398 with a status: the status bytes and CTRL are written, the descriptor is counted, and the
channel goes on, stops or halts.  `diff`: the first difference that a COMPARE found (R393).  A descriptor in a draining
domain, or on memory that does not serve, cannot take its status. -/
def State.dmaComplete (s : State) (c status done : Nat) (diff : Option Nat) : State :=
  let d := s.dmaCh c
  let bad := status != dsOK && status != dsDIFFERENT
  let lost := s.drains d.space || !s.spaceUp d.space || (d.space == 0 && s.poisonedRange d.addr 64)
  let cmp := if d.op = 2 then diff.getD (2 ^ 64 - 1) else 0
  let s := if lost then s
    else
      let s := s.spaceWrite d.space (d.addr + 48) (leBytes 1 status ++ zeros 3 ++ leBytes 4 done ++ leBytes 8 cmp)
      s.spaceWrite d.space d.addr (leBytes 4 (d.ctrl % 2 ^ 31))
  let s := (s.addFld DMA_CH_DONE.COUNT c 1).setFld DMA_CH_STAT.LAST_STATUS c status
  let s := s.when (bit d.ctrl 30 || bad) (·.pend DMA_CH_STAT.IRQ_PEND DMA_CH_CTRL.IRQ_EN c (1 + c))
  let s := if status = dsSTOPPED then
      (s.setDma c { d with phase := .idle, ending := none }).setFld DMA_CH_STAT.STATE c dmIDLE
    else if bad || lost then s.dmaHalt c status lost
    else (s.setDma c { d with phase := .relink, count := s.fld DMA_CH_STAT.DB_COUNT c, ending := none }).setFld
      DMA_CH_STAT.STATE c dmRUNNING
  (List.range 3).foldl (fun s dom => s.dmaDrained dom) s

/-- Step 3 of R398: the aligned 4-byte word that holds the last byte written is read back.  `ending`: the status that the
descriptor has already. -/
def State.dmaReadback (s : State) (c : Nat) (ending : Option Nat) : State :=
  let d := s.dmaCh c
  (s.setDma c { d with phase := .readback, ending := ending }).spaceRead d.dspace
    (wrapAddr d.dst d.dstWrap (d.done - 1) / 4 * 4) 4

/-- A descriptor that moves data ends early with a status, `done` of its bytes known written: step 3 follows when it has
written and its port still answers (R398, R403). -/
def State.dmaEnd (s : State) (c status done : Nat) : State :=
  let d := s.dmaCh c
  let s := s.setDma c { d with done := done }
  if done = 0 || !s.spaceUp d.dspace then s.dmaComplete c status done none else s.dmaReadback c (some status)

/-! ## Moving data (R396, R397, R403) -/

/-- Two ranges of one space share an address. -/
def Dma.overlap (d : Dma) : Bool :=
  d.usesSrc && d.sspace == d.dspace && (pieces d.src d.srcWrap d.len).any (fun a =>
    (pieces d.dst d.dstWrap d.len).any (fun b => decide (a.1 < b.1 + b.2) && decide (b.1 < a.1 + a.2)))

/-- Byte i that the descriptor writes: `ext` are the source bytes that came through PCIe, from byte `from_` on.
Overlapping ranges leave the destination undefined. -/
def State.dmaByte (s : State) (d : Dma) (ext : List Byte) (from_ i : Nat) : Byte :=
  if d.overlap then BitVec.ofNat 8 (Config.free "destination of an overlapping copy" [(i : Nat)] s.free)
  else if d.op = 1 then nth d.desc (24 + (d.dst + i) % 8) 0
  else if d.sspace = 0 then s.anyByte (wrapAddr d.src d.srcWrap i)
  else nth ext (i - from_) (BitVec.ofNat 8 (Config.free "source byte not delivered" [(i : Nat)] s.free))

/-- Byte i of the source or of the destination lies on memory that does not serve (R352). -/
def State.dmaBad (s : State) (d : Dma) (i : Nat) : Bool :=
  (d.usesSrc && d.sspace == 0 && s.poisoned (wrapAddr d.src d.srcWrap i)) ||
  (d.writes && d.dspace == 0 && s.poisoned (wrapAddr d.dst d.dstWrap i))

/-- The size of the next destination write at address a with n bytes left: 128 or 64 bytes in the body, else the
largest naturally aligned write of at most 32 bytes (R397). -/
def writeSize (a n : Nat) : Nat :=
  if a % 128 = 0 && decide (128 ≤ n) then 128
  else if a % 64 = 0 && decide (64 ≤ n) then 64
  else ([32, 16, 8, 4, 2].find? (fun k => a % k == 0 && decide (k ≤ n))).getD 1

/-- The bytes of destination that follow byte i without a break, of n: up to the wrap. -/
def Dma.unbroken (d : Dma) (i n : Nat) : Nat :=
  if d.dstWrap = 0 then n else min n (2 ^ d.dstWrap - (d.dst % 2 ^ d.dstWrap + i) % 2 ^ d.dstWrap)

/-- Write destination bytes from byte i on, in the writes of the funnel (R397). -/
def State.dmaPut (d : Dma) : Nat → State → Nat → List Byte → State
  | 0, s, _, _ => s
  | _, s, _, [] => s
  | fuel + 1, s, i, bs =>
    let a := wrapAddr d.dst d.dstWrap i
    let k := writeSize a (d.unbroken i bs.length)
    (s.spaceWrite d.dspace a (bs.take k)).dmaPut d fuel (i + k) (bs.drop k)

/-- Move bytes [from, to) of the descriptor, up to the first on memory that does not serve.  Answers how far it came. -/
def State.dmaMove (s : State) (d : Dma) (ext : List Byte) (from_ upto : Nat) : Nat × State :=
  let idx := (List.range (upto - from_)).map (from_ + ·)
  let stop := (idx.find? (s.dmaBad d)).getD upto
  let vals := (idx.take (stop - from_)).map (s.dmaByte d ext from_)
  let t := s.when d.usesSrc (fun s => s.over (pieces (wrapAddr d.src d.srcWrap from_) d.srcWrap (upto - from_))
    (fun s e => s.spaceRead d.sspace e.1 e.2))
  let t := t.dmaPut d (upto - from_) from_ vals
  (stop, { t with free := t.free + 1 })

/-- Bytes from `from_` on, beyond DONE, that were not acknowledged may or may not be written (R403). -/
def State.dmaLoose (s : State) (d : Dma) (ext : List Byte) (base from_ : Nat) : State :=
  let idx := ((List.range (d.len - from_)).map (from_ + ·)).filter (fun i => !s.dmaBad d i &&
    decide (Config.free "a byte beyond DONE is written" [(i : Nat)] s.free % 2 = 1))
  let t := (idx.map (fun i => (i, s.dmaByte d ext base i))).foldl (fun (t : State) e => t.dmaPut d 1 e.1 [e.2]) s
  { t with free := t.free + 1 }

/-- A request of the descriptor through PCIe is answered as unsupported or aborted: its port counts it (R404, R415). -/
def State.dmaUr (s : State) (d : Dma) : State :=
  let ps := ((if d.usesSrc then [d.sspace] else []) ++ [d.dspace]).filter (· != 0)
  match ps with
  | [] => s
  | p :: _ => s.pciUr (nth ps (Config.free "port that answered with an error" [] s.free % ps.length) p - 1)

/-- A byte of the source or of the destination of a COMPARE; what did not come through PCIe is free. -/
def State.cmpByte (s : State) (space a i : Nat) (ext : List Byte) : Byte :=
  if space = 0 then s.anyByte (a + i)
  else nth ext i (BitVec.ofNat 8 (Config.free "compared byte not delivered" [(space : Nat), (i : Nat)] s.free))

/-- The first byte below n in which the ranges of a COMPARE differ (R396). -/
def State.dmaDiff (s : State) (d : Dma) (src dst : List Byte) (n : Nat) : Option Nat :=
  (List.range n).find? (fun i => s.cmpByte d.sspace d.src i src != s.cmpByte d.dspace d.dst i dst)

/-- A COMPARE ends early: how many bytes it has compared is free, up to the first on memory that does not serve; DONE and
CMP_OFS tell of those (R393). -/
def State.dmaCompareEnd (s : State) (c status : Nat) (src dst : List Byte) : State :=
  let d := s.dmaCh c
  let bad := fun i => (d.sspace == 0 && s.poisoned (d.src + i)) || (d.dspace == 0 && s.poisoned (d.dst + i))
  let n := Config.free "bytes that a COMPARE compared before it ended" [(c : Nat)] s.free %
    (((List.range d.len).find? bad).getD d.len + 1)
  ({ s with free := s.free + 1 } : State).dmaComplete c status n (s.dmaDiff d src dst n)

/-! ## Commands (R395, R398 to R402) -/

/-- START: the channel fetches the descriptor at DMA_CH_HEAD; only in IDLE and HALTED (R402). -/
def State.dmaStart (s : State) (c : Nat) : State :=
  let st := s.fld DMA_CH_STAT.STATE c
  let a := s.fld DMA_CH_HEAD_LO.ADDR_LO c * 64 + (s.reg .DMA_CH_HEAD_HI c).toNat * 2 ^ 32
  if st = dmIDLE || st = dmHALTED then
    let s := s.setDma c { phase := .fetch, space := s.fld DMA_CH_CTRL.DSPACE c, addr := a,
                          count := s.fld DMA_CH_STAT.DB_COUNT c }
    (s.setFld DMA_CH_STAT.STATE c dmRUNNING).setReg64 .DMA_CH_CUR_LO .DMA_CH_CUR_HI c a
  else s

/-- DMA_START. -/
def execDmaStart (path : Path) (c : Fin 32) (s : State) : Res :=
  .next ((s.dmaStart c.val).wrote path .DMA_CH_CTRL c.val)

/-- STOP: the current descriptor ends with STOPPED once its issued writes are acknowledged; a channel that
runs none becomes IDLE (R402). -/
def State.dmaStop (s : State) (c : Nat) : State :=
  let d := s.dmaCh c
  match d.phase with
  | .idle => s
  | .data => (s.setDma c { d with ending := some dsSTOPPED }).setFld DMA_CH_STAT.STATE c dmSTOPPING
  | .readback => (s.setDma c { d with ending := some dsSTOPPED }).setFld DMA_CH_STAT.STATE c dmSTOPPING
  | _ => (s.setDma c { d with phase := .idle }).setFld DMA_CH_STAT.STATE c dmIDLE

/-- DMA_STOP. -/
def execDmaStop (path : Path) (c : Fin 32) (s : State) : Res :=
  .next ((s.dmaStop c.val).wrote path .DMA_CH_CTRL c.val)

/-- A doorbell counts (R400). -/
def State.dmaDoorbell (s : State) (c : Nat) : State :=
  s.setFld DMA_CH_STAT.DB_COUNT c (s.fld DMA_CH_STAT.DB_COUNT c + 1)

/-- DMA_DOORBELL: any write of DMA_CH_DB counts (R400). -/
def execDmaDoorbell (path : Path) (c : Fin 32) (s : State) : Res :=
  .next ((s.dmaDoorbell c.val).wrote path .DMA_CH_DB c.val)

/-- The descriptor breaks R393, R395 or R396. -/
def Dma.malformed (d : Dma) : Bool :=
  let wrapBad := fun (w : Nat) => w != 0 && (decide (w < 12) || decide (40 < w) || decide (2 ^ w < d.len))
  bits d.ctrl 22 0 != 0 || decide (4 < d.op) || (d.len == 0 && d.op != 4) || le d.desc 49 3 != 0 ||
  bits (le d.desc 40 8) 5 1 != 0 ||
  (d.stream && (le d.desc 27 5 != 0 || wrapBad d.srcWrap || wrapBad d.dstWrap ||
    decide (le d.desc 26 1 < 12) || decide (20 < le d.desc 26 1)))

/-- Every range of the descriptor is one that its space allows (R392). -/
def Dma.addressable (d : Dma) : Bool :=
  (!d.usesSrc || (pieces d.src d.srcWrap d.len).all (dmaReadable d.sspace)) &&
  (!(d.writes || d.op == 2) || (pieces d.dst d.dstWrap d.len).all (dmaWritable d.dspace)) &&
  (!d.stream || (d.progress % 8 == 0 && dmaWritable d.dspace (d.progress, 8)))

/-- A fetched descriptor is run, parked on, or completed at once: a link that is down fails it (R392, R395, R396, R404,
R406). -/
def State.dmaRun (s : State) (c : Nat) (d : Dma) : State :=
  let refused := (List.range 3).any (fun dom => s.drains dom && d.touches dom)
  if !bit d.ctrl 31 then (s.setDma c { d with phase := .parkOwn }).setFld DMA_CH_STAT.STATE c dmPARKED
  else
    let s := s.setDma c { d with phase := .data, done := 0 }
    if d.malformed then s.dmaComplete c dsBAD_DESC 0 none
    else if !d.addressable then s.dmaComplete c dsBAD_ADDR 0 none
    else if refused then s.dmaComplete c dsPWR_REFUSED 0 none
    else if [1, 2].any (fun sp => d.touches sp && !s.spaceUp sp) then s.dmaComplete c dsPCIE_ERR 0 none
    else if d.op = 4 then s.dmaComplete c dsOK 0 none
    else if d.op = 2 then
      ((s.setDma c { d with phase := .readback, done := 0 }).spaceRead d.sspace d.src d.len).spaceRead d.dspace d.dst d.len
    else s

/-- DMA_DESC_FETCH: channel c reads the LINK word of its completed descriptor, or re-reads it after a doorbell,
and fetches the descriptor; the doorbell count C is the one taken when the last descriptor completed, or at the re-read
of a parked channel.  `link`, `desc` and `error` are what comes back through PCIe for a chain in space 1
or 2 (R394, R395, R400).  A poisoned read ends in MEM_ERR, a link that is down in PCIE_ERR (R404). -/
def execDmaDescFetch (c : Fin 32) (link : BitVec 64) (desc : List Byte) (error : Bool) (s : State) : Res :=
  let c := c.val
  let d := s.dmaCh c
  let db := s.fld DMA_CH_STAT.DB_COUNT c
  let rung := db != d.count
  let taken := if d.phase == .parkLink || d.phase == .parkOwn then db else d.count
  let reads := d.phase == .relink || (d.phase == .parkLink && rung)
  let fetches := d.phase == .fetch || (d.phase == .parkOwn && rung)
  let word := if d.space = 0 then s.load (d.addr + 40) 8 else link.toNat
  let down := d.space != 0 && !s.spaceUp d.space
  let fail := fun (s : State) (status : Nat) => (s.setFld DMA_CH_STAT.LAST_STATUS c status).dmaHalt c status true
  let fetch := fun (s : State) (d : Dma) =>
    let s := s.when (d.space != 0 || inCellar d.addr 64 || inSystem d.addr 64) (·.spaceRead d.space d.addr 64)
    let s := s.setReg64 .DMA_CH_CUR_LO .DMA_CH_CUR_HI c d.addr
    let s := s.setFld DMA_CH_STAT.STATE c dmRUNNING
    let d := { d with desc := if d.space = 0 then s.bytes d.addr 64 else (desc ++ zeros 64).take 64, count := taken }
    if d.space = 0 && !(inCellar d.addr 64 || inSystem d.addr 64) then
      fail (s.setDma c d) dsBAD_ADDR
    else if d.space = 0 && s.poisonedRange d.addr 64 then fail (s.setDma c d) dsMEM_ERR
    else s.dmaRun c d
  .next (if !reads && !fetches then s
  else if down then fail s dsPCIE_ERR
  else if d.space != 0 && error then
    fail (((s.spaceRead d.space (d.addr + if reads then 40 else 0) (if reads then 8 else 64))).pciUr (d.space - 1)) dsPCIE_ERR
  else if reads then
    let s := s.spaceRead d.space (d.addr + 40) 8
    if d.space = 0 && s.poisonedRange (d.addr + 40) 8 then fail s dsMEM_ERR
    else if word % 2 = 0 then
      (s.setDma c { d with phase := .parkLink, count := taken }).setFld DMA_CH_STAT.STATE c dmPARKED
    else fetch s { d with addr := word / 64 * 64 }
  else fetch s d)

/-- Data writes of channel c's descriptor are acknowledged: all of them, or, when it is being ended early or the port
reports an error, those of the first n bytes; a STREAM gets here with less than a piece left. -/
def State.dmaAcked (s : State) (c n : Nat) (src : List Byte) (error : Bool) : State :=
  let d := s.dmaCh c
  let cut := d.ending.isSome || error
  let most := if d.stream then min d.len (d.done + d.piece - 1) else d.len
  let upto := if cut then max d.done (min n most) else d.len
  if d.phase != .data || (!cut && d.stream && decide (d.done + d.piece ≤ d.len)) then s
  else
    let r := (s.when error (·.dmaUr d)).dmaMove d src d.done upto
    if r.1 < upto then (r.2.dmaLoose d src d.done r.1).dmaEnd c dsMEM_ERR r.1
    else if error then (r.2.dmaLoose d src d.done r.1).dmaEnd c dsPCIE_ERR r.1
    else match d.ending with
      | some st => r.2.dmaEnd c st r.1
      | none => (r.2.setDma c { d with done := r.1 }).dmaReadback c none

/-- DMA_WRITES_ACKED: the data writes of channel c's descriptor are acknowledged; `n` of its bytes when it is being ended
early or the port reports an error (R398, R402, R403, R406). -/
def execDmaWritesAcked (c : Fin 32) (n : Nat) (src : List Byte) (error : Bool) (s : State) : Res :=
  .next (s.dmaAcked c.val n src error)

/-- The read-back returns, or the ranges of a COMPARE have been read: the last progress word is written and the descriptor
completes.  A status that it has already stands; else an error of the read or of the progress word gives it one. -/
def State.dmaReadDone (s : State) (c : Nat) (src dst : List Byte) (error : Bool) : State :=
  let d := s.dmaCh c
  if d.phase != .readback then s
  else
    let s := s.when error (·.dmaUr d)
    if d.op = 2 then
      let bad := fun i => (d.sspace == 0 && s.poisoned (d.src + i)) || (d.dspace == 0 && s.poisoned (d.dst + i))
      if error then s.dmaCompareEnd c (d.ending.getD dsPCIE_ERR) src dst
      else match d.ending with
        | some st => s.dmaCompareEnd c st src dst
        | none =>
          if (List.range d.len).any bad then s.dmaCompareEnd c dsMEM_ERR src dst
          else match s.dmaDiff d src dst d.len with
            | some i => s.dmaComplete c dsDIFFERENT d.len (some i)
            | none => s.dmaComplete c dsOK d.len none
    else
      let lost := d.dspace == 0 && (s.poisonedRange (wrapAddr d.dst d.dstWrap (d.done - 1) / 4 * 4) 4 ||
        (d.stream && s.poisonedRange d.progress 8))
      match d.ending with
      | some st => s.dmaComplete c st d.done none
      | none =>
        if error then s.dmaComplete c dsPCIE_ERR d.done none
        else if lost then s.dmaComplete c dsMEM_ERR d.done none
        else (s.when d.stream (·.spaceWrite d.dspace d.progress (leBytes 8 d.len))).dmaComplete c dsOK d.done none

/-- DMA_READBACK_DONE: the read-back returns, or the ranges of a COMPARE have been read (`src` and `dst` are what
came through PCIe) (R396, R398, R399, R404). -/
def execDmaReadbackDone (c : Fin 32) (src dst : List Byte) (error : Bool) (s : State) : Res :=
  .next (s.dmaReadDone c.val src dst error)

/-- Another piece of a STREAM is written and confirmed and the progress word takes the count; with an error, how many of
its bytes were acknowledged is free. -/
def State.dmaPiece (s : State) (c : Nat) (src : List Byte) (error : Bool) : State :=
  let d := s.dmaCh c
  let upto := d.done + d.piece
  if d.phase != .data || !d.stream || d.ending.isSome || decide (d.len < upto) then s
  else
    let got := if error then d.done + Config.free "bytes of a piece acknowledged before an error" [(c : Nat)] s.free % d.piece
      else upto
    let r := (s.when error (·.dmaUr d)).dmaMove d src d.done got
    if r.1 < got then (r.2.dmaLoose d src d.done r.1).dmaEnd c dsMEM_ERR r.1
    else if error then (r.2.dmaLoose d src d.done r.1).dmaEnd c dsPCIE_ERR r.1
    else
      let s := r.2.spaceRead d.dspace (wrapAddr d.dst d.dstWrap (upto - 1) / 4 * 4) 4
      if d.dspace = 0 && s.poisonedRange d.progress 8 then s.dmaEnd c dsMEM_ERR upto
      else (s.setDma c { d with done := upto }).spaceWrite d.dspace d.progress (leBytes 8 upto)

/-- DMA_PROGRESS: another piece of a STREAM is written and confirmed (R399, R403, R404). -/
def execDmaProgress (c : Fin 32) (src : List Byte) (error : Bool) (s : State) : Res := .next (s.dmaPiece c.val src error)

/-! ## Draining (R406) -/

/-- The engine starts to drain a domain. -/
def State.dmaDrain (s : State) (dom : Nat) : State :=
  let s : State := { s with dma := { s.dma with draining := Table.insert natLt s.dma.draining dom 0 } }
  let s := s.timerSet (tmDrain dom)
  (s.when (dom != 0) (·.setFlag PCI_STATUS.DRAINING (dom - 1) true)).dmaDrained dom

/-- DMA_DRAIN: the power manager asks a domain to power down (R406). -/
def execDmaDrain (domain : Fin 3) (s : State) : Res :=
  .next (if s.drains domain.val then s else s.dmaDrain domain.val)

/-- A running descriptor stops issuing and will end with PWR_ABORT: counted for every domain that drains under it
(R406, R413). -/
def State.dmaAbort (s : State) (c : Nat) : State :=
  let d := s.dmaCh c
  let s := s.over ((List.range 3).filter (fun dom => s.drains dom && d.uses dom)) (fun s dom =>
    { s with dma := { s.dma with draining := Table.insert natLt s.dma.draining dom (Table.getD s.dma.draining dom 0 + 1) } })
  (s.setDma c { d with ending := some dsPWR_ABORT }).setFld DMA_CH_STAT.STATE c dmDRAINING

/-- DMA_DRAIN_TIMEOUT: 100 µs into the drain the descriptors still running stop issuing and end with PWR_ABORT
once their issued writes are acknowledged (R406). -/
def execDmaDrainTimeout (domain : Fin 3) (s : State) : Res :=
  let dom := domain.val
  .next (if !s.drains dom || !s.timerDue (tmDrain dom) (100 * usCycles) then s
  else s.each 32 (fun s c =>
    let d := s.dmaCh c
    if (d.phase == .data || d.phase == .readback) && d.uses dom && d.ending.isNone then s.dmaAbort c else s))

/-- What a drain of the whole engine makes of channel c, where the steps around it take no time in the model: whether the
running descriptor reaches its step 6 within 100 µs is free, and else how many of its bytes were acknowledged (R406; log
entry 107). -/
def State.dmaDrainOut (s : State) (c : Nat) : State :=
  let d := s.dmaCh c
  if d.phase != .data && d.phase != .readback then s
  else if Config.free "a descriptor completes while its domain drains" [(c : Nat)] s.now % 2 = 0 then
    let s := s.each (if d.stream then (d.len - d.done) / d.piece else 0) (fun s _ => s.dmaPiece c [] false)
    (s.dmaAcked c 0 [] false).dmaReadDone c [] [] false
  else
    let n := Config.free "bytes acknowledged before a drain" [(c : Nat)] s.now % (d.len + 1)
    ((s.when d.ending.isNone (·.dmaAbort c)).dmaAcked c n [] false).dmaReadDone c [] [] false

/-- The port that a running descriptor uses fails it: it ends with PCIE_ERR; how many of its bytes were acknowledged is
free (R403, R404, R412). -/
def State.dmaFail (s : State) (c : Nat) : State :=
  let d := s.dmaCh c
  let status := d.ending.getD dsPCIE_ERR
  if d.op = 2 then s.dmaCompareEnd c dsPCIE_ERR [] []
  else if d.phase == .readback then s.dmaComplete c status d.done none
  else
    let left := if d.stream then min (d.len - d.done) (d.piece - 1) else d.len - d.done
    let n := d.done + Config.free "bytes acknowledged before the port failed" [(c : Nat)] s.free % (left + 1)
    let r := s.dmaMove d [] d.done n
    (r.2.dmaLoose d [] d.done r.1).dmaEnd c dsPCIE_ERR r.1

/-- Descriptors through port p end with PCIE_ERR (R412). -/
def State.dmaPortDown (s : State) (p : Nat) : State :=
  s.each 32 (fun s c =>
    let d := s.dmaCh c
    if (d.phase == .data || d.phase == .readback) && d.uses (p + 1) then s.dmaFail c
    else if d.phase != .idle && d.space = p + 1 && (d.phase == .fetch || d.phase == .relink) then
      (s.setFld DMA_CH_STAT.LAST_STATUS c dsPCIE_ERR).dmaHalt c dsPCIE_ERR true
    else s)

end Sys2Proof.Machine
end

