-- ==== Sys2Proof/Machine/PanOps.lean ====
section
/-! DEFINITION. Roles of units, free spares, and the report of a swap: what several units ask of the pantry
(R496 to R498, R524, R525). -/

namespace Sys2Proof.Machine

/-- Unit kinds of R496. -/
def kSLICE : Nat := 0
def kTILE : Nat := 1
def kOPAL : Nat := 2
def kMEM : Nat := 3
def kLANE : Nat := 4
def kCORE : Nat := 5
def kCSROW : Nat := 7
def kROW : Nat := 8

/-- Roles (R524). -/
def roSERVICE : Nat := 0
def roFREE : Nat := 1
def roSPARE : Nat := 2
def roRETIRED : Nat := 3
def roTEST : Nat := 4

/-- The role of a unit under the identity map (R15, R43, R133, R496). -/
def homeRole (kind u : Nat) : Nat :=
  let spare := match kind with
    | 0 => decide (32 ≤ u % 34)
    | 1 => decide (32 ≤ u % 34)
    | 2 => u == 16
    | 4 => u % 5 == 4
    | 5 => u == 8
    | _ => false
  if spare then roFREE else roSERVICE

/-- The role of a unit: slices show theirs in CNV_SL_STATE. -/
def State.role (s : State) (kind u : Nat) : Nat :=
  if kind = kSLICE then s.fld CNV_SL_STATE.ROLE u
  else Table.getD s.pan.roles (1024 * kind + u) (homeRole kind u)

/-- Set the role of a unit. -/
def State.setRole (s : State) (kind u r : Nat) : State :=
  if kind = kSLICE then s.setFld CNV_SL_STATE.ROLE u r
  else { s with pan := { s.pan with
    roles := Table.put natLt (homeRole kind u) s.pan.roles (1024 * kind + u) r } }

/-- The lowest free spare among units. -/
def State.freeSpare (s : State) (kind : Nat) (us : List Nat) : Option Nat :=
  us.find? (fun u => s.role kind u == roFREE)

/-- SPARE_USED's cause code (R525). -/
def SwapCause.code (c : SwapCause) : Nat :=
  match c with
  | .wear => 0
  | .failure => 1
  | _ => 2

/-- PAN_CMD_STAT.RESULT codes (R526). -/
def pcOK : Nat := 1
def pcNOSPARE : Nat := 2
def pcNOREQ : Nat := 3
def pcHELD : Nat := 4
def pcFAILED : Nat := 5

/-- The result of a pantry command. -/
def State.panResult (s : State) (r : Nat) : State :=
  (s.setFld PAN_CMD_STAT.RESULT 0 r).setFlag PAN_CMD_STAT.BUSY 0 false

/-- The policy of a kind: 0 AUTO, 1 ASK, 2 MANUAL (R513). -/
def State.policy (s : State) (kind : Nat) : Nat := bits (s.fld PAN_POLICY.POLICY 0) (2 * kind + 1) (2 * kind)

/-- A kind has no free spare on a die (0xFF: device-wide; R513, R525). -/
def State.spareEmpty (s : State) (kind die : Nat) : State := s.raise Ev.SPARE_EMPTY 0 [(0, 1, kind), (1, 1, die)]

/-- Report a wear candidate or a failure that policy leaves alone (R513, R525). -/
def State.wearReport (s : State) (kind u : Nat) (failure : Bool) : State :=
  s.raise Ev.WEAR 0 [(0, 1, kind), (1, 2, u), (3, 1, b2n failure)]

/-- The swap of a host command, or of a request that the host approved, has ended with a result (R526). -/
def State.swapAnswer (s : State) (kind u : Nat) (c : SwapCause) (r : Nat) : State :=
  let mine := s.pan.approved == some (kind, u)
  let s : State := if mine then { s with pan := { s.pan with approved := none } } else s
  s.when (c == .host || mine) (·.panResult r)

/-- A swap has ended: SPARE_USED, or ROTATED for a rotation; the epoch page counts it; a host command gets its
result (R515, R522, R525). -/
def State.swapUsed (s : State) (kind out inn row : Nat) (c : SwapCause) : State :=
  let s := s.stat (0xA0 + 2 * kind) 1
  match c with
  | .rotation =>
    let s := s.raise Ev.ROTATED 0 [(0, 1, kind), (1, 2, out), (3, 2, inn)]
    if s.pan.rotNow then ({ s with pan := { s.pan with rotNow := false } } : State).panResult pcOK else s
  | _ =>
    let s := s.raise Ev.SPARE_USED 0 [(0, 1, kind), (1, 2, out), (3, 2, inn), (5, 1, c.code), (6, 4, row)]
    s.swapAnswer kind out c pcOK

/-- A swap has failed at a step (R525). -/
def State.swapFail (s : State) (kind u step row : Nat) (c : SwapCause) : State :=
  (s.raise Ev.SWAP_FAIL 0 [(0, 1, kind), (1, 2, u), (3, 1, step), (4, 4, row)]).swapAnswer kind u c pcFAILED

/-! ## Step 2 of the ladder (R572, R582) -/

/-- Step 2 runs for a function: how often in the last hour, this time included, and FUNC_REINIT (R572, R582). -/
def State.step2 (s : State) (src inst : Nat) : Nat × State :=
  let key := 1024 * src + inst
  let past := (Table.getD s.rcv.steps key []).filter (fun t => decide (s.now < t + 3600 * sCycles))
  let n := past.length + 1
  let s : State := { s with rcv := { s.rcv with steps := Table.set [] s.rcv.steps key (past ++ [s.now]) } }
  (n, s.raise Ev.FUNC_REINIT 0 [(0, 1, src), (1, 2, inst), (3, 1, min n 255)])

/-- Step 2 runs for a function that is not a unit of the pantry. -/
def State.reinit (s : State) (src inst : Nat) : State := (s.step2 src inst).2

/-- A function has been retired (R582). -/
def State.funcRetired (s : State) (src inst : Nat) : State :=
  s.raise Ev.FUNC_RETIRED 0 [(0, 1, src), (1, 2, inst)]

end Sys2Proof.Machine
end

