-- ==== Sys2Proof/Machine/Crypto.lean ====
section
/-! DEFINITION. The digests, checks and signatures that the manual names: SHA-256 (R198, R454), CRC-32C
(R436), CRC-16 (R385, R458), and the verification of an ECDSA P-256 signature (R198, R560). -/

namespace Sys2Proof.Machine

/-! ## SHA-256 -/

/-- A number has no divisor but one and itself. -/
def isPrime (n : Nat) : Bool := decide (2 ≤ n) && (List.range n).all (fun d => decide (d < 2) || n % d != 0)

/-- The first 64 primes. -/
def shaPrimes : List Nat := (List.range 312).filter isPrime

/-- The largest number below 2^40 whose k-th power is at most n. -/
def rootBits (k n : Nat) : Nat :=
  (List.range 40).foldl (fun r i =>
    let c := r + 2 ^ (39 - i)
    if c ^ k ≤ n then c else r) 0

/-- The first 32 fractional bits of the k-th root of p. -/
def rootFraction (k p : Nat) : BitVec 32 := BitVec.ofNat 32 (rootBits k (p * 2 ^ (32 * k)))

/-- The round constants: of the cube roots of the first 64 primes. -/
def shaK : List (BitVec 32) := shaPrimes.map (rootFraction 3)

/-- The initial hash value: of the square roots of the first eight primes. -/
def shaInit : List (BitVec 32) := (shaPrimes.take 8).map (rootFraction 2)

/-- One step of the message schedule: the 16 latest words, newest first, give the next. -/
def shaNext (w : List (BitVec 32)) : BitVec 32 :=
  let x := nth w 14 0
  let y := nth w 1 0
  let s0 := x.rotateRight 7 ^^^ x.rotateRight 18 ^^^ (x >>> 3)
  let s1 := y.rotateRight 17 ^^^ y.rotateRight 19 ^^^ (y >>> 10)
  nth w 15 0 + s0 + nth w 6 0 + s1

/-- The 64 words of the message schedule. -/
def shaSchedule (block : List (BitVec 32)) : List (BitVec 32) :=
  (iter (fun w => shaNext w :: w) 48 block.reverse).reverse

/-- One round over the eight working variables. -/
def shaRound (v : List (BitVec 32)) (kw : BitVec 32 × BitVec 32) : List (BitVec 32) :=
  match v with
  | [a, b, c, d, e, f, g, h] =>
    let s1 := e.rotateRight 6 ^^^ e.rotateRight 11 ^^^ e.rotateRight 25
    let t1 := h + s1 + ((e &&& f) ^^^ (~~~e &&& g)) + kw.1 + kw.2
    let s0 := a.rotateRight 2 ^^^ a.rotateRight 13 ^^^ a.rotateRight 22
    let t2 := s0 + ((a &&& b) ^^^ (a &&& c) ^^^ (b &&& c))
    [t1 + t2, a, b, c, d + t1, e, f, g]
  | _ => v

/-- Big-endian 32-bit words of a byte string. -/
def beWords : Nat → List Byte → List (BitVec 32)
  | 0, _ => []
  | n + 1, l => BitVec.ofNat 32 (ofBe (l.take 4)) :: beWords n (l.drop 4)

/-- Compress blocks of 64 bytes. -/
def shaBlocks : Nat → List (BitVec 32) → List Byte → List (BitVec 32)
  | 0, h, _ => h
  | n + 1, h, l =>
    let v := (shaK.zip (shaSchedule (beWords 16 (l.take 64)))).foldl shaRound h
    shaBlocks n ((h.zip v).map (fun e => e.1 + e.2)) (l.drop 64)

/-- SHA-256 of a byte string: 32 bytes. -/
def sha256 (m : List Byte) : List Byte :=
  let pad := (119 - m.length % 64) % 64
  let p := m ++ [0x80] ++ zeros pad ++ beBytes 8 (8 * m.length)
  ((shaBlocks (p.length / 64) shaInit p).map (fun w => beBytes 4 w.toNat)).flatten

/-! ## Cyclic redundancy checks -/

/-- One 16-bit word into the CRC of polynomial 0x8005, high bit first (R385). -/
def crcWord (crc v : Nat) : Nat :=
  (List.range 16).foldl (fun c i =>
    let fb := (bit c 15 != bit v (15 - i))
    c * 2 % 65536 ^^^ (if fb then 0x8005 else 0)) crc

/-- One byte into the reflected CRC of the Castagnoli polynomial. -/
def crc32cByte (c : Nat) (b : Byte) : Nat :=
  iter (fun x => if x % 2 = 1 then x / 2 ^^^ 0x82F63B78 else x / 2) 8 (c ^^^ b.toNat)

/-- CRC-32C: initial value 0xFFFFFFFF and final inversion. -/
def crc32c (l : List Byte) : Nat := l.foldl crc32cByte 0xFFFFFFFF ^^^ 0xFFFFFFFF

/-! ## ECDSA over P-256 -/

def ecP : Nat := 2 ^ 256 - 2 ^ 224 + 2 ^ 192 + 2 ^ 96 - 1
def ecN : Nat := 0xffffffff00000000ffffffffffffffffbce6faada7179e84f3b9cac2fc632551
def ecB : Nat := 0x5ac635d8aa3a93e7b3ebbd55769886bc651d06b0cc53b0f63bce3c3e27d2604b
def ecG : Nat × Nat :=
  (0x6b17d1f2e12c4247f8bce6e563a440f277037d812deb33a0f4a13945d898c296,
   0x4fe342e2fe1a7f9b8ee7eb4a7c0f9e162bce33576b315ececbb6406837bf51f5)

/-- Modular power by 256 squarings. -/
def powMod (b e m : Nat) : Nat :=
  (List.range 256).foldl (fun r i =>
    let r := r * r % m
    if bit e (255 - i) then r * b % m else r) 1

/-- Inverse modulo a prime. -/
def invMod (a m : Nat) : Nat := powMod (a % m) (m - 2) m

/-- Sum of two points; none is the point at infinity. -/
def ecAdd (a b : Option (Nat × Nat)) : Option (Nat × Nat) :=
  match a, b with
  | none, q => q
  | q, none => q
  | some (x1, y1), some (x2, y2) =>
    if x1 = x2 && (y1 + y2) % ecP = 0 then none
    else
      let l := if x1 = x2 then (3 * x1 * x1 + ecP - 3) * invMod (2 * y1) ecP % ecP
        else (y2 + ecP - y1) * invMod (x2 + ecP - x1) ecP % ecP
      let x3 := (l * l + 2 * ecP - x1 - x2) % ecP
      some (x3, (l * (x1 + ecP - x3) + ecP - y1) % ecP)

/-- A multiple of a point. -/
def ecMul (k : Nat) (p : Nat × Nat) : Option (Nat × Nat) :=
  (List.range 256).foldl (fun r i =>
    let r := ecAdd r r
    if bit k (255 - i) then ecAdd r (some p) else r) none

/-- Does the signature (r, s; 32 big-endian bytes each) over a 32-byte digest verify under a public key of 64
bytes (x then y)? -/
def ecdsaVerify (pub digest r s : List Byte) : Bool :=
  let q := (ofBe (pub.take 32), ofBe (pub.drop 32))
  let r := ofBe r
  let s := ofBe s
  let onCurve := decide (q.1 < ecP) && decide (q.2 < ecP) &&
    (q.2 * q.2 % ecP == (q.1 * q.1 * q.1 + (ecP - 3) * q.1 + ecB) % ecP)
  if !onCurve || pub.length != 64 || r = 0 || ecN ≤ r || s = 0 || ecN ≤ s then false
  else
    let w := invMod s ecN
    match ecAdd (ecMul (ofBe digest * w % ecN) ecG) (ecMul (r * w % ecN) q) with
    | none => false
    | some (x, _) => x % ecN == r

/-- The KEY_ID of a public key of 64 bytes: the first 8 bytes of the SHA-256 of its uncompressed point form (R198). -/
def keyId (pub : List Byte) : List Byte := (sha256 (0x04 :: pub)).take 8

end Sys2Proof.Machine
end

