-- ==== Sys2Proof/Machine/FabOps.lean ====
section
/-! DEFINITION. The fabric's messages, its link-state database, routes and trigger trees, and what other units ask
of it (R447 to R461, R466, R467). -/

namespace Sys2Proof.Machine

def State.port (s : State) (p : Nat) : FabPort := Table.getD s.fab.ports p {}

def State.setPort (s : State) (p : Nat) (x : FabPort) : State :=
  { s with fab := { s.fab with ports := Table.set {} s.fab.ports p x } }

/-- FAB_PORT_STAT.STATE: 0 down, 1 training, 2 up, 3 neighbour up. -/
def State.portState (s : State) (p : Nat) : Nat := s.fld FAB_PORT_STAT.STATE p

/-- Vyder ports that are up. -/
def State.vyderUp (s : State) : List Nat :=
  (List.range 6).filter (fun p => s.fld FAB_PORT_CFG.MODE p == 1 && decide (2 ≤ s.portState p))

/-- This module's UID, address and ADDR_STATE. -/
def State.uid (s : State) : Nat := s.reg64 .FAB_UID_LO .FAB_UID_HI 0
def State.fabAddr (s : State) : Nat := s.fld FAB_STATUS.ADDR 0
def State.addrState (s : State) : Nat := s.fld FAB_STATUS.ADDR_STATE 0

/-- An ADDR_STATE that holds its address: CLAIMED or HOST. -/
def holds (st : Nat) : Bool := st == 1 || st == 2

/-- The cost of port p's link: doubled on two lanes (R442). -/
def State.portCost (s : State) (p : Nat) : Nat :=
  s.fld FAB_PORT_CFG.COST p * (if s.fld FAB_PORT_STAT.LANES p = 2 then 2 else 1)

/-- This module's LSA (R451). -/
def State.ownLsa (s : State) : FabLsa :=
  ⟨BitVec.ofNat 64 s.uid, BitVec.ofNat 12 s.fabAddr, BitVec.ofNat 2 s.addrState, BitVec.ofNat 32 s.fab.inc,
   BitVec.ofNat 32 s.fab.lsaSeq,
   ((List.range 6).filter (fun p => s.portState p == 3)).map (fun p =>
     ⟨BitVec.ofNat 64 (s.port p).uid, BitVec.ofNat 12 (s.fld FAB_PORT_STAT.NBR_ADDR p), Fin.ofNat 6 p,
      Fin.ofNat 6 (s.port p).rport, BitVec.ofNat 17 (s.portCost p)⟩)⟩

/-! ## Graphs (R452, R456) -/

/-- The LSA of a module. -/
def lsaOf (g : List FabLsa) (uid : BitVec 64) : Option FabLsa := g.find? (fun l => l.uid == uid)

/-- Does the other end list the link too (R452)? -/
def linkCounts (g : List FabLsa) (a : BitVec 64) (l : FabLink) : Bool :=
  match lsaOf g l.uid with
  | some b => b.links.any (fun m => m.uid == a && m.lport == l.rport && m.rport == l.lport)
  | none => false

/-- The links of a module that count. -/
def edges (g : List FabLsa) (a : BitVec 64) : List FabLink :=
  match lsaOf g a with
  | some x => x.links.filter (linkCounts g a)
  | none => []

/-- A distance table: module and its least cost to the root. -/
def distOf (d : List (BitVec 64 × Nat)) (a : BitVec 64) : Option Nat := (d.find? (fun e => e.1 == a)).map (·.2)

/-- The least of the costs by one more hop. -/
def viaBest (g : List FabLsa) (d : List (BitVec 64 × Nat)) (a : BitVec 64) : Option Nat :=
  (edges g a).foldl (fun m l =>
    match distOf d l.uid with
    | none => m
    | some n =>
      let c := n + l.cost.toNat
      match m with
      | none => some c
      | some x => some (min x c)) none

/-- Least costs from every module to `root`. -/
def dists (g : List FabLsa) (root : BitVec 64) : List (BitVec 64 × Nat) :=
  iter (fun d => g.filterMap (fun l =>
    if l.uid = root then some (root, 0) else (viaBest g d l.uid).map (fun c => (l.uid, c)))) g.length
    [(root, 0)]

/-- The links of `a` that lie on a least-cost path to the root of `d`, lowest neighbour address first. -/
def bestLinks (g : List FabLsa) (d : List (BitVec 64 × Nat)) (a : BitVec 64) : List FabLink :=
  match distOf d a with
  | none => []
  | some n =>
    let l := (edges g a).filter (fun l => match distOf d l.uid with
      | some m => m + l.cost.toNat == n
      | none => false)
    l.mergeSort (fun x y => decide (x.addr.toNat * 8 + x.lport.val ≤ y.addr.toNat * 8 + y.lport.val))

/-- The link to the parent of `a` in tree 0 of `root` (R459). -/
def parent0 (g : List FabLsa) (d : List (BitVec 64 × Nat)) (root a : BitVec 64) : Option FabLink :=
  if a = root then none else (bestLinks g d a).head?

/-- The database without the links of tree 0 of `root`. -/
def withoutTree (g : List FabLsa) (root : BitVec 64) : List FabLsa :=
  let d := dists g root
  let par := g.filterMap (fun x => (parent0 g d root x.uid).map (fun l => (x.uid, l)))
  g.map (fun x => { x with links := x.links.filter (fun l =>
    !(par.any (fun e => (e.1 == x.uid && e.2 == l) ||
      (e.1 == l.uid && e.2.uid == x.uid && e.2.lport == l.rport && e.2.rport == l.lport)))) })

/-- The parent link of `a` in a tree of `root`: in tree 1, a module that has no path without tree 0's links keeps
its parent of tree 0 (R459). -/
def treeParent (g : List FabLsa) (tree : Nat) (root a : BitVec 64) : Option FabLink :=
  let p0 := parent0 g (dists g root) root a
  if tree = 0 then p0
  else
    let g1 := withoutTree g root
    match parent0 g1 (dists g1 root) root a with
    | some l => some l
    | none => p0

/-- The ports of `me` that lead to its children in a tree of `root`. -/
def childPorts (g : List FabLsa) (tree : Nat) (root me : BitVec 64) : List Nat :=
  g.filterMap (fun x =>
    match treeParent g tree root x.uid with
    | some l => if l.uid = me then some l.rport.val else none
    | none => none)

/-- The depth of a module in tree 0 of `root`. -/
def depthOf (g : List FabLsa) (d : List (BitVec 64 × Nat)) (root : BitVec 64) : Nat → BitVec 64 → Nat
  | 0, _ => 0
  | n + 1, a => match parent0 g d root a with
    | none => 0
    | some l => depthOf g d root n l.uid + 1

/-- The depth of tree 0 of `root`. -/
def treeDepth (g : List FabLsa) (root : BitVec 64) : Nat :=
  let d := dists g root
  g.foldl (fun m x => max m (depthOf g d root g.length x.uid)) 0

/-! ## Routing (R456 to R458) -/

/-- The module that holds an address. -/
def holderOf (g : List FabLsa) (addr : Nat) : Option FabLsa :=
  (g.filter (fun l => l.addr.toNat == addr && holds l.addrState.toNat)).foldl (fun m l =>
    match m with
    | none => some l
    | some x => if l.uid.toNat < x.uid.toNat then some l else some x) none

/-- The routing table's entry: up to four next-hop ports. -/
def State.nextHops (s : State) (addr : Nat) : List Nat :=
  match holderOf s.fab.inst addr with
  | none => []
  | some l => ((bestLinks s.fab.inst (dists s.fab.inst l.uid) (BitVec.ofNat 64 s.uid)).map (·.lport.val)).take 4

/-- The next hop of a message (R458). -/
def State.nextHop (s : State) (src dst flow : Nat) : Option Nat :=
  let ps := s.nextHops dst
  if ps = [] then none
  else
    let h := [src, dst, flow].foldl crcWord 0
    ps[h % ps.length]?

/-! ## Messages (R447, R448) -/

def msgHELLO : Nat := 1
def msgLSA : Nat := 2
def msgTIME : Nat := 3
def msgANNOUNCE : Nat := 4
def msgTRIGGER : Nat := 5
def msgITEM : Nat := 6
def msgRTVREQ : Nat := 7
def msgCREDIT : Nat := 8

/-- The virtual channel of a type. -/
def msgVc (type : Nat) : Nat :=
  if type = msgTRIGGER then 0 else if type = msgITEM || type = msgRTVREQ then 2 else 1

/-- A message: header and payload in 64-byte units. -/
def fabMsg (type : Nat) (bcast : Bool) (h : FabHdr) (payload : List Byte) : List Byte :=
  let units := (payload.length + 63) / 64
  leBytes 1 type ++ leBytes 1 (h.hops.toNat * 16 + msgVc type * 4 + b2n bcast * 2 + b2n h.retried) ++
  leBytes 2 h.dst.toNat ++ leBytes 2 h.src.toNat ++ leBytes 2 h.inc.toNat ++ leBytes 4 h.seq.toNat ++
  leBytes 2 h.flow.toNat ++ leBytes 2 units ++ payload ++ zeros (units * 64 - payload.length)

/-- The messages that the latest 256 flits belong to, newest first: a flit carries 60 bytes (R443, R444). -/
def replayOf : Nat → List (List Nat × List Byte) → List (List Nat × List Byte)
  | _, [] => []
  | n, m :: rest => if n = 0 then [] else m :: replayOf (n - (m.2.length + 59) / 60) rest

/-- A message leaves on a port, and its flits stand in the port's replay buffer (R444). -/
def State.fabSend (s : State) (p : Nat) (args : List Nat) (bs : List Byte) : State :=
  (s.setPort p { s.port p with replay := replayOf 256 ((args, bs) :: (s.port p).replay) }).emit
    (.send (.fabric p) args bs)

/-- Send a message on a port. -/
def State.fabOut (s : State) (p type : Nat) (bcast : Bool) (h : FabHdr) (payload : List Byte) : State :=
  s.fabSend p [type, h.dst.toNat] (fabMsg type bcast h payload)

/-- A header of this module's own; the numbered types take the next SEQ (R461). -/
def State.ownHdr (s : State) (dst flow : Nat) : FabHdr :=
  ⟨0, false, BitVec.ofNat 12 dst, BitVec.ofNat 12 s.fabAddr, BitVec.ofNat 16 s.fab.inc,
   BitVec.ofNat 32 s.trg.seq, BitVec.ofNat 16 flow, false⟩
def State.seqNext (s : State) : State := { s with trg := { s.trg with seq := s.trg.seq + 1 } }

/-- The header after one more hop; none past 15 hops (R448). -/
def hdrHop (h : FabHdr) : Option FabHdr :=
  if h.hops.toNat = 15 then none else some { h with hops := h.hops + 1 }

/-- Count an undeliverable message. -/
def State.noRoute (s : State) : State := s.addFld FAB_NO_ROUTE.COUNT 0 1

/-- Send a routed message of this module (R456, R457); the flag says whether a next hop was found. -/
def State.sendRouted (s : State) (type dst flow : Nat) (payload : List Byte) : Bool × State :=
  let h := s.ownHdr dst flow
  match s.nextHop h.src.toNat dst flow with
  | none => (false, s.noRoute)
  | some p => (true, (s.fabOut p type false h payload).seqNext)

/-- Forward a routed message of another module (R448, R457). -/
def State.forward (s : State) (type : Nat) (h : FabHdr) (payload : List Byte) : State :=
  match hdrHop h, s.nextHop h.src.toNat h.dst.toNat h.flow.toNat with
  | some h', some p => s.fabOut p type false h' payload
  | _, _ => s.noRoute

/-- Send a message to every Vyder port that is up but one. -/
def State.flood (s : State) (type : Nat) (except : Option Nat) (h : FabHdr) (payload : List Byte) : State :=
  s.over (s.vyderUp.filter (fun p => some p != except)) (fun s p => s.fabOut p type false h payload)

/-- The bytes of a LSA's payload, in the order of R451. -/
def lsaBytes (l : FabLsa) : List Byte :=
  leBytes 8 l.uid.toNat ++ leBytes 2 (l.addr.toNat + l.addrState.toNat * 2 ^ 14) ++ leBytes 4 l.inc.toNat ++
  leBytes 4 l.seq.toNat ++ leBytes 1 l.links.length ++
  (l.links.map (fun k => leBytes 8 k.uid.toNat ++ leBytes 2 k.addr.toNat ++ leBytes 1 k.lport.val ++
    leBytes 1 k.rport.val ++ leBytes 4 k.cost.toNat)).flatten

/-- Send a new LSA: LSA_SEQ rises by one (R451). -/
def State.newLsa (s : State) : State :=
  let s : State := { s with fab := { s.fab with lsaSeq := s.fab.lsaSeq + 1 } }
  let s := s.timerSet tmLsa
  (s.flood msgLSA none (s.ownHdr 0 0) (lsaBytes s.ownLsa)).seqNext

/-- May this module send messages of its own besides HELLO, LSA and TIME (R453)? -/
def State.addressed (s : State) : Bool := holds s.addrState

/-! ## Triggers (R316, R459) -/

/-- The bytes of a fabric trigger message: ID, source address, cell, T_ref, sequence number (R316). -/
def triggerMsg (id addr c t seq : Nat) : List Byte :=
  leBytes 1 id ++ leBytes 2 addr ++ leBytes 1 c ++ otBytes t ++ leBytes 4 seq

/-- Send a TRIGGER of this module on its trees: tree 0, and tree 1 when DUAL is set for the ID. -/
def State.sendTrigger (s : State) (id c t : Nat) : State :=
  if !s.addressed then s
  else
    let me := BitVec.ofNat 64 s.uid
    let h := { s.ownHdr 0 0 with dst := BitVec.ofNat 12 id }
    let pay := triggerMsg id s.fabAddr c t s.trg.seq
    let trees := if bit (s.reg64 .FAB_TRG_DUAL_LO .FAB_TRG_DUAL_HI 0) id then [0, 1] else [0]
    (s.over trees (fun s tree =>
      s.over (childPorts s.fab.inst tree me me) (fun s p =>
        s.fabSend p [msgTRIGGER, id, tree] (fabMsg msgTRIGGER true h pay)))).seqNext

/-! ## Credit (R466) -/

/-- Receive-ring bytes that an entry with `n` payload bytes takes (R468). -/
def entrySize (n : Nat) : Nat := (32 + n + 63) / 64 * 64

/-- The most payload of one piece: its entry of at most 64 KiB fits a message (R447, R466). -/
def pieceMax : Nat := 65536 - 32

/-- The 32-byte entry header of R468. -/
def entryHeader (type src len id off : Nat) : List Byte :=
  leBytes 1 type ++ zeros 1 ++ leBytes 2 src ++ leBytes 4 len ++ leBytes 8 id ++ leBytes 4 off ++ zeros 12

/-- Ask a destination for credit until `n` bytes are held or asked for. -/
def State.askCredit (s : State) (dst n : Nat) : State :=
  let have_ := Table.getD s.fab.credit dst 0 + Table.getD s.fab.asked dst 0
  if n ≤ have_ || !s.addressed then s
  else
    let k := n - have_
    let r := s.sendRouted msgCREDIT dst 0 (leBytes 4 k ++ [0])
    if r.1 then
      { r.2 with fab := { r.2.fab with asked := Table.modify 0 r.2.fab.asked dst (· + k) } }
    else r.2

/-- Send one piece when its credit is held: none while it waits. -/
def State.sendPiece (s : State) (dst flow type id off : Nat) (data : List Byte) : Option (Bool × State) :=
  let cost := entrySize data.length
  if !s.addressed || Table.getD s.fab.credit dst 0 < cost then none
  else
    let s : State := { s with fab := { s.fab with credit := Table.modify 0 s.fab.credit dst (· - cost) } }
    let e := entryHeader type s.fabAddr data.length id off ++ data
    some (s.sendRouted msgITEM dst flow (e ++ zeros (cost - e.length)))

/-- Send what a transfer may send: its next piece, or at the end its completion (R467); none when it waits. -/
def State.xferStep (s : State) (x : FabXfer) : Option (Option FabXfer × State) :=
  let flow := x.req % 65536
  if x.off < x.data.length then
    let d := slice x.data x.off pieceMax
    (s.sendPiece x.dst flow 2 x.req x.off d).map (fun r => (some { x with off := x.off + d.length }, r.2))
  else (s.sendPiece x.dst flow 3 x.req 0 x.entry).map (fun r => (none, r.2))

/-- Send the pieces of one transfer as far as its credit goes. -/
def State.xferRun : Nat → State → FabXfer → Option FabXfer × State
  | 0, s, x => (some x, s)
  | n + 1, s, x => match s.xferStep x with
    | none => (some x, s)
    | some (none, t) => (none, t)
    | some (some y, t) => State.xferRun n t y

/-- Send the pieces of every transfer to `dst`, oldest first, as far as the credit goes. -/
def State.xferPump (s : State) (dst : Nat) : State :=
  let xs := s.fab.xfers
  let s : State := { s with fab := { s.fab with xfers := [] } }
  s.over xs (fun s x =>
    let r := if x.dst = dst then State.xferRun (x.data.length / pieceMax + 2) s x else (some x, s)
    match r.1 with
    | some y => { r.2 with fab := { r.2.fab with xfers := r.2.fab.xfers ++ [y] } }
    | none => r.2)

/-- Bytes of receive ring that a transfer still needs. -/
def FabXfer.need (x : FabXfer) : Nat :=
  let left := x.data.length - x.off
  left / pieceMax * 65536 + (if left % pieceMax = 0 then 0 else entrySize (left % pieceMax)) + 64

/-- Ask `dst` for the credit that the transfers to it still need, as far as it is neither held nor asked for: what others
have spent of it is asked for again (R466, R467). -/
def State.xferAsk (s : State) (dst : Nat) : State :=
  s.askCredit dst ((s.fab.xfers.filter (·.dst == dst)).foldl (fun n y => n + y.need) 0)

/-- A retrieval result leaves for another module under the credit rule (R467). -/
def State.startXfer (s : State) (dst req : Nat) (data entry : List Byte) : State :=
  let x : FabXfer := ⟨dst, req, data, 0, entry⟩
  let s : State := { s with fab := { s.fab with xfers := s.fab.xfers ++ [x] } }
  (s.xferAsk dst).xferPump dst

end Sys2Proof.Machine
end

