-- ==== Sys2Proof/Machine/TimeOps.lean ====
section
/-! DEFINITION. Anchors, the clock state of blocks, and the loss map: what several units write. -/

namespace Sys2Proof.Machine

/-! ## Regions of the cellar -/

/-- A region of the partition in force, by type and instance (R323). -/
def State.region (s : State) (type inst : Nat) : Option Region :=
  s.cel.regions.find? (fun r => r.type == type && r.inst == inst)

/-! ## Clock state of a die (R96) -/

/-- CLKQ of die k: the worst of the tree state and the die's own state. -/
def State.clkq (s : State) (k : Nat) : Nat :=
  let d := s.die k
  if !s.clk.everLocked || d.switching || (d.onBypass && !s.flag CLK_STATUS.BYP_LOCK 0) then 3
  else if d.onBypass then 2
  else if s.fld CLK_STATUS.TREE 0 == 1 || s.clk.ret.isSome then 1
  else 0

/-! ## Anchors (R119 to R121, R350) -/

/-- Anchor types. -/
def anEPOCH : Nat := 1
def anCLKQ : Nat := 2
def anDELAY : Nat := 3
def anDISCONTINUITY : Nat := 4
def anRESUME : Nat := 5
def anRATE : Nat := 6
def anRUNSTART : Nat := 7

/-- The 64 bytes of an anchor (R119). -/
def anchorBytes (type k clkq flags block time period : Nat) (residual jump : Int) (epoch : Nat) :
    List Byte :=
  leBytes 1 type ++ leBytes 1 k ++ leBytes 1 clkq ++ leBytes 1 flags ++ zeros 4 ++ leBytes 8 block ++
  otBytes time ++ zeros 4 ++ leBytes 8 period ++ leBytes 8 (toU 64 residual) ++
  leBytes 8 (toU 64 jump) ++ leBytes 8 epoch

/-- Write an anchor of die k for block `block`, whose sample 0 is at `time` (2^-80 s); `jump` in fs.
The previous anchor's prediction gives RESIDUAL (R610).  The entry is appended to the log when its
write is acknowledged (R350). -/
def State.anchorP (s : State) (type k block time p : Nat) (jump : Int) : State :=
  let d := s.die k
  let residual : Int :=
    if d.anchors != [] then otToFs ((time : Int) - s.sampleTime k (80 * block)) - jump else 0
  let flags := b2n d.ambig + 2 * b2n (!s.flag TDC_STATUS.TIME_VALID 0)
  let bs := anchorBytes type k (s.clkq k) flags block time p residual jump s.epoch.num
  let s := s.setDie k { d with anchors := ⟨block, time, p⟩ :: d.anchors, ambig := false }
  ({ s with cel := { s.cel with anchors := s.cel.anchors ++ [bs] } } : State).stat 0xD2 1

/-- `anchorP` with the sample period in force: R119 does not say whether PERIOD of an anchor other than RATE is
the measured period or that of the words in force (DESIGN CHOICE, log entry 92). -/
def State.anchor (s : State) (type k block time : Nat) (jump : Int) : State :=
  s.anchorP type k block time (s.period k) jump

/-- Write an anchor for a block at its predicted time. -/
def State.anchorPred (s : State) (type k block : Nat) : State :=
  s.anchor type k block (s.sampleTime k (80 * block)) 0

/-- A change of the clock state: the block in progress keeps the worst state, and each die whose CLKQ
changed gets an anchor, for the block in progress when the state worsened and for the next block when
it improved (R47, R121; log entry 12). -/
def State.clockChange (s : State) (f : State → State) : State :=
  (f s).each 8 (fun t k =>
    let old := s.clkq k
    let new := t.clkq k
    let d := t.die k
    let t := t.setDie k { d with worst := max d.worst new }
    let t := t.statIn false (fun x => statHigh x (0xCA + k) new)
    if old = new then t
    else if !d.started then t
    else t.anchorPred anCLKQ k (if old < new then d.count else d.count + 1))

/-! ## The loss map (R353, R354) -/

/-- The ring's K and number of slots under RING_GIB = g (R325). -/
def ringK (g : Nat) : Nat := 256 * g
def ringSlots (g : Nat) : Nat := 128 * ringK g

/-- The RING_GIB in force. -/
def State.gib (s : State) : Nat := s.fld CEL_RING_CFG.RING_GIB 0

/-- The slot of block b of die k in a ring of g GiB with run offset `ofs` (R325). -/
def ringSlot (g ofs b : Nat) : Nat := if g = 0 then 0 else (b + ofs) % ringSlots g

/-- The cellar address of slot n of channel c (R325). -/
def slotAddr (g c n : Nat) : Nat := 16384 * (c * ringK g + n / 128) + 128 * ((c + n) % 128)

/-- The cellar address of block b of channel c under RING_GIB = g. -/
def State.ringAddr (s : State) (g c b : Nat) : Nat :=
  slotAddr g c (ringSlot g (s.fld CEL_RING_OFS.OFS (c / 32)) b)

/-- The 192 bytes of a loss-map entry (R353). -/
def LossEntry.bytes (e : LossEntry) : List Byte :=
  let num (o : Option Nat) := match o with
    | some n => leBytes 8 n
    | none => leBytes 8 (2 ^ 64 - 1)
  leBytes 8 e.entry ++ leBytes 1 e.cause ++ leBytes 1 (if e.closed.isSome then 2 else 1) ++
  leBytes 2 e.hpc ++ zeros 4 ++ otBytes e.opened ++ otBytes (e.closed.getD 0) ++ zeros 24 ++
  ((List.range 8).map (fun k => num (nth e.first k none) ++ num (nth e.last k none))).flatten

/-- Store a loss-map entry in its slot of the LOSS_MAP region. -/
def State.storeLoss (s : State) (e : LossEntry) : State :=
  match s.region 6 0 with
  | none => s
  | some r => s.devPut srcRing (r.offset + 192 * (e.entry % (r.length / 192))) e.bytes

/-- The full count of the next block of die k that the ring writer will receive. -/
def State.nextLand (s : State) (k : Nat) : Nat :=
  match (s.die k).hubLink with
  | b :: _ => b.count
  | [] => (s.die k).count

/-- Does some channel of die k have its slot of block b in cellar pseudo-channel `hpc`?  Every block
counts when hpc is 0xFFFF (R353). -/
def State.lossHits (s : State) (k hpc b : Nat) : Bool :=
  hpc == 0xFFFF ||
  (hpc + 128 - ringSlot s.gib (s.fld CEL_RING_OFS.OFS k) b % 128) % 128 / 32 == k % 4

/-- Open a loss-map entry for a cellar pseudo-channel (0xFFFF: anywhere).  FIRST_k is the first full
count of die k that the cause loses: among the blocks `lost` now, or from the next block on.  While the
writer is stopped no entry is opened (R354). -/
def State.openLoss (s : State) (cause hpc : Nat) (lost : List SBlock) : State :=
  if !s.cel.running then s
  else
    let firsts := (List.range 8).map (fun k =>
      let b := (lost.filter (fun x => x.ch / 32 == k)).foldl (fun m x => min m x.count) (s.nextLand k)
      ((List.range 128).map (b + ·)).find? (s.lossHits k hpc))
    let e : LossEntry := ⟨s.cel.lossNext + (s.cel.losses.filter (fun e => !e.acked)).length, cause, hpc,
      s.time.ot, firsts, List.replicate 8 none, none, false⟩
    let s : State := { s with cel := { s.cel with losses := s.cel.losses ++ [e] } }
    s.storeLoss e

/-- The entry with LAST_k and END filled in: a die that lost no block reads all ones (R353). -/
def State.shutLoss (s : State) (e : LossEntry) : LossEntry :=
  let last := fun k =>
    match nth e.first k none with
    | none => none
    | some f =>
      let n := s.nextLand k
      ((List.range (min 128 (n - f))).map (fun i => n - 1 - i)).find? (s.lossHits k e.hpc)
  { e with
    first := (List.range 8).map (fun k => if (last k).isSome then nth e.first k none else none),
    last := (List.range 8).map last, closed := some s.time.ot }

/-- The instance of a CEL event about a cellar pseudo-channel (R31). -/
def celInst (hpc : Nat) : Nat := if hpc < 144 then hpc else 0x3FF

/-- A closed entry is rewritten with STATE = CLOSED (R354). -/
def State.rewriteLoss (s : State) (e : LossEntry) : State :=
  (s.storeLoss e).raise Ev.LOSS_CLOSED (celInst e.hpc) [(0, 8, e.entry)]

/-- Close the open entries that `which` selects: LAST_k and END are filled in, the entry is rewritten and
LOSS_CLOSED raised.  An entry whose first write is not acknowledged yet is rewritten once it is (R354). -/
def State.closeLoss (s : State) (which : LossEntry → Bool) : State :=
  let sel := fun (e : LossEntry) => e.closed.isNone && which e
  let shut := (s.cel.losses.filter (fun e => sel e && e.acked)).map s.shutLoss
  let losses := s.cel.losses.filterMap (fun e =>
    if sel e then (if e.acked then none else some (s.shutLoss e)) else some e)
  let s : State := { s with cel := { s.cel with losses := losses } }
  s.over shut State.rewriteLoss

/-- The oldest entry's first write is acknowledged: CEL_LOSS_NEXT advances and LOSS_OPEN is raised; an entry whose cause
has ended meanwhile is rewritten at once (R354). -/
def State.ackLoss (s : State) : State :=
  match s.cel.losses.find? (fun e => !e.acked) with
  | none => s
  | some e =>
    let losses := s.cel.losses.filterMap (fun x =>
      if x = e then (if e.closed.isSome then none else some { e with acked := true }) else some x)
    let s : State := { s with cel := { s.cel with losses := losses, lossNext := s.cel.lossNext + 1 } }
    let s := s.raise Ev.LOSS_OPEN (celInst e.hpc) [(0, 8, e.entry), (8, 1, e.cause)]
    s.when e.closed.isSome (·.rewriteLoss e)

/-- The ring writer stops: the writes of its entries are acknowledged and every open entry is closed first (R354). -/
def State.stopRing (s : State) : State :=
  let s := (s.each s.cel.losses.length (fun s _ => s.ackLoss)).closeLoss (fun _ => true)
  ({ s with cel := { s.cel with running := false } } : State).setFlag CEL_STATUS.RING_RUN 0 false

/-- The cellar pseudo-channels that do not serve, with the cause of R353: a frozen or retired one not
moved, one being re-initialised, and a moved one whose reserve lies on such a channel. -/
def State.downPcs (s : State) : List (Nat × Nat) :=
  (List.range 128).filterMap (fun q =>
    match Table.get? s.cel.moved q with
    | some r => if (List.range 8).any (fun u => s.pcDown (topHpc r u)) then some (q, 1) else none
    | none => match s.pc q with
      | .ok => none
      | .reinit => some (q, 2)
      | _ => some (q, 1))

/-- The ring writer starts: it opens an entry for every pseudo-channel that is still down (R354). -/
def State.startRing (s : State) : State :=
  if s.cel.running then s
  else
    let s := ({ s with cel := { s.cel with running := true } } : State).setFlag CEL_STATUS.RING_RUN 0 true
    s.over s.downPcs (fun s q => s.openLoss q.2 q.1 [])

end Sys2Proof.Machine
end

