-- ==== Sys2Proof/Machine/Combiner.lean ====
section
/-! DEFINITION. The trigger combiner (R283 to R289): timelines, functions, firings and their outputs, and
the start of record definitions (R299 to R303). -/

namespace Sys2Proof.Machine

/-- The TCLK cycle in which an OT96 instant (2^-80 s) lies. -/
def State.cycleOf (s : State) (t : Nat) : Int :=
  if s.time.rate = 0 then s.now else (s.now : Int) + Int.fdiv ((t : Int) - s.time.ot) s.time.rate

/-- The OT96 instant (2^-80 s) at which a TCLK cycle starts. -/
def State.cycleStart (s : State) (u : Int) : Nat :=
  ((s.time.ot : Int) + (u - s.now) * s.time.rate).toNat

def State.cell (s : State) (c : Nat) : Cell := Table.getD s.trg.cells c {}

def State.setCell (s : State) (c : Nat) (x : Cell) : State :=
  { s with trg := { s.trg with cells := Table.set {} s.trg.cells c x } }

/-- The codes of R283 that name levels. -/
def isLevelCode (code : Nat) : Bool :=
  (0x810 ≤ code && code ≤ 0x81F) || (0x900 ≤ code && code ≤ 0xAFF)

/-- Record a level change of a source at the present cycle. -/
def State.level (s : State) (code : Nat) (v : Bool) : State :=
  let h := Table.getD s.trg.levels code []
  { s with trg := { s.trg with levels := Table.set [] s.trg.levels code (((s.now : Int), v) :: h) } }

/-- A level at a timeline cycle: that of the latest change at or before it. -/
def State.levelAt (s : State) (code : Nat) (u : Int) : Bool :=
  match (Table.getD s.trg.levels code []).find? (fun e => e.1 ≤ u) with
  | some e => e.2
  | none => false

/-- The level that a source shows now. -/
def State.levelNow (s : State) (code : Nat) : Bool := s.levelAt code s.now

/-- The state with the cells in force before the last switch point, and the timelines that they see. -/
def State.oldCells (s : State) : State :=
  { s with
    regs := s.trg.oldRegs
    trg := { s.trg with cells := s.trg.cells.map (fun e => (e.1, { e.2 with inputs := e.2.oldInputs })) } }

/-- An event of a source on an input's timeline, for LAT, W and the present cycle: the timeline, and whether the event is
late and whether it fits (R285).  An event whose presence has just ended still shows at the cycle before. -/
def placeOn (lat w now tau : Int) (t code : Nat) (l : List CellEvent) : List CellEvent × Bool × Bool :=
  let late := decide (now > tau + lat)
  let shown := l.filter (fun e => decide (e.cycle + w ≥ now - lat))
  let present := shown.filter (fun e => decide (e.cycle + w > now - lat) && e.src == code)
  let fits := decide (present.length < 16)
  (if fits then shown ++ [⟨if late then now - lat else tau, t, late, code⟩] else shown, late, fits)

/-- Cell c counts an event that is late or that does not fit, with CELL_LATE at the first after 1 ms (R285, R317). -/
def State.cellCounts (s : State) (c : Nat) (late fits : Bool) : State :=
  let x := s.cell c
  let fresh := match x.lastLate with
    | some l => decide (l + msCycles ≤ s.now)
    | none => true
  let s := s.when late (fun s => (s.addFld TRG_CELL_LATE.LATE c 1).stat (0x2404 + 16 * c) 1)
  let s := s.when (late && fresh) (·.raise Ev.CELL_LATE c [(0, 4, x.lateCount + 1)])
  let s := s.when late (·.setCell c
    { x with lastLate := some s.now, lateCount := if fresh then 0 else x.lateCount + 1 })
  s.when (!fits) (fun s => (s.addFld TRG_CELL_LATE.OVF c 1).stat (0x2408 + 16 * c) 1)

/-- Place an event on the timeline of input i of cell c, as the cells in force see it, or those before the last switch point
(`old`); `count`: the cell counts it where it is late or does not fit (R285, R289). -/
def State.placeEvent (s : State) (old count : Bool) (c i code t : Nat) : State :=
  let cfg := if old then s.oldCells else s
  let r := placeOn (cfg.fld TRG_CELL_CFG.LAT c) (cfg.fld TRG_CELL_WIN.W c) s.now (s.cycleOf t) t code
    (Table.getD (cfg.cell c).inputs i [])
  let s := s.when count (·.cellCounts c r.2.1 r.2.2)
  let x := s.cell c
  s.setCell c (if old then { x with oldInputs := Table.set [] x.oldInputs i r.1 }
    else { x with inputs := Table.set [] x.inputs i r.1 })

/-- Input i of cell c is enabled and names a source. -/
def State.names (s : State) (c i code : Nat) : Bool :=
  s.flag TRG_CELL_CFG.EN c && s.flag TRG_CELL_IN.EN (16 * c + i) && s.fld TRG_CELL_IN.SRC (16 * c + i) == code

/-- An event of a source reaches every enabled input that names it, of the cells that `among` selects, and likewise the
inputs that named it before the last switch point, whose cells judge firings with T_ref before t_B; it counts once, before
t_B in the old cell (R289). -/
def State.combEvent (s : State) (code t : Nat) (among : Nat → Bool) : State :=
  let before := decide (t < s.trg.oldUntil)
  s.each 64 (fun s c =>
    if among c then
      s.each 16 (fun s i =>
        let new := s.names c i code
        let old := s.trg.oldRegs != [] && s.oldCells.names c i code
        let s := s.when old (·.placeEvent true (before || !new) c i code t)
        s.when new (·.placeEvent false (!before || !old) c i code t))
    else s)

/-- The events on the timeline of input i of cell c that come from the source that the input names. -/
def State.inputEvents (s : State) (c i : Nat) : List CellEvent :=
  (Table.getD (s.cell c).inputs i []).filter (fun e => e.src == s.fld TRG_CELL_IN.SRC (16 * c + i))

/-- Is input i of cell c present at cycle u (R285)? -/
def State.present (s : State) (c i : Nat) (u : Int) : Bool :=
  s.flag TRG_CELL_IN.EN (16 * c + i) &&
  (let code := s.fld TRG_CELL_IN.SRC (16 * c + i)
   if isLevelCode code then s.levelAt code u
   else (s.inputEvents c i).any (fun e =>
     decide (e.cycle ≤ u) && decide (u < e.cycle + (s.fld TRG_CELL_WIN.W c : Int))))

/-- Is a term of cell c true at cycle u (R286)? -/
def State.term (s : State) (c t : Nat) (u : Int) : Bool :=
  let req := s.fld TRG_CELL_TERM.REQ (4 * c + t)
  let veto := s.fld TRG_CELL_TERM.VETO (4 * c + t)
  !(req == 0 && veto == 0) &&
  (List.range 16).all (fun i =>
    (!bit req i || s.present c i u) && (!bit veto i || !s.present c i u))

/-- The function of cell c at cycle u (R286). -/
def State.cellTrue (s : State) (c : Nat) (u : Int) : Bool :=
  s.flag TRG_CELL_CFG.EN c &&
  (if s.flag TRG_CELL_CFG.FUNC c then
    let req := s.fld TRG_CELL_TERM.REQ (4 * c)
    let veto := s.fld TRG_CELL_TERM.VETO (4 * c)
    decide (s.fld TRG_CELL_CFG.M c ≤
      ((List.range 16).filter (fun i => bit req i && s.present c i u)).length) &&
    (List.range 16).all (fun i => !bit veto i || !s.present c i u)
  else (List.range 4).any (fun t => s.term c t u))

/-- Events of cell c whose entry into presence at cycle u makes its function true: they enter on inputs that were not
present before, which COUNT or a term that is true at u requires. -/
def State.entering (s : State) (c : Nat) (u : Int) : List CellEvent :=
  let count := s.flag TRG_CELL_CFG.FUNC c
  let req := (List.range (if count then 1 else 4)).foldl
    (fun m t => if count || s.term c t u then m ||| s.fld TRG_CELL_TERM.REQ (4 * c + t) else m) 0
  ((List.range 16).map (fun i =>
    if bit req i && s.flag TRG_CELL_IN.EN (16 * c + i) && !s.present c i (u - 1) then
      (s.inputEvents c i).filter (fun e => e.cycle == u)
    else [])).flatten

/-- The earliest of a list of events by carried time. -/
def earliest : List CellEvent → Option CellEvent
  | [] => none
  | e :: t => match earliest t with
    | none => some e
    | some m => if m.time < e.time then some m else some e

/-- The firing of cell c at cycle u (R287): reference time and cause. -/
def State.firing (s : State) (c : Nat) (u : Int) : Firing :=
  let w : Int := s.fld TRG_CELL_WIN.W c
  let refI := s.fld TRG_CELL_CFG.REF c
  let refEvents := if s.flag TRG_CELL_CFG.REF_EN c && s.flag TRG_CELL_IN.EN (16 * c + refI) then
      (s.inputEvents c refI).filter
        (fun e => decide (e.cycle ≤ u) && decide (u < e.cycle + w))
    else []
  let newest := refEvents.foldl (fun m e => match m with
    | none => some e
    | some x => if x.time ≤ e.time then some e else some x) (none : Option CellEvent)
  let entered := s.entering c u
  let late := entered.any (·.late) || refEvents.any (·.late)
  match newest with
  | some e => ⟨e.time, c, e.src, late⟩
  | none =>
    match earliest entered with
    | some e => ⟨e.time, c, e.src, late⟩
    | none => ⟨s.cycleStart u, c, 0xFFFF, late⟩

/-! ## Record definitions: firings become segments -/

/-- Nanoseconds in units of 2^-80 s. -/
def nsToOt (ns : Nat) : Nat := ns * 2 ^ 80 / 10 ^ 9

/-- L_o: samples that `ns` nanoseconds cover at octant o's rate, rounded up (R300). -/
def State.nsSamples (s : State) (o ns : Nat) : Nat :=
  (ns * (s.fOct o).1 + (s.fOct o).2 * 10 ^ 9 - 1) / ((s.fOct o).2 * 10 ^ 9)

/-- NB_o: whole blocks stored for L samples (R300). -/
def blocksFor (len : Nat) : Nat := (len + 79) / 80 + 1

/-- The window of channel c from its sample s0 over `ns` nanoseconds. -/
def State.windowAt (s : State) (c s0 ns : Nat) : Window :=
  let len := s.nsSamples (c / 32) ns
  ⟨c, s0, len, s0 / 80, blocksFor len, []⟩

/-- Bytes still pinned by a job (R308). -/
def Job.pinned (j : Job) : Nat :=
  if j.broken then 0
  else 128 * (j.windows.foldl (fun n w => n + (w.blocks - w.done.length)) 0)

/-- Bytes pinned now, by segments, retrievals and replays (R308). -/
def State.pinUsed (s : State) : Nat :=
  s.trg.jobs.foldl (fun n j => n + j.pinned) 0 +
  (List.range 8).foldl (fun n k =>
    if (s.replay k).running then n + 32 * 128 * (s.replay k).left else n) 0

/-- A running replay of octant k ends: STATUS (2 DONE, 3 STOPPED, 4 OVERRUN), and RPL_DONE (R272, R273). -/
def State.replayEnd (s : State) (k status : Nat) : State :=
  let r := s.replay k
  if !r.running then s
  else
    let s := s.setReplay k { r with running := false }
    let s := (s.setFld SYS_RPL_STAT.STATUS k status).setFlag SYS_OCT_STAT.RPL_BUSY k false
    s.raise Ev.RPL_DONE 0 [(0, 1, k), (1, 1, status), (2, 8, r.fed)]

/-- The slot of channel c that lies at a cellar address under RING_GIB = g, if one does (R325). -/
def ringSlotAt (g c addr : Nat) : Option Nat :=
  let hi := addr / 16384 - c * ringK g
  if g = 0 || decide (addr / 16384 < c * ringK g) || decide (ringK g ≤ hi) || addr % 128 != 0 then none
  else some (128 * hi + (addr / 128 + 128 - c % 128) % 128)

/-- A write of `blk` to the slot where block b of channel c stands destroys it: a later block of the channel, or, since
RING_GIB has changed, another channel's where b was written before (R308, R328). -/
def State.destroys (s : State) (blk : SBlock) (c b : Nat) : Bool :=
  if blk.ch = c then decide (b < blk.count) else decide (b < (s.die (c / 32)).floor)

/-- Does the replay of octant k still need the block that stands in the slot at `addr`, which `blk` will
overwrite (R308, R328)? -/
def State.replayNeeds (s : State) (k addr : Nat) (blk : SBlock) : Bool :=
  let r := s.replay k
  let c := addr / 16384 / ringK r.gib
  r.running && r.src == c / 32 &&
  match ringSlotAt r.gib c addr with
  | none => false
  | some n =>
    let slots := ringSlots r.gib
    let here := (r.next + s.fld CEL_RING_OFS.OFS r.src) % slots
    let b := r.next + (n + slots - here) % slots
    decide (b < r.next + r.left) && s.destroys blk c b

/-- The pin budget in bytes. -/
def State.pinBudget (s : State) : Nat := s.fld TRG_PIN_BUDGET.MIB 0 * 2 ^ 20

/-- Count a segment or record that is not made, and report it (R303, R317). -/
def State.recDropped (s : State) (d cause : Nat) : State :=
  let s := (s.addFld TRG_DEF_CNT.DROPPED d 1).stat (0x2808 + 16 * d) 1
  let x := s.def_ d
  let fresh := match x.lastDrop with
    | some l => decide (l + msCycles ≤ s.now)
    | none => true
  let s := s.setDef d { x with lastDrop := some s.now, drops := if fresh then 0 else x.drops + 1 }
  s.when fresh (·.raise Ev.REC_DROPPED d [(0, 4, x.drops + 1), (4, 1, cause)])

/-- Count a firing that is ignored (R301). -/
def State.defIgnored (s : State) (d : Nat) : State := (s.addFld TRG_DEF_CNT.IGNORED d 1).stat (0x2804 + 16 * d) 1

/-- The channels of definition d. -/
def State.defChannels (s : State) (d : Nat) : List Nat :=
  (List.range 256).filter (fun c => bit (s.reg .TRG_DEF_CH (8 * d + c / 32)).toNat (c % 32))

/-- Segments that the record engine holds (R303). -/
def State.segmentsHeld (s : State) : Nat :=
  (s.trg.jobs.filter (fun j => match j.kind with | .segment _ => true | _ => false)).length

/-- Make the segment of a firing; `cfg` holds the definitions that apply: its windows are pinned from now on (R300, R303). -/
def State.makeSegment (s cfg : State) (d : Nat) (f : Firing) : State :=
  let pre := (cfg.reg .TRG_DEF_PRE d).toNat
  let post := (cfg.reg .TRG_DEF_POST d).toNat
  let start := f.time - nsToOt pre
  let ws := (cfg.defChannels d).map (fun c => s.windowAt c (s.sampleAt (c / 32) start) (pre + post))
  let j : Job := ⟨.segment d, f, ws, 0, 1, false, false, 0, s.gib, none, s.now⟩
  if 64 ≤ s.segmentsHeld then s.recDropped d 0
  else if s.pinBudget < s.pinUsed + j.pinned then s.recDropped d 1
  else
    let s : State := { s with trg := { s.trg with jobs := s.trg.jobs ++ [j] } }
    let s := s.stat (0x2800 + 16 * d) 1
    let x := s.def_ d
    s.setDef d { x with since := some (x.since.getD s.now) }

/-- Is a segment of definition d open (R301)? -/
def State.segOpen (s : State) (d : Nat) : Bool :=
  s.trg.jobs.any (fun j => j.kind == .segment d && !j.closed)

/-- Queue a firing of definition d, up to QDEPTH + 1 (R301). -/
def State.queueFiring (s cfg : State) (d : Nat) (f : Firing) : State :=
  let x := s.def_ d
  if x.queue.length < cfg.fld TRG_DEF_CFG.QDEPTH d + 1 then s.setDef d { x with queue := x.queue ++ [f] }
  else s.recDropped d 0

/-- Extend the open segment of definition d so that it ends at the firing's time plus POST_NS, up to a
total of MAX_NS; beyond that the firing is ignored (R301).  A segment of the definition that a switch point has changed
is not extended by a firing after it (R213). -/
def State.retrigger (s cfg : State) (d : Nat) (f : Firing) : State :=
  let other := fun (j : Job) => (s.def_ d).switched &&
    decide (j.fire.time < s.trg.oldUntil) != decide (f.time < s.trg.oldUntil)
  let total := (cfg.reg .TRG_DEF_PRE d).toNat + (cfg.reg .TRG_DEF_POST d).toNat
  match s.trg.jobs.find? (fun j => j.kind == .segment d && !j.closed) with
  | none => s
  | some j =>
    if other j then s.queueFiring cfg d f else
    let ext := (f.time - j.fire.time) * 10 ^ 9 / 2 ^ 80
    let ext := max ext j.ext
    if (cfg.reg .TRG_DEF_MAXEXT d).toNat < total + ext then s.defIgnored d
    else
      let j' := { j with ext := ext, triggers := j.triggers + 1,
                         windows := j.windows.map (fun w =>
                           { s.windowAt w.ch w.s0 (total + ext) with done := w.done }) }
      { s with trg := { s.trg with jobs := s.trg.jobs.map (fun x => if x = j then j' else x) } }

/-- A firing of the cell that starts definition d (R301); in HELD it is only counted (R218). -/
def State.defFire (s cfg : State) (d : Nat) (f : Firing) : State :=
  let policy := cfg.fld TRG_DEF_CFG.POLICY d
  if !s.outputsOn then s.addFld SYS_HELD_DISCARDS.COUNT 0 1
  else if s.segOpen d then
    if policy = 0 then s.defIgnored d
    else if policy = 1 then s.retrigger cfg d f
    else s.queueFiring cfg d f
  else if (s.def_ d).rearming then
    if policy = 0 then s.defIgnored d else s.queueFiring cfg d f
  else s.makeSegment cfg d f

/-! ## Firings -/

/-- A pulse runs on TOUT n. -/
def State.pulsing (s : State) (n : Nat) : Bool := (Table.get? s.trg.tout n).isSome

/-- Drive TOUT n for a pulse of WIDTH cycles (R288): a firing during a pulse restarts the count. -/
def State.toutPulse (s : State) (n : Nat) : State :=
  let s : State := if s.pulsing n then s
    else s.emit (.pin (.tout (Fin.ofNat 8 n)) (!s.flag TRG_TOUT_CFG.INV n))
  { s with trg := { s.trg with tout := Table.insert natLt s.trg.tout n (s.now + s.fld TRG_TOUT_CFG.WIDTH n) } }

/-- The level of TOUT n: low outside RUN, else idle or pulsing as INV says (R218, R288). -/
def State.toutLevel (s : State) (n : Nat) : Bool := s.outputsOn && (s.flag TRG_TOUT_CFG.INV n != s.pulsing n)

/-- The TOUT pins take the levels of a new device state or setup. -/
def State.toutSync (u s : State) : State :=
  s.each 8 (fun s n => s.when (u.toutLevel n != s.toutLevel n)
    (·.emit (.pin (.tout (Fin.ofNat 8 n)) (s.toutLevel n))))

/-- Broadcast a trigger on the fabric: this module presents it too, and it leaves on the trees (R316). -/
def State.fabBroadcast (s : State) (id : Nat) (f : Firing) : State :=
  let s := s.sendTrigger id f.cell f.time
  let sub := s.reg64 .FAB_TRG_SUB_LO .FAB_TRG_SUB_HI 0
  s.when (bit sub id) (·.combEvent (0xB00 + id) f.time (fun _ => true))

/-- A firing reaches the cells above its own after 15 ns (R288). -/
def linkCycles : Nat := 24

/-- The outputs of a firing of cell c (R288); `cfg` holds the cells and definitions that apply. -/
def State.fireOutputs (s cfg : State) (c : Nat) (f : Firing) : State :=
  let s := (s.addFld TRG_CELL_FIRES.FIRES c 1).stat (0x2400 + 16 * c) 1
  let s := s.when s.outputsOn (fun s =>
    s.each 8 (fun s n => s.when (bit (cfg.fld TRG_CELL_OUT.TOUT c) n) (·.toutPulse n)))
  let s := s.when (s.outputsOn && cfg.flag TRG_CELL_OUT.FAB_EN c)
    (·.fabBroadcast (cfg.fld TRG_CELL_OUT.FAB_ID c) f)
  let groups := cfg.reg64 .TRG_CELL_GRP_LO .TRG_CELL_GRP_HI c
  let s := s.each 64 (fun s g =>
    if bit groups g then s.over (s.tilesOf g) (fun s n => s.tileEvent n evTRIGIN) else s)
  let s := s.each 32 (fun s d =>
    if cfg.flag TRG_DEF_CFG.EN d && cfg.fld TRG_DEF_CFG.CELL d == c then s.defFire cfg d f else s)
  { s with trg := { s.trg with links := s.trg.links ++ [(s.now + linkCycles, c, f.time)] } }

/-- Firings reach the cells above their own (R288). -/
def State.linkTick (s : State) : State :=
  let due := s.trg.links.filter (fun l => decide (l.1 ≤ s.now))
  if due = [] then s
  else
    let s : State := { s with trg := { s.trg with links := s.trg.links.filter (fun l => decide (s.now < l.1)) } }
    s.over due (fun s l => s.combEvent (0xD00 + l.2.1) l.2.2 (fun c => decide (l.2.1 < c)))

/-- Cell c fires at cycle u: its function is true at u and was false at u - 1. -/
def State.fires (s : State) (c : Nat) (u : Int) : Bool := s.cellTrue c u && !s.cellTrue c (u - 1)

/-- Cell c judges timeline cycle u now, LAT cycles after it, and has not fired at it yet (R285). -/
def State.judges (s : State) (c : Nat) (u : Int) (fired : Option Int) : Bool :=
  u + (s.fld TRG_CELL_CFG.LAT c : Int) == s.now && (match fired with | some v => decide (v < u) | none => true)

/-- Judge timeline cycle u of cell c (R286, R287).  A firing with T_ref before the last switch point's
t_B belongs to the old cells, with the old definitions (R289). -/
def State.judge (s : State) (c : Nat) (u : Int) : State :=
  let o := s.oldCells
  let x := s.cell c
  if s.trg.oldRegs != [] && o.judges c u x.firedOld && o.fires c u && decide ((o.firing c u).time < s.trg.oldUntil) then
    (s.setCell c { x with firedOld := some u }).fireOutputs o c (o.firing c u)
  else if s.judges c u x.fired && s.fires c u && decide (s.trg.oldUntil ≤ (s.firing c u).time) then
    (s.setCell c { x with fired := some u }).fireOutputs s c (s.firing c u)
  else s

/-! ## Meanings -/

/-- COMBINER_EVENT_ARRIVAL: an event of source `code` with carried time `t` reaches the cells (R285). -/
def execCombinerEventArrival (code : BitVec 12) (t : Nat) (s : State) : Res :=
  .next (s.combEvent code.toNat t (fun _ => true))

/-- CELL_FIRE: cell c judges timeline cycle u (R286 to R288). -/
def execCellFire (c : Fin 64) (u : Nat) (s : State) : Res := .next (s.judge c.val u)

/-- TOUT_PULSE_END: the WIDTH count of TOUT n expires and the pin returns to idle (R288). -/
def execToutPulseEnd (n : Fin 8) (s : State) : Res :=
  .next (match Table.get? s.trg.tout n.val with
  | some e =>
    if e ≤ s.now then
      ({ s with trg := { s.trg with tout := Table.erase s.trg.tout n.val } } : State).emit
        (.pin (.tout n) (s.outputsOn && s.flag TRG_TOUT_CFG.INV n.val))
    else s
  | none => s)

/-- TIMER_FIRE: timer j reaches an instant of its grid (R289). `t` is that OT96 instant in whole
nanoseconds since OT96 zero: it lies in the present cycle, t % PERIOD = PHASE, and the timer has fired at none after it
(a backward step repeats none). -/
def execTimerFire (j : Fin 8) (t : Nat) (s : State) : Res :=
  let p := (s.reg .TRG_TMR_PERIOD j.val).toNat
  let fresh := match Table.get? s.trg.timers j.val with | some l => decide (l < t) | none => true
  .next (if p != 0 && t % p == (s.reg .TRG_TMR_PHASE j.val).toNat && s.cycleOf (nsToOt t) == s.now && fresh then
    ({ s with trg := { s.trg with timers := Table.insert natLt s.trg.timers j.val t } } : State).combEvent
      (0xC00 + j.val) (nsToOt t) (fun _ => true)
  else s)

/-- Software triggers: each bit written 1 fires (R289). -/
def State.swTriggers (s : State) (v : Nat) : State :=
  s.each 16 (fun s j => s.when (bit v j) (·.combEvent (0xC10 + j) s.time.ot (fun _ => true)))

/-- SW_TRIGGER: a write of TRG_SW (R289). -/
def execSwTrigger (path : Path) (value : BitVec 32) (s : State) : Res :=
  .next ((s.swTriggers value.toNat).wrote path .TRG_SW 0)

end Sys2Proof.Machine
end

