-- ==== Sys2Proof/Machine/Records.lean ====
section
/-! DEFINITION. The record engine, the record store and its index, and deferred retrieval
(R300 to R316). -/

namespace Sys2Proof.Machine

/-! ## Blocks as bytes (R45 to R47) -/

/-- The tag of a block. -/
def blockTag (b : List Byte) : Nat := le b 120 8

/-- Sample j of a block (R46). -/
def blockSample (b : List Byte) (j : Nat) : Int :=
  let w := le b (3 * (j / 2)) 3
  toS 12 (if j % 2 = 0 then w % 4096 else w / 4096)

/-- Is a block a gap block (R137, R306)? -/
def isGap (b : List Byte) : Bool := bits (blockTag b) 23 20 != 0

/-- The gap block of a sequence number (R306). -/
def gapBlock (seq : Nat) : List Byte := zeros 120 ++ leBytes 8 (seq % 2 ^ 40 * 2 ^ 24 + 0xF * 2 ^ 20)

/-- Read block b of channel c out of the ring of g GiB: the slot's content when the slot holds the
block, else a gap block (R330, R352). -/
def State.ringRead (s : State) (g c b : Nat) : List Byte :=
  let a := s.ringAddr g c b
  let bs := s.bytes a 128
  if g = 0 || s.poisoned a || bits (blockTag bs) 63 24 != b % 2 ^ 40 || isGap bs then gapBlock b else bs

/-- The same as a request of a source: its accesses and, where the slot does not serve, a poisoned read (R352). -/
def State.ringFetch (s : State) (source g c b : Nat) : State :=
  s.when (g != 0) (·.readBy source (s.ringAddr g c b) 128)

/-- The oldest block that the ring of die k holds (R331). -/
def State.oldest (s : State) (k : Nat) : Nat :=
  max (s.die k).floor ((s.die k).head + 1 - ringSlots s.gib)

/-- Has the ring write of block b of die k been acknowledged (R331)? -/
def State.ringAcked (s : State) (k b : Nat) : Bool := (s.die k).ringWrote && decide (b ≤ (s.die k).head)

/-! ## Segments and records -/

/-- The gap and tag flags of a list of blocks as R306 packs them, with the worst CLKQ. -/
def tagFlags (bs : List (List Byte)) : Nat × Nat :=
  bs.foldl (fun (acc : Nat × Nat) b =>
    let t := blockTag b
    if isGap b then (acc.1 ||| 32, acc.2)
    else
      (acc.1 ||| b2n (bits t 9 0 != 0) ||| 2 * b2n (bit t 10) ||| 4 * b2n (bit t 19) |||
        8 * b2n (bit t 11) ||| 16 * b2n (bit t 12), max acc.2 (bits t 14 13))) (0, 0)

/-- The samples of a window: position and value; `none` where a gap block stands. -/
def Window.samples (w : Window) : List (Option Int) :=
  (List.range w.len).map (fun j =>
    let i := w.s0 + j - 80 * w.first
    let b := nth w.done (i / 80) []
    if b = [] || isGap b then none else some (blockSample b (i % 80)))

/-- The SEG_STATS entry of a window (R307). -/
def Window.stats (w : Window) : List Byte :=
  let v := w.samples.filterMap id
  let mn := v.foldl min (match v with | [] => 0 | x :: _ => x)
  let mx := v.foldl max (match v with | [] => 0 | x :: _ => x)
  leBytes 2 (toU 16 mn) ++ leBytes 2 (toU 16 mx) ++ leBytes 4 v.length ++
  leBytes 8 (toU 64 (isum v)) ++ leBytes 8 (isum (v.map (fun x => x * x))).toNat ++ zeros 8

/-- S0 of octant o in a list of windows: all ones when the octant is not among them. -/
def s0Of (ws : List Window) (o : Nat) : Nat :=
  match ws.find? (fun w => w.ch / 32 == o) with
  | some w => w.s0
  | none => 2 ^ 64 - 1

/-- Bytes followed by what fills the part of the record up to a multiple of 64 (R304): the manual does not say with
which value. -/
def fill64 (bs : List Byte) : List Byte :=
  bs ++ List.replicate ((64 - bs.length % 64) % 64) (BitVec.ofNat 8 (Config.free "filling of a record" [] 0))

/-- Segment header and data (R304, R306). -/
def Segment.bytes (g : Segment) (ordinal : Nat) (stats : Bool) (retrieval : Bool) : List Byte :=
  let (fl, q) := tagFlags (g.windows.map (·.done)).flatten
  let fl := fl ||| 64 * b2n g.overrun ||| 128 * b2n g.fire.late
  leBytes 4 ordinal ++ leBytes 2 fl ++ leBytes 1 q ++ zeros 1 ++ otBytes g.fire.time ++
  leBytes 2 (if retrieval then 0xFFFF else g.fire.cell) ++ leBytes 2 g.fire.cause ++ leBytes 4 g.ext ++
  leBytes 4 g.triggers ++ zeros 32 ++
  ((List.range 8).map (fun o => leBytes 8 (s0Of g.windows o))).flatten ++
  (g.windows.map (fun w => w.done.flatten)).flatten ++
  (if stats then fill64 (g.windows.map (·.stats)).flatten else [])

/-- The mask of channels of a list of windows, 32 bytes. -/
def channelMask (ws : List Window) : List Byte :=
  leBytes 32 (ws.foldl (fun m w => m ||| 2 ^ w.ch) 0)

/-- The header of a record (R305). `lens` are the L_o of the octants. -/
def recordHeader (format d recnum segs length flags reduce policy pre post : Nat) (chans : List Byte)
    (lens : List Nat) : List Byte :=
  leBytes 1 format ++ leBytes 1 1 ++ leBytes 2 d ++ leBytes 8 recnum ++ leBytes 4 segs ++
  leBytes 8 length ++ leBytes 2 flags ++ leBytes 1 reduce ++ leBytes 1 policy ++ leBytes 4 pre ++
  leBytes 4 post ++ zeros 28 ++ chans ++ (lens.map (leBytes 4)).flatten

/-- The AVG area of one channel: a signed 32-bit sum per window position (R307). -/
def avgArea (ws : List Window) (len : Nat) : List Byte :=
  ((List.range len).map (fun j =>
    leBytes 4 (toU 32 (isum (ws.filterMap (fun w => nth w.samples j none)))))).flatten

/-- The ENV area of one channel: signed 16-bit minimum and maximum per window position (R307). -/
def envArea (ws : List Window) (len : Nat) : List Byte :=
  ((List.range len).map (fun j =>
    let v := ws.filterMap (fun w => nth w.samples j none)
    let h := match v with | [] => 0 | x :: _ => x
    leBytes 2 (toU 16 (v.foldl min h)) ++ leBytes 2 (toU 16 (v.foldl max h)))).flatten

/-- The flags of a record from those of its segments: [3] OVERRUN, [4] GAP, [5] LATE, [6] tag (R305). -/
def segmentFlags (g : Segment) : Nat :=
  let fl := (tagFlags (g.windows.map (·.done)).flatten).1
  8 * b2n g.overrun + 16 * b2n (bit fl 5) + 32 * b2n g.fire.late + 64 * b2n (fl % 32 != 0)

/-- The bytes of a triggered record (R304). -/
def State.recordBytes (s cfg : State) (d flags : Nat) (segs : List Segment) : List Byte :=
  let pre := (cfg.reg .TRG_DEF_PRE d).toNat
  let post := (cfg.reg .TRG_DEF_POST d).toNat
  let red := cfg.fld TRG_DEF_CFG.REDUCE d
  let chans := cfg.defChannels d
  let lens := (List.range 8).map (fun o =>
    if chans.any (fun c => c / 32 == o) then s.nsSamples o (pre + post) else 0)
  let body := ((List.range segs.length).map (fun i =>
    match segs[i]? with
    | some g => g.bytes i (bit red 0) false
    | none => [])).flatten
  let areas := fill64 (chans.map (fun c =>
    (if bit red 1 then avgArea ((segs.map (fun g => g.windows.filter (·.ch == c))).flatten)
      (nth lens (c / 32) 0) else []))).flatten ++
    fill64 (chans.map (fun c =>
    (if bit red 2 then envArea ((segs.map (fun g => g.windows.filter (·.ch == c))).flatten)
      (nth lens (c / 32) 0) else []))).flatten
  let fl := segs.foldl (fun m g => m ||| segmentFlags g) flags
  recordHeader 0x31 d s.trg.recnum segs.length (128 + body.length + areas.length) fl red
    (cfg.fld TRG_DEF_CFG.POLICY d) pre post (leBytes 32 (chans.foldl (fun m c => m ||| 2 ^ c) 0)) lens ++
  body ++ areas

/-- The 64 bytes of an index entry (R312). -/
def indexEntry (recnum offset length d format flags time segs : Nat) : List Byte :=
  leBytes 8 recnum ++ leBytes 8 offset ++ leBytes 8 length ++ leBytes 2 d ++ leBytes 1 format ++
  leBytes 1 flags ++ otBytes time ++ leBytes 4 segs ++ zeros 20

/-- The address of the index entry of a record. -/
def State.indexAddr (s : State) (recnum : Nat) : Option Nat :=
  (s.region 2 0).map (fun r => r.offset + 64 * (recnum % (r.length / 64)))

/-- Stored records whose space or index slot a record of `size` bytes at `off` with number n takes (R311). -/
def State.recordsLost (s : State) (off size n : Nat) : List StoredRecord :=
  s.trg.stored.filter (fun x =>
    (decide (x.offset < off + size) && decide (off < x.offset + x.length)) ||
    (match s.indexAddr n with | some a => s.indexAddr x.recnum == some a | none => false))

/-- Put a record into the store (R311): older records that lose their space or their index slot get FORMAT 0 in their
index entries first; with FULL = STOP a record that finds no space is not made.  Outside RUN it is counted and not
written (R4, R218). -/
def State.storeRecord (s : State) (d format flags time segs : Nat) (bs : List Byte) : State :=
  if !s.outputsOn then s.addFld SYS_HELD_DISCARDS.COUNT 0 1
  else match s.region 1 0 with
  | none => s.recDropped d 2
  | some r =>
    let off := if s.trg.writePtr + bs.length ≤ r.length then s.trg.writePtr else 0
    let size := (bs.length + 63) / 64 * 64
    let n := s.trg.recnum
    let lost := s.recordsLost off size n
    if (s.flag TRG_REC_CFG.FULL 0 && lost != []) || r.length < bs.length then s.recDropped d 2
    else
      let s := s.over lost (fun s x =>
        match s.indexAddr x.recnum with
        | some a => s.devPut srcRecord (a + 26) [0]
        | none => s)
      let failed := s.poisonedRange (r.offset + off) bs.length
      let s := s.devPut srcRecord (r.offset + off) bs
      let w : RecordWrite := ⟨n, off, bs, indexEntry n off bs.length d format flags time segs, failed⟩
      { s with trg := { s.trg with
        recnum := n + 1, writePtr := off + size, writing := s.trg.writing ++ [w],
        stored := s.trg.stored.filter (fun x => !lost.contains x) ++ [⟨n, off, size⟩] } }

/-- When the next record of definition d has its first segment: that of the oldest segment still being copied. -/
def State.nextSince (s : State) (d : Nat) : Option Nat :=
  (s.trg.jobs.find? (fun j => j.kind == .segment d)).map (·.made)

/-- Close the record of definition d with the given extra flags (R302).  A record with a broken pin gets its number only
here, so that REC_OVERRUN is raised now, once per broken segment (R309, R317; log entry 94). -/
def State.closeRecord (s cfg : State) (d flags : Nat) : State :=
  let x := s.def_ d
  match x.segs with
  | [] => s.setDef d { x with since := s.nextSince d }
  | g :: _ =>
    let bs := s.recordBytes cfg d flags x.segs
    let fl := x.segs.foldl (fun m g => m ||| segmentFlags g) flags
    let n := s.trg.recnum
    let s := s.setDef d { x with segs := [], since := s.nextSince d }
    let s := s.storeRecord d 0x31 fl g.fire.time x.segs.length bs
    s.when (s.trg.recnum != n) (fun s => s.over (x.segs.filter (·.overrun)) (fun s _ =>
      s.raise Ev.REC_OVERRUN d [(0, 8, n)]))

/-! ## Copy jobs -/

/-- Every block of the job's windows has been written to the ring (R301). -/
def State.windowWritten (s : State) (j : Job) : Bool :=
  j.windows.all (fun w => s.ringAcked (w.ch / 32) (w.first + w.blocks - 1))

/-- Segments whose last block has been written close, and their definitions begin to re-arm (R301). -/
def State.closeSegments (s : State) : State :=
  s.over s.trg.jobs (fun s j =>
    match j.kind with
    | .segment d =>
      if !j.closed && s.windowWritten j then
        let s : State := { s with trg := { s.trg with
          jobs := s.trg.jobs.map (fun x => if x = j then { j with closed := true } else x) } }
        s.setDef d { s.def_ d with rearming := true }
      else s
    | .retrieval .. => s)

/-- The window of a job whose next block comes first by the time of its sample 0 (R309). -/
def State.nextWindow (s : State) (j : Job) : Option Window :=
  (j.windows.filter (fun w => w.done.length < w.blocks)).foldl (fun m w =>
    let t := fun (w : Window) => s.sampleTime (w.ch / 32) (80 * (w.first + w.done.length))
    match m with
    | none => some w
    | some x => if t w < t x then some w else some x) none

/-- Copy the next block of a job, if its ring write has been acknowledged (R303, R308). -/
def State.copyNext (s : State) (j : Job) : Option Job :=
  match s.nextWindow j with
  | none => none
  | some w =>
    let b := w.first + w.done.length
    if s.ringAcked (w.ch / 32) b || j.broken then
      let bs := if j.broken then gapBlock b else s.ringRead j.gib w.ch b
      some { j with windows := j.windows.map (fun x => if x = w then { w with done := w.done ++ [bs] } else x) }
    else none

/-- The record engine reads the block that a job copies next; a job whose pin is broken reads none (R308). -/
def State.copyFetch (s : State) (j : Job) : State :=
  match s.nextWindow j with
  | none => s
  | some w => s.when (!j.broken && s.ringAcked (w.ch / 32) (w.first + w.done.length))
      (·.ringFetch srcRecord j.gib w.ch (w.first + w.done.length))

/-- Copy as many blocks of a job as are available. -/
def State.copyAll : Nat → State → Job → State × Job
  | 0, s, j => (s, j)
  | n + 1, s, j => match s.copyNext j with
    | some j' => State.copyAll n (s.copyFetch j) j'
    | none => (s, j)

/-- The job has copied every block. -/
def Job.complete (j : Job) : Bool := j.windows.all (fun w => w.done.length == w.blocks)

/-- Blocks a job still has to copy. -/
def Job.remaining (j : Job) : Nat := j.windows.foldl (fun n w => n + (w.blocks - w.done.length)) 0

/-- Definitions that apply to a segment: those in force before the last switch point when T lies before
its t_B (R213, R302). -/
def State.cfgFor (s : State) (time : Nat) : State :=
  if s.trg.oldRegs != [] && time < s.trg.oldUntil then s.oldCells else s

/-- Firings of definition d before the last switch point still have no complete segment. -/
def State.oldLeft (s : State) (d : Nat) : Bool :=
  s.trg.jobs.any (fun j => j.kind == .segment d && decide (j.fire.time < s.trg.oldUntil)) ||
  (s.def_ d).queue.any (fun f => decide (f.time < s.trg.oldUntil))

/-- The record of definition d holds segments of firings before the last switch point. -/
def State.oldSegs (s : State) (d : Nat) : Bool := (s.def_ d).segs.any (fun g => decide (g.fire.time < s.trg.oldUntil))

/-- Cell c as it was before the last switch point has judged every timeline cycle at which an event before t_B was
present. -/
def State.oldJudged (s : State) (c : Nat) : Bool :=
  let o := s.oldCells
  decide (s.cycleOf s.trg.oldUntil + (o.fld TRG_CELL_WIN.W c : Int) + (o.fld TRG_CELL_CFG.LAT c : Int) < s.now)

/-- The record of definition d, which the last switch point changed, closes with PARTIAL and SWITCH once every segment of
a firing before t_B is complete and none is to come (R302). -/
def State.closeSwitched (s : State) (d : Nat) : State :=
  s.when ((s.def_ d).switched && s.oldSegs d && !s.oldLeft d && s.oldJudged (s.oldCells.fld TRG_DEF_CFG.CELL d))
    (·.closeRecord s.oldCells d 5)

/-- A complete segment joins its record; the record closes when it holds SEGS segments, or when it is the last of a
definition that a switch point changed (R302). -/
def State.segmentDone (s : State) (j : Job) : State :=
  match j.kind with
  | .retrieval .. => s
  | .segment d =>
    let s : State := { s with trg := { s.trg with jobs := s.trg.jobs.filter (fun x => x != j) } }
    let s := s.when (!j.closed) (fun s => s.setDef d { s.def_ d with rearming := true })
    let s := s.when ((s.def_ d).switched && s.oldSegs d && decide (s.trg.oldUntil ≤ j.fire.time))
      (·.closeRecord s.oldCells d 5)
    let x := s.def_ d
    let x := { x with segs := x.segs ++ [⟨j.fire, j.windows, j.ext, j.triggers, j.broken⟩] }
    let s := s.setDef d x
    let cfg := s.cfgFor j.fire.time
    if cfg.fld TRG_DEF_CFG.SEGS_M1 d + 1 ≤ x.segs.length then s.closeRecord cfg d 0
    else s.closeSwitched d

/-- Time of sample 0 of the first block that a job has not copied (R315). -/
def State.cutTime (s : State) (j : Job) : Option Nat :=
  (s.nextWindow j).map (fun w => s.sampleTime (w.ch / 32) (80 * (w.first + w.done.length)))

/-- A breaking pin ends its copy at once (R309). -/
def State.breakPin (s : State) (j : Job) : State :=
  let j' := { j with broken := true, status := if j.status = 0 then 1 else j.status, cut := s.cutTime j }
  let s : State := { s with trg := { s.trg with jobs := s.trg.jobs.map (fun x => if x = j then j' else x) } }
  match j.kind with
  | .segment d => s.stat (0x280C + 16 * d) 1
  | .retrieval req _ _ => s.raise Ev.RTV_OVERRUN 0 [(0, 8, req)]

/-- Does a job still need the block that now stands in the slot at `addr`, which `blk` will overwrite (R308, R328)? -/
def State.jobNeeds (s : State) (j : Job) (addr : Nat) (blk : SBlock) : Bool :=
  !j.broken && j.windows.any (fun w =>
    (List.range (w.blocks - w.done.length)).any (fun i =>
      let b := w.first + w.done.length + i
      s.destroys blk w.ch b && s.ringAddr j.gib w.ch b == addr))

/-- The ring writer is about to write `blk` at `addr`: break every pin on the slot (R308). -/
def State.breakPins (s : State) (addr : Nat) (blk : SBlock) : State :=
  let s := s.over (s.trg.jobs.filter (fun j => s.jobNeeds j addr blk)) (·.breakPin ·)
  s.each 8 (fun s k => s.when (s.replayNeeds k addr blk) (·.replayEnd k 4))

/-! ## Meanings: records -/

/-- The oldest queued firing of definition d that can becomes a segment; one that is dropped leaves the turn to the next
(R301, R303). -/
def State.fromQueue (s : State) (d : Nat) : List Firing → State
  | [] => s.setDef d { s.def_ d with queue := [] }
  | f :: q =>
    let s := (s.setDef d { s.def_ d with queue := q }).makeSegment (s.cfgFor f.time) d f
    if s.segOpen d then s else s.fromQueue d q

/-- DEF_REARM: definition d re-arms after a segment closed; a queued firing becomes a segment (R301).  Outside RUN no
segment is made, and queued firings are only counted (R4, R218, R302). -/
def execDefRearm (d : Fin 32) (s : State) : Res :=
  let x := s.def_ d.val
  .next (if !x.rearming then s
  else if !s.outputsOn then
    (s.setDef d.val { x with rearming := false, queue := [] }).addFld SYS_HELD_DISCARDS.COUNT 0 x.queue.length
  else (s.setDef d.val { x with rearming := false }).fromQueue d.val x.queue)

/-- The definitions that the record in progress of definition d belongs to: those of its first segment (R302). -/
def State.recordCfg (s : State) (d : Nat) : State :=
  match (s.def_ d).segs with
  | g :: _ => s.cfgFor g.fire.time
  | [] => match s.trg.jobs.find? (fun j => j.kind == .segment d) with
    | some j => s.cfgFor j.fire.time
    | none => s

/-- RECORD_TIMEOUT: TIMEOUT ms have passed since the first segment; the record closes PARTIAL (R302). -/
def execRecordTimeout (d : Fin 32) (s : State) : Res :=
  let cfg := s.recordCfg d.val
  let ms := (cfg.reg .TRG_DEF_TIMEOUT d.val).toNat
  .next (match (s.def_ d.val).since with
  | some t => if ms != 0 && decide (t + ms * msCycles ≤ s.now) then s.closeRecord cfg d.val 3 else s
  | none => s)

/-- A segment that is still being copied outside RUN is not written (R4, R218): its copy ends, it counts in
SYS_HELD_DISCARDS, and its definition re-arms. -/
def State.dropSegment (s : State) (j : Job) (d : Nat) : State :=
  let s : State := { s with trg := { s.trg with jobs := s.trg.jobs.filter (fun x => x != j) } }
  (s.setDef d { s.def_ d with rearming := true }).addFld SYS_HELD_DISCARDS.COUNT 0 1

/-- Job x at place j copies its next acknowledged block (R303); a job that is complete becomes a segment of its
record. -/
def State.copyStep (s : State) (j : Nat) (x : Job) : State :=
  match s.copyNext x with
  | none => if x.complete then s.segmentDone x else s
  | some x' =>
    let s := s.copyFetch x
    let s : State := { s with trg := { s.trg with jobs := s.trg.jobs.set j x' } }
    if x'.complete then s.segmentDone x' else s

/-- REC_COPY_BLOCK: job j copies its next acknowledged block (R303); outside RUN the copy of a segment ends. -/
def execRecCopyBlock (j : Nat) (s : State) : Res :=
  .next (match s.trg.jobs[j]? with
  | none => s
  | some x =>
    match x.kind with
    | .segment d => if s.outputsOn then s.copyStep j x else s.dropSegment x d
    | .retrieval .. => s.copyStep j x)

/-- An item of a kind-3 route becomes an item record of definition d (R310). -/
def State.itemRecord (s : State) (d : Nat) (item : List Byte) : State :=
  if !s.outputsOn then s.addFld SYS_HELD_DISCARDS.COUNT 0 1
  else if 64 ≤ s.segmentsHeld then s.recDropped d 0
  else
    let h := recordHeader 0x32 d s.trg.recnum 0 (128 + item.length) 0 0
      (s.fld TRG_DEF_CFG.POLICY d) 0 0 (zeros 32) (List.replicate 8 0)
    s.storeRecord d 0x32 0 s.time.ot 0 (h ++ item)

/-- ITEM_RECORD_ARRIVAL: an item that left a tile on a kind-3 route with TARGET d reaches the record engine (R310). -/
def execItemRecordArrival (d : Fin 32) (item : List Byte) (s : State) : Res :=
  .next (match s.offHall 3 d.val item with
  | some s => s.itemRecord d.val item
  | none => s)

/-- RECORD_WRITE_ACKED: all writes of the oldest record are acknowledged; its index entry is written, with FORMAT 0 when
the record has lost its space meanwhile.  A record with a discarded write is dropped (R311, R352). -/
def execRecordWriteAcked (s : State) : Res :=
  .next (match s.trg.writing with
  | [] => s
  | w :: rest =>
    let s : State := { s with trg := { s.trg with writing := rest } }
    if w.failed then
      let s : State := { s with trg := { s.trg with stored := s.trg.stored.filter (·.recnum != w.recnum) } }
      s.recDropped (le w.index 24 2 % 32) 3
    else
      let s := match s.indexAddr w.recnum with
        | some a => s.devPut srcRecord a (if s.trg.stored.any (·.recnum == w.recnum) then w.index
            else w.index.take 26 ++ [0] ++ w.index.drop 27)
        | none => s
      { s with trg := { s.trg with indexing := s.trg.indexing ++ [w] } })

/-- INDEX_WRITE_ACK: the oldest index entry is acknowledged and TRG_IDX_NEXT advances (R311). -/
def execIndexWriteAck (s : State) : Res :=
  .next (match s.trg.indexing with
  | [] => s
  | w :: rest => { s with trg := { s.trg with indexing := rest, idxNext := w.recnum + 1 } })

/-! ## Deferred retrieval (R313 to R315) -/

/-- Base and entries of the request ring and of the completion ring. -/
def State.rtvBase (s : State) : Nat :=
  s.fld TRG_RTV_BASE_LO.BASE_LO 0 * 64 + s.fld TRG_RTV_BASE_HI.BASE_HI 0 * 2 ^ 32
def State.rtvEntries (s : State) : Nat := 2 ^ s.fld TRG_RTV_BASE_HI.SIZE_LOG2 0
def State.rtcBase (s : State) : Nat :=
  s.fld TRG_RTC_BASE_LO.BASE_LO 0 * 64 + s.fld TRG_RTC_BASE_HI.BASE_HI 0 * 2 ^ 32
def State.rtcEntries (s : State) : Nat := 2 ^ s.fld TRG_RTC_BASE_HI.SIZE_LOG2 0

/-- Retrievals in progress. -/
def State.retrievals (s : State) : List Job :=
  s.trg.jobs.filter (fun j => match j.kind with | .retrieval .. => true | _ => false)

/-- The request at the head of the ring: fields of R313. -/
structure RtvRequest where
  req : Nat
  time : Nat
  index : Nat
  lenNs : Nat
  dest : Nat
  byIndex : Bool
  noWait : Bool
  chans : List Nat
deriving DecidableEq, Repr

/-- Read a request from its 64 bytes. -/
def parseRtv (b : List Byte) : RtvRequest :=
  ⟨le b 0 8, (le b 14 6 * 2 ^ 48 + le b 8 6) * 2 ^ 32, le b 8 8, le b 20 4, le b 24 6,
   bit (le b 30 1) 0, bit (le b 30 1) 1,
   (List.range 256).filter (fun c => bit (le b 32 32) c)⟩

/-- The windows of a request. -/
def State.rtvWindows (s : State) (r : RtvRequest) : List Window :=
  r.chans.map (fun c =>
    s.windowAt c (if r.byIndex then r.index else s.sampleAt (c / 32) r.time) r.lenNs)

/-- The OT96 instant at which the window of a request starts: with BY_INDEX that of the sample on its first channel's
die (R313). -/
def State.rtvTime (s : State) (r : RtvRequest) : Nat :=
  if r.byIndex then s.sampleTime (r.chans.headD 0 / 32) r.index else r.time

/-- The size of a retrieval's result (R313). -/
def rtvSize (ws : List Window) : Nat := 256 + 128 * (ws.foldl (fun n w => n + w.blocks) 0)

/-- OT96 instant at which a window ends. -/
def State.windowEnd (s : State) (ws : List Window) : Nat :=
  ws.foldl (fun m w => max m (s.sampleTime (w.ch / 32) (w.s0 + w.len))) 0

/-- The status of a request at its start (R314); 0 when it may run.  DEST is ignored in a request of another
module (R467).  A LEN_NS above the range of R313 is a bad request too (DEDUCED, log entry 105). -/
def State.rtvStatus (s : State) (r : RtvRequest) (remote : Bool) : Nat :=
  let ws := s.rtvWindows r
  let size := rtvSize ws
  let badDest := !remote && (r.dest % 64 != 0 || !(inCellar r.dest size || inSystem r.dest size) ||
    (decide (r.dest < s.gib * 2 ^ 30)))
  let mixed := r.byIndex && r.chans.any (fun c =>
    s.fld SYS_OCT_STAT.RATE_DIV (c / 32) != s.fld SYS_OCT_STAT.RATE_DIV (r.chans.headD 0 / 32))
  if r.lenNs = 0 || decide (2000000000 < r.lenNs) || r.chans = [] || badDest || mixed then 5
  else if ws.any (fun w => decide (w.first < s.oldest (w.ch / 32))) then 2
  else if s.time.ot + (if r.noWait then 0 else 10 * 2 ^ 80) < s.windowEnd ws then 3
  else if s.pinBudget < 128 * (ws.foldl (fun n w => n + w.blocks) 0) then 4
  else 0

/-- Start a retrieval: with a status other than 0 nothing is copied; a window that does not fit the
free budget waits (none). -/
def State.startRetrieval (s : State) (r : RtvRequest) (remote : Option Nat) : Option State :=
  let st := s.rtvStatus r remote.isSome
  let fire : Firing := ⟨s.rtvTime r, 0xFFFF, 0xFFFF, false⟩
  let ws := s.rtvWindows r
  let cut := match s.cutTime ⟨.retrieval r.req r.dest remote, fire, ws, r.lenNs, 0, true, false, st, s.gib, none, s.now⟩ with
    | some t => t
    | none => Config.free "CUT of a request without blocks" [r.req, r.time] s.now
  let j : Job := ⟨.retrieval r.req r.dest remote, fire, if st = 0 then ws else [], r.lenNs, 0, true, false, st, s.gib,
    if st = 0 then none else some cut, s.now⟩
  if st = 0 && s.pinBudget < s.pinUsed + j.pinned then none
  else some { s with trg := { s.trg with jobs := s.trg.jobs ++ [j] } }

/-- The 32 bytes of a completion (R315).  CUT is the window end where every block was copied. -/
def State.completionEntry (s : State) (j : Job) : List Byte :=
  let blocks := (j.windows.map (·.done)).flatten
  let (fl, _) := tagFlags blocks
  let cut := j.cut.getD (s.windowEnd j.windows)
  leBytes 8 (match j.kind with | .retrieval r _ _ => r | _ => 0) ++ leBytes 1 j.status ++
  leBytes 1 (b2n (bit fl 5) + 2 * b2n (fl % 32 != 0)) ++ otBytes cut ++ zeros 2 ++
  leBytes 8 (if j.status ≤ 1 then rtvSize j.windows else 0)

/-- The result of a retrieval: record header and one segment (R313). -/
def State.rtvResult (s : State) (j : Job) : List Byte :=
  let lens := (List.range 8).map (fun o =>
    match j.windows.find? (fun w => w.ch / 32 == o) with
    | some w => w.len
    | none => 0)
  let g : Segment := ⟨j.fire, j.windows, 0, 0, j.broken⟩
  let body := g.bytes 0 false true
  recordHeader 0x33 0xFFFF s.trg.recnum 1 (128 + body.length) (segmentFlags g) 0 0 0
    j.ext (channelMask j.windows) lens ++ body

/-- The completion ring is full or off. -/
def State.rtcFull (s : State) : Bool :=
  !s.flag TRG_RTC_BASE_HI.ENABLE 0 ||
  (s.fld TRG_RTC_PTR.TAIL 0 + 1) % s.rtcEntries == s.fld TRG_RTC_PTR.HEAD 0 ||
  s.completion.failed

/-- Write a completion entry: when its write is acknowledged without error TAIL advances and the
interrupt of source 34 is raised; with error status it is written again later (R33, R410). -/
def State.putCompletion (s : State) (e : List Byte) : State :=
  let tail := s.fld TRG_RTC_PTR.TAIL 0
  let a := s.rtcBase + 32 * tail
  match s.physPut srcRecord a e with
  | none => { s with completion := { s.completion with inFlight := [e], failed := true, lastTry := s.now } }
  | some s =>
    let s := s.setFld TRG_RTC_PTR.TAIL 0 ((tail + 1) % s.rtcEntries)
    s.pend TRG_RTC_BASE_HI.IRQ_PEND TRG_RTC_BASE_HI.IRQ_EN 0 34

/-- Retry a failed completion entry, at most once per 1 ms (R33). -/
def State.retryCompletion (s : State) : State :=
  match s.completion.inFlight with
  | [] => s
  | e :: _ =>
    if s.completion.failed && s.completion.lastTry + msCycles ≤ s.now then
      ({ s with completion := { s.completion with inFlight := [], failed := false } } : State).putCompletion e
    else s

/-- The host writes the request ring's TAIL, the doorbell; an index outside the ring, or with the ring off, is ignored. -/
def State.rtvTail (s : State) (tail : Nat) : State :=
  s.when (s.flag TRG_RTV_BASE_HI.ENABLE 0 && decide (tail < s.rtvEntries)) (·.setFld TRG_RTV_PTR.TAIL 0 tail)

/-- RTV_DOORBELL (R313). -/
def execRtvDoorbell (path : Path) (tail : BitVec 16) (s : State) : Res :=
  .next ((s.rtvTail tail.toNat).wrote path .TRG_RTV_PTR 0)

/-- Requests that the ring holds. -/
def State.rtvRingLen (s : State) : Nat :=
  if s.flag TRG_RTV_BASE_HI.ENABLE 0 then
    (s.fld TRG_RTV_PTR.TAIL 0 + s.rtvEntries - s.fld TRG_RTV_PTR.HEAD 0) % s.rtvEntries
  else 0

/-- Start the next waiting request, with up to 16 in progress: requests of the ring and of other modules start in
arrival order (R314, R467).  One whose pin does not fit the free budget waits and PIN_WAIT is raised. -/
def State.startNext (s : State) : State :=
  if 16 ≤ s.retrievals.length then s
  else
    let head := s.fld TRG_RTV_PTR.HEAD 0
    let local_ := fun (s : State) =>
      if s.rtvRingLen = 0 then s
      else
        let r := parseRtv (s.bytes (s.rtvBase + 64 * head) 64)
        let s := s.readBy srcRecord (s.rtvBase + 64 * head) 64
        match s.startRetrieval r none with
        | some t =>
          let t := t.setFld TRG_RTV_PTR.HEAD 0 ((head + 1) % s.rtvEntries)
          { t with fab := { t.fab with rtvWait := t.fab.rtvWait.map (fun e => (e.1 - 1, e.2)) } }
        | none => s.raise Ev.PIN_WAIT 0 [(0, 8, r.req)]
    match s.fab.rtvWait with
    | (ahead, src, e) :: rest =>
      if ahead = 0 || s.rtvRingLen = 0 then
        let r := parseRtv e
        match s.startRetrieval r (some src) with
        | some t => { t with fab := { t.fab with rtvWait := rest } }
        | none => s.raise Ev.PIN_WAIT 0 [(0, 8, r.req)]
      else local_ s
    | [] => local_ s

/-- RTV_START: the device reads the request at HEAD and starts it (R314). -/
def execRtvStart (s : State) : Res := .next s.startNext

/-- RTV_COMPLETE: job j, a retrieval, ends: what is left to copy is copied, the result stands at DEST and
the completion entry is written (R314, R315).  A retrieval asked by another module is answered with items
(R467). -/
def execRtvComplete (j : Nat) (s : State) : Res :=
  .next (match s.trg.jobs[j]? with
  | none => s
  | some x =>
    match x.kind with
    | .segment _ => s
    | .retrieval req dest remote =>
      let (u, x) := State.copyAll x.remaining s x
      if !x.complete || (remote.isNone && s.rtcFull) then s
      else
        let s : State := { u with trg := { u.trg with jobs := u.trg.jobs.eraseIdx j } }
        match remote with
        | some m => s.startXfer m req (if x.status ≤ 1 then s.rtvResult x else []) (s.completionEntry x)
        | none =>
          let s := s.when (x.status ≤ 1) (fun s => s.devPut srcRecord dest (s.rtvResult x))
          s.putCompletion (s.completionEntry x))

end Sys2Proof.Machine
end

