-- ==== Sys2Proof/Machine/TileLoad.lean ====
section
/-! DEFINITION. Loading and starting a program in a tile, tile migration, and a tile's faults with what the
pantry and the recovery ladder do about them (R162, R164, R192, R193, R212, R499, R501 to R503, R512, R513, R572). -/

namespace Sys2Proof.Machine

/-! ## Sections of an image (R191 to R197) -/

/-- A section by type and instance. -/
def findSection (l : List Section) (type inst : Nat) : Option (List Byte) :=
  (l.find? (fun x => x.type == type && x.inst == inst)).map (·.bytes)

/-- A field of two bytes of the BUDGETS section in force, or its default (R518). -/
def State.budget (s : State) (o d : Nat) : Nat :=
  match findSection s.prog.force 11 0 with
  | some b => le b o 2
  | none => d

/-- The UCODE section that applies to a group (R193). -/
def ucodeFor (l : List Section) (g : Nat) : Option (List Byte) :=
  match findSection l 2 g with
  | some b => some b
  | none => findSection l 2 0xFFFF

/-- The data-memory segments of a TILE_PROGRAM section: (address, bytes) (R192). -/
def segmentsOf (b : List Byte) : Nat → Nat → List (Nat × List Byte)
  | 0, _ => []
  | k + 1, p => (le b p 4, slice b (p + 8) (le b (p + 4) 4)) :: segmentsOf b k (p + 8 + le b (p + 4) 4)

/-- The segments of a TILE_PROGRAM section. -/
def programSegments (b : List Byte) : List (Nat × List Byte) := segmentsOf b (le b 28 2) (64 + 8 * le b 2 2)

/-! ## What the sections ask of the cellar (R194, R196, R254, R337) -/

/-- The mode of octant k that a list of sections gives (R194). -/
def modeIn (l : List Section) (k : Nat) : Nat :=
  match findSection l 3 0 with
  | some b => le b (16 * k) 1
  | none => 0

/-- The entries of HALL_ROUTES: ROUTE, KIND, TARGET, RATE (R196). -/
def routesOf (l : List Section) : List (Nat × Nat × Nat × Nat) :=
  match findSection l 5 0 with
  | none => []
  | some b => (List.range (b.length / 16)).map (fun i =>
      (le b (16 * i) 1, le b (16 * i + 1) 1, le b (16 * i + 2) 2, le b (16 * i + 4) 4))

/-- A common multiple of 1 to 64, so that shares of a rate are whole numbers. -/
def shareUnit : Nat := (List.range 64).foldl (fun m i => Nat.lcm m (i + 1)) 1

/-- The rates of the sections' REPLAY feeds on analysis die d, in MB/s × shareUnit, rounded up (R254). -/
def State.feedLoad (w : State) (l : List Section) (ks : List Nat) : Nat :=
  let num := ks.foldl (fun n k => if modeIn l k = 7 then n + 4 / 2 ^ w.fld SYS_OCT_STAT.RATE_DIV k else n) 0
  (num * w.fSyn.1 * 512 * shareUnit + w.fSyn.2 * 4 * 10 ^ 7 - 1) / (w.fSyn.2 * 4 * 10 ^ 7)

/-- The non-ring cellar load of the sections, in MB/s × shareUnit: feeds, routes, and the fixed 0.300 TB/s (R337). -/
def State.nonRingLoad (w : State) (l : List Section) : Nat :=
  let rates := fun (p : Nat → Bool) => (routesOf l).foldl (fun n r => if p r.2.1 then n + r.2.2.2 else n) 0
  w.feedLoad l (List.range 8) + (2 * rates (· == 1) + rates (fun k => k == 3 || k == 4 || k == 5) + 300000) * shareUnit

/-! ## Program start (R164, R192, R193, R212) -/

/-- Register instances per tile. -/
def Reg.perTile (r : Reg) : Nat := r.count / 68

/-- The registers of the dispatch table (R169). -/
def isDispatch (r : Reg) : Bool := r == .GT_UDISP_A || r == .GT_UDISP_B

/-- GT fields of tile n, of the registers chosen, that were staged before the switch point take effect (R205, R211). -/
def State.takeStagedOf (s : State) (n : Nat) (sel : Reg → Bool) : State :=
  let mine := fun (e : RegKey × Word) => e.1.2 / e.1.1.perTile == n && sel e.1.1
  let t := s.over (s.prog.gtTake.filter mine) (fun s e => s.takeWord e.1 e.2)
  { t with prog := { t.prog with gtTake := t.prog.gtTake.filter (fun e => !mine e) } }

/-- All of them. -/
def State.takeStagedGt (s : State) (n : Nat) : State := s.takeStagedOf n (fun _ => true)

/-- The parameter words, LV bitmap and pair bitmap of a group's PARAM_BANK section (R197). -/
def bankOf (l : List Section) (g : Nat) : Table Nat Nat × Nat × Nat :=
  match findSection l 0xA g with
  | some b => ((List.range 256).foldl (fun t p => Table.set 0 t p (le b (4 * p) 4)) [], le b 1024 32, le b 1056 32)
  | none => ([], 0, 0)

/-- Parameter words put over a bank, zeros included. -/
def overBank (t u : Table Nat Nat) : Table Nat Nat := u.foldl (fun t e => Table.set 0 t e.1 e.2) t

/-- Load the program, overlay and data segments of group g into tile n (R192, R193). -/
def State.loadTile (s : State) (n g : Nat) : State :=
  let l := s.prog.force
  let s := match findSection l 1 g with
    | some b =>
      (s.setBytes (pmBase n) (slice b 64 (8 * le b 2 2))).over (programSegments b) (fun s x => s.dmPut n x.1 x.2)
    | none => s
  match ucodeFor l g with
  | some b => s.each (le b 514 2) (fun s i =>
      s.setBytes (csBase n + 32 * (le b 512 2 + i)) (slice b (528 + 32 * i) 24))
  | none => s

/-- SWITCH_DONE when every tile has swapped or started (R211 step 8). -/
def State.switchDone (s : State) : State :=
  let busy := (List.range 68).any (fun n => (s.tile n).swDue.isSome || (s.tile n).reload)
  if !s.prog.switching || busy then s
  else
    let d := match s.prog.forceInfo with | some i => i.digest | none => []
    let s := s.each 8 (fun s i => s.setReg .SYS_PRG_DIGEST i (BitVec.ofNat 32 (le d (4 * i) 4)))
    let ns := (s.time.ot - s.prog.switchOt) * 10 ^ 9 / 2 ^ 80
    let s : State := { s with prog := { s.prog with switching := false } }
    s.raise Ev.SWITCH_DONE 0
      [(0, 8, s.prog.switchEpoch), (8, 4, satU 32 ns)]

/-- The entry address of group g's program. -/
def State.entryOf (s : State) (g : Nat) : Nat :=
  match findSection s.prog.force 1 g with
  | some b => le b 0 2
  | none => 0

/-- Tile n starts the program of group g with every lane's RP at `rp` (none: at its WI) (R164, R226, R228, R270). -/
def State.startTile (s : State) (n g state : Nat) (rp : Option Nat) : State :=
  let t := s.tile n
  let rps := (List.range 4).foldl (fun x l => Table.set 0 x l (rp.getD (Table.getD t.wi l 0))) []
  let ph := (List.range 16).foldl (fun x i => Table.set 0 x i (s.fld GT_NCO_PHASE.PHASE (16 * n + i) * 2 ^ 32)) []
  let s := s.setTile n { t with
    state := state, haltCause := 0, evp := if t.goStart then 2 ^ evCOMMIT else 0, goStart := false, evm := 31, g := [],
    z := false, n := false, c := false, v := false,
    a := [], pc := s.entryOf g, calls := [], reps := [], started := s.now, rp := rps, capt := [],
    phOfs := ph, ncoOld := [], slots := [], armed := 0, xrings := [], reload := false, gtTaken := false,
    startAt := none, ladder := false }
  let s := s.setTile n { s.tile n with outRp := s.rpLow n }
  (s.setFlag GT_FAULT.VALID n false).setFlag GT_UFAULT.VALID n false

/-! ## Migration (R499, R501, R502) -/

/-- The setup registers of a tile, which a spare takes over (R501). -/
def gtSetup : List Reg :=
  [.GT_FRAME, .GT_RING, .GT_UDISP_A, .GT_UDISP_B, .GT_NCO_FLO, .GT_NCO_FHI, .GT_NCO_PHASE, .GT_XRX_CFG]

/-- Entries of a register table for tile `old` are copied for tile `new`, in place of those it has. -/
def copyGt (t : Table RegKey Word) (old new : Nat) : Table RegKey Word :=
  let own := fun (n : Nat) (e : RegKey × Word) => gtSetup.contains e.1.1 && e.1.2 / e.1.1.perTile == n
  (t.filter (own old)).foldl (fun t e =>
    Table.insert RegKey.lt t (e.1.1, e.1.1.perTile * new + e.1.2 % e.1.1.perTile) e.2) (t.filter (fun e => !own new e))

/-- The setup of tile `old`, values that wait included, goes into tile `new`. -/
def State.gtCopy (s : State) (old new : Nat) : State :=
  { s with
    regs := copyGt s.regs old new, staged := copyGt s.staged old new, lv := copyGt s.lv old new,
    held := copyGt s.held old new, prog := { s.prog with gtTake := copyGt s.prog.gtTake old new } }

/-- The setup and the parameters of tile `old`, values that wait included, go into tile `new` (R501). -/
def State.setupCopy (s : State) (old new : Nat) : State :=
  let s := s.gtCopy old new
  let t := s.tile old
  s.setTile new { s.tile new with
    params := t.params, pStaged := t.pStaged, pLv := t.pLv, pHeld := t.pHeld, lvMap := t.lvMap, pairMap := t.pairMap }

/-- Words that waited at a tile and that the words `new` do not replace (R215, R216). -/
def waitingBut (t new : Table Nat Nat) : Table Nat Nat := t.filter (fun e => (Table.get? new e.1).isNone)

/-- The staged setup of group g comes into force where no tile serves it: GT fields, parameter words, and the LV and pair
bitmaps of its PARAM_BANK (R197, R205, R214). -/
def State.slotTake (s : State) (g : Nat) (staged : Table Nat Nat) (maps : Nat × Nat) : State :=
  let n := groupSlot g
  let s := s.takeStagedGt n
  let t := s.tile n
  s.setTile n { t with
    params := overBank t.params staged, pLv := waitingBut t.pLv staged, lvMap := maps.1, pairMap := maps.2 }

/-- The analysis die of a tile. -/
def dieOf (n : Nat) : Nat := n / 34

/-- The tiles of an analysis die. -/
def dieTiles (d : Nat) : List Nat := (List.range 34).map (34 * d + ·)

/-- The role of a tile, renderer or core that serves: its home is in service, a spare serves as one. -/
def servingRole (kind n : Nat) : Nat := if homeRole kind n = roFREE then roSPARE else roSERVICE

/-- SPARE_EMPTY when a die has no free spare tile left and none under test (R513). -/
def State.tilesEmpty (s : State) (d : Nat) : State :=
  s.when ((dieTiles d).all (fun n => s.role kTILE n != roFREE && s.role kTILE n != roTEST)) (·.spareEmpty kTILE d)

def State.setMig (s : State) (d : Nat) (m : Option Migration) : State :=
  { s with pan := { s.pan with migs := match m with
    | some m => Table.insert natLt s.pan.migs d m
    | none => Table.erase s.pan.migs d } }

/-- Step 1 begins: the spare enters STATE 5 and its input unit writes the group's blocks from now on (R501).  False
when the die has no free spare tile. -/
def State.migStart (s : State) (w : PanSwap) : Bool × State :=
  match s.groupOf w.unit, s.freeSpare kTILE (dieTiles (dieOf w.unit)) with
  | some g, some n =>
    let old := s.tile w.unit
    let s := (s.gtCopy w.unit n).setRole kTILE n roSPARE
    let t : Tile := { s.tile n with
      state := gtLOADING, assign := .serves g, muted := old.runs, startAt := none, cutAfter := none,
      wi := old.wi, rp := old.rp, epIdx := old.epIdx, swIdx := old.swIdx, frIdx := old.frIdx,
      epDue := old.epDue, swDue := old.swDue, reload := false, xlds := [] }
    (true, (s.setTile n t).setMig (dieOf w.unit)
      (some { group := g, old := w.unit, spare := n, cause := w.cause, retire := w.retire }))
  | _, _ => (false, s)

/-- Step 1 ends: program, customer region, data segments, parameters and NCO phases stand in the spare, and it waits
for the first frame boundary at least 100 µs away (R501, R217, R226). -/
def State.migLoaded (s : State) (d : Nat) (m : Migration) : State :=
  let s := (s.loadTile m.spare m.group).setupCopy m.old m.spare
  let at_ := Table.getD (s.tile m.spare).wi 0 0 + s.samplesWithin (m.group / 8) (10 ^ 8)
  let s := s.setTile m.spare { s.tile m.spare with startAt := some at_ }
  s.setMig d (some { m with loaded := true })

/-- A spare, or a tile that reloads, starts at frame boundary f with nothing pending (R164): in shadow while the old tile
serves, and then the output cut follows at the boundary after f (R501, R502).  A spare has the setup and the NCO phases
of the old tile, which samples FRAME at f as well, so the two compute the same theta (R226). -/
def State.startSpare (s : State) (n g f : Nat) : State :=
  let shadow := (s.tile n).muted
  let s := s.startTile n g (if shadow then gtSHADOW else gtRUN) (some f)
  let s := match Table.get? s.pan.migs (dieOf n) with
    | some m =>
      if m.spare = n then
        let s := s.setupCopy m.old n
        let old := s.tile m.old
        let s := s.setTile n { s.tile n with
          phOfs := old.phOfs, ncoOld := old.ncoOld, cutAfter := if shadow then some f else none }
        let s := s.setTile m.old { old with cutAfter := if old.runs then some f else none }
        s.when (old.frIdx != f) (·.sampleFrame n f)
      else s
    | none => s
  s.setTile n { s.tile n with frIdx := f }

/-- The migration has passed its output cut. -/
def State.migCut (s : State) (m : Migration) : Bool :=
  let t := s.tile m.spare
  let old := s.tile m.old
  t.runs && !t.muted && t.cutAfter.isNone && (old.muted || !old.runs)

/-- Rows of the control store of tile n that showed a corrected error are remapped, as n serves no group (R507). -/
def State.csRepair (s : State) (n : Nat) : State :=
  let rows := Table.getD s.pan.csBad n []
  let s : State := { s with pan := { s.pan with csBad := Table.set [] s.pan.csBad n [] } }
  s.over rows (fun s _ =>
    let used := Table.getD s.pan.csUsed n 0
    if used < 32 then
      let s : State := { s with pan := { s.pan with csUsed := Table.set 0 s.pan.csUsed n (used + 1) } }
      s.swapUsed kCSROW (32 * n + used) (32 * n + used) 0 .wear
    else s.spareEmpty kCSROW 0xFF)

/-- Tile n leaves service: it goes to self-test, or is retired (R501 step 5). -/
def State.tileLeaves (s : State) (n : Nat) (retire : Bool) : State :=
  let t := s.tile n
  let s := s.setTile n { t with
    assign := .none, muted := false, cutAfter := none, startAt := none, reload := false, swDue := none, epDue := none,
    ladder := false }
  ((s.setRole kTILE n (if retire then roRETIRED else roTEST)).csRepair n).switchDone

/-- The pantry assigns tile n, which serves no group, to group g, whose setup it takes; its lanes write from block b on
(R133, R214, R252). -/
def State.tileServes (s : State) (n g b : Nat) : State :=
  let s := s.setupCopy (groupSlot g) n
  let wi := (List.range 4).foldl (fun t l => Table.set 0 t l (80 * b)) []
  let s := s.setTile n { s.tile n with
    assign := .serves g, wi := wi, xlds := [], muted := false, cutAfter := none }
  s.setRole kTILE n (servingRole kTILE n)

/-- Group g, which no tile serves, takes a free tile: its own at power-up, or the lowest-numbered one of its die
(R252). -/
def State.groupTakes (s : State) (g b : Nat) : State :=
  let d := g / 32
  let home := (dieTiles d).find? (fun n => homeGroup n == some g && s.role kTILE n == roFREE)
  match home.orElse (fun _ => s.freeSpare kTILE (dieTiles d)) with
  | some n => s.tileServes n g b
  | none => s

/-- Tile n, whose group g needs a tile no more, stops and is at the pantry's disposal (R252, R275). -/
def State.tileFreed (s : State) (n g : Nat) : State :=
  let s := s.setupCopy n (groupSlot g)
  let t := s.tile n
  let s := s.setTile n { t with
    assign := .none, state := if t.state = gtFAULTED then gtFAULTED else gtIDLE, muted := false, cutAfter := none,
    swDue := none, epDue := none, reload := false, startAt := none, ladder := false }
  (s.setRole kTILE n roFREE).csRepair n

/-- Steps 4 and 5: the old tile is halted, and the spare map moves the group (R501). -/
def State.migEnd (s : State) (d : Nat) (m : Migration) : State :=
  let s := (s.haltTile m.old 2).setMig d none
  let s := s.setTile m.spare { s.tile m.spare with state := gtRUN }
  let s := (s.setRole kTILE m.spare (servingRole kTILE m.spare)).tileLeaves m.old m.retire
  let s := (s.stat 0x98 1).swapUsed kTILE m.old m.spare 0 m.cause
  s.tilesEmpty d

/-- The spare of a migration is released: to self-test, or free again.  Items that wait in its output queue and that no
output cut discards are still sent (R162). -/
def State.migDrop (s : State) (d : Nat) (m : Migration) (test : Bool) : State :=
  let s := (s.setMig d none).setTile m.old { s.tile m.old with cutAfter := none }
  let t := s.tile m.spare
  let s := s.setTile m.spare { t with
    assign := .none, state := if t.state = gtFAULTED then gtFAULTED else gtIDLE, muted := false, cutAfter := none,
    startAt := none, out := t.out.filter (fun i => !i.muted) }
  s.setRole kTILE m.spare (if test then roTEST else roFREE)

/-- A commit is accepted: migrations in progress are cancelled and restart after the switch point; one past its
output cut ends (R209, R499). -/
def State.migCancel (s : State) : State :=
  s.over s.pan.migs (fun s e =>
    if s.migCut e.2 then s.migEnd e.1 e.2
    else
      let s := s.migDrop e.1 e.2 false
      let w : PanSwap := { kind := kTILE, unit := e.2.old, cause := e.2.cause, retire := e.2.retire }
      { s with pan := { s.pan with waiting := s.pan.waiting ++ [w] } })

/-! ## The ladder at a tile (R512, R513, R570, R572) -/

/-- A request for a unit that fails or is retired is withdrawn (R514). -/
def State.askWithdraw (s : State) (kind u : Nat) : State :=
  { s with pan := { s.pan with asks := s.pan.asks.filter (fun a => !(a.kind == kind && a.unit == u)) } }

/-- Tile n is retired with no tile to take its group: the group waits for one, and GROUP_LATE reports when it starts
(R214, R572). -/
def State.tileRetire (s : State) (n : Nat) : State :=
  let g := s.groupOf n
  let s := match g with
    | some g => s.setupCopy n (groupSlot g)
    | none => s
  let s := (((s.askWithdraw kTILE n).tileLeaves n true).funcRetired Block.GT.index n).tilesEmpty (dieOf n)
  match g with
  | some g => { s with prog := { s.prog with late := s.prog.late ++ [g] } }
  | none => s

/-- With no free spare, the ladder reloads the tile (R572). -/
def State.ladderReload (s : State) (n : Nat) : State := s.setTile n { s.tile n with ladder := true }

/-- The tile reloads its group's program from the image in force, its registers and parameters kept, and starts at the
next frame boundary (R572). -/
def State.tileReload (s : State) (n : Nat) : State :=
  match (s.tile n).ladder, s.groupOf n with
  | true, some g =>
    let s := (s.loadTile n g).timerSet (tmTile n)
    let t := s.tile n
    s.setTile n { t with
      state := gtLOADING, haltCause := 0, muted := false, startAt := some (Table.getD t.wi 0 0), ladder := false }
  | _, _ => s

/-- A tile in service has faulted: it migrates to a free spare; without one, or under MANUAL, it reloads, and at the
fourth time within an hour it is treated as failed (R503, R512, R513, R572). -/
def State.tileFailed (s : State) (n : Nat) (unitFails : Bool) : State :=
  let (k, s) := s.step2 Block.GT.index n
  let fails := unitFails || decide (4 ≤ k)
  let manual := decide (s.policy kTILE = 2)
  let s := s.when fails (·.askWithdraw kTILE n)
  let s := s.when (fails && manual) (·.wearReport kTILE n true)
  if manual then (if 4 ≤ k then s.tileRetire n else s.ladderReload n)
  else
    let r := s.migStart { kind := kTILE, unit := n, cause := .failure }
    if r.1 then r.2
    else
      let s := s.when fails (·.spareEmpty kTILE (dieOf n))
      if 4 ≤ k then s.tileRetire n else s.ladderReload n

/-- A fault stops tile n: the record, the state and the event (R162).  A fault of a migration's spare abandons the
migration; one of its old tile leaves the takeover as it is; any other brings in the ladder (R503, R570). -/
def State.tileFault (s : State) (n code pc : Nat) : State :=
  let s := s.setTile n { s.tile n with state := gtFAULTED }
  let s := s.setReg .GT_FAULT n (BitVec.ofNat 32 (2 ^ 31 + pc % 2 ^ 14 * 2 ^ 16 + code))
  let s := s.raise Ev.TILE_FAULT n [(0, 1, code), (1, 2, pc % 2 ^ 14)]
  match Table.get? s.pan.migs (dieOf n), s.groupOf n with
  | some m, some _ =>
    if m.spare = n then (s.migDrop (dieOf n) m true).swapFail kTILE m.old 2 0 m.cause
    else if m.old = n then s
    else s.tileFailed n (code == flDM_ECC || code == flPM_ECC)
  | none, some _ => s.tileFailed n (code == flDM_ECC || code == flPM_ECC)
  | _, none => s

end Sys2Proof.Machine
end

