-- ==== Sys2Proof/Machine/Cellar.lean ====
section
/-! DEFINITION. The landing buffer, the memory controllers, scrub and repair, freezes and the loss map
(R319 to R360). -/

namespace Sys2Proof.Machine

/-! ## The landing buffer (R332, R333, R335) -/

/-- The landing queue of cellar pseudo-channel q. -/
def State.queue (s : State) (q : Nat) : List RingWrite := Table.getD s.cel.queues q []

def State.setQueue (s : State) (q : Nat) (l : List RingWrite) : State :=
  { s with cel := { s.cel with queues := Table.set [] s.cel.queues q l } }

/-- Bytes that the landing buffer holds. -/
def State.landFill (s : State) : Nat := 128 * s.cel.queues.foldl (fun n e => n + e.2.length) 0

/-- The fill conditions of R335. -/
def State.gateOpen (s : State) : Bool :=
  decide (s.landFill ≤ s.fld LND_CFG.GATE 0 * 1024) &&
  s.cel.queues.all (fun e => decide (128 * e.2.length ≤ s.fld LND_CFG.PC_GATE 0 * 1024))

/-- HEAD_k after some block settled: every produced block up to it is settled (R331). -/
def Die.settledHead (d : Die) : Nat :=
  match d.unsettled with
  | [] => max d.head (d.count - 1)
  | u :: t => max d.head ((t.foldl (fun m x => min m x.2) u.2) - 1)

/-- A ring write of die k's block b has been acknowledged: the highest such count is kept (R327). -/
def Die.ringAck (d : Die) (b : Nat) : Die := { d with ringWrote := true, ringLast := max d.ringLast b }

/-- A block's ring write is settled: acknowledged, or discarded (R331, R333). -/
def State.settle (s : State) (b : SBlock) : State :=
  let d := s.die (b.ch / 32)
  let d := { d with unsettled := d.unsettled.filter (fun u => u != (b.ch, b.count)) }
  s.setDie (b.ch / 32) { d with head := d.settledHead }

/-- Count a discarded block (R333). -/
def State.landDiscard (s : State) (b : SBlock) : State :=
  ((s.addFld LND_DISCARDS.COUNT 0 1).stat 0xC2 1).settle b

/-- Report discards for cause CAP (3) or FULL (4): at the first after 1 s without one (R357). -/
def State.discardEvent (s : State) (cause : Nat) : State :=
  let fresh := match s.cel.lastDiscard with
    | some l => decide (l + sCycles ≤ s.now)
    | none => true
  let n := s.cel.discards + 1
  let s : State := { s with cel := { s.cel with
    lastDiscard := some s.now, discards := if fresh then 0 else n } }
  s.when fresh (·.raise Ev.LND_DISCARD 0 [(0, 1, cause), (1, 4, n)])

/-- The ring configuration that applies to a block of die k: older than FLOOR_k, the one before (R328). -/
def State.gibOf (s : State) (k b : Nat) : Nat := if b < (s.die k).floor then s.cel.oldGib else s.gib

/-- A block arrives in the landing buffer (R332, R333). -/
def State.land (s : State) (b : SBlock) : State :=
  let g := s.gibOf (b.ch / 32) b.count
  if g = 0 then s.settle b
  else if !s.cel.running then s
  else
    let a := s.ringAddr g b.ch b.count
    let q := a / 128 % 128
    let size := 128 * (s.queue q).length
    if s.poisoned a then s.landDiscard b
    else if s.cel.capped.contains q || decide (s.fld LND_CFG.PC_CAP 0 * 1024 ≤ size) then
      let s := s.when (!s.cel.capped.contains q) (fun s =>
        ({ s with cel := { s.cel with capped := q :: s.cel.capped } } : State).openLoss 3 q [b])
      ((s.setFlag LND_STATUS.CAPPED 0 true).landDiscard b).discardEvent 3
    else if s.flag LND_STATUS.FULL 0 || decide (31 * 2 ^ 20 ≤ s.landFill) then
      let s := s.when (!s.flag LND_STATUS.FULL 0) (fun s =>
        (s.setFlag LND_STATUS.FULL 0 true).openLoss 4 0xFFFF [b])
      (s.landDiscard b).discardEvent 4
    else
      let s := s.setQueue q (s.queue q ++ [⟨b, a⟩])
      let kib := s.landFill / 1024
      let s := s.statIn false (fun x => statHigh x 0xC0 kib)
      s.setFld LND_PEAK.KIB 0 (max (s.fld LND_PEAK.KIB 0) kib)

/-- End the causes CAP of queue q and FULL when the fill has fallen far enough (R333, R354). -/
def State.landRelief (s : State) (q : Nat) : State :=
  let s := s.when (s.cel.capped.contains q &&
      decide (2 * 128 * (s.queue q).length ≤ s.fld LND_CFG.PC_CAP 0 * 1024)) (fun s =>
    let s : State := { s with cel := { s.cel with capped := s.cel.capped.filter (· != q) } }
    (s.setFlag LND_STATUS.CAPPED 0 (s.cel.capped != [])).closeLoss (fun e => e.cause == 3 && e.hpc == q))
  s.when (s.flag LND_STATUS.FULL 0 && decide (s.landFill ≤ 30 * 2 ^ 20)) (fun s =>
    (s.setFlag LND_STATUS.FULL 0 false).closeLoss (fun e => e.cause == 4))

/-- The same for every queue, after writes have left several. -/
def State.landRelieved (s : State) : State := (s.over s.cel.capped State.landRelief).landRelief 0

/-- BLOCK_LAND: the next block on the hub link of die k arrives in the landing buffer (R332). -/
def execBlockLand (k : Fin 8) (s : State) : Res :=
  .next (match (s.die k.val).hubLink with
  | [] => s
  | b :: rest => (s.setDie k.val { s.die k.val with hubLink := rest, hubFails := 0 }).land b)

/-- Writes that the TCLK-to-MCLK queue of a stack holds: 64 bursts of 32 bytes (R24). -/
def crossDepth : Nat := 16

/-- The writes in the crossing queue of stack m. -/
def State.crossing (s : State) (m : Nat) : List RingWrite :=
  s.cel.cross.filter (fun w => match s.hpcOf w.addr with
    | some h => h / 32 == m
    | none => false)

/-- The oldest write of cellar pseudo-channel q in its crossing queue. -/
def State.crossHead (s : State) (q : Nat) : Option RingWrite := s.cel.cross.find? (fun w => w.addr / 128 % 128 == q)

/-- A write reaches its pseudo-channel: it breaks every pin on its slot and is issued (R308, R334). -/
def State.issueWrite (s : State) (w : RingWrite) : State :=
  let s := s.breakPins w.addr w.blk
  ({ s with cel := { s.cel with issued := s.cel.issued ++ [w] } } : State).memLog srcRing true w.addr 128

/-- The refreshes that h owes are issued once its landing queue is empty (R340). -/
def State.payRefresh (s : State) (h : Nat) : State :=
  let owed := Table.getD s.cel.owed h 0
  if owed = 0 || s.queue h != [] then s
  else ({ s with cel := { s.cel with owed := Table.set 0 s.cel.owed h 0 } } : State).hist h srcControl
    (List.replicate owed (5, 0, 0, 0, 0))

/-- RING_WRITE_ISSUE: the oldest write of pseudo-channel q is issued, from the crossing queue first.  While the memory
side stalls, the crossing queue fills from the landing queue, which keeps the rest (R25, R308, R334). -/
def execRingWriteIssue (q : Fin 128) (s : State) : Res :=
  let old := s.crossHead q.val
  .next (match old.orElse (fun _ => (s.queue q.val).head?) with
  | none => s
  | some w =>
    match s.hpcOf w.addr with
    | none => s
    | some h =>
      if s.stalled h then
        match s.queue q.val with
        | [] => s
        | x :: rest =>
          if (s.crossing (h / 32)).length < crossDepth then
            let s := s.setQueue q.val rest
            (({ s with cel := { s.cel with cross := s.cel.cross ++ [x] } } : State).landRelief q.val).payRefresh q.val
          else s
      else if old.isSome then
        ({ s with cel := { s.cel with cross := s.cel.cross.erase w } } : State).issueWrite w
      else (((s.setQueue q.val (s.queue q.val).tail).issueWrite w).landRelief q.val).payRefresh q.val)

/-- RING_WRITE_ACK: the oldest issued write of cellar pseudo-channel q is acknowledged: the slot holds the
block, HEAD advances and segments whose last block this was close (R301, R331). -/
def execRingWriteAck (q : Fin 128) (s : State) : Res :=
  .next (match s.cel.issued.find? (fun w => w.addr / 128 % 128 == q.val) with
  | none => s
  | some w =>
    let s : State := { s with cel := { s.cel with issued := s.cel.issued.erase w } }
    let s := s.devWrite w.addr w.blk.bytes
    let k := w.blk.ch / 32
    ((s.setDie k ((s.die k).ringAck w.blk.count)).settle w.blk).closeSegments)

/-- ANCHOR_WRITE_ACK: the oldest anchor's write is acknowledged: it stands in slot i % (LENGTH / 64) and
CEL_ANCHOR_NEXT advances (R350).  With error status the write was discarded (R352). -/
def execAnchorWriteAck (error : Bool) (s : State) : Res :=
  .next (match s.cel.anchors, s.region 5 0 with
  | a :: rest, some r =>
    let s := if error then s
      else s.devPut srcRing (r.offset + 64 * (s.cel.anchorNext % (r.length / 64))) a
    { s with cel := { s.cel with anchors := rest, anchorNext := s.cel.anchorNext + 1 } }
  | _, _ => s)

/-- LOSS_ENTRY_ACK: the oldest open entry's write is acknowledged (R354). -/
def execLossEntryAck (s : State) : Res := .next s.ackLoss

/-! ## Planned stalls (R335, R341, R345) -/

/-- The DETAIL code of a stall in STALL_DEFERRED. -/
def Stall.code : Stall → Nat
  | .freq .. => 0
  | .repair .. => 1

/-- May a planned stall start (R335)? -/
def State.stallOk (s : State) : Bool :=
  s.cel.stall.isNone && s.gateOpen &&
  (match s.cel.stallEnd with
   | some t => decide (t + 100 * usCycles ≤ s.now)
   | none => true)

/-- Spare rows of a bank: the stacks fix it (R345). -/
def spareRows : Nat := Config.free "spare rows of a bank" [] 0 % 256

/-- Spare rows used in a bank of h. -/
def State.rowsUsed (s : State) (h bank : Nat) : Nat := Table.getD s.cel.rows (h * 64 + bank) 0

/-- CEL_REPAIR.SPARE_MIN: the fewest spare rows left in any bank (R345). -/
def State.spareMin (s : State) : Nat := spareRows - s.cel.rows.foldl (fun m e => max m e.2) 0

/-- Use a spare row of a bank. -/
def State.useRow (s : State) (h bank : Nat) : State :=
  { s with cel := { s.cel with rows := Table.set 0 s.cel.rows (h * 64 + bank) (s.rowsUsed h bank + 1) } }

/-- A soft repair maps a spare row in place of the failing one; no data is lost (R345).  CEL_REPAIR.SOFT shows how many
are in force. -/
def State.softRow (s : State) (h bank row : Nat) : State :=
  if s.cel.soft.contains (h, bank, row) then s
  else
    let s := s.useRow h bank
    { s with cel := { s.cel with soft := s.cel.soft ++ [(h, bank, row)] } }

/-- A soft repair of a row has been made: SPARE_USED with the row word (R497). -/
def State.rowReport (s : State) (h word : Nat) : State :=
  let host := s.pan.rowHost.contains (h, word)
  let s : State := { s with pan := { s.pan with rowHost := s.pan.rowHost.filter (· != (h, word)) } }
  s.swapUsed kROW h h word (if host then .host else .wear)

/-- Run a planned stall: a soft repair is done within it; in a frequency change the stacks named are in self-refresh
until FREQ_CHANGE_DONE (R341). -/
def State.runStall (s : State) (x : Stall) : State :=
  match x with
  | .freq mask _ =>
    let s : State := { s with cel := { s.cel with stall := some x, stallStart := s.now } }
    let s := s.setFlag CEL_STATUS.FC_BUSY 0 true
    { s with cel := (List.range 4).foldl (fun (c : CelState) m =>
        if bit mask m then (c.wake s.now m).sleep s.now m [(4, 0, 0, 0, 0)] else c) s.cel }
  | .repair h bank row =>
    let s := (s.softRow h bank row).hist h srcControl
      [(1, bank, row, 0, 0), (2, bank, row, 0, 0), (8, bank, row, 0, 0), (3, bank, row, 0, 0), (4, bank, row, 0, 0)]
    let s : State := { s with cel := { s.cel with stallEnd := some s.now } }
    (s.raise Ev.ROW_REPAIRED h [(0, 1, 0), (1, 1, bank), (2, 3, row)]).rowReport h (bank * 2 ^ 16 + row)

/-- A planned stall is deferred: counted in LND_DEFERS and reported; its own retry is 10 µs away (R335). -/
def State.stallDeferred (s : State) (x : Stall) : State :=
  let s : State := { s with cel := { s.cel with waiting := s.cel.waiting ++ [(x, s.now)] } }
  ((s.addFld LND_DEFERS.COUNT 0 1).stat 0xC6 1).raise Ev.STALL_DEFERRED 0 [(0, 1, x.code)]

/-- Start a planned stall, or defer it (R335). -/
def State.planStall (s : State) (x : Stall) : State := if s.stallOk then s.runStall x else s.stallDeferred x

/-- PLANNED_STALL_RETRY: a deferred stall whose last attempt lies 10 µs back is retried, the oldest attempt first
(R335). -/
def execPlannedStallRetry (s : State) : Res :=
  .next (match s.cel.waiting with
  | [] => s
  | (x, t) :: rest =>
    if s.now < t + 10 * usCycles then s else ({ s with cel := { s.cel with waiting := rest } } : State).planStall x)

/-- A quarter of the ring's writes and of the loads of R337, in MB/s, rounded up: what one stack serves. -/
def State.stackLoad (s : State) : Nat × Nat :=
  let ring := (List.range 8).foldl (fun n k =>
    if s.gib != 0 && (s.die k).started && !(s.die k).down then
      n + (512 * (s.fOct k).1 + 10 ^ 7 * (s.fOct k).2 - 1) / (10 ^ 7 * (s.fOct k).2) else n) 0
  ((ring + 3) / 4, (s.nonRingLoad s.prog.force + 4 * shareUnit - 1) / (4 * shareUnit))

/-- Stack m may run at a rate code: one that is no lower than its own always; a lower one when the stack's share of the
ring and of the loads of R337 fits its sustained capacity there with the shares of R334 (R322, R341). -/
def State.rateFits (s : State) (m rate : Nat) : Bool :=
  let cap := (if bit (s.fld CEL_STATUS.HOT 0) m then 26400 else 30000) * 32 / 2 ^ rate
  let l := s.stackLoad
  decide (rate ≤ bits (s.fld CEL_FC_STAT.RATE 0) (2 * m + 1) (2 * m)) ||
    (decide (10 * l.2 ≤ 4 * cap) && decide (l.1 + l.2 ≤ cap))

/-- A write of CEL_FC_CTRL: RATE 3 is ignored; GO requests the change of the named stacks.  The power manager selects a
lower rate only for stacks whose load fits it: otherwise the request has no effect (R341; log entry 106). -/
def State.fcWrite (s : State) (v : Nat) : State :=
  let s := s.setFld CEL_FC_CTRL.STACKS 0 (bits v 3 0)
  let s := s.when (bits v 5 4 != 3) (·.setFld CEL_FC_CTRL.RATE 0 (bits v 5 4))
  let fits := (List.range 4).all (fun m => !bit (s.fld CEL_FC_CTRL.STACKS 0) m || s.rateFits m (s.fld CEL_FC_CTRL.RATE 0))
  s.when (bit v 31 && s.fld CEL_FC_CTRL.STACKS 0 != 0 && fits)
    (·.planStall (.freq (s.fld CEL_FC_CTRL.STACKS 0) (s.fld CEL_FC_CTRL.RATE 0)))

/-- FC_GO: a write of CEL_FC_CTRL (R341). -/
def execFcGo (path : Path) (value : BitVec 32) (s : State) : Res :=
  .next ((s.fcWrite value.toNat).wrote path .CEL_FC_CTRL 0)

/-- FREQ_CHANGE_DONE: the frequency change in progress ends: at the new rate, or, when the alignment check
failed, at the old one; FREQ_CHANGED reports it (R341). -/
def execFreqChangeDone (aligned : Bool) (s : State) : Res :=
  .next (match s.cel.stall with
  | some (.freq mask rate) =>
    let s := s.when aligned (fun s => s.setFld CEL_FC_STAT.RATE 0
      ((List.range 4).foldl (fun v m => if bit mask m then withBits v (2 * m + 1) (2 * m) rate else v)
        (s.fld CEL_FC_STAT.RATE 0)))
    let s := s.setFlag CEL_STATUS.FC_BUSY 0 false
    let s : State := { s with cel := (List.range 4).foldl (fun (c : CelState) m =>
      if bit mask m then c.wake s.now m else c) s.cel }
    let ns := (s.now - s.cel.stallStart) * 5 / 8
    let s : State := { s with cel := { s.cel with stall := none, stallEnd := some s.now } }
    s.raise Ev.FREQ_CHANGED 0x3FF [(0, 1, mask), (1, 1, rate), (2, 1, b2n (!aligned)), (3, 4, ns)]
  | _ => s)

/-- SOFT_REPAIR: the pantry asks for a soft repair of a row, a planned stall (R345). -/
def execSoftRepair (h : Fin 128) (bank : Fin 48) (row : BitVec 16) (s : State) : Res :=
  .next (if s.pcDown h.val then s else s.planStall (.repair h.val bank.val row.toNat))

/-- A hard repair may run: the cellar part is moved away, or the device is in SERVICE (R345). -/
def State.hardOk (s : State) (h : Nat) : Bool := (Table.get? s.cel.moved h).isSome || s.dev == .service

/-- A hard repair fuses the spare row permanently (R345). -/
def State.hardRow (s : State) (h bank row : Nat) : State :=
  let soft := s.cel.soft.contains (h, bank, row)
  let s := if soft then
      ({ s with cel := { s.cel with soft := s.cel.soft.filter (· != (h, bank, row)) } } : State)
    else s.useRow h bank
  let s := s.hist h srcControl [(8, bank, row, 0, 0)]
  (s.addFld CEL_REPAIR.HARD 0 1).raise Ev.ROW_REPAIRED h [(0, 1, 1), (1, 1, bank), (2, 3, row)]

/-- HARD_REPAIR: a spare row of h is fused permanently (R345). -/
def execHardRepair (h : Fin 128) (bank : Fin 48) (row : BitVec 16) (s : State) : Res :=
  .next (if s.hardOk h.val then s.hardRow h.val bank.val row.toNat else s)

/-! ## Refresh, scrub and sleep (R340, R342, R344) -/

/-- The refresh interval of h: 3.9 µs, and 1.95 µs while its stack is hot (R340). -/
def State.refreshCycles (s : State) (h : Nat) : Nat := if bit (s.fld CEL_STATUS.HOT 0) (h / 32) then 3120 else 6240

/-- REFRESH_DUE: the refresh interval of h expires: while its landing queue holds writes the refresh is
postponed up to POSTPONE times; otherwise every owed refresh is issued (R340). -/
def execRefreshDue (h : Fin 128) (s : State) : Res :=
  let owed := Table.getD s.cel.owed h.val 0
  .next (if s.pc h.val == .frozen || s.pc h.val == .retired || s.stalled h.val ||
      !s.timerDue (tmRefresh h.val) (s.refreshCycles h.val) then s
  else
    let s := s.timerSet (tmRefresh h.val)
    if s.queue h.val != [] && decide (owed < s.fld CEL_REFRESH.POSTPONE 0) then
      { s with cel := { s.cel with owed := Table.set 0 s.cel.owed h.val (owed + 1) } }
    else
      ({ s with cel := { s.cel with owed := Table.set 0 s.cel.owed h.val 0 } } : State).hist h.val srcControl
        (List.replicate (owed + 1) (5, 0, 0, 0, 0)))

/-- A corrected read is counted, and reported at the first after 1 s without one (R343, R357). -/
def State.corrected (s : State) (h : Nat) : State :=
  let fresh := match s.cel.lastCorr with
    | some l => decide (l + sCycles ≤ s.now)
    | none => true
  let n := s.cel.corrections + 1
  let s := s.addFld CEL_ECC_CORR.COUNT 0 1
  let s : State := { s with pan := { s.pan with
    hbmCorr := Table.set 0 s.pan.hbmCorr h (Table.getD s.pan.hbmCorr h 0 + 1) } }
  let s : State := { s with cel := { s.cel with lastCorr := some s.now, corrections := if fresh then 0 else n } }
  s.when fresh (·.raise Ev.ECC_CORR h [(0, 4, n)])

/-- SCRUB_READ: patrol scrub reads the burst (bank, row, col) of h; a correction is written back, counted,
and recorded once per pass for its row.  The read of burst (0, 0, 0) begins a pass, PERIOD_H hours after the one before
it (R344). -/
def execScrubRead (h : Fin 128) (bank : Fin 48) (row : BitVec 16) (col : Fin 32) (corrected : Bool)
    (s : State) : Res :=
  let first := bank.val = 0 && row = 0 && col.val = 0
  .next (if !s.flag CEL_SCRUB.EN 0 || s.pcDown h.val || s.stalled h.val ||
      (first && !s.timerDue (tmScrub h.val) (s.fld CEL_SCRUB.PERIOD_H 0 * 3600 * sCycles)) then s
  else
    let s := s.when first (·.timerSet (tmScrub h.val))
    let b := bank.val
    let r := row.toNat
    let c := col.val
    let pass := Table.getD s.cel.scrubPass h.val 0 + b2n first
    let s : State := { s with cel := { s.cel with scrubPass := Table.set 0 s.cel.scrubPass h.val pass } }
    let s := (s.stat 0x88 32).hist h.val srcScrub ([(1, b, r, c, 0), (2, b, r, c, b2n corrected)] ++
      (if corrected then [(3, b, r, c, 0)] else []) ++ [(4, b, r, c, 0)])
    if corrected then
      let key := (h.val * 64 + b) * 65536 + r
      let e := Table.getD s.cel.scrub key (0, 0)
      let s : State := if e.1 != 0 && e.2 == pass then s
        else { s with cel := { s.cel with scrub := Table.set (0, 0) s.cel.scrub key (e.1 + 1, pass) } }
      s.corrected h.val
    else s)

/-- Some client has requests for the memory side under way: anchors, loss entries, copies and records, replays, transfers
of tiles and of the DMA engine, stalls that wait (R342). -/
def State.clientsBusy (s : State) : Bool :=
  !s.cel.anchors.isEmpty || s.cel.losses.any (fun e => !e.acked) || !s.cel.waiting.isEmpty ||
  !s.trg.jobs.isEmpty || !s.trg.writing.isEmpty || !s.trg.indexing.isEmpty || (List.range 8).any (fun k => (s.replay k).running) ||
  s.tiles.any (fun e => !e.2.xlds.isEmpty || !e.2.out.isEmpty || !e.2.acks.isEmpty) ||
  (List.range 32).any (fun c => (s.dmaCh c).phase == .data || (s.dmaCh c).phase == .readback)

/-- STACK_SLEEP: stack m enters self-refresh when no octant produces blocks and no client has requests;
stacks 0 and 1 only while Hearth is stopped (R342).  Entry cancels owed refreshes (R340). -/
def execStackSleep (m : Fin 4) (hearthStopped : Bool) (s : State) : Res :=
  let busy := (List.range 8).any (fun k => (s.die k).started && !(s.die k).down)
  let pending := s.cel.queues.any (fun e => e.1 / 32 == m.val) || (s.cel.cross ++ s.cel.issued).any (fun w =>
    match s.hpcOf w.addr with | some h => h / 32 == m.val | none => false)
  .next (if busy || pending || s.clientsBusy || (decide (m.val < 2) && !hearthStopped) || bit s.cel.asleep m.val ||
      s.cel.stall.isSome then s
  else { s with cel := s.cel.sleep s.now m.val [] })

/-- STACK_WAKE: a sleeping stack leaves self-refresh for a request (R342). -/
def execStackWake (m : Fin 4) (s : State) : Res :=
  .next (if s.cel.stallAt (32 * m.val) then s else { s with cel := s.cel.wake s.now m.val })

/-! ## Freezes (R351 to R355) -/

def State.setPc (s : State) (h : Nat) (x : PcState) : State :=
  { s with cel := { s.cel with pc := Table.set .ok s.cel.pc h x } }

/-- Set or clear h's bit in CEL_FROZEN. -/
def State.setFrozen (s : State) (h : Nat) (b : Bool) : State :=
  s.setReg .CEL_FROZEN (h / 32)
    (BitVec.ofNat 32 (withBits (s.reg .CEL_FROZEN (h / 32)).toNat (h % 32) (h % 32) (b2n b)))

/-- Complete every ring write queued or issued for a pseudo-channel that no longer serves with error
status; the blocks are lost (R351, R352). -/
def State.dropWrites (s : State) : State × List SBlock :=
  let bad := fun (w : RingWrite) => s.poisoned w.addr
  let queued := (s.cel.queues.map (·.2)).flatten.filter bad
  let lost := (queued ++ (s.cel.cross ++ s.cel.issued).filter bad).map (·.blk)
  let s := s.over (s.cel.queues.map (·.1)) (fun t q => t.setQueue q ((t.queue q).filter (fun w => !bad w)))
  let keep := fun (l : List RingWrite) => l.filter (fun w => !bad w)
  let s : State := { s with cel := { s.cel with issued := keep s.cel.issued, cross := keep s.cel.cross } }
  let s : State := { s with trg := { s.trg with
    writing := s.trg.writing.map (fun w => match s.region 1 0 with
      | some r => { w with failed := w.failed || s.poisonedRange (r.offset + w.offset) w.bytes.length }
      | none => w) } }
  (lost.foldl (fun t b => t.settle b) s, lost)

/-- HBM pseudo-channel h freezes: cause 0 data, 1 command parity, 2 write data (R351). -/
def State.freeze (s : State) (h cause bank row col synd retries : Nat) : State :=
  if s.pc h != .ok then s
  else
    let before := s.downPcs
    let source := Config.free "Hall source class of a failing command" [(h : Nat)] s.now % 11
    let s := s.hist h source [(if cause = 2 then 3 else 2, bank, row, col, if cause = 0 then 2 else 3)]
    let s := s.setPc h .frozen
    let s := s.when (cause = 0) (·.addFld CEL_ECC_UNCORR.COUNT 0 1)
    let addr := bank * 2 ^ 26 + row * 2 ^ 10 + col * 2 ^ 5
    let sy := cause * 2 ^ 24 + retries * 2 ^ 16 + (if cause = 0 then synd else 0)
    let s : State := { s with cel := { s.cel with
      diag := Table.insert natLt s.cel.diag h (addr, sy),
      freezes := Table.insert natLt s.cel.freezes h (Table.getD s.cel.freezes h [] ++ [s.now]) } }
    let s := s.setFrozen h true
    let (s, lost) := s.dropWrites
    let s := s.over (s.downPcs.filter (fun q => !before.contains q)) (fun s q =>
      s.openLoss 1 q.1 (lost.filter (fun b =>
        s.ringAddr (s.gibOf (b.ch / 32) b.count) b.ch b.count / 128 % 128 == q.1)))
    let s := s.landRelieved
    let s := s.raise Ev.PC_FROZEN h [(0, 1, cause), (1, 1, bank), (2, 3, row), (5, 2, col)]
    s.closeSegments

/-- PC_FREEZE: an uncorrectable read or an unrecovered command error freezes h (R351). -/
def execPcFreeze (h : Fin 128) (cause : Fin 3) (bank : Fin 48) (row : BitVec 16) (col : Fin 32)
    (synd : BitVec 16) (s : State) : Res :=
  .next (s.freeze h.val cause.val bank.val row.toNat col.val synd.toNat (if cause.val = 0 then 0 else 3))

/-- Close the entries of one cause of a cellar pseudo-channel. -/
def State.closePc (s : State) (cause q : Nat) : State := s.closeLoss (fun e => e.cause == cause && e.hpc == q)

/-- The cellar pseudo-channels that came back or changed cause: their entries close and, for a cause that
goes on, a new one opens (R354). -/
def State.lossSync (s : State) (before : List (Nat × Nat)) : State :=
  let after := s.downPcs
  let s := s.over (before.filter (fun q => !after.contains q)) (fun s q => s.closePc q.2 q.1)
  s.over (after.filter (fun q => !before.contains q)) (fun s q => s.openLoss q.2 q.1 [])

/-- RELEASE: h, frozen, is re-initialised; its blocks are recorded under cause REINIT (R355). -/
def State.release (s : State) (h : Nat) : State :=
  if s.pc h != .frozen then s
  else
    let before := s.downPcs
    ((s.setPc h .reinit).timerSet (tmPc h)).lossSync before

/-- RETIRE: h, frozen, stays out of service until the pantry has moved its cellar part (R355, R506). -/
def State.retirePc (s : State) (h : Nat) : State :=
  if s.pc h == .frozen then s.setPc h .retired else s

/-- What h held is lost by re-initialisation: its bytes are as memory that nothing has written. -/
def State.wipePc (s : State) (h : Nat) : State :=
  { s with mem := s.mem.filter (fun e => s.hpcOf e.1 != some h) }

end Sys2Proof.Machine
end

