-- ==== Sys2Proof/Machine/Clock.lean ====
section
/-! DEFINITION. Quartz: the reference detector, lock criteria, relock, coasting and return, offset slew and
fine delays (R67 to R99). -/

namespace Sys2Proof.Machine

/-- REF_STATE codes (R71). -/
def refABSENT : Nat := 0
def refQUALIFYING : Nat := 1
def refPRESENT : Nat := 2
def refOUT : Nat := 3

/-- TREE codes of CLK_STATUS. -/
def treeLOCKED : Nat := 0
def treeCOASTING : Nat := 1
def treeBYPASS : Nat := 2
def treeRELOCKING : Nat := 3

def State.tree (s : State) : Nat := s.fld CLK_STATUS.TREE 0

/-- Set the tree state; while it is not locked a turn tracker that was LOCKED is in COAST (R259). -/
def State.setTree (s : State) (n : Nat) : State :=
  (s.setFld CLK_STATUS.TREE 0 n).when (n != treeLOCKED && s.fld EPO_TURN_STAT.STATE 0 == 1)
    (·.setFld EPO_TURN_STAT.STATE 0 2)

def State.synLock (s : State) : Bool := s.flag CLK_STATUS.SYN_LOCK 0
def State.setClk (s : State) (f : ClkState → ClkState) : State := { s with clk := f s.clk }

/-- Step of the relock sequence that waits to retry after RELOCK_FAIL (R89). -/
def relockWAIT : Nat := 10

/-! ## The relock sequence (R86 to R89) -/

/-- CKO outputs are gated at step 2 (those without FREE_RUN) or ungated at step 9. -/
def State.gateCko (s : State) (gate : Bool) : State :=
  s.each 4 (fun s n =>
    if s.flag CLK_CKO_CFG.FREE_RUN n && gate then s
    else
      let en := s.flag CLK_CKO_CFG.EN n
      (s.setFlag CLK_CKO_STAT.GATED n (gate && en)).setFlag CLK_CKO_STAT.RUNNING n (!gate && en))

/-- Steps 1 to 3: the dies and TCLK switch to bypass, an anchor is written and BYPASS_ENTER raised.
Blocks in progress keep the state of the switch, but for a die that is on bypass already (R86, R90, R96). -/
def State.startRelock (s : State) : State :=
  let old := (List.range 8).map s.clkq
  let s := s.setClk (fun c => { c with
    relock := 4, attempts := 1, step4At := s.now, relockStart := s.now,
    goodGates := 0, coastPpb := none, ret := none })
  let s := (((s.setTree treeRELOCKING).setFlag CLK_STATUS.SYN_LOCK 0 false).setFlag CLK_STATUS.TILE_LOCK 0
    false).setFld CLK_STATUS.JC_LOCK 0 0
  let s := s.setFlag CLK_STATUS.SLEWING 0 s.clk.slewAt.isSome
  let s := (s.setFlag CLK_FLAGS.BYP_SEEN 0 true).gateCko true
  let s := s.each 8 (fun s k =>
    let d := s.die k
    s.setDie k { d with
      onBypass := true, bypSince := none, worst := if d.onBypass then max d.worst (s.clkq k) else 3 })
  let s := s.each 8 (fun s k =>
    let d := s.die k
    if d.started then s.anchorPred anCLKQ k (if nth old k 3 ≤ s.clkq k then d.count else d.count + 1) else s)
  s.raise Ev.BYPASS_ENTER 0 [(0, 1, 255)]

/-- The coasting word and a return in progress are done with. -/
def State.dropReturn (s : State) : State :=
  (s.setClk (fun c => { c with coastPpb := none, ret := none })).setFlag CLK_STATUS.SLEWING 0 s.clk.slewAt.isSome

/-- Restart at step 4: no second BYPASS_ENTER and no second anchor (R86, R89). -/
def State.restartRelock (s : State) : State :=
  (((s.dropReturn.setClk (fun c => { c with
    relock := 4, attempts := c.attempts + 1, step4At := s.now, goodGates := 0 })).setFlag CLK_STATUS.SYN_LOCK 0 false).setFlag CLK_STATUS.TILE_LOCK 0 false).setTree
    treeRELOCKING

/-- A cause of R86 occurs: the sequence starts, or restarts at step 4 when it runs after step 6.  R86 names only an
unlock for the restart: a switch point with a new source, divider or f_syn restarts it too (DESIGN CHOICE, log entry
103). -/
def State.relockCause (s : State) : State :=
  if s.clk.relock = 0 then s.startRelock
  else if s.clk.relock = 7 then s.restartRelock
  else s

/-- Microseconds since the relock sequence started. -/
def State.relockUs (s : State) : Nat := (s.now - s.clk.relockStart) / usCycles

/-- Steps 7 to 9 when every cleaner, the tile PLL and the synthesiser are locked: the dies and TCLK switch
back and RELOCKED is raised (R86).  Where the reference was lost in step 7, the dies return to the coasting tree, which
R93 or R94 declares locked (R91; DEDUCED, log entry 91). -/
def State.relockDone (s : State) : State :=
  let follows := s.synLock && s.flag CLK_STATUS.TILE_LOCK 0
  if s.clk.relock = 7 && (follows || s.clk.coastPpb.isSome) && s.fld CLK_STATUS.JC_LOCK 0 == 255 then
    let us := s.relockUs
    let s := s.clockChange (fun s =>
      let s := s.setClk (fun c => { c with relock := 0, everLocked := c.everLocked || follows, failSince := none })
      (s.setTree (if follows then treeLOCKED else treeCOASTING)).each 8 (fun s k => s.setDie k { s.die k with onBypass := false }))
    (s.gateCko false).raise Ev.RELOCKED 0 [(0, 4, us), (4, 1, 255)]
  else s

/-- Every crystal-tree loop has locked (R69). -/
def State.crystalLocked (s : State) : Bool :=
  s.flag CLK_STATUS.BYP_LOCK 0 && s.clk.memLock.all id && s.clk.coreLock && s.clk.serdesLock &&
  s.clk.pixLock.all id && s.clk.aonLock

/-- The first relock with SRC_SEL = 1, as soon as the crystal-tree loops are locked (R69, R86). -/
def State.firstRelock (s : State) : State :=
  if s.flag CLK_REF_CFG.SRC_SEL 0 && s.crystalLocked && !s.clk.everLocked && s.clk.relock = 0
  then s.startRelock else s

/-! ## Reference detector (R71, R72) -/

/-- REFIN_EDGE: the first edge moves ABSENT to QUALIFYING, and the qualification time starts (R71). -/
def execRefinEdge (s : State) : Res :=
  .next (if s.fld CLK_STATUS.REF_STATE 0 = refABSENT then
    (s.setFld CLK_STATUS.REF_STATE 0 refQUALIFYING).setClk (fun c => { c with qualAt := s.now })
  else s)

/-- The qualification time QUAL × 10 ms has passed (R71). -/
def State.qualified (s : State) : Bool :=
  decide (s.clk.qualAt + s.fld CLK_REF_CFG.QUAL 0 * 10 * msCycles ≤ s.now)

/-- REF_QUALIFY_END: the qualification time ends with the measured frequency; in tolerance the reference
is PRESENT, and a coasting tree begins its return, or a tree without a coasting word its relock (R71, R86,
R92). -/
def execRefQualifyEnd (hz : Nat) (s : State) : Res :=
  let nom := s.fld CLK_REF_NOM.NOM_HZ 0
  let dev := if nom ≤ hz then hz - nom else nom - hz
  .next (if s.fld CLK_STATUS.REF_STATE 0 != refQUALIFYING || !s.qualified ||
      s.fld CLK_REF_CFG.TOL_PPM 0 * nom < dev * 1000000 then s
  else
    let s := s.setFld CLK_STATUS.REF_STATE 0 refPRESENT
    let s := (s.setClk (fun c => { c with refHz := hz })).raise Ev.REF_QUALIFIED 0 [(0, 4, hz)]
    if s.flag CLK_REF_CFG.SRC_SEL 0 then s
    else if s.tree = treeCOASTING then s.setClk (fun c => { c with ret := some .measuring })
    else if s.synLock || s.clk.relock != 0 then s
    else s.startRelock)

/-- The tree coasts on the word `ppb` from nominal: COAST_ENTER, an anchor, CLKQ 01 (R91).  A relock that waits in
step 7 for its cleaners goes on (log entry 91). -/
def State.coast (s : State) (ppb : Int) : State :=
  (s.clockChange (fun s =>
    let s := s.setClk (fun c => { c with coastPpb := some ppb, ret := none, goodGates := 0 })
    ((s.setTree treeCOASTING).setFlag CLK_STATUS.SYN_LOCK 0 false).setFlag CLK_STATUS.TILE_LOCK 0 false)).raise
    Ev.COAST_ENTER 0 [(0, 4, toU 32 ppb)] |>.relockDone

/-- REF_LOST with its cause (R98). -/
def State.refLost (s : State) (cause : Nat) : State :=
  (s.setFlag CLK_FLAGS.REF_LOST_SEEN 0 true).raise Ev.REF_LOST 0 [(0, 1, cause)]

/-- A return in progress is given up and the tree coasts again on the word before it (R95).  Whether COAST_ENTER and an
anchor come again R95 does not say: none does (DESIGN CHOICE, log entry 91). -/
def State.returnLost (s : State) : State :=
  let s := s.setFlag CLK_STATUS.SLEWING 0 s.clk.slewAt.isSome
  (s.setTree treeCOASTING).setClk (fun c => { c with ret := none, goodGates := 0 })

/-- The source of the tree is gone while it follows it or returns to it: the tree coasts on the word `ppb`, or again on
the word before the return (R84, R91, R95). -/
def State.sourceLost (s : State) (ppb : Int) : State :=
  if s.clk.ret.isSome then s.returnLost
  else if s.synLock && (s.clk.relock = 0 || s.clk.relock = 7) then s.coast ppb
  else s

/-- REF_MISSING_EDGE: a missing-edge fault; the word is `coastPpb` from nominal (R72, R91, R95).  R91 names no source:
a tree that runs from XTAL_IN does not coast when REFIN is lost (DESIGN CHOICE, log entry 91). -/
def execRefMissingEdge (coastPpb : Int) (s : State) : Res :=
  let st := s.fld CLK_STATUS.REF_STATE 0
  .next (if st = refABSENT then s
  else
    let s := s.setFld CLK_STATUS.REF_STATE 0 refABSENT
    if st != refPRESENT then s
    else
      let s := s.refLost 0
      if s.flag CLK_REF_CFG.SRC_SEL 0 then s else s.sourceLost coastPpb)

/-! ## Lock detectors (R74, R75, R84) -/

/-- The expected count of a gate, in quarter cycles scaled by 2^32 × 10^9 (R74). -/
def State.gateExpected (s : State) : Nat :=
  2 ^ 18 * (s.fld CLK_SYN_INT.N_INT 0 * 2 ^ 32 + s.fld CLK_SYN_FRAC.N_FRAC 0) * (1000000000 + s.offsetNow).toNat

/-- A clock lies within 100 ppm of its ceiling, nominal × (1 + CEIL_PPM × 10^-6) (R84). -/
def State.nearCeiling (s : State) (hz nomNum nomDen : Nat) : Bool :=
  decide (nomNum * (1000000 + s.fld CLK_CEIL.CEIL_PPM 0) * (1000000 - 100) ≤ hz * nomDen * 1000000 * 1000000)

/-- The synthesiser is declared unlocked (R74, R86). -/
def State.synUnlock (s : State) (slip : Bool) : State :=
  let s := s.setFlag CLK_FLAGS.SYN_UNLOCK_SEEN 0 true
  (s.raise Ev.SYN_UNLOCK 0 [(0, 4, s.fld CLK_FREQ_ERR.ERR 0), (4, 1, b2n slip)]).relockCause

/-- The tree is declared locked after a return: the coasting word is done with; a relock whose dies are still on bypass
goes on (R93, R94). -/
def State.returnLocked (s : State) : State :=
  let s := s.setClk (fun c => { c with
    ret := none, coastPpb := none, goodGates := 0, everLocked := c.everLocked || decide (c.relock = 0) })
  ((s.setTree (if s.clk.relock = 0 then treeLOCKED else treeRELOCKING)).setFlag CLK_STATUS.SYN_LOCK 0 true).setFlag
    CLK_STATUS.TILE_LOCK 0 true

/-- Lock is declared again after a slewed return: SLEW_DONE and an anchor (R93). -/
def State.slewDone (s : State) : State :=
  let us := s.clk.retStart / usCycles
  ((s.clockChange State.returnLocked).raise Ev.SLEW_DONE 0 [(0, 4, us)]).relockDone

/-- A clock comes within 100 ppm of its ceiling: OUT_OF_RANGE, and the tree coasts.  R72 gives the coasting word for a
missing-edge fault only: here it is the frequency that the gate measured (R84; DESIGN CHOICE, log entry 91). -/
def State.outOfRange (s : State) (synHz : Nat) : State :=
  let ppb := tdiv ((((synHz * s.fSyn.2 : Nat) : Int) - (s.fSyn.1 : Nat)) * 1000000000) (s.fSyn.1 : Nat)
  let s := s.setFld CLK_STATUS.REF_STATE 0 refOUT
  ((s.setFlag CLK_FLAGS.CEIL_HIT 0 true).refLost 1).sourceLost ppb

/-- A good gate counts toward two in a row; a bad one restarts the count (R74). -/
def State.countGate (s : State) (good : Bool) : State :=
  s.setClk (fun c => { c with goodGates := if good then min 2 (c.goodGates + 1) else 0 })

/-- LOCK_GATE_END: a gate of 2^16 reference cycles ends with `quarters` quarter cycles counted and the
measured frequencies of the synthesiser and of TCLK (R74, R84).  The ceiling is checked at every gate while the tree
follows its source (locked, while the loop closes after a slew, and while it waits for STEP) and while the relock sequence
runs; there OUT_OF_RANGE is entered once, and the tree, which has no coasting word, stays on bypass. -/
def execLockGateEnd (quarters synHz tclkHz : Nat) (slip : Bool) (s : State) : Res :=
  let want := s.gateExpected
  let got := quarters * 2 ^ 32 * 1000000000
  let diff : Int := Int.ofNat got - Int.ofNat want
  let err := if want = 0 then 0 else satS 32 (tdiv (diff * 100000000) (Int.ofNat want))
  let good := decide (diff.natAbs * 1000000 ≤ 2 * want) && !slip
  let ceil := s.nearCeiling synHz s.fSyn.1 s.fSyn.2 || s.nearCeiling tclkHz 1600000000 1
  let s := s.setFld CLK_FREQ_ERR.ERR 0 (toU 32 err)
  let follows := s.synLock || s.clk.ret == some .closing || s.clk.ret == some .step
  .next (if s.synLock && !good then s.synUnlock slip
  else if follows && ceil then s.outOfRange synHz
  else if s.synLock then s
  else
  let s := s.when (s.clk.relock != 0 && ceil && s.fld CLK_STATUS.REF_STATE 0 != refOUT) (·.outOfRange synHz)
  if s.clk.relock = 6 then
    let s := s.countGate (good && !ceil)
    if s.clk.goodGates < 2 then s
    else (((s.setClk (fun c => { c with goodGates := 0, relock := 7 })).setFlag CLK_STATUS.SYN_LOCK 0 true)).relockDone
  else if follows then
    let s := s.countGate good
    if s.clk.ret == some .closing && decide (2 ≤ s.clk.goodGates) then s.slewDone else s
  else s.setClk (fun c => { c with goodGates := 0 }))

/-- A jitter cleaner that locks while its die alone is on bypass: steps 7 and 8 for that die (R90). -/
def State.jcReturn (s : State) (k : Nat) : State :=
  let us := (s.now - ((s.die k).bypSince.getD s.now)) / usCycles
  (s.clockChange (fun s => s.setDie k { s.die k with onBypass := false, bypSince := none })).raise Ev.RELOCKED 0
    [(0, 4, us), (4, 1, 2 ^ k)]

/-- The block counters start at 0 when the bypass PLL locks in BOOT (R48), with a RUN_START anchor for each
die (R121).  The comparators of the dies start afresh, and their settle interval begins here: R63 lets it begin when the
threshold DAC has settled after the die is brought up, and gives no time for that (DESIGN CHOICE, log entry 103). -/
def State.startCounters (s : State) : State :=
  s.each 8 (fun s k =>
    if (s.die k).started then s
    else ((s.setDie k { s.die k with started := true, count := 0 }).anchor anRUNSTART k 0 s.time.ot 0).each 64
      (fun s i => s.cmpSince (64 * k + i)))

/-- PLL_PHASE_LOCK: a phase-window loop is declared locked (R75).  The bypass PLL is acquired once in each BOOT, at step
4 of R553: the rails have risen, and RESET_N holds nothing back (R97, R541, R576); the tile PLL is not declared locked while the tree coasts or returns (R91). -/
def execPllPhaseLock (loop : Loop) (s : State) : Res :=
  .next (match loop with
  | .jc k =>
    let s := s.setFld CLK_STATUS.JC_LOCK 0 (s.fld CLK_STATUS.JC_LOCK 0 ||| 2 ^ k.val)
    if s.clk.relock != 0 then s.relockDone
    else if (s.die k.val).bypSince.isSome then s.jcReturn k.val
    else s
  | .tile =>
    if s.clk.relock = 0 || s.clk.coastPpb.isSome then s else (s.setFlag CLK_STATUS.TILE_LOCK 0 true).relockDone
  | .byp =>
    if s.dev == .boot && !s.clk.bypDone && s.pwr.rail == 0 && !s.rcv.waitPin then
      let s := s.setClk (fun c => { c with bypDone := true })
      ((s.clockChange (fun s => s.setFlag CLK_STATUS.BYP_LOCK 0 true)).startCounters).firstRelock
    else s
  | .mem m => (s.setClk (fun c => { c with memLock := setNth c.memLock m.val true })).firstRelock
  | .core => (s.setClk (fun c => { c with coreLock := true })).firstRelock
  | .serdes => (s.setClk (fun c => { c with serdesLock := true })).firstRelock
  | .pix d => (s.setClk (fun c => { c with pixLock := setNth c.pixLock d.val true })).firstRelock
  | .aon => (s.setClk (fun c => { c with aonLock := true })).firstRelock)

/-- The bypass PLL is declared unlocked (R97). -/
def State.bypUnlock (s : State) : State :=
  if s.flag CLK_STATUS.BYP_LOCK 0 then
    (s.clockChange (fun s => s.setFlag CLK_STATUS.BYP_LOCK 0 false)).raise Ev.BYP_UNLOCK 0 []
  else s

/-- A single jitter cleaner is declared unlocked: only die k switches to bypass (R90).  Whether byte 20 of BYPASS_ENTER
also shows dies that are on bypass already R98 leaves open: it shows the die that switches (DESIGN CHOICE, log entry
91). -/
def State.jcUnlock (s : State) (k : Nat) : State :=
  if bit (s.fld CLK_STATUS.JC_LOCK 0) k then
    let s := s.setFld CLK_STATUS.JC_LOCK 0 (withBits (s.fld CLK_STATUS.JC_LOCK 0) k k 0)
    let s := (s.setFlag CLK_FLAGS.JC_UNLOCK_SEEN 0 true).raise Ev.JC_UNLOCK 0 [(0, 1, k)]
    if s.clk.relock = 0 then
      let s := s.setFlag CLK_FLAGS.BYP_SEEN 0 true
      let s := s.clockChange (fun t => t.setDie k { t.die k with onBypass := true, bypSince := some s.now, worst := 3 })
      (s.raise Ev.BYPASS_ENTER 0 [(0, 1, 2 ^ k)]).reinit Block.CLK.index k
    else s
  else s

/-- RELOCK_STEP_DONE: band selection (step 4) or phase acquisition (step 5) completes (R86). -/
def execRelockStepDone (s : State) : Res :=
  .next (if s.clk.relock = 4 then s.setClk (fun c => { c with relock := 5 })
  else if s.clk.relock = 5 then s.setClk (fun c => { c with relock := 6, goodGates := 0 })
  else s)

/-- RELOCK_FAIL: step 6 or 7 has not completed within 100 ms of step 4: Quartz stays on bypass (R89). -/
def execRelockFail (s : State) : Res :=
  .next (if s.clk.relock = 0 || s.clk.relock = relockWAIT || s.now < s.clk.step4At + 100 * msCycles then s
  else
    let s := s.dropReturn.setClk (fun c => { c with
      relock := relockWAIT, failAt := s.now, failSince := some (c.failSince.getD s.now) })
    ((s.setTree treeBYPASS).setFlag CLK_STATUS.SYN_LOCK 0 false).raise Ev.RELOCK_FAIL 0 [(0, 2, s.clk.attempts)])

/-- RELOCK_RETRY: 1 s after RELOCK_FAIL the sequence restarts at step 4 (R89). -/
def execRelockRetry (s : State) : Res :=
  .next (if s.clk.relock = relockWAIT && decide (s.clk.failAt + sCycles ≤ s.now) then s.restartRelock else s)

/-! ## Offset and delays (R79, R80, R83) -/

/-- A write of CLK_SYN_OFFSET: refused when it moves by more than 50,000 ppb from the target or exceeds
CEIL_PPM; else the target changes and the slew waits for its frame boundary (R83). -/
def State.offsetWrite (s : State) (v : Nat) : State :=
  let new := toS 32 v
  let target := toS 32 (s.reg .CLK_SYN_OFFSET 0).toNat
  if 50000 < (new - target).natAbs || s.fld CLK_CEIL.CEIL_PPM 0 * 1000 < new.natAbs then
    s.setFlag CLK_FLAGS.OFFSET_REFUSED 0 true
  else (s.setReg .CLK_SYN_OFFSET 0 (BitVec.ofNat 32 v)).setClk (fun c => { c with offsetWaits := true })

/-- OFFSET_WRITE: a write of CLK_SYN_OFFSET (R83). -/
def execOffsetWrite (path : Path) (value : BitVec 32) (s : State) : Res :=
  .next ((s.offsetWrite value.toNat).wrote path .CLK_SYN_OFFSET 0)

/-- OFFSET_SLEW_DONE: the loop words reach the target (R83). -/
def execOffsetSlewDone (s : State) : Res :=
  .next (if s.clk.slewAt.isSome && s.offsetNow == s.clk.slewTo then
    (s.setClk (fun c => { c with offset := c.slewTo, slewAt := none })).setFlag CLK_STATUS.SLEWING 0
      (s.clk.ret == some .slew)
  else s)

/-- The value written of fine delay d: dies 0 to 7, then CKO 0 to 3. -/
def State.delayTarget (s : State) (d : Nat) : Nat :=
  if d < 8 then s.fld CLK_DIE_DLY.FINE d else s.fld CLK_CKO_DLY.FINE (d - 8)

/-- 2^STEP_IVL output cycles of fine delay d have passed since its latest step (R79).  An output that does not run (EN =
0, or gated by a relock) has no cycles: its delay moves at the rate of its divided source, since R79 does not say
(DESIGN CHOICE, log entry 103). -/
def State.stepDue (s : State) (d : Nat) : Bool :=
  let ivl := if d < 8 then s.fld CLK_DIE_DLY.STEP_IVL d else s.fld CLK_CKO_CFG.STEP_IVL (d - 8)
  let f := if d < 8 then s.fOct d else s.ckoFreq (d - 8)
  decide (2 ^ ivl * sCycles * f.2 ≤ (s.now - Table.getD s.clk.stepAt d 0) * f.1)

/-- A write of a fine-delay field sets the target; the move waits for the frame boundary (R79). -/
def State.delayWrite (s : State) (d v : Nat) : State :=
  let s := if d < 8 then s.setFld CLK_DIE_DLY.FINE d v else s.setFld CLK_CKO_DLY.FINE (d - 8) v
  s.setClk (fun c => { c with delayWaits := d :: c.delayWaits.filter (· != d) })

/-- DELAY_WRITE: a write of fine delay d (R79). -/
def execDelayWrite (path : Path) (d : Fin 12) (value : BitVec 32) (s : State) : Res :=
  .next (((s.delayWrite d.val (value.toNat % 1024)).when (decide (d.val < 8))
      (·.stage .CLK_DIE_DLY d.val (BitVec.ofNat 32
        (withBits (s.stagedReg .CLK_DIE_DLY d.val).toNat 19 16 (bits value.toNat 19 16))))).wrote path
    (if d.val < 8 then .CLK_DIE_DLY else .CLK_CKO_DLY) (if d.val < 8 then d.val else d.val - 8))

/-- A frame boundary of the CLK block, the block boundary of die 0: waiting offset and delay targets begin
to move (R79, R83). -/
def State.clkFrame (s : State) : State :=
  let s := s.when s.clk.offsetWaits (fun s =>
    (s.setClk (fun c => { c with
      offset := s.offsetNow, slewAt := some s.now, slewTo := toS 32 (s.reg .CLK_SYN_OFFSET 0).toNat
      offsetWaits := false })).setFlag CLK_STATUS.SLEWING 0 true)
  let ds := s.clk.delayWaits
  let fresh := ds.filter (fun d => !s.clk.moving.contains d)
  let s := s.setClk (fun c => { c with
    moving := c.moving ++ fresh
    delayWaits := []
    delayTo := ds.foldl (fun t d => Table.set 0 t d (s.delayTarget d)) c.delayTo
    stepAt := fresh.foldl (fun t d => Table.set 0 t d s.now) c.stepAt })
  s.over ds (fun s d => s.when (decide (8 ≤ d)) (·.setFlag CLK_CKO_STAT.SLEWING (d - 8) true))

/-- DELAY_STEP: fine delay d moves one 0.5 ps step toward its target, 2^STEP_IVL output cycles after the step before; a
completed die-clock change is reported with a DELAY anchor (R79, R80, R121).  The cycles are those of the die clock and
of the divided CKO output (log entry 91). -/
def execDelayStep (d : Fin 12) (s : State) : Res :=
  .next (if !s.clk.moving.contains d.val || !s.stepDue d.val then s
  else
    let now := Table.getD s.clk.delay d.val 0
    let target := Table.getD s.clk.delayTo d.val 0
    let next := if now < target then now + 1 else if target < now then now - 1 else now
    let s := s.setClk (fun c => { c with
      delay := Table.set 0 c.delay d.val next, stepAt := Table.set 0 c.stepAt d.val s.now })
    if next != target then s
    else
      let s := s.setClk (fun c => { c with moving := c.moving.filter (· != d.val) })
      if 8 ≤ d.val then s.setFlag CLK_CKO_STAT.SLEWING (d.val - 8) false
      else
        let base := Table.getD s.clk.delayBase d.val 0
        let s := s.setClk (fun c => { c with delayBase := Table.set 0 c.delayBase d.val next })
        if !(s.die d.val).started then s
        else
          let b := (s.die d.val).count + 1
          let t : Int := s.sampleTime d.val (80 * b) + fsToOt (500 * ((next : Int) - base))
          s.anchor anDELAY d.val b t.toNat 0)

/-! ## Return of the reference (R92 to R94, R123) -/

/-- Whole reference periods of a jump: the integer nearest to (total - jump) / T_ref, the total being the time of the
returning edge on input 16 less the one that the coasting tree predicts for it, in 2^-80 s (R123). -/
def State.wholePeriods (s : State) (jumpPs : Int) (predicted : Nat) : Int :=
  let total : Int := ((s.tin 16).stampOt : Int) - predicted
  rdiv ((total * (10 ^ 12 : Nat) - jumpPs * (2 ^ 80 : Nat)) * s.fSrc) (2 ^ 80 * 10 ^ 12)

/-- PHASE_JUMP_MEASURED: the phase jump of the returning reference, in ps, and the OT96 time (2^-80 s) that the
coasting tree predicts for its edge (R92, R123). -/
def execPhaseJumpMeasured (jumpPs : Int) (predicted : Nat) (s : State) : Res :=
  .next (if s.clk.ret != some .measuring then s
  else
    let s := s.setFld CLK_JUMP.JUMP_PS 0 (toU 32 jumpPs)
    let step := s.flag CLK_POLICY.RETURN 0
    let s := s.raise Ev.COAST_EXIT 0 [(0, 4, toU 32 jumpPs), (4, 1, b2n step)]
    let timed := s.fld TDC_TIME_CFG.TIME_SRC 0 != 0 && s.flag TDC_STATUS.TIME_SRC_OK 0
    let s := if timed then
        s.setClk (fun c => { c with periods := s.wholePeriods jumpPs predicted })
      else
        ((s.each 8 (fun s k => s.setDie k { s.die k with ambig := true })).setClk
          (fun c => { c with periods := 0 })).raise Ev.AMBIG_JUMP 0 [(0, 4, toU 32 jumpPs)]
    if step then s.setClk (fun c => { c with ret := some .step, goodGates := 0 })
    else (s.setClk (fun c => { c with ret := some .slew, retStart := s.now, retAt := s.now, retMoved := 0 })).setFlag CLK_STATUS.SLEWING 0 true)

/-- The phase that the return slew has closed, in 1/160,000 ps: a TCLK cycle at RET_SLEW moves it by RET_SLEW / 160,000 ps
(R93). -/
def State.retPhase (s : State) : Nat := s.clk.retMoved + (s.now - s.clk.retAt) * s.fld CLK_POLICY.RET_SLEW 0

/-- The slew has brought the phase error within LOCK_WIN (R93). -/
def State.slewReached (s : State) : Bool :=
  decide ((toS 32 (s.fld CLK_JUMP.JUMP_PS 0)).natAbs * 160000 ≤ s.retPhase + s.fld CLK_JC_CFG.LOCK_WIN 0 * 160000)

/-- RETURN_SLEW_IN_LOCK_WIN: the phase error lies within LOCK_WIN and Quartz closes the loop (R93). -/
def execReturnSlewInLockWin (s : State) : Res :=
  .next (if s.clk.ret != some .slew || !s.slewReached then s
  else (s.setClk (fun c => { c with ret := some .closing, retStart := s.now - c.retStart, goodGates := 0 })).setFlag
    CLK_STATUS.SLEWING 0 s.clk.slewAt.isSome)

end Sys2Proof.Machine
end

