-- ==== Sys2Proof/Machine/Converter.lean ====
section
/-! DEFINITION. Input networks, slices and the tagger: blocks, over-range, the clamp, holds and the die
links (R36 to R57, R571). -/

namespace Sys2Proof.Machine

/-! ## Samples (R46, R50, R55, R56) -/

/-- The user correction of a converter code: the corrected sample, and whether the clamp limited it. -/
def correctSample (uoffs : Int) (ugain : Nat) (x : Int) : Int × Bool :=
  let y := rdiv ((16 * x + uoffs) * ugain) 524288
  (clampI (-2048) 2047 y, decide (y < -2048) || decide (2047 < y))

def Span.has (p : Span) (i : Nat) : Bool :=
  decide (p.start ≤ i) && (match p.stop with
    | some e => decide (i < e)
    | none => true)

/-- Does a span overlap the block that starts at sample a? -/
def Span.overlaps (p : Span) (a : Nat) : Bool :=
  decide (p.start < a + 80) && (match p.stop with
    | some e => decide (a < e) && decide (p.start < e)
    | none => true)

/-- The sign of sample i when it lies beyond full scale: true for negative. -/
def Chan.beyond (c : Chan) (i : Nat) : Option Bool :=
  (c.excs.filterMap (fun e => if e.1 ≤ i then e.2[i - e.1]? else none)).head?

/-- Sample i of channel c when the slice's code is `raw` and the channel's last sample was `last`: the
sample that the block carries, and whether the user correction clamped it.  During a hold the block carries the
last sample as it was corrected: R40 and R55 leave open whether new UOFFS or UGAIN act on it (DESIGN CHOICE, log
entry 90). -/
def State.sampleOut (s : State) (c i : Nat) (raw last : Int) : Int × Bool :=
  let x := s.chan c
  if (x.stale ++ x.calStale).any (·.has i) then (last, false)
  else match x.beyond i with
    | some true => (-2048, false)
    | some false => (2047, false)
    | none =>
      match x.corr with
      | some o =>
        if i < o.upTo then correctSample (toS 16 o.uoffs) o.ugain raw
        else correctSample (toS 16 (s.fld CNV_CH_UOFFS.UOFFS c)) (s.fld CNV_CH_UGAIN.UGAIN c) raw
      | none => correctSample (toS 16 (s.fld CNV_CH_UOFFS.UOFFS c)) (s.fld CNV_CH_UGAIN.UGAIN c) raw

/-- The 80 samples of a block: (sample, clamped by the correction), oldest first. -/
def State.blockSamples (s : State) (c a : Nat) (codes : List (BitVec 12)) : List (Int × Bool) :=
  ((List.range 80).foldl (fun (acc : List (Int × Bool) × Int) j =>
    let y := s.sampleOut c (a + j) (nth codes j 0).toInt acc.2
    (y :: acc.1, y.1)) ([], toS 12 (s.chan c).last)).1.reverse

/-- Pack 80 samples into 120 bytes (R46). -/
def packSamples (v : List Int) : List Byte :=
  ((List.range 40).map (fun i =>
    leBytes 3 (toU 12 (nth v (2 * i) 0) + 4096 * toU 12 (nth v (2 * i + 1) 0)))).flatten

/-- The OVR bits of a block that starts at sample a (R47, R51, R54, R56). -/
def State.ovrBits (s : State) (c a : Nat) (ys : List (Int × Bool)) : Nat :=
  let x := s.chan c
  (List.range 10).foldl (fun m g =>
    if (List.range 8).any (fun j =>
        let i := a + 8 * g + j
        (x.beyond i).isSome || x.dirty.any (·.has i) || x.prot.any (·.has i) ||
        (nth ys (8 * g + j) (0, false)).2)
    then m + 2 ^ g else m) 0

/-- The tag of channel c's block of full count b (R47). -/
def State.tagOf (s : State) (c b ovr : Nat) : Nat :=
  let x := s.chan c
  let a := 80 * b
  ovr + 2 ^ 10 * b2n (x.nbr.any (·.2.overlaps a)) + 2 ^ 11 * b2n ((x.stale ++ x.calStale).any (·.overlaps a)) +
  2 ^ 12 * b2n (s.fld CNV_CH_ROUTE.SERVING c != 0) + 2 ^ 13 * (s.die (c / 32)).worst +
  2 ^ 15 * s.fld CNV_CH_ROUTE.CALGEN c + 2 ^ 19 * b2n (x.prot.any (·.overlaps a)) + 2 ^ 24 * (b % 2 ^ 40)

/-- Spans that still matter after the block that ends before sample e. -/
def keepSpans (l : List Span) (e : Nat) : List Span :=
  l.filter (fun p => match p.stop with | some x => decide (e < x) | none => true)

/-- The boundary sample of die k at the newest epoch's boundary (R126). -/
def State.newBound (s : State) (k : Nat) : Nat :=
  match s.epoch.announced with
  | some t => if s.newEpoch then s.sampleAt k t else Table.getD s.epoch.bounds k 0
  | none => Table.getD s.epoch.bounds k 0

/-- Minimum and maximum of the samples of the epoch (R523): those before the boundary sample belong to the
epoch before. -/
def State.statSamples (s : State) (c a : Nat) (v : List Int) : State :=
  let cut := s.newBound (c / 32) - a
  let off := 0x400 + 32 * c
  let put := fun (l : List Int) (t : Table Nat Int) =>
    l.foldl (fun t x => statHigh (statLow t (off + 16) x) (off + 18) x) t
  (s.statIn false (put (v.drop cut))).statIn true (put (v.take cut))

/-- Count a tag's flags in the channel's epoch entry, credited by its sample 0 (R126, R523). -/
def State.statTag (s : State) (c b tag : Nat) : State :=
  let add : State → Nat → Int → State :=
    if 80 * b < s.newBound (c / 32) then State.statPrev else State.stat
  let off := 0x400 + 32 * c
  let s := add s off (b2n (bits tag 9 0 != 0))
  let s := add s (off + 4) (b2n (bit tag 10))
  let s := add s (off + 8) (b2n (bit tag 11))
  add s (off + 28) (b2n (bit tag 12))

/-- Close channel c's block of full count b: its 128 bytes and the state afterwards. -/
def State.closeBlock (s : State) (c b : Nat) (codes : List (BitVec 12)) : List Byte × State :=
  let a := 80 * b
  let due := (s.chan c).newTrims.any (fun n => decide (n ≤ b))
  let s := s.when due (fun s => s.setFld CNV_CH_ROUTE.CALGEN c (s.fld CNV_CH_ROUTE.CALGEN c + 1))
  let ys := s.blockSamples c a codes
  let tag := s.tagOf c b (s.ovrBits c a ys)
  let x := s.chan c
  let e := a + 80
  let x := { x with
    last := toU 12 (nth ys 79 (0, false)).1,
    stale := keepSpans x.stale e, calStale := keepSpans x.calStale e, dirty := keepSpans x.dirty e, prot := keepSpans x.prot e,
    nbr := x.nbr.filter (fun p => match p.2.stop with | some y => decide (e < y) | none => true), newTrims := x.newTrims.filter (fun n => decide (b < n)),
    excs := x.excs.filter (fun r => decide (e < r.1 + r.2.length)),
    corr := match x.corr with
      | some o => if o.upTo ≤ e then none else some o
      | none => none }
  let s := s.setChan c x
  let s := s.when (bits tag 9 0 != 0) (·.setFlag CNV_CH_FLAGS.OVR_SEEN c true)
  let s := s.when (bit tag 10) (·.setFlag CNV_CH_FLAGS.NBR_SEEN c true)
  let s := s.when (bit tag 19) (·.setFlag CNV_CH_FLAGS.PROT_SEEN c true)
  let s := s.when (ys.any (·.2)) (·.setFlag CNV_CH_FLAGS.CLIP_SEEN c true)
  let s := (s.statTag c b tag).statSamples c a (ys.map (·.1))
  (packSamples (ys.map (·.1)) ++ leBytes 8 tag, s)

/-- Does die k send blocks to the hub, or to its analysis die (R16, R251)? -/
def State.hubCopy (s : State) (k : Nat) : Bool :=
  let d := s.die k
  d.started && !d.down && decide (d.firstBlock ≤ d.count) &&
  (s.mode k != 8 || (match d.lastBlock with | some b => decide (d.count ≤ b) | none => false))
def State.anaCopy (s : State) (k : Nat) : Bool :=
  s.hubCopy k && s.mode k != 8 && s.mode k != 7 && s.mode k != 0

/-- A block period of die k ends without a block (R48, R523). -/
def State.noBlock (s : State) (k n : Nat) : State :=
  s.each 32 (fun s j => s.stat (0x400 + 32 * (32 * k + j) + 12) n)

/-- Handovers of die k take place at the boundary before block b: the slice changes, CALGEN advances with b (R44,
R49, R478). -/
def State.handovers (s : State) (k b : Nat) : State :=
  s.each 32 (fun s j =>
    let c := 32 * k + j
    match (s.chan c).serveNext with
    | none => s
    | some v =>
      let x := s.chan c
      (s.setChan c { x with serveNext := none, newTrims := x.newTrims ++ [b] }).setFld CNV_CH_ROUTE.SERVING c v)

/-! ## Holds (R40) -/

/-- A span that is open ends at sample e. -/
def Span.shut (e : Nat) (p : Span) : Span :=
  match p.stop with
  | none => ⟨p.start, some e⟩
  | some _ => p

/-- Channel c holds for 2 µs from sample i on: RANGE (`changed`) or CM_DRIVE changed (R40).  A change during such a hold
starts its 2 µs anew: R40 does not say (DESIGN CHOICE, log entry 103). -/
def State.holdChan (s : State) (c i : Nat) (changed : Bool) : State :=
  let x := s.chan c
  (s.setChan c { x with
    hold := some (changed || x.hold == some true), holdAt := i
    stale := if x.hold.isSome then x.stale else x.stale ++ [⟨i, none⟩] }).setFlag CNV_CH_ROUTE.STALE_NOW c true

/-- The 2 µs hold of channel c ends: sample i is the first after it. -/
def State.endHold (s : State) (c i : Nat) : State :=
  let x := s.chan c
  (s.setChan c { x with hold := none, stale := x.stale.map (Span.shut i) }).setFlag CNV_CH_ROUTE.STALE_NOW c x.calHold

/-- Channel c holds for a calibration from sample i on (R483, R488). -/
def State.holdCal (s : State) (c i : Nat) : State :=
  let x := s.chan c
  (s.setChan c { x with calHold := true, calStale := x.calStale ++ [⟨i, none⟩] }).setFlag CNV_CH_ROUTE.STALE_NOW c true

/-- The hold of channel c for a calibration ends: sample i is the first after it. -/
def State.endCalHold (s : State) (c i : Nat) : State :=
  let x := s.chan c
  (s.setChan c { x with calHold := false, calStale := x.calStale.map (Span.shut i) }).setFlag CNV_CH_ROUTE.STALE_NOW c
    x.hold.isSome

/-- The trims of channel c change with block b (R49). -/
def State.trimsFrom (s : State) (c b : Nat) : State :=
  let x := s.chan c
  s.setChan c { x with newTrims := x.newTrims ++ [b] }

/-- The first sample of die k that is taken `ps` picoseconds or more after sample i (R120). -/
def State.sampleAfter (s : State) (k i ps : Nat) : Nat :=
  s.sampleAt k (s.sampleTime k i + (fsToOt (1000 * (ps : Int))).toNat)

/-- RANGE_HOLD_END: the 2 µs hold of R40 ends before sample `sample`, the first one 2 µs after its start;
CALGEN advances after a RANGE change; RANGE_SETTLED is raised. -/
def execRangeHoldEnd (ch : Fin 256) (sample : Nat) (s : State) : Res :=
  let c := ch.val
  .next (match (s.chan c).hold with
  | some changed =>
    if sample != s.sampleAfter (c / 32) (s.chan c).holdAt 2000000 then s
    else
    let s := s.endHold c sample
    let s := s.when changed (·.trimsFrom c (sample / 80))
    s.raise Ev.RANGE_SETTLED c
      [(0, 1, s.fld CNV_CH_CFG.RANGE c), (1, 5, sample / 80), (6, 1, b2n (!changed))]
  | none => s)

/-! ## Over-range and the clamp (R50 to R54) -/

/-- The neighbours of channel c (R53): networks j - 1 and j + 1 of its die, and the channel on the other
lane of the sparing bus.  Only a lane that serves counts; whether a channel whose lane runs in its shadow is on
the lane in this sense R53 leaves open (DESIGN CHOICE, log entry 90). -/
def State.neighbours (s : State) (c : Nat) : List Nat :=
  let j := c % 32
  let near := (if j = 0 then [] else [c - 1]) ++ (if j = 31 then [] else [c + 1])
  let lane := s.fld CNV_CH_ROUTE.SERVING c
  let bus := if lane = 0 then [] else
    (List.range 32).filterMap (fun i =>
      let d := 32 * (c / 32) + i
      let l := s.fld CNV_CH_ROUTE.SERVING d
      if l != 0 && l != lane && !near.contains d then some d else none)
  near ++ bus

/-- Set the NBR interval that channel c's run causes in every victim: its neighbours, and those that have an
interval of the run already (R53). -/
def State.disturb (s : State) (c : Nat) (p : Span) : State :=
  let mine := fun (e : Nat × Span) => e.1 == c && e.2.start == p.start
  s.each 32 (fun s j =>
    let v := 32 * (c / 32) + j
    let x := s.chan v
    s.when ((s.neighbours c).contains v || x.nbr.any mine) (fun s =>
      s.setChan v { x with nbr := x.nbr.filter (fun e => !mine e) ++ [(c, p)] }))

/-- Channel c's recovery has ended: its open NBR intervals end at sample e (R52, R53). -/
def State.calmed (s : State) (c e : Nat) : State :=
  s.each 32 (fun s j =>
    let v := 32 * (c / 32) + j
    let x := s.chan v
    s.when (x.nbr.any (fun q => q.1 == c && q.2.stop.isNone)) (fun s =>
      s.setChan v { x with nbr := x.nbr.map (fun q =>
        if q.1 = c && q.2.stop.isNone then (c, ⟨q.2.start, some e⟩) else q) }))

/-- The larger of two peak classes. -/
def peakJoin : Peak → Peak → Peak
  | .above12, _ => .above12
  | _, .above12 => .above12
  | .upTo12, _ => .upTo12
  | _, .upTo12 => .upTo12
  | .upTo6, .upTo6 => .upTo6

/-- OVER_RANGE_EXCURSION: samples `first` on of channel ch lie beyond full scale, with the given signs;
`over6` is the offset of the first one above +6 dBFS and `peak` the class of the largest (R50 to R53).  A
run that starts where the channel's last one ended continues it.  A run that the clamp or its recovery overlaps
recovers in 12 ns (R54). -/
def execOverRangeExcursion (ch : Fin 256) (first : Nat) (signs : List Bool) (over6 : Option Nat) (peak : Peak)
    (s : State) : Res :=
  let c := ch.val
  let k := c / 32
  .next (if signs = [] then s
  else
    let x := s.chan c
    let goesOn := x.excPeak.isSome && x.excEnd == first
    let peak := match x.excPeak with
      | some p => if goesOn then peakJoin p peak else peak
      | none => peak
    let over6 := (if goesOn then x.excOver6 else none).or (over6.map (first + ·))
    let back := first + signs.length
    let clamped := (goesOn && x.excClamped) || x.prot.any (fun p => decide (p.start < back) &&
      (match p.stop with | some e => decide (first < e) | none => true))
    let ps := if peak = .upTo6 && !clamped then 3000 else 12000
    let stop := back + s.samplesWithin k ps
    let s := s.setChan c { x with
      excs := x.excs ++ [(first, signs)], excEnd := back, excPeak := some peak, excOver6 := over6, excClamped := clamped,
      dirty := x.dirty ++ [⟨first, some stop⟩] }
    match over6, peak with
    | _, .upTo6 => s
    | some o, .upTo12 => s.disturb c ⟨o, some (back + s.samplesWithin k 10000)⟩
    | some o, .above12 =>
      s.disturb c ⟨o, if x.clamp || x.recovering then none else some (stop + s.samplesWithin k 10000)⟩
    | none, _ => s)

/-- CLAMP_ENGAGE: the clamp of channel ch engages before sample `sample` (R54). -/
def execClampEngage (ch : Fin 256) (sample : Nat) (neg : Bool) (s : State) : Res :=
  let c := ch.val
  let x := s.chan c
  .next (if x.clamp then s
  else
    let fresh := !x.recovering && (match x.recovered with
      | some t => decide (t + msCycles ≤ s.now)
      | none => true)
    let s := s.setChan c { x with
      clamp := true, recovering := false, clampNeg := neg, excClamped := x.excClamped || decide (sample ≤ x.excEnd),
      prot := if x.recovering then x.prot else x.prot ++ [⟨sample, none⟩] }
    let s := (s.addFld CNV_CH_PROT_COUNT.COUNT c 1).stat (0x400 + 32 * c + 24) 1
    s.when fresh (·.raise Ev.PROT_ENGAGED c [(0, 5, sample / 80), (5, 1, b2n neg)]))

/-- CLAMP_DISENGAGE: the input falls below +12 dBFS before sample `sample`, and the 200 ns recovery begins (R54). -/
def execClampDisengage (ch : Fin 256) (sample : Nat) (s : State) : Res :=
  let x := s.chan ch.val
  .next (if x.clamp then s.setChan ch.val { x with clamp := false, recovering := true, clampOff := sample } else s)

/-- Sample e may be the first one after the 200 ns recovery of a clamp that disengaged in the sample period before
sample i (R54). -/
def State.recoveredAt (s : State) (k i e : Nat) : Bool :=
  decide (s.sampleAfter k (i - 1) 200000 ≤ e) && decide (e ≤ s.sampleAfter k i 200000)

/-- CLAMP_RECOVERY_END: the recovery ends before sample `sample`, 200 ns after the clamp disengaged; victims are
clean 10 ns later (R52, R54). -/
def execClampRecoveryEnd (ch : Fin 256) (sample : Nat) (s : State) : Res :=
  let c := ch.val
  let x := s.chan c
  .next (if !x.recovering || x.clamp || !s.recoveredAt (c / 32) x.clampOff sample then s
  else
    let s := s.setChan c { x with
      recovering := false, recovered := some s.now, prot := x.prot.map (Span.shut sample) }
    let e := max sample ((x.dirty.filterMap (·.stop)).foldl max 0) + s.samplesWithin (c / 32) 10000
    s.calmed c e)

end Sys2Proof.Machine
end

