-- ==== Sys2Proof/Machine/Calibration.lean ====
section
/-! DEFINITION. The calibration engine: runs, handovers, calibration sets and records (R472 to R493), and the
slice swap of the pantry, which uses the same handover (R500). -/

namespace Sys2Proof.Machine

def State.calDie (s : State) (k : Nat) : CalDie := Table.getD s.cal.dies k {}
def State.setCalDie (s : State) (k : Nat) (x : CalDie) : State :=
  { s with cal := { s.cal with dies := Table.set {} s.cal.dies k x } }

/-- The entry in force of a slice (R487). -/
def State.calEntry (s : State) (e : Nat) : CalEntry := Table.getD s.cal.vol e {}
def State.setCalEntry (s : State) (e : Nat) (x : CalEntry) : State :=
  { s with cal := { s.cal with vol := Table.set {} s.cal.vol e x } }

/-! ## Temperatures and slices -/

/-- Temperature site i in 0.01 °C, as the housekeeping ADC last read it (R545). -/
def State.siteTemp (s : State) (i : Nat) : Int := Table.getD s.hk.temps i 0

/-- The temperature of die k in 0.1 °C: the mean of its two sites as the housekeeping ADC last read them (R475, R545). -/
def State.dieTemp (s : State) (k : Nat) : Int :=
  tdiv (s.siteTemp (2 * k) + s.siteTemp (2 * k + 1)) 20

/-- How far die k's temperature is from a slice's T_CAL. -/
def State.tempDiff (s : State) (k sl : Nat) : Nat := (s.dieTemp k - (s.calEntry (34 * k + sl)).tcal).natAbs

/-- The channel that slice sl of die k serves (R43). -/
def State.netOf (s : State) (k sl : Nat) : Option Nat :=
  if sl < 32 then
    (if s.fld CNV_CH_ROUTE.SERVING (32 * k + sl) = 0 then some (32 * k + sl) else none)
  else ((List.range 32).map (32 * k + ·)).find? (fun c => s.fld CNV_CH_ROUTE.SERVING c == sl - 31)

/-- The channel for which slice sl of die k works: the one that it serves, or the one for which a hitless job has it or
has released it (R478). -/
def State.sliceChan (s : State) (k sl : Nat) : Option Nat :=
  (s.netOf k sl).or (match (s.calDie k).cur with
  | some c => match c.way with
    | .hitless p => if p = sl || c.job.slice = sl then c.chan else none
    | _ => none
  | none => none)

/-- The free spares of die k other than slice sl, lowest first; a free spare's lane is free too. -/
def State.freeSlice (s : State) (k sl : Nat) : Option Nat :=
  [32, 33].find? (fun p => p != sl && s.role kSLICE (34 * k + p) == roFREE)

/-- The number of free spare slices of die k. -/
def State.freeSlices (s : State) (k : Nat) : Nat :=
  ([32, 33].filter (fun p => s.role kSLICE (34 * k + p) == roFREE)).length

/-- The code of CNV_CH_ROUTE for a slice: 0 own, 1 slice 32, 2 slice 33. -/
def laneCode (sl : Nat) : Nat := if sl < 32 then 0 else sl - 31

/-- The trims of channel c have changed: CALGEN advances with the next block, or at once where the die produces no
blocks (R49, R486). -/
def State.trimsChanged (s : State) (c : Nat) : State :=
  if s.hubCopy (c / 32) then s.trimsFrom c ((s.die (c / 32)).count + 1)
  else s.setFld CNV_CH_ROUTE.CALGEN c (s.fld CNV_CH_ROUTE.CALGEN c + 1)

/-- The slice changes at the next block boundary; a die that produces no blocks changes at once (R44). -/
def State.handover (s : State) (c sl : Nat) : State :=
  if s.hubCopy (c / 32) then s.setChan c { s.chan c with serveNext := some (laneCode sl) }
  else (s.setFld CNV_CH_ROUTE.SERVING c (laneCode sl)).setFld CNV_CH_ROUTE.CALGEN c
    ((s.fld CNV_CH_ROUTE.CALGEN c + 1) % 16)

/-- An accepted commit waits for its switch point (R209). -/
def State.commitPending (s : State) : Bool :=
  match s.prog.commit with
  | some c => c.accepted
  | none => false

/-! ## Rejects and failures (R479, R481, R482, R512) -/

/-- A reject of a slice with its check bits. -/
def State.calReject (s : State) (k sl mask : Nat) : State :=
  let u := 34 * k + sl
  let n := satU 8 (s.fld CNV_SL_STATE.REJECTS u + 1)
  let s := (s.setFld CNV_SL_STATE.REJECTS u n).raise Ev.CAL_REJECT 0 [(0, 1, k), (1, 1, sl), (2, 1, mask)]
  s.when (decide (3 ≤ n) && !s.flag CNV_SL_STATE.SUSPECT u)
    (fun s => (s.setFlag CNV_SL_STATE.SUSPECT u true).raise Ev.CAL_SUSPECT 0 [(0, 1, k), (1, 1, sl)])

/-- Retire a slice: SUSPECT clears (R482). -/
def State.retireSlice (s : State) (k sl : Nat) : State :=
  (s.setRole kSLICE (34 * k + sl) roRETIRED).setFlag CNV_SL_STATE.SUSPECT (34 * k + sl) false

/-- The outcome of a comparison of a slice: two failures in a row are a failure of the slice (R512). -/
def State.cmpResult (s : State) (k sl : Nat) (pass : Bool) : Bool × State :=
  let u := 34 * k + sl
  let n := if pass then 0 else Table.getD s.cal.cmpFails u 0 + 1
  (decide (2 ≤ n), { s with cal := { s.cal with cmpFails := Table.set 0 s.cal.cmpFails u n } })

/-- A free spare that has failed: retired, or reported under MANUAL (R512, R513). -/
def State.spareFailed (s : State) (k sl : Nat) : State :=
  if s.policy kSLICE = 2 then s.wearReport kSLICE (34 * k + sl) true
  else
    let s := s.retireSlice k sl
    s.when (s.freeSlices k = 0) (·.spareEmpty kSLICE k)

/-! ## The queue (R475, R476) -/

/-- Queue a job of a slice of die k, unless a job of the same kind is queued for it.  A retired slice makes no more
runs; APPLY still replaces its entry (R488). -/
def State.calQueue (s : State) (k sl : Nat) (task : CalTask) (host : Bool) : State :=
  let d := s.calDie k
  let dup := d.queue.any (fun j => j.slice == sl && j.task == task)
  let j : CalJob := { slice := sl, task := task, host := host, since := s.now }
  if s.role kSLICE (34 * k + sl) = roRETIRED && task != .apply then s
  else if dup then
    s.setCalDie k { d with queue := d.queue.map (fun x =>
      if x.slice == sl && x.task == task then { x with host := x.host || host } else x) }
  else s.setCalDie k { d with queue := d.queue ++ [j] }

/-- CAL_TRIGGER: the drift of die k's temperature, or a slice's age, queues a run of slice sl (R475). -/
def execCalTrigger (k : Fin 8) (sl : Fin 34) (s : State) : Res :=
  let u := 34 * k.val + sl.val
  let age := s.fld CAL_CFG.AGE_H 0
  let drift := s.flag CAL_CFG.AUTO 0 && decide (s.fld CAL_CFG.DRIFT 0 ≤ s.tempDiff k.val sl.val)
  let aged := age != 0 && decide (Table.getD s.cal.lastRun u 0 + age * 3600 * sCycles ≤ s.now)
  .next (if drift || aged then s.calQueue k.val sl.val .run false else s)

/-- A calibration command was taken: RESULT (R495). -/
def State.calResult (s : State) (r : Nat) : State :=
  (s.setFld CAL_CMD_STAT.RESULT 0 r).setFlag CAL_CMD_STAT.BUSY 0 false

/-- RUN and RUN_DIE (R475, R486). -/
def State.calRunCmd (s : State) (k sl : Nat) : State := (s.calQueue k sl .run true).calResult 1
def State.calRunDieCmd (s : State) (k : Nat) : State := (s.each 34 (fun s sl => s.calQueue k sl .run true)).calResult 1

/-- CAL_RUN: the host writes RUN for a slice (R475). -/
def execCalRun (path : Path) (k : Fin 8) (sl : Fin 34) (s : State) : Res :=
  .next ((s.calRunCmd k.val sl.val).wrote path .CAL_CMD 0)

/-- CAL_RUN_DIE: the host writes RUN_DIE for a die (R475). -/
def execCalRunDie (path : Path) (k : Fin 8) (s : State) : Res :=
  .next ((s.calRunDieCmd k.val).wrote path .CAL_CMD 0)

/-- In BOOT with BOOT_CAL = 1 every slice of every die runs once (R475). -/
def State.calBoot (s : State) : State :=
  if s.flag CAL_CFG.BOOT_CAL 0 then
    s.each 8 (fun s k => s.each 34 (fun s sl => s.calQueue k sl .run false))
  else s

/-! ## Quiet windows (R484) -/

/-- A quiet window is open now. -/
def State.quietNow (s : State) : Bool :=
  match s.fld CAL_QUIET.SRC 0 with
  | 1 => s.levelNow (0x810 + s.fld CAL_QUIET.TIN 0) == s.flag CAL_QUIET.LEVEL 0
  | 2 => bit (s.fld CAL_QUIET.TYPE_MASK 0) s.epoch.type
  | _ => true

/-- The job is a slice swap. -/
def CalJob.isSwap (j : CalJob) : Bool := match j.task with | .swap _ => true | _ => false

/-- An APPLY whose entry changes the TERM in force (R488). -/
def State.termMoves (s : State) (k : Nat) (j : CalJob) : Bool :=
  j.task == .apply &&
    (Table.getD s.cal.host (34 * k + j.slice) {}).term != (s.calEntry (34 * k + j.slice)).term

/-- The channel that a job concerns: the one that its slice serves; for a changed TERM of a network, which lies on the
network whatever slice serves it, that network's (R472, R488; DEDUCED, log entry 103). -/
def State.jobNet (s : State) (k : Nat) (j : CalJob) : Option Nat :=
  if s.termMoves k j && decide (j.slice < 32) then some (32 * k + j.slice) else s.netOf k j.slice

/-- The way in which a job of die k would run now (R477, R486, R488); a swap always hands over (R500), and a changed
TERM is loaded in a hold. -/
def State.calWay (s : State) (k : Nat) (j : CalJob) : CalWay :=
  let sl := j.slice
  let serving := (s.dev != .boot && s.mode k != 8 || j.isSwap) && (s.jobNet k j).isSome
  let d := s.die k
  let f := s.fOct k
  if !serving then .inPlace
  else match (if s.termMoves k j then none else s.freeSlice k sl) with
    | some p => .hitless p
    | none =>
      let start := 80 * (d.count + 1)
      let stop := match j.task with
        | .run => start + 80 * ((150 * f.1 + f.2 * 80 * 10 ^ 6 - 1) / (f.2 * 80 * 10 ^ 6))
        | _ => start + (2 * f.1 + f.2 * 10 ^ 6 - 1) / (f.2 * 10 ^ 6)
      .hold start stop

/-- A job may start now: no hitless run between an accepted commit and its switch point (R480), and a confined
one only in a window, unless it is forced. -/
def State.calMayStart (s : State) (k : Nat) (j : CalJob) (forced : Bool) : Bool :=
  match s.calWay k j with
  | .inPlace => true
  | .hitless _ => !s.commitPending && (!s.flag CAL_QUIET.ALL 0 || forced || s.quietNow || j.task != .run)
  | .hold .. => !j.isSwap && (forced || s.quietNow || j.task != .run)

/-- The order of the queue: swaps first, then host requests, then the largest temperature difference (R476). -/
def State.calBefore (s : State) (k : Nat) (a b : CalJob) : Bool :=
  let rank := fun (j : CalJob) => match j.task with
    | .swap _ => 2
    | _ => b2n j.host
  if rank a != rank b then decide (rank b < rank a)
  else decide (s.tempDiff k b.slice < s.tempDiff k a.slice)

/-- The first job of a list in that order. -/
def State.calFirst (s : State) (k : Nat) : List CalJob → Option CalJob
  | [] => none
  | j :: rest => match State.calFirst s k rest with
    | none => some j
    | some m => if s.calBefore k m j then some m else some j

/-! ## Starting a job (R477, R478, R483, R488) -/

/-- Load the CAL_HOST entry of a slice (R488). -/
def State.applyEntry (s : State) (k sl : Nat) : State :=
  let u := 34 * k + sl
  let s := s.setCalEntry u { Table.getD s.cal.host u {} with tcal := s.dieTemp k }
  s.setFld CNV_SL_STATE.CALGEN u ((s.fld CNV_SL_STATE.CALGEN u + 1) % 16)

/-- The APPLY of a die ends when its last slice is done. -/
def State.applyDone (s : State) : State :=
  let busy := (List.range 8).any (fun k =>
    (s.calDie k).queue.any (fun j => j.task == .apply) ||
    (match (s.calDie k).cur with | some c => c.job.task == .apply | none => false))
  if busy then s else s.calResult 1

/-- Die k is idle again. -/
def State.calIdle (s : State) (k : Nat) : State :=
  let task := (s.calDie k).cur.map (·.job.task)
  let s := s.setCalDie k { s.calDie k with cur := none }
  s.when (task == some .apply) (·.applyDone)

/-- A swap of a slice that serves no channel any more: a spare that served for a run only and is free again retires if it
has failed (R512); else there is nothing to swap (R480, R500; DESIGN CHOICE, log entry 103). -/
def State.swapIdle (s : State) (k sl : Nat) (cause : SwapCause) : State :=
  let s := s.calIdle k
  if cause = .failure && s.role kSLICE (34 * k + sl) = roFREE then s.spareFailed k sl
  else s.swapAnswer kSLICE (34 * k + sl) cause pcFAILED

/-- Start a job of die k. -/
def State.calStartJob (s : State) (k : Nat) (j : CalJob) : State :=
  let d := s.calDie k
  let u := 34 * k + j.slice
  let way := s.calWay k j
  let chan := s.jobNet k j
  let cur : CalCur := { job := j, way := way, chan := chan, phase := 2, old := s.calEntry u, since := s.now }
  let s := s.setCalDie k { d with queue := d.queue.filter (· != j), cur := some cur }
  match way, chan with
  | .inPlace, _ =>
    match j.task with
    | .apply =>
      let s := s.applyEntry k j.slice
      (match chan with | some c => s.trimsChanged c | none => s).calIdle k
    | .swap cause => s.swapIdle k j.slice cause
    | .run => s
  | .hitless p, some c =>
    let s := s.setCalDie k { s.calDie k with cur := some { cur with phase := 1 } }
    (s.setRole kSLICE (34 * k + p) roSPARE).setFld CNV_CH_ROUTE.SHADOW c (laneCode p)
  | .hold start _, some c =>
    let s := (s.holdCal c start).addFld CAL_COUNTS.STALE 0 1
    let s := s.setCalDie k { s.calDie k with cur := some { cur with phase := 4 } }
    let s := if j.task = .apply then
        let s := s.applyEntry k j.slice
        s.setCalDie k { s.calDie k with cur := some { cur with phase := 4, done := true, changed := true } }
      else s
    if s.freeSlices k = 0 && !(s.calDie k).hitful && j.task = .run then
      (s.setCalDie k { s.calDie k with hitful := true }).raise Ev.CAL_HITFUL 0 [(0, 1, k)]
    else s
  | _, none => s

/-- The slice swaps that die k can no longer run, its last spare having gone to a failure meanwhile (R513). -/
def State.calNoSpare (s : State) (k : Nat) : State :=
  let d := s.calDie k
  if s.freeSlices k != 0 || !d.queue.any (·.isSwap) then s
  else d.queue.foldl (fun s j => match j.task with
    | .swap c => (s.spareEmpty kSLICE k).swapAnswer kSLICE (34 * k + j.slice) c pcNOSPARE
    | _ => s)
    (s.setCalDie k { d with queue := d.queue.filter (fun j => !j.isSwap) })

/-- Start the next job of die k that may start; a run that must wait for a window is reported once (R476, R484). -/
def State.calStart (s : State) (k : Nat) (forced : Bool) : State :=
  let d := s.calDie k
  let s := s.when (s.freeSlices k != 0 && d.hitful) (fun s => s.setCalDie k { d with hitful := false })
  let d := s.calDie k
  let force := fun (j : CalJob) => forced && s.fld CAL_QUIET.FORCE_S 0 != 0 &&
    decide (j.since + s.fld CAL_QUIET.FORCE_S 0 * sCycles ≤ s.now)
  if d.cur.isSome || s.dev == .safe || s.dev == .standby || s.dev == .off then s
  else
  let s := s.calNoSpare k
  let d := s.calDie k
  match s.calFirst k (d.queue.filter (fun j => s.calMayStart k j (force j))) with
    | some j => s.calStartJob k j
    | none =>
      match s.calFirst k (d.queue.filter (fun j => j.task == .run && !j.overdue && !s.commitPending)) with
      | none => s
      | some j =>
        let s := s.setCalDie k { d with queue := d.queue.map (fun x => if x = j then { j with overdue := true } else x) }
        s.raise Ev.CAL_OVERDUE 0 [(0, 1, k), (1, 1, j.slice), (2, 2, s.tempDiff k j.slice)]

/-- CAL_RUN_START: die k starts its next queued job (R476, R477). -/
def execCalRunStart (k : Fin 8) (s : State) : Res := .next (s.calStart k.val false)

/-- CAL_QUIET_OPEN: a quiet window opens, and a waiting run of die k may start (R484). -/
def execCalQuietOpen (k : Fin 8) (s : State) : Res := .next (s.calStart k.val false)

/-- CAL_FORCE: a run of die k that has waited FORCE_S seconds starts outside a window (R484). -/
def execCalForce (k : Fin 8) (s : State) : Res := .next (s.calStart k.val true)

/-! ## Comparisons (R478, R479, R500) -/

/-- The job's phase has lasted so many cycles. -/
def CalCur.lasted (cur : CalCur) (s : State) (cycles : Nat) : Bool := decide (cur.since + cycles ≤ s.now)

/-- A slice swap has handed over: the old slice is retired and the spare keeps the channel (R500). -/
def State.sliceSwapped (s : State) (k sl p : Nat) (cause : SwapCause) : State :=
  let s := (s.retireSlice k sl).swapUsed kSLICE (34 * k + sl) (34 * k + p) 0 cause
  s.when (s.freeSlices k = 0) (·.spareEmpty kSLICE k)

/-- The boundary of step 3 has passed and the spare p serves channel c: the slice runs, is loaded, or is retired. -/
def State.calStep4 (s : State) (k : Nat) (cur : CalCur) (c p : Nat) : State :=
  let sl := cur.job.slice
  let s := s.setFld CNV_CH_ROUTE.SHADOW c 0
  match cur.job.task with
  | .run => s.setCalDie k { s.calDie k with cur := some { cur with phase := 2, await := false, since := s.now } }
  | .apply =>
    let u := 34 * k + sl
    let undo := (Table.get? s.cal.lastRun u, s.fld CNV_SL_STATE.REJECTS u)
    let s := s.applyEntry k sl
    s.setCalDie k { s.calDie k with cur := some { cur with
      phase := 3, await := false, done := true, changed := true, undo := some undo, since := s.now } }
  | .swap cause => (s.calIdle k).sliceSwapped k sl p cause

/-- A block boundary of die k: a handover of step 3 or 7 has taken place, and the job goes on or ends (R478). -/
def State.calBoundary (s : State) (k : Nat) : State :=
  match (s.calDie k).cur with
  | none => s
  | some cur =>
    match cur.way, cur.chan with
    | .hitless p, some c =>
      if !cur.await then s
      else if cur.phase = 1 then s.calStep4 k cur c p
      else (s.setRole kSLICE (34 * k + p) roFREE).calIdle k
    | _, _ => s

/-- Slice sl is to serve channel c from the next block boundary, for which the job in progress waits; a die that
produces no blocks has none (R44, R478). -/
def State.calHand (s : State) (k : Nat) (cur : CalCur) (c sl : Nat) : State :=
  let s := (s.handover c sl).setCalDie k { s.calDie k with cur := some { cur with await := true } }
  if s.hubCopy k then s else s.calBoundary k

/-- Step 2: the spare p compared with the slice. -/
def State.calStep2 (s : State) (k : Nat) (cur : CalCur) (c p : Nat) (pass : Bool) : State :=
  let sl := cur.job.slice
  let r := s.cmpResult k p pass
  let s := r.2
  if pass then s.calHand k cur c p
  else
    let s := (s.setFld CNV_CH_ROUTE.SHADOW c 0).setRole kSLICE (34 * k + p) roFREE
    let s := (s.raise Ev.HANDOVER_FAIL 0 [(0, 1, k), (1, 1, c % 32), (2, 1, p)]).calReject k p 16
    let s := s.calIdle k
    let s := s.when r.1 (·.spareFailed k p)
    match cur.job.task with
    | .swap cause =>
      if (s.freeSlice k p).isSome then
        s.setCalDie k { s.calDie k with queue := cur.job :: (s.calDie k).queue }
      else s.swapFail kSLICE (34 * k + sl) 2 0 cause
    | _ => s

/-- The result that was loaded counts as rejected: the trims, the time of the last run and the rejects in a row before it
come back, and the trims change once more (R479, R481). -/
def State.calUndo (s : State) (k : Nat) (cur : CalCur) : State :=
  let u := 34 * k + cur.job.slice
  match cur.undo with
  | none => s
  | some (last, rejects) =>
    let s := (s.setCalEntry u cur.old).setFld CNV_SL_STATE.REJECTS u rejects
    let s := s.setFld CNV_SL_STATE.CALGEN u ((s.fld CNV_SL_STATE.CALGEN u + 1) % 16)
    { s with cal := { s.cal with lastRun := match last with
      | some t => Table.insert natLt s.cal.lastRun u t
      | none => Table.erase s.cal.lastRun u } }

/-- Step 6: the slice compared with the spare p that serves. -/
def State.calStep6 (s : State) (k : Nat) (cur : CalCur) (c p : Nat) (pass : Bool) : State :=
  let sl := cur.job.slice
  let u := 34 * k + sl
  let r := s.cmpResult k sl pass
  let s := r.2
  if pass then s.calHand k cur c sl
  else if !cur.again then
    let s := (s.calUndo k cur).calReject k sl 16
    s.setCalDie k { s.calDie k with cur := some { cur with again := true, undo := none, since := s.now } }
  else
    let s := (s.calReject k sl 16).calIdle k
    if s.policy kSLICE = 2 then s.wearReport kSLICE u true
    else s.sliceSwapped k sl p .failure

/-- CAL_COMPARE: the outputs of die k's slice and spare have been compared over 1 µs; `pass` says that the RMS
difference is at most 4 LSB (R479).  Before 1 µs in parallel there is nothing to compare. -/
def execCalCompare (k : Fin 8) (pass : Bool) (s : State) : Res :=
  let k := k.val
  .next (match (s.calDie k).cur with
  | none => s
  | some cur =>
    match cur.way, cur.chan with
    | .hitless p, some c =>
      if cur.await || !cur.lasted s usCycles then s
      else if cur.phase = 1 then s.calStep2 k cur c p pass
      else if cur.phase = 3 then s.calStep6 k cur c p pass
      else s
    | _, _ => s)

/-! ## Results (R481, R483) -/

/-- The offset, gain and skew of a trim word (CNV_SL_TRIM_A). -/
def trimOffs (w : Nat) : Int := toS 10 (bits w 9 0)
def trimGain (w : Nat) : Int := toS 10 (bits w 19 10)
def trimSkew (w : Nat) : Int := toS 8 (bits w 27 20)
def trimWord (o g k : Int) : Nat := toU 10 o + toU 10 g * 2 ^ 10 + toU 8 k * 2 ^ 20

/-- The check bits of one range's result against the trims in force (R481): 20 ps are 80 skew codes. -/
def trimCheck (w : Nat) (o g k : Int) : Nat :=
  b2n (decide (320 < (o - trimOffs w).natAbs)) + 2 * b2n (decide (250 < (g - trimGain w).natAbs)) +
  4 * b2n (decide (80 < (k - trimSkew w).natAbs)) +
  8 * b2n (satS 10 o != o || satS 10 g != g || satS 8 k != k)

/-- Check bits of a result over the three ranges. -/
def resultCheck (e : CalEntry) (offs gain skew : List Int) : Nat :=
  [e.r0, e.r1, e.r2].zip [0, 1, 2] |>.foldl (fun m x =>
    m ||| trimCheck x.1 (nth offs x.2 0) (nth gain x.2 0) (nth skew x.2 0)) 0

/-- The entry with a result's trims. -/
def resultEntry (offs gain skew : List Int) (term : Nat) (temp : Int) : CalEntry :=
  let w := fun i => trimWord (nth offs i 0) (nth gain i 0) (nth skew i 0)
  ⟨w 0, w 1, w 2, term, temp⟩

/-- CAL_RUN_DONE: the run of die k ends with a result for the three ranges, and a termination code that counts in
BOOT and SERV (R473, R474, R481).  A run lasts 150 µs. -/
def execCalRunDone (k : Fin 8) (offs gain skew : List Int) (term : Int) (s : State) : Res :=
  let k := k.val
  .next (match (s.calDie k).cur with
  | none => s
  | some cur =>
    let sl := cur.job.slice
    let u := 34 * k + sl
    let e := s.calEntry u
    if cur.job.task != .run || cur.done || !(cur.phase == 2 || cur.phase == 4) || !cur.lasted s (150 * usCycles) then s
    else
      let full := s.dev == .boot || s.mode k == 8
      let mask := resultCheck e offs gain skew ||| 8 * b2n (full && !(decide (0 ≤ term) && decide (term < 64)))
      let hold := match cur.way with | .hold .. => true | _ => false
      let s := s.when (!hold) (fun s => (s.addFld CAL_COUNTS.HITLESS 0 1).stat 0x80 1)
      let s := s.when hold (·.stat 0x84 1)
      let new := resultEntry offs gain skew (if full then term.toNat else e.term) (s.dieTemp k)
      let undo := (Table.get? s.cal.lastRun u, s.fld CNV_SL_STATE.REJECTS u)
      let s := if mask = 0 then
          let s := ((s.setCalEntry u new).setFld CNV_SL_STATE.REJECTS u 0).setFld CNV_SL_STATE.CALGEN u
            ((s.fld CNV_SL_STATE.CALGEN u + 1) % 16)
          let s : State := { s with cal := { s.cal with lastRun := Table.insert natLt s.cal.lastRun u s.now } }
          match cur.way, cur.chan with
          | .inPlace, some c => s.when (decide (s.netOf k sl = some c)) (·.trimsChanged c)
          | _, _ => s
        else s.calReject k sl mask
      let changed := mask = 0 && { new with tcal := e.tcal } != e
      match cur.way with
      | .inPlace => s.calIdle k
      | .hitless _ => s.setCalDie k { s.calDie k with cur := some { cur with phase := 3, done := true, changed := changed, undo := if mask = 0 then some undo else none, since := s.now } }
      | .hold .. => s.setCalDie k { s.calDie k with cur := some { cur with done := true, changed := changed } })

/-- CAL_HOLD_END: the hold of die k ends after its H blocks, or its 2 µs; CALGEN advances when the trims changed
(R483, R488). -/
def execCalHoldEnd (k : Fin 8) (s : State) : Res :=
  let k := k.val
  .next (match (s.calDie k).cur with
  | none => s
  | some cur =>
    match cur.way, cur.chan with
    | .hold _ stop, some c =>
      if !cur.done || (s.hubCopy k && decide (80 * ((s.die k).count + 1) < stop)) then s
      else
        let s := s.endCalHold c stop
        let s := s.when cur.changed (·.trimsFrom c (stop / 80))
        s.calIdle k
    | _, _ => s)

/-- A RANGE change of channel c at the switch point, with switch-point sample i, abandons a run of its slice that has no
result yet: the slice returns with its old trims, and a slice that has left its network does so at the next block
boundary (R44, R480). -/
def State.calAbandon (s : State) (c i : Nat) : State :=
  let k := c / 32
  match (s.calDie k).cur with
  | none => s
  | some cur =>
    match cur.way, cur.chan with
    | .hitless p, some c' =>
      if c' != c || cur.done || cur.job.task != .run then s
      else if cur.phase = 1 then
        let s := (s.setChan c { s.chan c with serveNext := none }).setFld CNV_CH_ROUTE.SHADOW c 0
        (s.setRole kSLICE (34 * k + p) roFREE).calIdle k
      else if cur.await then s
      else s.calHand k { cur with phase := 3, done := true } c cur.job.slice
    | .hold .., some c' =>
      if c' != c || cur.done || cur.job.task != .run then s else (s.endCalHold c i).calIdle k
    | _, _ => s

/-! ## Commands on the sets (R482, R487 to R492) -/

/-- The slices that APPLY and COPY name. -/
def calSlices (sl : Nat) (whole : Bool) : List Nat := if whole then List.range 34 else [sl]

/-- APPLY (R488). -/
def State.calApply (s : State) (k sl : Nat) (whole : Bool) : State :=
  let s := (s.setFld CAL_CMD_STAT.RESULT 0 0).setFlag CAL_CMD_STAT.BUSY 0 true
  (s.over (calSlices sl whole) (fun s x => s.calQueue k x .apply true)).applyDone

/-- CAL_APPLY: the entries of CAL_HOST of a slice, or of a die, are to be installed. -/
def execCalApply (path : Path) (k : Fin 8) (sl : Fin 34) (whole : Bool) (s : State) : Res :=
  .next ((s.calApply k.val sl.val whole).wrote path .CAL_CMD 0)

/-- The 16 bytes of an entry (R487). -/
def CalEntry.bytes (e : CalEntry) : List Byte :=
  leBytes 4 e.r0 ++ leBytes 4 e.r1 ++ leBytes 4 e.r2 ++ leBytes 1 e.term ++ zeros 1 ++ leBytes 2 (toU 16 e.tcal)

/-- The entry that 16 bytes spell. -/
def calEntryOf (b : List Byte) : CalEntry :=
  ⟨le b 0 4 % 2 ^ 28, le b 4 4 % 2 ^ 28, le b 8 4 % 2 ^ 28, le b 12 1 % 64, toS 16 (le b 14 2)⟩

/-- The 4,352 bytes of a set. -/
def calSetBytes (t : Table Nat CalEntry) : List Byte := ((List.range 272).map (fun e => (Table.getD t e {}).bytes)).flatten

/-- CAL_REC_ADDR. -/
def State.calRecAddr (s : State) : Nat :=
  s.fld CAL_REC_ADDR_LO.ADDR 0 * 64 + s.fld CAL_REC_ADDR_HI.ADDR 0 * 2 ^ 32

/-- The calibration record of a set (R489). -/
def State.calRecord (s : State) (attic : Bool) : List Byte :=
  let t := if attic then s.cal.attic else s.cal.vol
  let body := [0x43, 0x5A, 0x43, 0x4C] ++ leBytes 2 1 ++ leBytes 2 272 ++
    leBytes 8 (s.reg64 .FAB_UID_LO .FAB_UID_HI 0) ++ otBytes s.time.ot ++ leBytes 1 (b2n attic) ++ zeros 3 ++
    leBytes 4 (s.fld CAL_INFO.COMMIT_COUNT 0) ++ zeros 28 ++ calSetBytes t
  let digest := sha256 body
  body ++ digest ++ ((Config.sign "identity" digest) ++ zeros 64).take 64 ++
    keyId Config.identityPub ++ zeros 24

/-- EXPORT (R489): the record is written to system memory. -/
def State.calExport (s : State) (attic : Bool) : State :=
  let a := s.calRecAddr
  if inSystem a 4544 then (s.devPut s.srcOther a (s.calRecord attic)).calResult 1 else s.calResult 2

/-- CAL_EXPORT. -/
def execCalExport (path : Path) (attic : Bool) (s : State) : Res := .next ((s.calExport attic).wrote path .CAL_CMD 0)

/-- A record is this device's and is whole (R490). -/
def State.recordOk (s : State) (b : List Byte) : Bool :=
  b.take 4 == [0x43, 0x5A, 0x43, 0x4C] && le b 4 2 == 1 && le b 6 2 == 272 &&
  le b 8 8 == s.reg64 .FAB_UID_LO .FAB_UID_HI 0 && slice b 4416 32 == sha256 (b.take 4416) &&
  ecdsaVerify Config.identityPub (slice b 4416 32) (slice b 4448 32) (slice b 4480 32)

/-- IMPORT (R490): the entries of an accepted record go to CAL_HOST. -/
def State.calImport (s : State) : State :=
  let a := s.calRecAddr
  let b := s.bytes a 4544
  let bad := s.poisonedRange a 4544
  let s := s.when (inSystem a 4544) (fun s => s.readBy s.srcOther a 4544)
  if inSystem a 4544 && !bad && s.recordOk b then
    let t := (List.range 272).foldl (fun t e => Table.set {} t e (calEntryOf (slice b (64 + 16 * e) 16))) s.cal.host
    ({ s with cal := { s.cal with host := t } } : State).calResult 1
  else s.calResult 2

/-- CAL_IMPORT. -/
def execCalImport (path : Path) (s : State) : Res := .next (s.calImport.wrote path .CAL_CMD 0)

/-- A write of CAL_COMMIT_ARM: the key arms COMMIT (R491). -/
def State.calArm (s : State) (key : BitVec 32) : State :=
  if key = 0x43414C21 then { s with cal := { s.cal with armed := some s.now } } else s

/-- CAL_COMMIT_ARM. -/
def execCalCommitArm (path : Path) (key : BitVec 32) (s : State) : Res :=
  .next ((s.calArm key).wrote path .CAL_COMMIT_ARM 0)

/-- COMMIT (R491): accepted within 1 s of arming and with no run or APPLY in progress. -/
def State.calCommit (s : State) : State :=
  let armed := match s.cal.armed with
    | some t => decide (s.now ≤ t + sCycles)
    | none => false
  let busy := s.cal.committing.isSome || (List.range 8).any (fun k => (s.calDie k).cur.isSome ||
    (s.calDie k).queue.any (fun j => j.task == .apply))
  if !armed then s.calResult 3
  else if busy then s.calResult 4
  else
    let s : State := { s with cal := { s.cal with armed := none, committing := some s.cal.vol } }
    (s.setFld CAL_CMD_STAT.RESULT 0 0).setFlag CAL_CMD_STAT.BUSY 0 true

/-- CAL_COMMIT. -/
def execCalCommit (path : Path) (s : State) : Res := .next (s.calCommit.wrote path .CAL_CMD 0)

/-- CAL_COMMITTED: the housekeeping has written the new set and read it back; `ok` says that it read back whole. -/
def execCalCommitted (ok : Bool) (s : State) : Res :=
  .next (match s.cal.committing with
  | none => s
  | some t =>
    let s : State := { s with cal := { s.cal with committing := none } }
    if !ok then s.calResult 5
    else
      let s : State := { s with cal := { s.cal with attic := t } }
      let n := (s.fld CAL_INFO.COMMIT_COUNT 0 + 1) % 2 ^ 16
      let s := (s.setFld CAL_INFO.COMMIT_COUNT 0 n).setFlag CAL_INFO.FACTORY 0 false
      let dig := sha256 (calSetBytes t)
      let s := s.each 8 (fun s i => s.setReg .CAL_ATTIC_DIGEST i (BitVec.ofNat 32 (le dig (4 * i) 4)))
      (s.raise Ev.CAL_COMMITTED 0 [(0, 4, n)]).calResult 1)

/-- CLEAR_SUSPECT (R482). -/
def State.calClearSuspect (s : State) (k sl : Nat) : State :=
  (s.setFlag CNV_SL_STATE.SUSPECT (34 * k + sl) false).calResult 1

/-- CAL_CLEAR_SUSPECT. -/
def execCalClearSuspect (path : Path) (k : Fin 8) (sl : Fin 34) (s : State) : Res :=
  .next ((s.calClearSuspect k.val sl.val).wrote path .CAL_CMD 0)

/-- COPY (R487): CAL_HOST takes the entries in force. -/
def State.calCopy (s : State) (k sl : Nat) (whole : Bool) : State :=
  (s.over (calSlices sl whole) (fun s x =>
    let t := Table.set {} s.cal.host (34 * k + x) (s.calEntry (34 * k + x))
    { s with cal := { s.cal with host := t } })).calResult 1

/-- CAL_COPY. -/
def execCalCopy (path : Path) (k : Fin 8) (sl : Fin 34) (whole : Bool) (s : State) : Res :=
  .next ((s.calCopy k.val sl.val whole).wrote path .CAL_CMD 0)

end Sys2Proof.Machine
end

