-- ==== Sys2Proof/Machine/Block.lean ====
section
/-! DEFINITION. The block boundary of a converter die, the die links, and the re-initialisation of a die (R16, R26, R44,
R47, R48, R478, R571, R572). -/

namespace Sys2Proof.Machine

/-- A block boundary of die k before the block in progress: handovers take place, and a calibration that waited for it
goes on (R44, R478). -/
def State.nextBlock (s : State) (k : Nat) : State := (s.handovers k (s.die k).count).calBoundary k

/-- The blocks of die k close together and leave on both die links (R16, R47, R48). -/
def State.closeBlocks (s : State) (k : Nat) (codes : List (List (BitVec 12))) : State :=
  let d := s.die k
  let b := d.count
  let hub := s.hubCopy k
  let ana := s.anaCopy k
  let s := if hub then
      (List.range 32).foldl (fun (s : State) j =>
        let (bs, s) := s.closeBlock (32 * k + j) b (nth codes j [])
        let blk : SBlock := ⟨32 * k + j, b, bs⟩
        let d := s.die k
        s.setDie k { d with
          hubLink := d.hubLink ++ [blk], unsettled := d.unsettled ++ [(32 * k + j, b)],
          anaLink := if ana then d.anaLink ++ [blk] else d.anaLink }) s
    else s.noBlock k 1
  let s := (s.setDie k { s.die k with count := b + 1, worst := s.clkq k }).nextBlock k
  if k = 0 then (s.setClk (fun c => { c with frameCount := b + 1 })).clkFrame else s

/-- BLOCK_CLOSE: die k closes its 32 blocks; `codes` are the converter codes, 80 for each network (R47). -/
def execBlockClose (k : Fin 8) (codes : List (List (BitVec 12))) (s : State) : Res :=
  .next (if (s.die k.val).started && !(s.die k.val).down then s.closeBlocks k.val codes else s)

/-! ## Die links (R571, R572) -/

/-- The block periods of the blocks in flight on a die's links. -/
def inFlight (l : List SBlock) : Nat := (l.map (·.count)).eraseDups.length

/-- A converter die is re-initialised: its links and crossing queues are reset, the blocks in flight on them
are discarded and counted for DIE_RESUMED (R26), and it produces no blocks; its comparators are held at 0
(R63, R572).  A handover that waits takes place at once (R44). -/
def State.dieDown (s : State) (k : Nat) : State :=
  let d := s.die k
  if d.down then s
  else
    let lost := d.hubLink
    let s := s.reinit Block.CNV.index (0x200 + k)
    let s := s.setDie k { d with down := true, downSince := s.now, hubLink := [], anaLink := [],
                                 hubFails := 0, anaFails := 0, missed := inFlight (lost ++ d.anaLink) }
    let s := (s.over lost (·.settle ·)).nextBlock k
    (s.noBlock k 0).each 64 (fun s i =>
      let c := 32 * k + i / 2
      let f := if i % 2 = 0 then CNV_CH_CMP_STAT.ABOVE else CNV_CH_CMP_STAT.BELOW
      let was := s.flag f c
      let s := (s.setFlag f c false).setCmp (2 * c + i % 2) {}
      let s := s.setFlag (if i % 2 = 0 then CNV_CH_CMP_STAT.UNSETTLED_HI else CNV_CH_CMP_STAT.UNSETTLED_LO) c true
      let s := s.setFlag (if i % 2 = 0 then CNV_CH_CMP_STAT.INBAND_HI else CNV_CH_CMP_STAT.INBAND_LO) c false
      s.when was (·.level (if i % 2 = 0 then 0x900 + c else 0xA00 + c) false))

/-- DIE_LINK_CRC: a block on a link of die k fails its check; it is retried from the link buffer, and after
three failures the die is re-initialised (R571). -/
def execDieLinkCrc (k : Fin 8) (hub : Bool) (s : State) : Res :=
  let d := s.die k.val
  let n := (if hub then d.hubFails else d.anaFails) + 1
  .next (if d.down then s
  else if 3 < n then s.dieDown k.val
  else s.setDie k.val (if hub then { d with hubFails := n } else { d with anaFails := n }))

/-- The full count that die k's block counter has now, by the time anchors (R48). -/
def State.countNow (s : State) (k : Nat) : Nat := (s.sampleAt k s.time.ot + 79) / 80

/-- DIE_RESUMED: re-initialisation of die k completes: the tagger resumes at its uninterrupted count, with
a RESUME anchor, and DIE_RESUMED is raised; its count takes in the blocks discarded in flight (R26, R48, R121, R572;
DEDUCED, log entry 93).  The comparators start afresh (R63). -/
def execDieResumed (k : Fin 8) (s : State) : Res :=
  let d := s.die k.val
  .next (if !d.down then s
  else
    let b := max d.count (s.countNow k.val)
    let missed := b - d.count
    let s := s.setDie k.val { d with down := false, count := b, missed := 0, worst := s.clkq k.val }
    let s := (s.noBlock k.val missed).anchorPred anRESUME k.val b
    (s.each 64 (fun s i => s.cmpSince (64 * k.val + i))).raise Ev.DIE_RESUMED (0x200 + k.val)
      [(0, 5, b), (5, 5, missed + d.missed)])

end Sys2Proof.Machine
end

