-- ==== Sys2Proof/Machine/Turn.lean ====
section
/-! DEFINITION. The turn tracker of SYNC octants (R257 to R261). -/

namespace Sys2Proof.Machine

/-- The octants that run SYNC, lowest first. -/
def State.syncOctants (s : State) : List Nat := (List.range 8).filter (fun k => s.mode k == 4)

/-- SPT_k: samples per turn on die k (R257). -/
def State.spt (s : State) (k : Nat) : Nat :=
  s.fld EPO_TURN_CFG.SLOTS 0 * (s.fld CLK_SYN_INT.N_INT 0 / 2 ^ s.fld SYS_OCT_STAT.RATE_DIV k)

/-- Signed picoseconds in units of 2^-80 s. -/
def psToOt (ps : Int) : Int := tdiv (ps * (2 ^ 80 : Nat)) (10 ^ 12 : Nat)

/-- Take the turn origin t0: turn samples of turn 0 on every SYNC die, state LOCKED (R258). -/
def State.turnAlign (s : State) (t0 : Nat) : State :=
  let base := s.syncOctants.foldl (fun t k => Table.set 0 t k (s.sampleAt k t0)) []
  let b0 := match s.syncOctants with | k :: _ => s.sampleAt k t0 | [] => 0
  let s : State := { s with turn := { base := base, confirmed := b0, countFrom := b0 } }
  (s.setReg64 .EPO_TURN_BASE_LO .EPO_TURN_BASE_HI 0 b0).setFld EPO_TURN_STAT.STATE 0 1

/-- The base turn sample shown to the host. -/
def State.turnBase (s : State) : Nat := s.reg64 .EPO_TURN_BASE_LO .EPO_TURN_BASE_HI 0

/-- The predicted turn sample, at `base` and every `spt` samples, whose time on die k lies nearest t0, the earlier of two
as near (R259). -/
def State.nearTurn (s : State) (k base spt t0 : Nat) : Nat :=
  let m := if spt = 0 then 0 else ((s.sampleAt k t0 : Int) - base) / spt
  let far := fun (u : Nat) => ((t0 : Int) - s.sampleTime k u).natAbs
  let at_ := fun (j : Int) => ((base : Int) + j * spt).toNat
  [at_ m, at_ (m + 1)].foldl (fun u v => if far v < far u then v else u) (at_ (m - 1))

/-- An accepted edge of the turn marker at time t (R258, R259). -/
def State.turnEdge (s : State) (t : Nat) : State :=
  match s.syncOctants with
  | [] => s
  | k :: _ =>
    if !s.flag EPO_TURN_CFG.EN 0 || s.tree != treeLOCKED then s
    else
      let t0 := ((t : Int) + psToOt (toS 32 (s.reg .EPO_TURN_DLY 0).toNat)).toNat
      if s.fld EPO_TURN_STAT.STATE 0 = 0 then
        let s := s.turnAlign t0
        s.raise Ev.TURN_LOCKED 0 [(0, 8, s.turnBase)]
      else
        let base := Table.getD s.turn.base k 0
        let spt := s.spt k
        let u := s.nearTurn k base spt t0
        let e : Int := (t0 : Int) - s.sampleTime k u
        let ps := tdiv (e * (10 ^ 12 : Nat)) (2 ^ 80 : Nat)
        if e.natAbs * 10 ^ 12 ≤ s.fld EPO_TURN_CFG.TOL 0 * 100 * 2 ^ 80 then
          let s : State := { s with turn := { s.turn with outlier := false, confirmed := u, countFrom := u, lost := false } }
          (s.setFld EPO_TURN_ERR.ERR 0 (toU 32 ps)).setFld EPO_TURN_STAT.STATE 0 1
        else
          let s := s.addFld EPO_TURN_STAT.OUTLIERS 0 1
          if s.turn.outlier then
            let s := (s.addFld EPO_TURN_STAT.SLIPS 0 1).turnAlign t0
            s.raise Ev.TURN_SLIP 0 [(0, 4, toU 32 ps), (4, 8, s.turnBase)]
          else { s with turn := { s.turn with outlier := true } }

/-- Sixteen predicted turns have passed since the last confirming edge (R259). -/
def State.turnsMissed (s : State) : Bool :=
  match s.syncOctants with
  | k :: _ => s.fld EPO_TURN_STAT.STATE 0 != 0 && !s.turn.lost &&
      decide (s.sampleTime k (s.turn.countFrom + 16 * s.spt k) ≤ s.time.ot)
  | [] => false

/-- TURN_LOST: sixteen predicted turns pass without a confirming edge (R259). -/
def execTurnLost (s : State) : Res :=
  .next (if s.turnsMissed then
    (({ s with turn := { s.turn with lost := true } } : State).setFld EPO_TURN_STAT.STATE 0 2).raise Ev.TURN_LOST 0
      [(0, 8, s.turn.confirmed)]
  else s)

/-- Does sample index range (a, b] of die k hold a turn sample?  The last one in it, if any (R260). -/
def State.turnSampleIn (s : State) (k a b : Nat) : Option Nat :=
  let spt := s.spt k
  if s.fld EPO_TURN_STAT.STATE 0 = 0 || spt = 0 then none
  else match Table.get? s.turn.base k with
    | none => none
    | some u0 =>
      if b < u0 then none
      else
        let u := u0 + (b - u0) / spt * spt
        if a < u then some u else none

end Sys2Proof.Machine
end

