-- ==== Sys2Proof/Machine/Timing.lean ====
section
/-! DEFINITION. Jasper time stamps and measurement functions, its result ring, and OT96 (R100 to R123,
R610). -/

namespace Sys2Proof.Machine

/-! ## Instants -/

/-- OT96 (2^-80 s) of an instant in vernier steps of 1/160 TCLK cycle. -/
def State.otOf (s : State) (inst : Nat) : Nat :=
  ((s.time.ot : Int) + tdiv (((inst : Int) - (160 * s.now : Nat)) * s.time.rate) 160).toNat

/-- Vernier steps as femtoseconds: one step is 3,906.25 fs (R103). -/
def stepsToFs (n : Int) : Int := tdiv (n * 15625) 4

/-! ## The result ring (R114) -/

def State.jasperEntries (s : State) : Nat := 2 ^ s.fld TDC_RING_BASE_HI.SIZE_LOG2 0
def State.jasperBase (s : State) : Nat :=
  s.fld TDC_RING_BASE_LO.BASE_LO 0 * 64 + s.fld TDC_RING_BASE_HI.BASE_HI 0 * 2 ^ 32

/-- Count a dropped entry; the next one written carries OVF_BEFORE (R34, R114). -/
def State.jasperDrop (s : State) : State :=
  let s := (s.addFld TDC_RING_DROPPED.DROPPED 0 1).stat 0xDA 1
  { s with jasper := { s.jasper with ovf := true } }

/-- Write a result entry of input i: type, FLAGS and bytes 8 to 31 (R114).  Over what time the limit of 50 M entries/s is
counted is not stated: whether an entry less than 20 ns after the one before exceeds it is free (log entry 23). -/
def State.jasperPut (s : State) (type i flags : Nat) (body : List Byte) : State :=
  let t := s.tin i
  let n := t.results + 1
  let s := s.setTin i { t with results := n }
  if !s.flag TDC_IN_FUNC.RING_EN i || !s.flag TDC_RING_BASE_HI.ENABLE 0 then s
  else if (s.fld TDC_RING_PTR.TAIL 0 + s.jasper.inFlight.length + 1) % s.jasperEntries ==
      s.fld TDC_RING_PTR.HEAD 0 then s.jasperDrop
  else
    let (d, s) := if s.jasper.latest.any (fun a => decide (s.now < a + 32)) then s.draw "entries above 50 M/s" [(i : Nat)] else (0, s)
    if d % 2 = 1 then s.jasperDrop else
    let flags := flags + 64 * b2n s.jasper.ovf
    let e := (leBytes 1 type ++ leBytes 1 i ++ leBytes 2 flags ++ leBytes 4 n ++ body ++ zeros 24).take 32
    { s with jasper := { s.jasper with inFlight := s.jasper.inFlight ++ [e], ovf := false, latest := some s.now } }

/-- FLAGS that every result carries: UNCAL while the vernier loop is out of lock (R104). -/
def State.uncal (s : State) : Nat := 4 * b2n (!s.flag TDC_STATUS.LOOP_LOCK 0)

/-- An entry with OVF_BEFORE set in its FLAGS (R34, R114). -/
def ovfBefore (e : List Byte) : List Byte := modNth e 2 (· ||| 0x40) 0

/-- The oldest entry's write is acknowledged: TAIL advances and source 33 pends; with error status, which a ring outside
the memories always gets (R27, R28), the entry is dropped, and the next one written carries OVF_BEFORE (R33, R34,
R114). -/
def State.jasperAck (s : State) (error : Bool) : State :=
  match s.jasper.inFlight with
  | [] => s
  | e :: rest =>
    let tail := s.fld TDC_RING_PTR.TAIL 0
    let s : State := { s with jasper := { s.jasper with inFlight := rest } }
    match (if error then none else s.physPut s.srcOther (s.jasperBase + 32 * tail) e) with
    | none =>
      match rest with
      | [] => s.jasperDrop
      | w :: r =>
        let s := (s.addFld TDC_RING_DROPPED.DROPPED 0 1).stat 0xDA 1
        { s with jasper := { s.jasper with inFlight := ovfBefore w :: r } }
    | some s =>
      let s := s.setFld TDC_RING_PTR.TAIL 0 ((tail + 1) % s.jasperEntries)
      s.pend TDC_RING_BASE_HI.IRQ_PEND TDC_RING_BASE_HI.IRQ_EN 0 33

/-- TDC_RING_WRITE_ACK. -/
def execTdcRingWriteAck (error : Bool) (s : State) : Res := .next (s.jasperAck error)

/-! ## Intervals (R108 to R111, R113) -/

def State.func (s : State) (i : Nat) : Nat := s.fld TDC_IN_FUNC.FUNC i
def State.param (s : State) (i : Nat) : Nat := (s.reg .TDC_IN_PARAM i).toNat

/-- Count an ORDER or UNPAIRED error; the epoch page counts the two together (R522). -/
def State.orderError (s : State) (i : Nat) : State := (s.addFld TDC_IN_ERR.ORDER i 1).stat (0x206 + 8 * i) 1
def State.unpaired (s : State) (i : Nat) : State := (s.addFld TDC_IN_ERR.UNPAIRED i 1).stat (0x206 + 8 * i) 1

/-- An interval result of input i: an entry (INTERVAL) or a value of the statistics (STATS).  `start` is
none for an ORDER error, whose start time the manual does not give. -/
def State.interval (s : State) (i : Nat) (start : Option Stamp) (steps : Int) (rising : Bool) : State :=
  let unres := start.isSome && steps == 0
  let fs := stepsToFs steps
  if s.func i = 3 then
    let a := (s.tin i).stats
    if s.param i ≤ a.n then s
    else
      let a := { a with n := a.n + 1, sum := a.sum + fs, sumSq := a.sumSq + fs.natAbs * fs.natAbs,
                        min := if a.n = 0 then fs else min a.min fs, max := if a.n = 0 then fs else max a.max fs }
      s.setTin i { s.tin i with stats := a }
  else
    let flags := b2n rising + 2 * b2n unres + s.uncal + 8 * b2n start.isNone
    match start with
    | some x => s.jasperPut 2 i flags (leBytes 8 (toU 64 fs) ++ otBytes x.ot)
    | none =>
      let (v, s) := s.draw "start time of an ORDER entry" [(i : Nat)]
      s.jasperPut 2 i flags (leBytes 8 0 ++ leBytes 12 (v % 2 ^ 96))

/-- PAIR_WIN of input i in vernier steps.  The parameter of STATS is N, and the manual gives its intervals no window:
a free value (log entry 87). -/
def State.pairWin (s : State) (i : Nat) : Nat :=
  160 * (if s.func i = 3 then Config.free "PAIR_WIN of STATS" [(i : Nat)] 0 else s.param i)

/-- A stop of input i that no start has met is an ORDER error (R109). -/
def State.orderStop (s : State) (i : Nat) : State :=
  match (s.tin i).pendStop with
  | none => s
  | some x => ((s.setTin i { s.tin i with pendStop := none }).orderError i).interval i none 0 x.rising

/-- A start on input i (R109, R110).  It meets a stop of the same cycle that Jasper took before it (R111). -/
def State.startEdge (s : State) (i : Nat) (x : Stamp) : State :=
  let t := s.tin i
  if s.flag TDC_IN_FUNC.SIGNED i then s.setTin i { t with starts := t.starts ++ [x] }
  else match t.pendStop with
    | some p =>
      if x.inst ≤ p.inst then
        (s.setTin i { t with pendStop := none }).interval i (some x) ((p.inst : Int) - x.inst) p.rising
      else (s.orderStop i).setTin i { (s.orderStop i).tin i with armed := some x }
    | none =>
      let s := s.when t.armed.isSome (·.unpaired i)
      s.setTin i { s.tin i with armed := some x }

/-- A stop for input i (R109, R110).  An armed start older than PAIR_WIN has expired; a stop without a start waits for the
end of its cycle, so that a start of its own instant can meet it (R111). -/
def State.stopEdge (s : State) (i : Nat) (x : Stamp) : State :=
  let t := s.tin i
  if s.flag TDC_IN_FUNC.SIGNED i then s.setTin i { t with stops := t.stops ++ [x] }
  else match t.armed with
    | some a =>
      let s := s.setTin i { t with armed := none }
      if a.inst + s.pairWin i < x.inst then
        let s := (s.unpaired i).orderStop i
        s.setTin i { s.tin i with pendStop := some x }
      else s.interval i (some a) ((x.inst : Int) - a.inst) x.rising
    | none =>
      let s := s.orderStop i
      s.setTin i { s.tin i with pendStop := some x }

/-- An edge stamped on input e as start and stop of every input that measures intervals (R101, R108 to R110). -/
def State.intervalEdges (s : State) (e : Nat) (x : Stamp) : State :=
  s.each 16 (fun s i =>
    if s.func i = 1 || s.func i = 3 then
      let p := s.fld TDC_IN_FUNC.PARTNER i
      if p = i then
        if e = i then
          let s := match (s.tin i).armed with
            | some a => s.interval i (some a) ((x.inst : Int) - a.inst) x.rising
            | none => s
          s.setTin i { s.tin i with armed := some x }
        else s
      else if e = i then s.startEdge i x
      else if e = p && s.fld TDC_IN_CFG.MODE p = 0 then s.stopEdge i x
      else s
    else s)

/-- The nearest start within the window of a stop; of two equally near the earlier (R110). -/
def nearestStart (starts : List Stamp) (x : Stamp) (win : Nat) : Option Stamp :=
  (starts.filter (fun a => decide (((x.inst : Int) - a.inst).natAbs ≤ win))).foldl (fun m a =>
    match m with
    | none => some a
    | some b =>
      let da := ((x.inst : Int) - a.inst).natAbs
      let db := ((x.inst : Int) - b.inst).natAbs
      if da < db || (da == db && decide (a.inst < b.inst)) then some a else some b) none

/-- A stop lies within the window of a start. -/
def inWindow (win : Nat) (a x : Stamp) : Bool := decide (((x.inst : Int) - a.inst).natAbs ≤ win)

/-- The oldest signed-mode stop of input i, PAIR_WIN old, takes its start (R110). -/
def State.pairStop (s : State) (i win : Nat) : State :=
  let t := s.tin i
  match t.stops with
  | [] => s
  | x :: rest =>
    if 160 * s.now < x.inst + win then s
    else match nearestStart t.starts x win with
      | some a =>
        (s.setTin i { t with stops := rest, starts := t.starts.filter (· != a) }).interval i (some a)
          ((x.inst : Int) - a.inst) x.rising
      | none => (s.setTin i { t with stops := rest }).unpaired i

/-- Signed-mode starts that are older than PAIR_WIN and in the window of no stop that waits find none (R110). -/
def State.dropStarts (s : State) (i win : Nat) : State :=
  let t := s.tin i
  let old := fun (a : Stamp) => decide (a.inst + win < 160 * s.now) && !t.stops.any (inWindow win a)
  (s.over (t.starts.filter old) (fun s _ => s.unpaired i)).setTin i
    { t with starts := t.starts.filter (fun a => !old a) }

/-- PAIR_WIN_EXPIRE: an armed start of input i, or its oldest signed-mode stop, ages past PAIR_WIN (R109,
R110, R113). -/
def execPairWinExpire (i : Fin 16) (s : State) : Res :=
  let i := i.val
  let t := s.tin i
  let win := s.pairWin i
  .next (if s.func i != 1 && s.func i != 3 then s
  else if s.flag TDC_IN_FUNC.SIGNED i then (s.pairStop i win).dropStarts i win
  else match t.armed with
    | some a =>
      if s.fld TDC_IN_FUNC.PARTNER i = i || 160 * s.now ≤ a.inst + win then s
      else (s.setTin i { t with armed := none }).unpaired i
    | none => s)

/-- The instant at which the gate of input i ends: PARAM µs after it began (R112). -/
def State.gateEnd (s : State) (i : Nat) : Nat := (s.tin i).gateAt + s.param i * 160 * usCycles

/-- FREQ_GATE_END: the gate of PARAM µs of input i has ended: the regression over its stamps, and the next gate follows
(R112).  What a gate with fewer than 3 stamps delivers R112 does not say: no entry (DESIGN CHOICE, log entry 92). -/
def execFreqGateEnd (i : Fin 16) (s : State) : Res :=
  let i := i.val
  let t := s.tin i
  let stop := s.gateEnd i
  let g := t.gate.filter (fun e => decide (e.2 < stop))
  let n : Int := g.length
  let k0 : Int := match g with | e :: _ => e.1 | [] => 0
  let t0 : Int := match g with | e :: _ => e.2 | [] => 0
  let ks := g.map (fun e => (e.1 : Int) - k0)
  let ts := g.map (fun e => (e.2 : Int) - t0)
  let sx := isum ks
  let sy := isum ts
  let sxx := n * isum (ks.map (fun x => x * x)) - sx * sx
  let syy := n * isum (ts.map (fun x => x * x)) - sy * sy
  let sxy := n * isum ((ks.zip ts).map (fun e => e.1 * e.2)) - sx * sy
  .next (if s.func i != 2 || 160 * s.now < stop then s
  else
    let drop := t.gateDrops.any (fun x => decide (x < stop))
    let s := s.setTin i { t with
      gate := t.gate.filter (fun e => decide (stop ≤ e.2))
      gateDrops := t.gateDrops.filter (fun x => decide (stop ≤ x)), gateAt := stop }
    if g.length < 3 || sxy ≤ 0 then s
    else
      let f := (2 ^ 32 * 256000000000 * sxx.toNat) / sxy.toNat
      let res := isqrt (((syy * sxx - sxy * sxy).toNat * 15625 * 15625) /
        (16 * n.toNat * sxx.toNat * (n.toNat - 2)))
      let sat := decide (2 ^ 64 ≤ f) || decide (2 ^ 32 ≤ res)
      s.jasperPut 3 i (s.uncal + 16 * b2n sat + 32 * b2n drop)
        (leBytes 8 (satU 64 f) ++ leBytes 4 g.length ++ leBytes 4 (satU 32 res)))

/-- STATS_COMPLETE: N = PARAM intervals of input i are gathered and their statistics delivered (R113). -/
def execStatsComplete (i : Fin 16) (s : State) : Res :=
  let i := i.val
  let a := (s.tin i).stats
  .next (if s.func i != 3 || a.n < 2 || a.n < s.param i then s
  else
    let s := s.setTin i { s.tin i with stats := {} }
    let mean := tdiv a.sum a.n
    let var := (((a.n * a.sumSq : Nat) : Int) - a.sum * a.sum).toNat / (a.n * (a.n - 1))
    let sd := isqrt var
    let sat := satS 48 mean != mean || satS 48 a.min != a.min || satS 48 a.max != a.max || decide (2 ^ 32 ≤ sd)
    s.jasperPut 4 i (s.uncal + 16 * b2n sat)
      (leBytes 6 (toU 48 (satS 48 mean)) ++ leBytes 6 (toU 48 (satS 48 a.min)) ++
       leBytes 6 (toU 48 (satS 48 a.max)) ++ leBytes 4 (satU 32 sd)))

/-! ## OT96 (R115 to R118, R610) -/

/-- The first block of die k whose sample 0 lies at or after time t. -/
def State.blockAt (s : State) (k t : Nat) : Nat := (s.sampleAt k t + 79) / 80

/-- The new label of an instant whose old label is t, after a step. -/
def otShift (step : Int) (t : Nat) : Nat := ((t : Int) + step).toNat

/-- OT96 steps by `step` (2^-80 s) at time `t`: DISCONTINUITY anchors on every die and TIME_STEP; a host
set makes the time valid (R117, R118, R610).  A slew in progress ends.  A boundary that the timer has announced is dropped, since the next one
is the first instant after the new time; one that an edge has fixed keeps its instant (R124). -/
def State.otStep (s : State) (step : Int) (t : Nat) (host : Bool) : State :=
  let s := s.when host (·.setFlag TDC_STATUS.TIME_VALID 0 true)
  let fs := otToFs step
  let s := s.each 8 (fun s k =>
    if (s.die k).started then
      let b := s.blockAt k t
      s.anchor anDISCONTINUITY k b ((s.sampleTime k (80 * b) : Int) + step).toNat fs
    else s)
  let s : State := { s with
    time := { s.time with ot := ((s.time.ot : Int) + step).toNat, slewLeft := 0, step := none },
    epoch := { s.epoch with
      stepped := true
      lastOt := otShift step s.epoch.lastOt
      ignored := 0
      announced := if s.fld EPO_CFG.SRC 0 = 0 then none else s.epoch.announced.map (otShift step)
      candidates := s.epoch.candidates.map (otShift step) } }
  s.raise Ev.TIME_STEP 0 [(0, 8, toU 64 fs), (8, 1, b2n host)]

/-- The seconds that the host set. -/
def State.otSet (s : State) : Nat :=
  ((s.reg .TDC_OT_SET 0).toNat + (s.reg .TDC_OT_SET 1).toNat % 2 ^ 16 * 2 ^ 32) * 2 ^ 80

/-- The armed host set takes place at an instant whose old label is t (R118). -/
def State.applySet (s : State) (t : Nat) : State :=
  (s.setFlag TDC_TIME_CFG.SET_ARM 0 false).otStep ((s.otSet : Int) - t) t true

/-- Part of a slew that one cycle makes: at most OT_SLEW ppm of the rate word (R117). -/
def State.slewPart (s : State) : Int :=
  let m : Int := (s.time.rate * s.fld TDC_TIME_CFG.OT_SLEW 0 / 1000000 : Nat)
  clampI (-m) m s.time.slewLeft

/-- A slew ends where it is: OT96 runs on its last rate word (R116, R117). -/
def State.holdRate (s : State) : State :=
  { s with time := { s.time with rate := ((s.time.rate : Int) + s.slewPart).toNat, slewLeft := 0 } }

/-- Nothing disciplines OT96: it runs on its last rate word (R116). -/
def State.undisciplined (s : State) : State :=
  ({ s.holdRate with time := { s.holdRate.time with step := none } } : State).setFlag TDC_STATUS.TIME_SRC_OK 0 false

/-- The disciplining source shows an error e, in 2^-80 s: slewed out, or stepped at the next epoch boundary
(R117).  An error of at most STEP_THR takes the place of a step that waits for the boundary, and a larger one ends a slew
in progress: R117 does not say (DESIGN CHOICE, log entry 103). -/
def State.discipline (s : State) (e : Int) : State :=
  let s := s.setFlag TDC_STATUS.TIME_SRC_OK 0 true
  if e.natAbs * 1000000 ≤ s.fld TDC_TIME_CFG.STEP_THR 0 * 2 ^ 80 then
    { s with time := { s.time with slewLeft := -e, step := none } }
  else { s with time := { s.time with slewLeft := 0, step := some (-e) } }

/-- TIME_SRC_ERROR: the selected source reports an error, in femtoseconds (R117). -/
def execTimeSrcError (errorFs : Int) (s : State) : Res :=
  .next (if s.fld TDC_TIME_CFG.TIME_SRC 0 = 0 then s else s.discipline (fsToOt errorFs))

/-- The source is lost and OT96 runs on its last rate word (R117).  A step that waits for the epoch boundary is kept: R117
does not say (DESIGN CHOICE, log entry 92). -/
def State.timeSrcLost (s : State) : State :=
  if !s.flag TDC_STATUS.TIME_SRC_OK 0 then s
  else
    let s := s.holdRate.setFlag TDC_STATUS.TIME_SRC_OK 0 false
    s.raise Ev.TIME_SRC_LOST 0 [(0, 1, s.fld TDC_TIME_CFG.TIME_SRC 0)]

/-- TIME_SRC_LOST (R117). -/
def execTimeSrcLost (s : State) : Res := .next s.timeSrcLost

/-- An accepted PPS edge at time t: an armed host set is applied, otherwise the edge marks a whole second
(R116, R118). -/
def State.ppsEdge (s : State) (t : Nat) : State :=
  if s.flag TDC_TIME_CFG.SET_ARM 0 then s.applySet t
  else s.discipline ((t : Int) - ((t + 2 ^ 79) / 2 ^ 80 * 2 ^ 80 : Nat))

/-- BOUNDARY_MARKER_STAMP: the marker of die k's block was stamped at `ot` (2^-80 s, path delay taken off);
a RATE anchor is written when it differs from the interpolation by more than 10 ps (R121). -/
def execBoundaryMarkerStamp (k : Fin 8) (block ot : Nat) (s : State) : Res :=
  let pred := s.sampleTime k.val (80 * block)
  let d := ((ot : Int) - pred).natAbs
  .next (if !(s.die k.val).started || d * 10 ^ 11 ≤ 2 ^ 80 then s
  else match (s.die k.val).anchors with
    | a :: _ =>
      let p := if a.block < block && a.time < ot then
          (rdiv ((ot - a.time : Nat) : Int) (80 * (block - a.block) * 2 ^ 16)).toNat
        else s.period k.val
      s.anchorP anRATE k.val block ot p 0
    | [] => s.anchor anRATE k.val block ot 0)

/-! ## Edges (R100 to R107) -/

/-- A candidate boundary time of the epoch counter: SRC = TURN after PERIOD markers, SRC = TIN at every
edge (R124). -/
def State.epochEdge (s : State) (i t : Nat) : State :=
  let src := s.fld EPO_CFG.SRC 0
  if i != s.fld EPO_CFG.EPO_TIN 0 || src = 0 then s
  else
    let m := s.epoch.markers + 1
    if src = 2 || decide ((s.reg .EPO_PERIOD 0).toNat ≤ m) then
      { s with epoch := { s.epoch with markers := 0, candidates := s.epoch.candidates ++ [t + nsToOt 500] } }
    else { s with epoch := { s.epoch with markers := m } }

/-- The converters of an input exchange roles (R105); a further run of CAL_NOW then has the other one as its spare. -/
def Tin.exchange (t : Tin) (now : Nat) : Tin :=
  if t.swap then { t with swap := false, conv := !t.conv, calFrom := now } else t

/-- Jasper stamps an edge of input i: its dead time starts, and in it converters that wait exchange roles (R105, R107). -/
def State.stampEdge (s : State) (i inst : Nat) : State :=
  s.setTin i { (s.tin i).exchange s.now with lastKept := some inst, stampOt := s.otOf inst }

/-- The functions of input i take an edge that Jasper stamped, the n-th of the input (R108 to R114). -/
def State.measureEdge (s : State) (i n : Nat) (x : Stamp) : State :=
  let s := s.stampEdge i x.inst
  let s := s.when (s.func i = 0 && s.flag TDC_IN_FUNC.RING_EN i)
    (·.jasperPut 1 i (b2n x.rising + s.uncal) (otBytes x.ot ++ leBytes 4 n))
  let s := s.intervalEdges i x
  s.when (s.func i = 2 && n % 2 ^ s.fld TDC_IN_FUNC.PRESCALE_LOG2 i = 0)
    (fun s => s.setTin i { s.tin i with gate := (s.tin i).gate ++ [(n, x.inst)] })

/-- An accepted edge that Jasper keeps on input i < 16, at an instant: combiner, functions, turn tracker,
PPS and epoch source (R101, R107 to R114).  Only in mode F is it stamped; in the other modes its time is that of its
cycle. -/
def State.keepEdge (s : State) (i : Nat) (x : Stamp) : State :=
  let t := s.tin i
  let n := t.edges + 1
  let s := (s.setTin i { t with edges := n }).stat (0x200 + 8 * i) 1
  let fast := decide (s.fld TDC_IN_CFG.MODE i = 0)
  let time := if fast then x.ot else s.cycleStart s.now
  let s := s.combEvent (0x800 + i) time (fun _ => true)
  let s := s.when fast (·.measureEdge i n x)
  let s := s.when (s.flag EPO_TURN_CFG.EN 0 && s.fld EPO_TURN_CFG.TURN_TIN 0 == i) (·.turnEdge time)
  let s := s.when (s.fld TDC_TIME_CFG.TIME_SRC 0 == 1 && s.fld TDC_TIME_CFG.SRC_IDX 0 == i) (·.ppsEdge time)
  s.epochEdge i time

/-- An edge of input i at an instant lies in the dead time of the last one stamped (R107). -/
def State.deadAt (s : State) (i inst : Nat) : Bool :=
  match (s.tin i).lastKept with
  | some l => decide (inst < l + 512)
  | none => false

/-- An edge of REFIN (input 16), whose rising edges are divided by 2^(4 × REF_PRESCALE), or a block marker (R102). -/
def State.innerEdge (s : State) (i : Nat) (rising : Bool) (inst : Nat) : State :=
  let counts := i != 16 || rising
  let n := (s.tin i).edges + b2n counts
  let dead := s.deadAt i inst
  let s := s.setTin i { s.tin i with raw := rising, edges := n }
  s.when (counts && !dead && (i != 16 || n % 16 ^ s.fld TDC_TIME_CFG.REF_PRESCALE 0 = 0)) (·.stampEdge i inst)

/-- TIN_EDGE: the comparator of input i crosses its threshold at an instant (vernier steps).  Inputs 16 to
24 are REFIN and the block markers (R102, R107).  An edge that the dead time drops is no marker of the epoch source: R124
does not say whether it counts (DESIGN CHOICE, log entry 92). -/
def execTinEdge (i : Fin 25) (rising : Bool) (inst : Nat) (s : State) : Res :=
  let i := i.val
  let t := s.tin i
  .next (if 16 ≤ i then s.innerEdge i rising inst
  else
    let s := s.setTin i { t with raw := rising }
    if t.settling then s
    else
      let s := (s.setFlag TDC_IN_STAT.UNSETTLED i false).setFlag TDC_IN_STAT.INBAND i false
      let s := if s.flag TDC_IN_STAT.LEVEL i == rising then s
        else (s.setFlag TDC_IN_STAT.LEVEL i rising).level (0x810 + i) rising
      let slope := s.fld TDC_IN_CFG.SLOPE i
      if !(slope = 2 || (slope = 0 && rising) || (slope = 1 && !rising)) then s
      else if s.fld TDC_IN_CFG.MODE i = 0 && s.deadAt i inst then
        let s := (s.addFld TDC_IN_DEAD.DEAD i 1).stat (0x204 + 8 * i) 1
        s.setTin i { s.tin i with gateDrops := if s.func i = 2 then (s.tin i).gateDrops ++ [inst] else [] }
      else s.keepEdge i ⟨inst, rising, s.otOf inst⟩)

/-- Input i takes the level `v` without a crossing (R63, R64, R102). -/
def State.tinTake (s : State) (i : Nat) (v : Bool) : State :=
  if s.flag TDC_IN_STAT.LEVEL i == v then s
  else (s.setFlag TDC_IN_STAT.LEVEL i v).level (0x810 + i) v

/-- The start-up rule of R63 begins for every timing input (R102). -/
def State.tinStart (s : State) : State := s.each 16 (fun s i => s.setTin i { s.tin i with since := s.now })

/-- The settling of input i after a threshold or mode change ends: it follows its raw output as it then stands; one that
lies beyond the held level has left its band (R63, R64, R102). -/
def State.tinFollow (s : State) (i : Nat) (raw : Bool) : State :=
  let t := s.tin i
  let left := raw != s.flag TDC_IN_STAT.LEVEL i
  let s := s.setTin i { t with settling := false, raw := raw }
  (s.when left (fun s =>
    (s.setFlag TDC_IN_STAT.UNSETTLED i false).setFlag TDC_IN_STAT.INBAND i false)).tinTake i raw

/-- TIN_SETTLE_END: the settle interval of SETTLE µs of input i ends: it takes its raw state, or, still in its band,
stays 0 and raises TIN_INBAND; or the settling after a change ends (R64, R102). -/
def execTinSettleEnd (i : Fin 16) (inBand raw : Bool) (s : State) : Res :=
  let i := i.val
  let t := s.tin i
  .next (if t.settling then
    if s.now < t.settleAt + settleTime (s.fld TDC_IN_CFG.MODE i) then s else s.tinFollow i raw
  else if !s.flag TDC_IN_STAT.UNSETTLED i || s.now < t.since + s.fld TDC_IN_CFG.SETTLE i * usCycles then s
  else
    let s := (s.setTin i { t with raw := raw }).setFlag TDC_IN_STAT.UNSETTLED i false
    if inBand then (s.setFlag TDC_IN_STAT.INBAND i true).raise Ev.TIN_INBAND i []
    else s.tinTake i raw)

/-! ## The vernier (R104, R105) -/

/-- LOOP_UNLOCK: the vernier control loop goes out of lock (R104). -/
def execLoopUnlock (s : State) : Res :=
  .next (if s.flag TDC_STATUS.LOOP_LOCK 0 then
    (s.setFlag TDC_STATUS.LOOP_LOCK 0 false).raise Ev.LOOP_UNLOCK 0 []
  else s)

/-- VERNIER_LOOP_LOCK: the loop regains lock (R104). -/
def execVernierLoopLock (s : State) : Res := .next (s.setFlag TDC_STATUS.LOOP_LOCK 0 true)

/-- TDC_CAL_INTERVAL: INTERVAL seconds have passed and the spare converter of every input is calibrated (R105). -/
def execTdcCalInterval (s : State) : Res :=
  .next (if s.now < s.time.calAt + s.fld TDC_CAL.INTERVAL 0 * sCycles then s
  else
    let s : State := { s with time := { s.time with calAt := s.now } }
    s.each 16 (fun s i =>
      let t := s.tin i
      if t.calRuns = [] && !t.swap then s.setTin i { t with calRuns := [b2n (!t.conv)], calFrom := s.now } else s))

/-- CAL_NOW starts: both converters of every input, one after the other (R105). -/
def State.calNow (s : State) : State :=
  let s := s.setFlag TDC_CAL.CAL_NOW 0 true
  s.each 16 (fun s i =>
    let t := s.tin i
    s.setTin i { t with calRuns := [b2n (!t.conv), b2n t.conv], swap := false, calFrom := s.now })

/-- CAL_NOW: the host writes CAL_NOW (R105). -/
def execCalNow (path : Path) (s : State) : Res := .next (s.calNow.wrote path .TDC_CAL 0)

/-- Input i is idle: it stamps nothing, or has stamped nothing for 1 ms.  R105 does not say when an input is idle; with
1 ms CAL_NOW clears within its 25 ms (DESIGN CHOICE, log entry 103). -/
def State.tinIdle (s : State) (i : Nat) : Bool :=
  s.fld TDC_IN_CFG.MODE i != 0 || match (s.tin i).lastKept with
  | some l => decide (l + 160 * msCycles ≤ 160 * s.now)
  | none => true

/-- The calibration of a converter: 2^20 edges at 100 M edges/s, 10.49 ms (R105). -/
def calCycles : Nat := 2 ^ 20 * 16

/-- TDC_CAL_DONE: the calibration of a converter of input i ends with its worst deviation in steps: 10.49 ms after it began; up to
2 the table is taken and the converters exchange roles, at once if the input is idle, otherwise in the dead time of its
next edge; above, CAL_FAIL (R105).  After a rejected table they exchange roles only where CAL_NOW still has to calibrate
the converter that serves; R105 does not say (DESIGN CHOICE, log entry 92). -/
def execTdcCalDone (i : Fin 16) (conv : Bool) (deviation : Nat) (s : State) : Res :=
  let i := i.val
  let t := s.tin i
  .next (if t.calRuns.head? != some (b2n conv) || t.swap || s.now < t.calFrom + calCycles then s
  else
    let left := t.calRuns.drop 1
    let good := decide (deviation ≤ 2)
    let t := { t with
      calRuns := left, swap := good || left != []
      table0 := t.table0 || (good && !conv), table1 := t.table1 || (good && conv) }
    let s := s.setTin i (if s.tinIdle i then t.exchange s.now else t)
    let s := s.when (!good) (·.raise Ev.CAL_FAIL 0 [(0, 1, i), (1, 1, deviation)])
    let s := s.when ((List.range 16).all (fun j => (s.tin j).table0 && (s.tin j).table1))
      (·.setFlag TDC_STATUS.CAL_DONE 0 true)
    s.when ((List.range 16).all (fun j => (s.tin j).calRuns == [])) (·.setFlag TDC_CAL.CAL_NOW 0 false))

/-! ## Announcing an epoch boundary (R124, R125) -/

/-- The first timer instant after time t (R124). -/
def State.timerInstant (s : State) (t : Nat) : Nat :=
  let p := (s.reg .EPO_PERIOD 0).toNat
  if p = 0 then t else ((t * 1000000 / (p * 2 ^ 80) + 1) * p * 2 ^ 80 + 999999) / 1000000

/-- The candidate that is judged next: the next timer instant, or the oldest that an edge has fixed (R124). -/
def State.nextCandidate (s : State) : Option Nat :=
  if s.fld EPO_CFG.SRC 0 = 0 then
    if s.epoch.announced.isSome then none else some (s.timerInstant (max s.time.ot s.epoch.ignored))
  else s.epoch.candidates.head?

/-- The candidate that was judged is done with. -/
def State.dropCandidate (s : State) (t : Nat) : State :=
  { s with epoch := { s.epoch with
    candidates := s.epoch.candidates.drop 1, ignored := if s.fld EPO_CFG.SRC 0 = 0 then t else s.epoch.ignored } }

/-- Time t lies less than 1 µs after the boundary at `last` (R125). -/
def tooShort (last t : Nat) : Bool := decide (t < last + nsToOt 1000)

/-- EPOCH_ANNOUNCE: the next timer instant, or the oldest candidate that an edge has fixed, is announced to the
dies; less than 1 µs after the previous boundary it is ignored and counted.  While another boundary is announced, a
candidate after it waits (R124, R125). -/
def execEpochAnnounce (s : State) : Res :=
  .next (match s.nextCandidate with
  | none => s
  | some t =>
    match s.epoch.announced with
    | some a => if tooShort a t then (s.dropCandidate t).addFld EPO_COUNTS.SHORT 0 1 else s
    | none =>
      if s.epoch.lastOt != 0 && tooShort s.epoch.lastOt t then (s.dropCandidate t).addFld EPO_COUNTS.SHORT 0 1
      else
        let s := s.dropCandidate t
        { s with epoch := { s.epoch with announced := some t } })

/-- A boundary has been announced whose time has come, or one has been forced already. -/
def State.boundaryDue (s : State) : Bool :=
  s.epoch.forced && s.epoch.announced.isSome || (match s.epoch.announced with
  | some t => decide (t ≤ s.time.ot)
  | none => false)

/-- EPOCH_TIMEOUT: 1,000 s after the previous boundary one is forced.  A boundary announced for later lies less than 1 µs
after it: it is ignored and counted (R124, R125). -/
def execEpochTimeout (s : State) : Res :=
  .next (if s.now < s.epoch.lastCycle + 1000 * sCycles || s.boundaryDue then s
  else
    let s := s.when s.epoch.announced.isSome (·.addFld EPO_COUNTS.SHORT 0 1)
    let s : State := { s with epoch := { s.epoch with announced := some s.time.ot, forced := true } }
    s.raise Ev.EPOCH_TIMEOUT 0 [(0, 8, s.epoch.num + 1)])

end Sys2Proof.Machine
end

