-- ==== Sys2Proof/Machine/Fabric.lean ====
section
/-! DEFINITION. The Vyder fabric: links, hellos, link state, addresses, routes, device time, triggers, items,
retrievals and credit (R442 to R470). -/

namespace Sys2Proof.Machine

/-! ## The time parent (R465) -/

/-- The port to the time parent: the lowest-address neighbour on a least-cost path to the grandmaster (R465). -/
def State.timeParent (s : State) : Option Nat :=
  match s.fab.gm with
  | none => none
  | some g =>
    let d := dists s.fab.inst g.uid
    ((parent0 s.fab.inst d g.uid (BitVec.ofNat 64 s.uid)).map (·.lport.val)).filter (fun p => s.portState p == 3)

/-- With TIME_SRC = FABRIC, TIME_SRC_OK is 1 while the grandmaster is known and the parent's link is up; where it falls, the
source is lost (R117, R465). -/
def State.fabTimeOk (s : State) : State :=
  if s.fld TDC_TIME_CFG.TIME_SRC 0 != 3 || s.flag FAB_STATUS.IS_GM 0 then s
  else if s.timeParent.isSome then s.setFlag TDC_STATUS.TIME_SRC_OK 0 true
  else s.timeSrcLost

/-! ## Links (R442 to R445) -/

/-- The link of port p drops: a neighbour that was up is down (R449); `cause` 0 signal lost, 1 hellos missed. -/
def State.nbrDown (s : State) (p cause : Nat) : State :=
  if s.portState p = 3 then
    let s := s.setFld FAB_PORT_STAT.STATE p 2
    (s.raise Ev.NBR_DOWN p [(0, 8, (s.port p).uid), (8, 1, cause)]).newLsa.fabTimeOk
  else s

/-- Drop the link of port p. -/
def State.linkDrop (s : State) (p : Nat) : State :=
  let s := s.nbrDown p 0
  let s := (s.setFld FAB_PORT_STAT.STATE p 0).setFld FAB_PORT_STAT.LANES p 0
  s.setPort p { s.port p with step := 0, lastHello := none, fails := 0, replay := [], again := none, offsets := [], delays := [] }

/-- The link of port p retrains (R444, R442): `cause` 0 retries, 1 lane lost, 2 MODE change. -/
def State.linkRetrain (s : State) (p cause : Nat) : State :=
  ((s.linkDrop p).addFld FAB_PORT_ERR.RETRAINS p 1).raise Ev.LINK_RETRAIN p [(0, 1, cause)]

/-- Bring-up of port p begins at step 2 on the lanes of a mask. -/
def State.linkBegin (s : State) (p lanes : Nat) : State :=
  let s := (s.setFld FAB_PORT_STAT.STATE p 1).timerSet (tmPort p)
  s.setPort p { s.port p with step := 2, lanes := lanes }

/-- Lanes of port p that are detected (a mask of five) and not retired. -/
def State.goodLanes (s : State) (p lanes : Nat) : List Nat :=
  (List.range 5).filter (fun l => bit lanes l && s.role kLANE (5 * p + l) != roRETIRED)

/-- LINK_SIGNAL_DETECT: signal is detected on the lanes of port p given by the mask, and step 1 ends (R445).  Four
lanes start the bring-up.  A Vyder port whose missing lane can be replaced takes its spare (R508, R512, R513);
without one it retrains on two lanes, and in Ethernet mode it stays down (R442, R508). -/
def execLinkSignalDetect (p : Fin 6) (lanes : BitVec 5) (s : State) : Res :=
  let p := p.val
  let spare := s.fld FAB_PORT_STAT.SPARE_LANE p
  let mode := s.fld FAB_PORT_CFG.MODE p
  let good := s.goodLanes p lanes.toNat
  let inUse := good.filter (· != spare)
  let missing := (List.range 5).filter (fun l => l != spare && !good.contains l)
  let mask := fun (l : List Nat) => l.foldl (fun m i => m + 2 ^ i) 0
  .next (if s.portState p != 0 || mode = 0 || s.dev == .off || s.dev == .standby then s
  else if inUse.length = 4 then s.linkBegin p (mask inUse)
  else if mode != 1 || inUse.length < 2 then s
  else
    let m := missing.headD 0
    let free := good.contains spare && s.role kLANE (5 * p + spare) == roFREE
    if inUse.length = 3 && free && s.policy kLANE != 2 then
      let s := (s.setRole kLANE (5 * p + spare) roSPARE).setRole kLANE (5 * p + m) roRETIRED
      let s := s.setFld FAB_PORT_STAT.SPARE_LANE p m
      (s.swapUsed kLANE (5 * p + m) (5 * p + spare) 0 .failure).linkBegin p (mask (spare :: inUse))
    else
      let s := if free then s.wearReport kLANE (5 * p + m) true else s.spareEmpty kLANE 0xFF
      let s := (s.addFld FAB_PORT_ERR.RETRAINS p 1).raise Ev.LINK_RETRAIN p [(0, 1, 1)]
      s.linkBegin p (mask (inUse.take 2)))

/-- This module as a grandmaster candidate: REF is 1 while PPS or PTP disciplines a valid time (R464). -/
def State.ownGm (s : State) : FabGm :=
  let src := s.fld TDC_TIME_CFG.TIME_SRC 0
  ⟨BitVec.ofNat 64 s.uid, BitVec.ofNat 8 (s.fld FAB_TIME_CFG.PRIO 0),
   (src == 1 || src == 2) && s.flag TDC_STATUS.TIME_SRC_OK 0 && s.flag TDC_STATUS.TIME_VALID 0⟩

/-- The address, ADDR_STATE, port, incarnation, LSA_SEQ, HELD flag and best grandmaster of a HELLO (R449). -/
def State.helloBytes (s : State) (p : Nat) : List Byte :=
  let gm := s.fab.gm.getD s.ownGm
  leBytes 8 s.uid ++ leBytes 2 (s.fabAddr + s.addrState * 2 ^ 14) ++ leBytes 1 p ++ leBytes 4 s.fab.inc ++
  leBytes 4 s.fab.lsaSeq ++ leBytes 1 (b2n (s.dev == .held)) ++ leBytes 8 gm.uid.toNat ++ leBytes 1 gm.prio.toNat ++
  leBytes 1 (b2n gm.ref)

/-- Send a HELLO on port p. -/
def State.sendHello (s : State) (p : Nat) : State := s.fabOut p msgHELLO false (s.ownHdr 0 0) (s.helloBytes p)

/-- LINK_BRINGUP_STEP_DONE: the timed step of port p's bring-up completes (R445).  Step 4 learns the neighbour's
UID, port and MODE, step 5 the device part of asym in ps (R463); the last step sends the first hello.  In Ethernet
mode the link is up after step 3. -/
def execLinkBringupStepDone (p : Fin 6) (uid : BitVec 64) (rport : Fin 6) (mode : Fin 4) (asymPs : Int)
    (s : State) : Res :=
  let p := p.val
  let x := s.port p
  let own := s.fld FAB_PORT_CFG.MODE p
  let n := ((List.range 5).filter (fun l => bit x.lanes l)).length
  let up := fun (s : State) =>
    (s.setPort p { s.port p with step := 0 }).setFld FAB_PORT_STAT.STATE p 2 |>.setFld FAB_PORT_STAT.LANES p n
  .next (if s.portState p != 1 then s
  else match x.step with
    | 2 => s.setPort p { x with step := 3 }
    | 3 => if own = 2 then up s else s.setPort p { x with step := 4 }
    | 4 =>
      if mode.val = own then s.setPort p { x with step := 5, uid := uid.toNat, rport := rport.val }
      else (s.setPort p { x with step := 0 }).raise Ev.LINK_MISMATCH p [(0, 1, mode.val)]
    | 5 => s.setPort p { x with step := 6, asym := asymPs }
    | 6 => (up s).sendHello p
    | _ => s)

/-- LINK_SIGNAL_LOSS: signal is lost on a lane of port p; on a lane in use the link drops, and bring-up restarts at
step 1 (R445). -/
def execLinkSignalLoss (p : Fin 6) (lane : Fin 5) (s : State) : Res :=
  .next (if s.portState p.val != 0 && bit (s.port p.val).lanes lane.val then
    (s.linkDrop p.val).reinit Block.FAB.index p.val
  else s)

/-- A message of port p is sent again, marked RETRIED (R444). -/
def State.fabAgain (s : State) (p : Nat) (m : Option (List Nat × List Byte)) : State :=
  match m with
  | some (args, bs) => s.emit (.send (.fabric p) args (bs.take 1 ++ [bs.getD 1 0 ||| 1] ++ bs.drop 2))
  | none => s

/-- FLIT_CRC_FAIL: a flit that port p sent fails its CRC; `retry` says that it was a retry of the flit that failed last.
It is sent again, in a message that is marked RETRIED, and eight failed retries in a row retrain the link (R444).  Which of
the messages in the replay buffer the flit belongs to is free. -/
def execFlitCrcFail (p : Fin 6) (retry : Bool) (s : State) : Res :=
  let p := p.val
  let x := s.port p
  let n := if retry then x.fails + 1 else 0
  .next (if !s.vyderUp.contains p then s
  else if 8 ≤ n then ((s.linkRetrain p 0).reinit Block.FAB.index p).linkBegin p x.lanes
  else
    let r := s.draw "message of a flit that failed its CRC" [(p : Nat)]
    let m := if retry then x.again else x.replay[r.1 % x.replay.length]?
    ((r.2.setPort p { x with fails := n, again := m }).addFld FAB_PORT_ERR.RETRIES p 1).fabAgain p m)

/-! ## Addresses (R453 to R455) -/

/-- Another module of the database that holds an address. -/
def State.otherHolder (s : State) (addr : Nat) : Option FabLsa := holderOf (s.fab.db.map (·.1)) addr

/-- The next free address upward from `addr`, modulo 4,096, that one included. -/
def State.freeAddr (s : State) (addr : Nat) : Option Nat :=
  ((List.range 4096).map (fun i => (addr + i) % 4096)).find? (fun a => (s.otherHolder a).isNone)

/-- Set the address and ADDR_STATE. -/
def State.setAddr (s : State) (addr st : Nat) : State :=
  (s.setFld FAB_STATUS.ADDR 0 addr).setFld FAB_STATUS.ADDR_STATE 0 st

/-- Resolve the address against the database (R455): a module that loses its address renumbers under AUTO and
enters CONFLICT otherwise; one leaves CONFLICT when its address is free. -/
def State.resolveAddr (s : State) : State :=
  let a := s.fabAddr
  let auto := s.fld FAB_ADDR_CFG.MODE 0 == 0
  match s.addrState, s.otherHolder a with
  | 3, none => (s.setAddr a (if auto then 1 else 2)).newLsa
  | 1, some o =>
    if o.addrState = 2 || decide (o.uid.toNat < s.uid) then
      match s.freeAddr a with
      | some b => ((s.setAddr b 1).raise Ev.ADDR_CHANGED 0x3FF [(0, 2, a), (2, 2, b)]).newLsa
      | none => (s.setAddr a 3).newLsa
    else s
  | 2, some o =>
    if o.addrState = 2 && decide (o.uid.toNat < s.uid) then
      ((s.setAddr a 3).raise Ev.ADDR_CONFLICT 0x3FF [(0, 2, a), (2, 8, o.uid.toNat)]).newLsa
    else s
  | _, _ => s

/-- The fabric unit starts, at BOOT: a new incarnation is drawn, nothing is known of others, and the address is taken as
FAB_ADDR_CFG says (R449, R450, R453, R454); a STRAP address is sampled at the end of BOOT. -/
def State.fabStart (s : State) : State :=
  let inc := ofLe (Config.random s.free 4)
  let s : State := { s with
    free := s.free + 1
    fab := { on := true, inc := inc, started := s.now }
    trg := { s.trg with seq := 0 } }
  match s.fld FAB_ADDR_CFG.MODE 0 with
  | 1 => s.setAddr (s.fld FAB_ADDR_CFG.ADDR 0) 2
  | 2 => s.setAddr 0 0
  | _ => s.setAddr (ofBe (sha256 (leBytes 8 s.uid)) % 4096) 0

/-- The end of BOOT samples GPIO0 to GPIO11: a STRAP module takes its address (R453). -/
def State.fabStrap (s : State) (gpio : Nat) : State :=
  let s : State := { s with pwr := { s.pwr with strap := gpio } }
  if s.fld FAB_ADDR_CFG.MODE 0 = 2 then (s.setAddr gpio 2).newLsa.resolveAddr else s

/-- A commit has changed FAB_ADDR_CFG: the address is taken anew (R453, R455). -/
def State.fabReaddress (s : State) : State :=
  let s := match s.fld FAB_ADDR_CFG.MODE 0 with
    | 1 => s.setAddr (s.fld FAB_ADDR_CFG.ADDR 0) 2
    | 2 => s.setAddr s.pwr.strap 2
    | _ => if s.addrState = 1 then s else s.setAddr (ofBe (sha256 (leBytes 8 s.uid)) % 4096) 0
  let s : State := { s with fab := { s.fab with started := s.now } }
  s.newLsa.resolveAddr

/-- ADDR_CLAIM_TIMER: the gathering period of an AUTO module ends and it claims its address (R454). -/
def execAddrClaimTimer (s : State) : Res :=
  let due := match s.fab.firstNbr with
    | some t => decide (max t s.fab.started + 20 * msCycles ≤ s.now)
    | none => decide (s.fab.started + 10 * msCycles ≤ s.now)
  .next (if !s.fab.on || s.fld FAB_ADDR_CFG.MODE 0 != 0 || s.addrState != 0 || !due then s
  else match s.freeAddr s.fabAddr with
    | some a => (s.setAddr a 1).newLsa.raise Ev.ADDR_CLAIMED 0x3FF [(0, 2, a)]
    | none => (s.setAddr s.fabAddr 3).newLsa)

/-! ## The duplicate filter (R461) -/

/-- Pass a message through the filter of its source; false: it is dropped. -/
def State.fabFilter (s : State) (h : FabHdr) : Bool × State :=
  let src := h.src.toNat
  let inc := h.inc.toNat
  let q := h.seq.toNat
  let put := fun (s : State) (f : FabFilter) =>
    ({ s with fab := { s.fab with filters := Table.insert natLt s.fab.filters src f } } : State)
  match Table.get? s.fab.filters src with
  | none => (true, put s ⟨inc, q, [q]⟩)
  | some f =>
    if f.inc != inc then (true, put s ⟨inc, q, [q]⟩)
    else if f.seen.contains q then (false, s.addFld FAB_COUNTS.DUP 0 1)
    else
      let ahead := (q + 2 ^ 32 - f.high) % 2 ^ 32
      if ahead < 2 ^ 31 then
        (true, put s ⟨inc, q, q :: f.seen.filter (fun x => decide ((q + 2 ^ 32 - x) % 2 ^ 32 < 256))⟩)
      else if 2 ^ 32 - ahead < 256 then (true, put s { f with seen := q :: f.seen })
      else (false, s.addFld FAB_COUNTS.STALE 0 1)

/-! ## The grandmaster (R464) -/

/-- Does candidate a win against b? -/
def gmBeats (a b : FabGm) : Bool :=
  if a.ref != b.ref then a.ref
  else if a.prio != b.prio then decide (b.prio.toNat < a.prio.toNat)
  else decide (a.uid.toNat < b.uid.toNat)

/-- Is a module reachable in the installed database? -/
def State.reachable (s : State) (uid : BitVec 64) : Bool :=
  uid.toNat == s.uid || (distOf (dists s.fab.inst uid) (BitVec.ofNat 64 s.uid)).isSome

/-- Hops from this module to the root of a tree. -/
def State.hopsTo (s : State) (uid : BitVec 64) : Nat :=
  depthOf s.fab.inst (dists s.fab.inst uid) uid s.fab.inst.length (BitVec.ofNat 64 s.uid)

/-- Judge the candidates heard within 1 s, this module among them; a change of the winner is GM_CHANGED. -/
def State.electGm (s : State) : State :=
  let own := s.ownGm
  let heard := (s.fab.cands.filter (fun e => decide (s.now < e.2 + sCycles) && s.reachable e.1.uid)).map (·.1)
  let best := heard.foldl (fun m c => if gmBeats c m then c else m) own
  let before := match s.fab.gm with
    | some g => g.uid
    | none => own.uid
  let addr := match lsaOf s.fab.inst best.uid with
    | some l => l.addr.toNat
    | none => if best.uid = own.uid then s.fabAddr else 0
  let s : State := { s with fab := { s.fab with gm := some best } }
  let s := (s.setFlag FAB_GM.REF 0 best.ref).setFld FAB_GM.PRIO 0 best.prio.toNat |>.setFld FAB_GM.ADDR 0 addr
  let s := (s.setFlag FAB_STATUS.IS_GM 0 (best.uid == own.uid)).setFld FAB_STATUS.GM_HOPS 0 (min 15 (s.hopsTo best.uid))
  s.when (before != best.uid) (·.raise Ev.GM_CHANGED 0x3FF [(0, 8, best.uid.toNat), (8, 1, b2n best.ref)])

/-- A candidate is heard. -/
def State.hearGm (s : State) (g : FabGm) : State :=
  if g.uid.toNat = s.uid then s
  else
    let rest := s.fab.cands.filter (fun e => e.1.uid != g.uid)
    ({ s with fab := { s.fab with cands := rest ++ [(g, s.now)] } } : State).electGm

/-- The bytes of an ANNOUNCE. -/
def gmBytes (g : FabGm) : List Byte := leBytes 8 g.uid.toNat ++ leBytes 1 g.prio.toNat ++ leBytes 1 (b2n g.ref)

/-- GM_ANNOUNCE: a candidate that believes it wins floods an ANNOUNCE every 125 ms (R464). -/
def execGmAnnounce (s : State) : Res :=
  .next (if !s.fab.on || !s.timerDue tmAnnounce (125 * msCycles) then s
  else
    let s := (s.timerSet tmAnnounce).electGm
    if s.flag FAB_STATUS.IS_GM 0 && s.addressed then
      (s.flood msgANNOUNCE none (s.ownHdr 0 0) (gmBytes s.ownGm)).seqNext
    else s)

/-- ANNOUNCE_RX: an ANNOUNCE arrives on port p: filtered, forwarded and judged (R461, R464). -/
def execAnnounceRx (p : Fin 6) (h : FabHdr) (gm : FabGm) (s : State) : Res :=
  let r := s.fabFilter h
  .next (if !s.vyderUp.contains p.val then s
  else if !r.1 then r.2
  else
    let s := match hdrHop h with
      | some h' => r.2.flood msgANNOUNCE (some p.val) h' (gmBytes gm)
      | none => r.2.noRoute
    s.hearGm gm)

/-- GM_TIMEOUT: a grandmaster unheard for 1 s is replaced by the next best (R464). -/
def execGmTimeout (s : State) : Res := .next (if s.fab.on then s.electGm else s)

/-! ## Hellos and link state (R449 to R452) -/

/-- HELLO_SEND: port p sends a HELLO, every 1 ms (R449). -/
def execHelloSend (p : Fin 6) (s : State) : Res :=
  .next (if s.fab.on && s.vyderUp.contains p.val && s.timerDue (tmHello p.val) msCycles then
    (s.timerSet (tmHello p.val)).sendHello p.val
  else s)

/-- HELLO_RX: a HELLO arrives on port p: a first one brings the neighbour up; a change of what the LSA lists is
flooded (R445, R449, R451). -/
def execHelloRx (p : Fin 6) (h : FabHello) (s : State) : Res :=
  let p := p.val
  .next (if !s.vyderUp.contains p then s
  else
    let x := s.port p
    let fresh := s.portState p != 3
    let changed := fresh || x.uid != h.uid.toNat || x.rport != h.port.val ||
      s.fld FAB_PORT_STAT.NBR_ADDR p != h.addr.toNat
    let s := s.setPort p { x with uid := h.uid.toNat, rport := h.port.val, lastHello := some s.now }
    let s := (s.setFld FAB_PORT_STAT.NBR_ADDR p h.addr.toNat).setFld FAB_PORT_STAT.STATE p 3
    let s : State := { s with fab := { s.fab with firstNbr := some (s.fab.firstNbr.getD s.now) } }
    let s := s.when fresh (·.raise Ev.NBR_UP p [(0, 8, h.uid.toNat), (8, 2, h.addr.toNat)])
    let s := (s.when changed (·.newLsa)).when fresh (·.fabTimeOk)
    s.when (h.gm.uid.toNat != s.uid && !s.fab.cands.any (fun e => e.1.uid == h.gm.uid)) (·.hearGm h.gm))

/-- NBR_TIMEOUT: no hello arrived on port p for 3 ms (R449). -/
def execNbrTimeout (p : Fin 6) (s : State) : Res :=
  .next (match (s.port p.val).lastHello with
  | some t => if t + 3 * msCycles ≤ s.now then s.nbrDown p.val 1 else s
  | none => s)

/-- LSA_RX: an LSA arrives on port p.  One that is new is kept and flooded, and the addresses are resolved
(R451, R455, R461). -/
def execLsaRx (p : Fin 6) (h : FabHdr) (l : FabLsa) (s : State) : Res :=
  let r := s.fabFilter h
  let newer := match s.fab.db.find? (fun e => e.1.uid == l.uid) with
    | none => true
    | some e => e.1.inc != l.inc || decide (e.1.seq.toNat < l.seq.toNat)
  .next (if !s.vyderUp.contains p.val then s
  else if !r.1 then r.2
  else if l.uid.toNat = s.uid || !newer then r.2
  else
    let s := r.2
    let rest := s.fab.db.filter (fun e => e.1.uid != l.uid)
    let s : State := { s with fab := { s.fab with db := rest ++ [(l, s.now)] } }
    let s := match hdrHop h with
      | some h' => s.flood msgLSA (some p.val) h' (lsaBytes l)
      | none => s.noRoute
    s.resolveAddr)

/-- LSA_REFRESH: 10 s have passed since the latest LSA (R451). -/
def execLsaRefresh (s : State) : Res :=
  .next (if s.fab.on && s.timerDue tmLsa (10 * sCycles) then s.newLsa else s)

/-- LSA_EXPIRE: the LSA of a module not refreshed for 40 s is removed (R451). -/
def execLsaExpire (uid : BitVec 64) (s : State) : Res :=
  let old := fun (e : FabLsa × Nat) => e.1.uid == uid && decide (e.2 + 40 * sCycles ≤ s.now)
  .next (if s.fab.db.any old then
    ({ s with fab := { s.fab with db := s.fab.db.filter (fun e => !old e) } } : State).resolveAddr
  else s)

/-- What belonged to modules that are no longer reachable ends: retrievals for them and their results count in
NO_ROUTE (R467), their credit is void. -/
def State.dropUnreachable (s : State) : State :=
  let gone := fun (a : Nat) => (s.nextHops a) == []
  let remote := fun (j : Job) => match j.kind with
    | .retrieval _ _ (some m) => gone m
    | _ => false
  let n := (s.trg.jobs.filter remote).length + (s.fab.xfers.filter (fun x => gone x.dst)).length +
    (s.fab.rtvWait.filter (fun e => gone e.2.1)).length
  let s := s.addFld FAB_NO_ROUTE.COUNT 0 n
  { s with
    trg := { s.trg with jobs := s.trg.jobs.filter (fun j => !remote j) }
    fab := { s.fab with
      xfers := s.fab.xfers.filter (fun x => !gone x.dst)
      rtvWait := s.fab.rtvWait.filter (fun e => !gone e.2.1)
      asks := s.fab.asks.filter (fun e => !gone e.1)
      granted := s.fab.granted.filter (fun e => !gone e.1)
      credit := s.fab.credit.filter (fun e => !gone e.1)
      asked := s.fab.asked.filter (fun e => !gone e.1) } }

/-- ROUTE_INSTALL: the routes and trees of the present database replace the old ones at once (R456, R459, R460). -/
def execRouteInstall (s : State) : Res :=
  .next (if !s.fab.on then s
  else
    let g := s.ownLsa :: s.fab.db.map (·.1)
    let s : State := { s with fab := { s.fab with inst := g } }
    let bound := (g.filter (fun l => s.reachable l.uid)).foldl (fun m l => max m (treeDepth g l.uid)) 0
    ((s.setFld FAB_STATUS.TRG_BOUND 0 (min 15 bound)).dropUnreachable).electGm.fabTimeOk)

/-! ## Time (R462 to R465) -/

/-- OT96 stamps apart, in 2^-80 s. -/
def stampDiff (a b : BitVec 96) : Int := ((a.toNat : Int) - b.toNat) * (2 ^ 32 : Nat)

/-- asym of port p: the device part and the cable's (R463). -/
def State.asym (s : State) (p : Nat) : Int := psToOt ((s.port p).asym + toS 32 (s.reg .FAB_PORT_ASYM p).toNat)

/-- The mean of a list, truncated toward zero. -/
def meanI (l : List Int) : Int := tdiv (isum l) (l.length : Nat)

/-- TIME_EXCHANGE: port p sends a TIME request stamped t1, every 1 ms (R462). -/
def execTimeExchange (p : Fin 6) (t1 : BitVec 96) (s : State) : Res :=
  .next (if s.fab.on && s.vyderUp.contains p.val && s.timerDue (tmExchange p.val) msCycles then
    (s.timerSet (tmExchange p.val)).fabOut p.val msgTIME false (s.ownHdr 0 0) (leBytes 12 t1.toNat)
  else s)

/-- TIME_RX: a TIME request is answered with its stamps; an answer gives delay and offset (R462). -/
def execTimeRx (p : Fin 6) (m : FabTime) (s : State) : Res :=
  let p := p.val
  .next (if !s.vyderUp.contains p then s
  else match m with
    | .request t1 t2 t3 =>
      s.fabOut p msgTIME false (s.ownHdr 0 0) (leBytes 12 t1.toNat ++ leBytes 12 t2.toNat ++ leBytes 12 t3.toNat)
    | .answer t1 t2 t3 t4 =>
      let delay := tdiv (stampDiff t4 t1 - stampDiff t3 t2) 2
      let offset := tdiv (stampDiff t2 t1 - stampDiff t4 t3) 2 - tdiv (s.asym p) 2
      let x := s.port p
      let delays := (delay :: x.delays).take 16
      let s := s.setPort p { x with offsets := (offset :: x.offsets).take 16, delays := delays }
      s.setReg .FAB_PORT_DELAY p (BitVec.ofNat 32 (toU 32 (tdiv (otToFs (meanI delays)) 1000))))

/-- FAB_TIME_SERVO: every 16 ms the mean offset to the time parent is passed on (R465).  The offset is the parent's
OT96 minus this module's, so this module's own error is its negative (log entry 40). -/
def execFabTimeServo (s : State) : Res :=
  .next (if s.fld TDC_TIME_CFG.TIME_SRC 0 != 3 || !s.fab.on || !s.timerDue tmServo (16 * msCycles) then s
  else
    let s := s.timerSet tmServo
    if s.flag FAB_STATUS.IS_GM 0 then s.undisciplined
    else match s.timeParent with
    | none => s.timeSrcLost
    | some p =>
      let u := (s.port p).uid
      let l := (s.port p).offsets
      if s.fab.parent != some u then
        ({ s with fab := { s.fab with parent := some u } } : State).setFlag TDC_STATUS.TIME_SRC_OK 0 true
      else if l = [] then s
      else s.discipline (-meanI l))

/-! ## Triggers, items, retrievals and credit (R459, R461, R466 to R468) -/

/-- FAB_TRIGGER_RX: a TRIGGER passes the filter, is presented when its ID is subscribed, and is forwarded to the
children in its tree (R459). -/
def execFabTriggerRx (h : FabHdr) (tree : Fin 2) (id : Fin 64) (cell : BitVec 8) (t : BitVec 96)
    (tseq : BitVec 32) (s : State) : Res :=
  let r := s.fabFilter h
  .next (if !s.fab.on then s
  else if !r.1 then r.2
  else
    let s := r.2
    let time := t.toNat * 2 ^ 32
    let s := s.when (bit (s.reg64 .FAB_TRG_SUB_LO .FAB_TRG_SUB_HI 0) id.val)
      (·.combEvent (0xB00 + id.val) time (fun _ => true))
    match hdrHop h, holderOf s.fab.inst h.src.toNat with
    | some h', some src =>
      let pay := triggerMsg id.val h.src.toNat cell.toNat time tseq.toNat
      s.over (childPorts s.fab.inst tree.val src.uid (BitVec.ofNat 64 s.uid)) (fun s p =>
        s.fabSend p [msgTRIGGER, id.val, tree.val] (fabMsg msgTRIGGER true h' pay))
    | _, _ => s.noRoute)

/-- Base and size of the receive ring (R468). -/
def State.rxBase (s : State) : Nat :=
  s.fld FAB_RX_BASE_LO.BASE_LO 0 * 64 + s.fld FAB_RX_BASE_HI.BASE_HI 0 * 2 ^ 32
def State.rxUnits (s : State) : Nat := 2 ^ s.fld FAB_RX_BASE_HI.SIZE_LOG2 0

/-- Units of the receive ring that the host has not read. -/
def State.rxUsed (s : State) : Nat :=
  ((s.reg .FAB_RX_WP 0).toNat + 2 ^ 32 - (s.reg .FAB_RX_RD 0).toNat) % 2 ^ 32

/-- Bytes of receive ring neither used, taken by entries that wait, nor granted. -/
def State.rxFree (s : State) : Nat :=
  64 * (s.rxUnits - s.rxUsed) - s.fab.rxHeld.foldl (fun n e => n + e.length) 0 -
    s.fab.granted.foldl (fun n e => n + e.2) 0

/-- Grant credit to the requests that wait, first come, first served, in grants of at most 64 KiB (R466). -/
def State.grant : Nat → State → State
  | 0, s => s
  | n + 1, s => match s.fab.asks with
    | [] => s
    | (src, k) :: rest =>
      let g := min 65536 k
      if !s.flag FAB_RX_BASE_HI.ENABLE 0 || !s.addressed || s.rxFree < g then s
      else
        let asks := if k ≤ g then rest else (src, k - g) :: rest
        let s : State := { s with fab := { s.fab with
          asks := asks, granted := Table.modify 0 s.fab.granted src (· + g) } }
        State.grant n (s.sendRouted msgCREDIT src 0 (leBytes 4 g ++ [1])).2

/-- Grant as far as the ring goes. -/
def State.grantAll (s : State) : State :=
  State.grant (s.fab.asks.foldl (fun n e => n + e.2 / 65536 + 1) 0) s

/-- A message for another module is forwarded; one for this module passes the filter; one of an unknown TYPE goes nowhere and
is counted with the undeliverable ones (R448, R457, R461; log entry 42). -/
def State.routedRx (s : State) (type : Nat) (h : FabHdr) (payload : List Byte) (f : State → State) : State :=
  if !s.fab.on then s
  else if h.unknown then s.noRoute
  else if h.dst.toNat != s.fabAddr || !s.addressed then s.forward type h payload
  else
    let r := s.fabFilter h
    if r.1 then f r.2 else r.2

/-- The entries that wait are written, and WP advances past each that is acknowledged without error; the first one with
error status is written again after 1 ms, and nothing after it in the meantime (R33, R468). -/
def State.rxPump : Nat → State → State
  | 0, s => s
  | n + 1, s => match s.fab.rxHeld with
    | [] => s
    | bs :: rest =>
      let wp := (s.reg .FAB_RX_WP 0).toNat
      let put := (List.range (bs.length / 64)).foldl (fun (t : Option State) i =>
        t.bind (·.physPut s.srcOther (s.rxBase + 64 * ((wp + i) % s.rxUnits)) (slice bs (64 * i) 64))) (some s)
      match put with
      | none => { s with fab := { s.fab with rxTry := s.now } }
      | some s =>
        let s : State := { s with fab := { s.fab with rxHeld := rest } }
        State.rxPump n (s.setReg .FAB_RX_WP 0 (BitVec.ofNat 32 (wp + bs.length / 64)))

/-- An entry joins those that wait and is written at once if none does. -/
def State.rxPut (s : State) (bs : List Byte) : State :=
  let t : State := { s with fab := { s.fab with rxHeld := s.fab.rxHeld ++ [bs] } }
  if s.fab.rxHeld == [] then t.rxPump 1 else t

/-- Write the entry that failed again, at most once per 1 ms, and then those after it (R33). -/
def State.retryItems (s : State) : State :=
  s.when (decide (s.fab.rxTry + msCycles ≤ s.now)) (fun s => s.rxPump s.fab.rxHeld.length)

/-- FAB_ITEM_RX: an ITEM for this module is written into the receive ring (R33, R468). -/
def execFabItemRx (h : FabHdr) (entry : List Byte) (s : State) : Res :=
  let size := entrySize (entry.length - 32)
  .next (s.routedRx msgITEM h entry (fun s =>
    let s : State := { s with fab := { s.fab with granted := Table.modify 0 s.fab.granted h.src.toNat (· - size) } }
    if !s.flag FAB_RX_BASE_HI.ENABLE 0 then s
    else s.rxPut (entry ++ zeros (size - entry.length))))

/-- FAB_RTV_REQ_RX: a retrieval request of another module joins the requests that wait, in arrival order, and
starts when it may (R467). -/
def execFabRtvReqRx (h : FabHdr) (entry : List Byte) (s : State) : Res :=
  .next (s.routedRx msgRTVREQ h entry (fun s =>
    ({ s with fab := { s.fab with
      rtvWait := s.fab.rtvWait ++ [(s.rtvRingLen, h.src.toNat, entry)] } } : State).startNext))

/-- FAB_CREDIT_RX: a CREDIT message requests receive-ring space, or grants it (R466). -/
def execFabCreditRx (h : FabHdr) (grant : Bool) (n : BitVec 32) (s : State) : Res :=
  let src := h.src.toNat
  .next (s.routedRx msgCREDIT h (leBytes 4 n.toNat ++ [BitVec.ofNat 8 (b2n grant)]) (fun s =>
    if grant then
      ({ s with fab := { s.fab with
        credit := Table.modify 0 s.fab.credit src (· + n.toNat)
        asked := Table.modify 0 s.fab.asked src (· - n.toNat) } } : State).xferPump src |>.xferAsk src
    else ({ s with fab := { s.fab with asks := s.fab.asks ++ [(src, n.toNat)] } } : State).grantAll))

/-- The host writes FAB_RX_RD: space between the old position and WP is freed for credit (R466, R468). -/
def State.writeRxRd (s : State) (v : BitVec 32) : State :=
  let old := (s.reg .FAB_RX_RD 0).toNat
  if (v.toNat + 2 ^ 32 - old) % 2 ^ 32 ≤ s.rxUsed then (s.setReg .FAB_RX_RD 0 v).grantAll else s

/-- FAB_RX_RD_WRITE (R468). -/
def execFabRxRdWrite (path : Path) (value : BitVec 32) (s : State) : Res :=
  .next ((s.writeRxRd value).wrote path .FAB_RX_RD 0)

end Sys2Proof.Machine
end

