-- ==== Sys2Proof/Machine/Flags.lean ====
section
/-! DEFINITION. Flags, predicates and the flow of a Jextan tile: what every instruction does beside its own
operation (R141, R145, R147, R155, R156, R162). -/

namespace Sys2Proof.Machine

/-! ## Flags (R141) -/

/-- Signed 32-bit limits. -/
def inS32 (i : Int) : Bool := decide (-2147483648 ≤ i) && decide (i < 2147483648)

/-- Carry out of an addition: the unsigned sum does not fit (R141). -/
def addCarry (a b : Nat) : Bool := decide (2 ^ 32 ≤ a % 2 ^ 32 + b % 2 ^ 32)

/-- A subtraction does not borrow (R141). -/
def subCarry (a b : Nat) : Bool := decide (b % 2 ^ 32 ≤ a % 2 ^ 32)

/-- Set the four flags from a 32-bit result; C and V are given by the operation, or free where the manual
states none (log entry 31). -/
def State.setFlags (s : State) (n r : Nat) (cv : Option (Bool × Bool)) : State :=
  let (cv, s) := match cv with
    | some x => (x, s)
    | none =>
      let (f, s) := s.draw "C and V of an operation without carry" [(r : Nat)]
      ((bit f 0, bit f 1), s)
  let t := s.tile n
  s.setTile n { t with z := r % 2 ^ 32 == 0, n := bit r 31, c := cv.1, v := cv.2 }

/-- The condition of a predicate (R145). -/
def Tile.cond (t : Tile) (c : Nat) : Bool :=
  let ev := (t.evp &&& t.evm &&& 31) != 0 || bit t.evp evHALT
  match c with
  | 0 => t.z
  | 1 => !t.z
  | 2 => t.n != t.v
  | 3 => t.n == t.v
  | 4 => !t.c
  | 5 => t.c
  | 6 => ev
  | _ => !ev

/-! ## Flow (R147, R155, R156) -/

/-- The address after the instruction at p completes in sequence, and the repeat levels then: a body whose
last instruction it was returns to its start until its count is used up (R155). -/
def repNext (depth p : Nat) : List RepLevel → Nat × List RepLevel
  | [] => (p + 1, [])
  | l :: rest =>
    if l.last = p && l.depth = depth then
      if 1 < l.left then (l.first, { l with left := l.left - 1 } :: rest)
      else repNext depth p rest
    else (p + 1, l :: rest)

/-- The instruction at p completes in sequence.  Execution past address 16,383 is the fault PC_END (R156),
whose 14-bit PC the manual does not give. -/
def State.seqFrom (s : State) (n p : Nat) : State :=
  let t := s.tile n
  let q := repNext t.calls.length p t.reps
  if q.1 < 16384 then s.setTile n { t with pc := q.1, reps := q.2 }
  else
    let (f, s) := s.draw "PC of PC_END" []
    s.tileFault n flPC_END f

/-- Go to an address. -/
def State.goto (s : State) (n p : Nat) : State := s.setTile n { s.tile n with pc := p }

/-- Bytes that an instruction which faults has or has not written: free values (R162). -/
def State.partly (s : State) (n : Nat) (l : List Nat) : State :=
  s.over l (fun s a =>
    let (f, s) := s.draw "byte of a partly written destination" [(a : Nat)]
    s.dmStore n a 1 f)

/-- What every instruction does (R147, R162): it runs on a running tile only; an uncorrectable word of the
program memory is PM_ECC, of the data memory that it reads (`mem`) DM_ECC; a false predicate has no effect;
a fault keeps registers and flags and stops the tile.  `body` runs the operation; `next` moves the PC. -/
def State.jrun (s : State) (n : Nat) (fl : JFlags) (mem : Bool) (body : State → JRes)
    (next : State → State) : State :=
  let t := s.tile n
  if !t.runs then s
  else
    let s := match fl.ecc with
      | .corrected a => s.tileCorr n a.toNat
      | _ => s
    if fl.ecc = .program then s.tileFault n flPM_ECC t.pc
    else if fl.pred && !t.cond fl.cond.toNat then s.seqFrom n t.pc
    else if mem && fl.ecc = .data then
      match body s with
      | .ok s' =>
        let parts := checkDiff s s'
        (s.partly n parts).tileFault n flDM_ECC t.pc
      | .error e => (s.partly n e.part).tileFault n e.code t.pc
    else match body s with
      | .ok s' => next s'
      | .error e => (s.partly n e.part).tileFault n e.code t.pc
where
  /-- Data-memory addresses whose byte differs between two states. -/
  checkDiff (s s' : State) : List Nat :=
    ((s'.mem.map (·.1)) ++ (s.mem.map (·.1))).filterMap (fun a =>
      if dmBase n ≤ a && a < dmBase n + dmSize && s.byte a != s'.byte a then some (a - dmBase n) else none)

/-- An instruction that completes in sequence. -/
def State.jseq (s : State) (n : Nat) (fl : JFlags) (mem : Bool) (body : State → JRes) : State :=
  s.jrun n fl mem body (fun s' => s'.seqFrom n (s.tile n).pc)

end Sys2Proof.Machine
end

