-- ==== Sys2Proof/Machine/JScalar.lean ====
section
/-! DEFINITION. The scalar Jextan instructions: control flow, arithmetic, loads and stores, special registers
and address registers (R141 to R148, R154 to R157, R161). -/

namespace Sys2Proof.Machine

/-! ## Control flow -/

/-- NOP does nothing (R148). -/
def execJNop (tile : Fin 68) (fl : JFlags) (s : State) : Res := .next (s.jseq tile.val fl false .ok)

/-- HALT: the tile halts at this boundary with cause 1 (R148); it executes nothing past the instruction, at whatever
address it lies. -/
def execJHalt (tile : Fin 68) (fl : JFlags) (s : State) : Res :=
  let n := tile.val
  .next (s.jrun n fl false .ok (fun s' =>
    let t := s'.tile n
    let q := repNext t.calls.length t.pc t.reps
    (s'.setTile n { t with pc := q.1 % 16384, reps := q.2 }).haltTile n 1))

/-- B: PC = target; a taken branch out of the innermost repeat body is the fault RPT_ESC (R155). -/
def execJB (tile : Fin 68) (fl : JFlags) (_g : BitVec 5) (_imm : BitVec 16) (target : BitVec 14) (s : State) : Res :=
  let n := tile.val
  .next (s.jrun n fl false
    (fun s => match (s.tile n).reps with
      | l :: _ =>
        if l.first ≤ target.toNat && target.toNat ≤ l.last then .ok s else .error ⟨flRPT_ESC, []⟩
      | [] => .ok s)
    (·.goto n target.toNat))

/-- CALL: push PC + 1 and go to the target; with 16 entries the fault CALL_STACK (R156). -/
def execJCall (tile : Fin 68) (fl : JFlags) (_g : BitVec 5) (_imm : BitVec 16) (target : BitVec 14) (s : State) : Res :=
  let n := tile.val
  .next (s.jrun n fl false
    (fun s =>
      let t := s.tile n
      if 16 ≤ t.calls.length then .error ⟨flCALL_STACK, []⟩
      else .ok (s.setTile n { t with calls := (t.pc + 1) :: t.calls }))
    (·.goto n target.toNat))

/-- RET: pop the PC, completing the CALL in sequence; with no entry the fault CALL_STACK (R156). -/
def execJRet (tile : Fin 68) (fl : JFlags) (s : State) : Res :=
  let n := tile.val
  .next (s.jrun n fl false
    (fun s =>
      let t := s.tile n
      match t.calls with
      | [] => .error ⟨flCALL_STACK, []⟩
      | p :: rest => .ok (s.setTile n { t with calls := rest, pc := p }))
    (fun s => s.seqFrom n ((s.tile n).pc - 1)))

/-- REP: a block repeat of PC + 1 to the target (R155).  A target that does not lie after PC is BAD_OPERAND, with count 0
too: R155 does not say (DESIGN CHOICE, log entry 103). -/
def execJRep (tile : Fin 68) (fl : JFlags) (g : BitVec 5) (imm : BitVec 16) (target : BitVec 14) (s : State) : Res :=
  let n := tile.val
  let t := s.tile n
  let count := if g = 0 then imm.toNat else t.gr g.toNat
  .next (s.jrun n fl false
    (fun s => do
      need (decide (t.pc < target.toNat))
      match t.reps with
      | l :: _ => need (decide (l.depth ≠ t.calls.length) || decide (target.toNat ≤ l.last))
      | [] => pure ()
      if count = 0 then .ok s
      else if 4 ≤ t.reps.length then .error ⟨flRPT_STACK, []⟩
      else .ok (s.setTile n { t with reps := ⟨t.pc + 1, target.toNat, count, t.calls.length⟩ :: t.reps }))
    (fun s => if count = 0 then s.seqFrom n target.toNat else s.goto n (t.pc + 1)))

/-- BRK: pop imm16 repeat levels, 1 to 4, and go to the target (R148, R155). -/
def execJBrk (tile : Fin 68) (fl : JFlags) (_g : BitVec 5) (imm : BitVec 16) (target : BitVec 14) (s : State) : Res :=
  let n := tile.val
  .next (s.jrun n fl false
    (fun s => do
      let t := s.tile n
      need (1 ≤ imm.toNat && imm.toNat ≤ 4)
      if t.reps.length < imm.toNat then .error ⟨flRPT_STACK, []⟩
      else .ok (s.setTile n { t with reps := t.reps.drop imm.toNat }))
    (·.goto n target.toNat))

/-! ## Events and waits (R154, R157, R161) -/

/-- WAITEV ends with d = EVP & mask and Z = 1 if an event matched (R154); the command is the end of the
wait (log entry 32). -/
def execJWaitev (tile : Fin 68) (fl : JFlags) (d : BitVec 5) (mask : BitVec 6) (s : State) : Res :=
  let n := tile.val
  .next (s.jseq n fl false (fun s =>
    let m := (s.tile n).evp &&& mask.toNat
    .ok ((s.setGr n d.toNat m).setZ n (m != 0))))

/-- EVCLR clears the mask bits of EVP, HALT excepted (R157, R159). -/
def execJEvclr (tile : Fin 68) (fl : JFlags) (_d : BitVec 5) (mask : BitVec 6) (s : State) : Res :=
  let n := tile.val
  .next (s.jseq n fl false (fun s =>
    let t := s.tile n
    .ok (s.setTile n { t with evp := t.evp - (t.evp &&& mask.toNat &&& 31) })))

/-- FENCE ends with Z = 1 when nothing is outstanding (R161). -/
def execJFence (tile : Fin 68) (fl : JFlags) (s : State) : Res :=
  let n := tile.val
  .next (s.jseq n fl false (fun s => .ok (s.setZ n ((s.tile n).xpend == 0))))

/-- WAITIN ends with Z = 1 when WI ≥ RP + count on the lane (R154). -/
def execJWaitin (tile : Fin 68) (fl : JFlags) (v : JV) (s : State) : Res :=
  let n := tile.val
  .next (s.jseq n fl false (fun s =>
    let t := s.tile n
    let l := v.lane.toNat
    .ok (s.setZ n (decide (Table.getD t.rp l 0 + t.vcount v ≤ Table.getD t.wi l 0)))))

/-- INADV: RP of the lane advances by the count (R135). -/
def execJInadv (tile : Fin 68) (fl : JFlags) (v : JV) (s : State) : Res :=
  let n := tile.val
  .next (s.jseq n fl false (fun s =>
    let t := s.tile n
    let l := v.lane.toNat
    .ok (s.setTile n { t with rp := Table.set 0 t.rp l (Table.getD t.rp l 0 + t.vcount v) })))

/-- The enabled receive ring whose area holds data-memory byte a (R264, R265). -/
def State.xringOf (s : State) (n a : Nat) : Option Nat :=
  (List.range 4).find? (fun j =>
    let i := 4 * n + j
    let b := 64 * s.fld GT_XRX_CFG.BASE i
    s.flag GT_XRX_CFG.EN i && decide (b ≤ a) && decide (a < b + 64 * 2 ^ s.fld GT_XRX_CFG.SIZE_LOG2 i))

/-- WAITX releases the ring's claim and, with enough units, claims count of them with Z = 1 (R265). -/
def execJWaitx (tile : Fin 68) (fl : JFlags) (v : JV) (s : State) : Res :=
  let n := tile.val
  .next (s.jseq n fl false (fun s =>
    let t := s.tile n
    match s.xringOf n (t.ar v.ay.toNat).addr with
    | none => .error badOperand
    | some j =>
      let r := Table.getD t.xrings j {}
      let c := t.vcount v
      let ok := decide (c ≤ r.fill)
      let r := if ok then { r with fill := r.fill - c, claimed := c } else { r with claimed := 0 }
      .ok ((s.setTile n { t with xrings := Table.set {} t.xrings j r }).setZ n ok)))

/-! ## Arithmetic (R141, R148) -/

/-- Write the result of an ALU operation and, with SETF, the flags. -/
def State.alu (s : State) (n : Nat) (fl : JFlags) (d : BitVec 5) (r : Int) (cv : Option (Bool × Bool)) : State :=
  let r := toU 32 r
  (s.setGr n d.toNat r).when fl.setf (·.setFlags n r cv)

/-- An ALU instruction: a result from two signed sources, with the carry and overflow where they are
given. -/
def State.aluOp (s : State) (n : Nat) (fl : JFlags) (d : BitVec 5) (a b : Int)
    (f : Int → Int → Int × Option (Bool × Bool)) : State :=
  s.jseq n fl false (fun s => let r := f a b; .ok (s.alu n fl d r.1 r.2))

/-- Saturate when SAT is 1 (R141). -/
def satIf (sat : Bool) (i : Int) : Int := if sat then satS 32 i else i

/-- Sum, with carry out and signed overflow of the exact sum. -/
def opAdd (sat : Bool) (a b : Int) : Int × Option (Bool × Bool) :=
  (satIf sat (a + b), some (addCarry (toU 32 a) (toU 32 b), !inS32 (a + b)))

/-- Difference, with C = 1 when it does not borrow. -/
def opSub (sat : Bool) (a b : Int) : Int × Option (Bool × Bool) :=
  (satIf sat (a - b), some (subCarry (toU 32 a) (toU 32 b), !inS32 (a - b)))

/-- A bitwise or other operation on the 32-bit patterns, whose C and V the manual does not state. -/
def opBits (f : Nat → Nat → Nat) (a b : Int) : Int × Option (Bool × Bool) := (f (toU 32 a) (toU 32 b), none)

/-- An operation on the signed values, whose C and V the manual does not state. -/
def opInt (f : Int → Int → Int) (a b : Int) : Int × Option (Bool × Bool) := (f a b, none)

def shlBits (a b : Nat) : Nat := a <<< (b % 32)
def shrBits (a b : Nat) : Nat := a >>> (b % 32)
/-- Arithmetic right shift of a signed value. -/
def sarInt (a b : Int) : Int := a / (2 ^ (toU 32 b % 32) : Nat)
/-- Leading zeros of a 32-bit pattern. -/
def clz32 (a : Nat) : Nat := if a = 0 then 32 else 31 - topBit a

def execJAdd (tile : Fin 68) (fl : JFlags) (d s' t : BitVec 5) (s : State) : Res :=
  let x := s.tile tile.val
  .next (s.aluOp tile.val fl d (x.gs s'.toNat) (x.gs t.toNat) (opAdd fl.sat))
def execJSub (tile : Fin 68) (fl : JFlags) (d s' t : BitVec 5) (s : State) : Res :=
  let x := s.tile tile.val
  .next (s.aluOp tile.val fl d (x.gs s'.toNat) (x.gs t.toNat) (opSub fl.sat))
def execJAnd (tile : Fin 68) (fl : JFlags) (d s' t : BitVec 5) (s : State) : Res :=
  let x := s.tile tile.val
  .next (s.aluOp tile.val fl d (x.gs s'.toNat) (x.gs t.toNat) (opBits (· &&& ·)))
def execJOr (tile : Fin 68) (fl : JFlags) (d s' t : BitVec 5) (s : State) : Res :=
  let x := s.tile tile.val
  .next (s.aluOp tile.val fl d (x.gs s'.toNat) (x.gs t.toNat) (opBits (· ||| ·)))
def execJXor (tile : Fin 68) (fl : JFlags) (d s' t : BitVec 5) (s : State) : Res :=
  let x := s.tile tile.val
  .next (s.aluOp tile.val fl d (x.gs s'.toNat) (x.gs t.toNat) (opBits (· ^^^ ·)))
def execJShl (tile : Fin 68) (fl : JFlags) (d s' t : BitVec 5) (s : State) : Res :=
  let x := s.tile tile.val
  .next (s.aluOp tile.val fl d (x.gs s'.toNat) (x.gs t.toNat) (opBits shlBits))
def execJShr (tile : Fin 68) (fl : JFlags) (d s' t : BitVec 5) (s : State) : Res :=
  let x := s.tile tile.val
  .next (s.aluOp tile.val fl d (x.gs s'.toNat) (x.gs t.toNat) (opBits shrBits))
def execJSar (tile : Fin 68) (fl : JFlags) (d s' t : BitVec 5) (s : State) : Res :=
  let x := s.tile tile.val
  .next (s.aluOp tile.val fl d (x.gs s'.toNat) (x.gs t.toNat) (opInt sarInt))
def execJMul (tile : Fin 68) (fl : JFlags) (d s' t : BitVec 5) (s : State) : Res :=
  let x := s.tile tile.val
  .next (s.aluOp tile.val fl d (x.gs s'.toNat) (x.gs t.toNat) (opInt (fun a b => satIf fl.sat (a * b))))
def execJMulh (tile : Fin 68) (fl : JFlags) (d s' t : BitVec 5) (s : State) : Res :=
  let x := s.tile tile.val
  .next (s.aluOp tile.val fl d (x.gs s'.toNat) (x.gs t.toNat) (opInt (fun a b => a * b / (2 ^ 32 : Nat))))
def execJMin (tile : Fin 68) (fl : JFlags) (d s' t : BitVec 5) (s : State) : Res :=
  let x := s.tile tile.val
  .next (s.aluOp tile.val fl d (x.gs s'.toNat) (x.gs t.toNat) (opInt min))
def execJMax (tile : Fin 68) (fl : JFlags) (d s' t : BitVec 5) (s : State) : Res :=
  let x := s.tile tile.val
  .next (s.aluOp tile.val fl d (x.gs s'.toNat) (x.gs t.toNat) (opInt max))
def execJClz (tile : Fin 68) (fl : JFlags) (d s' _t : BitVec 5) (s : State) : Res :=
  .next (s.aluOp tile.val fl d ((s.tile tile.val).gs s'.toNat) 0 (opBits (fun a _ => clz32 a)))
def execJMov (tile : Fin 68) (fl : JFlags) (d s' _t : BitVec 5) (s : State) : Res :=
  .next (s.aluOp tile.val fl d ((s.tile tile.val).gs s'.toNat) 0 (opInt (fun a _ => a)))

/-- Flags from a difference; no register is written (R148). -/
def State.compare (s : State) (n : Nat) (fl : JFlags) (a b : Int) : State :=
  s.jseq n fl false (fun s => .ok (s.setFlags n (toU 32 (a - b)) (opSub false a b).2))

def execJCmp (tile : Fin 68) (fl : JFlags) (_d s' t : BitVec 5) (s : State) : Res :=
  let x := s.tile tile.val
  .next (s.compare tile.val fl (x.gs s'.toNat) (x.gs t.toNat))

def execJAddi (tile : Fin 68) (fl : JFlags) (d s' : BitVec 5) (imm : BitVec 32) (s : State) : Res :=
  .next (s.aluOp tile.val fl d ((s.tile tile.val).gs s'.toNat) imm.toInt (opAdd fl.sat))
def execJAndi (tile : Fin 68) (fl : JFlags) (d s' : BitVec 5) (imm : BitVec 32) (s : State) : Res :=
  .next (s.aluOp tile.val fl d ((s.tile tile.val).gs s'.toNat) imm.toInt (opBits (· &&& ·)))
def execJOri (tile : Fin 68) (fl : JFlags) (d s' : BitVec 5) (imm : BitVec 32) (s : State) : Res :=
  .next (s.aluOp tile.val fl d ((s.tile tile.val).gs s'.toNat) imm.toInt (opBits (· ||| ·)))
def execJXori (tile : Fin 68) (fl : JFlags) (d s' : BitVec 5) (imm : BitVec 32) (s : State) : Res :=
  .next (s.aluOp tile.val fl d ((s.tile tile.val).gs s'.toNat) imm.toInt (opBits (· ^^^ ·)))
def execJShli (tile : Fin 68) (fl : JFlags) (d s' : BitVec 5) (imm : BitVec 32) (s : State) : Res :=
  .next (s.aluOp tile.val fl d ((s.tile tile.val).gs s'.toNat) imm.toInt (opBits shlBits))
def execJShri (tile : Fin 68) (fl : JFlags) (d s' : BitVec 5) (imm : BitVec 32) (s : State) : Res :=
  .next (s.aluOp tile.val fl d ((s.tile tile.val).gs s'.toNat) imm.toInt (opBits shrBits))
def execJSari (tile : Fin 68) (fl : JFlags) (d s' : BitVec 5) (imm : BitVec 32) (s : State) : Res :=
  .next (s.aluOp tile.val fl d ((s.tile tile.val).gs s'.toNat) imm.toInt (opInt sarInt))
def execJCmpi (tile : Fin 68) (fl : JFlags) (_d s' : BitVec 5) (imm : BitVec 32) (s : State) : Res :=
  .next (s.compare tile.val fl ((s.tile tile.val).gs s'.toNat) imm.toInt)

/-- LI: d = imm (R148). -/
def execJLi (tile : Fin 68) (fl : JFlags) (d _s : BitVec 5) (imm : BitVec 32) (s : State) : Res :=
  .next (s.jseq tile.val fl false (fun s => .ok (s.setGr tile.val d.toNat imm.toNat)))

/-! ## Loads and stores (R142, R146, R148, R149) -/

/-- The address of an M-format access of k bytes: aligned, and inside the data memory. -/
def Tile.mAddr (t : Tile) (a : BitVec 3) (off : BitVec 32) (k : Nat) : Except JErr Nat :=
  let p := (t.ar a.toNat).at_ off.toInt
  if p % k != 0 then .error badOperand
  else if p < 0 ∨ (dmSize : Int) < p + k then .error ⟨flMEM_RANGE, []⟩
  else .ok p.toNat

/-- After an M-format access with PU, a advances (R145). -/
def State.mPost (s : State) (n : Nat) (fl : JFlags) (a : BitVec 3) : State :=
  let t := s.tile n
  if fl.pu then s.setTile n (t.setAr a.toNat (t.ar a.toNat).post) else s

/-- A load of k bytes, sign-extended. -/
def State.mLoad (s : State) (n : Nat) (fl : JFlags) (g : BitVec 5) (a : BitVec 3) (off : BitVec 32) (k : Nat) : State :=
  s.jseq n fl true (fun s => do
    let p ← (s.tile n).mAddr a off k
    .ok ((s.setGr n g.toNat (toU 32 (s.dmInt n p k))).mPost n fl a))

/-- A store of the low k bytes of g. -/
def State.mStore (s : State) (n : Nat) (fl : JFlags) (g : BitVec 5) (a : BitVec 3) (off : BitVec 32) (k : Nat) : State :=
  s.jseq n fl false (fun s => do
    let p ← (s.tile n).mAddr a off k
    .ok ((s.dmStore n p k ((s.tile n).gr g.toNat)).mPost n fl a))

def execJLdw (tile : Fin 68) (fl : JFlags) (g : BitVec 5) (a : BitVec 3) (off : BitVec 32) (s : State) : Res :=
  .next (s.mLoad tile.val fl g a off 4)
def execJStw (tile : Fin 68) (fl : JFlags) (g : BitVec 5) (a : BitVec 3) (off : BitVec 32) (s : State) : Res :=
  .next (s.mStore tile.val fl g a off 4)
def execJLdh (tile : Fin 68) (fl : JFlags) (g : BitVec 5) (a : BitVec 3) (off : BitVec 32) (s : State) : Res :=
  .next (s.mLoad tile.val fl g a off 2)
def execJSth (tile : Fin 68) (fl : JFlags) (g : BitVec 5) (a : BitVec 3) (off : BitVec 32) (s : State) : Res :=
  .next (s.mStore tile.val fl g a off 2)

/-! ## Parameters and special registers (R143, R144) -/

/-- LDP: d = the parameter word imm[7:0] in force (R144). -/
def execJLdp (tile : Fin 68) (fl : JFlags) (d _s : BitVec 5) (imm : BitVec 32) (s : State) : Res :=
  let n := tile.val
  .next (s.jseq n fl false (fun s =>
    .ok (s.setGr n d.toNat (Table.getD (s.tile n).params (imm.toNat % 256) 0))))

/-- The 64-bit pair of special registers whose low word has index i (R143). -/
def State.sr64 (s : State) (n i : Nat) : Option Nat :=
  let t := s.tile n
  if i = 0 then some (s.now - t.started)
  else if 8 ≤ i && i < 16 && i % 2 = 0 then some (Table.getD t.rp ((i - 8) / 2) 0)
  else if 16 ≤ i && i < 24 && i % 2 = 0 then some (Table.getD t.wi ((i - 16) / 2) 0)
  else if i = 0x18 then some t.epIdx
  else if i = 0x1A then some t.swIdx
  else if i = 0x1C then some t.frIdx
  else none

/-- The 32-bit special register of index i (R143). -/
def State.sr32 (s : State) (n i : Nat) : Option Nat :=
  let t := s.tile n
  match i with
  | 2 => some (8 * b2n t.z + 4 * b2n t.n + 2 * b2n t.c + b2n t.v)
  | 3 => some (toU 32 t.exp)
  | 4 => some t.passMsb
  | 5 => some t.evp
  | 6 => some t.evm
  | 7 => some (s.groupCh n)
  | 0x1E => some t.outFree
  | 0x1F => some t.xpend
  | _ => none

/-- RDS: d = the special register imm[7:0]; a low word captures its high word (R143).  A read of a high word with no read
of its low word before gives 0, and a repeated one the last capture: R143 does not say (DESIGN CHOICE, log entry 103). -/
def execJRds (tile : Fin 68) (fl : JFlags) (d _s : BitVec 5) (imm : BitVec 32) (s : State) : Res :=
  let n := tile.val
  let i := imm.toNat % 256
  .next (s.jseq n fl false (fun s =>
    match s.sr32 n i, s.sr64 n i with
    | some v, _ => .ok (s.setGr n d.toNat v)
    | none, some v =>
      let t := s.tile n
      .ok ((s.setTile n { t with capt := Table.set 0 t.capt i (v / 2 ^ 32 % 2 ^ 32) }).setGr n d.toNat v)
    | none, none =>
      if i % 2 = 1 && (s.sr64 n (i - 1)).isSome then .ok (s.setGr n d.toNat (Table.getD (s.tile n).capt (i - 1) 0))
      else .error badOperand))

/-- WRS: EVM, the one writable special register, takes s[4:0] (R143). -/
def execJWrs (tile : Fin 68) (fl : JFlags) (_d s' : BitVec 5) (imm : BitVec 32) (s : State) : Res :=
  let n := tile.val
  .next (s.jseq n fl false (fun s => do
    need (imm.toNat % 256 == 6)
    let t := s.tile n
    .ok (s.setTile n { t with evm := t.gr s'.toNat % 32 })))

/-! ## Address registers (R142, R148) -/

/-- ACFG sets BASE, ADDR, MODE, LEN and STEP; a LEN that modes 2 and 3 cannot serve is BAD_OPERAND (R142). -/
def execJAcfg (tile : Fin 68) (fl : JFlags) (a : BitVec 3) (g : BitVec 5) (imm : BitVec 32) (s : State) : Res :=
  let n := tile.val
  .next (s.jseq n fl false (fun s => do
    let t := s.tile n
    let w := t.gr g.toNat
    let base := bits imm.toNat 20 0
    let mode := bits imm.toNat 31 30
    let len := bits w 20 0
    need (decide (mode < 2) || (match log2? len with | some k => decide (1 ≤ k) | none => false))
    .ok (s.setTile n (t.setAr a.toNat ⟨base, base, len, toS 11 (bits w 31 21) * 64, mode⟩))))

/-- AADD: ADDR moves by g + imm under the register's mode (R148). -/
def execJAadd (tile : Fin 68) (fl : JFlags) (a : BitVec 3) (g : BitVec 5) (imm : BitVec 32) (s : State) : Res :=
  let n := tile.val
  .next (s.jseq n fl false (fun s =>
    let t := s.tile n
    .ok (s.setTile n (t.setAr a.toNat ((t.ar a.toNat).move (t.gs g.toNat + imm.toInt))))))

/-- MOVA: ADDR = g[20:0] (R148). -/
def execJMova (tile : Fin 68) (fl : JFlags) (a : BitVec 3) (g : BitVec 5) (_imm : BitVec 32) (s : State) : Res :=
  let n := tile.val
  .next (s.jseq n fl false (fun s =>
    let t := s.tile n
    .ok (s.setTile n (t.setAr a.toNat { t.ar a.toNat with addr := bits (t.gr g.toNat) 20 0 }))))

/-- MOVG: g = ADDR (R148). -/
def execJMovg (tile : Fin 68) (fl : JFlags) (a : BitVec 3) (g : BitVec 5) (_imm : BitVec 32) (s : State) : Res :=
  let n := tile.val
  .next (s.jseq n fl false (fun s => .ok (s.setGr n g.toNat ((s.tile n).ar a.toNat).addr)))

end Sys2Proof.Machine
end

