-- ==== Sys2Proof/Machine/JVector.lean ====
section
/-! DEFINITION. The elementwise and copying Jextan vector instructions and the outputs of a tile (R148, R149,
R160, R161, R284). -/

namespace Sys2Proof.Machine

/-! ## Elementwise instructions (R148, R149) -/

/-- A V-format instruction: checks, effect, post-update. -/
def State.vrun (s : State) (n : Nat) (fl : JFlags) (v : JV) (body : State → JRes) : State :=
  s.jseq n fl true (fun s => do
    let s ← body s
    .ok (s.postUpdate n fl v))

/-- Saturate to 32 bits with SAT, else keep the low bits (R145). -/
def fit32 (sat : Bool) (i : Int) : Int := if sat then satS 32 i else toS 32 (toU 32 i)

/-- Elementwise R32 operation of ax and ay. -/
def State.vec2 (s : State) (n : Nat) (fl : JFlags) (v : JV) (extra : Nat) (f : Int → Int → Int) : State :=
  s.vrun n fl v (fun s => do
    let t := s.tile n
    let c := t.vcount v
    needCycles (ceilDiv c 96 + extra)
    let x := vecOp (t.ar v.ax.toNat) 4 c 64
    let y := vecOp (t.ar v.ay.toNat) 4 c 64
    let z := vecOp (t.ar v.az.toNat) 4 c 64
    checkOps [x, y] (some z) Opnd.same
    let rs := (List.range c).map (fun i => fit32 fl.sat (f (s.dmInt n (x.addr i) 4) (s.dmInt n (y.addr i) 4)))
    .ok (s.over (rs.zip (List.range c)) (fun s r => s.dmStore n (z.addr r.2) 4 (toU 32 r.1))))

/-- VADD: az = ax + ay, R32. -/
def execJVadd (tile : Fin 68) (fl : JFlags) (v : JV) (s : State) : Res :=
  .next (s.vec2 tile.val fl v 2 (· + ·))

/-- VSUB: az = ax - ay, R32. -/
def execJVsub (tile : Fin 68) (fl : JFlags) (v : JV) (s : State) : Res :=
  .next (s.vec2 tile.val fl v 2 (· - ·))

/-- VMUL: az = (ax × ay) >> param[4:0], R32. -/
def execJVmul (tile : Fin 68) (fl : JFlags) (v : JV) (s : State) : Res :=
  .next (s.vec2 tile.val fl v 4 (fun a b => a * b / (2 ^ (v.param.toNat % 32) : Nat)))

/-- Complex product a × b, or a × conj(b). -/
def cmul (conj : Bool) (a b : Int × Int) : Int × Int :=
  let bi := if conj then -b.2 else b.2
  (a.1 * b.1 - a.2 * bi, a.1 * bi + a.2 * b.1)

/-- VCMUL: az = (ax × ay) >> param[4:0], C32; XF takes conj(ay). -/
def execJVcmul (tile : Fin 68) (fl : JFlags) (v : JV) (s : State) : Res :=
  let n := tile.val
  .next (s.vrun n fl v (fun s => do
    let t := s.tile n
    let c := t.vcount v
    needCycles (ceilDiv c 48 + 4)
    let x := vecOp (t.ar v.ax.toNat) 8 c 64
    let y := vecOp (t.ar v.ay.toNat) 8 c 64
    let z := vecOp (t.ar v.az.toNat) 8 c 64
    checkOps [x, y] (some z) Opnd.same
    let d : Int := (2 ^ (v.param.toNat % 32) : Nat)
    let rs := (List.range c).map (fun i =>
      let p := cmul fl.xf (s.c32 n (x.addr i)) (s.c32 n (y.addr i))
      (fit32 fl.sat (p.1 / d), fit32 fl.sat (p.2 / d)))
    .ok (s.over (rs.zip (List.range c)) (fun s r => s.putC32 n (z.addr r.2) r.1))))

/-- A shift by a signed amount: left for a positive one, else right (log entry 33). -/
def shiftBy (x : Int) (k : Int) : Int :=
  if 0 ≤ k then x * (2 ^ (min k.toNat 64) : Nat) else x / (2 ^ (min (-k).toNat 64) : Nat)

/-- VSCALE: az = ax shifted by signed g(gp), R32 or C32 by param[0]. -/
def execJVscale (tile : Fin 68) (fl : JFlags) (v : JV) (s : State) : Res :=
  let n := tile.val
  .next (s.vrun n fl v (fun s => do
    let t := s.tile n
    let c := t.vcount v
    needCycles (ceilDiv c 96 + 2)
    let words := if bit v.param.toNat 0 then 2 else 1
    let x := vecOp (t.ar v.ax.toNat) (4 * words) c 64
    let z := vecOp (t.ar v.az.toNat) (4 * words) c 64
    checkOps [x] (some z) Opnd.same
    let k := t.gs v.gp.toNat
    let rs := ((List.range c).map (fun i => (List.range words).map (fun w =>
      (z.addr i + 4 * w, fit32 fl.sat (shiftBy (s.dmInt n (x.addr i + 4 * w) 4) k))))).flatten
    .ok (s.over rs (fun s r => s.dmStore n r.1 4 (toU 32 r.2)))))

/-- The formats of R140, whose codes in VCONV's param the manual does not give: the size of an element, and
whether it is complex, and signed. -/
def fmtSize (f : Nat) : Nat :=
  match f with
  | 0 => 2 | 1 => 4 | 2 => 8 | 3 => 4 | 4 => 2 | 5 => 8 | _ => 16
def fmtComplex (f : Nat) : Bool := f == 2 || f == 6
def fmtSigned (f : Nat) : Bool := f != 3 && f != 4
def fmtBits (f : Nat) : Nat :=
  match f with
  | 0 => 16 | 1 => 32 | 2 => 32 | 3 => 32 | 4 => 16 | _ => 48

/-- The real and imaginary parts of an element in format f. -/
def State.fmtLoad (s : State) (n a f : Nat) : Int × Int :=
  let part := fun (p : Nat) (k : Nat) => if fmtSigned f then s.dmInt n p k else (s.dmLoad n p k : Int)
  match f with
  | 2 => s.c32 n a
  | 5 => (s.a48 n a, 0)
  | 6 => (s.a48 n a, s.a48 n (a + 8))
  | _ => (part a (fmtSize f), 0)

/-- A part limited to the format: saturated with SAT, else its low bits. -/
def fmtFit (sat : Bool) (f : Nat) (i : Int) : Int :=
  let w := fmtBits f
  if fmtSigned f then (if sat then satS w i else toS w (toU w i))
  else if sat then clampI 0 (2 ^ w - 1 : Nat) i else toU w i

/-- Store an element in format f. -/
def State.fmtStore (s : State) (n a f : Nat) (x : Int × Int) : State :=
  match f with
  | 2 => s.putC32 n a x
  | 5 => s.putA48 n a x.1
  | 6 => (s.putA48 n a x.1).putA48 n (a + 8) x.2
  | _ => s.dmStore n a (fmtSize f) (toU (8 * fmtSize f) x.1)

/-- VCONV: n elements from one format to another.  Which formats a param value names, and what a conversion
between a real and a complex format gives, the manual does not state: free values.  Between real formats the integer
value is copied, also from and to L16 and P32, whose units differ: R148 says no more than `converts` (DESIGN CHOICE, log
entry 103). -/
def execJVconv (tile : Fin 68) (fl : JFlags) (v : JV) (s : State) : Res :=
  let n := tile.val
  let p : Int := (v.param.toNat % 256 : Nat)
  let from_ := Config.free "source format of VCONV" [p] 0 % 7
  let into := Config.free "destination format of VCONV" [p] 0 % 7
  .next (s.vrun n fl v (fun s => do
    let t := s.tile n
    let c := t.vcount v
    needCycles (ceilDiv c 96 + 2)
    let x := vecOp (t.ar v.ax.toNat) (fmtSize from_) c (if from_ = 0 then 2 else 64)
    let z := vecOp (t.ar v.az.toNat) (fmtSize into) c 64
    checkOps [x] (some z) noneEqual
    let rs := (List.range c).map (fun i => s.fmtLoad n (x.addr i) from_)
    .ok (s.over (rs.zip (List.range c)) (fun s r =>
      if fmtComplex from_ = fmtComplex into then
        s.fmtStore n (z.addr r.2) into (fmtFit fl.sat into r.1.1, fmtFit fl.sat into r.1.2)
      else
        let (a, s) := s.draw "VCONV between real and complex" [r.1.1, r.1.2]
        let (b, s) := s.draw "VCONV between real and complex" [r.1.1, r.1.2]
        s.fmtStore n (z.addr r.2) into (a, b)))))

/-- CDOT: CA48 at az = sum of ax × ay, or conj(ay) with XF.  A sum outside 48 bits is not stated: free. -/
def execJCdot (tile : Fin 68) (fl : JFlags) (v : JV) (s : State) : Res :=
  let n := tile.val
  .next (s.jseq n fl true (fun s => do
    let t := s.tile n
    let c := t.vcount v
    needCycles (ceilDiv c 48 + 6)
    let x := vecOp (t.ar v.ax.toNat) 8 c 64
    let y := vecOp (t.ar v.ay.toNat) 8 c 64
    let z := linOp (t.ar v.az.toNat) 16 64
    checkOps [x, y] (some z) noneEqual
    let ps := (List.range c).map (fun i => cmul fl.xf (s.c32 n (x.addr i)) (s.c32 n (y.addr i)))
    let put := fun (s : State) (i : Nat) (r : Int) =>
      if satS 48 r = r then s.opPut n z i (leBytes 8 (toU 64 r))
      else
        let (f, s) := s.draw "CDOT sum beyond 48 bits" [r]
        s.opPut n z i (leBytes 8 (toU 64 (toS 48 f)))
    .ok (put (put s 0 (isum (ps.map (·.1)))) 8 (isum (ps.map (·.2))))))

/-- BCOPY: n 8-byte words from ax to az, 1 to 65,536. -/
def execJBcopy (tile : Fin 68) (fl : JFlags) (v : JV) (s : State) : Res :=
  let n := tile.val
  .next (s.vrun n fl v (fun s => do
    let t := s.tile n
    let c := t.vcount v
    need (1 ≤ c && c ≤ 65536)
    let x := vecOp (t.ar v.ax.toNat) 8 c 64
    let z := vecOp (t.ar v.az.toNat) 8 c 64
    checkOps [x] (some z) noneEqual
    let rs := (List.range c).map (fun i => s.dmLoad n (x.addr i) 8)
    .ok (s.over (rs.zip (List.range c)) (fun s r => s.dmStore n (z.addr r.2) 8 r.1))))

/-- FILL: g(gp), sign-extended, into n 8-byte words at az. -/
def execJFill (tile : Fin 68) (fl : JFlags) (v : JV) (s : State) : Res :=
  let n := tile.val
  .next (s.jseq n fl false (fun s => do
    let t := s.tile n
    let c := t.vcount v
    need (1 ≤ c && c ≤ 65536)
    let z := vecOp (t.ar v.az.toNat) 8 c 64
    checkOps [] (some z) noneEqual
    .ok ((s.over (List.range c) (fun s i =>
      s.dmStore n (z.addr i) 8 (toU 64 (t.gs v.gp.toNat)))).postUpdate n fl v)))

/-! ## Outputs (R160, R161, R284) -/

/-- Queue an item with its source bytes; Z tells whether it was queued. -/
def State.queueItem (s : State) (n : Nat) (d : ItemDest) (bs : List Byte) : State :=
  let (ok, s) := s.outPut n d bs
  s.setZ n ok

/-- The number of bytes that a queueing instruction may copy in 8,192 cycles. -/
def needOut (bytes : Nat) : Except JErr Unit := needCycles (2 + ceilDiv bytes 1024)

/-- SPOUT: a 64-byte header at ay and n × 64 bytes at ax to Hall route param[7:0] (R160). -/
def execJSpout (tile : Fin 68) (fl : JFlags) (v : JV) (s : State) : Res :=
  let n := tile.val
  .next (s.vrun n fl v (fun s => do
    let t := s.tile n
    let c := 64 * t.vcount v
    needOut (64 + c)
    let x := blkOp (t.ar v.ax.toNat) (t.vcount v)
    let y := linOp (t.ar v.ay.toNat) 64 64
    checkOps [x, y] none noneEqual
    .ok (s.queueItem n (.route (v.param.toNat % 256)) (s.opBytes n y 0 64 ++ s.opBytes n x 0 c))))

/-- The physical address in g(gp + 1):g(gp); a gp of 31 names no second register. -/
def Tile.physAddr (t : Tile) (gp : Nat) : Except JErr Nat :=
  if gp = 31 then .error badOperand else .ok (t.gr gp + t.gr (gp + 1) * 2 ^ 32)

/-- XMIT: n × 64 bytes at ax for writing to a physical address (R160). -/
def execJXmit (tile : Fin 68) (fl : JFlags) (v : JV) (s : State) : Res :=
  let n := tile.val
  .next (s.vrun n fl v (fun s => do
    let t := s.tile n
    let c := 64 * t.vcount v
    needOut c
    let a ← t.physAddr v.gp.toNat
    let x := blkOp (t.ar v.ax.toNat) (t.vcount v)
    checkOps [x] none noneEqual
    .ok (s.queueItem n (.phys a) (s.opBytes n x 0 c))))

/-- XCH: n × 64 bytes at ax to the exchange partner of route param[7:0] (R160, R264). -/
def execJXch (tile : Fin 68) (fl : JFlags) (v : JV) (s : State) : Res :=
  let n := tile.val
  .next (s.vrun n fl v (fun s => do
    let t := s.tile n
    let c := 64 * t.vcount v
    needOut c
    let x := blkOp (t.ar v.ax.toNat) (t.vcount v)
    checkOps [x] none noneEqual
    .ok (s.queueItem n (.exchange (v.param.toNat % 256)) (s.opBytes n x 0 c))))

/-- XLD requests n × 64 bytes from a physical address into az (R161). -/
def execJXld (tile : Fin 68) (fl : JFlags) (v : JV) (s : State) : Res :=
  let n := tile.val
  .next (s.jseq n fl false (fun s => do
    let t := s.tile n
    let a ← t.physAddr v.gp.toNat
    checkOps [] (some (blkOp (t.ar v.az.toNat) (t.vcount v))) noneEqual
    .ok (s.setTile n { t with xlds := t.xlds ++ [⟨a, t.ar v.az.toNat, t.vcount v⟩] })))

/-- The candidate event of lane l of tile n with sample offset `ofs`: its code and carried time (R283,
R284). -/
def State.candidate (s : State) (n l k : Nat) (ofs : Int) : Nat × Nat :=
  let c := s.groupCh n + l
  let i := ((Table.getD (s.tile n).rp l 0 : Nat) : Int) + ofs
  (8 * c + k, s.sampleTime (c / 32) i.toNat)

/-- TRGC: candidate param[2:0] of the lane with sample offset g(gp) goes to the candidate port (R160,
R284). -/
def execJTrgc (tile : Fin 68) (fl : JFlags) (v : JV) (s : State) : Res :=
  let n := tile.val
  .next (s.jseq n fl false (fun s =>
    let x := s.candidate n v.lane.toNat (v.param.toNat % 8) ((s.tile n).gs v.gp.toNat)
    .ok (s.candPut n x.1 x.2)))

end Sys2Proof.Machine
end

