-- ==== Sys2Proof/Machine/Trig.lean ====
section
/-! DEFINITION. Cosine, sine and decimal logarithm as integers: what the transform, NCO and LOG formulas of
R150, R153 and R225 need.  Results are exact to the last bits of a 96-bit fraction. -/

namespace Sys2Proof.Machine

/-- Fraction bits of the fixed-point numbers here. -/
def fxBits : Nat := 120

/-- pi × 2^120, truncated. -/
def piFx : Nat := 0x3243F6A8885A308D313198A2E037073

/-- The terms of a Taylor series in x^2, each from the one before by × x^2 / (k (k + 1)), summed with
alternating sign. -/
def taylor : Nat → Int → Int → Nat → Int
  | 0, _, _, _ => 0
  | f + 1, x2, t, k => t - taylor f x2 (t * x2 / (2 ^ fxBits : Nat) / (k * (k + 1) : Nat)) (k + 2)

/-- Cosine and sine of the angle 2 × pi × a / (8 × d), for a ≤ d: the first octant. -/
def octant (a d : Nat) : Int × Int :=
  let x : Int := (piFx * a / (4 * d) : Nat)
  let x2 := x * x / (2 ^ fxBits : Nat)
  if a = 0 then ((2 ^ fxBits : Nat), 0)
  else (taylor 24 x2 (2 ^ fxBits : Nat) 1, taylor 24 x2 x 2)

/-- Cosine and sine of 2 × pi × k / d, d a multiple of 8, scaled by 2^120.  Every octant is reduced to the
first, so that symmetric angles give symmetric values. -/
def cosSin (k d : Nat) : Int × Int :=
  let e := d / 8
  let k := k % d
  let r := k % e
  match k / e with
  | 0 => octant r e
  | 1 => let p := octant (e - r) e; (p.2, p.1)
  | 2 => let p := octant r e; (-p.2, p.1)
  | 3 => let p := octant (e - r) e; (-p.1, p.2)
  | 4 => let p := octant r e; (-p.1, -p.2)
  | 5 => let p := octant (e - r) e; (-p.2, -p.1)
  | 6 => let p := octant r e; (p.2, -p.1)
  | _ => let p := octant (e - r) e; (p.1, -p.2)

/-- round(2,560 × log10(p)) for p ≥ 1: the greatest n with 10^(2n - 1) ≤ p^5120. -/
def log2560 (p : Nat) : Nat :=
  let q := p ^ 5120
  (List.range 16).foldl (fun n i =>
    let c := n + 2 ^ (15 - i)
    if 10 ^ (2 * c - 1) ≤ q then c else n) 0

end Sys2Proof.Machine
end

