-- ==== Sys2Proof/Machine/JSpectral.lean ====
section
/-! DEFINITION. The transforms, the detector, mixing and decimation (R150 to R153, R224 to R229, R237). -/

namespace Sys2Proof.Machine

/-! ## Rings as sources (R134, R135, R225) -/

/-- Blocks of lane l's ring: B. -/
def State.ringB (s : State) (n l : Nat) : Nat := 2 ^ s.fld GT_RING.B_LOG2 (4 * n + l)
def State.ringBase (s : State) (n l : Nat) : Nat := 64 * s.fld GT_RING.BASE (4 * n + l)

/-- The sample index at data-memory byte a of lane l's ring: the one index from RP on whose ring position
is a (R225); none when a lies outside the sample part. -/
def State.ringIndex (s : State) (n l a : Nat) : Option Nat :=
  let b := s.ringB n l
  let base := s.ringBase n l
  if base ≤ a && a < base + 160 * b then
    let pos := (a - base) / 2
    let rp := Table.getD (s.tile n).rp l 0
    let len := 80 * b
    some (rp + (pos + len - rp % len) % len)
  else none

/-- The sample index of an operand's first element, where its elements are consecutive samples of lane l's ring (R225). -/
def State.ringRun (s : State) (n l : Nat) (x : Opnd) : Option Nat :=
  let len := 160 * s.ringB n l
  let base := s.ringBase n l
  let along := (List.range x.n).all (fun i => x.addr i == base + (x.start - base + 2 * i) % len)
  if along then s.ringIndex n l x.start else none

/-- The tag in the slot of block b on lane l; none where the slot holds another block. -/
def State.ringTag (s : State) (n l b : Nat) : Option Nat :=
  let bb := s.ringB n l
  let t := s.dmLoad n (s.ringBase n l + 160 * bb + 8 * (b % bb)) 8
  if bits t 63 24 = b % 2 ^ 40 then some t else none

/-- Flags [1] OVR, [2] NBR, [3] PROT, [4] STALE, [5] SPARE, [6] GAP over the blocks that overlap samples
[a, e), and the worst CLKQ (R151). -/
def State.windowFlags (s : State) (n l a e : Nat) : Nat × Nat :=
  if e ≤ a then (0, 0)
  else (List.range ((e - 1) / 80 - a / 80 + 1)).foldl (fun (acc : Nat × Nat) i =>
    match s.ringTag n l (a / 80 + i) with
    | none => acc
    | some t =>
      if bits t 23 20 != 0 then (acc.1 ||| 64, acc.2)
      else
        (acc.1 ||| 2 * b2n (bits t 9 0 != 0) ||| 4 * b2n (bit t 10) ||| 8 * b2n (bit t 19) |||
          16 * b2n (bit t 11) ||| 32 * b2n (bit t 12), max acc.2 (bits t 14 13))) (0, 0)

/-! ## Transforms (R150 to R152) -/

/-- The exact transform of N complex values, scaled by 2^120: X[k], with exp(+j) for an inverse. -/
def dftAt (inv : Bool) (xs : List (Int × Int)) (k : Nat) : Int × Int :=
  let d := xs.length
  (xs.zip (List.range d)).foldl (fun (acc : Int × Int) e =>
    let cs := cosSin (k * e.2 % d) d
    let sn := if inv then cs.2 else -cs.2
    (acc.1 + e.1.1 * cs.1 - e.1.2 * sn, acc.2 + e.1.1 * sn + e.1.2 * cs.1)) (0, 0)

/-- The largest real or imaginary magnitude. -/
def peakMag (xs : List (Int × Int)) : Nat := xs.foldl (fun m x => max m (max x.1.natAbs x.2.natAbs)) 0

/-- What the rounding inside the passes may move a component of a bin by, relative to the largest component: half a unit
of each of the 64 inputs of the last pass, 2^-10 of it, and with three passes also of the 4,096 that the last two
combine, 2^-4 (log entry 34). -/
def passSlack (p peak : Nat) : Nat :=
  match p with
  | 0 => 0
  | 1 => 0
  | 2 => peak / 2 ^ 10
  | _ => peak / 2 ^ 10 + peak / 2 ^ 4

/-- Leading-one positions of the passes that are left, `n` of them, with the given sum: each lies in 15 to 23, since a
pass of at most 64 inputs scales the largest component, 2^16 to 2^17, by 2^-1/2 at least and 64 × 2^1/2 at most; the free
value picks among those that leave a sum that the others can make (R152; log entry 34). -/
def passMsbs : Nat → Int → Nat → List Nat
  | 0, _, _ => []
  | 1, sum, _ => [sum.toNat]
  | n + 2, sum, f =>
    let rest : Int := (n + 1 : Nat)
    let lo := max 15 (sum - 23 * rest)
    let hi := min 23 (sum - 15 * rest)
    let l := (lo + ((f % ((hi - lo).toNat + 1) : Nat) : Int)).toNat
    l :: passMsbs (n + 1) (sum - (l : Int)) (f / 16)

/-- A bin moved by free deviations of at most `lim` in each part. -/
def passRound (lim draw k : Nat) (x : Int × Int) : Int × Int :=
  let dev := fun (part : Nat) =>
    ((Config.free "rounding inside the passes" [(k : Nat), (part : Nat)] draw % (2 * lim + 1) : Nat) : Int) - lim
  (x.1 + dev 0, x.2 + dev 1)

/-- One transform of the given elements: mantissas of the bins, EXP, PASS_MSB, and whether it is all zero.
Stage 0 and the last stage are normalised as R152 states; the rounding inside passes before the last is a free
deviation, and the leading-one positions of passes 1 to P are free values whose sum makes EXP that of R152 (log entry
34). -/
def State.transform (s : State) (inv real : Bool) (e0 : Int) (xs : List (Int × Int)) :
    (List (Int × Int) × Int × Nat × Bool) × State :=
  let m := if real then xs.length / 2 else xs.length
  let p := ceilDiv (topBit m) 6
  let l0 := topBit (peakMag xs)
  let s0 : Int := (l0 : Int) - 16
  let (f, s) := s.draw "PASS_MSB" (xs.map (·.1))
  if peakMag xs = 0 then ((List.replicate m (0, 0), -128, f % 2 ^ 32, true), s)
  else
    let ys := xs.map (fun x => (shiftRound x.1 s0, shiftRound x.2 s0))
    let bins := (List.range m).map (dftAt inv ys)
    let bins := if real then
        match bins with
        | b0 :: rest => (b0.1, (dftAt inv ys m).1) :: rest
        | [] => []
      else bins
    let bins := (bins.zip (List.range m)).map (fun e => passRound (passSlack p (peakMag bins)) s.free e.2 e.1)
    let top : Int := (topBit (peakMag bins) : Int) - fxBits
    let s1 := top - 16
    let out := bins.map (fun x => (shiftRound x.1 (s1 + fxBits), shiftRound x.2 (s1 + fxBits)))
    let msb := ofLe ((l0 :: passMsbs p (s1 + 16 * p) f).map (BitVec.ofNat 8 ·))
    ((out, e0 + s0 + s1, msb, false), s)

/-- The trailer of a spectrum slot (R151). -/
def slotTrailer (exp : Int) (flags clkq msb first : Nat) : List Byte :=
  leBytes 2 (toU 16 exp) ++ leBytes 1 flags ++ leBytes 1 clkq ++ leBytes 4 msb ++ leBytes 8 first ++ zeros 48

/-- The transforms FFTR (real), FFTC and IFFTC (R150).  A window coefficient outside the codes 0 to 131,071 of R140 is read
as an unsigned number of 32 bits: its value is not stated (DESIGN CHOICE, log entry 103). -/
def State.fft (s : State) (n : Nat) (fl : JFlags) (v : JV) (real inv : Bool) : State :=
  s.vrun n fl v (fun s => do
    let t := s.tile n
    let l := v.lane.toNat
    let lg := v.param.toNat % 32
    need (6 ≤ lg && lg ≤ 16)
    let len := 2 ^ lg
    let bt := t.vcount v
    need (1 ≤ bt && bt ≤ 4096)
    need (!real || s.ringEn n l)
    let m := if real then len / 2 else len
    needCycles (bt * ceilDiv (topBit m) 6 * ceilDiv m 64 + 32)
    let hop := if v.gp = 0 then len else t.gr v.gp.toNat
    need (1 ≤ hop && hop ≤ 65536)
    let es := if real then 2 else 8
    let ax := t.ar v.ax.toNat
    let az := t.ar v.az.toNat
    let x := vecOp ax es (hop * (bt - 1) + len) (if real then 2 else 64)
    let w := vecOp (t.ar v.ay.toNat) 4 len 64
    let win := fl.xf && !inv
    let slots := linOp az (bt * (8 * m + 64)) 64
    let scratch := linFrom az (bt * (8 * m + 64)) (8 * m) 64
    -- R237: the scratch lies clear of the source, or coincides with it when Bt = 1
    need (!scratch.meets x || (!real && bt == 1 && scratch.ext == x.ext))
    checkOps (if win then [x, w] else [x]) (some slots) noneEqual
    checkOps (if win then [w] else []) (some scratch) noneEqual
    let first := fun (b : Nat) => if real then (s.ringIndex n l x.start).map (· + hop * b) else none
    let src := fun (b i : Nat) =>
      let a := ax.elem es (hop * b + i)
      let e := if real then (s.dmInt n a 2, (0 : Int)) else s.c32 n a
      if win then
        let c : Int := (s.dmLoad n (w.addr i) 4 : Nat)
        (e.1 * c, e.2 * c)
      else e
    let e0 : Int := if win then -17 else 0
    let data := (List.range bt).map (fun b =>
      ((List.range len).map (src b),
       match first b with
       | some i => (s.windowFlags n l i (i + len), i)
       | none => ((0, 0), 2 ^ 64 - 1)))
    let s := s.over ((List.range bt).zip data) (fun s e =>
      let (r, s) := s.transform inv real e0 e.2.1
      let a := e.1 * (8 * m + 64)
      let s := s.over (r.1.zip (List.range m)) (fun s y => s.putC32 n (slots.addr (a + 8 * y.2)) y.1)
      let s := s.opPut n slots (a + 8 * m)
        (slotTrailer r.2.1 (e.2.2.1.1 + b2n r.2.2.2) e.2.2.1.2 r.2.2.1 e.2.2.2)
      s.setTile n { s.tile n with exp := r.2.1, passMsb := r.2.2.1 })
    .ok (s.partly n scratch.bytesOf))

/-- FFTR: a batch of real-input transforms (R150). -/
def execJFftr (tile : Fin 68) (fl : JFlags) (v : JV) (s : State) : Res := .next (s.fft tile.val fl v true false)

/-- FFTC: a batch of complex transforms (R150). -/
def execJFftc (tile : Fin 68) (fl : JFlags) (v : JV) (s : State) : Res := .next (s.fft tile.val fl v false false)

/-- IFFTC: a batch of inverse complex transforms (R150). -/
def execJIfftc (tile : Fin 68) (fl : JFlags) (v : JV) (s : State) : Res := .next (s.fft tile.val fl v false true)

/-! ## Detector (R153) -/

/-- A detector header: exponent, SAT, spectra added. -/
def detHeader (exp : Int) (sat : Bool) (count : Nat) : List Byte :=
  leBytes 2 (toU 16 exp) ++ leBytes 1 (b2n sat) ++ zeros 1 ++ leBytes 4 count ++ zeros 56

/-- The 48-bit saturation of AVG: the sum, and whether it was limited. -/
def satAcc (x : Int) : Int × Bool := (satS 48 x, satS 48 x != x)

/-- The alignment rule: a stored value and a new one brought to the exponent that the header keeps. -/
def alignTo (ea e : Int) (old new : Int) : Int × Int :=
  if e ≤ ea then (old, shiftRound new (ea - e)) else (shiftRound old (e - ea), new)

/-- Signed number of k bytes in a list of bytes. -/
def leInt (bs : List Byte) (a k : Nat) : Int := toS (8 * k) (le bs a k)

/-- DET: power, logarithm, average or peak of a spectrum slot (R153). -/
def execJDet (tile : Fin 68) (fl : JFlags) (v : JV) (s : State) : Res :=
  let n := tile.val
  .next (s.vrun n fl v (fun s => do
    let t := s.tile n
    let m := t.vcount v
    needCycles (ceilDiv m 256 + 4)
    let mode := v.param.toNat % 4
    let es := match mode with | 1 => 2 | 2 => 8 | _ => 4
    let x := linOp (t.ar v.ax.toNat) (8 * m + 64) 64
    let z := linOp (t.ar v.az.toNat) (64 + es * m) 64
    checkOps [x] (some z) noneEqual
    let e := s.dmInt n (x.addr (8 * m)) 2
    let hdr := s.opBytes n z 0 64
    let ea := leInt hdr 0 2
    let count := le hdr 4 4
    let power := fun (i : Nat) =>
      let c := s.c32 n (x.addr (8 * i))
      c.1 * c.1 + c.2 * c.2
    let ps := (List.range m).map power
    let at_ := fun (i : Nat) => z.addr (64 + es * i)
    let write := fun (s : State) (vals : List Int) =>
      s.over (vals.zip (List.range m)) (fun s y => s.dmStore n (at_ y.2) es (toU (8 * es) y.1))
    match mode with
    | 0 => .ok ((write s (ps.map (· / 8))).opPut n z 0 (detHeader (2 * e + 3) false 1))
    | 1 => .ok ((write s (ps.map (fun p => (log2560 (max p 1).toNat : Nat)))).opPut n z 0
        (detHeader (2 * e) false 1))
    | 2 =>
      if fl.xf then .ok ((write s ps).opPut n z 0 (detHeader (2 * e) false 1))
      else
        let sums := (ps.zip (List.range m)).map (fun y =>
          let al := alignTo ea (2 * e) (s.a48 n (at_ y.2)) y.1
          satAcc (al.1 + al.2))
        let sat := bit (le hdr 2 1) 0 || sums.any (·.2)
        .ok ((write s (sums.map (·.1))).opPut n z 0 (detHeader (max ea (2 * e)) sat (count + 1)))
    | _ =>
      if fl.xf then .ok ((write s (ps.map (· / 8))).opPut n z 0 (detHeader (2 * e + 3) false 1))
      else
        let ms := (ps.zip (List.range m)).map (fun y =>
          let al := alignTo ea (2 * e + 3) (s.dmLoad n (at_ y.2) 4 : Nat) (y.1 / 8)
          max al.1 al.2)
        .ok ((write s ms).opPut n z 0 (detHeader (max ea (2 * e + 3)) (bit (le hdr 2 1) 0) (count + 1)))))

/-- XSPEC: CA48 az += ax × conj(ay) per bin of two spectrum slots, aligned as AVG (R148, R153). -/
def execJXspec (tile : Fin 68) (fl : JFlags) (v : JV) (s : State) : Res :=
  let n := tile.val
  .next (s.vrun n fl v (fun s => do
    let t := s.tile n
    let m := t.vcount v
    needCycles (ceilDiv m 48 + 4)
    let x := linOp (t.ar v.ax.toNat) (8 * m + 64) 64
    let y := linOp (t.ar v.ay.toNat) (8 * m + 64) 64
    let z := linOp (t.ar v.az.toNat) (64 + 16 * m) 64
    checkOps [x, y] (some z) noneEqual
    let e := s.dmInt n (x.addr (8 * m)) 2 + s.dmInt n (y.addr (8 * m)) 2
    let hdr := s.opBytes n z 0 64
    let ea := leInt hdr 0 2
    let sums := (List.range m).map (fun i =>
      let p := cmul true (s.c32 n (x.addr (8 * i))) (s.c32 n (y.addr (8 * i)))
      let part := fun (old new : Int) =>
        if fl.xf then satAcc new
        else
          let al := alignTo ea e old new
          satAcc (al.1 + al.2)
      (part (s.a48 n (z.addr (64 + 16 * i))) p.1, part (s.a48 n (z.addr (72 + 16 * i))) p.2))
    let s' := s.over (sums.zip (List.range m)) (fun s y =>
      (s.putA48 n (z.addr (64 + 16 * y.2)) y.1.1.1).putA48 n (z.addr (72 + 16 * y.2)) y.1.2.1)
    let sat := sums.any (fun y => y.1.2 || y.2.2)
    .ok (s'.opPut n z 0
      (if fl.xf then detHeader e sat 1
       else detHeader (max ea e) (sat || bit (le hdr 2 1) 0) (le hdr 4 4 + 1)))))

/-! ## Mixing (R224 to R227) -/

/-- The mixed value of a sample x at phase theta (R225). -/
def ncoMix (x : Int) (theta : Nat) : Int × Int :=
  let cs := cosSin theta (2 ^ 48)
  (rdiv (32 * x * cs.1) (2 ^ fxBits), rdiv (-32 * x * cs.2) (2 ^ fxBits))

/-- Theta of sample s on NCO x of tile n: the old pair below the latest change (R226). -/
def State.ncoTheta (s : State) (n x i : Nat) : Nat :=
  let t := s.tile n
  match Table.getD t.ncoOld x none with
  | some o => if i < o.from_ then (o.phOfs + o.freq * i) % 2 ^ 48
              else (Table.getD t.phOfs x 0 + s.ncoFreq n x * i) % 2 ^ 48
  | none => (Table.getD t.phOfs x 0 + s.ncoFreq n x * i) % 2 ^ 48

/-- NCO: mixes n ring samples by the lane's NCO param[1:0] (R225). -/
def execJNco (tile : Fin 68) (fl : JFlags) (v : JV) (s : State) : Res :=
  let n := tile.val
  let l := v.lane.toNat
  .next (s.vrun n fl v (fun s => do
    let t := s.tile n
    let c := t.vcount v
    need (1 ≤ c && c ≤ 65536 && v.param.toNat < 4 && s.ringEn n l)
    needCycles (ceilDiv c 48 + 4)
    let x := vecOp (t.ar v.ax.toNat) 2 c 2
    let z := vecOp (t.ar v.az.toNat) 8 c 64
    checkOps [x] (some z) Opnd.sameStart
    match s.ringRun n l x with
    | none => .error badOperand
    | some s0 =>
      let rs := (List.range c).map (fun i =>
        ncoMix (s.dmInt n (x.addr i) 2) (s.ncoTheta n (4 * l + v.param.toNat) (s0 + i)))
      .ok (s.over (rs.zip (List.range c)) (fun s r => s.putC32 n (z.addr r.2) r.1))))

/-! ## Decimation (R228, R229) -/

/-- Taps of each filter (R229). -/
def decimTaps (f : Nat) : Nat :=
  match f with
  | 0 => 7 | 1 => 11 | 2 => 19 | 3 => 47 | _ => 95

/-- Tap i of filter f, in 2^-32, of a half-band filter: the centre is one half, the taps at an even distance from it
are 0, and the others, whose values are not in the manual, are symmetric and give a DC gain of exactly 1 (R229). -/
def decimTap (f i : Nat) : Int :=
  let mid := decimTaps f / 2
  let far := fun (d : Nat) => Config.halfBandTap (128 * f + d)
  let d := if i < mid then mid - i else i - mid
  if d = 0 then 2 ^ 31
  else if d % 2 = 0 then 0
  else if d = 1 then 2 ^ 30 - isum (((List.range (mid + 1)).filter (fun d => d % 2 = 1 && 1 < d)).map far)
  else far d

/-- DECIM: half-band decimation by 2 (R228). -/
def execJDecim (tile : Fin 68) (fl : JFlags) (v : JV) (s : State) : Res :=
  let n := tile.val
  let p := v.param.toNat
  let f := bits p 3 0
  let key := 12 * v.lane.toNat + bits p 11 8
  .next (s.vrun n fl v (fun s => do
    let t := s.tile n
    let c := t.vcount v
    need (c % 2 = 0 && 2 ≤ c && c ≤ 65536 && f < 5 && bits p 11 8 < 12)
    needCycles (ceilDiv c 64 + 4)
    let x := vecOp (t.ar v.ax.toNat) 8 c 64
    let z := vecOp (t.ar v.az.toNat) 8 (c / 2) 64
    checkOps [x] (some z) noneEqual
    let old := if bit p 12 then [] else Table.getD t.slots key []
    let ins := (List.range c).map (fun i => s.c32 n (x.addr i))
    let u := fun (i : Int) => if 0 ≤ i then nth ins i.toNat (0, 0) else nth old ((-1 - i).toNat) (0, 0)
    let taps := decimTaps f
    let sum := fun (j : Nat) (part : Int × Int → Int) =>
      rdiv ((2 ^ bits p 5 4 : Nat) *
        isum ((List.range taps).map (fun (t : Nat) => decimTap f t * part (u (2 * (j : Int) - (t : Int)))))) (2 ^ 32)
    let outs := (List.range (c / 2)).map (fun j => (sum j (·.1), sum j (·.2)))
    let lim := clampI (-131071) 131071
    let sats := outs.foldl (fun k y => k + b2n (lim y.1 != y.1) + b2n (lim y.2 != y.2)) 0
    let s := s.over (outs.zip (List.range (c / 2))) (fun s y =>
      s.putC32 n (z.addr y.2) (lim y.1.1, lim y.1.2))
    let s := s.addFld GT_DSP_SAT.COUNT n sats
    let t := s.tile n
    .ok (s.setTile n { t with slots := Table.set [] t.slots key ((ins.reverse ++ old).take 94) })))

end Sys2Proof.Machine
end

