-- ==== Sys2Proof/Machine/JPulse.lean ====
section
/-! DEFINITION. Mask comparison, threshold hits and pulse features (R290 to R297). -/

namespace Sys2Proof.Machine

/-! ## MASKC (R290, R291) -/

/-- 256 × 3.0103 × e, rounded to 1/256 dB. -/
def expDb (e : Int) : Int := rdiv (256 * 30103 * e) 10000

/-- One mask entry after a bin of level `lev` (1/256 dB; none: minus infinity, R239): above, below, RUN (R291). -/
def maskBin (upper lower ofs hyst : Int) (lev : Option Int) (wasAbove wasBelow : Bool) (run : Nat) :
    Bool × Bool × Nat :=
  -- limits in 1/10 dB are compared with the level in 1/2,560 dB
  let up := 256 * (upper + ofs)
  let lo := 256 * (lower + ofs)
  let h := 256 * hyst
  let above := upper != 0x7fff && (match lev with
    | some x => decide ((if wasAbove then up - h else up) < 10 * x)
    | none => false)
  let below := lower != -0x8000 && (match lev with
    | some x => decide (10 * x < (if wasBelow then lo + h else lo))
    | none => true)
  (above, below, if above || below then min (run + 1) 65535 else 0)

/-- The level of LOG bin i with code `bin` (L_log of R239).  A code of 0 is that of the mantissa powers 0, whose level is
minus infinity, and 1 (R153): which of them it was is free. -/
def logLevel (draw i bin : Nat) (ofs : Int) : Option Int :=
  if bin = 0 && Config.free "mantissa power of a LOG bin of code 0" [(i : Nat)] draw % 2 = 0 then none
  else some (bin + ofs)

/-- MASKC: compares n LOG bins at ax with the mask table at ay (R291). -/
def execJMaskc (tile : Fin 68) (fl : JFlags) (v : JV) (s : State) : Res :=
  let n := tile.val
  .next (s.vrun n fl v (fun s => do
    let t := s.tile n
    let c := t.vcount v
    need (1 ≤ c && c ≤ 65536 && v.param.toNat < 2 && v.az == 0 && v.gp != 31)
    needCycles (ceilDiv c 256 + 4)
    let x := linOp (t.ar v.ax.toNat) (64 + 2 * c) 64
    let y := linOp (t.ar v.ay.toNat) (64 + 8 * c) 64
    checkOps [x] (some y) noneEqual
    let ed := s.dmInt n (x.addr 0) 2
    let ref : Int := (s.dmLoad n (y.addr 0) 2 : Nat)
    let sc := s.dmInt n (y.addr 2) 1
    let qual := s.dmLoad n (y.addr 4) 2
    let hyst : Int := (s.dmLoad n (y.addr 6) 2 : Nat)
    let ofs := s.dmInt n (y.addr 8) 2
    need (qual != 0)
    let clr := bit v.param.toNat 0
    let rs := (List.range c).map (fun i =>
      let a := y.addr (64 + 8 * i)
      let lev := logLevel s.free i (s.dmLoad n (x.addr (64 + 2 * i)) 2) (expDb (ed - 2 * sc) - ref)
      let st := if clr then 0 else s.dmLoad n (a + 6) 1
      maskBin (s.dmInt n a 2) (s.dmInt n (a + 2) 2) ofs hyst lev (bit st 0) (bit st 1)
        (if clr then 0 else s.dmLoad n (a + 4) 2))
    let s := ({ s with free := s.free + 1 } : State).over (rs.zip (List.range c)) (fun s r =>
      let a := y.addr (64 + 8 * r.2)
      (s.dmStore n (a + 4) 2 r.1.2.2).dmStore n (a + 6) 1
        ((if clr then 0 else s.dmLoad n (a + 6) 1 / 4 * 4) + b2n r.1.1 + 2 * b2n r.1.2.1))
    let hits := ((rs.zip (List.range c)).filter (fun r => decide (qual ≤ r.1.2.2))).map (·.2)
    let g := v.gp.toNat
    .ok ((s.setGr n g hits.length).setGr n (g + 1) (hits.headD 0xFFFFFFFF))))

/-! ## THR (R293, R294) -/

/-- Scan samples: ARMED, and the indices of the hits in order (R293). -/
def thrScan (thr hyst : Int) (s0 : Nat) : List Int → Bool → List Nat → Bool × List Nat
  | [], armed, hits => (armed, hits.reverse)
  | y :: rest, armed, hits =>
    if armed && decide (thr ≤ y) then thrScan thr hyst (s0 + 1) rest false (s0 :: hits)
    else thrScan thr hyst (s0 + 1) rest (armed || decide (y < thr - hyst)) hits

/-- THR: scans n samples of the lane from ax and writes a hit list at az (R293, R294). -/
def execJThr (tile : Fin 68) (fl : JFlags) (v : JV) (s : State) : Res :=
  let n := tile.val
  let l := v.lane.toNat
  .next (s.vrun n fl v (fun s => do
    let t := s.tile n
    let c := t.vcount v
    need (1 ≤ c && c ≤ 65536 && v.param.toNat < 4 && v.gp != 31 && s.ringEn n l)
    needCycles (ceilDiv c 64 + 4)
    let g := v.gp.toNat
    let cap := t.gr (g + 1)
    let x := vecOp (t.ar v.ax.toNat) 2 c 2
    match s.ringIndex n l x.start with
    | none => .error badOperand
    | some s0 =>
      let neg := bit v.param.toNat 0
      let ys := (List.range c).map (fun i =>
        let y := s.dmInt n (x.addr i) 2
        if neg then -y else y)
      let r := thrScan (toS 16 (t.gr g)) (bits (t.gr g) 31 16 : Nat) s0 ys
        (bit t.armed l && !bit v.param.toNat 1) []
      let kept := r.2.take cap
      let z := linOp (t.ar v.az.toNat) (64 + 8 * kept.length) 64
      checkOps [x] (some z) noneEqual
      let full := decide (cap < r.2.length)
      let s := s.opPut n z 0
        (leBytes 4 kept.length ++ leBytes 1 (b2n full) ++ zeros 3 ++ leBytes 8 s0 ++ leBytes 4 c ++ zeros 44 ++
         (kept.map (leBytes 8)).flatten)
      let s := s.setTile n { s.tile n with armed := withBits t.armed l l (b2n r.1) }
      .ok (s.setGr n (g + 1) kept.length)))

/-! ## FEAT (R295 to R297) -/

/-- The configuration block of FEAT (R295). -/
structure FeatCfg where
  blOfs : Int
  blLen : Nat
  wOfs : Int
  wLen : Nat
  f : Nat
  neg : Bool
  puThr : Nat

/-- Read and judge the block: none when a value lies outside its range. -/
def featCfg (b : List Byte) : Option FeatCfg :=
  let c : FeatCfg := ⟨leInt b 0 2, le b 2 2, leInt b 4 2, le b 6 2, le b 8 1, le b 9 1 == 1, le b 10 2⟩
  if decide (-1024 ≤ c.blOfs) && decide (c.blOfs ≤ -1) && decide (1 ≤ c.blLen) && decide (c.blLen ≤ 64) &&
     decide (-64 ≤ c.wOfs) && decide (c.wOfs ≤ 0) && decide (2 ≤ c.wLen) && decide (c.wLen ≤ 192) &&
     decide (1 ≤ c.f) && decide (le b 9 1 ≤ 1)
  then some c else none

/-- Does a list fall to a minimum m and later rise above m + thr? -/
def risesAgain (thr : Int) : List Int → Int → Bool
  | [], _ => false
  | x :: rest, m => if decide (m + thr < x) then true else risesAgain thr rest (min m x)

/-- The features of one hit (R296): t as 65,536ths of a sample, and sp, A, b, Q, and the flags PU_EARLY,
PU_LATE, CFD_FAIL; `ys` is the pulse window from sample sw and `bl` the baseline window. -/
def featOf (c : FeatCfg) (sw : Int) (bl ys : List Int) : Int × Int × Int × Int × Int × Nat :=
  let b := rdiv (16 * isum bl) c.blLen
  let vs := ys.map (fun y => 16 * y - b)
  let a := vs.foldl max (vs.headD 0)
  let p := (vs.findIdx? (· == a)).getD 0
  let q := isum vs
  -- k is the largest index below p with v[k] < A * F / 256
  let below := (List.range p).filter (fun i => decide (256 * nth vs i 0 < a * c.f))
  let early := bl.any (fun y => decide ((c.puThr : Int) < (16 * y - b).natAbs))
  let after := vs.drop (p + 1)
  let late := match after with
    | [] => false
    | x :: rest => risesAgain c.puThr rest x
  match below.getLast? with
  | some k =>
    let vk := nth vs k 0
    let vk1 := nth vs (k + 1) 0
    -- (thr - v[k]) / (v[k+1] - v[k]), in 1/65,536, truncated
    let t := (sw + k) * 65536 + tdiv ((a * c.f - 256 * vk) * 65536) (256 * (vk1 - vk))
    if vk1 ≤ vk then (sw * 65536, sw + p, a, b, q, b2n early + 2 * b2n late + 4)
    else (t, sw + p, a, b, q, b2n early + 2 * b2n late)
  | none => (sw * 65536, sw + p, a, b, q, b2n early + 2 * b2n late + 4)

/-- FEAT: features of the n hits of the list at ax (R295 to R297). -/
def execJFeat (tile : Fin 68) (fl : JFlags) (v : JV) (s : State) : Res :=
  let n := tile.val
  let l := v.lane.toNat
  .next (s.vrun n fl v (fun s => do
    let t := s.tile n
    let c := t.vcount v
    need (1 ≤ c && c ≤ 341 && s.ringEn n l)
    needCycles (24 * c + 4)
    let x := linOp (t.ar v.ax.toNat) (64 + 8 * c) 64
    let z := linOp (t.ar v.az.toNat) (32 * c) 64
    let ca := t.gr v.gp.toNat
    need (ca % 64 == 0)
    let cfgOp : Opnd := ⟨fun i => ca + i, 1, 64, ca, 64, true, [(ca, 64)]⟩
    checkOps [x, cfgOp] (some z) noneEqual
    need (s.ringIndex n l ((t.ar v.ay.toNat).byteAt 0)).isSome
    match featCfg (s.dmBytes n ca 64) with
    | none => .error badOperand
    | some cfg =>
      let wi := Table.getD t.wi l 0
      let len := 80 * s.ringB n l
      let inRing := fun (i : Int) => decide ((wi : Int) - (len : Nat) ≤ i) && decide (0 ≤ i) && decide (i < (wi : Nat))
      let sample := fun (i : Int) =>
        if inRing i then
          let y := s.dmInt n (s.ringBase n l + 2 * (i.toNat % len)) 2
          if cfg.neg then -y else y
        else 0
      let hitsOut := (List.range c).map (fun i =>
        let sc : Int := (s.dmLoad n (x.addr (64 + 8 * i)) 8 : Nat)
        let sb := sc + cfg.blOfs
        let sw := sc + cfg.wOfs
        let bl := (List.range cfg.blLen).map (fun (j : Nat) => sample (sb + (j : Int)))
        let ys := (List.range cfg.wLen).map (fun (j : Nat) => sample (sw + (j : Int)))
        let f := featOf cfg sw bl ys
        let trunc := !inRing sb || !inRing (sb + cfg.blLen - 1) || !inRing sw || !inRing (sw + cfg.wLen - 1)
        let tf1 := s.windowFlags n l (max 0 sb).toNat (max 0 (sb + cfg.blLen)).toNat
        let tf2 := s.windowFlags n l (max 0 sw).toNat (max 0 (sw + cfg.wLen)).toNat
        let tf := (tf1.1 ||| tf2.1) / 2
        let qs := satS 32 f.2.2.2.2.1
        let flags := tf + 2 ^ 6 * bits f.2.2.2.2.2 1 0 + 2 ^ 8 * bits f.2.2.2.2.2 2 2 + 2 ^ 9 * b2n trunc +
          2 ^ 10 * b2n (decide (min sb sw < (t.swIdx : Int))) + 2 ^ 11 * b2n (decide (s.mode (s.groupCh n / 32) = 7)) + 2 ^ 12 * b2n (qs != f.2.2.2.2.1)
        let tInt := f.1 / 65536
        let gen := match s.ringTag n l (sc.toNat / 80) with | some tag => bits tag 18 15 | none => 0
        leBytes 8 (toU 64 tInt) ++ leBytes 2 (toU 16 f.1) ++ leBytes 2 (s.groupCh n + l) ++
        leBytes 2 (max 0 f.2.2.1).toNat ++ leBytes 2 (toU 16 f.2.2.2.1) ++ leBytes 4 (toU 32 qs) ++
        leBytes 2 (toU 16 (f.2.1 - tInt)) ++ zeros 2 ++ leBytes 2 flags ++ leBytes 1 (max tf1.2 tf2.2) ++
        leBytes 1 gen ++ zeros 4)
      .ok (s.opPut n z 0 hitsOut.flatten)))

end Sys2Proof.Machine
end

