-- ==== Sys2Proof/Machine/Microcode.lean ====
section
/-! DEFINITION. Customer micro-routines: dispatch, the microword field by field, its pipeline, the write-backs
at END and the micro-watchdog (R168 to R184). -/

namespace Sys2Proof.Machine

/-! ## Dispatch (R146, R182) -/

/-- The operand fields that a routine sees, decoded by the entry's FMT (R146, R176): the instruction's
flags, count, param, lane, the registers of sources 11 to 13, and the address registers of az (or field a),
ax and ay. -/
structure MicOps where
  opcode : Nat
  v : Bool
  pu : Bool
  xf : Bool
  count : Nat
  param : Nat
  lane : Nat
  gd : Nat
  gs : Nat
  gt : Nat
  wp : Option Nat
  ax : Nat
  ay : Nat
  ecc : MicEcc := .clean

/-- Decode the operands of word w by format: 0 R, 1 I, 2 M, 3 A, 4 V, 5 C, 6 E. -/
def Tile.micOps (t : Tile) (w fmt : Nat) : MicOps :=
  let o : MicOps := ⟨bits w 63 56, fmt == 4, bit w 49, bit w 48, 0, 0, 0, bits w 47 43, 0, 0, none, 0, 0, .clean⟩
  match fmt with
  | 0 => { o with gs := bits w 42 38, gt := bits w 37 33 }
  | 1 => { o with gs := bits w 42 38 }
  | 2 => { o with wp := some (bits w 42 40) }
  | 3 => { o with gd := bits w 44 40, wp := some (bits w 47 45) }
  | 4 =>
    let gp := bits w 36 32
    let n := bits w 31 16
    { o with count := if n = 0 then t.gr gp else n, param := bits w 15 0, lane := bits w 38 37,
             gd := gp, gs := gp + 1, wp := some (bits w 47 45), ax := bits w 44 42, ay := bits w 41 39 }
  | _ => o

/-! ## The state of a routine (R172 to R181) -/

/-- 48 complex cell values, or the one of cell 0. -/
abbrev Cells := List (Int × Int)

/-- An address generator on an address register: the register's number, the generator's copy of it, its element
index, and whether ADV = 2 changed the copy (R174, R181). -/
structure AgState where
  reg : Nat
  x : AReg
  i : Nat
  moved : Bool

/-- A running routine.  Pipeline registers keep (word from which it is usable, value), newest first, and end
with the contents from before dispatch, which the manual does not give. -/
structure Mic where
  s : State
  upc : Nat
  word : Nat
  cyc : Nat
  lc : Nat
  temps : List Nat
  uz : Bool
  un : Bool
  uv : List Nat
  ud : Bool
  wok : Bool
  ags : List (Nat × AgState)
  idx : Nat × Nat
  data0 : List (Nat × Cells)
  data1 : List (Nat × Cells)
  bcast : List (Nat × Cells)
  holdA : Cells
  holdB : Cells
  accs : List (Nat × List (Nat × Cells))
  out : List (Nat × Cells)
  writes : List (Nat × Nat × Nat × Nat)
  wp : Nat
  l : Nat
  exp : Int
  msb : Nat
  wbs : List (Nat × Nat)
  held : List OutItem
  cands : List (Nat × Nat)

/-- What is usable in word k. -/
def usable (k : Nat) (l : List (Nat × Cells)) : Cells :=
  match l.find? (fun e => decide (e.1 ≤ k)) with
  | some e => e.2
  | none => []

/-- Cell c of a vector; cells beyond it are 0. -/
def Cells.get (v : Cells) (c : Nat) : Int × Int := nth v c (0, 0)

/-- The newest contents of accumulator set a. -/
def Mic.acc (m : Mic) (a : Nat) : Cells :=
  match m.accs.find? (fun e => e.1 == a) with
  | some (_, (_, v) :: _) => v
  | _ => []

/-- Put new contents into accumulator set a, usable from word r on. -/
def Mic.putAcc (m : Mic) (a r : Nat) (v : Cells) : Mic :=
  { m with accs := m.accs.map (fun e => if e.1 = a then (a, (r, v) :: e.2) else e) }

/-- UV is set by word k. -/
def Mic.uvAt (m : Mic) (k : Nat) : Bool := m.uv.any (fun r => decide (r ≤ k))

/-! ## Address generators and data memory (R174, R175, R180) -/

/-- Element size, cells and elements of a generator's access. -/
def agSize (f : Nat) : Nat := 2 ^ (1 + bits f 10 9)
def agWidth (f : Nat) : Nat := match bits f 8 7 with | 0 => 1 | 1 => 48 | _ => 96

/-- The copy under AMODE. -/
def agReg (f : Nat) (a : AgState) : AReg :=
  let am := bits f 6 4
  if am = 0 then a.x else { a.x with mode := am - 1 }

/-- Elements that an access really makes: indices below the count (R175). -/
def agElems (f count : Nat) (a : AgState) : List Nat :=
  ((List.range (agWidth f)).map (a.i + ·)).filter (fun e => decide (e < count))

/-- A generator reads data-memory byte d: of a vector or scalar read. -/
def agReads (f count : Nat) (a : AgState) (d : Nat) : Bool :=
  let els := match bits f 12 11 with
    | 1 => agElems f count a
    | 3 => if a.i < count then [a.i] else []
    | _ => []
  els.any (fun e => decide ((agReg f a).elem (agSize f) e ≤ d) && decide (d < (agReg f a).elem (agSize f) e + agSize f))

/-- The check of R175: BAD_OPERAND for a mode that does not serve the size or an unaligned wide access,
MEM_RANGE for an element past the data memory. -/
def agCheck (f count : Nat) (a : AgState) : Option Nat :=
  let x := agReg f a
  let es := agSize f
  if bits f 12 11 = 0 then none
  else if !x.serves es then some flBAD_OPERAND
  else
    let wide := agWidth f != 1 && bits f 12 11 != 3
    if wide && x.elem es a.i % 64 != 0 then some flBAD_OPERAND
    else
      let els := if bits f 12 11 = 3 then (if a.i < count then [a.i] else []) else agElems f count a
      if els.any (fun e => decide (dmSize < x.elem es e + es)) then some flMEM_RANGE else none

/-- An element as a complex value by its size: 2 and 4 bytes real, 8 bytes C32, 16 bytes CA48. -/
def State.micLoad (s : State) (n a es : Nat) : Int × Int :=
  match es with
  | 2 => (s.dmInt n a 2, 0)
  | 4 => (s.dmInt n a 4, 0)
  | 8 => s.c32 n a
  | _ => (s.a48 n a, s.a48 n (a + 8))

/-- What a generator reads: one value per cell (R174, R175). -/
def State.agRead (s : State) (n f count : Nat) (a : AgState) : Cells :=
  let x := agReg f a
  let es := agSize f
  let el := fun (e : Nat) => if e < count then s.micLoad n (x.elem es e) es else (0, 0)
  match bits f 8 7 with
  | 0 => [el a.i]
  | 1 => (List.range 48).map (fun c => el (a.i + c))
  | _ => (List.range 48).map (fun c => ((el (a.i + 2 * c)).1, (el (a.i + 2 * c + 1)).1))

/-- ADV (R174). -/
def agAdv (f : Nat) (a : AgState) : AgState :=
  match bits f 3 2 with
  | 1 => { a with i := a.i + agWidth f }
  | 2 => { a with x := { (agReg f a).post with mode := a.x.mode }, moved := true }
  | 3 => { a with i := 0 }
  | _ => a

/-- The 64-byte units that a read touches; elements at or above the count are not accessed (R175). -/
def agUnits (f count : Nat) (a : AgState) : List Nat :=
  let els := match bits f 12 11 with
    | 1 => agElems f count a
    | 3 => if a.i < count then [a.i] else []
    | _ => []
  (els.flatMap (fun e =>
    let at_ := (agReg f a).elem (agSize f) e
    [at_ / 64, (at_ + agSize f - 1) / 64])).eraseDups

/-- Stall cycles of a word: the most accesses that meet in a bank, less one (R180). -/
def stallsOf (units : List Nat) : Nat :=
  ((List.range 48).foldl (fun m b => max m (units.filter (fun u => u % 48 == b)).length) 0) - 1

/-! ## MAC cells and the output stage (R173, R177) -/

/-- Limit a component to 18 bits. -/
def sat18 (x : Int) : Int := satS 18 x

/-- The operation of one cell: output if any, new accumulator if any, for operands a and b and the
accumulator (R173). -/
def macCell (op : Nat) (a b acc : Int × Int) : Option (Int × Int) × Option (Int × Int) :=
  let p := cmul false a b
  let pc := cmul true a b
  let add := fun (x y : Int × Int) => (x.1 + y.1, x.2 + y.2)
  match op with
  | 1 => (some p, none)
  | 2 => (some pc, none)
  | 3 => (none, some (add acc p))
  | 4 => (none, some (add acc pc))
  | 5 => (none, some (add acc (a.1 * b.1, a.2 * b.2)))
  | 6 => (some (a.1 * b.1, a.2 * b.2), none)
  | 7 => (some (add a b), none)
  | 8 => (some (a.1 - b.1, a.2 - b.2), none)
  | 9 => (some (a.1 * a.1 + a.2 * a.2, 0), none)
  | _ => (none, none)

/-- One output component shifted under RND. -/
def outShift (sh : Nat) (rnd : Bool) (x : Int) : Int :=
  if rnd then shiftRound x (sh : Nat) else tdiv x (2 ^ sh : Nat)

/-- Limit or cut a component to w bits. -/
def outFit (sat : Bool) (w : Nat) (x : Int) : Int := if sat then satS w x else toS w (toU w x)

/-- The bytes of one output in OUT_FMT, as pieces (value, bytes). -/
def outPieces (fmt : Nat) (sat : Bool) (x : Int × Int) : List (Nat × Nat) :=
  match fmt with
  | 0 | 1 => [(toU 32 (outFit sat 32 x.1), 4), (toU 32 (outFit sat 32 x.2), 4)]
  | 2 => [(toU 64 (outFit sat 48 x.1), 8), (toU 64 (outFit sat 48 x.2), 8)]
  | 3 => [(toU 64 (outFit sat 48 x.1), 8)]
  | _ => [(if sat then (clampI 0 (2 ^ 32 - 1 : Nat) x.1).toNat else toU 32 x.1, 4)]

/-- Pieces laid out from an address: (address, value, bytes). -/
def layOut : Nat → List (Nat × Nat) → List (Nat × Nat × Nat)
  | _, [] => []
  | a, (v, k) :: rest => (a, v, k) :: layOut (a + k) rest

/-! ## One microword -/

/-- The 192-bit microword at an address of the control store (R171). -/
def State.microword (s : State) (n upc : Nat) : Nat := s.load (csBase n + 32 * (upc % 4096)) 24

/-- What a word leads to. -/
inductive MicNext where
  | run (m : Mic)
  | done (m : Mic)
  | fault (code : Nat) (m : Mic)

/-- Memory writes that are due become visible (R179). -/
def Mic.settle (m : Mic) (n k : Nat) : Mic :=
  let due := m.writes.filter (fun w => decide (w.1 ≤ k))
  { m with
    s := m.s.over due (fun s w => s.dmStore n w.2.1 w.2.2.2 w.2.2.1)
    writes := m.writes.filter (fun w => decide (k < w.1)) }

/-- Is a wait of R178 satisfied? -/
def Mic.waitOk (m : Mic) (n : Nat) (o : MicOps) (kind uimm : Nat) : Bool :=
  let t := m.s.tile n
  match kind with
  | 1 => decide (Table.getD t.rp o.lane 0 + o.count ≤ Table.getD t.wi o.lane 0)
  | 2 => match m.s.xringOf n (t.ar o.ay).addr with
    | some j => decide (o.count ≤ (Table.getD t.xrings j {}).fill)
    | none => false
  | 3 => decide (64 * uimm ≤ t.outFree - m.held.foldl (fun k i => k + i.bytes.length) 0)
  | 4 => t.xpend + m.held.length == 0
  | 5 => decide (t.cands.length + m.cands.length < 16)
  | _ => true

/-- The value of a scalar source (R176). -/
def Mic.src (m : Mic) (n : Nat) (o : MicOps) (uimm code : Nat) : Nat :=
  let t := m.s.tile n
  match code with
  | 8 => toU 32 (toS 16 uimm)
  | 9 => o.count % 2 ^ 32
  | 10 => o.param
  | 11 => t.gr o.gd
  | 12 => if o.gs < 32 then t.gr o.gs else 0
  | 13 => t.gr o.gt
  | 14 => toU 32 m.exp
  | 15 => 8 * b2n m.uz + 4 * b2n m.un + 2 * b2n (m.uvAt m.word) + b2n m.ud
  | c => if c < 8 then nth m.temps c 0 else 0

/-- A scalar micro-operation (R176). -/
def micScalar (sop a b : Nat) : Nat :=
  match sop with
  | 1 => a
  | 2 => toU 32 ((a : Int) + b)
  | 3 => toU 32 ((a : Int) - b)
  | 4 => a &&& b
  | 5 => a ||| b
  | 6 => toU 32 (shlBits a b : Nat)
  | 7 => shrBits a b
  | 8 => toU 32 ((a : Int) - b)
  | 9 => toU 32 (min (toS 32 a) (toS 32 b))
  | 10 => toU 32 (max (toS 32 a) (toS 32 b))
  | _ => 0

/-- The scalar field of a word: temporaries, UZ and UN, queued write-backs (R176). -/
def Mic.scalar (m : Mic) (n : Nat) (o : MicOps) (w uimm : Nat) : Mic :=
  let sop := bits w 87 84
  let a := m.src n o uimm (bits w 80 77)
  let b := m.src n o uimm (bits w 76 73)
  let r := micScalar sop a b
  let m := if (bit w 72 && sop != 0 && sop != 11) || sop = 8 then { m with uz := r == 0, un := bit r 31 } else m
  if sop = 11 then { m with wbs := m.wbs ++ [(bits w 71 69, a)] }
  else if sop = 0 || sop = 8 || 11 < sop then m
  else { m with temps := setNth m.temps (bits w 83 81) r }

/-- The MAC cluster of a word (R173). -/
def Mic.mac (m : Mic) (w : Nat) : Mic :=
  let k := m.word
  let op := bits w 154 150
  let set := bits w 145 144
  let cells := if bits w 142 141 = 1 then 1 else 48
  let m := if bit w 143 then m.putAcc set k (List.replicate 48 (0, 0)) else m
  if op = 0 || 15 < op then m
  else
    let pick := fun (code : Nat) (hold : Cells) =>
      match code with
      | 0 => usable k m.data0
      | 1 => usable k m.data1
      | 2 => List.replicate 48 ((usable k m.bcast).get 0)
      | _ => hold
    let va := pick (bits w 149 148) m.holdA
    let vb := pick (bits w 147 146) m.holdB
    let m := { m with holdA := va, holdB := vb }
    let seen := match m.accs.find? (fun e => e.1 == set) with | some e => usable k e.2 | none => []
    if op = 10 then { m with out := (k + 3, (List.range cells).map seen.get) :: m.out }
    else if op = 11 then
      let vs := (List.range cells).map seen.get
      let r := (isum (vs.map (·.1)), isum (vs.map (·.2)))
      let q := (satS 48 r.1, satS 48 r.2)
      { m with out := (k + 3, [q]) :: m.out, uv := if q = r then m.uv else (k + 3) :: m.uv }
    else
      let lim := fun (x : Int × Int) => (sat18 x.1, sat18 x.2)
      let acc := m.acc set
      let clip := (List.range cells).any (fun c => decide (lim (va.get c) ≠ va.get c) || decide (lim (vb.get c) ≠ vb.get c))
      let rs := (List.range 48).map (fun c =>
        if c < cells then macCell op (lim (va.get c)) (lim (vb.get c)) (acc.get c) else (none, none))
      let beyond := rs.any (fun r => match r.2 with | some x => decide (satS 48 x.1 ≠ x.1) || decide (satS 48 x.2 ≠ x.2) | none => false)
      let m := if clip || beyond then { m with uv := (k + 3) :: m.uv } else m
      let m := if rs.any (fun r => r.2.isSome) then
          m.putAcc set (k + 3) ((rs.zip (List.range 48)).map (fun r =>
            match r.1.2 with
            | some x => (satS 48 x.1, satS 48 x.2)
            | none => acc.get r.2))
        else m
      if rs.any (fun r => r.1.isSome) then
        { m with out := (k + 3, rs.filterMap (·.1)) :: m.out }
      else m

/-- The block-exponent unit on the output that word k sees (R177): the output to write. -/
def Mic.blockExp (m : Mic) (w sa : Nat) : Cells × Mic :=
  let v := usable m.word m.out
  match bits w 63 61 with
  | 1 => (v, { m with l := max m.l (topBit (peakMag v)) })
  | 2 =>
    let sh : Int := (m.l : Int) - 16
    let st := bits w 60 59
    (v.map (fun x => (shiftRound x.1 sh, shiftRound x.2 sh)),
     { m with exp := m.exp + sh, msb := withBits m.msb (8 * st + 7) (8 * st) m.l })
  | 3 => (v, { m with exp := toS 32 sa })
  | 4 => (v, { m with l := 0 })
  | _ => (v, m)

/-- The output that a word writes, one list of pieces (value, bytes) per cell: shifted, limited, in OUT_FMT (R173). -/
def outCells (w : Nat) (v : Cells) : List (List (Nat × Nat)) :=
  v.map (fun x => outPieces (bits w 132 130) (bit w 133)
    (outShift (bits w 140 135) (bit w 134) x.1, outShift (bits w 140 135) (bit w 134) x.2))

/-- What the write pointer writes: (address, value, bytes). -/
def wpPieces (w sa wp : Nat) (v : Cells) : List (Nat × Nat × Nat) :=
  match bits w 95 94 with
  | 1 => layOut wp (outCells w v).flatten
  | 2 => [(wp, sa, 4)]
  | _ => []

/-- The elements that a vector write makes, with what goes into each: by WIDTH one element from cell 0, one per cell,
or two per cell, the real and the imaginary part (R174). -/
def agOutput (f i : Nat) (cells : List (List (Nat × Nat))) : List (Nat × List (Nat × Nat)) :=
  match bits f 8 7 with
  | 0 => (cells.take 1).map (fun p => (i, p))
  | 1 => (cells.zip (List.range cells.length)).map (fun e => (i + e.2, e.1))
  | _ => ((cells.zip (List.range cells.length)).map (fun e =>
      (e.1.zip (List.range 2)).map (fun p => (i + 2 * e.2 + p.2, [p.1])))).flatten

/-- What a generator writes: elements below the count, each within its size (R174, R175). -/
def agPieces (f count : Nat) (a : AgState) (cells : List (List (Nat × Nat))) : List (Nat × Nat × Nat) :=
  if bits f 12 11 != 2 then []
  else ((agOutput f a.i cells).filter (fun e => decide (e.1 < count))).flatMap (fun e =>
    let at_ := (agReg f a).elem (agSize f) e.1
    (layOut at_ e.2).filter (fun p => decide (p.1 + p.2.2 ≤ at_ + agSize f)))

/-- The 64-byte units that pieces touch. -/
def pieceUnits (l : List (Nat × Nat × Nat)) : List Nat :=
  (l.flatMap (fun p => [p.1 / 64, (p.1 + p.2.2 - 1) / 64])).eraseDups

/-- The writes of a word: by the write pointer and by the generators, in the order of PRI, so that of two writes of one
byte the one served later stays (R171, R174, R175, R180); or a fault. -/
def Mic.writeOut (m : Mic) (o : MicOps) (w sa : Nat) (v : Cells) (wp0 : Nat) : Except Nat Mic :=
  let byWp := wpPieces w sa m.wp v
  let size := byWp.foldl (fun k p => k + p.2.2) 0
  let byAg := fun (f i : Nat) => match m.ags.find? (fun e => e.1 == i) with
    | some (_, a) => agPieces f o.count a (outCells w v)
    | none => []
  let ag0 := byAg (bits w 127 112) 0
  let ag1 := byAg (bits w 111 96) 1
  let all := match bits w 91 90 with
    | 0 => ag0 ++ ag1 ++ byWp
    | 1 => ag1 ++ ag0 ++ byWp
    | _ => byWp ++ ag0 ++ ag1
  if byWp.any (fun p => decide (dmSize < p.1 + p.2.2)) then .error flMEM_RANGE
  else .ok { m with
    writes := m.writes ++ all.map (fun p => (m.word + 2, p.1, p.2.1, p.2.2))
    wp := match bits w 93 92 with | 1 => m.wp + size | 2 => wp0 | _ => m.wp }

/-- SIG: a candidate or an item is held until the routine ends; an item's source keeps the rules of SPOUT, 64-byte
alignment and the range of the data memory (R149, R178). -/
def Mic.signal (m : Mic) (n : Nat) (o : MicOps) (w uimm sa : Nat) : Except Nat Mic :=
  let t := m.s.tile n
  match bits w 42 40 with
  | 1 =>
    let c := m.s.candidate n o.lane (o.param % 8) (toS 32 sa)
    .ok (if t.cands.length + m.cands.length < 16 then { m with cands := m.cands ++ [c] }
      else { m with ud := true, s := m.s.outDrop n })
  | 2 =>
    let a := match m.ags.find? (fun e => e.1 == 0) with | some (_, a) => a.x.addr | none => 0
    let bad := match o.ecc with
      | .data d => decide (a ≤ d.toNat) && decide (d.toNat < a + 64 * uimm)
      | _ => false
    if a % 64 != 0 then .error flBAD_OPERAND
    else if dmSize < a + 64 * uimm then .error flMEM_RANGE
    else if bad then .error flDM_ECC
    else
      let bs := m.s.dmBytes n a (64 * uimm)
      let used := m.held.foldl (fun k i => k + i.bytes.length) 0
      .ok (if bs.length + used ≤ t.outFree then
          { m with held := m.held ++ [⟨.route (o.param % 256), bs, t.muted, t.outRp⟩] }
        else { m with ud := true, s := m.s.outDrop n })
  | _ => .ok m

/-- The condition of BR and ENDC (R172). -/
def Mic.cond (m : Mic) (n : Nat) (o : MicOps) (c : Nat) : Bool :=
  let ev := (m.s.tile n).cond 6
  match c with
  | 0 => true
  | 1 => m.lc == 0
  | 2 => m.lc != 0
  | 3 => m.uz
  | 4 => !m.uz
  | 5 => m.un
  | 6 => m.uvAt m.word
  | 7 => ev
  | 8 => !ev
  | 9 => m.wok
  | 10 => o.xf
  | 11 => o.pu
  | _ => false

/-- An error that cannot be corrected meets the word: in the word itself, or in what its generators read (R170). -/
def Mic.eccFault (m : Mic) (o : MicOps) (f0 f1 : Nat) (a0 a1 : AgState) : Option Nat :=
  match o.ecc with
  | .control u => if m.upc % 4096 = u.toNat then some flPM_ECC else none
  | .data d => if agReads f0 o.count a0 d.toNat || agReads f1 o.count a1 d.toNat then some flDM_ECC else none
  | _ => none

/-- Run one microword (R171 to R180). -/
def Mic.step (m : Mic) (n : Nat) (o : MicOps) (bound wp0 : Nat) : MicNext :=
  let w := m.s.microword n m.upc
  let uimm := bits w 170 155
  let m := m.settle n m.word
  -- the wait stalls the word (R178)
  let kind := bits w 47 44
  let m := if kind = 0 then m
    else if m.waitOk n o kind uimm then { m with wok := true }
    else if bit w 43 && (m.s.tile n).cond 6 then { m with wok := false }
    else { m with wok := false, cyc := max m.cyc (bound - 16) }
  let lc := match bits w 172 171 with
    | 1 => ceilDiv o.count 48
    | 2 => uimm
    | 3 => m.lc - 1
    | _ => m.lc
  let m := { m with lc := lc }
  let sa := m.src n o uimm (bits w 80 77)
  let go := m.cond n o (bits w 176 173)
  let f0 := bits w 127 112
  let f1 := bits w 111 96
  let ag := fun (i : Nat) (f : Nat) =>
    let reg := if bit f 1 then (if i = 0 then o.ax else o.ay) else bits f 15 13
    let j := if i = 0 then m.idx.1 else m.idx.2
    match m.ags.find? (fun (e : Nat × AgState) => e.1 == i && e.2.reg == reg) with
    | some e => ({ e.2 with i := j } : AgState)
    | none => (⟨reg, (m.s.tile n).ar reg, j, false⟩ : AgState)
  let a0 := ag 0 f0
  let a1 := ag 1 f1
  match (m.eccFault o f0 f1 a0 a1).orElse (fun _ => (agCheck f0 o.count a0).orElse (fun _ => agCheck f1 o.count a1)) with
  | some c => .fault c m
  | none =>
    let m1 : Mic := { m with ags := [(0, a0), (1, a1)] ++ m.ags.filter (fun e =>
      !(e.1 == 0 && e.2.reg == a0.reg) && !(e.1 == 1 && e.2.reg == a1.reg)) }
    let r := m1.blockExp w sa
    let cells := outCells w r.1
    let stalls := stallsOf (agUnits f0 o.count a0 ++ agUnits f1 o.count a1 ++
      pieceUnits (agPieces f0 o.count a0 cells) ++ pieceUnits (agPieces f1 o.count a1 cells) ++
      pieceUnits (wpPieces w sa m.wp r.1))
    match r.2.writeOut o w sa r.1 wp0 with
    | .error c => .fault c m
    | .ok m2 =>
      match ((m2.mac w).scalar n o w uimm).signal n o w uimm sa with
      | .error c => .fault c m
      | .ok m3 =>
      let k := m3.word
      let read := fun (f : Nat) (a : AgState) => m3.s.agRead n f o.count a
      let m3 := if bits f0 12 11 = 1 then { m3 with data0 := (k + 2, read f0 a0) :: m3.data0 } else m3
      let m3 := if bits f1 12 11 = 1 then { m3 with data1 := (k + 2, read f1 a1) :: m3.data1 } else m3
      let one := fun (f : Nat) (a : AgState) => (read (f - (bits f 8 7) * 2 ^ 7) a)
      let m3 := if bits f0 12 11 = 3 then { m3 with bcast := (k + 2, one f0 a0) :: m3.bcast } else m3
      let m3 := if bits f1 12 11 = 3 then { m3 with bcast := (k + 2, one f1 a1) :: m3.bcast } else m3
      let b0 := agAdv f0 a0
      let b1 := agAdv f1 a1
      let m3 : Mic := { m3 with
        ags := [(0, b0), (1, b1)] ++ m3.ags.drop 2
        idx := (b0.i, b1.i)
        word := k + 1, cyc := m3.cyc + 1 + stalls }
      let next := bits w 191 180
      match bits w 179 177 with
      | 1 => .run { m3 with upc := next }
      | 2 => .run { m3 with upc := if go then next else m3.upc + 1 }
      | 3 => .run { m3 with upc := if lc != 0 then next else m3.upc + 1 }
      | 4 => .done m3
      | 5 => if go then .done m3 else .run { m3 with upc := m3.upc + 1 }
      | _ => .run { m3 with upc := m3.upc + 1 }

/-- Run a routine to its END, its fault, or the trip of the micro-watchdog at cycle BOUND: a word that would end after
that cycle does not complete (R184). -/
def Mic.run (n : Nat) (o : MicOps) (bound wp0 : Nat) : Nat → Mic → MicNext
  | 0, m => .fault flTILE_UWD m
  | fuel + 1, m =>
    if bound ≤ m.cyc then .fault flTILE_UWD m
    else match m.step n o bound wp0 with
      | .run m' => if bound < m'.cyc then .fault flTILE_UWD m else Mic.run n o bound wp0 fuel m'
      | .done m' => if bound < m'.cyc then .fault flTILE_UWD m else .done m'
      | .fault c m' => .fault c m'

/-! ## END (R176, R178, R181) -/

/-- Held items and candidates are released behind what is queued (R178). -/
def Mic.release (m : Mic) (n : Nat) : State :=
  let t := m.s.tile n
  let s := m.s.setTile n { t with
    out := t.out ++ m.held, outRp := if m.held = [] then t.outRp else m.s.rpLow n }
  s.over m.cands (fun s c => s.candPut n c.1 c.2)

/-- The effects of END: pending writes, the queued write-backs, the address registers that ADV = 2 changed,
EXP and PASS_MSB (R181). -/
def Mic.finish (m : Mic) (n : Nat) (o : MicOps) : State :=
  let m := m.settle n (m.word + 2)
  let uv := m.uvAt m.word
  let s := m.release n
  let s := s.over m.wbs (fun s b =>
    match b.1 with
    | 1 => s.setGr n o.gd b.2
    | 2 => if o.gs < 32 then s.setGr n o.gs b.2 else s
    | 3 => s.setZ n (!uv)
    | 4 => s.setZ n (b.2 == 0)
    | _ => s)
  let s := s.over (m.ags.filter (fun e => e.2.moved)) (fun s e =>
    s.setTile n ((s.tile n).setAr e.2.reg e.2.x))
  s.setTile n { s.tile n with exp := m.exp, passMsb := m.msb }

/-- A fault inside a routine: memory writes that were issued stand, held items are sent, GT_UFAULT takes the
microword address and the opcode (R162, R184, R187). -/
def Mic.fault (m : Mic) (n pc : Nat) (o : MicOps) (code : Nat) : State :=
  let m := m.settle n (m.word + 2)
  let s := m.release n
  let s := s.setReg .GT_UFAULT n (BitVec.ofNat 32 (2 ^ 31 + m.upc % 4096 * 2 ^ 16 + o.opcode))
  s.tileFault n code pc

/-- The routine at dispatch (R172, R174 to R176): what the pipeline and the accumulators hold is free.  Of the rest only
t0 to t7 and LC are given (R172, R176): UZ, UN, WOK and L are free, and UV and UD, which tell what happened in the
routine, start at 0 (DESIGN CHOICE, log entry 103). -/
def State.micStart (s : State) (n : Nat) (o : MicOps) (start : Nat) : Mic × Nat :=
  let (f, s) := s.draw "micro-pipeline at dispatch" []
  let t := s.tile n
  let any := fun (i : Nat) => (List.range 48).map (fun c =>
    (toS 48 (Config.free "micro-pipeline register" [(f : Nat), (i : Nat), (c : Nat), 0] 0),
     toS 48 (Config.free "micro-pipeline register" [(f : Nat), (i : Nat), (c : Nat), 1] 0)))
  let wp0 := match o.wp with | some r => (t.ar r).addr | none => 0
  let flag := fun (i : Nat) => Config.free "UZ, UN, WOK and L at dispatch" [(f : Nat), (i : Nat)] 0
  (⟨s, start, 0, 0, 0, List.replicate 8 0, flag 0 % 2 == 1, flag 1 % 2 == 1, [], false, flag 2 % 2 == 1, [], (0, 0),
    [(0, any 0)], [(0, any 1)], [(0, any 2)], any 3, any 4,
    (List.range 4).map (fun a => (a, [(0, any (5 + a))])), [(0, any 9)], [], wp0, flag 3 % 48, t.exp, t.passMsb, [], [], []⟩, wp0)

/-! ## The commands -/

/-- CUSTOMER_INSTR: the tile executes the instruction word `word` of a customer opcode: it dispatches through
its table entry, or faults (R147, R162, R182 to R184).  With a false PRED an entry with VALID = 0 is a no-operation:
R182 gives the two tests no order, and R147 lets an undecodable opcode fault whatever its PRED (DESIGN CHOICE, log entry
103).  An opcode of the vendor range that R148 does not
assign is the fault ILLEGAL_OP; the assigned ones are rows of their own and change nothing here. -/
def execCustomerInstr (tile : Fin 68) (word : BitVec 64) (ecc : MicEcc) (s : State) : Res :=
  let n := tile.val
  let w := word.toNat
  let op := bits w 63 56
  let t := s.tile n
  let fl : JFlags := ⟨bit w 55, BitVec.ofNat 3 (bits w 54 52), bit w 51, bit w 50, bit w 49, bit w 48, match ecc with
    | .corrected a => .corrected a
    | .program => .program
    | _ => .clean⟩
  let e := 64 * n + (op - 0xC0)
  .next (if !t.runs then s
  else if op < 0xC0 then
    if (vendorInstr tile word).isSome then s else s.tileFault n flILLEGAL_OP t.pc
  else if ecc = .program then s.tileFault n flPM_ECC t.pc
  else if fl.pred && !t.cond fl.cond.toNat then s.jrun n fl false .ok id
  else if !s.flag GT_UDISP_A.VALID e then s.tileFault n flILLEGAL_OP t.pc
  else
    let o := { t.micOps w (s.fld GT_UDISP_A.FMT e) with ecc := ecc }
    let bound := s.fld GT_UDISP_A.BOUND e
    let s := match ecc with
      | .corrected a => s.tileCorr n a.toNat
      | _ => s
    if o.v && decide (s.fld GT_UDISP_B.MAXN e < o.count) then s.tileFault n flBAD_OPERAND t.pc
    else
      let st := s.micStart n o (s.fld GT_UDISP_A.START e)
      match Mic.run n o bound st.2 8193 st.1 with
        | .done m => (m.finish n o).seqFrom n t.pc
        | .fault c m => m.fault n t.pc o c
        | .run m => m.fault n t.pc o flTILE_UWD)

/-- TILE_UWD: the micro-watchdog trips on the instruction of opcode `opcode` at microword `upc`: the tile
faults (R184). -/
def execTileUwd (tile : Fin 68) (opcode : BitVec 8) (upc : BitVec 12) (s : State) : Res :=
  let n := tile.val
  .next (if (s.tile n).runs then
    (s.setReg .GT_UFAULT n (BitVec.ofNat 32 (2 ^ 31 + upc.toNat * 2 ^ 16 + opcode.toNat))).tileFault n flTILE_UWD
      (s.tile n).pc
  else s)

end Sys2Proof.Machine
end

