-- ==== Sys2Proof/Machine/Opal.lean ====
section
/-! DEFINITION. Opal renderers: records, histogram, colour mapping, frames, and the swap to the spare (R361 to
R374, R504, R572). -/

namespace Sys2Proof.Machine

def State.opal (s : State) (p : Nat) : Opal := Table.getD s.opals p {}
def State.setOpal (s : State) (p : Nat) (o : Opal) : State := { s with opals := Table.set {} s.opals p o }
def State.scan (s : State) (d : Nat) : Scan := Table.getD s.scans d {}
def State.setScan (s : State) (d : Nat) (x : Scan) : State := { s with scans := Table.set {} s.scans d x }

/-- The physical renderer of logical renderer l (R361). -/
def State.oplPhys (s : State) (l : Nat) : Nat := Table.getD s.oplMap l l

/-- The logical renderer that physical renderer p serves. -/
def State.oplLogical (s : State) (p : Nat) : Option Nat := (List.range 16).find? (fun l => s.oplPhys l == p)

/-- Renderer p belongs to a swap whose copy is running: its records wait (R504). -/
def State.oplCopying (s : State) (p : Nat) : Bool :=
  match s.oplSwap with
  | some w => w.step == .copying && (w.old == p || w.new == p)
  | none => false

/-! ## Records (R362) -/

/-- Records not plotted: counted, with OPL_DROP at the first after 1 s without one (R362, R389). -/
def State.oplDrop (s : State) (p n : Nat) : State :=
  if n = 0 then s
  else
    let o := s.opal p
    let h := o.drop.hit s.now sCycles n
    let s := (s.setOpal p { o with drop := h.2.2 }).addFld OPL_DROPS.DROPPED p n
    s.when h.1 (·.raise Ev.OPL_DROP p [(0, 4, h.2.1)])

/-- A record reaches physical renderer p (R362). -/
def State.oplArrive (s : State) (p : Nat) (item : List Byte) : State :=
  if 17 ≤ p || !s.flag OPL_CFG.EN p then s
  else if le item 0 1 != 3 || le item 2 2 != s.fld OPL_CFG.CHANNEL p then s.oplDrop p 1
  else
    let seq := le item 48 8
    let gap := match (s.opal p).lastSeq with
      | some m => seq - (m + 1)
      | none => 0
    let s := (s.setOpal p { s.opal p with lastSeq := some seq }).oplDrop p gap
    let o := s.opal p
    if le item 28 2 &&& s.fld OPL_SKIP.SKIP_FLAGS p != 0 then s.addFld OPL_DROPS.SKIPPED p 1
    else if 64 ≤ o.queue.length then s.oplDrop p 1
    else s.setOpal p { o with queue := o.queue ++ [item] }

/-- An item of a route of kind 2 reaches logical renderer l, and during a swap both physical renderers (R361, R362,
R504). -/
def State.oplRecord (s : State) (l : Nat) (item : List Byte) : State :=
  let s := s.oplArrive (s.oplPhys l) item
  match s.oplSwap with
  | some w => if w.logical = l && w.step != .waiting then s.oplArrive w.new item else s
  | none => s

/-- OPL_RECORD_ARRIVAL: an item that left a tile on a kind-2 route with TARGET l reaches it (R361, R362). -/
def execOplRecordArrival (l : Fin 16) (item : List Byte) (s : State) : Res :=
  .next (match s.offHall 2 l.val item with
  | some s => s.oplRecord l.val item
  | none => s)

/-! ## Plotting (R363 to R366) -/

/-- 5,120 × log10(2) and 5,120 × log10(1,024 × CG) for the windows of R230, as fractions of 2^64. -/
def log2Fx : Int := 28431479237239588517275
def windowFx (w : Nat) : Option Int :=
  match w with
  | 0 => some 284314792372395885172753
  | 1 => some 255883313135156296655478
  | 2 => some 259040097588020330087552
  | 3 => some 242294651090868223416892
  | 4 => some 221455726405106602848182
  | _ => none

/-- The bins of column x: [lo, hi] (R363). -/
def columnBins (f w x : Nat) : Nat × Nat :=
  let lo := f + x * w / 1024
  (lo, max lo (f + (x + 1) * w / 1024 - 1))

/-- The largest bin value of column x that lies in the record's payload; none for no bin with a level. -/
def columnValue (item : List Byte) (f w x : Nat) : Option Nat :=
  let c := columnBins f w x
  let b0 := le item 32 4
  let lo := max c.1 b0
  let hi := min (c.2 + 1) (b0 + le item 36 4)
  let v := (List.range (hi - lo)).foldl (fun m i => max m (le item (64 + 2 * (lo + i - b0)) 2)) 0
  if v = 0 then none else some v

/-- The row of a bin value: `off` is E_d − 2S, `ref` in 2^-64 of 1/256 dB (R239, R364). -/
def rowOf (v : Nat) (off ref bottom : Int) (step : Nat) (clamp : Bool) : Option Nat :=
  let lev : Int := (v : Int) * (2 ^ 64 : Nat) + off * 7706368 * (2 ^ 64 : Nat) / 10000 - ref
  let r := (lev - 16 * bottom * (2 ^ 64 : Nat)) / ((step * 2 ^ 64 : Nat) : Int)
  if r < 0 then (if clamp then some 0 else none) else some (min 255 r.toNat)

/-- Remember what the cells hold in every frame that is being written (R372). -/
def Opal.snap (o : Opal) : Opal := { o with frames := o.frames.map (fun f => (f.1, f.2 ++ [o.cells])) }

/-- A frame is requested of renderer p now; one that already waits makes this one a skipped request (R371). -/
def State.oplRequest (s : State) (p : Nat) : State :=
  let o := s.opal p
  match o.due with
  | some _ => s.addFld OPL_FRAMES.FRAME_SKIP p 1
  | none => s.setOpal p { o with due := some s.now }

/-- Plot one record (R363 to R365). -/
def State.oplPlot (s : State) (p : Nat) (item : List Byte) : State :=
  let f := s.fld OPL_MAP.FIRST_BIN p
  let w := s.fld OPL_MAP.W_BINS p
  let win := le item 6 1
  let ref := match windowFx win with
    | some c => (c + le item 7 1 * log2Fx, s)
    | none => if win = 255 then ((s.fld OPL_COLOUR.REF255 p * 2 ^ 64 : Nat), s)
      else let d := s.draw "coherent gain of an unlisted window" [(win : Nat)]; ((d.1 : Nat), d.2)
  let s := ref.2
  let off := toS 16 (le item 24 2) - 2 * toS 8 (le item 26 1)
  let bottom := toS 16 (s.fld OPL_LEVEL_BOT.BOTTOM p)
  let cells := (List.range 1024).foldl (fun t x =>
    match columnValue item f w x with
    | none => t
    | some v =>
      match rowOf v off ref.1 bottom (s.fld OPL_LEVEL_STEP.STEP p) (s.flag OPL_CFG.CLAMP p) with
      | none => t
      | some r => Table.modify 0 t (256 * x + r) (fun c => satU 16 (c + s.fld OPL_CFG.INC p))) (s.opal p).cells
  s.setOpal p ({ s.opal p with cells := cells } : Opal).snap

/-- The decay step and the frame request that a plotted record makes due (R366, R371). -/
def State.oplCount (s : State) (p : Nat) : State :=
  let o := s.opal p
  let decay := decide (s.fld OPL_DECAY.TICK p ≤ o.ticks + 1)
  let counts := s.fld OPL_CFG.FRAME_SRC p == 0
  let due := counts && decide (s.fld OPL_FRAME_CNT.FRAME_SPECTRA p ≤ o.records + 1)
  let s := s.setOpal p { o with
    ticks := if decay then 0 else o.ticks + 1, decayDue := decay, records := if counts && !due then o.records + 1 else 0 }
  s.when due (·.oplRequest p)

/-- OPL_PLOT: physical renderer p plots its oldest queued record, if it still meets R362; the decay step and the frame
request that it makes due come before the next one (R362, R364 to R366, R371). -/
def execOplPlot (p : Fin 17) (s : State) : Res :=
  let p := p.val
  let o := s.opal p
  .next (match o.queue with
  | [] => s
  | item :: rest =>
    if !s.flag OPL_CFG.EN p || o.decayDue || o.due.isSome || s.oplCopying p then s
    else
      let s := s.setOpal p { o with queue := rest }
      if le item 2 2 != s.fld OPL_CFG.CHANNEL p then s.oplDrop p 1
      else if le item 28 2 &&& s.fld OPL_SKIP.SKIP_FLAGS p != 0 then s.addFld OPL_DROPS.SKIPPED p 1
      else ((s.oplPlot p item).addFld OPL_SPECTRA.COUNT p 1).oplCount p)

/-- OPL_DECAY_STEP: one decay step of renderer p; a swap that waits for it starts its copy (R366, R504). -/
def execOplDecayStep (p : Fin 17) (s : State) : Res :=
  let p := p.val
  let o := s.opal p
  let d := s.fld OPL_DECAY.D p
  .next (if !o.decayDue then s
  else
    let cells := if d = 0 then o.cells
      else o.cells.foldl (fun t e => Table.set 0 t e.1 (e.2 - (e.2 + 2 ^ d - 1) / 2 ^ d)) o.cells
    let s := s.setOpal p ({ o with cells := cells, decayDue := false } : Opal).snap
    match s.oplSwap with
    | some w => if w.old = p && w.step == .waiting then { s with oplSwap := some { w with step := .copying } } else s
    | none => s)

/-! ## Colour mapping and frames (R369 to R374) -/

/-- The colour-map index of a cell count (R369). -/
def colourIndex (logMap : Bool) (gain c : Nat) : Nat :=
  if !logMap then min 255 (c * gain / 256)
  else if c = 0 then 0
  else
    let p := c.log2
    let l := 16 * p + c * 16 / 2 ^ p % 16
    min 255 (1 + l * gain / 256)

/-- The base address of frame buffer i of renderer p. -/
def State.oplBufBase (s : State) (p i : Nat) : Nat := s.fld OPL_BUF.ADDR (4 * p + i) * 65536

/-- The scan-outs that show logical renderer l (R373, R376). -/
def State.shows (s : State) (l : Nat) : List Nat :=
  (List.range 2).filter (fun d => s.flag VID_CTRL.EN d && (List.range 4).any (fun w =>
    s.flag VID_OVL_CFG.EN (4 * d + w) && s.fld VID_OVL_CFG.REND (4 * d + w) == l))

/-- The active size of scan-out d. -/
def State.hact (s : State) (d : Nat) : Nat := s.fld VID_SIZE_W.HACT d
def State.vact (s : State) (d : Nat) : Nat := s.fld VID_SIZE_H.VACT d

/-- The ranges that the scan-outs have latched or hold pending and have not retired: base planes, and overlay buffers at
the addresses they were written at (R374). -/
def State.scanRanges (s : State) : List (Nat × Nat) :=
  let bases := (List.range 2).flatMap (fun d =>
    let len := s.fld VID_STRIDE.STRIDE d * 64 * s.vact d
    let x := s.scan d
    ((if x.based then [s.fld VID_BASE_ACT.ADDR d] else []) ++ x.base.map (·.1) ++ x.retiring.map (·.1)).map
      (fun a => (a * 65536, len)))
  let overlays := (List.range 17).flatMap (fun p => (s.opal p).bufs.flatMap (fun b =>
    (b.2.pending ++ b.2.front ++ b.2.retiring).map (fun e => (e.2, 2 ^ 20))))
  bases ++ overlays

/-- Some of the scan-outs `ds` are in a list of (scan-out, address). -/
def onScan (l : List (Nat × Nat)) (ds : List Nat) : Bool := l.any (fun e => ds.contains e.1)

/-- The buffer is free, judged on the scan-outs that show the renderer (R373). -/
def OplBuf.free (b : OplBuf) (ds : List Nat) : Bool :=
  !b.writing && !onScan b.pending ds && !onScan b.front ds && !onScan b.retiring ds

/-- The scan-outs that show physical renderer p. -/
def State.showsPhys (s : State) (p : Nat) : List Nat :=
  match s.oplLogical p with
  | some l => s.shows l
  | none => []

/-- Try the buffers from `i` on: the first free one that passes the fence is written; each fenced one is counted
(R373, R374). -/
def State.oplPick (s : State) (p : Nat) : List Nat → State
  | [] => s.addFld OPL_FRAMES.FRAME_SKIP p 1
  | i :: rest =>
    let o := s.opal p
    let b := Table.getD o.bufs i {}
    let a := s.oplBufBase p i
    if !b.free (s.showsPhys p) then s.oplPick p rest
    else if s.scanRanges.any (fun r => decide (r.1 < a + 2 ^ 20) && decide (a < r.1 + r.2)) then
      let h := o.fence.hit s.now sCycles 1
      let s := (s.setOpal p { o with fence := h.2.2 }).addFld OPL_FRAMES.FENCE_HIT p 1
      (s.when h.1 (·.raise Ev.FENCE_HIT p [(0, 1, i), (1, 4, h.2.1)])).oplPick p rest
    else s.setOpal p { o with
      bufs := Table.set {} o.bufs i { b with writing := true }, frames := o.frames ++ [((i, a), [o.cells])] }

/-- An entry of a register table is a setup register of renderer p (R504). -/
def oplOwn (p : Nat) (e : RegKey × Word) : Bool :=
  e.1.1.desc.block == .OPL && e.1.1 != .OPL_SPECTRA && e.1.1 != .OPL_DROPS && e.1.1 != .OPL_FRAMES &&
  e.1.2 / (e.1.1.count / 17) == p

/-- The setup entries of renderer p in a table are copied for renderer n, in place of those it has. -/
def copyOpl (t : Table RegKey Word) (p n : Nat) : Table RegKey Word :=
  (t.filter (oplOwn p)).foldl (fun t e =>
    let per := e.1.1.count / 17
    Table.insert RegKey.lt t (e.1.1, e.1.2 % per + n * per) e.2) (t.filter (fun e => !oplOwn n e))

/-- The setup and the colour map of renderer p go into renderer n, with what waits for a frame boundary (R504). -/
def State.oplSetup (s : State) (p n : Nat) : State :=
  { s with
    regs := copyOpl s.regs p n, staged := copyOpl s.staged p n, lv := copyOpl s.lv p n, held := copyOpl s.held p n }

/-- The swap of a logical renderer takes effect at a frame request: the spare serves, the old renderer stops and
goes to test (R504, R517). -/
def State.oplSwapEnd (s : State) (w : OplSwap) : State :=
  let s : State := { s with oplMap := Table.insert natLt s.oplMap w.logical w.new, oplSwap := none }
  let o := s.opal w.old
  let s := s.oplSetup w.old w.new
  let s := s.setOpal w.new { s.opal w.new with lastReq := o.lastReq, due := none, bufs := o.bufs, frames := o.frames }
  let s := (s.setOpal w.old {}).setFlag OPL_CFG.EN w.old false
  let s := (s.setRole kOPAL w.old (if w.retire then roRETIRED else roTEST)).setRole kOPAL w.new (if w.new = 16 then roSPARE else roSERVICE)
  s.swapUsed kOPAL w.old w.new 0 w.cause

/-- The request of renderer p that waits is served: the level pair that waits takes effect and clears the cells,
then a buffer is chosen, unless the request came too early (R368, R371, R373). -/
def State.oplServe (s : State) (p t : Nat) : State :=
  let s := s.setOpal p { s.opal p with due := none }
  let s := match Table.get? s.lv (.OPL_LEVEL_BOT, p), Table.get? s.lv (.OPL_LEVEL_STEP, p) with
    | some b, some st =>
      let changed := b != s.reg .OPL_LEVEL_BOT p || st != s.reg .OPL_LEVEL_STEP p
      let s := (s.setReg .OPL_LEVEL_BOT p b).setReg .OPL_LEVEL_STEP p st
      let s : State := { s with lv := Table.erase (Table.erase s.lv (.OPL_LEVEL_BOT, p)) (.OPL_LEVEL_STEP, p) }
      s.when changed (fun s => s.setOpal p ({ s.opal p with cells := [] } : Opal).snap)
    | _, _ => s
  let early := match (s.opal p).lastReq with
    | some l => decide (t < l + 13332800)
    | none => false
  if early then s.addFld OPL_FRAMES.FRAME_SKIP p 1
  else (s.setOpal p { s.opal p with lastReq := some t }).oplPick p (List.range (s.fld OPL_CFG.NBUF p + 1))

/-- OPL_FRAME_REQUEST: the frame request of renderer p that waits; with both renderers of a swap plotting, the
spare takes over and writes the frame (R371 to R374, R504). -/
def execOplFrameRequest (p : Fin 17) (s : State) : Res :=
  let p := p.val
  .next (match (s.opal p).due with
  | none => s
  | some t =>
    match s.oplSwap with
    | some w =>
      if w.step == .both && (w.old = p || w.new = p) then (s.oplSwapEnd w).oplServe w.new t else s.oplServe p t
    | none => s.oplServe p t)

/-- The 1 MiB of a frame of renderer p: pixel (x, y) shows cell (x, 255 − y) (R370, R372). -/
def State.framePixels (s : State) (p : Nat) (cells : Nat → Table Nat Nat) : List Byte :=
  (List.range 256).flatMap (fun y => (List.range 1024).flatMap (fun x =>
    let c := Table.getD (cells x) (256 * x + (255 - y)) 0
    leBytes 4 (s.reg .OPL_CMAP (256 * p + colourIndex (s.flag OPL_CFG.LOG_MAP p) (s.fld OPL_COLOUR.CGAIN p) c)).toNat))

/-- OPL_FLIP: every write of the oldest frame of renderer p is acknowledged: the buffer becomes pending on every
overlay that shows the renderer, in place of an older pending one (R372, R373).  Which records plotted during
the read-out a column shows is free. -/
def execOplFlip (p : Fin 17) (s : State) : Res :=
  let p := p.val
  .next (match (s.opal p).frames with
  | [] => s
  | ((i, a), snaps) :: rest =>
    let s' : State := { s with free := s.free + 1 }
    let col := fun x => nth snaps (Config.free "records of the read-out that a column shows" [(x : Nat)] s.free % snaps.length) []
    let s := s'.devPut srcDisplay a (s'.framePixels p col)
    let ds := s.showsPhys p
    let o := s.opal p
    let bufs := o.bufs.foldl (fun t b =>
      Table.set {} t b.1 { b.2 with pending := b.2.pending.filter (fun e => !ds.contains e.1) }) o.bufs
    let b := Table.getD bufs i {}
    s.setOpal p { o with
      frames := rest
      bufs := Table.set {} bufs i { b with writing := false, pending := ds.map (fun d => (d, a)) ++ b.pending } })

/-! ## Swaps and errors (R504, R517, R572) -/

/-- Start the swap of logical renderer l to the free spare; false when there is none or a swap runs (R499,
R504): the setup and the colour map go into the spare. -/
def State.oplSwapStart (s : State) (l : Nat) (c : SwapCause) : Bool × State :=
  match s.freeSpare kOPAL (List.range 17) with
  | none => (false, s)
  | some n =>
    if s.oplSwap.isSome then (false, s)
    else
      let p := s.oplPhys l
      let s := (s.oplSetup p n).setOpal n { bufs := (s.opal p).bufs, lastSeq := (s.opal p).lastSeq }
      let s := s.timerSet tmRenderer
      (true, { s.setRole kOPAL n roSPARE with oplSwap := some { logical := l, old := p, new := n, step := .waiting, cause := c } })

/-- OPAL_COPY_DONE: the cells are copied into the spare; both renderers plot the same records from here on
(R504). -/
def execOpalCopyDone (s : State) : Res :=
  .next (match s.oplSwap with
  | some w =>
    if w.step != .copying then s
    else
      let o := s.opal w.old
      let n := s.opal w.new
      { s.setOpal w.new { n with
          cells := o.cells, ticks := o.ticks, records := o.records, decayDue := o.decayDue, lastReq := o.lastReq }
        with oplSwap := some { w with step := .both } }
  | none => s)

/-- Renderer p is retired: its logical renderer has none (R390). -/
def State.oplRetire (s : State) (p : Nat) : State :=
  let s : State := match s.oplLogical p with
    | some l => { s with oplMap := Table.insert natLt s.oplMap l 31 }
    | none => s
  (((s.setOpal p {}).setFlag OPL_CFG.EN p false).setRole kOPAL p roRETIRED).funcRetired Block.OPL.index p

/-- OPAL_RENDERER_ERROR: renderer p reports an error: with a free spare it is swapped, otherwise it clears and
restarts; at the fourth time within an hour it is treated as failed (R572). -/
def execOpalRendererError (p : Fin 17) (s : State) : Res :=
  let p := p.val
  .next (match s.oplLogical p with
  | none => s
  | some l =>
    let (k, s) := s.step2 Block.OPL.index p
    let r := s.oplSwapStart l .failure
    if r.1 then { r.2 with oplSwap := r.2.oplSwap.map (fun w => { w with retire := decide (4 ≤ k) }) }
    else if 4 ≤ k then s.oplRetire p
    else s.setOpal p { (s.opal p) with
      queue := [], cells := [], lastSeq := none, ticks := 0, records := 0, decayDue := false })

end Sys2Proof.Machine
end

