-- ==== Sys2Proof/Machine/Tile.lean ====
section
/-! DEFINITION. The input unit, the exchange, the switch and reload, and the output unit of a tile (R133 to
R138, R157, R160, R161, R196, R210 to R214, R260, R264 to R266). -/

namespace Sys2Proof.Machine

/-! ## The switch at a tile (R144, R169, R210 to R212) -/

/-- A reloading tile takes its new frame length, rings and exchange rings, as the bank holds them, once (R205). -/
def State.reloadGt (s : State) (n : Nat) : State :=
  let t := s.tile n
  if (s.groupOf n).isSome && t.reload && !t.gtTaken then
    (s.setTile n { t with gtTaken := true }).takeStagedOf n (fun r => !isDispatch r)
  else s

/-- The switch-point sample w has reached tile n: a reloading tile abandons its program and needs no sample before w, a
continuing one swaps its staged values (R211 steps 5 to 7). -/
def State.tileSwitch (s : State) (n w : Nat) : State :=
  let t := s.tile n
  let s := (s.setTile n { t with swDue := none, swIdx := w }).tileEvent n evCOMMIT
  if t.reload then
    let t := s.tile n
    (s.setTile n { t with
      state := gtLOADING, haltCause := 0, goStart := false, pLv := waitingBut t.pLv t.pStaged
      rp := (List.range 4).foldl (fun x l => Table.set 0 x l w) [] }).reloadGt n
  else
    let s := s.takeStagedGt n
    let t := s.tile n
    let st := t.pStaged.filter (fun e => !bit t.lvMap e.1)
    let lv := t.pStaged.filter (fun e => bit t.lvMap e.1)
    let s := s.setTile n { t with
      params := overBank t.params st, pLv := lv.foldl (fun x e => Table.insert natLt x e.1 e.2) t.pLv, pStaged := [] }
    s.switchDone

/-- TILE_RELOAD_DONE: tile n, reloading, has written its program, its overlay with the dispatch table, and its segments,
and starts; LV words and held first words that wait for a frame boundary wait on (R169, R212, R215, R216). -/
def execTileReloadDone (tile : Fin 68) (s : State) : Res :=
  let n := tile.val
  let t := s.tile n
  .next (if t.state != gtLOADING || !t.reload then s
  else match s.groupOf n with
    | none => s
    | some g =>
      let staged := t.pStaged
      let s := (s.loadTile n g).takeStagedGt n
      let s := s.setTile n { s.tile n with params := overBank (s.tile n).params staged, pStaged := [] }
      (s.startTile n g gtRUN (some (s.tile n).swIdx)).switchDone)

/-- GROUP_LATE: the pantry assigns tile n to group g, which was left without one; the group starts, with the values in
force that its retired tile held, or those of the image (R214). -/
def execGroupLate (g : Fin 64) (tile : Fin 68) (s : State) : Res :=
  let n := tile.val
  .next (if !s.prog.late.contains g.val || (s.groupOf n).isSome || (n < 34) != (g.val < 32) ||
      s.role kTILE n != roFREE then s
  else
    let s := s.tileServes n g.val (s.die (g.val / 8)).count
    let s := (s.loadTile n g.val).startTile n g.val gtRUN none
    let s := s.setProg (fun p => { p with late := p.late.filter (· != g.val) })
    s.raise Ev.GROUP_LATE 0 [(0, 1, g.val), (1, 4, (s.now - s.prog.switchAt) / usCycles)])

/-! ## The input unit (R134 to R138) -/

/-- Write one block's slot of lane l's ring: 80 samples in S16, then the tag. -/
def State.ringSlotPut (s : State) (n l b : Nat) (bs : List Byte) : State :=
  let bb := s.ringB n l
  let base := s.ringBase n l
  let smp := ((List.range 80).map (fun j => leBytes 2 (toU 16 (if isGap bs then 0 else blockSample bs j)))).flatten
  (s.dmPut n (base + 160 * (b % bb)) smp).dmPut n (base + 160 * bb + 8 * (b % bb)) (leBytes 8 (blockTag bs))

/-- Lane 0's WI passes from `old` to `new`: frames, the epoch's boundary sample, the switch point (R157, R211,
R260). -/
def State.laneZero (s : State) (n old new : Nat) : State :=
  let t := s.tile n
  let s := match t.swDue with
    | some w => if w < new then s.tileSwitch n w else s
    | none => s
  let t := s.tile n
  let s := match t.epDue with
    | some e => if e < new then (s.setTile n { t with epDue := none, epIdx := e }).tileEvent n evEPOCH else s
    | none => s
  let frame := if s.mode (s.groupCh n / 32) = 4 then s.turnSampleIn (s.groupCh n / 32) old new
    else
      let len := s.fld GT_FRAME.FRAME_LEN n
      if len = 0 then none
      else
        let f := new / len * len
        if old < f then some f else none
  let s := match frame with
    | some f => ((s.setTile n { s.tile n with frIdx := f }).tileEvent n evFRAME).sampleFrame n f
    | none => s
  match (s.tile n).startAt, s.groupOf n, frame with
  | some at_, some g, some f => if at_ ≤ f then s.startSpare n g f else s
  | _, _, _ => s

/-- A block arrives on lane l of tile n: missing blocks become gap slots, the block is written, WI and, on
overrun, RP move (R134 to R138). -/
def State.laneArrive (s : State) (n l b : Nat) (bs : List Byte) : State :=
  let t := s.tile n
  let wi := Table.getD t.wi l 0
  if b < wi / 80 then s
  else
    -- a reloading tile takes its new rings with the block that holds the switch-point sample
    let s := match t.swDue with
      | some w => if w < 80 * (b + 1) then s.reloadGt n else s
      | none => s
    let en := s.ringEn n l
    let bb := s.ringB n l
    let s := if en then
        let from_ := max (wi / 80) (b + 1 - bb)
        let s := s.over ((List.range (b - from_)).map (from_ + ·)) (fun s m => s.ringSlotPut n l m (gapBlock m))
        s.ringSlotPut n l b bs
      else s
    let new := 80 * (b + 1)
    let s := s.setTile n { s.tile n with wi := Table.set 0 (s.tile n).wi l new }
    let rp := Table.getD (s.tile n).rp l 0
    let s := if en && 80 * bb < new - rp then
        let skip := new - 80 * bb - rp
        let s := s.setTile n { s.tile n with rp := Table.set 0 (s.tile n).rp l (new - 80 * bb) }
        let s := ((s.addFld GT_LOST.LOST n skip).stat (0x2A00 + 16 * n) skip).tileEvent n evFAULT
        s.raise Ev.IN_OVERRUN n [(0, 1, l), (1, 8, skip)]
      else s
    if l = 0 then s.laneZero n wi new else s

/-- A block of a channel arrives at every tile that serves or shadows its group (R133). -/
def State.blockToTiles (s : State) (c b : Nat) (bs : List Byte) : State :=
  s.over (s.tilesOf (c / 4)) (fun s n => s.laneArrive n (c % 4) b bs)

/-- BLOCK_TILE_ARRIVAL: the next block on the analysis link of die k arrives at its lane (R134). -/
def execBlockTileArrival (k : Fin 8) (s : State) : Res :=
  let d := s.die k.val
  .next (match d.anaLink with
  | [] => s
  | b :: rest => (s.setDie k.val { d with anaLink := rest, anaFails := 0 }).blockToTiles b.ch b.count b.bytes)

/-! ## Exchange (R264 to R267) -/

/-- Tile n waits in a WAITX on its receive ring j, which has released the ring's claim since it began (R265): the
instruction word at its PC is a WAITX of that ring whose condition holds. -/
def State.atWaitx (s : State) (n j : Nat) : Bool :=
  let t := s.tile n
  match vendorInstr (Fin.ofNat 68 n) (BitVec.ofNat 64 (le (s.bytes (pmBase n + 8 * t.pc) 8) 0 8)) with
  | some (.jWaitx _ fl v) =>
    t.runs && (!fl.pred || t.cond fl.cond.toNat) && s.xringOf n (t.ar v.ay.toNat).addr == some j
  | _ => false

/-- An item on route r arrives at tile n: written whole into the matching ring, or dropped whole (R264,
R266). -/
def State.xchArrive (s : State) (n r : Nat) (item : List Byte) : State :=
  match (List.range 4).find? (fun j => s.flag GT_XRX_CFG.EN (4 * n + j) && s.fld GT_XRX_CFG.ROUTE (4 * n + j) == r) with
  | none => s
  | some j =>
    let t := s.tile n
    let x := Table.getD t.xrings j {}
    let x := if s.atWaitx n j then { x with claimed := 0 } else x
    let size := 2 ^ s.fld GT_XRX_CFG.SIZE_LOG2 (4 * n + j)
    let units := ceilDiv item.length 64
    if size < x.fill + x.claimed + units then
      let fresh := match t.xrxLast with
        | some l => decide (l + msCycles ≤ s.now)
        | none => true
      let s := s.setTile n { t with xrxLast := some s.now, xrxDrops := if fresh then 0 else t.xrxDrops + 1 }
      let s := (s.addFld GT_XRX_DROPS.DROPS n 1).stat (0x2A0A + 16 * n) 1
      s.when fresh (·.raise Ev.XRX_DROP n [(0, 1, j), (1, 4, t.xrxDrops + 1)])
    else
      let base := 64 * s.fld GT_XRX_CFG.BASE (4 * n + j)
      let s := s.over (List.range units) (fun s i =>
        s.dmPut n (base + 64 * ((x.next + i) % size)) (slice item (64 * i) 64))
      let x := { x with fill := x.fill + units, next := (x.next + units) % size }
      s.setTile n { s.tile n with xrings := Table.set {} t.xrings j x }

/-- The oldest exchange item that tile `sender` has sent to group g arrives, at the group's tile and at a tile that
shadows it (R264, R267). -/
def State.xchLand (s : State) (g sender : Nat) : State :=
  let t := s.tile sender
  match t.xsent.find? (fun x => x.1 == g) with
  | none => s
  | some x =>
    let s := s.setTile sender { t with xsent := t.xsent.erase x }
    s.over (s.tilesOf g) (fun s n => s.xchArrive n x.2.1 x.2.2)

/-- XCH_ARRIVAL: the `items` oldest exchange items that tile `sender` has sent to group g arrive, in the order of their
issue (R264). -/
def execXchArrival (g : Fin 64) (sender : Fin 68) (items : Nat) (s : State) : Res :=
  .next (s.over (List.range items) (fun s _ => s.xchLand g.val sender.val))

/-- XLD_LAND: the oldest request of tile n lands in data memory; 64-byte units on a channel that does not serve
read as zeros and are counted (R161, R352). -/
def execXldLand (tile : Fin 68) (s : State) : Res :=
  let n := tile.val
  let t := s.tile n
  .next (match t.xlds with
  | [] => s
  | x :: rest =>
    let o := blkOp x.dst x.units
    (s.setTile n { t with xlds := rest }).over (List.range x.units) (fun s i =>
      let a := x.src + 64 * i
      let t := s.readBy srcTile a 64
      if s.poisonedRange a 64 then t.opPut n o (64 * i) (zeros 64)
      else
        let bs := (List.range 64).map (fun j => s.anyByte (a + j))
        ({ t with free := s.free + 1 } : State).opPut n o (64 * i) bs))

/-! ## The output unit (R160, R196, R218) -/

/-- The entry of a Hall route: kind and target (R196); none for a route that is not defined. -/
def State.routeOf (s : State) (r : Nat) : Option (Nat × Nat) :=
  match findSection s.prog.force 5 0 with
  | none => none
  | some b => ((List.range (b.length / 16)).find? (fun i => le b (16 * i) 1 == r)).map (fun i =>
      (le b (16 * i + 1) 1, le b (16 * i + 2) 2))

/-- Outputs restarted at a boundary sample that data of the item lie before (R219; log entry 104). -/
def State.stale (s : State) (n : Nat) (x : OutItem) : Bool :=
  match Table.get? s.prog.restart (s.groupCh n / 32) with
  | some b => decide (x.since < b)
  | none => false

/-- An item leaves for a Hall route: in HELD, and when its data lie before the restart of the outputs, kinds 1, 3, 5
and 6 are discarded and counted; an item of kind 6 is on the exchange, and one of kinds 1 to 3 on the Hall, until it
arrives (R196, R218, R219). -/
def State.sendRoute (s : State) (n r : Nat) (x : OutItem) : State :=
  match s.routeOf r with
  | none => s
  | some (kind, target) =>
    if (!s.outputsOn || s.stale n x) && [1, 3, 5, 6].contains kind then s.addFld SYS_HELD_DISCARDS.COUNT 0 1
    else
      let s := s.emit (.send .hall [n, r, kind, target] x.bytes)
      let s : State := if [1, 2, 3].contains kind then { s with hall := s.hall ++ [⟨kind, target, x.bytes⟩] } else s
      s.when (kind == 6) (·.setTile n { s.tile n with xsent := (s.tile n).xsent ++ [(target, r, x.bytes)] })

/-- An item waits in the queue while the memory side stalls: one for a cellar-backed route (kinds 1, 3 and 4), or for a
memory address on a stalled pseudo-channel (R248). -/
def State.outWaits (s : State) (x : OutItem) : Bool :=
  match x.dest with
  | .route r => s.cel.stall.isSome && (match s.routeOf r with
    | some (kind, _) => [1, 3, 4].contains kind
    | none => false)
  | .exchange _ => false
  | .phys a => match s.hpcOf a with
    | some h => s.stalled h
    | none => false

/-- An item leaves the queue for its target, which acknowledges it after a time that the manual leaves open (R161). -/
def State.sendItem (s : State) (n : Nat) (x : OutItem) : State :=
  let due := s.now + Config.free "cycles until a target acknowledges a write" [(n : Nat)] s.now
  let s := s.setTile n { s.tile n with acks := (s.tile n).acks ++ [due] }
  match x.dest with
  | .route r => s.sendRoute n r x
  | .exchange r => s.sendRoute n r x
  | .phys a => (s.emit (.send .hall [n, a] x.bytes)).physWrite a x.bytes

/-- The oldest item of tile n's output queue leaves, and the oldest candidate reaches the combiner (R160). -/
def State.tileSend (s : State) (n : Nat) : State :=
  let t := s.tile n
  let s := match t.cands with
    | [] => s
    | c :: rest => (s.setTile n { t with cands := rest }).combEvent c.1 c.2 (fun _ => true)
  let t := s.tile n
  let s := if t.acks = [] then s else s.setTile n { t with acks := t.acks.filter (fun c => decide (s.now < c)) }
  let t := s.tile n
  match t.out with
  | [] => s
  | x :: rest =>
    if s.outWaits x then s
    else
      let s := s.setTile n { t with out := rest }
      if x.muted then s else s.sendItem n x

end Sys2Proof.Machine
end

