-- ==== Sys2Proof/Machine/Pantry.lean ====
section
/-! DEFINITION. The pantry: spares of every kind, wear and failures, policies, the rotating self-test, memory moves
and telemetry (R496 to R517, R524 to R526). -/

namespace Sys2Proof.Machine

/-! ## Starting a swap (R499, R500, R504 to R509) -/

/-- How an attempt to start a swap ends. -/
inductive SwapTry where
  | started | noSpare | failed | wait
deriving DecidableEq, Repr

/-- The reserve that a move of h takes: the lowest free one none of whose HBM pseudo-channels is frozen, retired or
h (R505). -/
def State.freeReserve (s : State) (h : Nat) : Option Nat :=
  ((List.range 8).map (136 + ·)).find? (fun q =>
    s.cel.moved.all (fun e => e.2 != q) &&
    (List.range 8).all (fun u => topHpc q u != h && s.pc (topHpc q u) != .frozen && s.pc (topHpc q u) != .retired))

/-- The last sample of a lane passes the thresholds of R510; a lane without a sample has crossed none. -/
def State.laneGood (s : State) (u : Nat) : Bool :=
  match s.pan.sample.lanes[u]? with
  | none => true
  | some (eye, _, nlog, _) => decide (s.fld PAN_THR_B.LANE_EYE_MV 0 ≤ eye) && decide (100 * s.fld PAN_THR_B.LANE_SER_EXP 0 ≤ nlog)

/-- The free spare lane of port p, while its eye passes (R508). -/
def State.spareLane (s : State) (p : Nat) : Option Nat :=
  let u := 5 * p + s.fld FAB_PORT_STAT.SPARE_LANE p
  if s.role kLANE u = roFREE && s.laneGood u then some u else none

/-- SPARE_EMPTY once no lane of any port is a free spare (R513). -/
def State.lanesEmpty (s : State) : State :=
  s.when ((s.freeSpare kLANE (List.range 30)).isNone) (·.spareEmpty kLANE 0xFF)

/-- A calibration run of die k holds a spare of it for the time being (R478). -/
def State.spareBusy (s : State) (k : Nat) : Bool :=
  match (s.calDie k).cur with
  | some c => match c.job.task, c.way with
    | .swap _, _ => false
    | _, .hitless _ => true
    | _, _ => false
  | none => false

/-- Slice sl of die k serves a channel, or has left it for a hitless run (R478, R480). -/
def State.sliceServes (s : State) (k sl : Nat) : Bool :=
  (s.netOf k sl).isSome || (match (s.calDie k).cur with
  | some c => c.job.slice == sl && c.chan.isSome
  | none => false)

/-- Post OFFLINE with a core number to the system image's service mailbox (R568). -/
def State.postOffline (s : State) (core : Nat) : State := s.emit (.send .mailbox [core] [])

/-- A row word names a bank and a row (R497). -/
def rowWordOk (w : Nat) : Bool := decide (bits w 21 16 < 48) && decide (w < 2 ^ 22)

/-- Start a swap (R499). -/
def State.trySwap (s : State) (w : PanSwap) : SwapTry × State :=
  let u := w.unit
  if s.dev == .safe || s.dev == .standby || s.dev == .off then (.failed, s)
  else match w.kind with
  | 0 =>
    if 272 ≤ u || !s.sliceServes (u / 34) (u % 34) || s.role kSLICE u = roRETIRED then (.failed, s)
    else if (s.freeSlice (u / 34) (u % 34)).isNone && !s.spareBusy (u / 34) then (.noSpare, s)
    else (.started, s.calQueue (u / 34) (u % 34) (.swap w.cause) false)
  | 1 =>
    if 68 ≤ u || (s.groupOf u).isNone then (.failed, s)
    else if (Table.get? s.pan.migs (dieOf u)).isSome then (.wait, s)
    else match s.migStart w with
      | (true, s) => (.started, s)
      | (false, s) => (.noSpare, s)
  | 2 =>
    match (if u < 17 then s.oplLogical u else none) with
    | none => (.failed, s)
    | some l =>
      if s.oplSwap.isSome then (.wait, s)
      else match s.oplSwapStart l w.cause with
        | (true, s) => (.started, { s with oplSwap := s.oplSwap.map (fun x => { x with retire := w.retire }) })
        | (false, s) => (.noSpare, s)
  | 3 =>
    if 128 ≤ u || (Table.get? s.cel.moved u).isSome || s.pc u == .reinit || s.pc u == .frozen then (.failed, s)
    else if s.pan.move.isSome then (.wait, s)
    else match s.freeReserve u with
      | none => (.noSpare, s)
      | some q =>
        let m : MemMove := { hpc := u, reserve := q, dead := s.pc u == .retired, cause := w.cause, since := s.now }
        (.started, { s with pan := { s.pan with move := some m } })
  | 4 =>
    let p := u / 5
    if 30 ≤ u || s.fld FAB_PORT_CFG.MODE p != 1 || !bit (s.port p).lanes (u % 5) then (.failed, s)
    else if s.pan.lane.isSome then (.wait, s)
    else match s.spareLane p with
      | none => (.noSpare, s)
      | some _ => (.started, { s with pan := { s.pan with lane := some w } })
  | 5 =>
    if 9 ≤ u || s.role kCORE u = roFREE || s.role kCORE u = roRETIRED then (.failed, s)
    else if s.pan.core.isSome then (.wait, s)
    else match s.freeSpare kCORE (List.range 9) with
      | none => (.noSpare, s)
      | some n =>
        let c : CoreSwap := { core := u, spare := n, cause := w.cause, since := s.now }
        (.started, ({ s with pan := { s.pan with core := some c } } : State).postOffline u)
  | 8 =>
    if 128 ≤ u || !rowWordOk w.row || s.pcDown u then (.failed, s)
    else if spareRows ≤ s.rowsUsed u (bits w.row 21 16) then (.noSpare, s)
    else
      let s := s.when (w.cause == .host) (fun s =>
        { s with pan := { s.pan with rowHost := s.pan.rowHost ++ [(u, w.row)] } })
      (.started, s.planStall (.repair u (bits w.row 21 16) (bits w.row 15 0)))
  | _ => (.failed, s)

/-- The die of a unit, as SPARE_EMPTY names it (R525). -/
def spareDie (kind u : Nat) : Nat := if kind = kSLICE || kind = kTILE then u / 34 else 0xFF

/-- A swap that finds its spare or its lane busy waits (R499). -/
def State.swapWaits (s : State) (w : PanSwap) : State := { s with pan := { s.pan with waiting := s.pan.waiting ++ [w] } }

/-- The pantry starts a swap of its own; with no free spare it raises SPARE_EMPTY (R513). -/
def State.autoSwap (s : State) (w : PanSwap) : State :=
  match s.trySwap w with
  | (.started, s) => s
  | (.wait, s) => s.swapWaits w
  | (.noSpare, s) => (s.spareEmpty w.kind (spareDie w.kind w.unit)).swapAnswer w.kind w.unit w.cause pcNOSPARE
  | (.failed, s) => s.swapAnswer w.kind w.unit w.cause pcFAILED

/-- Retry the swaps that wait, oldest first; none while a commit waits for its switch point (R499). -/
def State.panNext (s : State) : State :=
  if s.commitPending then s
  else s.pan.waiting.foldl (fun (s : State) w => s.autoSwap w) { s with pan := { s.pan with waiting := [] } }

/-! ## Wear and failures (R510 to R514) -/

/-- A unit is failed: its request is withdrawn; under AUTO and ASK it is swapped at once, under MANUAL reported
(R512, R513). -/
def State.unitFailed (s : State) (kind u : Nat) : State :=
  let s := s.askWithdraw kind u
  if s.policy kind = 2 then s.wearReport kind u true
  else s.autoSwap { kind := kind, unit := u, cause := .failure }

/-- A unit crosses a wear threshold: it becomes a wear candidate (R510, R513, R514).  The monitor row of R510 is the
one of its kind. -/
def State.wearCandidate (s : State) (kind u thr : Nat) : State :=
  let old := s.pan.crossed.contains (kind, u, thr)
  let held := s.pan.declined.any (fun d => d.1 == kind && d.2.1 == u && decide (s.now < d.2.2 + 86400 * sCycles))
  let known := s.pan.seen.contains (kind, u, thr)
  let s : State := if old then s else { s with pan := { s.pan with
    crossed := s.pan.crossed ++ [(kind, u, thr)], seen := if known then s.pan.seen else s.pan.seen ++ [(kind, u, thr)] } }
  let cannot := kind == kLANE && s.fld FAB_PORT_CFG.MODE (u / 5) != 1
  if old then s
  else match s.policy kind with
    | 0 => if cannot then s.wearReport kind u false
      else if s.commitPending then s.swapWaits { kind := kind, unit := u, cause := .wear }
      else s.autoSwap { kind := kind, unit := u, cause := .wear }
    | 1 =>
      if s.pan.asks.any (fun a => a.kind == kind && a.unit == u) || 64 ≤ s.pan.asks.length || (held && known) then s
      else
        let a : PanAsk := { kind := kind, unit := u, monitor := kind }
        ({ s with pan := { s.pan with asks := s.pan.asks ++ [a] } } : State).raise Ev.SPARE_ASK 0
          [(0, 1, kind), (1, 2, u), (3, 1, kind)]
    | _ => s.wearReport kind u false

/-- A unit is no longer beyond a threshold. -/
def State.wearClear (s : State) (kind u thr : Nat) : State :=
  { s with pan := { s.pan with crossed := s.pan.crossed.filter (· != (kind, u, thr)) } }

/-- Judge one threshold of one unit. -/
def State.wearJudge (s : State) (kind u thr : Nat) (above : Bool) : State :=
  if above then s.wearCandidate kind u thr
  else if thr = 10 || thr = 30 || thr = 50 then s
  else s.wearClear kind u thr

/-- A trim within TRIM_MARGIN codes of its field limit, in the range in force of the slice's channel (R510). -/
def State.trimNear (s : State) (k sl : Nat) : Bool :=
  match s.netOf k sl with
  | none => false
  | some c =>
    let m : Int := s.fld PAN_THR_A.TRIM_MARGIN 0
    let e := s.calEntry (34 * k + sl)
    let w := match s.fld CNV_CH_CFG.RANGE c with | 0 => e.r0 | 1 => e.r1 | _ => e.r2
    let near := fun (bits : Nat) (v : Int) => decide ((2 ^ (bits - 1) : Nat) - 1 - v ≤ m) || decide (v + (2 ^ (bits - 1) : Nat) ≤ m)
    near 10 (trimOffs w) || near 10 (trimGain w) || near 8 (trimSkew w)

/-- The wear monitors of kinds 0, 1, 3, 4 and 5 (R510). -/
def State.wearMonitors (s : State) (x : PanSample) : State :=
  let s := s.each 272 (fun s u =>
    if (s.netOf (u / 34) (u % 34)).isNone || s.role kSLICE u = roRETIRED then s
    else (s.wearJudge kSLICE u 0 (s.flag CNV_SL_STATE.SUSPECT u)).wearJudge kSLICE u 1 (s.trimNear (u / 34) (u % 34)))
  let s := s.each 68 (fun s n =>
    if (s.groupOf n).isNone then s
    else s.wearJudge kTILE n 10 (decide (s.fld PAN_THR_A.TILE_ECC_H 0 <
      Table.getD s.pan.tileEcc n 0 - Table.getD s.pan.hourTile n 0)))
  let s := s.each 128 (fun s h =>
    if s.pcDown h || (Table.get? s.cel.moved h).isSome then s
    else
      let s := s.wearJudge kMEM h 30 (decide (s.fld PAN_THR_B.HBM_CORR_H 0 <
        Table.getD s.pan.hbmCorr h 0 - Table.getD s.pan.hourHbm h 0))
      s.wearJudge kMEM h 31 ((List.range 48).any (fun b => s.rowsUsed h b != 0 && decide (spareRows ≤ s.rowsUsed h b))))
  let s := s.each 30 (fun s u =>
    match x.lanes[u]? with
    | none => s
    | some (eye, _, nlog, _) =>
      if !bit (s.port (u / 5)).lanes (u % 5) then s
      else (s.wearJudge kLANE u 40 (decide (eye < s.fld PAN_THR_B.LANE_EYE_MV 0))).wearJudge kLANE u 41
        (decide (nlog < 100 * s.fld PAN_THR_B.LANE_SER_EXP 0)))
  s.each 9 (fun s u =>
    match x.cores[u]? with
    | none => s
    | some (corr, _) =>
      if s.role kCORE u = roFREE || s.role kCORE u = roRETIRED then s
      else s.wearJudge kCORE u 50 (decide (s.fld PAN_THR_A.CORE_ECC_H 0 < corr - Table.getD s.pan.hourCore u 0)))

/-- Failures that the sample shows: a core with a new machine check (R512). -/
def State.coreFailures (s : State) (x : PanSample) : State :=
  s.each 9 (fun s u =>
    let old := match s.pan.sample.cores[u]? with | some c => c.2 | none => 0
    let new := match x.cores[u]? with | some c => c.2 | none => 0
    if old < new && s.role kCORE u != roFREE && s.role kCORE u != roRETIRED then s.unitFailed kCORE u else s)

/-- The slowdown of each die; AGE_WARN once per die (R511). -/
def State.ageing (s : State) (x : PanSample) : State :=
  s.each 11 (fun s d =>
    let v := nth x.ages d 0
    let s := s.setFld PAN_AGE.SLOW d (toU 16 v)
    if (s.fld PAN_THR_A.AGE_PM 0 : Int) < v && !s.pan.ageWarned.contains d then
      ({ s with pan := { s.pan with ageWarned := s.pan.ageWarned ++ [d] } } : State).raise Ev.AGE_WARN 0
        [(0, 1, d), (1, 2, toU 16 v)]
    else s)

/-- Rows that the scrub corrected in ROW_PASSES passes are repaired softly; in SERVICE soft repairs become hard
ones (R507). -/
def State.rowRepairs (s : State) : State :=
  let s := s.over s.cel.scrub (fun s e =>
    let h := e.1 / 65536 / 64
    let bank := e.1 / 65536 % 64
    let row := e.1 % 65536
    if decide (s.fld PAN_THR_B.ROW_PASSES 0 ≤ e.2.1) && !s.cel.soft.contains (h, bank, row) &&
        !s.cel.waiting.any (fun x => x.1 == .repair h bank row) then
      s.autoSwap { kind := kROW, unit := h, row := bank * 65536 + row, cause := .wear }
    else s)
  if s.dev == .service then s.over s.cel.soft (fun s r => s.hardRow r.1 r.2.1 r.2.2) else s

/-- RETIRE of h, frozen: the pantry replaces it under its policy (R355, R506, R512). -/
def State.pcRetired (s : State) (h : Nat) : State :=
  if s.pc h == .frozen then (s.retirePc h).unitFailed kMEM h else s

/-- RELEASE of h, frozen: step 2 of the ladder; at the fourth time within an hour h is treated as failed (R355, R572). -/
def State.pcReleased (s : State) (h : Nat) : State :=
  if s.pc h != .frozen then s
  else
    let (k, s) := s.step2 Block.CEL.index h
    if 4 ≤ k then (s.pcRetired h).funcRetired Block.CEL.index h else s.release h

/-- PC_RELEASE: a RELEASE command for h (R355). -/
def execPcRelease (h : Fin 128) (s : State) : Res := .next (s.pcReleased h.val)

/-- PC_RETIRE: a RETIRE command for h (R355). -/
def execPcRetire (h : Fin 128) (s : State) : Res := .next (s.pcRetired h.val)

/-- PC_REINIT_DONE: re-initialisation of h ends: `rows` are the (bank, row) pairs soft-repaired.  h returns
to service, its history is cleared and PC_RELEASED raised; when it timed out, h is retired (R355, R572). -/
def execPcReinitDone (h : Fin 128) (passed : Bool) (rows : List (Fin 48 × BitVec 16)) (s : State) : Res :=
  .next (if s.pc h.val != .reinit then s
  else
    let before := s.downPcs
    if passed then
      let s := s.wipePc h.val
      let s := s.over rows (fun s r => s.softRow h.val r.1.val r.2.toNat)
      let s : State := { s with cel := { s.cel with history := Table.erase s.cel.history h.val } }
      let s := (s.setPc h.val .ok).setFrozen h.val false
      (s.lossSync before).raise Ev.PC_RELEASED h.val [(0, 1, 0), (1, 2, rows.length)]
    else ((s.setPc h.val .retired).lossSync before).unitFailed kMEM h.val)

/-! ## Telemetry (R524) -/

/-- The role of a cellar pseudo-channel, and of a reserve pseudo-channel. -/
def State.memRole (s : State) (h : Nat) : Nat :=
  if (Table.get? s.cel.moved h).isSome || s.pc h == .retired then roRETIRED else roSERVICE
def State.reserveRole (s : State) (q : Nat) : Nat :=
  if s.cel.moved.any (fun e => e.2 == q) then roSPARE
  else match s.pan.move with
    | some m => if m.reserve = q then roSPARE else roFREE
    | none => roFREE

/-- The role bytes of a telemetry record, in its order. -/
def State.roleBytes (s : State) : List Byte :=
  let b := fun (n : Nat) => BitVec.ofNat 8 n
  let all := (List.range 272).map (fun u => b (s.role kSLICE u)) ++ (List.range 68).map (fun u => b (s.role kTILE u)) ++
    (List.range 17).map (fun u => b (s.role kOPAL u)) ++ (List.range 9).map (fun u => b (s.role kCORE u)) ++
    (List.range 30).map (fun u => b (s.role kLANE u)) ++ (List.range 128).map (fun h => b (s.memRole h)) ++
    (List.range 8).map (fun i => b (s.reserveRole (136 + i)))
  (all ++ zeros 1024).take 1024

/-- The 16 KiB of a telemetry record with a number (R524). -/
def State.telRecord (s : State) (num : Nat) (x : PanSample) : List Byte :=
  let hdr := leBytes 8 num ++ otBytes s.time.ot ++ leBytes 1 (s.fld PAN_ROT.TEL_MIN 0) ++ zeros 43
  let lanes := ((List.range 30).map (fun u =>
    let l := nth x.lanes u (0, 0, 0, 0)
    leBytes 2 l.1 ++ leBytes 2 l.2.1 ++ leBytes 2 l.2.2.1 ++ leBytes 4 l.2.2.2 ++ zeros 6)).flatten
  let hbm := ((List.range 128).map (fun h =>
    let corr := Table.getD s.pan.hbmCorr h 0 - Table.getD s.pan.telHbm h 0
    let soft := (s.cel.soft.filter (fun r => r.1 == h)).length
    let most := (List.range 48).foldl (fun m b => max m (s.rowsUsed h b)) 0
    leBytes 4 corr ++ leBytes 2 soft ++ leBytes 1 (spareRows - most) ++
      leBytes 1 (b2n (s.pc h == .frozen) + 2 * b2n (Table.get? s.cel.moved h).isSome))).flatten
  let tiles := ((List.range 68).map (fun n =>
    let t := Table.getD s.pan.tests n (0, 0)
    leBytes 4 (Table.getD s.pan.tileEcc n 0) ++ leBytes 2 t.1 ++ leBytes 1 t.2 ++
      leBytes 1 (32 - Table.getD s.pan.csUsed n 0))).flatten
  let cores := ((List.range 9).map (fun u =>
    let c := nth x.cores u (0, 0)
    leBytes 4 c.1 ++ leBytes 4 c.2)).flatten
  let ages := ((List.range 11).map (fun d => leBytes 4 (toU 32 (nth x.ages d 0)))).flatten
  let temps := ((List.range 40).map (fun i => leBytes 2 (toU 16 (tdiv (s.siteTemp i) 10)))).flatten
  let attic := leBytes 2 x.atticFree ++ leBytes 2 x.atticRetired ++ leBytes 4 x.erase ++ leBytes 8 x.atticBytes
  let all := hdr ++ s.roleBytes ++ calSetBytes s.cal.vol ++ lanes ++ hbm ++ tiles ++ cores ++ ages ++ temps ++ attic
  (all ++ zeros 16384).take 16384

/-- Records that the telemetry ring holds, and where it lies. -/
def State.telEntries (s : State) : Nat := 2 ^ s.fld PAN_TEL_BASE_HI.SIZE_LOG2 0
def State.telBase (s : State) : Nat :=
  s.fld PAN_TEL_BASE_LO.BASE_LO 0 * 16384 + s.fld PAN_TEL_BASE_HI.BASE_HI 0 * 2 ^ 32

/-- Write a telemetry record: TAIL advances when its write is acknowledged without error; otherwise the record is
written again later (R33). -/
def State.putTelemetry (s : State) (bs : List Byte) : State :=
  let tail := s.fld PAN_TEL_PTR.TAIL 0
  let a := s.telBase + 16384 * tail
  match s.physPut s.srcOther a bs with
  | none => { s with telemetry := { s.telemetry with inFlight := [bs], failed := true, lastTry := s.now } }
  | some s => s.setFld PAN_TEL_PTR.TAIL 0 ((tail + 1) % s.telEntries)

/-- Retry a failed telemetry record, at most once per 1 ms (R33). -/
def State.retryTelemetry (s : State) : State :=
  match s.telemetry.inFlight with
  | [] => s
  | bs :: _ =>
    if s.telemetry.failed && s.telemetry.lastTry + msCycles ≤ s.now then
      ({ s with telemetry := { s.telemetry with inFlight := [], failed := false } } : State).putTelemetry bs
    else s

/-- The telemetry ring takes no record: it is off or full, or a record waits to be written again (R33, R34). -/
def State.telFull (s : State) : Bool :=
  !s.flag PAN_TEL_BASE_HI.ENABLE 0 || s.telemetry.failed || !inSystem s.telBase (16384 * s.telEntries) ||
  (s.fld PAN_TEL_PTR.TAIL 0 + 1) % s.telEntries == s.fld PAN_TEL_PTR.HEAD 0

/-- PAN_MONITOR_SAMPLE: TEL_MIN minutes have passed, or a named event has come: the monitors are sampled, wear
candidates and failures handled, and, TEL_MIN minutes after the one before it, the telemetry record written (R507, R510
to R513, R524). -/
def execPanMonitorSample (sample : PanSample) (s : State) : Res :=
  .next (if s.dev == .off || s.dev == .standby then s
  else
    let quiet := s.dev == .safe
    let s := if quiet then s else (s.coreFailures sample).wearMonitors sample
    let s := s.ageing sample
    let s := if quiet then s else s.rowRepairs.panNext
    let s : State := { s with pan := { s.pan with sample := sample } }
    if !s.timerDue tmTel (s.fld PAN_ROT.TEL_MIN 0 * 60 * sCycles) then s
    else
    let s := s.timerSet tmTel
    let bs := s.telRecord s.pan.telNum sample
    let s : State := { s with pan := { s.pan with telNum := s.pan.telNum + 1, telHbm := s.pan.hbmCorr } }
    if s.telFull then s else s.putTelemetry bs)

/-- PAN_HISTORY_HOUR: an hour has passed: one record goes to the pantry history, which keeps the latest 32,768, and
the hour of the monitors begins anew (R510, R524). -/
def execPanHistoryHour (s : State) : Res :=
  let p := s.pan
  let bs := s.telRecord p.histNum p.sample
  let h := p.history ++ [bs]
  let cores := (List.range 9).foldl (fun t u => Table.set 0 t u (nth p.sample.cores u (0, 0)).1) []
  let p := { p with
    histNum := p.histNum + 1, history := h.drop (h.length - 32768), hourTile := p.tileEcc, hourHbm := p.hbmCorr,
    hourCore := cores, crossed := p.crossed.filter (fun c => !(c.2.2 == 10 || c.2.2 == 30 || c.2.2 == 50)) }
  .next (if s.dev == .off || !s.timerDue tmHour (3600 * sCycles) then s
  else (({ s with pan := p } : State).timerSet tmHour).stat 0xB4 16384)

/-! ## Host commands (R497, R513 to R515) -/

/-- The swap of a host command begins: BUSY while it runs. -/
def State.panBegin (s : State) : State := (s.setFld PAN_CMD_STAT.RESULT 0 0).setFlag PAN_CMD_STAT.BUSY 0 true

/-- Run a swap for the host under any policy (R513). -/
def State.hostSwap (s : State) (w : PanSwap) : State :=
  if s.commitPending && w.kind != kROW then s.panResult pcHELD
  else
    let b := s.panBegin
    match b.trySwap w with
    | (.started, s) => s
    | (.wait, s) => s.swapWaits w
    | (.noSpare, s) => (s.spareEmpty w.kind (spareDie w.kind w.unit)).panResult pcNOSPARE
    | (.failed, s) => s.panResult pcFAILED

/-- APPROVE: the oldest request, which the command names, is swapped (R514). -/
def State.panApprove (s : State) (kind u : Nat) : State :=
  match s.pan.asks with
  | [] => s.panResult pcNOREQ
  | a :: rest =>
    if a.kind != kind || a.unit != u then s.panResult pcNOREQ
    else if s.commitPending then s.panResult pcHELD
    else
      let s : State := { s with pan := { s.pan with asks := rest } }
      let w : PanSwap := { kind := kind, unit := u, cause := .wear }
      let run := fun (s : State) => ({ s with pan := { s.pan with approved := some (kind, u) } } : State).panBegin
      match s.trySwap w with
      | (.started, s) => run s
      | (.wait, s) => run (s.swapWaits w)
      | (.noSpare, s) => (s.spareEmpty kind (spareDie kind u)).panResult pcNOSPARE
      | (.failed, s) => s.panResult pcFAILED

/-- DECLINE: the oldest request is dropped, and its unit is held back for 24 h (R514). -/
def State.panDecline (s : State) (kind u : Nat) : State :=
  match s.pan.asks with
  | [] => s.panResult pcNOREQ
  | a :: rest =>
    if a.kind != kind || a.unit != u then s.panResult pcNOREQ
    else
      let d := (s.pan.declined.filter (fun d => !(d.1 == kind && d.2.1 == u))) ++ [(kind, u, s.now)]
      ({ s with pan := { s.pan with asks := rest, declined := d } } : State).panResult pcOK

/-- SWAP (R497, R513). -/
def State.panSwap (s : State) (kind u : Nat) : State :=
  s.hostSwap { kind := kind, unit := u, row := (s.reg .PAN_CMD_ROW 0).toNat, cause := .host }

/-- Units of a kind whose roles the pantry keeps (R496). -/
def unitCount (kind : Nat) : Nat :=
  match kind with
  | 0 => 272
  | 1 => 68
  | 2 => 17
  | 4 => 30
  | 5 => 9
  | _ => 0

/-- A free spare is retired where it stands. -/
def State.retireFree (s : State) (kind u : Nat) : State :=
  let s := ((s.askWithdraw kind u).setRole kind u roRETIRED).panResult pcOK
  match kind with
  | 0 =>
    (s.setFlag CNV_SL_STATE.SUSPECT u false).when (s.freeSlices (u / 34) = 0) (·.spareEmpty kSLICE (u / 34))
  | 1 => s.tilesEmpty (dieOf u)
  | 4 => s.lanesEmpty
  | _ => s.spareEmpty kind 0xFF

/-- RETIRE (R497, R506): a frozen pseudo-channel is retired and replaced; a row is repaired hard where R345 allows
it; a free spare is retired at once; a unit in service is swapped and does not become a spare. -/
def State.panRetire (s : State) (kind u : Nat) : State :=
  let row := (s.reg .PAN_CMD_ROW 0).toNat
  if s.dev == .safe then s.panResult pcFAILED
  else if kind = kROW then
    if 128 ≤ u || !rowWordOk row || !s.hardOk u then s.panResult pcFAILED
    else if spareRows ≤ s.rowsUsed u (bits row 21 16) && !s.cel.soft.contains (u, bits row 21 16, bits row 15 0) then
      s.panResult pcNOSPARE
    else (s.hardRow u (bits row 21 16) (bits row 15 0)).swapUsed kROW u u row .host
  else if kind = kMEM then
    (s.when (u < 128) (·.retirePc u)).hostSwap { kind := kind, unit := u, cause := .host, retire := true }
  else if u < unitCount kind && (s.role kind u = roFREE || kind != kSLICE && s.role kind u = roTEST) then
    s.retireFree kind u
  else s.hostSwap { kind := kind, unit := u, cause := .host, retire := true }

/-! ## Rotation (R515 to R517) -/

/-- The group that rotates next on die d: in ascending order from the last one, a group whose tile runs. -/
def State.rotGroup (s : State) (d : Nat) : Option (Nat × Nat) :=
  let from_ := Table.getD s.pan.rotNext d 0
  ((List.range 32).map (fun i => 32 * d + (from_ + i) % 32)).findSome? (fun g =>
    ((s.tilesOf g).find? (fun n => (s.tile n).state == gtRUN)).map (fun n => (g, n)))

/-- A rotation step may run: both spare tiles of the die are free or under test, one of them free, and nothing else
holds it back (R499, R515). -/
def State.rotReady (s : State) (d : Nat) : Bool :=
  let idle := (dieTiles d).filter (fun n => s.role kTILE n == roFREE || s.role kTILE n == roTEST)
  decide (2 ≤ idle.length) && idle.any (fun n => s.role kTILE n == roFREE) && s.dev != .safe &&
  s.dev != .standby && s.dev != .off && !s.commitPending && (Table.get? s.pan.migs d).isNone

/-- Rotate the next tile of die d; false when the step cannot run. -/
def State.rotate (s : State) (d : Nat) : Bool × State :=
  match (if s.rotReady d then s.rotGroup d else none) with
  | none => (false, s)
  | some (g, n) =>
    let r := s.migStart { kind := kTILE, unit := n, cause := .rotation }
    if r.1 then
      let next := Table.set 0 r.2.pan.rotNext d ((g + 1) % 32)
      (true, { r.2 with pan := { r.2.pan with rotNext := next } })
    else (false, s)

/-- ROTATION_STEP: the rotation timer of analysis die d, every TILE_MIN × 60 s / 32; a step that cannot run is skipped
and counted (R515). -/
def execRotationStep (d : Fin 2) (s : State) : Res :=
  .next (if !s.flag PAN_ROT.EN 0 ||
      !s.timerDue (tmRotation d.val) (s.fld PAN_ROT.TILE_MIN 0 * 60 * sCycles / 32) then s
  else match (s.timerSet (tmRotation d.val)).rotate d.val with
    | (true, s) => s
    | (false, s) => s.stat 0xB2 1)

/-- Swap the next logical renderer in use for the spare (R517). -/
def State.oplRotate (s : State) : Bool × State :=
  let next := ((List.range 16).map (fun i => (s.pan.oplNext + i) % 16)).find? (fun l => s.flag OPL_CFG.EN (s.oplPhys l))
  match (if s.commitPending || s.dev == .safe || s.dev == .standby || s.dev == .off then none else next) with
  | none => (false, s)
  | some l =>
    let r := s.oplSwapStart l .rotation
    if r.1 then (true, { r.2 with pan := { r.2.pan with oplNext := (l + 1) % 16 } }) else (false, s)

/-- OPAL_ROTATION: the OPAL_MIN timer (R517). -/
def execOpalRotation (s : State) : Res :=
  let min := s.fld PAN_ROT.OPAL_MIN 0
  .next (if min = 0 || !s.timerDue tmOpal (min * 60 * sCycles) then s else (s.timerSet tmOpal).oplRotate.2)

/-- ROTATE_NOW: a rotation step at once: KIND 1 on the analysis die of tile UNIT, KIND 2 of the renderers (R515,
R517). -/
def State.panRotate (s : State) (kind u : Nat) : State :=
  let s := s.panBegin
  let run := fun (r : Bool × State) =>
    if r.1 then ({ r.2 with pan := { r.2.pan with rotNow := true } } : State) else r.2.panResult pcNOSPARE
  if s.commitPending then s.panResult pcHELD
  else if s.dev == .safe then s.panResult pcFAILED
  else if kind = kTILE && u < 68 then run (s.rotate (dieOf u))
  else if kind = kOPAL then run s.oplRotate
  else s.panResult pcFAILED

/-- PAN_APPROVE. -/
def execPanApprove (path : Path) (kind : BitVec 4) (unit : BitVec 16) (s : State) : Res :=
  .next ((s.panApprove kind.toNat unit.toNat).wrote path .PAN_CMD 0)

/-- PAN_DECLINE. -/
def execPanDecline (path : Path) (kind : BitVec 4) (unit : BitVec 16) (s : State) : Res :=
  .next ((s.panDecline kind.toNat unit.toNat).wrote path .PAN_CMD 0)

/-- PAN_SWAP. -/
def execPanSwap (path : Path) (kind : BitVec 4) (unit : BitVec 16) (s : State) : Res :=
  .next ((s.panSwap kind.toNat unit.toNat).wrote path .PAN_CMD 0)

/-- PAN_ROTATE_NOW. -/
def execPanRotateNow (path : Path) (kind : BitVec 4) (unit : BitVec 16) (s : State) : Res :=
  .next ((s.panRotate kind.toNat unit.toNat).wrote path .PAN_CMD 0)

/-- PAN_RETIRE. -/
def execPanRetire (path : Path) (kind : BitVec 4) (unit : BitVec 16) (s : State) : Res :=
  .next ((s.panRetire kind.toNat unit.toNat).wrote path .PAN_CMD 0)

/-! ## The ends of swaps -/

/-- MIGRATION_LOAD_DONE: the spare of die d's migration has been loaded, and F is chosen (R501). -/
def execMigrationLoadDone (d : Fin 2) (s : State) : Res :=
  .next (match Table.get? s.pan.migs d.val with
  | some m => if m.loaded then s else s.migLoaded d.val m
  | none => s)

/-- HALT_EVENT: HALT reaches a tile, which stops at its boundary; the old tile of a migration past its output cut
leaves service (R157, R159, R501 steps 4 and 5). -/
def execHaltEvent (tile : Fin 68) (s : State) : Res :=
  let n := tile.val
  let s := s.tileEvent n evHALT
  .next (match Table.get? s.pan.migs (dieOf n) with
  | some m => if m.old = n && s.migCut m then (s.migEnd (dieOf n) m).panNext else s
  | none => s)

/-- SELFTEST_DONE: the self-test of a tile, or of a renderer, ends: with no failure, or with its failing rows
repaired into `rows` spare rows, the unit becomes a free spare; otherwise it is retired (R516, R517). -/
def execSelftestDone (renderer : Bool) (unit : Fin 68) (fail : Option (Fin 4)) (rows : Option (Fin 33)) (s : State) : Res :=
  let u := unit.val
  let kind := if renderer then kOPAL else kTILE
  .next (if s.role kind u != roTEST then s
  else
    let used := Table.getD s.pan.csUsed u 0 + (match rows with | some r => r.val | none => 0)
    let pass := fail.isNone || (!renderer && rows.isSome && decide (used ≤ 32))
    let code := match fail with | some c => c.val | none => 0
    let t := Table.getD s.pan.tests u (0, 0)
    let t' := if pass then (t.1 + 1, 0) else (t.1, 1 + code)
    let s : State := if renderer then s else { s with pan := { s.pan with
      tests := Table.set (0, 0) s.pan.tests u t', csUsed := Table.set 0 s.pan.csUsed u (min used 32) } }
    if pass then
      let s := (s.stat 0x9C 1).setRole kind u roFREE
      (if renderer then s else s.setTile u { s.tile u with state := gtIDLE, haltCause := 0 }).panNext
    else
      let s := ((s.stat 0x9E 1).setRole kind u roRETIRED).raise Ev.SELFTEST_FAIL 0 [(0, 1, kind), (1, 2, u), (3, 1, code)]
      if renderer then s.spareEmpty kOPAL 0xFF else s.tilesEmpty (dieOf u))

/-- Tags that hold no block for every 128-byte unit of h in the raw ring: bits [23:20] of each are 0xF (R506). -/
def emptyTags (h ring : Nat) : Table Nat Byte :=
  (List.range (ring / 16384)).map (fun j => (16384 * j + 128 * h + 122, 0xF0))

/-- Two tables of bytes as one, keys rising. -/
def mergeMem : Nat → Table Nat Byte → Table Nat Byte → Table Nat Byte
  | 0, a, b => a ++ b
  | _ + 1, [], b => b
  | _ + 1, a, [] => a
  | n + 1, x :: a, y :: b => if x.1 < y.1 then x :: mergeMem n a (y :: b) else y :: mergeMem n (x :: a) b

/-- The cellar part of h as zeros, with empty tags in the raw ring (R506). -/
def State.zeroPc (s : State) (h : Nat) : State :=
  let h := h % 128
  let keep := s.mem.filter (fun e => !(decide (e.1 < cellarSize) && e.1 / 128 % 128 == h))
  let tags := emptyTags h (s.gib * 2 ^ 30)
  { s with mem := mergeMem (keep.length + tags.length) keep tags }

/-- Bytes per second of the mirror writes of one HBM pseudo-channel: a 128-byte unit for each block of the ring, spread
over 128 of them (R505). -/
def State.mirrorRate (s : State) : Nat :=
  ((List.range 8).map (fun k =>
    if s.hubCopy k then 32 * (s.fOct k).1 / (80 * (s.fOct k).2) else 0)).sum

/-- TCLK cycles that the copy of 1 GiB takes at MOVE_GBPS less the mirror rate (R505, R518). -/
def State.moveCycles (s : State) : Nat :=
  2 ^ 30 * usCycles * 10 ^ 6 / (s.budget 2 19 * 10 ^ 9 - s.mirrorRate)

/-- The last commands of a move, as many as the history window can show: the reads of the last units of h, and the writes of
those units, or of zeros, in the reserve (R359, R505, R506). -/
def State.moveLog (s : State) (m : MemMove) : State :=
  let unit := fun (i : Nat) => 16384 * (2 ^ 23 - 128 + i) + 128 * m.hpc
  let s := s.each (if m.dead then 0 else 128) (fun s i => s.memLog srcControl false (unit i) 128)
  { s with cel := (List.range 128).foldl (fun (c : CelState) i => c.mirror s.now m.hpc m.reserve (unit i) 128) s.cel }

/-- MEM_MOVE_COPY_DONE: the copy, or the zeros of R506, stand in the reserve, and h is remapped to it (R505, R506). -/
def execMemMoveCopyDone (s : State) : Res :=
  .next (match s.pan.move with
  | none => s
  | some m =>
    if !m.dead && decide (s.now < m.since + s.moveCycles) then s
    else
    let before := s.downPcs
    let s : State := { s with pan := { s.pan with move := none } }
    let s := s.moveLog m
    let s := if m.dead then s.zeroPc m.hpc else s.stat 0x90 (2 ^ 30 : Nat)
    let s : State := { s with cel := { s.cel with moved := Table.insert natLt s.cel.moved m.hpc m.reserve } }
    let s := s.lossSync before
    let s := s.when m.dead (·.raise Ev.PC_RELEASED m.hpc [(0, 1, 1), (1, 2, 0)])
    let s := s.swapUsed kMEM m.hpc m.reserve 0 m.cause
    let s := s.when ((List.range 8).all (fun i => s.cel.moved.any (fun e => e.2 == 136 + i))) (·.spareEmpty kMEM 0xFF)
    s.panNext)

/-- LANE_SWAP: the two ends of port p have changed to the new lane map, or, with `ok` false, could not: the lane that
the pantry swaps gives way to the spare, and the link stays up (R508). -/
def execLaneSwap (p : Fin 6) (ok : Bool) (s : State) : Res :=
  let p := p.val
  .next (match s.pan.lane with
  | none => s
  | some w =>
    if w.unit / 5 != p then s
    else
      let s : State := { s with pan := { s.pan with lane := none } }
      match s.spareLane p with
      | some n =>
        if !ok then (s.swapFail kLANE w.unit 3 0 w.cause).panNext
        else
          let x := s.port p
          let lanes := x.lanes - 2 ^ (w.unit % 5) + 2 ^ (n % 5)
          let s := (s.setPort p { x with lanes := lanes }).setFld FAB_PORT_STAT.SPARE_LANE p (w.unit % 5)
          let s := (s.setRole kLANE n roSPARE).setRole kLANE w.unit roRETIRED
          (s.swapUsed kLANE w.unit n 0 w.cause).lanesEmpty.panNext
      | none => (s.swapFail kLANE w.unit 3 0 w.cause).panNext)

/-- CORE_OFFLINE_ACK: the system image answers OFFLINE within 150 ms: the spare takes the logical number of the
failing core (R509, R568). -/
def execCoreOfflineAck (s : State) : Res :=
  .next (match s.pan.core with
  | none => s
  | some c =>
    if c.since + 150 * msCycles < s.now then s
    else
      let s : State := { s with pan := { s.pan with core := none } }
      let s := (s.setRole kCORE c.core roRETIRED).setRole kCORE c.spare roSPARE
      ((s.swapUsed kCORE c.core c.spare 0 c.cause).spareEmpty kCORE 0xFF).panNext)

/-- CORE_SWAP_TIMEOUT: no answer has come within 150 ms: the swap is abandoned and the core stays in service (R568). -/
def execCoreSwapTimeout (s : State) : Res :=
  .next (match s.pan.core with
  | none => s
  | some c =>
    if s.now ≤ c.since + 150 * msCycles then s
    else (({ s with pan := { s.pan with core := none } } : State).swapFail kCORE c.core 1 0 c.cause).panNext)

/-! ## The spare map at power-up and at a warm reset (R498) -/

/-- Each unit takes its identity position unless it is retired, and the position of a retired unit goes to the lowest
free spare of its kind on the same die. -/
def State.pantryRebuild (s : State) : State :=
  let retired := s.pan.roles.filter (fun e => e.2 == roRETIRED)
  let s : State := { s with pan := { s.pan with
    roles := retired, asks := [], waiting := [], migs := [], move := none, lane := none, core := none, rotNow := false,
    approved := none } }
  let s := s.each 272 (fun s u =>
    if s.role kSLICE u = roRETIRED then s else s.setRole kSLICE u (homeRole kSLICE u))
  let s := s.each 256 (fun s c => s.setFld CNV_CH_ROUTE.SERVING c 0)
  let s := s.each 8 (fun s k => s.each 32 (fun s i =>
    if s.role kSLICE (34 * k + i) = roRETIRED then
      match s.freeSlice k i with
      | some p => (s.setRole kSLICE (34 * k + p) roSPARE).setFld CNV_CH_ROUTE.SERVING (32 * k + i) (laneCode p)
      | none => s
    else s))
  let s := s.each 68 (fun s n => s.setTile n { s.tile n with
    assign := if s.role kTILE n = roRETIRED then .none else .home })
  let s := s.each 68 (fun s n =>
    match (if s.role kTILE n = roRETIRED then homeGroup n else none) with
    | some g =>
      match s.freeSpare kTILE (dieTiles (dieOf n)) with
      | some p => (s.setRole kTILE p roSPARE).setTile p { s.tile p with assign := .serves g }
      | none => s
    | none => s)
  let s : State := { s with oplMap := [], oplSwap := none }
  let s := s.each 16 (fun s l =>
    if s.role kOPAL l = roRETIRED && s.role kOPAL 16 = roFREE then
      let s := s.setRole kOPAL 16 roSPARE
      { s with oplMap := Table.insert natLt s.oplMap l 16 }
    else s)
  let s := s.each 6 (fun s p =>
    match (List.range 4).find? (fun l => s.role kLANE (5 * p + l) = roRETIRED) with
    | some l => (s.setFld FAB_PORT_STAT.SPARE_LANE p l).setRole kLANE (5 * p + 4)
        (if s.role kLANE (5 * p + 4) = roRETIRED then roRETIRED else roSPARE)
    | none => s.setFld FAB_PORT_STAT.SPARE_LANE p 4)
  match (List.range 8).find? (fun u => s.role kCORE u = roRETIRED) with
  | some _ => s.setRole kCORE 8 (if s.role kCORE 8 = roRETIRED then roRETIRED else roSPARE)
  | none => s

end Sys2Proof.Machine
end

