-- ==== Sys2Proof/Machine/Nvme.lean ====
section
/-! DEFINITION. The NVMe host and the record log on its drives (R432 to R439). -/

namespace Sys2Proof.Machine

def State.drive (s : State) (d : Nat) : NvmDrive := Table.getD s.stm.drives d {}
def State.setDrive (s : State) (d : Nat) (x : NvmDrive) : State :=
  { s with stm := { s.stm with drives := Table.set {} s.stm.drives d x } }
def State.logSet (s : State) (n : Nat) : NvmSet := Table.getD s.stm.sets n {}
def State.setLogSet (s : State) (n : Nat) (x : NvmSet) : State :=
  { s with stm := { s.stm with sets := Table.set {} s.stm.sets n x } }

def State.sub (s : State) (i : Nat) : Sub := Table.getD s.stm.subs i {}
def State.setSub (s : State) (i : Nat) (x : Sub) : State :=
  { s with stm := { s.stm with subs := Table.set {} s.stm.subs i x } }

/-- Items of subscriber i are dropped: counted, carried to the next item, and reported at the first drop after 1 s
without one (R419, R441). -/
def State.subDrop (s : State) (i n : Nat) : State :=
  if n = 0 then s
  else
    let s := (s.addFld STM_SUB_DROPS.COUNT i n).stat (0x3004 + 8 * i) n
    let x := s.sub i
    let r := x.burst.hit s.now sCycles n
    let s := s.setSub i { x with drops := x.drops + n, burst := r.2.2 }
    s.when r.1 (·.raise Ev.STM_DROP 0 [(0, 1, i), (1, 4, r.2.1)])

/-! ## Drives of a set (R433) -/

/-- The drives of log set n, in the order of DRIVE_INDEX. -/
def State.setDrives (s : State) (n : Nat) : List Nat :=
  ((List.range 32).filter (fun d => s.flag NVM_DRIVE.EN d && s.fld NVM_DRIVE.SET d == n)).mergeSort
    (fun a b => decide (s.fld NVM_DRIVE.INDEX a ≤ s.fld NVM_DRIVE.INDEX b))

/-- Those that have not failed. -/
def State.liveDrives (s : State) (n : Nat) : List Nat :=
  (s.setDrives n).filter (fun d => !bit (s.fld NVM_SET_STAT.FAILED n) (s.fld NVM_DRIVE.INDEX d))

def State.setState (s : State) (n : Nat) : Nat := s.fld NVM_SET_STAT.STATE n

/-! ## Commands (R432, R434) -/

/-- A command that waits for those before it and holds back those after it: Flush, and a deallocation. -/
def NvmOp.barrier (o : NvmOp) : Bool :=
  match o with
  | .write .. => false
  | _ => true

/-- How many commands of a queue may be under way: the writes before the first barrier, or the barrier alone. -/
def underWay (l : List NvmCmd) : Nat :=
  match l with
  | [] => 0
  | c :: _ => if c.op.barrier then 1 else (l.takeWhile (fun x => !x.op.barrier)).length

/-- The I/O queue pairs of each drive in use (R433). -/
def State.queuePairs (s : State) : Nat :=
  min 4 (64 / ((List.range 32).filter (fun d => s.flag NVM_DRIVE.EN d)).length.max 1)

/-- How many commands of drive d may be under way: its queues have 256 entries each (R433). -/
def State.driveRoom (s : State) (d : Nat) : Nat := min (underWay (s.drive d).cmds) (256 * s.queuePairs)

/-- Drive d can be reached: its port is a root port whose link is up (R432). -/
def State.driveUp (s : State) (d : Nat) : Bool :=
  s.flag PCI_CTRL.ROLE (s.fld NVM_DRIVE.PORT d) && s.flag PCI_STATUS.LINK_UP (s.fld NVM_DRIVE.PORT d)

/-- A command leaves for drive d: admin or I/O queue, opcode, its operands; one for a drive that cannot be reached is
lost. -/
def State.nvmSend (s : State) (d : Nat) (io : Bool) (op : Nat) (args : List Nat) (bs : List Byte) : State :=
  if s.driveUp d then s.emit (.send (.pcie (s.fld NVM_DRIVE.PORT d)) ([d, b2n io, op] ++ args) bs) else s

/-- An I/O command leaves for drive d, for its namespace (R432, R433). -/
def State.nvmOut (s : State) (d : Nat) (o : NvmOp) : State :=
  let ns := (s.reg .NVM_DRIVE_NSID d).toNat
  match o with
  | .write a bs => s.nvmSend d true 1 [ns, a] bs
  | .read a n => s.nvmSend d true 2 [ns, a, n] []
  | .flush => s.nvmSend d true 0 [ns] []
  | .dealloc a n => s.nvmSend d true 9 [ns, a, n] []

/-- The admin commands that bring drive d into use: Identify of the controller and of the namespace, Set Features (Number of
Queues), and for each queue pair the creation of its completion queue and its submission queue, at places in system memory
that the manual does not give (R432, R433). -/
def State.nvmSetup (s : State) (d : Nat) : State :=
  let place := fun (q : Nat) (sq : Bool) => Config.free "place of an NVMe queue in system memory" [(d : Nat), (q : Nat), (b2n sq : Nat)] 0
  let s := s.nvmSend d false 0x06 [1] []
  let s := s.nvmSend d false 0x06 [0, (s.reg .NVM_DRIVE_NSID d).toNat] []
  let s := s.nvmSend d false 0x09 [7, s.queuePairs] []
  s.each s.queuePairs (fun s q =>
    (s.nvmSend d false 0x05 [q + 1, 256, place q false] []).nvmSend d false 0x01 [q + 1, 256, place q true] [])

/-- The queue pairs of drive d are deleted: each submission queue, then its completion queue. -/
def State.nvmRelease (s : State) (d : Nat) : State :=
  s.each s.queuePairs (fun s q => (s.nvmSend d false 0x00 [q + 1] []).nvmSend d false 0x04 [q + 1] [])

/-- Issue every command of drive d that may be under way. -/
def State.nvmIssue (s : State) (d : Nat) : State :=
  let l := (s.drive d).cmds
  let k := s.driveRoom d
  let s := s.over ((l.take k).filter (fun c => c.issued.isNone)) (fun s c => s.nvmOut d c.op)
  let l' := (l.take k).map (fun c => { c with issued := some (c.issued.getD s.now) }) ++ l.drop k
  s.setDrive d { s.drive d with cmds := l' }

/-- Append a command to drive d's queue. -/
def State.nvmPush (s : State) (d : Nat) (o : NvmOp) : State :=
  (s.setDrive d { s.drive d with cmds := (s.drive d).cmds ++ [{ op := o }] }).nvmIssue d

/-- Gather bytes for drive d; each full transfer of at most 256 KiB is written (R433). -/
def State.nvmFlow : Nat → State → Nat → State
  | 0, s, _ => s
  | n + 1, s, d =>
    let x := s.drive d
    if x.xfer = 0 || x.buf.length < x.xfer then s
    else
      let s := s.setDrive d { x with buf := x.buf.drop x.xfer, bufAt := x.bufAt + x.xfer }
      State.nvmFlow n (s.nvmPush d (.write x.bufAt (x.buf.take x.xfer))) d

def State.nvmBytes (s : State) (d : Nat) (bs : List Byte) : State :=
  let x := s.drive d
  let s := s.setDrive d { x with buf := x.buf ++ bs }
  State.nvmFlow ((x.buf.length + bs.length) / 512 + 1) s d

/-- Write what drive d's buffer holds. -/
def State.nvmFlushBuf (s : State) (d : Nat) : State :=
  let x := s.drive d
  if x.buf = [] then s
  else (s.setDrive d { x with buf := [], bufAt := x.bufAt + x.buf.length }).nvmPush d (.write x.bufAt x.buf)

/-! ## The record-log format (R436 to R438) -/

def segSize : Nat := 2 ^ 26
def ckptSize : Nat := 64 + 512
def closeSize : Nat := 64 + 8192

/-- Segment slots on a drive of a capacity. -/
def segCountOf (capacity : Nat) : Nat := (capacity - 2 ^ 20) / segSize

/-- The byte address of a slot. -/
def slotAt (j : Nat) : Nat := 2 ^ 20 + j * segSize

/-- Bytes that hold a place in a drive's buffers: gathered, or written and not acknowledged (R433). -/
def NvmDrive.buffered (x : NvmDrive) : Nat :=
  x.buf.length + x.cmds.foldl (fun n c => match c.op with
    | .write _ bs => n + bs.length
    | _ => n) 0

/-- Bytes of a drive's open segment that are not completed: in its buffers, or written and not acknowledged (R435). -/
def NvmDrive.awaiting (x : NvmDrive) : Nat :=
  match x.seg with
  | none => 0
  | some (_, slot) => x.buf.length + x.cmds.foldl (fun n c => match c.op with
      | .write a bs => if slotAt slot ≤ a && a < slotAt (slot + 1) then n + bs.length else n
      | _ => n) 0

/-- 4,092 bytes and their CRC. -/
def sealed (bs : List Byte) : List Byte :=
  let b := (bs ++ zeros 4092).take 4092
  b ++ leBytes 4 (crc32c b)

/-- A superblock copy. -/
def superblock (index drives : Nat) (setId : List Byte) (segs uid gen : Nat) (closed : Option Nat) (slot : Nat) :
    List Byte :=
  sealed ([0x43, 0x5A, 0x52, 0x45, 0x43, 0x4C, 0x4F, 0x47] ++ leBytes 2 1 ++ leBytes 2 index ++ leBytes 2 drives ++
    zeros 2 ++ setId ++ leBytes 8 segs ++ leBytes 8 uid ++ leBytes 8 gen ++
    leBytes 8 (closed.getD (2 ^ 64 - 1)) ++ leBytes 8 slot)

/-- A superblock copy is valid: MAGIC, VERSION and CRC. -/
def superOk (b : List Byte) : Bool :=
  b.length == 4096 && b.take 8 == [0x43, 0x5A, 0x52, 0x45, 0x43, 0x4C, 0x4F, 0x47] && le b 8 2 == 1 &&
  le b 4092 4 == crc32c (b.take 4092)

/-- The valid copy with the higher GENERATION. -/
def superOf (a b : List Byte) : Option (List Byte) :=
  match superOk a, superOk b with
  | true, true => some (if le a 48 8 < le b 48 8 then b else a)
  | true, false => some a
  | false, true => some b
  | false, false => none

/-- Where a superblock of a GENERATION goes. -/
def superAt (gen : Nat) : Nat := if gen % 2 = 0 then 0 else 2 ^ 19

/-- A record: header and payload, padded. -/
def logRecordBytes (type flags stream seq drops item arr : Nat) (payload : List Byte) : List Byte :=
  let h := [0x43, 0x5A, 0x52, 0x48] ++ leBytes 1 type ++ leBytes 1 flags ++ leBytes 2 stream ++ leBytes 8 seq ++
    leBytes 4 payload.length ++ leBytes 4 drops ++ leBytes 8 item ++ otBytes arr ++ zeros 12
  h ++ leBytes 4 (crc32c h) ++ leBytes 4 (crc32c payload) ++ payload ++
  zeros ((64 - payload.length % 64) % 64)

/-- Size of a record with a payload of n bytes. -/
def logRecordSize (n : Nat) : Nat := 64 + (n + 63) / 64 * 64

/-- Entries [a, a+n) of a segment's table of first records. -/
def entryBytes (t : Table Nat (Nat × Nat × Nat)) (a n : Nat) : List Byte :=
  ((List.range n).map (fun i =>
    match Table.get? t (a + i) with
    | some (off, seq, arr) => leBytes 4 off ++ zeros 4 ++ leBytes 8 seq ++ otBytes arr ++ zeros 4
    | none => leBytes 4 (2 ^ 32 - 1) ++ zeros 28)).flatten

/-- The segment header of drive d leaves with the segment's first record, whose RECORD_SEQ it holds (R437; DESIGN CHOICE, log
entry 108). -/
def State.segHeader (s : State) (n d : Nat) : State :=
  let x := s.drive d
  match x.opened, x.seg with
  | some t, some (seq, slot) =>
    (s.setDrive d { x with opened := none }).nvmBytes d
      (sealed ([0x43, 0x5A, 0x53, 0x47] ++ leBytes 2 1 ++ leBytes 2 (s.fld NVM_DRIVE.INDEX d) ++ (s.logSet n).setId ++
        leBytes 8 seq ++ leBytes 8 slot ++ leBytes 8 (s.logSet n).recSeq ++ otBytes t))
  | _, _ => s

/-- Append a record to the open segment of drive d of set n. -/
def State.putRecord (s : State) (n d type flags stream drops item arr : Nat) (payload : List Byte) : State :=
  let s := s.segHeader n d
  let l := s.logSet n
  let x := s.drive d
  let q := x.fill / 2 ^ 18
  let entries := match Table.get? x.entries q with
    | some _ => x.entries
    | none => Table.insert natLt x.entries q (x.fill, l.recSeq, arr)
  let bs := logRecordBytes type flags stream l.recSeq drops item arr payload
  let s := s.setLogSet n { l with recSeq := l.recSeq + 1 }
  (s.setDrive d { x with fill := x.fill + bs.length, entries := entries }).nvmBytes d bs

/-- Write the checkpoints that are due: one for each 4 MiB filled (R438). -/
def State.checkpoint (s : State) (n d : Nat) : State :=
  let x := s.drive d
  if x.ckpts < 15 && decide ((x.ckpts + 1) * 2 ^ 22 ≤ x.fill) then
    (s.setDrive d { x with ckpts := x.ckpts + 1 }).putRecord n d 3 0 0 0 0 0 (entryBytes x.entries (16 * x.ckpts) 16)
  else s

/-- Write the superblock of drive d (R436). -/
def State.writeSuper (s : State) (n d : Nat) : State :=
  let x := s.drive d
  s.nvmPush d (.write (superAt x.gen) (superblock (s.fld NVM_DRIVE.INDEX d) (s.setDrives n).length (s.logSet n).setId
    x.segCount (s.logSet n).uid x.gen x.lastClosed x.lastSlot))

/-- Close drive d's segment: PAD up to the space of the CLOSE record, CLOSE, Flush, superblock (R438, R439). -/
def State.closeSeg (s : State) (n d : Nat) : State :=
  match (s.drive d).seg with
  | none => s
  | some (seq, slot) =>
    let rest := segSize - closeSize - (s.drive d).fill
    let s := if rest = 0 then s else s.putRecord n d 2 0 0 0 0 0 (zeros (rest - 64))
    let s := s.putRecord n d 4 0 0 0 0 0 (entryBytes (s.drive d).entries 0 256)
    let s := (s.nvmFlushBuf d).nvmPush d .flush
    let x := s.drive d
    (s.setDrive d { x with seg := none, gen := x.gen + 1, lastClosed := some seq, lastSlot := slot }).writeSuper n d

/-- Can drive d open a segment: a slot is free, or the policy overwrites (R435)? -/
def State.canOpen (s : State) (n d : Nat) : Bool :=
  let x := s.drive d
  x.segCount != 0 && (decide (x.used < x.segCount) || !s.flag NVM_SET_CFG.POLICY n)

/-- Open the next segment of drive d; a slot in use is deallocated first (R435, R437). -/
def State.openSeg (s : State) (d : Nat) : State :=
  let x := s.drive d
  let a := slotAt x.nextSlot
  let s := if x.used < x.segCount then s else s.nvmPush d (.dealloc a segSize)
  s.setDrive d { s.drive d with
    opened := some s.time.ot
    seg := some (x.nextSeq, x.nextSlot)
    fill := 4096
    ckpts := 0
    entries := []
    buf := []
    bufAt := a
    used := min x.segCount (x.used + 1)
    nextSeq := x.nextSeq + 1
    nextSlot := (x.nextSlot + 1) % x.segCount }

/-- A record of n bytes fits the open segment with the checkpoints that it makes due. -/
def NvmDrive.fits (x : NvmDrive) (n : Nat) : Bool :=
  let f := x.fill + n
  decide (f + ckptSize * (min 15 (f / 2 ^ 22) - x.ckpts) ≤ segSize - closeSize)

/-- What became of a record: written; waits for a buffer; dropped. -/
inductive LogRes where
  | done | wait | drop
deriving DecidableEq, Repr

/-- Append an item to log set n (R435): to the drive whose open segment has the fewest bytes awaiting completion. -/
def State.logItem : Nat → State → (n i stream drops seq arr : Nat) → List Byte → LogRes × State
  | 0, s, _, _, _, _, _, _, _ => (.drop, s)
  | k + 1, s, n, i, stream, drops, seq, arr, item =>
    let size := logRecordSize item.length
    let ds := (s.liveDrives n).filter (fun d => (s.drive d).seg.isSome || s.canOpen n d)
    let best := ds.foldl (fun (m : Option Nat) d => match m with
      | none => some d
      | some e => if (s.drive d).awaiting < (s.drive e).awaiting then some d else some e) none
    if s.setState n = 1 then (.wait, s)
    else if s.setState n != 2 || segSize - closeSize - 4096 - 15 * ckptSize < size then (.drop, s)
    else match best with
      | none => (.drop, (s.setFld NVM_SET_STAT.STATE n 3).raise Ev.SET_FULL 0 [(0, 1, n)])
      | some d =>
        let x := s.drive d
        if x.buffered != 0 && decide (2 ^ 19 < x.buffered + size) then (.wait, s)
        else if x.seg.isNone then State.logItem k (s.openSeg d) n i stream drops seq arr item
        else if !x.fits size then State.logItem k (s.closeSeg n d) n i stream drops seq arr item
        else
          let a := match x.seg with
            | some (_, slot) => slotAt slot + x.fill
            | none => 0
          let s := s.putRecord n d 1 (b2n (drops != 0)) stream drops seq arr item
          let s := s.setDrive d { s.drive d with recs := (s.drive d).recs ++ [(a, size, i)] }
          (.done, iter (fun s => s.checkpoint n d) 15 s)

/-! ## Failures (R434) -/

/-- Drive d fails: its uncompleted records are dropped and counted, and a set with no drive left stops. -/
def State.nvmFail (s : State) (d status : Nat) : State :=
  let n := s.fld NVM_DRIVE.SET d
  let idx := s.fld NVM_DRIVE.INDEX d
  let recs := (s.drive d).recs
  let s := s.setFld NVM_SET_STAT.FAILED n (s.fld NVM_SET_STAT.FAILED n ||| 2 ^ idx)
  let s := (s.setDrive d {}).raise Ev.DRIVE_FAILED 0 [(0, 1, n), (1, 1, idx), (2, 2, status)]
  let s := s.over recs (fun s r => s.subDrop r.2.2 1)
  s.when ((s.liveDrives n) == []) (·.setFld NVM_SET_STAT.STATE n 0)

/-- PCIe port p powers down: the drives of log sets on it fail, and their records are dropped and counted (R434, R543).  The
status that DRIVE_FAILED gives is free. -/
def State.nvmPortDown (s : State) (p : Nat) : State :=
  s.each 32 (fun s d =>
    let n := s.fld NVM_DRIVE.SET d
    s.when (s.flag NVM_DRIVE.EN d && s.fld NVM_DRIVE.PORT d == p && s.setState n != 0 && (s.liveDrives n).contains d)
      (fun s =>
        let r := s.draw "status of a drive whose port powers down" [(d : Nat)]
        r.2.nvmFail d r.1))

/-- Records of a drive that some bytes not completed touch. -/
def NvmDrive.pending (x : NvmDrive) : List (Nat × Nat × Nat) :=
  let open_ := (x.bufAt, x.buf.length) :: x.cmds.filterMap (fun c => match c.op with
    | .write a bs => some (a, bs.length)
    | _ => none)
  x.recs.filter (fun r => open_.any (fun w => decide (w.1 < r.1 + r.2.1) && decide (r.1 < w.1 + w.2)))

/-- NVME_CMD_COMPLETE: command j of drive d's queue completes with a status (code type and code, 0 success); an
error is retried twice (R434). -/
def execNvmeCmdComplete (d : Fin 32) (j : Nat) (status : BitVec 16) (s : State) : Res :=
  let d := d.val
  let x := s.drive d
  .next (if s.driveRoom d ≤ j then s
  else match x.cmds[j]? with
    | none => s
    | some c =>
      if status = 0 then
        let y := { x with cmds := x.cmds.eraseIdx j }
        (s.setDrive d { y with recs := y.pending }).nvmIssue d
      else if c.tries < 2 then
        let c := { c with tries := c.tries + 1, issued := some s.now }
        (s.setDrive d { x with cmds := x.cmds.set j c }).nvmOut d c.op
      else s.nvmFail d status.toNat)

/-- NVME_CMD_TIMEOUT: command j of drive d has not completed for 1 s (R434).  What DRIVE_FAILED gives as its status
is not stated and stays free. -/
def execNvmeCmdTimeout (d : Fin 32) (j : Nat) (s : State) : Res :=
  let d := d.val
  .next (match (s.drive d).cmds[j]? with
  | some c => match c.issued with
    | some t =>
      if t + sCycles ≤ s.now then
        let r := s.draw "status of a command that timed out" [(d : Nat)]
        r.2.nvmFail d r.1
      else s
    | none => s
  | none => s)

/-- NVM_FLUSH_TIMER: FLUSH_MS has passed and a Flush is issued to drive d (R435). -/
def execNvmFlushTimer (d : Fin 32) (s : State) : Res :=
  let n := s.fld NVM_DRIVE.SET d.val
  .next (if (s.liveDrives n).contains d.val && s.setState n = 2 &&
      s.timerDue (tmFlush d.val) (s.fld NVM_SET_CFG.FLUSH_MS n * msCycles) then
    (s.timerSet (tmFlush d.val)).nvmPush d.val .flush
  else s)

/-! ## Start and format (R439) -/

/-- Stop a set at once: records not completed count as dropped (R434). -/
def State.stopSet (s : State) (n : Nat) : State :=
  let used := s.setState n != 0
  (s.over (s.setDrives n) (fun s d =>
    let s := s.over (s.drive d).recs (fun s r => s.subDrop r.2.2 1)
    (s.when used (·.nvmRelease d)).setDrive d {})).setFld NVM_SET_STAT.STATE n 0

/-- A set is to start, at the switch point (NVM_SET_CFG.EN): its drives are brought into use and their superblocks are
read. -/
def State.beginSet (s : State) (n : Nat) : State :=
  let s := ((s.stopSet n).setFld NVM_SET_STAT.FAILED n 0).setFld NVM_SET_STAT.STATE n 1
  s.over (s.setDrives n) (fun s d =>
    ((s.nvmSetup d).nvmOut d (.read (superAt 0) 4096)).nvmOut d (.read (superAt 1) 4096))

/-- Continue the log on a drive whose superblock is `b`: the next segment follows the one after LAST_CLOSED when that
one holds a record (R439). -/
def resumed (p : NvmProbe) (b : List Byte) : NvmDrive :=
  let closed := if le b 56 8 = 2 ^ 64 - 1 then none else some (le b 56 8)
  let segs := le b 32 8
  let seq := match closed with | some n => n + 1 | none => 0
  let slot := match closed with | some _ => le b 64 8 + 1 | none => 0
  let more := b2n p.lastRec.isSome
  { segCount := segs, xfer := min 262144 p.xfer, gen := le b 48 8, lastClosed := closed, lastSlot := le b 64 8,
    used := min segs (seq + more), nextSeq := seq + more, nextSlot := if segs = 0 then 0 else (slot + more) % segs }

/-- The Reads that scan a segment of drive d for its last valid record (R439). -/
def State.scanSeg (s : State) (d a xfer : Nat) : State :=
  if xfer = 0 then s
  else s.each ((segSize + xfer - 1) / xfer) (fun s i => s.nvmOut d (.read (a + i * xfer) (min xfer (segSize - i * xfer))))

/-- NVM_SET_START: a starting set checks its drives and resumes its log, with what it finds on each (R433, R439). -/
def execNvmSetStart (n : Fin 4) (probes : List NvmProbe) (s : State) : Res :=
  let n := n.val
  let ds := s.setDrives n
  let found := ds.map (fun d => (d, probes.find? (fun p => p.drive.val == d && s.driveUp d)))
  let bad := found.find? (fun e => match e.2 with
    | some p => !p.good
    | none => true)
  let supers := found.map (fun e => (e.1, match e.2 with
    | some p => superOf p.copyA p.copyB
    | none => none))
  let first := match supers with
    | (_, some b) :: _ => some (slice b 16 16, le b 12 2)
    | _ => none
  let differs := supers.find? (fun e => match e.2 with
    | some b => some (slice b 16 16, le b 12 2) != first
    | none => true)
  .next (if s.setState n != 1 || ds = [] then s
  else match bad, differs, first with
    | some (d, _), _, _ =>
      let r := s.draw "status of a drive of another format" [(d : Nat)]
      ((r.2.setFld NVM_SET_STAT.FAILED n (2 ^ s.fld NVM_DRIVE.INDEX d)).raise Ev.DRIVE_FAILED 0
        [(0, 1, n), (1, 1, s.fld NVM_DRIVE.INDEX d), (2, 2, r.1)]).stopSet n
    | none, some (d, _), _ =>
      (s.raise Ev.SET_MISMATCH 0 [(0, 1, n), (1, 1, s.fld NVM_DRIVE.INDEX d)]).stopSet n
    | none, none, none => s.stopSet n
    | none, none, some (setId, _) =>
      let next := probes.foldl (fun m p => match p.lastRec with
        | some r => if ds.contains p.drive.val then max m (r.toNat + 1) else m
        | none => m) 0
      let uid := match supers with
        | (_, some b) :: _ => le b 40 8
        | _ => 0
      let s := s.setLogSet n { setId := setId, uid := uid, recSeq := next }
      let s := s.over (found.zip supers) (fun s e =>
        match e.1.2, e.2.2 with
        | some p, some b =>
          let d := e.1.1
          let x := resumed p b
          let s := (s.setDrive d x).raise Ev.DRIVE_READY 0
            [(0, 1, n), (1, 1, s.fld NVM_DRIVE.INDEX d), (2, 8, le b 32 8)]
          let s := s.when (0 < x.segCount) (·.scanSeg d (slotAt ((le b 64 8 + b2n x.lastClosed.isSome) % x.segCount)) x.xfer)
          s.when (s.canOpen n d) (·.openSeg d)
        | _, _ => s)
      s.setFld NVM_SET_STAT.STATE n 2)

/-- FORMAT of set n: new superblocks, both copies, and every slot deallocated (R436, R439). -/
def State.nvmFormat (s : State) (n : Nat) (capacities : List (Fin 32 × Nat)) : State :=
  if s.flag NVM_SET_CFG.EN n then s
  else
    let id := Config.random s.free 16
    let s : State := { s with free := s.free + 1 }
    let s := s.setLogSet n { setId := id, uid := s.reg64 .FAB_UID_LO .FAB_UID_HI 0 }
    s.over (s.setDrives n) (fun s d =>
      let cap := match capacities.find? (fun e => e.1.val == d) with
        | some e => e.2
        | none => 0
      let s := ((s.nvmSetup d).setDrive d { segCount := segCountOf cap }).writeSuper n d
      let s := (s.setDrive d { s.drive d with gen := 1 }).writeSuper n d
      s.nvmPush d (.dealloc (slotAt 0) (segCountOf cap * segSize)))

/-- FORMAT draws its SET_ID from the TRNG, and waits for it (R557). -/
def State.nvmFormatCmd (s : State) (n : Nat) (capacities : List (Fin 32 × Nat)) : State :=
  if s.sec.trngOk then s.nvmFormat n capacities
  else { s with sec := { s.sec with waits := s.sec.waits ++ [.format n capacities] } }

/-- NVM_FORMAT: a write of FORMAT to NVM_SET_CMD of set n; `capacities` is what the drives report (R439). -/
def execNvmFormat (path : Path) (n : Fin 4) (capacities : List (Fin 32 × Nat)) (s : State) : Res :=
  .next ((s.nvmFormatCmd n.val capacities).wrote path .NVM_SET_CMD n.val)

end Sys2Proof.Machine
end

