-- ==== Sys2Proof/Machine/PciPort.lean ====
section
/-! DEFINITION. The PCIe ports: link state, inbound requests of the root port, configuration accesses and errors
(R407 to R412). -/

namespace Sys2Proof.Machine

/-- The port runs as a root port. -/
def State.rootPort (s : State) (p : Nat) : Bool := s.flag PCI_CTRL.ROLE p

/-- The window of a root port: inside it, and inside the cellar or system memory (R411). -/
def State.inWindow (s : State) (p a n : Nat) : Bool :=
  let w := s.fld PCI_IN_SIZE.IN_LOG2 p
  let base := (s.reg .PCI_IN_BASE p).toNat * 65536
  w != 0 && decide (base ≤ a) && decide (a + n ≤ base + 2 ^ w) && (inCellar a n || inSystem a n)

/-- PCI_INBOUND: an inbound request of root port p is served inside the window; outside it a read completes with
unsupported request and a write is dropped (R411).  A read of memory that does not serve is poisoned (R352); with which
error it completes is free. -/
def execPciInbound (p : Fin 2) (addr : BitVec 64) (len : Nat) (write : Option (List Byte)) (s : State) : Res :=
  let p := p.val
  let a := addr.toNat
  .next (if !s.rootPort p || !s.flag PCI_STATUS.LINK_UP p then s
  else match write with
    | some bs => if s.inWindow p a bs.length then s.devPut srcPcie a bs else s.pciUr p
    | none =>
      let t := s
      let s := s.when (s.inWindow p a len) (·.readBy srcPcie a len)
      if t.inWindow p a len && !t.poisonedRange a len then s.emit (.send (.pcie p) [a] (s.bytes a len))
      else if t.inWindow p a len then (s.pciUr p).emit (.pciError p (s.poisonAbort a) a)
      else (s.pciUr p).emit (.pciError p false a))

/-- PCI_CFG_ACCESS: a read or write of PCI_CFG_DATA performs one configuration access in root-port role, which
ends with a result and, for a read, with data; a failed read returns all ones, and an access that the device answers as
unsupported or aborted is counted (R411, R415). -/
def execPciCfgAccess (path : Path) (p : Fin 2) (write : Option (BitVec 32)) (result : Fin 4) (data : BitVec 32)
    (s : State) : Res :=
  let p := p.val
  let root := s.rootPort p
  .next (match write with
  | some v =>
    let s := s.setReg .PCI_CFG_DATA p v
    let s := if root then (s.cfgResult p result.val).emit
        (.send (.pcie p) [(s.reg .PCI_CFG_ADDR p).toNat] (leBytes 4 v.toNat)) else s
    s.wrote path .PCI_CFG_DATA p
  | none =>
    let v := if !root then s.reg .PCI_CFG_DATA p else if result.val = 0 then data else 0xFFFFFFFF#32
    let s := if root then (s.setReg .PCI_CFG_DATA p v).cfgResult p result.val else s
    s.emit (.readDone path (Reg.addr .PCI_CFG_DATA p) (leBytes 4 v.toNat)))

/-- A write of PCI_CTRL: ROLE is ignored while EN is 1, speed codes 6 and 7 are ignored, and clearing EN drains
the port, its log sets with it (R408, R415, R543). -/
def State.pciCtrlWrite (s : State) (p v : Nat) : State :=
  let en := s.flag PCI_CTRL.EN p
  let s := s.when (!en) (·.setFld PCI_CTRL.ROLE p (bits v 30 30))
  let s := s.when (decide (bits v 29 27 < 6)) (·.setFld PCI_CTRL.MAX_SPEED p (bits v 29 27))
  let s := (s.setFld PCI_CTRL.MAX_WIDTH p (bits v 26 25)).setFlag PCI_CTRL.EN p (bit v 31)
  s.when (en && !bit v 31 && !s.drains (p + 1)) (fun s => (s.nvmPortDown p).dmaDrain (p + 1))

/-- PCI_DISABLE: PCI_CTRL is written with EN = 0: the port drains, then its link goes down (R408). -/
def execPciDisable (path : Path) (p : Fin 2) (value : BitVec 32) (s : State) : Res :=
  .next ((s.pciCtrlWrite p.val (withBits value.toNat 31 31 0)).wrote path .PCI_CTRL p.val)

/-- PCI_LINK_UP: the link of an enabled port trains, within its limits (R407, R412). -/
def execPciLinkUp (p : Fin 2) (speed : Fin 6) (width : Fin 4) (s : State) : Res :=
  let p := p.val
  .next (if !s.flag PCI_CTRL.EN p || s.flag PCI_STATUS.LINK_UP p || s.drains (p + 1) ||
      s.fld PCI_CTRL.MAX_SPEED p < speed.val || s.fld PCI_CTRL.MAX_WIDTH p < width.val then s
  else
    let s := ((s.setFlag PCI_STATUS.LINK_UP p true).setFld PCI_STATUS.SPEED p speed.val).setFld PCI_STATUS.WIDTH p width.val
    (s.setFlag PCI_STATUS.FLIT p (speed.val == 5)).raise Ev.PCI_LINK_UP p
      [(0, 1, speed.val), (1, 1, 2 ^ width.val), (2, 1, s.fld PCI_CTRL.ROLE p)])

/-- PCI_LINK_DOWN: the link goes down without draining: descriptors through the port end with PCIE_ERR; it
retrains at once while EN is 1 (R412). -/
def execPciLinkDown (p : Fin 2) (s : State) : Res :=
  let p := p.val
  .next (if !s.flag PCI_STATUS.LINK_UP p then s
  else
    let s := (s.setFlag PCI_STATUS.LINK_UP p false).dmaPortDown p
    (s.raise Ev.PCI_LINK_DOWN p [(0, 1, 1)]).reinit Block.PCI.index p)

/-- PCI_AER: an uncorrectable error is reported (R407, R413). -/
def execPciAer (p : Fin 2) (status requester : BitVec 32) (s : State) : Res :=
  .next (s.raise Ev.PCI_AER p.val [(0, 4, status.toNat), (4, 4, requester.toNat)])

/-- PCI_CPL_TIMEOUT: a request through port p gets no completion within 10 ms: it is counted, and the descriptor
of the channel that made it ends with PCIE_ERR (R404, R407). -/
def execPciCplTimeout (p : Fin 2) (chan : Option (Fin 32)) (s : State) : Res :=
  let s := s.addFld PCI_ERR.CPL_TIMEOUT p.val 1
  .next (match chan with
  | some c =>
    let d := s.dmaCh c.val
    if (d.phase == .data || d.phase == .readback) && d.touches (p.val + 1) then s.dmaFail c.val
    else if (d.phase == .fetch || d.phase == .relink) && d.space = p.val + 1 then
      (s.setFld DMA_CH_STAT.LAST_STATUS c.val dsPCIE_ERR).dmaHalt c.val dsPCIE_ERR true
    else s
  | none => s)

end Sys2Proof.Machine
end

