-- ==== Sys2Proof/Machine/Streams.lean ====
section
/-! DEFINITION. Streams, their subscribers and paths, Ethernet and the PTP servo (R416 to R431). -/

namespace Sys2Proof.Machine

/-! ## Subscriber entries (R421) -/

def eKind (e : List Byte) : Nat := le e 0 1
def ePort (e : List Byte) : Nat := le e 1 1
def eStream (e : List Byte) : Nat := le e 2 2
def eBudget (e : List Byte) : Nat := le e 4 4
def eGen (e : List Byte) : Nat := le e 8 2
def ePkt (e : List Byte) : Nat := le e 10 1
def eRing (e : List Byte) : Nat := le e 40 8
def eLog2 (e : List Byte) : Nat := le e 48 1

def kETH4 : Nat := 1
def kETH6 : Nat := 2
def kRING : Nat := 3
def kLOG : Nat := 4
def kFAB : Nat := 5

/-- The 64 bytes of the table's entry i. -/
def State.subEntry (s : State) (i : Nat) : List Byte :=
  ((List.range 16).map (fun n => leBytes 4 (s.reg .STM_SUB (16 * i + n)).toNat)).flatten

/-- Write entry i of the table. -/
def State.setEntry (s : State) (i : Nat) (e : List Byte) : State :=
  s.each 16 (fun s n => s.setReg .STM_SUB (16 * i + n) (BitVec.ofNat 32 (le e (4 * n) 4)))

/-- Joined subscribers. -/
def State.joined (s : State) : List Nat := (List.range 256).filter (fun i => eKind (s.subEntry i) != 0)

/-- The word n of port p's address block. -/
def State.ethWord (s : State) (p n : Nat) : Nat := (s.reg .STM_ETH_ADDR (12 * p + n)).toNat
def State.ethMtu (s : State) (p : Nat) : Nat := bits (s.ethWord p 5) 29 16
def State.ethIp4 (s : State) (p : Nat) : Nat := s.ethWord p 4
def State.ethIp6 (s : State) (p : Nat) : Nat :=
  (List.range 4).foldl (fun m n => m + s.ethWord p n * 2 ^ (32 * n)) 0

/-- Every field of an entry lies in its range (R421, R429). -/
def State.entryOk (s : State) (e : List Byte) : Bool :=
  let k := eKind e
  let eth := k == kETH4 || k == kETH6
  let port := if eth then 6 else if k = kRING then 2 else if k = kLOG then 4 else 1
  decide (1 ≤ k) && decide (k ≤ 5) && decide (ePort e < port) && decide (eStream e < 64) &&
  decide (1 ≤ eBudget e) && decide (eBudget e ≤ 48000) && le e 49 8 == 0 && le e 57 7 == 0 &&
  (!eth || (decide (1 ≤ ePkt e) && decide (ePkt e ≤ 128) && decide (le e 11 1 < 64) &&
    decide ((if k = kETH4 then 28 else 48) + 32 + 64 * ePkt e ≤ s.ethMtu (ePort e)))) &&
  (k != kETH4 || le e 20 12 == 0) &&
  (k != kRING || (eRing e % 64 == 0 && decide (4 ≤ eLog2 e) && decide (eLog2 e ≤ 16))) &&
  (k != kFAB || decide (eRing e < 4096))

/-- Two entries with the same kind, port, stream and destination (R422). -/
def sameDest (a b : List Byte) : Bool :=
  eKind a == eKind b && ePort a == ePort b && eStream a == eStream b &&
  (if eKind a = kETH4 || eKind a = kETH6 then slice a 16 16 == slice b 16 16 && le a 12 2 == le b 12 2
   else if eKind a = kLOG then true else eRing a == eRing b)

/-! ## Path capacities (R426) -/

/-- Capacity of a PCIe port in MB/s: 48,000 scaled by rate and width (speed code 0 to 5 for 2.5 to 64 GT/s, width
code 0 to 3 for 1 to 8 lanes). -/
def pcieCapacity (speed width : Nat) : Nat :=
  48000 * (nth [25, 50, 80, 160, 320, 640] speed 0) * 2 ^ width / (640 * 8)

/-- A PCIe port's capacity: as trained, or as limited before it has trained. -/
def State.portCapacity (s : State) (p : Nat) : Nat :=
  if s.flag PCI_STATUS.LINK_UP p then pcieCapacity (s.fld PCI_STATUS.SPEED p) (s.fld PCI_STATUS.WIDTH p)
  else pcieCapacity (s.fld PCI_CTRL.MAX_SPEED p) (s.fld PCI_CTRL.MAX_WIDTH p)

/-- BUDGETs of the entries that a test selects. -/
def budgets (es : List (List Byte)) (f : List Byte → Bool) : Nat := ((es.filter f).map eBudget).foldl (· + ·) 0

/-- Is PCIe port p charged beyond its capacity: by its rings, and by the log sets in proportion to their drives on it?
`drives n p` is the number of drives of set n on root port p. -/
def portOver (es : List (List Byte)) (cap : Nat → Nat) (drives : Nat → Nat → Nat) (p : Nat) : Bool :=
  let rings := budgets es (fun e => eKind e == kRING && ePort e == p)
  let logs := (List.range 4).map (fun n => (budgets es (fun e => eKind e == kLOG && ePort e == n),
    drives n p, drives n 0 + drives n 1))
  decide (cap p * 2 ^ 20 < rings * 2 ^ 20 +
    (logs.map (fun l => if l.2.2 = 0 then 0 else l.1 * l.2.1 * 2 ^ 20 / l.2.2)).foldl (· + ·) 0)

/-- Does the path that entry e takes exceed its capacity under the entries es, e among them?  `ports` is the number of Vyder
ports to count. -/
def pathOver (es : List (List Byte)) (cap : Nat → Nat) (ports : Nat) (drives : Nat → Nat → Nat) (e : List Byte) :
    Bool :=
  if eKind e = kETH4 || eKind e = kETH6 then
    decide (46000 < budgets es (fun x => (eKind x == kETH4 || eKind x == kETH6) && ePort x == ePort e))
  else if eKind e = kRING then portOver es cap drives (ePort e)
  else if eKind e = kLOG then
    let n := ePort e
    drives n 0 + drives n 1 == 0 || (List.range 2).any (fun p => drives n p != 0 && portOver es cap drives p)
  else if eKind e = kFAB then
    decide (40000 < budgets es (fun x => eKind x == kFAB && eRing x == eRing e)) ||
    decide (40000 * ports < budgets es (fun x => eKind x == kFAB))
  else false

/-- Does some path exceed its capacity under these entries? -/
def overPath (es : List (List Byte)) (cap : Nat → Nat) (ports : Nat) (drives : Nat → Nat → Nat) : Bool :=
  es.any (pathOver es cap ports drives)

/-- Drives of set n on root port p. -/
def State.drivesOn (s : State) (n p : Nat) : Nat :=
  ((s.setDrives n).filter (fun d => s.fld NVM_DRIVE.PORT d == p)).length

/-! ## Joining and leaving (R422 to R424) -/

def State.stream? (s : State) (k : Nat) : Option Stream := Table.get? s.stm.streams k
def State.setStream (s : State) (k : Nat) (x : Stream) : State :=
  { s with stm := { s.stm with streams := Table.insert natLt s.stm.streams k x } }

/-- Subscriber i joins with an entry: its first item is the next that enters the stream. -/
def State.subJoin (s : State) (i : Nat) (e : List Byte) (seed : Bool) : State :=
  let st := (s.stream? (eStream e)).getD {}
  let gen := eGen (s.subEntry i)
  let s := s.setEntry i (e.take 8 ++ leBytes 2 gen ++ e.drop 10)
  let s := s.setSub i { rd := st.wp, seed := seed, tokens := 65536 * 1600, filled := s.now, burst := (s.sub i).burst }
  s.raise Ev.SUB_JOINED 0 [(0, 1, i), (1, 2, gen), (3, 8, st.seq)]

/-- Subscriber i leaves: its entry is freed and its GEN rises by one; a LEAVE of it that is running has run (R423). -/
def State.subLeave (s : State) (i cause : Nat) : State :=
  let gen := eGen (s.subEntry i)
  let s := s.setEntry i (zeros 8 ++ leBytes 2 ((gen + 1) % 65536) ++ zeros 54)
  let s := s.when ((s.sub i).leaving.isSome && s.fld STM_CMD_STAT.INDEX 0 == i) (·.setFlag STM_CMD_STAT.BUSY 0 false)
  (s.setSub i { burst := (s.sub i).burst }).raise Ev.SUB_LEFT 0 [(0, 1, i), (1, 1, cause)]

/-- The lowest free index. -/
def State.freeSub (s : State) : Option Nat := (List.range 256).find? (fun i => eKind (s.subEntry i) == 0)

/-- A join of an entry: RESULT, index, GEN and FIRST_SEQ (R422). -/
def State.joinEntry (s : State) (e : List Byte) : Nat × Nat × Nat × Nat × State :=
  let es := s.joined.map s.subEntry
  match s.freeSub with
  | none => (2, 0, 0, 0, s)
  | some i =>
    if es.any (sameDest e) then (3, 0, 0, 0, s)
    else if pathOver (e :: es) s.portCapacity s.vyderUp.length s.drivesOn e then (4, 0, 0, 0, s)
    else if !s.entryOk e then (5, 0, 0, 0, s)
    else match s.stream? (eStream e) with
      | none => (6, 0, 0, 0, s)
      | some st => (1, i, eGen (s.subEntry i), st.seq, s.subJoin i e false)

/-- A leave of index i with a GEN (R423): RESULT. -/
def State.leaveEntry (s : State) (i gen : Nat) : Nat × State :=
  let e := s.subEntry i
  if eKind e = 0 || eGen e != gen then (7, s)
  else match (s.sub i).sent with
    | some _ => (1, s.setSub i { s.sub i with leaving := some 0 })
    | none => (1, s.subLeave i 0)

/-- JOIN through STM_CMD: the entry staged in STM_SUB_STAGE joins or is refused (R422). -/
def State.stmJoin (s : State) : State :=
  let e := ((List.range 16).map (fun n => leBytes 4 (s.reg .STM_SUB_STAGE n).toNat)).flatten
  let (r, i, gen, first, s) := s.joinEntry e
  let s := (s.setFld STM_CMD_STAT.RESULT 0 r).setFlag STM_CMD_STAT.BUSY 0 false
  if r = 1 then
    ((s.setFld STM_CMD_STAT.INDEX 0 i).setFld STM_CMD_STAT.GEN 0 gen).setReg64 .STM_FIRST_SEQ_LO .STM_FIRST_SEQ_HI 0
      first
  else s

/-- LEAVE through STM_CMD (R423). -/
def State.stmLeave (s : State) (i gen : Nat) : State :=
  let r := s.leaveEntry i gen
  let s := r.2.setFld STM_CMD_STAT.RESULT 0 r.1
  if r.1 = 1 then
    ((s.setFld STM_CMD_STAT.INDEX 0 i).setFld STM_CMD_STAT.GEN 0 gen).setFlag STM_CMD_STAT.BUSY 0
      ((s.sub i).leaving.isSome)
  else s

/-- SUB_JOIN of the control protocol: the response's body, which the manual does not lay out, holds index, GEN and
FIRST_SEQ, or the RESULT of a refusal (DESIGN CHOICE, log entry 77). -/
def State.czJoin (s : State) (e : List Byte) : Nat × List Byte × State :=
  if e.length != 64 then (czBAD_REQUEST, [], s)
  else
    let (r, i, gen, first, s) := s.joinEntry e
    if r = 1 then (czOK, leBytes 1 i ++ leBytes 2 gen ++ leBytes 8 first, s) else (czREFUSED, leBytes 1 r, s)

/-- SUB_LEAVE of the control protocol. -/
def State.czLeave (s : State) (i gen : Nat) : Nat × List Byte × State :=
  let r := s.leaveEntry i gen
  if r.1 = 1 then (czOK, [], r.2) else (czREFUSED, leBytes 1 r.1, r.2)

/-- JOIN (R422). -/
def execJoin (via : JoinVia) (s : State) : Res :=
  .next (match via with
  | .reg path => s.stmJoin.wrote path .STM_CMD 0
  | .cz c req e => s.czRun (.session c) req.toNat 0x30 (·.czJoin e))

/-- LEAVE (R423). -/
def execLeave (via : Via) (gen : BitVec 16) (i : Fin 256) (s : State) : Res :=
  .next (match via with
  | .reg path => (s.stmLeave i.val gen.toNat).wrote path .STM_CMD 0
  | .cz c req => s.czRun (.session c) req.toNat 0x31 (·.czLeave i.val gen.toNat))

/-! ## Items (R417 to R419) -/

/-- KIND of an item from its first byte (R420). -/
def itemKind (item : List Byte) : Nat :=
  let b := le item 0 1
  if 1 ≤ b && b ≤ 6 then 1 else if b = 0x21 then 2 else if b = 0x22 then 3 else 4

/-- A stream header (R420). -/
def State.streamHeader (s : State) (kind stream flags seq len off drops arr : Nat) : List Byte :=
  leBytes 1 1 ++ leBytes 1 kind ++ leBytes 2 stream ++ leBytes 2 s.fabAddr ++ leBytes 2 flags ++ leBytes 8 seq ++
  leBytes 4 len ++ leBytes 4 off ++ leBytes 4 drops ++ leBytes 4 (toOt96 arr % 2 ^ 48 / 2 ^ 16)

/-- Write bytes into a ring region from a position. -/
def State.ringPut (s : State) (r : Region) (pos : Nat) (bs : List Byte) : State :=
  let a := pos % r.length
  let k := r.length - a
  (s.devPut srcStream (r.offset + a) (bs.take k)).devPut srcStream r.offset (bs.drop k)

/-- Read bytes of a ring region. -/
def State.ringGet (s : State) (r : Region) (pos n : Nat) : List Byte :=
  (List.range n).map (fun i => s.byte (r.offset + (pos + i) % r.length))

/-- The next item of subscriber i. -/
def State.nextItem (s : State) (i : Nat) : Option StmItem :=
  match s.stream? (eStream (s.subEntry i)) with
  | none => none
  | some st => st.items.find? (fun x => decide ((s.sub i).rd ≤ x.start))

/-- Subscriber i skips to the first item at or after a position; every item skipped counts as dropped, one being
sent among them, after which a leave that waits takes place (R418, R423). -/
def State.skipTo (s : State) (i pos : Nat) : State :=
  match s.stream? (eStream (s.subEntry i)) with
  | none => s
  | some st =>
    let x := s.sub i
    let lost := st.items.filter (fun t => decide (x.rd ≤ t.start) && decide (t.start < pos))
    let rd := match st.items.find? (fun t => decide (max x.rd pos ≤ t.start)) with
      | some t => t.start
      | none => st.wp
    if x.rd < pos then
      let s := (s.setSub i { x with rd := rd, sent := none, waiting := false, back := none }).subDrop i lost.length
      match x.leaving with
      | some c => s.subLeave i c
      | none => s
    else s

/-- The subscribers of a stream. -/
def State.subsOf (s : State) (k : Nat) : List Nat := s.joined.filter (fun i => eStream (s.subEntry i) == k)

/-- An item enters stream k (R416 to R418). -/
def State.streamItem (s : State) (k : Nat) (item : List Byte) : State :=
  match s.stream? k, s.region 4 k with
  | some st, some r =>
    let n := 32 + item.length
    let size := (n + 63) / 64 * 64
    if r.length < size then
      (s.over (s.subsOf k) (fun s i => s.subDrop i 1)).setStream k { st with seq := st.seq + 1 }
    else
      let s := s.over (s.subsOf k) (fun s i => s.skipTo i (st.wp + n - r.length))
      let h := s.streamHeader (itemKind item) k 3 st.seq item.length 0 0 s.time.ot
      let s := s.ringPut r st.wp (h ++ item ++ zeros (size - n))
      let floor := st.wp + size - r.length
      let items := (st.items.filter (fun t => decide (floor ≤ t.start))) ++ [⟨st.wp, size, item.length, st.seq, s.time.ot⟩]
      s.setStream k ⟨st.wp + size, st.seq + 1, items⟩
  | _, _ => s

/-- STREAM_ITEM: an item that left a tile on a kind-1 route enters its stream; in HELD it is discarded and counted (R218,
R416). -/
def execStreamItem (stream : Fin 64) (item : List Byte) (s : State) : Res :=
  .next (match s.offHall 1 stream.val item with
  | some s => if s.outputsOn then s.streamItem stream.val item else s.addFld SYS_HELD_DISCARDS.COUNT 0 1
  | none => s)

/-- HELD begins: unsent items are discarded and not counted; one that is partly sent is aborted and counts as
dropped (R218, R419). -/
def State.streamsHold (s : State) : State :=
  let s := s.over s.joined (fun s i =>
    let x := s.sub i
    let wp := ((s.stream? (eStream (s.subEntry i))).getD {}).wp
    let cut := x.sent.isSome
    let s := s.setSub i { x with rd := wp, sent := none, waiting := false, back := none }
    let s := s.when cut (fun s => s.subDrop i 1)
    s.when x.leaving.isSome (·.subLeave i 0))
  { s with stm := { s.stm with streams := s.stm.streams.map (fun e => (e.1, { e.2 with items := [] })) } }

/-! ## Next hops (R428) -/

/-- The destination of an Ethernet entry: version 6, and the address as a number. -/
def destIp (e : List Byte) : Bool × Nat :=
  if eKind e = kETH6 then (true, ofBe (slice e 16 16)) else (false, ofBe (slice e 16 4))

/-- A multicast address. -/
def isMulticast (v6 : Bool) (ip : Nat) : Bool := if v6 then ip / 2 ^ 120 == 255 else ip / 2 ^ 28 == 14

/-- The group MAC address of a multicast destination. -/
def groupMac (v6 : Bool) (ip : Nat) : Nat :=
  if v6 then 0x333300000000 + ip % 2 ^ 32 else 0x01005E000000 + ip % 2 ^ 23

/-- The next hop of a unicast destination: itself inside the port's prefix, else the gateway. -/
def State.hopIp (s : State) (p : Nat) (v6 : Bool) (ip : Nat) : Nat :=
  let w := s.ethWord p 5
  if v6 then
    let sh := 128 - min 128 (bits w 15 8)
    if ip / 2 ^ sh = s.ethIp6 p / 2 ^ sh then ip
    else (List.range 4).foldl (fun m n => m + s.ethWord p (6 + n) * 2 ^ (32 * n)) 0
  else
    let sh := 32 - min 32 (bits w 7 0)
    if ip / 2 ^ sh = s.ethIp4 p / 2 ^ sh then ip else s.ethWord p 10

/-- The MAC address to which an entry's frames go, when it is known. -/
def State.destMac (s : State) (e : List Byte) : Option Nat :=
  let (v6, ip) := destIp e
  let p := ePort e
  if isMulticast v6 ip then some (groupMac v6 ip)
  else if le e 32 6 != 0 then some (ofBe (slice e 32 6))
  else
    let hop := s.hopIp p v6 ip
    (s.stm.hops.find? (fun h => h.port == p && h.v6 == v6 && h.ip == hop &&
      decide (s.now < h.since + 60 * sCycles))).map (·.mac)

/-- Is port p up in Ethernet mode? -/
def State.ethUp (s : State) (p : Nat) : Bool := s.fld FAB_PORT_CFG.MODE p == 2 && s.portState p == 2

/-- A frame leaves port p, from its MAC address, which the Attic gives, with a VLAN word as R421 lays it out; on a port
that is down it is lost. -/
def State.ethOut (s : State) (p vlan : Nat) (args : List Nat) (bs : List Byte) : State :=
  if s.ethUp p then s.emit (.send (.ethernet p) (nth s.sec.plat.macs p 0 :: vlan :: args) bs) else s

/-- An answer leaves port p, in the VLAN of its replies (R427). -/
def State.ethReply (s : State) (p : Nat) (args : List Nat) (bs : List Byte) : State :=
  s.ethOut p (bits (s.ethWord p 11) 11 0) args bs

/-- Ask for the next hop of subscriber i by ARP (0x806) or Neighbor Discovery (135). -/
def State.askHop (s : State) (i : Nat) : State :=
  let e := s.subEntry i
  let (v6, ip) := destIp e
  let s := s.setSub i { s.sub i with hopTry := some s.now }
  s.ethOut (ePort e) (le e 38 2) [if v6 then 135 else 0x806, s.hopIp (ePort e) v6 ip] []

/-- NEXT_HOP_RETRY: subscriber i's next hop has been unresolved for 1 s: the first failure is reported and the
request is repeated (R428). -/
def execNextHopRetry (i : Fin 256) (s : State) : Res :=
  let x := s.sub i.val
  let e := s.subEntry i.val
  .next (match x.hopTry with
  | some t =>
    if t + sCycles ≤ s.now && (eKind e == kETH4 || eKind e == kETH6) && (s.destMac e).isNone then
      let s := s.when (!x.hopFailed) (·.raise Ev.NEXT_HOP_FAIL 0 [(0, 1, i.val)])
      (s.setSub i.val { x with hopFailed := true }).askHop i.val
    else s
  | none => s)

/-! ## Sending (R425, R428 to R431, R466) -/

/-- Fill subscriber i's token bucket: BUDGET MB/s, at most 64 KiB (R425). -/
def State.refill (s : State) (i : Nat) : State :=
  let x := s.sub i
  let t := x.tokens + (eBudget (s.subEntry i) * (s.now - x.filled) : Nat)
  s.setSub i { x with tokens := min t (65536 * 1600), filled := s.now }

/-- The bucket allows `n` bytes: a longer send needs a full bucket and leaves it in debt.  The engine as a whole sends 100
bytes a cycle (R426). -/
def State.mayPay (s : State) (i n : Nat) : Bool :=
  decide (((min n 65536 * 1600 : Nat) : Int) ≤ (s.sub i).tokens) && decide (s.stm.sentTo ≤ 100 * s.now)

/-- `n` bytes of subscriber i leave the engine. -/
def State.pay (s : State) (i n : Nat) : State :=
  let s := s.setSub i { s.sub i with tokens := (s.sub i).tokens - (n * 1600 : Nat) }
  { s with stm := { s.stm with sentTo := max s.stm.sentTo (100 * s.now) + n } }

/-- The item at subscriber i's RD ends, sent or dropped: RD moves on, and a leave that waits takes place. -/
def State.itemDone (s : State) (i : Nat) (t : StmItem) (sent : Bool) : State :=
  let x := s.sub i
  let s := s.setSub i { x with
    rd := t.start + t.size
    sent := none
    waiting := false
    back := none
    drops := if sent then 0 else x.drops }
  let s := if sent then s.stat (0x3000 + 8 * i) 1 else s.subDrop i 1
  match x.leaving with
  | some c => s.subLeave i c
  | none => s

/-- The bytes of an item in its region. -/
def State.itemBytes (s : State) (k : Nat) (t : StmItem) : List Byte :=
  match s.region 4 k with
  | some r => s.ringGet r (t.start + 32) t.len
  | none => []

/-- The engine reads `n` bytes of an item of stream k, from byte `off` of its place in the region. -/
def State.itemRead (s : State) (k : Nat) (t : StmItem) (off n : Nat) : State :=
  match s.region 4 k with
  | some r =>
    let a := (t.start + off) % r.length
    let m := min n (r.length - a)
    let s := s.readBy srcStream (r.offset + a) m
    s.when (m != n) (·.readBy srcStream r.offset (n - m))
  | none => s

/-- One Ethernet fragment of the item (R429); while the next hop is unresolved the item is dropped (R428). -/
def State.sendEth (s : State) (i : Nat) (e : List Byte) (t : StmItem) : State :=
  match s.destMac e with
  | none => ((s.itemDone i t false)).when ((s.sub i).hopTry.isNone) (fun s => if eKind (s.subEntry i) = 0 then s else s.askHop i)
  | some mac =>
    let s := s.setSub i { s.sub i with hopTry := none, hopFailed := false }
    let off := (s.sub i).sent.getD 0
    let data := slice (s.itemBytes (eStream e) t) off (64 * ePkt e)
    let n := 32 + data.length
    if !s.mayPay i n then s
    else
      let last := decide (t.len ≤ off + data.length)
      let drops := if off = 0 then (s.sub i).drops else 0
      let flags := b2n (off == 0) + 2 * b2n last + 4 * b2n (drops != 0)
      let h := s.streamHeader (itemKind (s.itemBytes (eStream e) t)) (eStream e) flags t.seq t.len off drops t.arr
      let (_, ip) := destIp e
      let s := ((s.itemRead (eStream e) t (32 + off) data.length).pay i n).ethOut (ePort e) (le e 38 2)
        [17, mac, le e 11 1, ip, le e 14 2, le e 12 2] (h ++ data)
      if last then s.itemDone i t true else s.setSub i { s.sub i with sent := some (off + data.length) }

/-- The whole item behind its header, FIRST and LAST set. -/
def State.wholeItem (s : State) (i : Nat) (e : List Byte) (t : StmItem) : List Byte :=
  let item := s.itemBytes (eStream e) t
  let d := (s.sub i).drops
  s.streamHeader (itemKind item) (eStream e) (3 + 4 * b2n (d != 0)) t.seq t.len 0 d t.arr ++ item

/-- The entry that subscriber i fills is complete: CTRL is written, and the item is delivered (R431). -/
def State.ringEnd (s : State) (i : Nat) (e : List Byte) (t : StmItem) (ctrl : Nat) : State :=
  let x := s.sub i
  let s := s.emit (.send (.pcie (ePort e)) [eRing e + 16 * x.ring + 12] (leBytes 4 ctrl))
  (s.setSub i { x with ring := (x.ring + 1) % 2 ^ eLog2 e }).itemDone i t true

/-- One item into the ring entry `entry` that the engine has read (R431): with OWN = 0 the subscriber waits.  The data go
first, and the last word that holds one is read back; its return, the subscriber's next SUB_SEND, writes CTRL (DESIGN CHOICE,
log entry 108). -/
def State.sendRing (s : State) (i : Nat) (e : List Byte) (t : StmItem) (entry : List Byte) : State :=
  let p := ePort e
  let bs := s.wholeItem i e t
  if !s.flag PCI_STATUS.LINK_UP p || s.flag PCI_STATUS.DRAINING p then s
  else if let some ctrl := (s.sub i).back then s.ringEnd i e t ctrl
  else if !bit (le entry 12 4) 31 then
    (s.setSub i { s.sub i with waiting := true }).timerSet (tmPoll i)
  else if !s.mayPay i bs.length then s.setSub i { s.sub i with waiting := false }
  else
    let len := le entry 8 4
    let n := min bs.length len
    let ctrl := b2n (decide (len < bs.length)) * 2 ^ 30 + n % 2 ^ 28
    let s := (s.itemRead (eStream e) t 32 t.len).pay i bs.length
    if n = 0 then s.ringEnd i e t ctrl
    else
      let s := s.emit (.send (.pcie p) [le entry 0 8] (bs.take n))
      let s := s.emit (.readReq p ((le entry 0 8 + n - 1) / 4 * 4) 4)
      s.setSub i { s.sub i with sent := some n, waiting := false, back := some ctrl }

/-- One item into the record log (R435, R438). -/
def State.sendLog (s : State) (i : Nat) (e : List Byte) (t : StmItem) : State :=
  let item := s.itemBytes (eStream e) t
  if !s.mayPay i (32 + t.len) then s
  else
    let r := State.logItem 70 s (ePort e) i (eStream e) (s.sub i).drops t.seq t.arr item
    match r.1 with
    | .wait => s
    | .drop => r.2.itemDone i t false
    | .done => ((r.2.itemRead (eStream e) t 32 t.len).pay i (32 + t.len)).itemDone i t true

/-- One piece to another module, under its credit (R466); with no route for it or for the request of credit, the item
is dropped (R457). -/
def State.sendFab (s : State) (i : Nat) (e : List Byte) (t : StmItem) : State :=
  let bs := s.wholeItem i e t
  let off := (s.sub i).sent.getD 0
  let piece := slice bs off pieceMax
  let dst := eRing e % 4096
  if !s.mayPay i piece.length then s
  else match s.sendPiece dst (eStream e) 1 t.seq off piece with
    | none =>
      let left := bs.length - off
      let s := s.askCredit dst (left / pieceMax * 65536 + entrySize (left % pieceMax))
      if s.addressed && s.nextHops dst == [] then s.itemDone i t false else s
    | some (false, s) => s.itemDone i t false
    | some (true, s) =>
      let s := ((s.itemRead (eStream e) t off piece.length).pay i piece.length).xferAsk dst
      if bs.length ≤ off + piece.length then s.itemDone i t true
      else s.setSub i { s.sub i with sent := some (off + piece.length) }

/-- Subscriber i sends what pacing and its path allow: a fragment, a piece or an item; `entry` is the ring entry
that a PCIE_RING subscriber reads. -/
def State.subSend (s : State) (i : Nat) (entry : List Byte) : State :=
  let e := s.subEntry i
  let s := s.refill i
  if !s.outputsOn then s
  else match s.nextItem i with
    | none => s
    | some t =>
      if eKind e = kETH4 || eKind e = kETH6 then s.sendEth i e t
      else if eKind e = kRING then s.sendRing i e t entry
      else if eKind e = kLOG then s.sendLog i e t
      else if eKind e = kFAB then s.sendFab i e t
      else s

/-- SUB_SEND (R425).  A PCIE_RING subscriber that waits at an entry reads it again only as R431 says; for one that waits for
a read-back it is the read-back's return. -/
def execSubSend (i : Fin 256) (entry : List Byte) (s : State) : Res :=
  .next (if (s.sub i.val).waiting then s else s.subSend i.val entry)

/-- PCIE_RING_POLL: a waiting subscriber re-reads its entry, 1 µs after it read it (R431). -/
def execPcieRingPoll (i : Fin 256) (entry : List Byte) (s : State) : Res :=
  .next (if (s.sub i.val).waiting && s.timerDue (tmPoll i.val) usCycles then s.subSend i.val entry else s)

/-- The host's doorbell makes a waiting subscriber re-read its entry at once (R431). -/
def State.ringDoorbell (s : State) (i : Nat) (entry : List Byte) : State :=
  if (s.sub i).waiting then s.subSend i entry else s

/-- STM_RING_DB. -/
def execStmRingDb (path : Path) (i : Fin 256) (entry : List Byte) (s : State) : Res :=
  .next ((s.ringDoorbell i.val entry).wrote path .STM_RING_DB 0)

/-! ## Received frames (R427, R428) -/

/-- A next hop is learned on port p: the requests of the subscribers that it resolves have ended. -/
def State.learnHop (s : State) (p : Nat) (v6 : Bool) (ip mac : Nat) : State :=
  let rest := s.stm.hops.filter (fun h => !(h.port == p && h.v6 == v6 && h.ip == ip))
  let s : State := { s with stm := { s.stm with hops := rest ++ [⟨p, v6, ip, mac, s.now⟩] } }
  s.over s.joined (fun s i =>
    let e := s.subEntry i
    s.when ((eKind e == kETH4 || eKind e == kETH6) && (s.sub i).hopTry.isSome && (s.destMac e).isSome)
      (·.setSub i { s.sub i with hopTry := none, hopFailed := false }))

/-- ETH_RX_FRAME: a frame received on port p is answered, used, or discarded and counted (R427). -/
def execEthRxFrame (p : Fin 6) (frame : EthFrame) (s : State) : Res :=
  let p := p.val
  .next (if !s.ethUp p then s
  else match frame with
    | .arpRequest target sender mac =>
      if target.toNat = s.ethIp4 p then s.ethReply p [0x807, sender.toNat, mac.toNat] [] else s
    | .arpReply sender mac => s.learnHop p false sender.toNat mac.toNat
    | .ndSolicit target sender mac =>
      if target.toNat = s.ethIp6 p then s.ethReply p [136, sender.toNat, mac.toNat] [] else s
    | .ndAdvert target mac => s.learnHop p true target.toNat mac.toNat
    | .echo4 dst src payload => if dst.toNat = s.ethIp4 p then s.ethReply p [0, src.toNat] payload else s
    | .echo6 dst src payload => if dst.toNat = s.ethIp6 p then s.ethReply p [129, src.toNat] payload else s
    | .pause => s
    | .other => s.addFld STM_ETH_RXDISC.COUNT p 1)

/-! ## The PTP servo (R430) -/

/-- Does dataset a compare better than b?  Two paths to one grandmaster are told apart by their steps, then by the ports that
send (IEEE 1588-2019). -/
def ptpBetter (a b : PtpMaster) : Bool :=
  let key := fun (m : PtpMaster) =>
    if a.gm = b.gm then [m.steps.toNat, m.sender.clock.toNat, m.sender.port.toNat]
    else [m.prio1.toNat, m.cls.toNat, m.accuracy.toNat, m.variance.toNat, m.prio2.toNat, m.gm.toNat]
  match ((key a).zip (key b)).find? (fun e => e.1 != e.2) with
  | some e => decide (e.1 < e.2)
  | none => false

/-- The fixed latency of port p's PMA and FEC, held in the Attic, in 2^-80 s: receive (0) or transmit (1). -/
def phyLatency (p dir : Nat) : Nat := Config.free "PTP latency of an Ethernet port" [(p : Nat), (dir : Nat)] 0

/-- A stamp of port p, with its latency and ASYM_PS taken off, in 2^-80 s (R430). -/
def State.ptpStamp (s : State) (p dir : Nat) (t : BitVec 96) : Int :=
  (t.toNat * 2 ^ 32 : Nat) - (phyLatency p dir : Int) - psToOt (toS 32 (s.reg .STM_PTP_ASYM 0).toNat)

/-- A master is heard: the best of those heard lately is chosen, and a change is reported. -/
def State.ptpAnnounce (s : State) (p : Nat) (m : PtpMaster) : State :=
  let rest := s.stm.masters.filter (fun e => e.1.sender != m.sender &&
    decide (s.now < e.2 + 3 * e.1.intervalMs.toNat * msCycles))
  let best := rest.foldl (fun b e => if ptpBetter e.1 b then e.1 else b) m
  let new := s.stm.master != some best.sender
  let s : State := { s with stm := { s.stm with
    masters := rest ++ [(m, s.now)]
    master := some best.sender
    sync := if new then none else s.stm.sync } }
  s.when new (·.raise Ev.PTP_MASTER 0 [(0, 1, p), (1, 8, best.sender.clock.toNat)])

/-- The Delay_Req that measures the delay of a Sync leaves port p (messageType 1, domain, transport): one for each Sync
(DESIGN CHOICE, log entry 108). -/
def State.delayReq (s : State) (p : Nat) : State :=
  s.ethReply p [1, s.fld STM_PTP_CFG.DOMAIN 0, s.fld STM_PTP_CFG.TRANSPORT 0] []

/-- PTP_MESSAGE_RX: a PTP message arrives on port p (R430). -/
def execPtpMessageRx (p : Fin 6) (domain : BitVec 8) (transport : Fin 3) (m : PtpMsg) (s : State) : Res :=
  let p := p.val
  .next (if !s.ethUp p || s.fld TDC_TIME_CFG.TIME_SRC 0 != 2 || s.fld TDC_TIME_CFG.SRC_IDX 0 != p ||
      s.fld STM_PTP_CFG.DOMAIN 0 != domain.toNat || s.fld STM_PTP_CFG.TRANSPORT 0 != transport.val then s
  else match m with
    | .announce m => s.ptpAnnounce p m
    | .sync from_ t1 t2 =>
      if s.stm.master != some from_ then s
      else
        let s : State := { s with stm := { s.stm with sync := some ((t1.toNat * 2 ^ 32 : Nat), s.ptpStamp p 0 t2) } }
        s.delayReq p
    | .delayResp from_ t3 t4 =>
      match s.stm.sync with
      | some (a1, a2) =>
        if s.stm.master != some from_ then s
        else
          let a3 := s.ptpStamp p 1 t3
          let a4 : Int := (t4.toNat * 2 ^ 32 : Nat)
          let delay := tdiv ((a2 - a1) + (a4 - a3)) 2
          ({ s with stm := { s.stm with sync := none } } : State).discipline (a2 - a1 - delay)
      | none => s)

/-- PTP_ANNOUNCE_TIMEOUT: three Announce intervals have passed without an Announce of the chosen master, and the
source is lost (R430). -/
def execPtpAnnounceTimeout (s : State) : Res :=
  .next (match s.stm.masters.find? (fun e => some e.1.sender == s.stm.master) with
  | some e =>
    if e.2 + 3 * e.1.intervalMs.toNat * msCycles ≤ s.now then
      ({ s with stm := { s.stm with
        master := none
        sync := none
        masters := s.stm.masters.filter (fun x => x.1.sender != e.1.sender) } } : State).timeSrcLost
    else s
  | none => s)

end Sys2Proof.Machine
end

