-- ==== Sys2Proof/Machine/Lifecycle.lean ====
section
/-! DEFINITION. Stopping, resetting and bringing up the engine: what the power sequences, the boot chain and the
recovery ladder share (R4, R10, R537, R541 to R543, R553, R574 to R580). -/

namespace Sys2Proof.Machine

/-! ## Outputs, draining, the ring writer (R218, R543, R574) -/

/-- Outputs stop as in HELD: TOUT pins low, stream items discarded (R218). -/
def State.stopOutputs (s : State) : State :=
  let s : State := { s with trg := { s.trg with tout := [] } }
  (s.each 8 (fun s n => s.emit (.pin (.tout (Fin.ofNat 8 n)) false))).streamsHold

/-- The engine's power domains drain: descriptors, retrievals and replays in progress end with PWR_ABORT, log sets stop,
unfinished records are dropped and counted (R314, R406, R434, R543). -/
def State.drainAll (s : State) : State :=
  let s := s.each 3 (fun s dom => s.when (!s.drains dom) (·.dmaDrain dom))
  let s := s.each 32 State.dmaDrainOut
  let cause := Config.free "cause of a drop at a drain" [] s.now
  let s := s.over s.trg.jobs (fun s j =>
    let ended := { j with status := if 1 < j.status then j.status else 6, cut := match j.cut with | some t => some t | none => s.cutTime j }
    match j.kind with
    | .segment d => s.recDropped d cause
    | .retrieval req _ (some m) => s.startXfer m req [] (s.completionEntry ended)
    | .retrieval _ _ none => s.putCompletion (s.completionEntry ended))
  let s := s.each 32 (fun s d => s.when ((s.def_ d).segs != []) (·.recDropped d cause))
  let s := s.over (s.trg.writing ++ s.trg.indexing) (fun s w => s.recDropped (le w.index 24 2 % 32) cause)
  let s : State := { s with trg := { s.trg with jobs := [], defs := [], writing := [], indexing := [] } }
  (s.each 8 (fun s k => s.replayEnd k 3)).each 4 (fun s n => s.stopSet n)

/-- The ring writer issues the writes that the landing buffer holds, and they are acknowledged (R574, R576). -/
def State.flushRing (s : State) : State :=
  let ws := s.cel.issued ++ s.cel.cross ++ (s.cel.queues.map (·.2)).flatten
  let s : State := { s with cel := { s.cel with issued := [], cross := [], queues := [] } }
  (s.over ws (fun s w =>
    let s := ((s.breakPins w.addr w.blk).memLog srcRing true w.addr 128).devWrite w.addr w.blk.bytes
    let k := w.blk.ch / 32
    (s.setDie k ((s.die k).ringAck w.blk.count)).settle w.blk)).landRelieved

/-! ## The post-mortem record (R578) -/

/-- The post-mortem record is saved: CAUSE, source index and instance, and the positions of the logs. -/
def State.postMortem (s : State) (cause src inst : Nat) : State :=
  let bs := leBytes 1 cause ++ leBytes 1 src ++ leBytes 2 inst ++ leBytes 4 s.rcv.warmCount ++ otBytes s.time.ot ++
    zeros 4 ++ leBytes 8 s.epoch.num ++ leBytes 8 s.cel.anchorNext ++ leBytes 8 s.cel.lossNext ++
    leBytes 8 s.trg.idxNext ++ leBytes 8 s.evq.lastSeq
  s.each 16 (fun s n => s.setReg .SYS_PM n (BitVec.ofNat 32 (le bs (4 * n) 4)))

/-! ## Reset (R10, R327, R577) -/

/-- Registers that show the state of the always-on island, the Attic or the fuses: a reset of the engine leaves
them. -/
def liveReg (r : Reg) : Bool :=
  match r with
  | .PWR_STATUS | .PWR_CMP_STAT | .SYS_RCV_STAT | .CAL_INFO | .CAL_ATTIC_DIGEST | .FAB_UID_LO | .FAB_UID_HI => true
  | _ => false

/-- What a register instance holds after a reset of the engine: its reset value, its always-on fields kept. -/
def keptWord (r : Reg) (i : Nat) (v : Word) : Word :=
  if liveReg r then v
  else r.desc.fields.foldl (fun (w : Word) f =>
    if f.alwaysOn then BitVec.ofNat 32 (withBits w.toNat f.hi f.lo (bits v.toNat f.hi f.lo)) else w) (r.reset i)

/-- The table of registers after a reset of the engine. -/
def State.keptRegs (s : State) : Table RegKey Word :=
  s.regs.filterMap (fun e =>
    let w := keptWord e.1.1 e.1.2 e.2
    if w = e.1.1.reset e.1.2 then none else some (e.1, w))

/-- The ring offsets for the next run (R327). -/
def State.ringOffsets (s : State) : State :=
  s.each 8 (fun s k =>
    let d := s.die k
    if !d.ringWrote then s
    else
      let ofs := s.fld CEL_RING_OFS.OFS k
      let slots := ringSlots s.gib
      let s := ((s.setFld CEL_PREV_OFS.OFS k ofs).setFld CEL_PREV_OFS.PREV_GIB k s.gib).setFld CEL_PREV_OFS.VALID k 1
      let s := s.setReg64 .CEL_PREV_LAST_LO .CEL_PREV_LAST_HI k d.ringLast
      s.setFld CEL_RING_OFS.OFS k (if slots = 0 then 0 else (d.ringLast + ofs + 1) % slots))

/-- Every die except the always-on island is reset (R10, R102, R577). -/
def State.engineReset (s : State) : State :=
  let t : State := {
    pending := s.pending, now := s.now, free := s.free, dev := s.dev, out := s.out
    regs := s.keptRegs
    mem := s.mem.filter (fun e => decide (e.1 < cellarSize))
    evq := { count := s.evq.count, attic := s.evq.attic, lastSeq := s.evq.lastSeq }
    prog := { boot := s.prog.boot }
    cel := {
      pc := s.cel.pc.map (fun e => (e.1, if e.2 = .reinit then PcState.frozen else e.2))
      diag := s.cel.diag, history := s.cel.history, freezes := s.cel.freezes, rows := s.cel.rows
      soft := s.cel.soft, softOn := s.cel.softOn, moved := s.cel.moved, asleep := s.cel.asleep, cmds := s.cel.cmds }
    trg := { recnum := s.trg.recnum }
    cal := { vol := s.cal.vol, attic := s.cal.attic, lastRun := s.cal.lastRun }
    hk := { temps := s.hk.temps, timers := s.hk.timers }
    pwr := s.pwr, pan := s.pan, rcv := s.rcv, sec := s.sec }
  let retired := (List.range 272).filter (fun u => s.role kSLICE u == roRETIRED)
  let t := (t.over retired (fun t u => t.setRole kSLICE u roRETIRED)).tinStart
  { t with hk := { t.hk with temps := s.hk.temps }, sec := { t.sec with
      osReady := false
      waits := t.sec.waits.filter (fun w => match w with
        | .fabric => false
        | .format _ _ => false
        | _ => true) } }

/-- The engine loses power: the contents of the stacks are lost and every die but the always-on island is as at
power-up (R537, R542). -/
def State.engineOff (s : State) : State :=
  let t := s.engineReset
  let t : State := { t with
    mem := [], trg := {}
    cel := {
      pc := s.cel.pc.filter (fun e => e.2 == .retired)
      soft := s.cel.soft, moved := s.cel.moved, rows := s.cel.rows, freezes := s.cel.freezes }
    dev := .standby
    pwr := { t.pwr with rail := 0, move := none, lowWaits := [], retFrom := none, down := none } }
  let t := t.over [Reg.CEL_FROZEN, .CEL_DIAG_ADDR, .CEL_DIAG_SYND, .CEL_RING_OFS, .CEL_PREV_OFS, .CEL_PREV_LAST_LO,
    .CEL_PREV_LAST_HI] (fun t r => t.each r.count (fun t i => t.setReg r i (r.reset i)))
  let t := t.over t.cel.pc (fun t e => t.setFrozen e.1 (bit (s.reg .CEL_FROZEN (e.1 / 32)).toNat (e.1 % 32)))
  let t := ((t.setFld PWR_STATUS.SOURCE 0 3).setFld PWR_STATUS.PHASES_B 0 0).setFlag PWR_STATUS.FORCED_B 0 false
  let t := t.setFlag PWR_STATUS.PWRGD 0 false
  t.emit (.pin .pwrgd false)

/-- FAULT_N is driven low, or released. -/
def State.driveFault (s : State) (low : Bool) : State :=
  if s.pwr.faultN = low then s
  else ({ s with pwr := { s.pwr with faultN := low } } : State).emit (.pin .faultN (!low))

/-! ## The platform and owner records (R222, R415, R554, R558) -/

/-- The reset value of an ST register: some take fields from the Attic's platform record (R191, R554). -/
def State.resetWord (s : State) (r : Reg) (i : Nat) : Word :=
  let p := s.sec.plat
  match r with
  | .FAB_ADDR_CFG => BitVec.ofNat 32 (p.fabAddr % 2 ^ 14)
  | .FAB_PORT_CFG =>
    BitVec.ofNat 32 (withBits (r.reset i).toNat 17 16 (min 2 (bits p.modes (2 * i + 1) (2 * i))))
  | .PWR_SW_CFG => BitVec.ofNat 32 (withBits (r.reset i).toNat 30 30 (b2n p.autoStart))
  | _ => r.reset i

/-- The fields that the Attic's records give registers, apart from PCI_CTRL, which takes its own at the end of
BOOT. -/
def State.loadRecords (s : State) : State :=
  let p := s.sec.plat
  let s := s.setReg .FAB_ADDR_CFG 0 (s.resetWord .FAB_ADDR_CFG 0)
  let s := s.each 6 (fun s i => s.setReg .FAB_PORT_CFG i (s.resetWord .FAB_PORT_CFG i))
  let s := s.setFlag PWR_SW_CFG.AUTO_START 0 p.autoStart
  let (req, auto) := match s.sec.owner with
    | some o => (b2n o.sigReq, o.auto)
    | none => (0, 0)
  (s.setFld SYS_PRG_POLICY.SIG_REQ 0 req).setFld SYS_PRG_POLICY.AUTO 0 auto

/-- The end of BOOT: the ports take their link limits, EN and ROLE (R408, R415). -/
def State.loadPci (s : State) : State :=
  s.each 2 (fun s p =>
    let l := nth s.sec.plat.pciLimits p (5, 3)
    let s := (s.setFld PCI_CTRL.MAX_SPEED p l.1).setFld PCI_CTRL.MAX_WIDTH p l.2
    (s.setFlag PCI_CTRL.EN p (bit s.sec.plat.pci (2 * p))).setFlag PCI_CTRL.ROLE p (bit s.sec.plat.pci (2 * p + 1)))

/-! ## Firmware (R549, R550) -/

/-- The size of a slot. -/
def slotSize : Nat := 2 ^ 29

/-- Bytes of slot 0 (A) or 1 (B), or of the recovery image (2). -/
def State.slotBytes (s : State) (slot a n : Nat) : List Byte :=
  if slot = 2 then (s.sec.image.drop a).take n
  else (List.range n).map (fun i => Table.getD s.sec.flash (slotSize * slot + a + i) 0)

/-- The firmware image that bytes spell, read through `get` (offset, count): its sections as (type, offset, length,
digest). -/
def imageSections (get : Nat → Nat → List Byte) : List (Nat × Nat × Nat × List Byte) :=
  (List.range (le (get 7 1) 0 1)).map (fun i =>
    let e := get (64 + 48 * i) 48
    (le e 0 4, le e 4 4, le e 8 8, slice e 16 32))

/-- DIGEST of a firmware image. -/
def imageDigest (get : Nat → Nat → List Byte) : List Byte :=
  get (le (get 8 8) 0 8 - 192) 32

/-- A firmware image is valid (R549, R550). -/
def firmwareValid (get : Nat → Nat → List Byte) (svn : Nat) : Bool :=
  let total := le (get 8 8) 0 8
  let n := le (get 7 1) 0 1
  let tr := get (total - 192) 192
  get 0 4 == [0x43, 0x5A, 0x46, 0x57] && le (get 4 2) 0 2 == 1 && decide (64 + 48 * n + 192 ≤ total) &&
  decide (total ≤ slotSize) && sha256 (slice tr 128 64) == sha256 Config.vendorPub &&
  slice tr 0 32 == sha256 (get 0 (64 + 48 * n)) &&
  ecdsaVerify (slice tr 128 64) (slice tr 0 32) (slice tr 32 32) (slice tr 64 32) &&
  decide (svn ≤ le (get 6 1) 0 1) &&
  (imageSections get).any (fun x => x.1 == 1 && sha256 (get x.2.1 x.2.2.1) == x.2.2.2)

/-- Slot 0 (A) or 1 (B) is valid. -/
def State.slotValid (s : State) (slot : Nat) : Bool := firmwareValid (s.slotBytes slot) s.sec.fwSvn

/-- The firmware digest of a slot; 0 when it is not valid. -/
def State.slotDigest (s : State) (slot : Nat) : List Byte :=
  if s.slotValid slot then imageDigest (s.slotBytes slot) else zeros 32

/-- A section of a slot matches its table digest. -/
def State.sectionOk (s : State) (slot type : Nat) : Bool :=
  (imageSections (s.slotBytes slot)).all (fun x => x.1 != type || sha256 (s.slotBytes slot x.2.1 x.2.2.1) == x.2.2.2)

/-- The bytes of a section of a slot. -/
def State.slotSection (s : State) (slot type : Nat) : List Byte :=
  match (imageSections (s.slotBytes slot)).find? (fun x => x.1 == type) with
  | some x => s.slotBytes slot x.2.1 x.2.2.1
  | none => []

/-- The vendor microcode is loaded into every control store (R168, R553). -/
def State.loadVendor (s : State) (slot : Nat) : State :=
  let bs := (s.slotSection slot 2).take vendorSize
  s.each 68 (fun s n => s.tilePut (csBase n) bs)

/-! ## Bringing the engine up (R48, R493, R498, R541, R553) -/

/-- Every stack is put in self-refresh (R356). -/
def State.selfRefresh (s : State) : State :=
  { s with cel := (List.range 4).foldl (fun (c : CelState) m => c.sleep s.now m []) s.cel }

/-- Stacks that had lost power get their soft repairs again, from the pantry history in the Attic (R345). -/
def State.softAgain (s : State) : State :=
  if s.cel.softOn then s
  else (({ s with cel := { s.cel with softOn := true } } : State)).over s.cel.soft (fun s x =>
    s.hist x.1 srcControl [(8, x.2.1, x.2.2, 0, 0)])

/-- Steps 4 to 7 of R553, as far as they are effects of the housekeeping: the pantry rebuilds its map, the control stores
and the volatile trims are loaded, BOOT_CAL is queued, the fabric starts. -/
def State.bringUp (s : State) : State :=
  let s : State := { s with
    dev := .boot, time := { running := true, calAt := s.now }, sec := { s.sec with bootAt := s.now } }
  let s := s.loadRecords.pantryRebuild.softAgain
  let s := match s.sec.running with
    | some slot => if s.sectionOk slot 2 then s.loadVendor slot else s
    | none => s
  let s := s.calBoot
  if s.sec.trngOk then s.fabStart
  else { s with sec := { s.sec with waits := s.sec.waits ++ [.fabric] } }

/-! ## Power cycle, both-fail, SAFE (R537, R574, R580) -/

/-- The engine stops without draining; FAULT_N low, the other pins in high impedance (R537). -/
def State.stopEngine (s : State) : State := ((s.engineOff).driveFault true).emit .pinsOff

/-- Step 4 of the ladder (R580): cause 0 end of BOOT not reached, 1 too many warm resets, 2 BYP_UNLOCK, 3 host. -/
def State.powerCycle (s : State) (cause : Nat) : State :=
  let s := (s.raise Ev.PWR_CYCLE 0 [(0, 1, cause)]).stopEngine
  let s : State := { s with rcv := { s.rcv with cycleAt := some s.now, warmAt := none, waitPin := false, safeAt := none },
                            pwr := { s.pwr with hold := true } }
  (s.setFld SYS_RCV_STAT.STEP 0 3).emit (.pin .pwrCycleReq true)

/-- A shared-class error: every tile halts, outputs stop, the ring is flushed and fixed, SAFE (R574). -/
def State.faultFreeze (s : State) (src inst : Nat) : State :=
  if s.dev == .safe || s.dev == .off || s.dev == .standby then s
  else
    let s := (s.each 68 (fun s n => (s.tileEvent n evFAULT).tileEvent n evHALT)).stopOutputs
    let s := s.flushRing.stopRing
    let s : State := { s with dev := .safe, rcv := { s.rcv with safeAt := some s.now } }
    let s := (s.raise Ev.FAULT_FREEZE 0 [(0, 1, src), (1, 2, inst)]).postMortem 1 src inst
    s.setFld SYS_RCV_STAT.STEP 0 1

/-- New firmware that FW_ACTIVATE made pending runs from a device warm reset (R552); its tries are counted as at
power-up (R551). -/
def State.warmFirmware (s : State) : State :=
  match s.sec.pend with
  | some p =>
    if (s.sec.bootsel % 4 = 0 || s.sec.bootsel % 4 = p + 1) && decide (0 < s.sec.tries) && s.sec.running.isSome &&
        s.sec.running != some p && s.slotValid p then
      let svn := le (s.slotBytes p 6 1) 0 1
      let s : State := { s with sec := { s.sec with running := some p, svn := svn, tries := s.sec.tries - 1 } }
      s.raise Ev.BOOT_SLOT 0 [(0, 1, p), (1, 1, svn), (2, 1, s.sec.tries)]
    else s
  | none => s

/-- Step 3 of the ladder (R576): causes as in R578; `ladder`: the ladder started it.  While the rails still rise, their
sequence goes on and its end brings the engine up. -/
def State.warmReset (s : State) (cause src inst : Nat) (ladder : Bool) : State :=
  let window := s.fld SYS_RCV_CFG.WARM_WINDOW 0 * 60 * sCycles
  let recent := s.rcv.warms.filter (fun t => decide (s.now < t + window))
  if s.dev == .off || s.dev == .standby then s
  else if 2 ≤ recent.length then s.powerCycle 1
  else
    let n := s.rcv.warmCount + 1
    let s : State := { s with rcv := { s.rcv with
      warms := recent ++ [s.now], warmCount := n, warmAt := some s.now, byLadder := ladder, safeAt := none } }
    let s := (s.stopOutputs.postMortem cause src inst).raise Ev.WARM_RESET 0 [(0, 1, cause), (1, 4, n)]
    let s := s.drainAll.flushRing.stopRing.ringOffsets.selfRefresh
    let anchors := s.cel.anchorNext
    let losses := s.cel.lossNext
    let idx := s.trg.idxNext
    let s := s.engineReset
    let s : State := { s with
      dev := .boot
      cel := { s.cel with anchorNext := anchors, lossNext := losses }
      trg := { s.trg with idxNext := idx } }
    let s := ((s.setFld SYS_RCV_STAT.STEP 0 2).setFld SYS_RCV_STAT.WARM_COUNT 0 (min n 255)).warmFirmware
    if s.pwr.rail != 0 then s
    else if s.pwr.resetLow then { s with rcv := { s.rcv with waitPin := true } }
    else s.bringUp

end Sys2Proof.Machine
end

