-- ==== Sys2Proof/Machine/Power.lean ====
section
/-! DEFINITION. Supplies, switchover, power states, temperature and the housekeeping ADC (R528 to R548). -/

namespace Sys2Proof.Machine

/-- The code of a device state in PWR_STATUS.STATE. -/
def DevState.code (d : DevState) : Nat :=
  match d with
  | .off => 0 | .standby => 1 | .boot => 2 | .held => 3 | .run => 4 | .service => 5 | .safe => 6

/-! ## The housekeeping ADC: urgent requests (R547) -/

/-- The input of entry n of the pass (HK_ADC_SEQ). -/
def State.adcEntry (s : State) (n : Nat) : Nat := bits (s.reg .HK_ADC_SEQ (n / 4)).toNat (8 * (n % 4) + 5) (8 * (n % 4))

/-- An urgent request of an input: it aborts the running conversion, queues behind other requests, or, when four are
there, is refused (R547). -/
def State.urgent (s : State) (i : Nat) : State :=
  if 4 ≤ s.hk.urgent.length then s.addFld HK_ADC_STAT.URG_LOST 0 1
  else if s.hk.urgent != [] then { s with hk := { s.hk with urgent := s.hk.urgent ++ [i] } }
  else
    let s := s.when s.hk.pos.isSome (fun s =>
      s.setFld HK_ADC_STAT.ABORTS 0 (s.fld HK_ADC_STAT.ABORTS 0 + 1))
    let s : State := { s with hk := { s.hk with urgent := [i], interrupted := s.hk.pos.isSome } }
    ((s.setFlag HK_ADC_STAT.URGENT_BUSY 0 true).setFld HK_ADC_STAT.CUR 0 i).timerSet tmConversion

/-- The latest urgent reading of an input, or its latest result. -/
def State.adcReading (s : State) (i : Nat) : Nat := Table.getD s.hk.readings i (s.fld HK_RESULT.VALUE i)

/-! ## Supplies (R530 to R537) -/

/-- Supply y (0 VIN_A, 1 VIN_B, 2 VHK) is good; has not settled. -/
def State.good (s : State) (y : Nat) : Bool := bit (s.fld PWR_CMP_STAT.GOOD 0) y
def State.unsettled (s : State) (y : Nat) : Bool := bit (s.fld PWR_CMP_STAT.UNSETTLED 0) y

/-- Set bit y of a field. -/
def State.setBit (s : State) (f : Fld) (y : Nat) (b : Bool) : State := s.setFld f 0 (withBits (s.fld f 0) y y (b2n b))

/-- SOURCE: 0 VIN_A, 1 VIN_B, 2 moving, 3 none. -/
def State.source (s : State) : Nat := s.fld PWR_STATUS.SOURCE 0

/-- The source at power-up (R532). -/
def State.selectSource (s : State) : Option Nat :=
  if s.good 0 then some 0
  else if s.unsettled 0 then none
  else if s.good 1 then some 1
  else none

/-- BOOT starts from STANDBY: a source is named, AUTO_START or WAKE asks for it, RESET_N is high and the firmware runs
(R532, R539, R541, R593). -/
def State.standbyStart (s : State) : State :=
  let asked := s.pwr.wake || (s.flag PWR_SW_CFG.AUTO_START 0 && !s.pwr.hold)
  if s.dev != .standby || s.sec.running.isNone || s.pwr.resetLow || !asked then s
  else match s.selectSource with
    | none => s
    | some y =>
      let s : State := { s with
        dev := .boot
        pwr := { s.pwr with rail := 2, wake := false, hold := false }
        sec := { s.sec with bootAt := s.now } }
      ((s.setFld PWR_STATUS.SOURCE 0 y).setFld PWR_STATUS.PHASES_B 0 (96 * y)).driveFault false

/-- From here VIN_A has been good without interruption while the device runs on VIN_B (R535). -/
def State.returnCount (s : State) : State :=
  let onB := s.source == 1 || (s.pwr.move.map (·.dest)) == some 1
  if onB && s.good 0 && s.pwr.retFrom.isNone then { s with pwr := { s.pwr with retFrom := some s.now } } else s

/-- VIN_A is lost, or the phases move (R535). -/
def State.noReturn (s : State) : State := { s with pwr := { s.pwr with retFrom := none } }

/-- The count of R535 runs. -/
def State.returnPend (s : State) : Bool :=
  s.flag PWR_SW_CFG.AUTO_RETURN 0 && !s.flag PWR_STATUS.FORCED_B 0 && s.pwr.retFrom.isSome

/-- The phases start to move to input `dest`, with the urgent conversions of both inputs (R534). -/
def State.startMove (s : State) (dest cause : Nat) : State :=
  let s := s.noReturn
  let s : State := { s with pwr := { s.pwr with move := some ⟨dest, s.now, cause⟩ } }
  let s := (s.setFld PWR_STATUS.SOURCE 0 2).when (dest = 0) (·.setFlag PWR_STATUS.FORCED_B 0 false)
  (s.urgent 40).urgent 41

/-- An event of the housekeeping about what has just stopped the engine: it has the time at which it came, though OT96
has stopped (R537, R544). -/
def State.raiseAfter (s : State) (t : TimeState) (k : EventKind) (sev : Nat) (fs : List (Nat × Nat × Nat)) : State :=
  { (({ s with time := t } : State).raiseSev k sev 0 (detail fs)) with time := s.time }

/-- Both inputs have failed (R537). -/
def State.bothFail (s : State) : State :=
  let fs := [(0, 2, s.fld HK_RESULT.VALUE 40), (2, 2, s.fld HK_RESULT.VALUE 41), (4, 1, s.dev.code)]
  ((s.stopEngine).setFlag PWR_FLAGS.BOTH_FAIL_SEEN 0 true).raiseAfter s.time Ev.BOTH_FAIL Ev.BOTH_FAIL.severity fs

/-- The input in use is qualified low (R533, R536, R537). -/
def State.inputLow (s : State) (y : Nat) : State :=
  if s.source != y || s.good y then s
  else if s.good (1 - y) then s.startMove (1 - y) 2
  else s.bothFail

/-- Supply y becomes good or is lost. -/
def State.supplyIs (s : State) (y : Nat) (good : Bool) : State :=
  let s := ((s.setBit PWR_CMP_STAT.UNSETTLED y false).setBit PWR_CMP_STAT.INBAND y false).setBit PWR_CMP_STAT.GOOD y good
  let s := s.when (!good) (·.timerSet (tmLow y))
  let s := if y = 0 then (if good then s.returnCount else s.noReturn) else s
  s.standbyStart

/-- SUPPLY_CMP_CROSSING: the accepted output of supply y changes (R530 to R532, R535). -/
def execSupplyCmpCrossing (y : Fin 3) (good : Bool) (s : State) : Res :=
  .next (if s.dev == .off || (s.good y.val == good && !s.unsettled y.val) then s else s.supplyIs y.val good)

/-- SUPPLY_SETTLE_END: the settle interval of supply y, SETTLE µs from power-up, ends with the supply below (0), inside
(1) or above (2) its hysteresis band (R532). -/
def execSupplySettleEnd (y : Fin 3) (state : Fin 3) (s : State) : Res :=
  .next (if s.dev == .off || !s.unsettled y.val ||
      !s.timerDue (tmSettle y.val) (s.fld PWR_CMP_CFG.SETTLE y.val * usCycles) then s
  else if state = 1 then
    let s := (s.setBit PWR_CMP_STAT.UNSETTLED y.val false).setBit PWR_CMP_STAT.INBAND y.val true
    ((s.setFlag PWR_FLAGS.INBAND_SEEN 0 true).raise Ev.SUPPLY_INBAND 0 [(0, 1, y.val)]).standbyStart
  else s.supplyIs y.val (decide (state = 2)))

/-- SUPPLY_QUALIFIED_LOW: input y has been accepted low for 200 ns; while a move runs this waits (R531, R533, R536). -/
def execSupplyQualifiedLow (y : Fin 2) (s : State) : Res :=
  .next (if s.good y.val || s.unsettled y.val || !s.timerDue (tmLow y.val) (usCycles / 5) then s
  else if s.pwr.move.isSome then
    { s with pwr := { s.pwr with lowWaits := s.pwr.lowWaits.filter (· != y.val) ++ [y.val] } }
  else s.inputLow y.val)

/-- SWITCH_MOVE_DONE: the last group has moved, `ns` after the qualification: SOURCE names the new input, the switch is
counted and reported, and qualifications that waited are judged.  Group 15 moves 3.75 µs after the start (R533, R534,
R536). -/
def execSwitchMoveDone (ns : BitVec 32) (s : State) : Res :=
  .next (match s.pwr.move with
  | none => s
  | some m =>
    if s.now < m.since + 15 * (usCycles / 4) then s
    else
    let ws := s.pwr.lowWaits
    let s : State := { s with pwr := { s.pwr with move := none, lowWaits := [] } }
    let s := (s.setFld PWR_STATUS.SOURCE 0 m.dest).setFld PWR_STATUS.PHASES_B 0 (96 * m.dest)
    let s := (s.addFld (if m.dest = 0 then PWR_SW_COUNT.TO_A else PWR_SW_COUNT.TO_B) 0 1).stat 0x5A 1
    let s := (s.setFlag PWR_FLAGS.SW_SEEN 0 true).setReg .PWR_SW_LAST 0 ns
    let fs := [(0, 2, s.adcReading 40), (2, 2, s.adcReading 41), (4, 4, ns.toNat)]
    let s := if m.dest = 1 then s.raise Ev.SWITCH_TO_B 0 fs else s.raise Ev.SWITCH_TO_A 0 (fs ++ [(8, 1, m.cause)])
    (s.returnCount).over ws (fun s y => s.inputLow y))

/-- RETURN_COUNT_EXPIRE: VIN_A has been good for RETURN_MS and the return starts (R535). -/
def execReturnCountExpire (s : State) : Res :=
  .next (match s.pwr.retFrom with
  | none => s
  | some t =>
    if s.source = 1 && s.good 0 && s.returnPend && decide (t + s.fld PWR_SW_CFG.RETURN_MS 0 * msCycles ≤ s.now) then
      s.startMove 0 0
    else s)

/-- RETURN_A: ignored while VIN_A is not good; otherwise the device returns to VIN_A and FORCE_B's hold ends (R535). -/
def State.pwrReturnA (s : State) : State :=
  if s.source = 1 && s.good 0 && (!s.flag PWR_SW_CFG.AUTO_RETURN 0 || s.flag PWR_STATUS.FORCED_B 0) then s.startMove 0 1
  else s

def execReturnA (path : Path) (s : State) : Res := .next (s.pwrReturnA.wrote path .PWR_CMD 0)

/-- FORCE_B: while VIN_B is good, the device moves to VIN_B and is held there (R535). -/
def State.pwrForceB (s : State) : State :=
  if !s.good 1 || 2 ≤ s.source then s
  else
    let s := s.setFlag PWR_STATUS.FORCED_B 0 true
    s.when (s.source = 0) (·.startMove 1 0)

def execForceB (path : Path) (s : State) : Res := .next (s.pwrForceB.wrote path .PWR_CMD 0)

/-! ## Power-down and power-up (R538 to R544) -/

/-- Steps 2 to 7 of R542. -/
def State.powerDown (s : State) : State := s.stopOutputs.drainAll.stopRing.engineOff

/-- STANDBY (R542): the system image is asked to shut down first, unless FORCED. -/
def State.pwrStandby (s : State) (forced : Bool) : State :=
  if s.dev != .held && s.dev != .run && s.dev != .service then s
  else if forced then s.powerDown
  else if s.pwr.down.isSome then s
  else ({ s with pwr := { s.pwr with down := some s.now } } : State).emit (.send .mailbox [0x100] [])

/-- PWR_STANDBY. -/
def execPwrStandby (path : Path) (forced : Bool) (s : State) : Res := .next ((s.pwrStandby forced).wrote path .PWR_CMD 0)

/-- OS_SHUTDOWN_DONE: the system image has shut down, or 30 s have passed (R542). -/
def execOsShutdownDone (reported : Bool) (s : State) : Res :=
  .next (match s.pwr.down with
  | none => s
  | some t => if reported || decide (t + 30 * sCycles ≤ s.now) then s.powerDown else s)

/-- WAKE (R539, R544, R581): BOOT starts as soon as a source is named.  After an over-temperature stop it is accepted
only when 60 s have passed and the hub's sites have cooled. -/
def State.pwrWake (s : State) : State :=
  let cool := match s.pwr.stopAt with
    | none => true
    | some t => decide (t + 60 * sCycles ≤ s.now) && (List.range 8).all (fun i =>
        decide (s.siteTemp (24 + i) ≤ (s.fld HK_THERM.WARN 0 * 100 : Nat) - 1000))
  if s.dev != .standby || !cool then s
  else
    let s : State := { s with
      pwr := { s.pwr with wake := true, hold := false, stopAt := none }
      rcv := { s.rcv with cycleAt := none } }
    s.standbyStart

/-- WAKE. -/
def execWake (path : Path) (s : State) : Res := .next (s.pwrWake.wrote path .PWR_CMD 0)

/-- PWR_CYCLE through PWR_CMD (R580). -/
def execPwrCycle (path : Path) (s : State) : Res :=
  .next ((if s.dev == .off then s else s.powerCycle 3).wrote path .PWR_CMD 0)

/-- VHK_LOW: VHK falls below its threshold and is not good; the engine continues (R530, R538, R547). -/
def execVhkLow (reading : BitVec 16) (s : State) : Res :=
  .next (if s.dev == .off then s
  else
    let s := (s.setBit PWR_CMP_STAT.GOOD 2 false).setFlag PWR_FLAGS.VHK_LOW_SEEN 0 true
    (s.raise Ev.VHK_LOW 0 [(0, 2, reading.toNat)]).urgent 42)

/-- The always-on island is reset: only the Attic, the fuses and the pins stay (R538, R552, R580). -/
def State.islandReset (s : State) : State :=
  let x := s.sec
  let t : State := {
    pending := s.pending, now := s.now, free := s.free, out := s.out
    regs := s.regs.filter (fun e =>
      e.1.1 == .CAL_INFO || e.1.1 == .CAL_ATTIC_DIGEST || e.1.1 == .FAB_UID_LO || e.1.1 == .FAB_UID_HI)
    evq := { attic := s.evq.attic }
    prog := { boot := s.prog.boot }
    cel := {
      pc := s.cel.pc.filter (fun e => e.2 == .retired)
      soft := s.cel.soft, moved := s.cel.moved, rows := s.cel.rows }
    cal := { vol := s.cal.attic, attic := s.cal.attic }
    pan := {
      roles := s.pan.roles.filter (fun e => e.2 == roRETIRED)
      seen := s.pan.seen, csUsed := s.pan.csUsed, histNum := s.pan.histNum, history := s.pan.history }
    pwr := { strap := s.pwr.strap, resetLow := s.pwr.resetLow }
    sec := {
      flash := x.flash, active := x.active, pend := x.pend, tries := x.tries, fwSvn := x.fwSvn
      ownerSeq := x.ownerSeq, owner := x.owner, plat := x.plat } }
  let retired := (List.range 272).filter (fun u => s.role kSLICE u == roRETIRED)
  let t := t.over retired (fun t u => t.setRole kSLICE u roRETIRED)
  t.when (s.flag PWR_STATUS.PWRGD 0) (·.emit (.pin .pwrgd false))

/-- VHK_POWER_LOSS: VHK falls below 1.6 V: the island is reset and the device is OFF (R538). -/
def execVhkPowerLoss (s : State) : Res := .next { s.islandReset with dev := .off }

/-- VHK_POWER_ON: VHK rises above 1.6 V: the island leaves reset into STANDBY, with AUTO_START from the Attic (R539,
R554). -/
def execVhkPowerOn (s : State) : Res :=
  .next (if s.dev == .off then
    let s := (({ s with dev := .standby } : State).tinStart).setFlag PWR_SW_CFG.AUTO_START 0 s.sec.plat.autoStart
    s.each 3 (fun s y => s.timerSet (tmSettle y))
  else s)

/-- The rails are taken down again and the device stays in STANDBY, with FAULT_N low (R541, R544). -/
def State.railStop (s : State) : State :=
  let s := s.engineOff.driveFault true
  { s with pwr := { s.pwr with hold := true } }

/-- RAIL_STEP_DONE: the rails of the step in progress lie within bounds and the next step starts; after step 7 PWRGD
goes high and BOOT goes on, unless a warm reset waits for RESET_N (R541, R553, R593). -/
def execRailStepDone (s : State) : Res :=
  .next (if s.dev != .boot || s.pwr.rail = 0 then s
  else if s.pwr.rail < 7 then { s with pwr := { s.pwr with rail := s.pwr.rail + 1 } }
  else
    let s : State := { s with pwr := { s.pwr with rail := 0 } }
    let s := (s.setFlag PWR_STATUS.PWRGD 0 true).emit (.pin .pwrgd true)
    if s.rcv.warmAt.isSome && s.pwr.resetLow then { s with rcv := { s.rcv with waitPin := true } } else s.bringUp)

/-- RAIL_FAIL: an internal rail misses its bound (R541). -/
def execRailFail (rail : Fin 8) (s : State) : Res :=
  .next (if s.dev != .boot || s.pwr.rail = 0 then s
  else
    let step := s.pwr.rail
    s.railStop.raise Ev.RAIL_FAIL 0 [(0, 1, step), (1, 1, 48 + rail.val)])

/-- OVERTEMP with a severity, at the time that OT96 has or had (R544). -/
def State.overtemp (s : State) (t : TimeState) (site sev : Nat) : State :=
  (s.setFlag PWR_FLAGS.OVERTEMP_SEEN 0 true).raiseAfter t Ev.OVERTEMP sev
    [(0, 1, site), (1, 2, toU 16 (tdiv (s.siteTemp site) 10))]

/-- OVERTEMP_STOP: a site has exceeded STOP for 1 ms: the engine is powered down as forced; only WAKE leaves STANDBY
(R544). -/
def execOvertempStop (site : Fin 40) (s : State) : Res :=
  .next (if s.dev == .off || s.dev == .standby ||
      s.siteTemp site.val ≤ (s.fld HK_THERM.STOP 0 * 100 : Nat) || !s.timerDue (tmOver site.val) msCycles then s
  else
    let s := (s.powerDown.driveFault true).overtemp s.time site.val 4
    { s with pwr := { s.pwr with hold := true, wake := false, stopAt := some s.now } })

/-! ## The housekeeping ADC (R545 to R547) -/

/-- The step of R541 that powers the die of an input. -/
def railOf (i : Nat) : Nat :=
  if i < 16 then 3 else if i < 24 then 4 else if 32 ≤ i && i < 40 then 5 else 0

/-- The die of input i is powered (R545). -/
def State.adcPowered (s : State) (i : Nat) : Bool :=
  railOf i = 0 || (s.dev != .off && s.dev != .standby && (s.pwr.rail = 0 || railOf i ≤ s.pwr.rail))

/-- What a result means to the rest of the device: temperatures, the limits of R544, hot stacks (R322), and the epoch's
minima, maxima and means (R522). -/
def State.adcEffect (s : State) (i v : Nat) : State :=
  if i < 40 then
    let x := toS 16 v
    let t := tdiv x 10
    let stop : Int := (s.fld HK_THERM.STOP 0 * 100 : Nat)
    let s := s.when (decide (s.siteTemp i ≤ stop) && decide (stop < x)) (·.timerSet (tmOver i))
    let s : State := { s with hk := { s.hk with temps := Table.insert natLt s.hk.temps i x } }
    let s := s.statIn false (fun x => statHigh (statLow x (0x100 + 4 * i) t) (0x102 + 4 * i) t)
    let m := (i - 32) / 2
    let s := if 32 ≤ i then
        let hot := decide (8500 < s.siteTemp (32 + 2 * m)) || decide (8500 < s.siteTemp (33 + 2 * m))
        s.setFld CEL_STATUS.HOT 0 (withBits (s.fld CEL_STATUS.HOT 0) m m (b2n hot))
      else s
    let warn : Int := (s.fld HK_THERM.WARN 0 * 100 : Nat)
    if s.dev == .boot && s.pwr.rail != 0 && railOf i != 0 && decide (warn - 1000 ≤ x) then
      s.railStop.overtemp s.time i 2
    else if x ≤ warn then { s with pwr := { s.pwr with above := s.pwr.above.filter (· != i) } }
    else if s.pwr.above.contains i then s
    else ({ s with pwr := { s.pwr with above := i :: s.pwr.above } } : State).overtemp s.time i 2
  else if i < 43 then s.statMeasure (0x40 + 6 * (i - 40)) (0x42 + 6 * (i - 40)) (0x44 + 6 * (i - 40)) (v / 16 : Nat)
  else if i = 46 || i = 47 then
    let w := (s.fld HK_RESULT.VALUE 40 * s.fld HK_RESULT.VALUE 46 + s.fld HK_RESULT.VALUE 41 * s.fld HK_RESULT.VALUE 47) / 40000
    let s := s.statIn false (fun x => statHigh x 0x56 (w : Nat))
    (s.stat (0x52 + 0x10000) (w : Nat)).stat (0x52 + 0x20000) 1
  else s

/-- The next conversion of the pass starts, or the pass ends. -/
def State.adcNext (s : State) : State :=
  match s.hk.pos with
  | some n =>
    if n < s.fld HK_ADC_CFG.LEN 0 then s.setFld HK_ADC_STAT.CUR 0 (s.adcEntry n)
    else ({ s with hk := { s.hk with pos := none } } : State).setFlag HK_ADC_STAT.BUSY 0 false
  | none => s

/-- The timer's tick: it starts a pass; one that finds a pass running is ignored and counted, unless an urgent request
interrupted that pass (R546, R547). -/
def State.adcTick (s : State) : State :=
  if s.hk.pos.isSome then
    if s.hk.interrupted then s
    else
      let s := s.addFld HK_ADC_STAT.OVERRUN 0 1
      let (fresh, n, b) := s.hk.overBurst.hit s.now sCycles 1
      ({ s with hk := { s.hk with overBurst := b } } : State).when fresh (·.raise Ev.ADC_OVERRUN 0 [(0, 4, n)])
  else
    let s : State := { s with hk := { s.hk with pos := some 0, interrupted := s.hk.urgent != [] } }
    (s.setFlag HK_ADC_STAT.BUSY 0 true).when (s.hk.urgent == []) (fun s => s.adcNext.timerSet tmConversion)

/-- ADC_PASS_TICK: the timer ticks every PERIOD µs (R546). -/
def execAdcPassTick (s : State) : Res :=
  .next (if s.dev == .off || !s.flag HK_ADC_CFG.EN 0 || !s.timerDue tmPass (s.fld HK_ADC_PERIOD.US 0 * usCycles) then s
  else (s.timerSet tmPass).adcTick)

/-- The conversion in progress ends with `value`: an urgent one, or one of the pass (R545, R547). -/
def State.adcDone (s : State) (value : BitVec 16) : State :=
  let conv := fun (s : State) (i : Nat) => if s.adcPowered i then value.toNat else 0x8000
  match s.hk.urgent, s.hk.pos with
  | i :: rest, _ =>
    let v := conv s i
    let s : State := { s with hk := { s.hk with urgent := rest, readings := Table.insert natLt s.hk.readings i v } }
    let s := ((s.setFld HK_URGENT_RES.INPUT 0 i).setFld HK_URGENT_RES.VALUE 0 v).setFld HK_RESULT.VALUE i v
    let s := match rest with
      | j :: _ => s.setFld HK_ADC_STAT.CUR 0 j
      | [] => (s.setFlag HK_ADC_STAT.URGENT_BUSY 0 false).adcNext
    s.when (s.adcPowered i) (·.adcEffect i v)
  | [], some n =>
    let i := s.adcEntry n
    let v := conv s i
    let s := s.setFld HK_RESULT.VALUE i v
    let s := s.when (s.adcPowered i) (fun s => s.setFld HK_RESULT.PASS i (s.fld HK_RESULT.PASS i + 1))
    let s := ({ s with hk := { s.hk with pos := some (n + 1) } } : State).adcNext
    s.when (s.adcPowered i) (·.adcEffect i v)
  | [], none => s

/-- TCLK cycles from the start of a conversion to its end: 1 µs, and in a pass with TRIG = PWM the DELAY HCLK cycles from
the switching edge first (R545, R546). -/
def State.adcTime (s : State) : Nat :=
  usCycles + (if s.hk.urgent == [] && s.flag HK_ADC_CFG.TRIG 0 then 32 * s.fld HK_ADC_CFG.DELAY 0 else 0)

/-- ADC_CONVERSION_DONE: the conversion in progress ends with `value`; in PWM mode its start waited for a switching edge
of PWM_GRP (R545, R546). -/
def execAdcConversionDone (value : BitVec 16) (s : State) : Res :=
  .next (if s.timerDue tmConversion s.adcTime then (s.timerSet tmConversion).adcDone value else s)

/-- ADC_URGENT: the host asks for an urgent conversion (R547). -/
def execAdcUrgent (path : Path) (input : BitVec 6) (s : State) : Res :=
  .next ((s.urgent input.toNat).wrote path .HK_ADC_CMD 0)

end Sys2Proof.Machine
end

