-- ==== Sys2Proof/Machine/Security.lean ====
section
/-! DEFINITION. Onyx and the management services: the ROM's choice of a slot, fuses, owner and platform records,
attestation, debug unlock, and the sessions of the CZ control protocol (R549 to R569).  The layouts of the records
that the manual does not lay out are those of log entry 60. -/

namespace Sys2Proof.Machine

/-! ## The ROM (R551, R552) -/

/-- The candidate slots, in order. -/
def State.candidates (s : State) : List Nat :=
  let x := s.sec
  match x.bootsel % 4 with
  | 0 => (match x.pend with | some p => if 0 < x.tries then [p] else [] | none => []) ++ [x.active, 1 - x.active]
  | 1 => [0]
  | 2 => [1]
  | _ => []

/-- A firmware starts. -/
def State.runFirmware (s : State) (slot : Nat) : State :=
  let get := s.slotBytes slot
  let svn := le (get 6 1) 0 1
  let s := s.setSec (fun x => { x with
    running := some slot, svn := svn, recovery := false, bootAt := s.now, trngOk := true })
  (s.raise Ev.BOOT_SLOT 0 [(0, 1, slot), (1, 1, svn), (2, 1, s.sec.tries)]).loadRecords.standbyStart

/-- The ROM chooses and starts a slot; `failed`: the watchdog has just stopped that slot. -/
def State.romChoose (s : State) (failed : Option Nat) : State :=
  if s.sec.bootsel % 4 = 3 then s.setSec (fun x => { x with recovery := true })
  else
    let cs := s.candidates
    match cs.find? s.slotValid with
    | none =>
      let s : State := { s with evq := { s.evq with attic := s.evq.attic ++ [.noFirmware] } }
      (s.driveFault true).setSec (fun x => { x with recovery := true })
    | some slot =>
      let first := cs.headD slot
      let pending := s.sec.pend == some slot && decide (0 < s.sec.tries)
      let s := s.when pending (·.setSec (fun x => { x with tries := x.tries - 1 }))
      let s := match failed with
        | some f => if f = slot then s else s.raise Ev.FW_FALLBACK 0 [(0, 1, f), (1, 1, 1)]
        | none => s
      let s := s.when (first != slot) (·.raise Ev.FW_FALLBACK 0 [(0, 1, first), (1, 1, 0)])
      s.runFirmware slot

/-- ROM_BOOT: at the release of the always-on reset the ROM samples BOOTSEL2 to BOOTSEL0 and chooses (R551). -/
def execRomBoot (bootsel : BitVec 3) (s : State) : Res :=
  .next (if s.dev != .standby || s.sec.running.isSome || s.sec.recovery then s
  else (s.setSec (fun x => { x with bootsel := bootsel.toNat })).romChoose none)

/-- BOOT_WATCHDOG: BOOT has not ended 30 s after the firmware started: the island is reset and the ROM chooses again
(R552). -/
def execBootWatchdog (bootsel : BitVec 3) (s : State) : Res :=
  .next (if s.dev != .boot || s.sec.running.isNone || s.now < s.sec.bootAt + 30 * sCycles then s
  else
    let failed := s.sec.running
    (s.islandReset.setSec (fun x => { x with bootsel := bootsel.toNat })).romChoose failed)

/-- UART_RECOVERY_IMAGE: an image received in recovery is checked and run once (R551). -/
def execUartRecoveryImage (image : List Byte) (s : State) : Res :=
  .next (if !s.sec.recovery || s.dev == .off then s
  else if firmwareValid (fun a n => (image.drop a).take n) s.sec.fwSvn then
    (s.setSec (fun x => { x with image := image })).runFirmware 2
  else s)

/-- BOOT has ended, in HELD or in RUN: the slot record is written, and the stacks are awake (R356, R552). -/
def State.bootEnded (s : State) : State :=
  let s := s.stacksWake
  match s.sec.pend, s.sec.running with
  | some p, some r => if p = r then s.setSec (fun x => { x with active := p, pend := none, tries := 0 }) else s
  | _, _ => s

/-- OS_READY: the system image reports ready, after BOOT (R553). -/
def execOsReady (s : State) : Res :=
  .next (if s.dev == .off || s.dev == .standby || s.dev == .boot then s else s.setSec (fun x => { x with osReady := true }))

/-! ## Records (R554, R558 to R560) -/

/-- The signature in the last 64 bytes verifies under one of the owner's keys, and the record names this device and a SEQ
above the one in force that the fuses allow (R560). -/
def State.ownerSigned (s : State) (o : Owner) (b : List Byte) : Bool :=
  let body := b.take (b.length - 64)
  let sig := b.drop (b.length - 64)
  let seq := le b 8 4
  le b 0 8 == s.uid && decide (o.seq < seq) && decide (s.sec.ownerSeq ≤ seq % 32) &&
  o.keys.any (fun k => ecdsaVerify k (sha256 body) (sig.take 32) (sig.drop 32))

/-- AUTH_FAIL: 0 token, 1 owner record, 2 client certificate, 3 platform record (R569). -/
def State.authFail (s : State) (what : Nat) : State := s.raise Ev.AUTH_FAIL 0 [(0, 1, what)]

/-- The platform record of 44 bytes, in place of the one before; the link limits are no part of it (R554). -/
def Platform.replace (x : Platform) (b : List Byte) : Platform :=
  { x with
    pci := le b 0 1, fabAddr := le b 1 4, modes := le b 5 2, autoStart := le b 7 1 == 1
    macs := (List.range 6).map (fun i => le b (8 + 6 * i) 6) }

/-- PLATFORM_WRITE (R554): 44 bytes, or with an owner UID, SEQ, those bytes and a signature. -/
def State.platformWrite (s : State) (b : List Byte) : Nat × List Byte × State :=
  match s.sec.owner with
  | none =>
    if b.length != 44 then (czBAD_REQUEST, [], s)
    else (czOK, [], s.setSec (fun x => { x with plat := x.plat.replace b }))
  | some o =>
    if b.length != 120 then (czBAD_REQUEST, [], s)
    else if !s.ownerSigned o b then (czDENIED, [], s.authFail 3)
    else (czOK, [], s.setSec (fun x => { x with plat := x.plat.replace (slice b 12 44) }))

/-- An owner record: UID, SEQ, SIG_REQ, AUTO, DEBUG_POLICY, number of keys, PROG_MIN, the keys. -/
def parseOwner (b : List Byte) : Option Owner :=
  let n := le b 15 1
  if b.length = 20 + 64 * n && 1 ≤ n && n ≤ 4 && le b 12 1 ≤ 1 && le b 13 1 ≤ 2 && le b 14 1 ≤ 2 then
    some ⟨le b 8 4, le b 12 1 == 1, le b 13 1, le b 14 1, le b 16 4, (List.range n).map (fun i => slice b (20 + 64 * i) 64)⟩
  else none

/-- The owner record changes: 0 install, 1 update, 2 clear (R222, R560). -/
def State.setOwner (s : State) (o : Option Owner) (seq how : Nat) : State :=
  let s := s.setSec (fun x => { x with owner := o })
  let (req, auto) := match o with
    | some o => (b2n o.sigReq, o.auto)
    | none => (0, 0)
  let s := (s.setFld SYS_PRG_POLICY.SIG_REQ 0 req).setFld SYS_PRG_POLICY.AUTO 0 auto
  s.raise Ev.OWNER_CHANGED 0 [(0, 4, seq), (4, 1, how)]

/-- Presence: BOOTSEL2 (R551). -/
def State.presence (s : State) : Bool := bit s.sec.bootsel 2

/-- OWNER_INSTALL (R559). -/
def State.ownerInstall (s : State) (b : List Byte) : Nat × List Byte × State :=
  match parseOwner b with
  | none => (czBAD_REQUEST, [], s)
  | some o =>
    if s.sec.owner.isSome || !s.presence then (czDENIED, [], s.authFail 1)
    else (czOK, [], s.setOwner (some o) o.seq 0)

/-- OWNER_UPDATE (R560). -/
def State.ownerUpdate (s : State) (b : List Byte) : Nat × List Byte × State :=
  match parseOwner (b.take (b.length - 64)), s.sec.owner with
  | none, _ => (czBAD_REQUEST, [], s)
  | some _, none => (czDENIED, [], s.authFail 1)
  | some n, some o =>
    if s.ownerSigned o b then (czOK, [], s.setOwner (some n) n.seq 1) else (czDENIED, [], s.authFail 1)

/-- OWNER_CLEAR (R559): with presence, or signed: UID, SEQ, signature. -/
def State.ownerClear (s : State) (b : List Byte) : Nat × List Byte × State :=
  match s.sec.owner with
  | none => (czREFUSED, [], s)
  | some o =>
    if b.length = 76 && s.ownerSigned o b then (czOK, [], s.setOwner none (le b 8 4) 2)
    else if s.presence then (czOK, [], s.setOwner none o.seq 2)
    else (czDENIED, [], s.authFail 1)

/-! ## Firmware and fuses (R552, R555) -/

/-- FW_WRITE: slot, offset, data, into the slot that is not ACTIVE. -/
def State.fwWrite (s : State) (b : List Byte) : Nat × List Byte × State :=
  let slot := le b 0 1
  let off := le b 1 4
  let data := b.drop 5
  if b.length < 5 || 1 < slot || slotSize < off + data.length then (czBAD_REQUEST, [], s)
  else if slot = s.sec.active then (czREFUSED, [], s)
  else
    let at_ := slotSize * slot + off
    let put := fun (t : Table Nat Byte) (i : Nat) => Table.set 0 t (at_ + i) (data.getD i 0)
    (czOK, [], s.setSec (fun x => { x with flash := (List.range data.length).foldl put x.flash }))

/-- FW_ACTIVATE: the slot becomes PENDING with TRIES 3. -/
def State.fwActivate (s : State) (b : List Byte) : Nat × List Byte × State :=
  if b.length != 1 || 1 < le b 0 1 then (czBAD_REQUEST, [], s)
  else (czOK, [], s.setSec (fun x => { x with pend := some (le b 0 1), tries := 3 }))

/-- A fuse counter advances to `v` if that is higher; `ok`: the burn reads back correctly. -/
def State.fuse (s : State) (counter old v : Nat) (ok : Bool) (set : SecState → SecState) : Nat × List Byte × State :=
  if v ≤ old then (czOK, [], s)
  else if ok then (czOK, [], (s.setSec set).raise Ev.FUSE_ADVANCED 0 [(0, 1, counter), (1, 1, v)])
  else (czREFUSED, [], s.raise Ev.FUSE_FAIL 0 [(0, 1, counter)])

/-- LOCK_FW: FW_SVN advances to the SVN of the running firmware. -/
def State.lockFw (s : State) (ok : Bool) : Nat × List Byte × State :=
  s.fuse 0 s.sec.fwSvn s.sec.svn ok (fun x => { x with fwSvn := x.svn })

/-- LOCK_OWNER: OWNER_SEQ advances to SEQ % 32 of the owner record in force. -/
def State.lockOwner (s : State) (ok : Bool) : Nat × List Byte × State :=
  match s.sec.owner with
  | none => (czREFUSED, [], s)
  | some o => s.fuse 1 s.sec.ownerSeq (o.seq % 32) ok (fun x => { x with ownerSeq := o.seq % 32 })

/-! ## Attestation and identity (R556, R561) -/

/-- The report for a nonce (R561). -/
def State.report (s : State) (nonce : List Byte) : List Byte :=
  let x := s.sec
  let has := s.prog.forceInfo.isSome
  let digest := ((List.range 8).map (fun i => leBytes 4 (s.reg .SYS_PRG_DIGEST i).toNat)).flatten
  let keys := match x.owner with
    | some o => o.keys
    | none => []
  let ids := ((List.range 4).map (fun i => match keys[i]? with
    | some k => keyId k
    | none => zeros 8)).flatten
  let version := match s.prog.forceInfo with
    | some i => i.version
    | none => 0
  let signed := match s.prog.forceInfo with
    | some i => i.signed
    | none => false
  let flags := s.fld SYS_PRG_STATUS.HAS_RUN 0 + 2 * s.fld SYS_PRG_POLICY.SIG_REQ 0 + 4 * b2n x.owner.isSome +
    8 * b2n x.unlocked + 16 * b2n signed + 32 * s.fld CAL_INFO.FACTORY 0 + 64 * b2n s.presence
  let body := [0x43, 0x5A, 0x41, 0x54] ++ leBytes 2 1 ++ leBytes 2 1472 ++ leBytes 8 s.uid ++ nonce ++ otBytes s.time.ot ++
    leBytes 1 s.dev.code ++ leBytes 1 (x.running.getD 2) ++ leBytes 1 x.fwSvn ++ leBytes 1 x.ownerSeq ++
    s.slotDigest 0 ++ s.slotDigest 1 ++ (if has then digest else zeros 32) ++ leBytes 4 version ++
    (if has then (s.prog.forceImage.drop 32 ++ zeros 16).take 16 else zeros 16) ++ leBytes 4 flags ++ ids ++
    sha256 (calSetBytes s.cal.vol) ++ ((List.range 8).map (fun i => leBytes 4 (s.reg .CAL_ATTIC_DIGEST i).toNat)).flatten ++
    zeros 40 ++ s.roleBytes
  let dg := sha256 body
  body ++ dg ++ (Config.sign "identity" dg ++ zeros 64).take 64 ++ keyId Config.identityPub ++ zeros 24

/-- ATTEST. -/
def State.attest (s : State) (b : List Byte) : Nat × List Byte × State :=
  if b.length = 32 then (czOK, s.report b, s) else (czBAD_REQUEST, [], s)

/-- CAL_EXPORT through the protocol: the record of the volatile (0) or of the Attic set (1) (R489). -/
def State.czCalExport (s : State) (b : List Byte) : Nat × List Byte × State :=
  if b.length = 1 && le b 0 1 ≤ 1 then (czOK, s.calRecord (le b 0 1 == 1), s) else (czBAD_REQUEST, [], s)

/-! ## Debug unlock (R562) -/

/-- A new challenge is drawn into SEC_DBG_CHAL; it is valid for 300 s and one attempt. -/
def State.drawChal (s : State) : List Byte × State :=
  let c := Config.random s.free 32
  let s : State := { s with free := s.free + 1 }
  let s := s.setSec (fun x => { x with chal := some (c, s.now) })
  (c, s.each 8 (fun s n => s.setReg .SEC_DBG_CHAL n (BitVec.ofNat 32 (le c (4 * n) 4))))

/-- SEC_DBG_CMD.CHAL: draws a challenge, once the TRNG delivers (R557). -/
def State.chalCmd (s : State) : State :=
  if s.sec.trngOk then s.drawChal.2 else s.setSec (fun x => { x with waits := x.waits ++ [.chalReg] })

/-- DEBUG_CHAL: answers the challenge, once the TRNG delivers. -/
def State.debugChal (s : State) (src : CzSource) (req : Nat) : State :=
  if s.sec.trngOk then
    let r := s.drawChal
    r.2.czAnswer src req 0x70 czOK r.1
  else s.setSec (fun x => { x with waits := x.waits ++ [.challenge src req] })

/-- The token opens: MAGIC, UID, challenge, SCOPE, LIFE, KEY_ID, signature by the vendor or an owner key, as DEBUG_POLICY
permits. -/
def State.tokenOk (s : State) (b : List Byte) : Bool :=
  let policy := match s.sec.owner with
    | some o => o.policy
    | none => 0
  let owners := match s.sec.owner with
    | some o => o.keys
    | none => []
  let keys := if policy = 0 then Config.vendorPub :: owners else if policy = 1 then owners else []
  let life := le b 48 4
  b.length == 124 && b.take 4 == [0x43, 0x5A, 0x44, 0x42] && le b 4 8 == s.uid &&
  (match s.sec.chal with
   | some (c, t) => slice b 12 32 == c && decide (s.now < t + 300 * sCycles)
   | none => false) &&
  decide (1 ≤ life) && decide (life ≤ 86400) &&
  keys.any (fun k => keyId k == slice b 52 8 && ecdsaVerify k (sha256 (b.take 60)) (slice b 60 32) (slice b 92 32))

/-- DEBUG_TOKEN: opens SCOPE for LIFE; a failed token consumes the challenge. -/
def State.debugToken (s : State) (b : List Byte) : Nat × List Byte × State :=
  if s.tokenOk b then
    let scope := le b 44 4 % 8
    let s := s.setSec (fun x => { x with
      chal := none, scope := scope, lifeEnd := s.now + le b 48 4 * sCycles, unlocked := true })
    (czOK, [], s.raise Ev.DEBUG_UNLOCKED 0 [(0, 1, scope), (1, 8, le b 52 8)])
  else (czDENIED, [], (s.setSec (fun x => { x with chal := none })).authFail 0)

/-- CLOSE. -/
def State.debugClose (s : State) : State := s.setSec (fun x => { x with scope := 0 })

/-- DEBUG_CLOSE: SEC_DBG_CMD.CLOSE closes every open scope (R562). -/
def execDebugClose (path : Path) (s : State) : Res := .next (s.debugClose.wrote path .SEC_DBG_CMD 0)

/-- DEBUG_LIFE_EXPIRE: a token's LIFE expires (R562). -/
def execDebugLifeExpire (s : State) : Res :=
  .next (if s.sec.scope != 0 && decide (s.sec.lifeEnd ≤ s.now) then s.debugClose else s)

/-- DEBUG_CHAL_EXPIRE: a challenge's 300 s expire (R562). -/
def execDebugChalExpire (s : State) : Res :=
  .next (match s.sec.chal with
  | some (_, t) => if t + 300 * sCycles ≤ s.now then s.setSec (fun x => { x with chal := none }) else s
  | none => s)

/-! ## The TRNG (R557) -/

/-- TRNG_FAIL: a health test fails: repetition count, or adaptive proportion. -/
def execTrngFail (adaptive : Bool) (s : State) : Res :=
  .next (if s.sec.running.isNone then s
  else (s.setSec (fun x => { x with trngOk := false })).raise Ev.TRNG_FAIL 0 [(0, 1, b2n adaptive)])

/-- A waiting request is served. -/
def State.trngServe (s : State) (a : TrngAsk) : State :=
  match a with
  | .challenge src req => s.debugChal src req
  | .copy c req =>
    match (s.session c).bind (fun y => y.cache.find? (fun e => e.1 == req)) with
    | some e => s.emit (.czResp c req 0x70 czDUPLICATE e.2.1 e.2.2)
    | none => s
  | .chalReg => s.drawChal.2
  | .fabric => s.fabStart
  | .format n caps => s.nvmFormat n caps

/-- TRNG_RECOVERED: 1,024 samples have passed: output resumes and waiting requests are served. -/
def execTrngRecovered (s : State) : Res :=
  .next (if s.sec.trngOk || s.sec.running.isNone then s
  else
    let ws := s.sec.waits
    (s.setSec (fun x => { x with trngOk := true, waits := [] })).over ws (·.trngServe ·))

/-! ## Operations through a session, SEC_CMD or the mailbox (R566) -/

/-- ATTEST (R561). -/
def execAttest (src : CzSource) (req : BitVec 64) (body : List Byte) (s : State) : Res :=
  .next (s.czRun src req.toNat 0x40 (·.attest body))

/-- GET_CERT: the certificate and its chain (R556). -/
def execGetCert (src : CzSource) (req : BitVec 64) (s : State) : Res :=
  .next (s.czRun src req.toNat 0x41 (fun s => (czOK, Config.certificate, s)))

/-- CAL_EXPORT (R566). -/
def execCzCalExport (src : CzSource) (req : BitVec 64) (body : List Byte) (s : State) : Res :=
  .next (s.czRun src req.toNat 0x42 (·.czCalExport body))

/-- FW_WRITE (R552). -/
def execFwWrite (src : CzSource) (req : BitVec 64) (body : List Byte) (s : State) : Res :=
  .next (s.czRun src req.toNat 0x50 (·.fwWrite body))

/-- FW_ACTIVATE (R552). -/
def execFwActivate (src : CzSource) (req : BitVec 64) (body : List Byte) (s : State) : Res :=
  .next (s.czRun src req.toNat 0x51 (·.fwActivate body))

/-- LOCK_FW (R555). -/
def execLockFw (src : CzSource) (req : BitVec 64) (ok : Bool) (s : State) : Res :=
  .next (s.czRun src req.toNat 0x54 (·.lockFw ok))

/-- LOCK_OWNER (R555). -/
def execLockOwner (src : CzSource) (req : BitVec 64) (ok : Bool) (s : State) : Res :=
  .next (s.czRun src req.toNat 0x55 (·.lockOwner ok))

/-- PLATFORM_WRITE (R554). -/
def execPlatformWrite (src : CzSource) (req : BitVec 64) (body : List Byte) (s : State) : Res :=
  .next (s.czRun src req.toNat 0x58 (·.platformWrite body))

/-- OWNER_INSTALL (R559). -/
def execOwnerInstall (src : CzSource) (req : BitVec 64) (body : List Byte) (s : State) : Res :=
  .next (s.czRun src req.toNat 0x60 (·.ownerInstall body))

/-- OWNER_UPDATE (R560). -/
def execOwnerUpdate (src : CzSource) (req : BitVec 64) (body : List Byte) (s : State) : Res :=
  .next (s.czRun src req.toNat 0x61 (·.ownerUpdate body))

/-- OWNER_CLEAR (R559). -/
def execOwnerClear (src : CzSource) (req : BitVec 64) (body : List Byte) (s : State) : Res :=
  .next (s.czRun src req.toNat 0x62 (·.ownerClear body))

/-- DEBUG_CHAL (R562). -/
def execDebugChal (src : CzSource) (req : BitVec 64) (s : State) : Res :=
  .next (s.czRequest src req.toNat 0x70 (·.debugChal src req.toNat))

/-- DEBUG_TOKEN (R562). -/
def execDebugToken (src : CzSource) (req : BitVec 64) (body : List Byte) (s : State) : Res :=
  .next (s.czRun src req.toNat 0x71 (·.debugToken body))

/-- A write of SEC_CMD: an opcode that R566 lists from 0x40 to 0x71 runs on the body in the buffer; others are ignored.
Whether a fuse burn reads back correctly is free. -/
def State.secCommand (s : State) (op len : Nat) : State :=
  let a := s.mboxAddr
  let b := if inSystem a len then s.bytes a len else []
  let s := s.when (inSystem a len) (fun s => s.readBy s.srcOther a len)
  let (d, s) := s.draw "a fuse burn reads back" [(op : Nat)]
  let ok := d % 2 == 1
  let run := fun (f : State → Nat × List Byte × State) => s.czRun .secCmd 0 op f
  if op = 0x40 then run (·.attest b)
  else if op = 0x41 then run (fun s => (czOK, Config.certificate, s))
  else if op = 0x42 then run (·.czCalExport b)
  else if op = 0x50 then run (·.fwWrite b)
  else if op = 0x51 then run (·.fwActivate b)
  else if op = 0x54 then run (·.lockFw ok)
  else if op = 0x55 then run (·.lockOwner ok)
  else if op = 0x58 then run (·.platformWrite b)
  else if op = 0x60 then run (·.ownerInstall b)
  else if op = 0x61 then run (·.ownerUpdate b)
  else if op = 0x62 then run (·.ownerClear b)
  else if op = 0x70 then s.czRequest .secCmd 0 op (·.debugChal .secCmd 0)
  else if op = 0x71 then run (·.debugToken b)
  else s

/-! ## Sessions (R564 to R567) -/

/-- CZ_SESSION_CONNECT: a TLS client connects, with the key of its certificate and the key that signed it.  While an owner
is installed one of them must be an owner key; at most 8 sessions run at once (R564). -/
def execCzSessionConnect (conn : Nat) (key issuer : List Byte) (s : State) : Res :=
  let x := s.sec
  let live := x.conns.length + (x.sessions.filter (fun y => y.conn.isSome)).length
  let used := x.conns.contains conn || (s.session conn).isSome
  .next (if x.running.isNone || s.dev == .off || used || 8 ≤ live then s
  else
    let ok := match x.owner with
      | some o => o.keys.contains key || o.keys.contains issuer
      | none => true
    if ok then s.setSec (fun x => { x with conns := x.conns ++ [conn] }) else s.authFail 2)

/-- OPEN: a session starts; the response carries its SESSION_ID (R566). -/
def execCzOpen (conn : Nat) (req : BitVec 64) (s : State) : Res :=
  .next (if !s.sec.conns.contains conn then s
  else
    let (d, s) := s.draw "SESSION_ID" [(conn : Nat)]
    let id := d % 2 ^ 64
    let s := s.setSec (fun x => { x with
      conns := x.conns.filter (· != conn), sessions := x.sessions ++ [⟨some conn, id, [], none, none⟩] })
    s.czAnswer (.session conn) req.toNat 0x01 czOK (leBytes 8 id))

/-- SESSION_RESUME: RESUME restores a session that ended less than 60 s ago, with its cache (R566, R567). -/
def execSessionResume (conn : Nat) (req sid : BitVec 64) (s : State) : Res :=
  let fits := fun (y : Session) => y.conn == none && y.id == sid.toNat && (match y.ended with
    | some t => decide (s.now < t + 60 * sCycles)
    | none => false)
  .next (if !s.sec.conns.contains conn then s
  else match s.sec.sessions.find? fits with
    | none => s.emit (.czResp conn req.toNat 0x02 czREFUSED 0 [])
    | some y =>
      let s := s.setSec (fun x => { x with
        conns := x.conns.filter (· != conn)
        sessions := (x.sessions.erase y) ++ [{ y with conn := some conn, ended := none }] })
      s.czAnswer (.session conn) req.toNat 0x02 czOK [])

/-- CZ_SESSION_END: the connection is lost or closed; the session keeps its cache for RESUME (R567). -/
def execCzSessionEnd (conn : Nat) (s : State) : Res :=
  .next ((s.modSession conn (fun y => { y with conn := none, floor := none, ended := some s.now })).setSec (fun x => { x with
    conns := x.conns.filter (· != conn) }))

/-- EVQ_SUBSCRIBE: sets the severity from which events are pushed; 0xFF ends it (R566). -/
def execEvqSubscribe (conn : Nat) (req : BitVec 64) (floor : BitVec 8) (s : State) : Res :=
  .next (s.czRun (.session conn) req.toNat 0x80 (fun s =>
    (czOK, [], s.modSession conn (fun y => { y with floor := if floor = 0xFF then none else some floor.toNat }))))

/-! ## The JTAG mailbox (R563) -/

/-- A request that has arrived whole. -/
def State.mboxRun (s : State) (b : List Byte) : State :=
  let op := le b 4 2
  let req := le b 8 8
  let len := le b 16 4
  if b.take 3 != [0x43, 0x5A, 1] || le b 3 1 != 1 || b.length < 32 + len then s.czAnswer .jtag req op czBAD_REQUEST []
  else if op = 0x70 then s.czRequest .jtag req op (·.debugChal .jtag req)
  else s.czRun .jtag req op (·.debugToken (slice b 32 len))

/-- MBOX_WORD: a scan of the mailbox: Capture-DR loads the next response word, Update-DR with VALID = 1 delivers one. -/
def execMboxWord (valid last : Bool) (word : BitVec 32) (s : State) : Res :=
  .next (if s.dev == .off then s
  else
    let s := match s.sec.mboxOut with
      | [] => s.emit (.jtag false false 0)
      | w :: rest => (s.emit (.jtag true (rest == []) w)).setSec (fun x => { x with mboxOut := rest })
    if !valid then s
    else
      let s := s.setSec (fun x => { x with mboxIn := x.mboxIn ++ [word] })
      if !last then s
      else
        let b := (s.sec.mboxIn.map (fun w => leBytes 4 w.toNat)).flatten
        (s.setSec (fun x => { x with mboxIn := [] })).mboxRun b)

end Sys2Proof.Machine
end

