-- ==== Sys2Proof/Machine/Video.lean ====
section
/-! DEFINITION. The two scan-outs: composition, latching, retirement, links and pixel checking (R375 to R386). -/

namespace Sys2Proof.Machine

/-! ## Timing (R375, R380, R384) -/

def State.htotal (s : State) (d : Nat) : Nat :=
  s.hact d + s.fld VID_HTIM.FP d + s.fld VID_HTIM.SYNC d + s.fld VID_HTIM.BP d
def State.vtotal (s : State) (d : Nat) : Nat :=
  s.vact d + s.fld VID_VTIM.FP d + s.fld VID_VTIM.SYNC d + s.fld VID_VTIM.BP d
def State.khz (s : State) (d : Nat) : Nat := (s.reg .VID_PCLK d).toNat

/-- VID_LAT_TOL in ns (R384). -/
def State.latTol (s : State) (d : Nat) : Nat :=
  if !s.flag VID_CTRL.EN d || s.khz d = 0 then 2 ^ 32 - 1
  else satU 32 (min 64 (s.vtotal d - s.vact d) * s.htotal d * 1000000 / s.khz d)

/-! ## Composition (R376) -/

/-- A component of 8 bits as 10 bits, which the manual does not state. -/
def wideComponent (v : Nat) : Nat := Config.free "10-bit value of an 8-bit component" [(v : Nat)] 0 % 1024

/-- Pixel (x, y) of the base plane, 10 bits per component as R370 packs them; `rd` gives the word at an address. -/
def State.basePixel (s : State) (rd : Nat → Nat) (d x y : Nat) : Nat :=
  let v := rd (s.fld VID_BASE_ACT.ADDR d * 65536 + y * s.fld VID_STRIDE.STRIDE d * 64 + 4 * x)
  if s.fld VID_CTRL.BASE_FMT d = 1 then v % 2 ^ 30
  else if s.fld VID_CTRL.BPC d = 0 then bits v 23 16 * 2 ^ 22 + bits v 15 8 * 2 ^ 12 + bits v 7 0 * 4
  else wideComponent (bits v 23 16) * 2 ^ 20 + wideComponent (bits v 15 8) * 2 ^ 10 + wideComponent (bits v 7 0)

/-- The front buffer of logical renderer l on scan-out d. -/
def State.frontBase (s : State) (l d : Nat) : Option Nat :=
  let p := s.oplPhys l
  ((s.opal p).bufs.findSome? (fun b => b.2.front.find? (fun e => e.1 == d))).map (·.2)

/-- Line y is one of the lines that overlay window (cfg, pos) covers. -/
def ovlCovers (w : Nat × Nat) (y : Nat) : Bool :=
  bit w.1 31 && decide (bits w.2 27 16 ≤ y) && decide (y < bits w.2 27 16 + 256 * bits w.1 3 0)

/-- The pixel that overlay window (cfg, pos) gives at (x, y): none outside it, for a transparent one, or without
a front buffer. -/
def State.overlayPixel (s : State) (rd : Nat → Nat) (d x y : Nat) (w : Nat × Nat) : Option Nat :=
  let sx := bits w.1 5 4
  let sy := bits w.1 3 0
  let x0 := bits w.2 12 0
  let y0 := bits w.2 27 16
  if !ovlCovers w y || x < x0 || x0 + 1024 * sx ≤ x then none
  else match s.frontBase (bits w.1 11 8) d with
    | none => none
    | some a =>
      let v := rd (a + 4096 * ((y - y0) / sy) + 4 * ((x - x0) / sx))
      if bit v 31 then none else some (v % 2 ^ 30)

/-- Pixel (x, y) of the composed frame: the highest window that shows something, else the base plane; at 8 bpc
each component loses its two lowest bits. -/
def State.pixel (s : State) (rd : Nat → Nat) (d x y : Nat) : Nat :=
  let v := ((s.scan d).ovl.reverse.findSome? (s.overlayPixel rd d x y)).getD (s.basePixel rd d x y)
  if s.fld VID_CTRL.BPC d = 0 then v &&& 0x3FCFF3FC else v

/-! ## The fetch engine (R382, R386) -/

/-- The 64-byte units that line y of scan-out d reads: of the base plane and of the overlay rows that cover it. -/
def State.lineUnits (s : State) (d y : Nat) : List Nat :=
  let base := s.fld VID_BASE_ACT.ADDR d * 65536 + y * s.fld VID_STRIDE.STRIDE d * 64
  (List.range ((s.hact d * 4 + 63) / 64)).map (fun i => base + 64 * i) ++
  (s.scan d).ovl.flatMap (fun w =>
    if !ovlCovers w y then []
    else match s.frontBase (bits w.1 11 8) d with
      | none => []
      | some a => (List.range 64).map (fun i => a + 4096 * ((y - bits w.2 27 16) / bits w.1 3 0) + 64 * i))

/-- A unit as memory holds it now; what a scan-out shows of memory that does not serve is free, since R352 does not say
(log entry 106). -/
def State.unitNow (s : State) (a : Nat) : List Byte :=
  if s.poisoned a then
    (List.range 64).map (fun i => BitVec.ofNat 8 (Config.free "byte of a poisoned scan-out fetch" [(a + i : Nat)] s.now))
  else s.bytes a 64

/-- The word at an address, of the units fetched. -/
def unitWord (units : List (Nat × List Byte)) (a : Nat) : Nat :=
  match units.find? (fun e => e.1 == a / 64 * 64) with
  | some e => le e.2 (a % 64) 4
  | none => 0

/-- Line y, composed from the units fetched for it. -/
def State.composeLine (s : State) (d y : Nat) (units : List (Nat × List Byte)) : List Nat :=
  (List.range (s.hact d)).map (fun x => s.pixel (unitWord units) d x y)

/-- Fetches that began end: a unit that was written meanwhile is all old or all new (R382). -/
def State.fetchEnd (s : State) (d : Nat) : State :=
  let x := s.scan d
  let n := x.lines.length
  let late := fun (e : Nat × List Byte) =>
    (e.1, if Config.free "a unit written while it is fetched" [(d : Nat), (e.1 : Nat)] s.now % 2 = 0 then e.2
      else s.unitNow e.1)
  let done := (List.range x.early.length).map (fun i => s.composeLine d (n + i) ((nth x.early i []).map late))
  let s := s.setScan d { x with lines := x.lines ++ done, early := [] }
  s.over (x.early.flatMap (fun l => l.map (·.1))) (fun s a => s.readBy srcDisplay a 64)

/-- The fetch of lines [from, to) begins. -/
def State.fetchLines (s : State) (d upto : Nat) : State :=
  let x := s.scan d
  let n := x.lines.length
  s.setScan d { x with early := (List.range (upto - n)).map (fun i =>
    (s.lineUnits d (n + i)).map (fun a => (a, s.unitNow a))) }

/-- The line being displayed, counted from the first active line; negative before it. -/
def State.scanLine (s : State) (d : Nat) : Int :=
  ((s.time.ot : Int) - (s.scan d).start) * (s.khz d * 1000 : Nat) / (2 ^ 80 * s.htotal d : Nat)

/-- The fetch engine in a cycle: every line is fetched 1 to 64 lines before it is displayed, in order; how far ahead is
free (R382).  In HELD it reads nothing (R386). -/
def State.fetchTick (s : State) (d : Nat) : State :=
  if !(s.scan d).live || !s.flag VID_CTRL.EN d then s
  else if !s.outputsOn then s.setScan d { s.scan d with unread := true }
  else
    let ahead := Config.free "lines that the fetch engine is ahead" [(d : Nat)] s.now % 64
    (s.fetchEnd d).fetchLines d (min (s.vact d) (s.scanLine d + 2 + ahead).toNat)

/-! ## Pixel checking (R385) -/

/-- The CRC of one component (shift 20, 10 or 0) over the lines: its bits stand at the top of a 16-bit word. -/
def crcOf (sh : Nat) (lines : List (List Nat)) : Nat :=
  lines.foldl (fun c l => l.foldl (fun c v => crcWord c (v / 2 ^ sh % 1024 * 64)) c) 0

/-- The lines sent: as fetched, and black from the underrun on (R383). -/
def linesSent (lines : List (List Nat)) (black : List (Nat × Nat)) : List (List Nat) :=
  (List.range lines.length).map (fun y =>
    let l := nth lines y []
    match black.find? (fun b => b.1 == y) with
    | some b => l.take b.2 ++ List.replicate (l.length - b.2) 0
    | none => l)

/-- The CRCs of the frame that ends are latched; `err` is the difference that the pins show (R385). -/
def State.latchCrc (s : State) (d err : Nat) : State :=
  let x := s.scan d
  let src := if !x.live || x.unread || !s.outputsOn then
      let v := s.draw "CRC of a frame for which nothing was fetched" []
      (v.1 % 65536, v.1 / 2 ^ 16 % 65536, v.1 / 2 ^ 32 % 65536, v.2)
    else
      let l := linesSent x.lines x.black
      (crcOf 20 l, crcOf 10 l, crcOf 0 l, s)
  let s := src.2.2.2
  let rg := src.1 + src.2.1 * 65536
  let s := (s.setReg .VID_CRC_SRC0 d (BitVec.ofNat 32 rg)).setReg .VID_CRC_SRC1 d (BitVec.ofNat 32 src.2.2.1)
  if s.flag VID_STATUS.TRAINED d && s.outputsOn then
    let s := (s.setReg .VID_CRC_PIN0 d (BitVec.ofNat 32 (rg ^^^ err % 2 ^ 32))).setReg .VID_CRC_PIN1 d
      (BitVec.ofNat 32 (src.2.2.1 ^^^ err / 2 ^ 32 % 65536))
    let s := s.setFlag VID_CRC_STAT.PIN_VALID d true
    if err % 2 ^ 48 = 0 then s
    else (s.addFld VID_CRC_STAT.MISMATCH d 1).raise Ev.CRC_MISMATCH 0
      [(0, 1, d), (1, 4, s.reg64 .VID_FRAME_LO .VID_FRAME_HI d)]
  else s.setFlag VID_CRC_STAT.PIN_VALID d false

/-! ## Commits, latches and retirement (R379 to R381) -/

/-- FLIP_RETIRED for a base plane (R381). -/
def State.flipRetired (s : State) (d addr frame : Nat) (skipped : Bool) : State :=
  (s.setFld VID_RETIRED.ADDR d addr).raise Ev.FLIP_RETIRED 0
    [(0, 1, d), (1, 1, b2n skipped), (2, 4, addr), (6, 4, frame)]

/-- Committed bases are replaced before any latch and never shown (R379). -/
def State.baseSkipped (s : State) (d : Nat) (l : List (Nat × Nat)) : State :=
  s.over l (fun s b =>
    let v := s.draw "last frame of a base that no frame showed" []
    v.2.flipRetired d b.1 v.1 true)

/-- A write of VID_BASE commits a base address; one committed in the same cycle is replaced, and one that waits from
before it once the cycle has passed without a latch, which would still take it (R379). -/
def State.baseCommit (s : State) (d addr : Nat) : State :=
  let x := s.scan d
  let s := s.setFld VID_BASE.ADDR d addr
  let s := (s.setScan d { x with base := x.base.filter (fun b => b.2 != s.now) ++ [(addr, s.now)] }).setFlag
    VID_STATUS.BASE_PEND d true
  s.baseSkipped d (x.base.filter (fun b => b.2 == s.now))

/-- A cycle has passed: of two bases that wait, the later one replaces the other (R379). -/
def State.baseTick (s : State) (d : Nat) : State :=
  let x := s.scan d
  if x.base.length < 2 then s
  else (s.setScan d { x with base := x.base.drop (x.base.length - 1) }).baseSkipped d (x.base.take (x.base.length - 1))

/-- VID_BASE_COMMIT: a write of VID_BASE (R379). -/
def execVidBaseCommit (path : Path) (d : Fin 2) (value : BitVec 32) (s : State) : Res :=
  .next ((s.baseCommit d.val value.toNat).wrote path .VID_BASE d.val)

/-- The overlay buffers at a latch of scan-out d, with the addresses they were written at: a pending buffer of a shown renderer becomes front, and the
front buffer that it or a moved window replaces retires (R379, R381). -/
def State.latchOverlays (s : State) (d : Nat) : State :=
  let shown := fun l => (s.scan d).ovl.any (fun w => bit w.1 31 && bits w.1 11 8 == l)
  s.each 16 (fun s l =>
    let p := s.oplPhys l
    let o := s.opal p
    let out := fun (xs : List (Nat × Nat)) => xs.filter (·.1 != d)
    let mine := fun (xs : List (Nat × Nat)) => xs.filter (·.1 == d)
    let fresh := shown l && o.bufs.any (fun b => mine b.2.pending != [])
    let bufs := o.bufs.foldl (fun t e =>
      let b := e.2
      let b' := if fresh || !shown l then
          { b with front := out b.front, retiring := mine b.front ++ b.retiring } else b
      let b' := { b' with pending := out b.pending, front := (if shown l then mine b.pending else []) ++ b'.front }
      Table.set {} t e.1 b') o.bufs
    s.setOpal p { o with bufs := bufs })

/-- The start of the frame that follows a latch at the present instant, in 2^-80 s (R380). -/
def State.frameStart (s : State) (d : Nat) : Nat :=
  let px := (s.htotal d - s.hact d) + (s.vtotal d - s.vact d) * s.htotal d
  s.time.ot + px * 2 ^ 80 / (s.khz d * 1000)

/-- The latch point of scan-out d (R379 to R381, R385, R391). -/
def State.vidLatch (s : State) (d err : Nat) : State :=
  let s := s.fetchEnd d
  let s := s.when ((s.scan d).live && s.outputsOn) (fun s => (s.fetchLines d (s.vact d)).fetchEnd d)
  let s := s.latchCrc d err
  let start := s.frameStart d
  let f := s.reg64 .VID_FRAME_LO .VID_FRAME_HI d
  let s := match Table.get? s.lv (.VID_SIZE_W, d), Table.get? s.lv (.VID_SIZE_H, d) with
    | some w, some h =>
      let s := (s.setReg .VID_SIZE_W d w).setReg .VID_SIZE_H d h
      { s with lv := Table.erase (Table.erase s.lv (.VID_SIZE_W, d)) (.VID_SIZE_H, d) }
    | _, _ => s
  let s := s.setReg64 .VID_FRAME_LO .VID_FRAME_HI d (f + 1)
  let x := s.scan d
  let s := match x.base.find? (fun (b : Nat × Nat) => decide (b.2 < s.now)) with
    | some (a, _) =>
      let old := s.fld VID_BASE_ACT.ADDR d
      let rest := x.base.filter (fun (b : Nat × Nat) => decide (s.now ≤ b.2))
      let s := s.setScan d { x with
        base := rest, based := true, retiring := if old = a || !x.based then x.retiring else x.retiring ++ [(old, f)] }
      let s := ((s.setFlag VID_STATUS.BASE_PEND d (rest != [])).setFld VID_BASE_ACT.ADDR d a).setFld VID_FLIP_FRAME.FRAME d
        (f + 1)
      let t := toOt96 start
      let put := fun (s : State) (n v : Nat) => s.setReg .VID_FLIP_TS (4 * d + n) (BitVec.ofNat 32 v)
      put (put (put (put s 0 t) 1 (t / 2 ^ 32 % 65536)) 2 (t / 2 ^ 48)) 3 (t / 2 ^ 80)
    | none => s
  let s := s.setScan d { s.scan d with
    ovl := (List.range 4).map (fun w => ((s.reg .VID_OVL_CFG (4 * d + w)).toNat, (s.reg .VID_OVL_POS (4 * d + w)).toNat)) }
  let s := s.latchOverlays d
  let s := s.setScan d { s.scan d with
    live := true, start := start, lines := [], early := [], black := [], unread := !s.outputsOn }
  s.each 17 (fun s p =>
    s.when (s.flag OPL_CFG.EN p && s.fld OPL_CFG.FRAME_SRC p == d + 1) (·.oplRequest p))

/-- VID_LATCH: the latch point of scan-out d; the pins' CRCs differ from the composer's by `pinError` (R379). -/
def execVidLatch (d : Fin 2) (pinError : BitVec 48) (s : State) : Res :=
  .next (if s.flag VID_CTRL.EN d.val then s.vidLatch d.val pinError.toNat else s)

/-- FLIP_RETIRED: every fetch of a replaced buffer of scan-out d has returned: the oldest base plane, or the
overlay buffers of a logical renderer (R381). -/
def execFlipRetired (d : Fin 2) (rend : Option (Fin 16)) (s : State) : Res :=
  let d := d.val
  .next (match rend with
  | none =>
    let x := s.scan d
    match x.retiring with
    | [] => s
    | (a, f) :: rest => (s.setScan d { x with retiring := rest }).flipRetired d a f false
  | some l =>
    let p := s.oplPhys l.val
    let o := s.opal p
    s.setOpal p { o with bufs := o.bufs.foldl (fun t e =>
      Table.set {} t e.1 { e.2 with retiring := e.2.retiring.filter (·.1 != d) }) o.bufs })

/-! ## The link and underruns (R378, R383) -/

/-- HPD_CHANGE: the hot-plug line of scan-out d rises or falls, or an IRQ_HPD reports a lost link; a rise and a
lost link start training (R378). -/
def execHpdChange (d : Fin 2) (hpd : Hpd) (s : State) : Res :=
  let d := d.val
  let x := s.scan d
  let level := fun (b : Bool) => (s.setFlag VID_STATUS.HPD d b).raise Ev.HPD_CHANGE 0 [(0, 1, d), (1, 1, b2n b)]
  .next (match hpd with
  | .rise => if s.flag VID_STATUS.HPD d then s else (level true).setScan d { x with training := true }
  | .fall =>
    if !s.flag VID_STATUS.HPD d then s
    else ((level false).setScan d { x with training := false }).setFlag VID_STATUS.TRAINED d false
  | .lostLink =>
    if !s.flag VID_STATUS.HPD d then s
    else (s.setScan d { x with training := true }).setFlag VID_STATUS.TRAINED d false)

/-- The link rates in Mb/s of a lane. -/
def dpRate (r : Nat) : Nat := nth [1620, 2700, 5400, 8100] r 0

/-- The stream needs at most the capacity of `lanes` lanes at rate code r: × 0.8, less 0.5 % with SSC (R378). -/
def State.dpFits (s : State) (d r lanes : Nat) : Bool :=
  let bpp := if s.fld VID_CTRL.BPC d = 0 then 24 else 30
  let ssc := if s.flag VID_CTRL.SSC d then 995 else 1000
  decide (s.khz d * bpp * 10000 ≤ lanes * dpRate r * 1000 * 8 * ssc)

/-- The lowest link rate, and with it the lowest lane count, that carries the stream (R378): rate code and lane
code. -/
def State.dpChoice (s : State) (d maxRate maxLanes : Nat) : Option (Nat × Nat) :=
  ((List.range (maxRate + 1)).flatMap (fun r => (List.range (maxLanes + 1)).map (fun l => (r, l)))).find? (fun e =>
    s.dpFits d e.1 (2 ^ e.2))

/-- LINK_TRAIN_DONE: training of scan-out d ends; the sink takes rates up to `sinkRate` and lane counts up to
`sinkLanes`, coded as MAX_RATE and MAX_LANES (R378). -/
def execLinkTrainDone (d : Fin 2) (sinkRate : Fin 4) (sinkLanes : Fin 3) (passed : Bool) (s : State) : Res :=
  let d := d.val
  let x := s.scan d
  .next (if !x.training then s
  else
    let s := s.setScan d { x with training := false }
    match s.dpChoice d (min sinkRate.val (s.fld VID_CTRL.MAX_RATE d)) (min sinkLanes.val (s.fld VID_CTRL.MAX_LANES d)) with
    | none => s.raise Ev.LINK_FAIL 0 [(0, 1, d), (1, 1, 1)]
    | some (r, l) =>
      if !passed then s.raise Ev.LINK_FAIL 0 [(0, 1, d), (1, 1, 0)]
      else
        let s := ((s.setFlag VID_STATUS.TRAINED d true).setFld VID_STATUS.LANES d l).setFld VID_STATUS.RATE d r
        s.raise Ev.LINK_TRAINED 0 [(0, 1, d), (1, 1, 2 ^ l), (2, 1, r)])

/-- UNDERRUN: line `line` of scan-out d is not in the line buffer from pixel x on and is sent black (R383). -/
def execUnderrun (d : Fin 2) (line x : Nat) (s : State) : Res :=
  let d := d.val
  let y := s.scan d
  let h := y.under.hit s.now sCycles 1
  .next (if !s.flag VID_CTRL.EN d then s
  else
    let s := (s.setScan d { y with black := y.black ++ [(line, x)], under := h.2.2 }).addFld VID_UNDERRUN.COUNT d 1
    s.when h.1 (·.raise Ev.UNDERRUN 0 [(0, 1, d), (1, 4, h.2.1)]))

end Sys2Proof.Machine
end

