-- ==== Sys2Proof/Machine/Staging.lean ====
section
/-! DEFINITION. The engine program image and the staging bank: reading an image, loading it into the bank, and the
values that the bank would bring into force (R188 to R198, R205, R318, R323, R387, R526). -/

namespace Sys2Proof.Machine

/-! ## The image (R188 to R191, R198) -/

/-- An entry of the section table: number, TYPE, INSTANCE, FLAGS, OFFSET, LENGTH (R190). -/
structure ImgEntry where
  idx : Nat
  type : Nat
  inst : Nat
  flags : Nat
  off : Nat
  len : Nat
deriving DecidableEq, Repr

/-- Header fields (R189). -/
def imgTotal (b : List Byte) : Nat := le b 8 8
def imgCount (b : List Byte) : Nat := le b 16 2
def imgFlags (b : List Byte) : Nat := le b 18 2
def imgSigned (b : List Byte) : Bool := bit (imgFlags b) 0

/-- The section table (R190). -/
def imgTable (b : List Byte) : List ImgEntry :=
  (List.range (imgCount b)).map (fun i =>
    let e := slice b (64 + 32 * i) 32
    ⟨i, le e 0 2, le e 2 2, le e 4 4, le e 8 8, le e 16 8⟩)

/-- The types of R191. -/
def knownType (t : Nat) : Bool := decide (1 ≤ t) && decide (t ≤ 12)

/-- The sections that the device knows. -/
def imgSections (b : List Byte) : List Section :=
  ((imgTable b).filter (fun e => knownType e.type)).map (fun e => ⟨e.type, e.inst, slice b e.off e.len, e.idx, e.off⟩)

/-- The 128 bytes of the trailer (R198). -/
def imgTrailer (b : List Byte) : List Byte := slice b (imgTotal b - 128) 128

/-- What the device keeps of an image. -/
def imgInfo (b : List Byte) : ImageInfo := ⟨slice (imgTrailer b) 0 32, bit (imgFlags b) 1, imgSigned b, le b 24 4⟩

/-- A section by type and instance, with its place in the image. -/
def sectionOf (l : List Section) (type inst : Nat) : Option Section :=
  l.find? (fun x => x.type == type && x.inst == inst)

/-- The register instance at an address of the control-register region or of a GT block (R29, R606). -/
def regAt (a : Nat) : Option RegKey :=
  Reg.all.findSome? (fun r =>
    let b := r.desc.block.base 0
    let step := match r.desc.block with | .GT => 0x01000000 | _ => 0x10000
    if a < b then none
    else
      let n := (a - b) / step
      let o := (a - b) % step
      if n < r.desc.block.count then
        let per := r.desc.dims.foldl (fun n d => n * d.1) 1
        ((List.range per).find? (fun j => r.desc.offset + dimOffset r.desc.dims j == o)).map (fun j => (r, n * per + j))
      else none)

/-! ## The sections' values in the staging bank (R194, R195, R205) -/

/-- Replace the bits of a staged register under a mask, noting where the image gives them, if it does. -/
def State.stageBits (s : State) (k : RegKey) (mask v : Nat) (from_ : Option (Nat × Nat)) : State :=
  let old := (s.stagedReg k.1 k.2).toNat
  let s := s.stage k.1 k.2 (BitVec.ofNat 32 (old - (old &&& mask) + (v &&& mask)))
  let places := (Table.getD s.prog.origin k []).filter (fun o => o.1 - (o.1 &&& mask) != 0)
  { s with prog := { s.prog with origin := match from_ with
    | some o => Table.insert RegKey.lt s.prog.origin k ((mask, o) :: places)
    | none => if places = [] then Table.erase s.prog.origin k else Table.insert RegKey.lt s.prog.origin k places } }

/-- The ST and LV fields of register instance (r, i) are staged from a word of a section, or at their reset values
when the image does not give them (R191). -/
def State.stageWord (s : State) (k : RegKey) (v : Option (Nat × Nat × Nat)) : State :=
  let m := k.1.mask (fun a => a == .ST || a == .LV || a == .LVT)
  match v with
  | some (w, from_) => s.stageBits k m w (some from_)
  | none => s.stageBits k m (s.resetWord k.1 k.2).toNat none

/-- GT registers that TILE_PROGRAM and UCODE give. -/
def gtImage : List Reg := [.GT_FRAME, .GT_RING, .GT_UDISP_A, .GT_UDISP_B]

/-- The 32-bit word at offset o of a section, with its place. -/
def Section.word (x : Section) (o : Nat) : Nat × Nat × Nat := (le x.bytes o 4, x.idx, x.off + o)

/-- The ST bits that SETTINGS may set: those outside the GT block and CNV_CTRL.RATE_DIV (R195). -/
def settable (k : RegKey) : Nat :=
  if k.1.desc.block == .GT then 0
  else if k.1 == .CNV_CTRL then k.1.stMask k.2 - (k.1.stMask k.2 &&& 3) else k.1.stMask k.2

/-- An absent SETTINGS takes its reset values: those of the ST fields that it could set (R191). -/
def State.resetSettings (s : State) (l : List Section) : State :=
  if (sectionOf l 4 0).isSome then s
  else s.over Reg.all (fun s r => if settable (r, 0) = 0 then s
    else s.each r.count (fun s i => s.stageBits (r, i) (settable (r, i)) (s.resetWord r i).toNat none))

/-- SETTINGS: the entries act in order on ST bits (R195). -/
def State.stageSettings (s : State) (l : List Section) : State :=
  match sectionOf l 4 0 with
  | none => s
  | some x => s.each (x.bytes.length / 16) (fun s i =>
      match regAt (le x.bytes (16 * i) 8) with
      | some k => s.stageBits k (le x.bytes (16 * i + 12) 4 &&& settable k) (le x.bytes (16 * i + 8) 4)
          (some (x.idx, x.off + 16 * i + 8))
      | none => s)

/-- OCTANT_MODES: byte 1 of each entry is the staged RATE_DIV (R194). -/
def State.stageModes (s : State) (l : List Section) : State :=
  match sectionOf l 3 0 with
  | none => s
  | some x => s.each 8 (fun s k => s.stageBits (.CNV_CTRL, k) 3 (le x.bytes (16 * k + 1) 1)
      (some (x.idx, x.off + 16 * k + 1)))

/-- The registers of a combiner cell and of a record definition, with their offsets in the group (R318). -/
def cellRegs : List (Reg × Nat × Nat) :=
  (List.range 16).map (fun i => (.TRG_CELL_IN, 16, i)) ++ (List.range 4).map (fun i => (.TRG_CELL_TERM, 4, i)) ++
  [(.TRG_CELL_CFG, 1, 0), (.TRG_CELL_WIN, 1, 0), (.TRG_CELL_OUT, 1, 0), (.TRG_CELL_GRP_LO, 1, 0), (.TRG_CELL_GRP_HI, 1, 0)]
def defRegs : List (Reg × Nat × Nat) :=
  [(.TRG_DEF_CFG, 1, 0), (.TRG_DEF_PRE, 1, 0), (.TRG_DEF_POST, 1, 0), (.TRG_DEF_MAXEXT, 1, 0), (.TRG_DEF_TIMEOUT, 1, 0)] ++
  (List.range 8).map (fun i => (.TRG_DEF_CH, 8, i))

/-- Where register instance k lies in its block. -/
def blockOffset (k : RegKey) : Nat :=
  let per := k.1.desc.dims.foldl (fun n d => n * d.1) 1
  k.1.desc.offset + dimOffset k.1.desc.dims (k.2 % per)

/-- Stage one register group from a section at byte `at_` (none: absent, so reset values); `base` is the group's
offset in the block. -/
def State.stageGroup (s : State) (x : Option (Section × Nat)) (base : Nat) (keys : List RegKey) : State :=
  s.over keys (fun s k => s.stageWord k (x.map (fun y => y.1.word (y.2 + (blockOffset k - base)))))

/-- Bits set below i: the place of entry i among those present. -/
def rankOf (mask i : Nat) : Nat := ((List.range i).filter (bit mask ·)).length

/-- COMBINER: cells and definitions present, the others at their reset values (R318). -/
def State.stageCombiner (s : State) (l : List Section) : State :=
  let x := sectionOf l 6 0
  let mask := fun o n => match x with | some y => le y.bytes o n | none => 0
  let cells := mask 0 8
  let defs := mask 8 4
  let s := s.each 64 (fun s c =>
    s.stageGroup (if bit cells c then x.map (fun y => (y, 64 + 128 * rankOf cells c)) else none) (0x1000 + 0x80 * c)
      (cellRegs.map (fun e => (e.1, e.2.1 * c + e.2.2))))
  s.each 32 (fun s d =>
    s.stageGroup (if bit defs d then x.map (fun y => (y, 64 + 128 * rankOf cells 64 + 64 * rankOf defs d)) else none)
      (0x4000 + 0x40 * d) (defRegs.map (fun e => (e.1, e.2.1 * d + e.2.2))))

/-- The setup registers of a renderer and of a scan-out that DISPLAY gives (R387). -/
def oplSetupRegs : List (Reg × Nat × Nat) :=
  [(.OPL_CFG, 1, 0), (.OPL_MAP, 1, 0), (.OPL_LEVEL_BOT, 1, 0), (.OPL_LEVEL_STEP, 1, 0), (.OPL_DECAY, 1, 0),
   (.OPL_COLOUR, 1, 0), (.OPL_FRAME_CNT, 1, 0), (.OPL_SKIP, 1, 0)] ++ (List.range 4).map (fun i => (.OPL_BUF, 4, i))
def vidSetupRegs : List (Reg × Nat × Nat) :=
  [(.VID_CTRL, 1, 0), (.VID_SIZE_W, 1, 0), (.VID_SIZE_H, 1, 0), (.VID_HTIM, 1, 0), (.VID_VTIM, 1, 0), (.VID_PCLK, 1, 0),
   (.VID_STRIDE, 1, 0), (.VID_BASE, 1, 0)] ++
  (List.range 4).map (fun i => (.VID_OVL_CFG, 4, i)) ++ (List.range 4).map (fun i => (.VID_OVL_POS, 4, i))

/-- The masks of renderers and scan-outs that DISPLAY gives. -/
def displayMasks (x : Option Section) : Nat × Nat :=
  match x with
  | some y => (le y.bytes 0 2, le y.bytes 2 1)
  | none => (0, 0)

/-- Where renderer l and scan-out d stand in DISPLAY. -/
def displayOpl (rend l : Nat) : Nat := 64 + 1152 * rankOf rend l
def displayVid (rend scan d : Nat) : Nat := 64 + 1152 * rankOf rend 16 + 256 * rankOf scan d

/-- DISPLAY: logical renderers through the physical renderer that serves each, colour maps, scan-outs; a STEP of 0 is
ignored (R387, R390). -/
def State.stageDisplay (s : State) (l : List Section) : State :=
  let x := sectionOf l 8 0
  let (rend, scan) := displayMasks x
  let s := s.each 16 (fun s i =>
    let p := s.oplPhys i
    let y := if bit rend i then x.map (fun y => (y, displayOpl rend i)) else none
    if 17 ≤ p then s
    else
    let s := s.stageGroup y 0 (oplSetupRegs.map (fun e => (e.1, e.2.1 * p + e.2.2)))
    let noStep := match y with
      | some z => le z.1.bytes (z.2 + 16) 2 == 0
      | none => false
    let s : State := if noStep then { s with staged := Table.erase s.staged (.OPL_LEVEL_STEP, p) } else s
    s.each 256 (fun s j => s.stageWord (.OPL_CMAP, 256 * p + j) (y.map (fun z => z.1.word (z.2 + 128 + 4 * j)))))
  s.each 2 (fun s d =>
    s.stageGroup (if bit scan d then x.map (fun y => (y, displayVid rend scan d)) else none) (0x100 + 0x100 * d)
      (vidSetupRegs.map (fun e => (e.1, e.2.1 * d + e.2.2))))

/-- PANTRY_POLICY: four registers (R526). -/
def State.stagePantry (s : State) (l : List Section) : State :=
  s.stageGroup ((sectionOf l 12 0).map (fun y => (y, 0))) 0
    [(.PAN_POLICY, 0), (.PAN_ROT, 0), (.PAN_THR_A, 0), (.PAN_THR_B, 0)]

/-- The UCODE section that applies to a group, with its place (R193). -/
def ucodeOf (l : List Section) (g : Nat) : Option Section := (sectionOf l 2 g).orElse (fun _ => sectionOf l 2 0xFFFF)

/-- A GT register of a tile is staged from a word of a section (none: absent, so its reset value) where that differs from
the value in force (R191). -/
def State.stageGt (s : State) (k : RegKey) (v : Option (Nat × Nat × Nat)) : State :=
  let w := match v with
    | some v => v.1
    | none => (k.1.reset k.2).toNat
  if (s.reg k.1 k.2).toNat = w then s else s.stageBits k (2 ^ 32 - 1) w (v.map (·.2))

/-- TILE_PROGRAM, UCODE and PARAM_BANK of group g: the GT fields and parameter words of its tile that differ from the
values in force are staged; an absent section takes its reset values (R191, R195, R205). -/
def State.stageGroupProgram (s : State) (l : List Section) (g : Nat) : State :=
  let n := s.groupTile g
  let word := fun (x : Option Section) (o : Nat) => x.map (fun y => y.word o)
  let prog := sectionOf l 1 g
  let uc := ucodeOf l g
  let s := (s.stageGt (.GT_FRAME, n) (word prog 8)).each 4 (fun s i =>
    s.stageGt (.GT_RING, 4 * n + i) (word prog (12 + 4 * i)))
  let s := s.each 64 (fun s i =>
    (s.stageGt (.GT_UDISP_A, 64 * n + i) (word uc (8 * i))).stageGt (.GT_UDISP_B, 64 * n + i) (word uc (8 * i + 4)))
  let bank := (bankOf l g).1
  let t := s.tile n
  let words := ((List.range 256).map (fun p => (256 * g + p, Table.getD bank p 0))).filter (fun e =>
    Table.getD t.params (e.1 % 256) 0 != e.2)
  { s with prog := { s.prog with params := s.prog.params ++ words } }

/-- An image goes into the staging bank (R199, R205): its sections replace those staged; the registers that sections
give take their values, and then the entries of SETTINGS act. -/
def State.stageImage (s : State) (b : List Byte) : State :=
  let l := imgSections b
  let s : State := { s with
    staged := s.staged.filter (fun e => !gtImage.contains e.1.1)
    prog := { s.prog with
      staged := l, stagedInfo := some (imgInfo b), stagedImage := b, params := []
      origin := s.prog.origin.filter (fun e => !gtImage.contains e.1.1) } }
  let s := (((((s.resetSettings l).stageModes l).stageCombiner l).stageDisplay l).stagePantry l).stageSettings l
  s.each 64 (fun s g => s.stageGroupProgram l g)

/-! ## What the bank would bring into force -/

/-- The regions of a CELLAR_PARTITION section (R323). -/
def partitionOf (b : List Byte) : List Region :=
  (List.range (le b 1 1)).map (fun i =>
    let e := slice b (64 + 32 * i) 32
    ⟨le e 0 1, le e 1 1, le e 8 8, le e 16 8⟩)

/-- Every staged register outside the GT block takes effect, with the octants' modes and the partition. -/
def State.takeStaged (s : State) : State :=
  let gt := fun (e : RegKey × Word) => e.1.1.desc.block == .GT
  let t := s.over (s.staged.filter (fun e => !gt e)) (fun s e => s.takeWord e.1 e.2)
  let t : State := { t with staged := t.staged.filter gt }
  let t := t.each 8 (fun t k =>
    (t.setFld SYS_OCT_STAT.MODE k (modeIn s.prog.staged k)).setFld SYS_OCT_STAT.RATE_DIV k (t.fld CNV_CTRL.RATE_DIV k))
  match findSection s.prog.staged 9 0 with
  | some b =>
    let t : State := { t with cel := { t.cel with regions := partitionOf b } }
    t.setFld CEL_RING_CFG.RING_GIB 0 (le b 0 1)
  | none => t

/-- The key under which GT register r, entry j, of group g is staged: that of its tile. -/
def State.groupKey (s : State) (g : Nat) (r : Reg) (j : Nat) : RegKey := (r, r.perTile * s.groupTile g + j)

/-- The staged copy of GT register r, entry j of the tile that serves group g: the value in force where nothing was
written since (R205). -/
def State.groupWord (s : State) (g : Nat) (r : Reg) (j : Nat) : Nat :=
  let k := s.groupKey g r j
  (s.stagedReg k.1 k.2).toNat

/-- An octant whose mode has code 1 to 7 needs a tile for each of its groups (R252). -/
def liveMode (m : Nat) : Bool := decide (1 ≤ m) && decide (m ≤ 7)

/-- The tile of group g reloads at the switch point (R210). -/
def State.groupReloads (s w : State) (g : Nat) : Bool :=
  let k := g / 8
  findSection s.prog.staged 1 g != findSection s.prog.force 1 g || (findSection s.prog.force 1 g).isNone ||
  ucodeFor s.prog.staged g != ucodeFor s.prog.force g || s.mode k != w.mode k ||
  s.fld SYS_OCT_STAT.RATE_DIV k != w.fld SYS_OCT_STAT.RATE_DIV k

/-- Group g uses route r (R611). -/
def usesRoute (l : List Section) (g r : Nat) : Bool :=
  match findSection l 1 g with
  | none => false
  | some b =>
    let uc := ucodeFor l g
    let sig := match uc with
      | some u => (List.range (le u 514 2)).any (fun i => bits (le u (528 + 32 * i) 24) 42 40 == 2)
      | none => false
    (List.range (le b 2 2)).any (fun i =>
      let w := le b (64 + 8 * i) 8
      let op := bits w 63 56
      bits w 7 0 == r && (op == 0x70 || op == 0x74 ||
        (decide (0xC0 ≤ op) && sig && (match uc with
          | some u => bit (le u (8 * (op - 0xC0)) 4) 31
          | none => false))))

/-- The streams that STREAMS declares, and the seeds (R440). -/
def streamsOf (l : List Section) : List Nat :=
  match findSection l 7 0 with
  | some b => (List.range 64).filter (bit (le b 0 8) ·)
  | none => []
def seedsOf (l : List Section) : List (List Byte) :=
  match findSection l 7 0 with
  | some b => (List.range (le b 8 2)).map (fun i => slice b (64 + 16 * (streamsOf l).length + 64 * i) 64)
  | none => []

end Sys2Proof.Machine
end

