-- ==== Sys2Proof/Machine/Validate.lean ====
section
/-! DEFINITION. Validation of an engine program: the checks of R203 in the order of its table, with the report entry of
each failure (R204, R612). -/

namespace Sys2Proof.Machine

/-- A failure as the report gives it (R204). -/
structure Failure where
  code : Nat
  sect : Nat
  detail : Nat
  off : Nat
deriving DecidableEq, Repr

/-- The 16 bytes of a report entry (R204). -/
def Failure.bytes (f : Failure) : List Byte := leBytes 2 f.code ++ leBytes 2 f.sect ++ leBytes 4 f.detail ++ leBytes 8 f.off

/-- DETAIL of a failure that concerns no register (R612). -/
def noReg : Nat := 0xFFFFFFFF

/-- A failure of the header, table or trailer, and one at byte o of a section. -/
def headFail (code detail off : Nat) : Failure := ⟨code, 0xFFFF, detail, off⟩
def Section.fail (x : Section) (code detail o : Nat) : Failure := ⟨code, x.idx, detail, x.off + o⟩

/-- A failure if a condition holds. -/
def failIf (c : Bool) (f : Failure) : List Failure := if c then [f] else []

/-- Are all bytes zero? -/
def allZero (l : List Byte) : Bool := l.all (· == 0)

/-! ## Header, table and trailer (codes 0x01 to 0x0B) -/

/-- Ranges [a, a+n) and [b, b+m) overlap. -/
def overlapN (a n b m : Nat) : Bool := decide (a < b + m) && decide (b < a + n)

/-- TABLE: SECT_COUNT, and the places and lengths of the sections (R190, R203). -/
def tableFails (b : List Byte) : List Failure :=
  let n := imgCount b
  let tr := imgTotal b - 128
  let t := if n ≤ 1024 then imgTable b else []
  failIf (n == 0 || decide (1024 < n)) (headFail 4 n 16) ++
  failIf (decide (tr < 64 + 32 * n)) (headFail 4 n 8) ++
  t.flatMap (fun e => failIf (e.len == 0 || e.off % 64 != 0 || decide (e.off < 64 + 32 * n) || decide (tr < e.off + e.len) ||
    t.any (fun f => decide (f.idx < e.idx) && overlapN e.off e.len f.off f.len)) (headFail 4 e.idx (72 + 32 * e.idx)))

/-- SECTION_TYPE, SECTION_MISSING and the reserved fields of the table. -/
def typeFails (b : List Byte) : List Failure :=
  let t := imgTable b
  t.flatMap (fun e =>
    let known := knownType e.type
    let inst := match e.type with
      | 1 | 10 => decide (e.inst < 64)
      | 2 => decide (e.inst < 64) || e.inst == 0xFFFF
      | _ => e.inst == 0
    let twice := t.any (fun f => decide (f.idx < e.idx) && f.type == e.type && f.inst == e.inst)
    failIf (twice || (if known then !inst else !bit e.flags 0)) (headFail 5 e.type (64 + 32 * e.idx)) ++
    failIf (decide (2 ≤ e.flags)) (headFail 0x10 noReg (68 + 32 * e.idx)) ++
    failIf (!allZero (slice b (88 + 32 * e.idx) 8)) (headFail 0x10 noReg (88 + 32 * e.idx)))

/-- OCTANT_MODES or CELLAR_PARTITION is absent. -/
def missingFails (l : List Section) : List Failure :=
  [3, 9].flatMap (fun t => failIf (sectionOf l t 0).isNone (headFail 6 t 16))

/-- The reserved fields of the header. -/
def headerReserved (b : List Byte) : List Failure :=
  failIf (decide (4 ≤ imgFlags b)) (headFail 0x10 noReg 18) ++ failIf (!allZero (slice b 21 3)) (headFail 0x10 noReg 21) ++
  failIf (!allZero (slice b 28 4)) (headFail 0x10 noReg 28) ++ failIf (!allZero (slice b 48 16)) (headFail 0x10 noReg 48)

/-- The checks of the header, the table and the trailer of an image whose length was given as `len`. -/
def State.imageFails (s : State) (b : List Byte) (len : Nat) : List Failure :=
  let tr := imgTrailer b
  let at_ := imgTotal b - 128
  let tab := tableFails b
  let owner := s.sec.owner
  let keys := match owner with
    | some o => o.keys
    | none => []
  let key := keys.find? (fun k => keyId k == slice tr 96 8)
  let sigOk := match key with
    | some k => ecdsaVerify k (slice tr 0 32) (slice tr 32 32) (slice tr 64 32)
    | none => true
  let progMin := match owner with
    | some o => o.progMin
    | none => 0
  let signed := imgSigned b
  failIf (slice b 0 4 != [0x43, 0x5A, 0x45, 0x50] || le b 4 2 != 1 || le b 6 2 != 64) (headFail 1 noReg 0) ++
  failIf (imgTotal b != len || decide (2 ^ 26 < imgTotal b) || imgTotal b % 64 != 0) (headFail 2 noReg 8) ++
  failIf (le b 20 1 != s.fld SYS_ID.REV 0) (headFail 3 noReg 20) ++
  tab ++ (if tab == [] then typeFails b ++ missingFails (imgSections b) ++ headerReserved b else []) ++
  failIf (slice tr 0 32 != sha256 (b.take at_)) (headFail 7 noReg at_) ++
  failIf (!signed && s.flag SYS_PRG_POLICY.SIG_REQ 0) (headFail 8 noReg 18) ++
  failIf (signed && key.isNone) (headFail 9 noReg (at_ + 96)) ++
  failIf ((signed && !sigOk) || (!signed && !allZero (slice tr 32 72))) (headFail 0xA noReg (at_ + 32)) ++
  failIf (!allZero (slice tr 104 24)) (headFail 0xA noReg (at_ + 104)) ++
  failIf (decide (le b 24 4 < progMin)) (headFail 0xB noReg 24)

/-! ## Registers (FIELD, FIELD_TYPE, CLOCK) -/

/-- DETAIL for a register instance (R612). -/
def regDetail (k : RegKey) : Nat :=
  let per := k.1.desc.dims.foldl (fun n d => n * d.1) 1
  k.1.desc.block.index * 2 ^ 26 + k.2 / per * 2 ^ 16 + blockOffset k

/-- Where the image gives bits of a staged register under a mask. -/
def State.originOf (s : State) (k : RegKey) (mask : Nat) : Option (Nat × Nat) :=
  ((Table.getD s.prog.origin k []).find? (fun o => o.1 &&& mask != 0)).map (·.2)

/-- A failure of bits of a staged register: OFFSET is their byte in the image, or with bit 63 the register's address. -/
def State.bitsFail (s : State) (code : Nat) (k : RegKey) (mask : Nat) : Failure :=
  match s.originOf k mask with
  | some o => ⟨code, o.1, regDetail k, o.2⟩
  | none => ⟨code, 0xFFFF, regDetail k, 2 ^ 63 + k.1.addr k.2⟩

/-- A failure of a register that holds one field, and of one field of register instance i. -/
def State.regFail (s : State) (code : Nat) (k : RegKey) : Failure := s.bitsFail code k (2 ^ 32 - 1)
def State.fldFail (s : State) (code : Nat) (f : Fld) (i : Nat) : Failure :=
  s.bitsFail code (f.reg, i) (2 ^ (f.hi + 1) - 2 ^ f.lo)

/-- Fields that have one allowed range, whatever the other fields hold: lowest and highest value. -/
def fieldRanges : List (Fld × Nat × Nat) := [
  (CNV_CTRL.RATE_DIV, 0, 2), (CNV_CH_CFG.RANGE, 0, 2), (CNV_CH_CMP_CFG.SETTLE, 1, 255), (CNV_CH_CMP_CFG.BLANK, 1, 255),
  (CLK_REF_CFG.TOL_PPM, 1, 20000), (CLK_REF_CFG.QUAL, 1, 255), (CLK_REF_CFG.REF_DIV, 1, 63),
  (CLK_REF_NOM.NOM_HZ, 10000000, 500000000), (CLK_POLICY.SLEW_RATE, 1, 255), (CLK_POLICY.RET_SLEW, 1, 100),
  (CLK_CEIL.CEIL_PPM, 200, 20000), (CLK_BYP.BYP_MULT, 24, 31), (CLK_JC_CFG.LOCK_WIN, 1, 254),
  (CLK_DIE_DLY.STEP_IVL, 10, 15), (CLK_CKO_CFG.SRC, 0, 2)] ++ [
  (TDC_TIME_CFG.OT_SLEW, 1, 100), (TDC_TIME_CFG.STEP_THR, 1, 255), (TDC_CAL.INTERVAL, 1, 65535),
  (TDC_IN_CFG.SLOPE, 0, 2), (TDC_IN_CFG.SETTLE, 1, 255), (TDC_IN_FUNC.PRESCALE_LOG2, 0, 16), (EPO_CFG.SRC, 0, 2),
  (EPO_TURN_CFG.TOL, 1, 255), (EPO_TURN_CFG.SLOTS, 1, 65535), (TRG_TOUT_CFG.WIDTH, 1, 65535),
  (TRG_PIN_BUDGET.MIB, 64, 16384), (TRG_CELL_CFG.M, 1, 16), (TRG_CELL_WIN.W, 1, 4095), (TRG_DEF_CFG.POLICY, 0, 2),
  (CEL_REFRESH.POSTPONE, 0, 8), (CEL_SCRUB.PERIOD_H, 1, 168), (LND_CFG.PC_CAP, 256, 4095), (LND_CFG.PC_GATE, 1, 255),
  (LND_CFG.GATE, 64, 4095)] ++ [
  (OPL_CFG.FRAME_SRC, 0, 2), (OPL_CFG.NBUF, 1, 3), (OPL_CFG.INC, 1, 255), (OPL_MAP.W_BINS, 1, 65535),
  (OPL_DECAY.TICK, 1, 65535), (OPL_FRAME_CNT.FRAME_SPECTRA, 1, 16777215), (VID_CTRL.BPC, 0, 1), (VID_CTRL.MAX_LANES, 0, 2),
  (VID_SIZE_W.HACT, 64, 4096), (VID_SIZE_H.VACT, 64, 2304), (VID_HTIM.BP, 1, 1023), (VID_HTIM.SYNC, 1, 1023),
  (VID_HTIM.FP, 1, 1023), (VID_VTIM.BP, 1, 1023), (VID_VTIM.SYNC, 1, 1023), (VID_VTIM.FP, 1, 1023),
  (VID_PCLK.KHZ, 25000, 600000), (VID_OVL_CFG.SX, 1, 3), (VID_OVL_CFG.SY, 1, 8)] ++ [
  (STM_PTP_CFG.TRANSPORT, 0, 2), (NVM_SET_CFG.FLUSH_MS, 1, 10000), (FAB_ADDR_CFG.MODE, 0, 2), (FAB_PORT_CFG.MODE, 0, 2),
  (FAB_PORT_CFG.COST, 1, 65535), (CAL_CFG.DRIFT, 1, 255), (CAL_QUIET.SRC, 0, 2), (PAN_ROT.TILE_MIN, 2, 255),
  (PAN_ROT.TEL_MIN, 1, 255), (PAN_THR_B.LANE_SER_EXP, 3, 12), (PAN_THR_B.ROW_PASSES, 1, 15),
  (PWR_CMP_CFG.SETTLE, 1, 255), (PWR_CMP_CFG.THRESH, 1600, 3500), (PWR_SW_CFG.RETURN_MS, 1, 1000),
  (HK_ADC_CFG.LEN, 1, 64), (HK_ADC_PERIOD.US, 1, 1000000), (HK_THERM.WARN, 60, 110),
  (SYS_RCV_CFG.WARM_WINDOW, 1, 31), (SYS_RCV_CFG.SAFE_HOLD_S, 1, 255), (SYS_RCV_CFG.PC_HOLD_S, 1, 255),
  (SYS_RCV_CFG.RELOCK_S, 1, 255)]

/-- Fields outside their range. -/
def State.rangeFails (s w : State) : List Failure :=
  fieldRanges.flatMap (fun r => (List.range r.1.reg.count).flatMap (fun i =>
    let v := w.fld r.1 i
    failIf (decide (v < r.2.1) || decide (r.2.2 < v)) (s.fldFail 0x11 r.1 i)))

/-- Ranges of registers that depend on other fields (R101, and the register tables). -/
def State.crossFails (s w : State) : List Failure :=
  let bad := fun (c : Bool) (r : Reg) (i : Nat) => failIf c (s.regFail 0x11 (r, i))
  let badF := fun (c : Bool) (f : Fld) (i : Nat) => failIf c (s.fldFail 0x11 f i)
  let outside := fun (lo hi v : Nat) => decide (v < lo) || decide (hi < v)
  badF (w.fld TDC_TIME_CFG.TIME_SRC 0 == 2 && decide (5 < w.fld TDC_TIME_CFG.SRC_IDX 0)) TDC_TIME_CFG.SRC_IDX 0 ++
  badF (decide (w.fld CLK_JC_CFG.UNLOCK_WIN 0 ≤ w.fld CLK_JC_CFG.LOCK_WIN 0)) CLK_JC_CFG.UNLOCK_WIN 0 ++
  (List.range 16).flatMap (fun i =>
    let f := w.fld TDC_IN_FUNC.FUNC i
    let p := (w.reg .TDC_IN_PARAM i).toNat
    badF (w.fld TDC_IN_CFG.MODE i != 0 && (f != 0 || w.flag TDC_IN_FUNC.RING_EN i))
      (if f != 0 then TDC_IN_FUNC.FUNC else TDC_IN_FUNC.RING_EN) i ++
    bad ((f == 1 && p == 0) || (f == 2 && outside 1 10000000 p) || (f == 3 && outside 2 16777216 p)) .TDC_IN_PARAM i) ++
  (let src := w.fld EPO_CFG.SRC 0
   let p := (w.reg .EPO_PERIOD 0).toNat
   bad ((src == 0 && outside 1 1000000000 p) || (src == 1 && outside 1 16777216 p)) .EPO_PERIOD 0) ++
  (List.range 8).flatMap (fun j =>
    let p := (w.reg .TRG_TMR_PERIOD j).toNat
    bad (decide (1 ≤ p) && decide (p ≤ 999)) .TRG_TMR_PERIOD j ++
    bad (p != 0 && decide (p ≤ (w.reg .TRG_TMR_PHASE j).toNat)) .TRG_TMR_PHASE j) ++
  bad ((List.range 6).any (fun k => bits (w.fld PAN_POLICY.POLICY 0) (2 * k + 1) (2 * k) == 3)) .PAN_POLICY 0 ++
  (List.range 6).flatMap (fun p =>
    let v := (w.reg .STM_ETH_ADDR (12 * p + 5)).toNat
    bad (v != 0 && outside 1280 9198 (bits v 29 16)) .STM_ETH_ADDR (12 * p + 5)) ++
  (List.range 4).flatMap (fun n =>
    badF (w.flag NVM_SET_CFG.EN n && outside 1 16 (w.setDrives n).length) NVM_SET_CFG.EN n) ++
  (List.range 32).flatMap (fun d =>
    badF (w.flag NVM_DRIVE.EN d && decide (16 ≤ ((List.range d).filter (fun e =>
      w.flag NVM_DRIVE.EN e && w.fld NVM_DRIVE.PORT e == w.fld NVM_DRIVE.PORT d)).length)) NVM_DRIVE.PORT d) ++
  badF (decide (w.fld HK_THERM.STOP 0 ≤ w.fld HK_THERM.WARN 0) || decide (120 < w.fld HK_THERM.STOP 0)) HK_THERM.STOP 0

/-- SETTINGS entries that touch what they may not (R195). -/
def settingsFails (l : List Section) : List Failure :=
  match sectionOf l 4 0 with
  | none => []
  | some x =>
    failIf (x.bytes.length % 16 != 0) (x.fail 0x10 noReg 0) ++
    (List.range (x.bytes.length / 16)).flatMap (fun i =>
      let a := le x.bytes (16 * i) 8
      let m := le x.bytes (16 * i + 12) 4
      match regAt a with
      | none => [x.fail 0x12 (a % 2 ^ 32) (16 * i)]
      | some k => failIf (k.1.desc.block == .GT || (k.1 == .CNV_CTRL && m % 4 != 0) || m - (m &&& k.1.stMask k.2) != 0)
          (x.fail 0x12 (regDetail k) (16 * i + 8)))

/-- f_pfd as a fraction, and the tile clock at zero offset: the tile PLL's word is rounded up (R67, R68). -/
def State.fPfd (w : State) : Nat × Nat := (w.fSrc, w.fld CLK_REF_CFG.REF_DIV 0)
def State.fTile (w : State) : Nat × Nat :=
  let p := w.fPfd
  ((1600000000 * p.2 * 2 ^ 32 + p.1 - 1) / p.1 * p.1, p.2 * 2 ^ 32)

/-- The sample rate of octant k at zero offset, as a fraction. -/
def State.nomOct (w : State) (k : Nat) : Nat × Nat := (w.fSyn.1, w.fSyn.2 * 2 ^ w.fld SYS_OCT_STAT.RATE_DIV k)

/-- CLOCK (R68, R77). -/
def State.clockFails (s w : State) : List Failure :=
  let p := w.fPfd
  let f := w.fSyn
  let n := w.fld CLK_SYN_INT.N_INT 0
  if p.2 = 0 then []
  else
    failIf (decide (p.1 < 10000000 * p.2) || decide (250000000 * p.2 < p.1)) (s.fldFail 0x21 CLK_REF_CFG.REF_DIV 0) ++
    failIf (decide (f.1 < 2400000000 * f.2) || decide (3200000000 * f.2 < f.1) || decide (n < 4) || decide (320 < n))
      (s.regFail 0x21 (.CLK_SYN_INT, 0)) ++
    (List.range 4).flatMap (fun i =>
      let d := w.fld CLK_CKO_CFG.DIV i
      let src := w.fld CLK_CKO_CFG.SRC i
      let (a, b) := match src with
        | 0 => f
        | 1 => (1600000000, 1)
        | _ => (100000000, 1)
      failIf (d == 0 || (d == 1 && src == 0) || decide (1600000000 * b * d < a)) (s.fldFail 0x21 CLK_CKO_CFG.DIV i))

/-! ## Modes, tiles and programs (MODE to DM_LAYOUT, PARAM) -/

/-- OCTANT_MODES: its format and the limits of R253. -/
def State.modeFails (s w : State) : List Failure :=
  let l := s.prog.staged
  match sectionOf l 3 0 with
  | none => []
  | some x =>
    failIf (decide (x.bytes.length < 128)) (x.fail 0x10 noReg 0) ++
    (List.range 8).flatMap (fun k =>
      let m := modeIn l k
      let tin := w.fld EPO_TURN_CFG.TURN_TIN 0
      let bad := match m with
        | 4 => w.flag CLK_REF_CFG.SRC_SEL 0 || w.fld CLK_REF_CFG.REF_DIV 0 != 1 || w.reg .CLK_SYN_FRAC 0 != 0 ||
            w.fld CLK_SYN_INT.N_INT 0 % 2 ^ w.fld CNV_CTRL.RATE_DIV k != 0 || !w.flag EPO_TURN_CFG.EN 0 ||
            w.fld TDC_IN_CFG.MODE tin != 0
        | 5 => (routesOf l).any (fun r => r.2.1 == 6 &&
            (List.range 8).any (fun j => usesRoute l (8 * k + j) r.1) && !liveMode (modeIn l (r.2.2.1 / 8)))
        | 7 => w.gib == 0
        | _ => decide (9 ≤ m)
      failIf (!allZero (slice x.bytes (16 * k + 2) 14)) (x.fail 0x10 noReg (16 * k + 2)) ++
      let rate := le x.bytes (16 * k + 1) 1
      failIf (decide (3 < rate) && rate % 4 != 3) (x.fail 0x11 (regDetail (.CNV_CTRL, k)) (16 * k + 1)) ++
      failIf bad (x.fail 0x13 k (16 * k)))

/-- TILE_COUNT, with the shortfall of a die. -/
def State.countFails (s : State) : List Failure :=
  (List.range 2).flatMap (fun d =>
    let need := ((List.range 32).filter (fun g => liveMode (modeIn s.prog.staged ((32 * d + g) / 8)))).length
    let have_ := ((dieTiles d).filter (fun n => s.role kTILE n != roRETIRED)).length
    failIf (decide (have_ < need)) (headFail 0x14 (need - have_) 0))

/-- The heads of a program's segments: address, length, and place in the section (R192). -/
def segHeads (b : List Byte) : Nat → Nat → List (Nat × Nat × Nat)
  | 0, _ => []
  | k + 1, p => (le b p 4, le b (p + 4) 4, p) :: segHeads b k (p + 8 + le b (p + 4) 4)

/-- DETAIL of a GT field of group g; 0x3FF stands for the groups of instance 0xFFFF. -/
def gtDetail (g o : Nat) : Nat := Block.GT.index * 2 ^ 26 + g % 1024 * 2 ^ 16 + o

/-- A failure of a GT field of group g: of the value that the host wrote, where the staged copy is not the section's, else
at byte o of the section. -/
def State.gtFail (s : State) (x : Section) (g : Nat) (r : Reg) (j o : Nat) : Failure :=
  let k := s.groupKey g r j
  if s.groupWord g r j = le x.bytes o 4 then x.fail 0x11 (gtDetail g (blockOffset k)) o
  else ⟨0x11, 0xFFFF, gtDetail g (blockOffset k), 2 ^ 63 + r.addr k.2⟩

/-- Lane l's input ring in tile n as staged: enabled, LOG2 of its blocks, first byte and length in data memory (R134). -/
structure StagedRing where
  on : Bool
  log : Nat
  base : Nat
  len : Nat
deriving DecidableEq, Repr

def State.stagedRing (s : State) (n l : Nat) : StagedRing :=
  let v := (s.stagedReg .GT_RING (4 * n + l)).toNat
  let log := bits v 19 16
  { on := bit v 31, log := log, base := 64 * bits v 14 0, len := 168 * 2 ^ log }

/-- The staged input rings of tile n in use. -/
def State.stagedRings (s : State) (n : Nat) : List StagedRing :=
  ((List.range 4).map (s.stagedRing n)).filter (·.on)

/-- The receive rings of tile n as staged, whether or not it serves a group: SIZE_LOG2, two enabled rings with one ROUTE,
and an enabled ring past the data memory or over an input ring (R264, R282). -/
def State.xrxFails (s : State) (n : Nat) : List Failure :=
  let v := fun (j : Nat) => (s.stagedReg .GT_XRX_CFG (4 * n + j)).toNat
  let on := (List.range 4).filter (fun j => bit (v j) 31)
  let base := fun (j : Nat) => 64 * bits (v j) 14 0
  let len := fun (j : Nat) => 64 * 2 ^ bits (v j) 27 24
  let fail := fun (code j : Nat) => s.bitsFail code (.GT_XRX_CFG, 4 * n + j) (2 ^ 32 - 1)
  (List.range 4).flatMap (fun j => failIf (decide (bits (v j) 27 24 < 4) || decide (14 < bits (v j) 27 24)) (fail 0x11 j)) ++
  on.flatMap (fun j =>
    failIf (on.any (fun i => decide (i < j) && bits (v i) 23 16 == bits (v j) 23 16)) (fail 0x11 j) ++
    failIf (decide (dmSize < base j + len j) || (s.stagedRings n).any (fun r => overlapN (base j) (len j) r.base r.len))
      (fail 0x18 j))

/-- A ring of B blocks is shorter than R202 requires, for `lines` cycles of loading, the octant's rate and the tile
clock. -/
def ringShort (b lines : Nat) (oct tile : Nat × Nat) : Bool :=
  decide (80 * b * oct.2 * tile.1 * 1000000 < oct.1 * (lines * tile.2 * 1000000 + tile.1))

/-- The checks on the program of group g (R185 aside): its section, its GT fields, budget, rings and data memory. -/
def State.programFails (s w : State) (g : Nat) : List Failure :=
  let k := g / 8
  let live := liveMode (modeIn s.prog.staged k)
  match sectionOf s.prog.staged 1 g with
  | none => failIf live (headFail 0x15 g 0)
  | some x =>
    let b := x.bytes
    let words := le b 2 2
    let heads := segHeads b (le b 28 2) (64 + 8 * words)
    let size := heads.foldl (fun n h => n + 8 + h.2.1) (64 + 8 * words)
    let frame := s.groupWord g .GT_FRAME 0
    let ring := s.stagedRing (s.groupTile g)
    let lanes := (List.range 4).filter (fun l => (ring l).on)
    let ft := w.fTile
    let fo := w.nomOct k
    let init := (heads.foldl (fun n h => n + h.2.1) 0 + 63) / 64
    failIf (decide (b.length < size)) (x.fail 0x10 noReg 2) ++
    failIf (!allZero (slice b 30 34)) (x.fail 0x10 noReg 30) ++
    failIf (le b 11 1 != 0) (x.fail 0x10 (gtDetail g 0x10) 8) ++
    (List.range 4).flatMap (fun l => failIf (bits (le b (12 + 4 * l) 4) 30 20 != 0 || bit (le b (12 + 4 * l) 4) 15)
      (x.fail 0x10 (gtDetail g (0x20 + 4 * l)) (12 + 4 * l))) ++
    failIf (words == 0 || decide (16384 < words)) (x.fail 0x11 noReg 2) ++
    heads.flatMap (fun h => failIf (h.1 % 64 != 0 || h.2.1 % 64 != 0) (x.fail 0x11 noReg h.2.2)) ++
    failIf (decide (bits frame 23 0 < 80)) (s.gtFail x g .GT_FRAME 0 8) ++
    (List.range 4).flatMap (fun l => failIf (decide ((ring l).log < 4) || decide (10 < (ring l).log) ||
      ((ring l).on && decide (dmSize < (ring l).base + (ring l).len))) (s.gtFail x g .GT_RING l (12 + 4 * l))) ++
    failIf (decide (words ≤ le b 0 2)) (x.fail 0x15 g 0) ++
    failIf (decide (4096 * ft.1 * fo.2 / (ft.2 * fo.1) < le b 4 4)) (x.fail 0x16 g 4) ++
    (if live && s.groupReloads w g then lanes.flatMap (fun (l : Nat) =>
      failIf (ringShort (2 ^ (ring l).log) init fo ft)
        (x.fail 0x17 g (12 + 4 * l))) else []) ++
    heads.flatMap (fun h => failIf (decide (dmSize < h.1 + h.2.1) ||
      lanes.any (fun l => overlapN h.1 h.2.1 (ring l).base (ring l).len)) (x.fail 0x18 g h.2.2))

/-- PARAM_BANK of group g (R197). -/
def State.paramFails (s : State) (g : Nat) : List Failure :=
  match sectionOf s.prog.staged 10 g with
  | none => []
  | some x =>
    let lv := le x.bytes 1024 32
    let pair := le x.bytes 1056 32
    failIf (decide (x.bytes.length < 1088)) (x.fail 0x10 noReg 0) ++
    (List.range 256).flatMap (fun p =>
      failIf (bit pair p && (p % 2 != 0 || !bit lv p || !bit lv (p + 1))) (x.fail 0x1A g (1056 + p / 8)))

/-! ## Overlays (UCODE, R185) -/

/-- A microword of the customer region breaks R185: vendor and reserved fields, reserved codes. -/
def wordBad (w : Nat) : Bool :=
  let ag := fun f => bits f 8 7 == 3 || decide (5 ≤ bits f 6 4) || bit f 0
  bits w 31 0 != 0 || bits w 39 32 != 0 || bits w 58 48 != 0 || bits w 68 64 != 0 || bits w 89 88 != 0 ||
  bits w 129 128 != 0 || decide (6 ≤ bits w 179 177) || decide (12 ≤ bits w 176 173) || decide (0xC ≤ bits w 154 150) ||
  decide (2 ≤ bits w 142 141) || decide (48 ≤ bits w 140 135) || decide (5 ≤ bits w 132 130) || bits w 95 94 == 3 ||
  bits w 93 92 == 3 || bits w 91 90 == 3 || decide (12 ≤ bits w 87 84) || decide (5 ≤ bits w 71 69) ||
  decide (5 ≤ bits w 63 61) || decide (6 ≤ bits w 47 44) || decide (3 ≤ bits w 42 40) || ag (bits w 127 112) ||
  ag (bits w 111 96) || ([1, 2, 3].contains (bits w 179 177) && decide (bits w 191 180 < 0xA00))

/-- The addresses that may follow the microword at a. -/
def wordNext (w a : Nat) : List Nat :=
  let t := bits w 191 180
  match bits w 179 177 with
  | 1 => [t]
  | 2 | 3 => [t, a + 1]
  | 4 => []
  | _ => [a + 1]

/-- Addresses reached from a work list; `get` gives the overlay's microwords. -/
def wordsFrom (get : Nat → Option Nat) : Nat → List Nat → List Nat → List Nat
  | 0, seen, _ => seen
  | _, seen, [] => seen
  | n + 1, seen, a :: rest =>
    if seen.contains a then wordsFrom get n seen rest
    else match get a with
      | some w => wordsFrom get n (a :: seen) (wordNext w a ++ rest)
      | none => wordsFrom get n seen rest

/-- Addresses that keep a successor among them: those on, or before, a cycle. -/
def cyclic (next : Nat → List Nat) : Nat → List Nat → List Nat
  | 0, l => l
  | n + 1, l => cyclic next n (l.filter (fun a => (next a).any (fun b => l.contains b)))

/-- A routine contains a loop with neither a LOOP word nor a WAIT in it. -/
def endless (get : Nat → Option Nat) (ws : List Nat) : Bool :=
  let plain := ws.filter (fun a => match get a with
    | some w => bits w 179 177 != 3 && bits w 47 44 == 0
    | none => false)
  let next := fun a => match get a with
    | some w => wordNext w a
    | none => []
  cyclic next plain.length plain != []

/-- WBSEL 1 or 2 in a word of a routine whose format lacks the register (R146, R176). -/
def wbselBad (fmt w : Nat) : Bool :=
  (bits w 71 69 == 1 && (fmt == 2 || fmt == 3 || fmt == 5)) || (bits w 71 69 == 2 && fmt != 4)

/-- The microword of an overlay at a control-store address. -/
def overlayWord (b : List Byte) (a : Nat) : Option Nat :=
  let start := le b 512 2
  if start ≤ a ∧ a < start + le b 514 2 then some (le b (528 + 32 * (a - start)) 24) else none

/-- A valid dispatch entry breaks R185: START, BOUND, FMT, and the routine that it starts in an overlay. -/
def entryBad (b : List Byte) (a : Nat) : Bool :=
  let get := overlayWord b
  let ws := wordsFrom get (4 * le b 514 2 + 1) [] [bits a 11 0]
  bit a 31 && (bits a 11 0 < 0xA00 || bits a 25 12 == 0 || decide (8192 < bits a 25 12) || bits a 30 28 == 7 ||
    ws.any (fun u => match get u with
      | some w => wbselBad (bits a 30 28) w
      | none => false) || endless get ws)

/-- Dispatch entries of group g that differ from its overlay's, as the host wrote them, are checked with it (R185,
R206). -/
def State.dispatchFails (s : State) (g : Nat) : List Failure :=
  let b := match ucodeFor s.prog.staged g with
    | some b => b
    | none => []
  (List.range 64).flatMap (fun i =>
    let k := s.groupKey g .GT_UDISP_A i
    let v := s.groupWord g .GT_UDISP_A i
    failIf (v != le b (8 * i) 4 && entryBad b v)
      ⟨0x19, 0xFFFF, gtDetail g (blockOffset k), 2 ^ 63 + k.1.addr k.2⟩)

/-- The checks on a UCODE section (R185, R193). -/
def ucodeFails (x : Section) : List Failure :=
  let b := x.bytes
  let start := le b 512 2
  let count := le b 514 2
  let word := fun i => le b (528 + 32 * i) 24
  failIf (decide (b.length < 528 + 32 * count)) (x.fail 0x10 noReg 514) ++
  failIf (!allZero (slice b 516 12)) (x.fail 0x10 noReg 516) ++
  failIf (decide (start < 0xA00) || decide (0x1000 < start + count)) (x.fail 0x19 x.inst 512) ++
  (List.range count).flatMap (fun i => failIf (wordBad (word i)) (x.fail 0x19 x.inst (528 + 32 * i))) ++
  (List.range 64).flatMap (fun n =>
    let a := le b (8 * n) 4
    let at_ := fun code => x.fail code (gtDetail x.inst (0x100 + 8 * n)) (8 * n)
    failIf (bits a 27 26 != 0 || le b (8 * n + 4) 2 != 0) (at_ 0x10) ++ failIf (entryBad b a) (at_ 0x19))

/-! ## Routes, streams and the cellar (HALL_LOAD, STREAM_BW, SUBSCRIBERS, CELLAR_SUM) -/

/-- HALL_ROUTES: its format, kinds and targets (R196, R416). -/
def State.routeFails (w : State) (l : List Section) : List Failure :=
  match sectionOf l 5 0 with
  | none => []
  | some x =>
    failIf (x.bytes.length % 16 != 0) (x.fail 0x10 noReg 0) ++
    failIf (decide (4096 < x.bytes.length)) (x.fail 0x11 noReg 4096) ++
    (List.range (x.bytes.length / 16)).flatMap (fun i =>
      let kind := le x.bytes (16 * i + 1) 1
      let target := le x.bytes (16 * i + 2) 2
      failIf (!allZero (slice x.bytes (16 * i + 10) 6)) (x.fail 0x10 noReg (16 * i + 10)) ++
      failIf (kind == 0 || decide (6 < kind)) (x.fail 0x11 noReg (16 * i + 1)) ++
      failIf ((kind == 1 && ((w.region 4 target).isNone || !(streamsOf l).contains target)) ||
        (kind == 2 && decide (16 ≤ target)) || (kind == 3 && decide (32 ≤ target)) || (kind == 6 && decide (64 ≤ target)))
        (x.fail 0x11 noReg (16 * i + 2)))

/-- HALL_LOAD: the links of R19, the exchange ports of R267 and the non-ring load of R337, charged under R611. -/
def State.hallFails (w : State) (l : List Section) : List Failure :=
  let users := (routesOf l).map (fun r => (r, (List.range 64).filter (fun g => usesRoute l g r.1)))
  let share := fun (u : (Nat × Nat × Nat × Nat) × List Nat) => u.1.2.2.2 * (shareUnit / u.2.length)
  let charge := fun (f : (Nat × Nat × Nat × Nat) × List Nat → Nat → Bool) =>
    users.foldl (fun n u => if u.2 = [] then n else n + (u.2.filter (f u)).length * share u) 0
  let up := fun d => charge (fun u g => decide (1 ≤ u.1.2.1) && decide (u.1.2.1 ≤ 5) && g / 32 == d)
  let out := fun g => charge (fun u h => u.1.2.1 == 6 && h == g)
  let inn := fun g => users.foldl (fun n u =>
    if u.2 != [] && u.1.2.1 == 6 && u.1.2.2.1 == g then n + u.1.2.2.2 * shareUnit else n) 0
  let cross := fun d => charge (fun u g => u.1.2.1 == 6 && g / 32 == d && u.1.2.2.1 / 32 != d)
  let ring := w.nonRingLoad l
  let beyond := fun (v cap detail : Nat) => failIf (decide (cap * shareUnit < v)) (headFail 0x1B detail 0)
  (List.range 2).flatMap (fun d => beyond (up d) 819200 d ++
    beyond (w.feedLoad l ((List.range 4).map (4 * d + ·))) 819200 d) ++
  (List.range 64).flatMap (fun g => beyond (out g) 204800 g ++ beyond (inn g) 204800 g) ++
  (List.range 2).flatMap (fun d => beyond (cross d) 409600 (cross d / shareUnit - 409600)) ++ beyond ring 1352000 (ring / shareUnit - 1352000)

/-- STREAMS: its format, its seeds and the paths' capacities (R421, R426, R440). -/
def State.streamFails (w : State) (l : List Section) : List Failure :=
  match sectionOf l 7 0 with
  | none => []
  | some x =>
    let b := x.bytes
    let streams := streamsOf l
    let n := le b 8 2
    let base := 64 + 16 * streams.length
    let seeds := seedsOf l
    let ports := ((List.range 6).filter (fun p => w.fld FAB_PORT_CFG.MODE p == 1)).length
    failIf (decide (b.length < base + 64 * n) || !allZero (slice b 10 54)) (x.fail 0x10 noReg 0) ++
    (List.range streams.length).flatMap (fun i =>
      failIf (le b (64 + 16 * i) 2 != nth streams i 0) (x.fail 0x11 noReg (64 + 16 * i)) ++
      failIf (!allZero (slice b (66 + 16 * i) 14)) (x.fail 0x10 noReg (66 + 16 * i))) ++
    failIf (decide (256 < n)) (x.fail 0x1D n 8) ++
    (List.range seeds.length).flatMap (fun i =>
      let e := nth seeds i []
      failIf (!w.entryOk e || eGen e != 0 || !streams.contains (eStream e)) (x.fail 0x11 noReg (base + 64 * i))) ++
    failIf (overPath seeds w.portCapacity ports w.drivesOn) (x.fail 0x1C noReg base)

/-- CELLAR_PARTITION: its format, the ranges of its fields, and what it must hold (R203, R323, R324). -/
def partitionFails (l : List Section) : List Failure :=
  match sectionOf l 9 0 with
  | none => []
  | some x =>
    let b := x.bytes
    let gib := le b 0 1
    let rs := partitionOf b
    let at_ := fun i => nth rs i ⟨0, 0, 0, 0⟩
    failIf (decide (b.length < 64 + 32 * rs.length) || !allZero (slice b 2 62)) (x.fail 0x10 noReg 1) ++
    failIf (rs.length == 0 || decide (15 < rs.length)) (x.fail 0x11 noReg 1) ++
    failIf (decide (120 < gib)) (x.fail 0x11 noReg 0) ++
    (List.range rs.length).flatMap (fun i =>
      let r := at_ i
      let o := 64 + 32 * i
      let single := r.type == 1 || r.type == 2 || r.type == 5 || r.type == 6
      failIf (!allZero (slice b (o + 2) 6)) (x.fail 0x10 noReg (o + 2)) ++
      failIf (!allZero (slice b (o + 24) 8)) (x.fail 0x10 noReg (o + 24)) ++
      failIf (r.type == 0 || decide (7 < r.type)) (x.fail 0x11 noReg o) ++
      failIf (single && r.inst != 0) (x.fail 0x11 noReg (o + 1)) ++
      failIf (r.offset % 2 ^ 20 != 0) (x.fail 0x11 noReg (o + 8)) ++
      failIf (r.length % 2 ^ 20 != 0 || r.length == 0) (x.fail 0x11 noReg (o + 16)) ++
      failIf (decide (r.offset < gib * 2 ^ 30) || decide (cellarSize < r.offset + r.length) ||
        (List.range i).any (fun j => overlapN r.offset r.length (at_ j).offset (at_ j).length))
        (x.fail 0x20 i (o + 8))) ++
    failIf ([5, 6].any (fun t => !rs.any (fun r => r.type == t)) ||
      [1, 2, 5, 6].any (fun t => decide (1 < (rs.filter (fun r => r.type == t)).length))) (x.fail 0x10 noReg 1)

/-! ## Combiner, display, budgets (FIELD, COMBINER, OPAL_COUNT, BUDGET) -/

/-- A defined source code (R283). -/
def sourceOk (c : Nat) : Bool :=
  decide (c ≤ 0x81F) || (decide (0x900 ≤ c) && decide (c ≤ 0xB3F)) || (decide (0xC00 ≤ c) && decide (c ≤ 0xC07)) ||
  (decide (0xC10 ≤ c) && decide (c ≤ 0xC1F)) || (decide (0xD00 ≤ c) && decide (c ≤ 0xD3F)) || c == 0xE00 || c == 0xE01

/-- The size of the largest record of definition d (R300, R304). -/
def State.recordSize (w : State) (d : Nat) : Nat :=
  let ns := if w.fld TRG_DEF_CFG.POLICY d = 1 then (w.reg .TRG_DEF_MAXEXT d).toNat
    else (w.reg .TRG_DEF_PRE d).toNat + (w.reg .TRG_DEF_POST d).toNat
  let red := w.fld TRG_DEF_CFG.REDUCE d
  let up := fun n => (n + 63) / 64 * 64
  let len := fun c =>
    let f := w.nomOct (c / 32)
    (ns * f.1 + f.2 * 10 ^ 9 - 1) / (f.2 * 10 ^ 9)
  let chans := w.defChannels d
  let sum := fun (f : Nat → Nat) => chans.foldl (fun n c => n + f c) 0
  128 + (w.fld TRG_DEF_CFG.SEGS_M1 d + 1) *
    (128 + sum (fun c => 128 * blocksFor (len c)) + (if bit red 0 then up (32 * chans.length) else 0)) +
  (if bit red 1 then up (sum (fun c => 4 * len c)) else 0) + (if bit red 2 then up (sum (fun c => 4 * len c)) else 0)

/-- A register group of a section, `size` bytes at byte `from_`: bits that are not setup are 0 (R318, R387). -/
def Section.groupFails (x : Section) (base size from_ : Nat) (keys : List RegKey) : List Failure :=
  (List.range (size / 4)).flatMap (fun i =>
    let m := match keys.find? (fun k => blockOffset k == base + 4 * i) with
      | some k => k.1.mask (fun a => a == .ST || a == .LV || a == .LVT)
      | none => 0
    let v := le x.bytes (from_ + 4 * i) 4
    failIf (v - (v &&& m) != 0) (x.fail 0x10 noReg (from_ + 4 * i)))

/-- COMBINER's format: header, length, words that are not setup (R318). -/
def combinerFormat (l : List Section) : List Failure :=
  match sectionOf l 6 0 with
  | none => []
  | some x =>
    let b := x.bytes
    let cells := rankOf (le b 0 8) 64
    let defs := rankOf (le b 8 4) 32
    failIf (decide (b.length < 64 + 128 * cells + 64 * defs) || !allZero (slice b 12 52)) (x.fail 0x10 noReg 0) ++
    (List.range cells).flatMap (fun i => x.groupFails 0x1000 0x80 (64 + 128 * i) (cellRegs.map (fun e => (e.1, e.2.2)))) ++
    (List.range defs).flatMap (fun i =>
      x.groupFails 0x4000 0x40 (64 + 128 * cells + 64 * i) (defRegs.map (fun e => (e.1, e.2.2))))

/-- Cells and definitions (R283, R288, R299, R324). -/
def State.combinerFails (s w : State) : List Failure :=
  (List.range 64).flatMap (fun c => if !w.flag TRG_CELL_CFG.EN c then [] else (List.range 16).flatMap (fun i =>
    let code := w.fld TRG_CELL_IN.SRC (16 * c + i)
    failIf (w.flag TRG_CELL_IN.EN (16 * c + i) &&
      (!sourceOk code || (decide (0xD00 + c ≤ code) && decide (code ≤ 0xD3F)))) (s.fldFail 0x11 TRG_CELL_IN.SRC (16 * c + i)))) ++
  (List.range 32).flatMap (fun d => if !w.flag TRG_DEF_CFG.EN d then [] else
    let win := (w.reg .TRG_DEF_PRE d).toNat + (w.reg .TRG_DEF_POST d).toNat
    let retr := w.fld TRG_DEF_CFG.POLICY d == 1
    let chans := w.defChannels d
    let at_ := fun (r : Reg) => s.regFail 0x11 (r, d)
    failIf (!w.flag TRG_CELL_CFG.EN (w.fld TRG_DEF_CFG.CELL d)) (s.fldFail 0x1E TRG_DEF_CFG.CELL d) ++
    failIf ((w.region 1 0).isNone || (w.region 2 0).isNone || w.gib == 0) (s.fldFail 0x11 TRG_DEF_CFG.EN d) ++
    failIf (win == 0 || decide (10000000 < win)) (at_ .TRG_DEF_PRE) ++
    failIf (chans == [] || chans.any (fun c => w.mode (c / 32) == 8)) (s.regFail 0x11 (.TRG_DEF_CH, 8 * d)) ++
    failIf (retr && (bit (w.fld TRG_DEF_CFG.REDUCE d) 1 || bit (w.fld TRG_DEF_CFG.REDUCE d) 2))
      (s.fldFail 0x11 TRG_DEF_CFG.REDUCE d) ++
    failIf (retr && decide ((w.reg .TRG_DEF_MAXEXT d).toNat < win)) (at_ .TRG_DEF_MAXEXT) ++
    match w.region 1 0 with
    | some r => failIf (decide (r.length < w.recordSize d)) (at_ .TRG_DEF_CFG)
    | none => [])

/-- DISPLAY's format: header, length, words that are not setup; OPL bytes 96 to 99 carry the declared rate (R387). -/
def displayFormat (l : List Section) : List Failure :=
  match sectionOf l 8 0 with
  | none => []
  | some x =>
    let (rend, scan) := displayMasks (some x)
    failIf (decide (x.bytes.length < displayVid rend scan 2) || decide (4 ≤ scan) || !allZero (slice x.bytes 3 61))
      (x.fail 0x10 noReg 0) ++
    (List.range (rankOf rend 16)).flatMap (fun i =>
      let at_ := 64 + 1152 * i
      let keys := oplSetupRegs.map (fun e => (e.1, e.2.2))
      x.groupFails 0 96 at_ keys ++ x.groupFails 100 28 (at_ + 100) keys ++
      (List.range 256).flatMap (fun j => failIf (bit (le x.bytes (at_ + 128 + 4 * j) 4) 30)
        (x.fail 0x10 noReg (at_ + 128 + 4 * j)))) ++
    (List.range (rankOf scan 2)).flatMap (fun i =>
      x.groupFails 0x100 0x100 (64 + 1152 * rankOf rend 16 + 256 * i) (vidSetupRegs.map (fun e => (e.1, e.2.2))))

/-- Renderers and scan-outs (R367, R387, R388). -/
def State.displayFails (s w : State) : List Failure :=
  let x := sectionOf s.prog.staged 8 0
  let (rend, _) := displayMasks x
  let on := (List.range 16).filter (fun l => w.flag OPL_CFG.EN (w.oplPhys l))
  let dens := fun (a n : Nat) => w.cel.regions.any (fun r => r.type == 3 && decide (r.offset ≤ a) &&
    decide (a + n ≤ r.offset + r.length))
  failIf (decide (16 < on.length)) (headFail 0x1F on.length 0) ++
  on.flatMap (fun l =>
    let p := w.oplPhys l
    let rate := match x with
      | some y => if bit rend l then le y.bytes (displayOpl rend l + 96) 4 else 0
      | none => 0
    let tick := w.fld OPL_DECAY.TICK p
    failIf ((List.range (w.fld OPL_CFG.NBUF p + 1)).any (fun i => !dens (w.oplBufBase p i) (2 ^ 20)))
      (s.regFail 0x11 (.OPL_BUF, 4 * p)) ++
    failIf (tick != 0 && decide (1600000000 * tick < (256 * rate + 32768 * 120) * tick + 32768 * rate))
      (s.regFail 0x11 (.OPL_DECAY, p))) ++
  (List.range 2).flatMap (fun d =>
    failIf (decide (w.fld VID_STRIDE.STRIDE d * 64 < w.hact d * 4)) (s.regFail 0x11 (.VID_STRIDE, d))) ++
  ((List.range 2).filter (fun d => w.flag VID_CTRL.EN d)).flatMap (fun d =>
    let plane := w.fld VID_BASE.ADDR d * 65536
    let size := w.fld VID_STRIDE.STRIDE d * 64 * w.vact d
    failIf (!w.dpFits d 3 4) (s.regFail 0x11 (.VID_PCLK, d)) ++
    failIf ((Table.get? s.staged (.VID_BASE, d)).isSome && !(dens plane size || inSystem plane size))
      (s.regFail 0x11 (.VID_BASE, d)) ++
    (List.range 4).flatMap (fun v =>
      let i := 4 * d + v
      if !w.flag VID_OVL_CFG.EN i then [] else
      failIf (decide (w.hact d < w.fld VID_OVL_POS.X0 i + 1024 * w.fld VID_OVL_CFG.SX i) ||
        decide (w.vact d < w.fld VID_OVL_POS.Y0 i + 256 * w.fld VID_OVL_CFG.SY i)) (s.regFail 0x11 (.VID_OVL_POS, i)) ++
      failIf (!on.contains (w.fld VID_OVL_CFG.REND i)) (s.fldFail 0x11 VID_OVL_CFG.REND i)))

/-- BUDGETS: field offset, minimum, maximum (R518). -/
def budgetRanges : List (Nat × Nat × Nat) := [(0, 1, 10), (2, 12, 19), (4, 300, 1500), (6, 4, 64)]
def budgetFails (l : List Section) : List Failure :=
  match sectionOf l 11 0 with
  | none => []
  | some x =>
    failIf (decide (x.bytes.length < 64) || !allZero (slice x.bytes 8 56)) (x.fail 0x10 noReg 8) ++
    budgetRanges.flatMap (fun r =>
      let v := le x.bytes r.1 2
      failIf (decide (v < r.2.1) || decide (r.2.2 < v)) (x.fail 0x22 v r.1))

/-- PANTRY_POLICY's format (R526). -/
def pantryFormat (l : List Section) : List Failure :=
  match sectionOf l 12 0 with
  | none => []
  | some x =>
    let extra := [Reg.PAN_POLICY, .PAN_ROT, .PAN_THR_A, .PAN_THR_B].zipIdx.any (fun e =>
      let v := le x.bytes (4 * e.2) 4
      v - (v &&& e.1.stMask 0) != 0)
    failIf (decide (x.bytes.length < 64) || !allZero (slice x.bytes 16 48) || extra) (x.fail 0x10 noReg 0)

/-! ## The whole validation -/

/-- The checks 0x10 to 0x22 on the staging bank as it stands. -/
def State.bankFails (s : State) : List Failure :=
  let l := s.prog.staged
  let w := s.takeStaged
  settingsFails l ++ s.rangeFails w ++ s.crossFails w ++ s.clockFails w ++ s.modeFails w ++ s.countFails ++
  (List.range 64).flatMap (fun g => s.programFails w g ++ s.paramFails g ++ s.dispatchFails g) ++
  (List.range 68).flatMap s.xrxFails ++
  (l.filter (fun x => x.type == 2)).flatMap ucodeFails ++ w.routeFails l ++ w.hallFails l ++ w.streamFails l ++
  partitionFails l ++ combinerFormat l ++ s.combinerFails w ++ displayFormat l ++ s.displayFails w ++ budgetFails l ++
  pantryFormat l

/-- Failures in the order of R203's table. -/
def inTableOrder (fs : List Failure) : List Failure := (List.range 0x24).flatMap (fun c => fs.filter (fun f => f.code == c))

/-- Validation of an image that LOAD copied: its failures, and the state with the image in the staging bank. -/
def State.validateImage (s : State) (b : List Byte) (len : Nat) : List Failure × State :=
  let head := s.imageFails b len
  let t := s.stageImage b
  let table := head.any (fun f => f.code == 4)
  (inTableOrder (head ++ (if table then [] else t.bankFails)), t)

/-- Validation of the staging bank at a COMMIT (R206). -/
def State.validateBank (s : State) : List Failure :=
  let b := s.prog.stagedImage
  let head := if s.prog.stagedInfo.isSome then s.imageFails b b.length else missingFails s.prog.staged
  inTableOrder (head ++ s.bankFails)

end Sys2Proof.Machine
end

