-- ==== Sys2Proof/Machine/Program.lean ====
section
/-! DEFINITION. The program commands: LOAD, COMMIT, ABORT, RESUME, HOLD, STORE_BOOT, parameter words and live pairs
(R199, R200, R204, R206 to R209, R215 to R222). -/

namespace Sys2Proof.Machine

/-! ## HELD and refusals (R200, R204, R208, R218, R223) -/

/-- The device enters HELD; causes as R223 gives them.  In HELD already, and outside BOOT, RUN and SERVICE, nothing
changes. -/
def State.enterHeld (s : State) (cause : Nat) : State :=
  if s.dev == .run || s.dev == .service || s.dev == .boot then
    ({ s.stopOutputs with dev := .held } : State).raise Ev.HELD_ENTER 0 [(0, 1, cause)]
  else s

/-- Where the report goes. -/
def State.reportBase (s : State) : Nat :=
  s.fld SYS_PRG_REPORT_LO.BASE_LO 0 * 64 + s.fld SYS_PRG_REPORT_HI.BASE_HI 0 * 2 ^ 32

/-- A refusal: RESULT, the report, SYS_PRG_ERRORS and PRG_REFUSED (R200, R204, R208). -/
def State.refuse (s : State) (fs : List Failure) : State :=
  let bs := ((fs.take 256).map (·.bytes)).flatten
  let s := if inSystem s.reportBase 4096 then s.devPut s.srcOther s.reportBase bs else s
  let s := (s.setFld SYS_PRG_STATUS.RESULT 0 2).setReg .SYS_PRG_ERRORS 0 (BitVec.ofNat 32 (satU 32 fs.length))
  let first := match fs with
    | f :: _ => f.code
    | [] => 0
  s.raise Ev.PRG_REFUSED 0 [(0, 2, first), (2, 4, satU 32 fs.length)]

/-- A command is rejected (R209, R219, R220). -/
def State.reject (s : State) : State := s.setFlag SYS_PRG_STATUS.CMD_REJECTED 0 true

/-- SYS_PRG_STATUS.BUSY: validation runs, or a switch point is pending. -/
def State.prgBusy (s : State) : Bool := s.prog.loading.isSome || s.prog.commit.isSome

/-! ## LOAD (R199, R200) -/

/-- LOAD copies the image; what cannot be read is taken as empty and fails MAGIC. -/
def State.prgLoad (s : State) : State :=
  let a := s.fld SYS_IMG_ADDR_LO.ADDR_LO 0 * 64 + s.fld SYS_IMG_ADDR_HI.ADDR_HI 0 * 2 ^ 32
  let n := (s.reg .SYS_IMG_LEN 0).toNat
  let ok := decide (n ≤ 2 ^ 26) && (inCellar a n || inSystem a n) && !s.poisonedRange a n
  let t := s.when (decide (n ≤ 2 ^ 26) && (inCellar a n || inSystem a n)) (·.readBy s.srcOther a n)
  if s.prgBusy then s.reject else t.setProg (fun p => { p with loading := some (n, if ok then s.bytes a n else []) })

/-- A program command as it comes: the write of SYS_PRG_CMD completes; PRG_CMD of the control protocol is answered with
OK (R566). -/
def State.prgVia (s : State) (via : Via) (f : State → State) : State :=
  match via with
  | .reg path => (f s).wrote path .SYS_PRG_CMD 0
  | .cz c req => s.czRun (.session c) req.toNat 0x21 (fun s => (czOK, [], f s))

/-- PRG_LOAD (R199). -/
def execPrgLoad (via : Via) (s : State) : Res := .next (s.prgVia via (·.prgLoad))

/-- An image that passed validation stands in the staging bank: RESULT = LOADED, PRG_LOADED. -/
def State.loaded (t : State) (b : List Byte) : State :=
  let t := (t.setFld SYS_PRG_STATUS.RESULT 0 3).setReg .SYS_PRG_ERRORS 0 0
  t.raise Ev.PRG_LOADED 0 [(0, 2, imgCount b), (2, 4, le b 24 4)]

/-- PRG_VALIDATION_END: validation of the image that LOAD copied ends (R199, R200). -/
def execPrgValidationEnd (s : State) : Res :=
  .next (match s.prog.loading with
  | none => s
  | some (len, b) =>
    let s := s.setProg (fun p => { p with loading := none })
    let (fs, t) := s.validateImage b len
    if fs = [] then t.loaded b else s.refuse fs)

/-! ## COMMIT, ABORT (R206 to R209) -/

/-- COMMIT starts validation of the staging bank; `epoch` is SYS_PRG_EPOCH for AT_EPOCH. -/
def State.prgCommit (s : State) (epoch : Option Nat) : State :=
  if s.prgBusy then s.reject else s.setProg (fun p => { p with commit := some ⟨epoch, false, 0, false⟩ })

/-- The epoch that COMMIT asks for. -/
def State.prgEpoch (s : State) (atEpoch : Bool) : Option Nat :=
  if atEpoch then some (s.reg64 .SYS_PRG_EPOCH_LO .SYS_PRG_EPOCH_HI 0) else none

/-- PRG_COMMIT (R206). -/
def execPrgCommit (via : Via) (atEpoch : Bool) (s : State) : Res :=
  .next (s.prgVia via (fun s => s.prgCommit (s.prgEpoch atEpoch)))

/-- The next boundary of the timer, announced or not. -/
def State.nextTimer (s : State) : Nat :=
  match s.epoch.announced with
  | some t => t
  | none => s.timerInstant s.time.ot

/-- The boundary that begins epoch e falls before time `after` or has passed (R207).  Boundaries of TURN and TIN are
known only when announced. -/
def State.tooLate (s : State) (e after : Nat) : Bool :=
  let p := (s.reg .EPO_PERIOD 0).toNat
  decide (e ≤ s.epoch.num) ||
  (if s.fld EPO_CFG.SRC 0 = 0 then
    decide (s.nextTimer * 1000000 + (e - s.epoch.num - 1) * p * 2 ^ 80 < after * 1000000)
  else match s.epoch.announced with
    | some t => e == s.epoch.num + 1 && decide (t < after)
    | none => false)

/-- The epoch that begins at the first boundary at or after a time: counted for the timer, otherwise not known ahead
and left free. -/
def State.switchNumber (s : State) (after : Nat) : Nat × State :=
  let p := (s.reg .EPO_PERIOD 0).toNat
  if s.fld EPO_CFG.SRC 0 = 0 && p != 0 then
    let t := s.timerInstant (after - 1)
    (s.epoch.num + 1 + ((t - s.nextTimer) * 1000000 + p * 2 ^ 79) / (p * 2 ^ 80), s)
  else
    let r := s.draw "epoch of a switch point" []
    (r.1 % 2 ^ 64, r.2)

/-- The commit is accepted: RESULT, COMMIT_ACCEPTED; migrations in progress are cancelled (R206, R209, R211). -/
def State.accept (s : State) (epoch : Option Nat) (boot : Bool) : State :=
  let after := s.time.ot + nsToOt 100000
  let s := s.setProg (fun p => { p with commit := some ⟨epoch, true, after, boot⟩ })
  let s := (s.setFld SYS_PRG_STATUS.RESULT 0 1).setReg .SYS_PRG_ERRORS 0 0
  let (n, s) := match epoch with
    | some e => (e, s)
    | none => s.switchNumber after
  (s.raise Ev.COMMIT_ACCEPTED 0 [(0, 8, n)]).migCancel

/-- COMMIT_VALIDATION_END: the commit is accepted, or refused and the device enters HELD (R206 to R208). -/
def execCommitValidationEnd (s : State) : Res :=
  .next (match s.prog.commit with
  | none => s
  | some c =>
    if c.accepted then s
    else
      let late := match c.epoch with
        | some e => if s.tooLate e (s.time.ot + nsToOt 100000) then [headFail 0x23 (e % 2 ^ 32) 0] else []
        | none => []
      let fs := s.validateBank ++ late
      if fs = [] then s.accept c.epoch c.boot
      else ((s.setProg (fun p => { p with commit := none })).refuse fs).enterHeld 1)

/-- ABORT restores the staging bank to the values in force (R208). -/
def State.prgAbort (s : State) : State :=
  if s.prgBusy then s.reject
  else
    let s := s.setProg (fun p => { p with
      staged := p.force, stagedInfo := p.forceInfo, stagedImage := p.forceImage, params := [], origin := [] })
    { s with staged := [] }

/-- PRG_ABORT (R208). -/
def execPrgAbort (via : Via) (s : State) : Res := .next (s.prgVia via (·.prgAbort))

/-! ## RESUME, HOLD, STORE_BOOT (R218 to R220) -/

/-- RESUME: the first boundary at least 100 µs away leaves HELD (R219). -/
def State.prgResume (s : State) : State :=
  if s.dev == .held && s.flag SYS_PRG_STATUS.HAS_RUN 0 then
    s.setProg (fun p => { p with resume := some (s.time.ot + nsToOt 100000) })
  else s.reject

/-- PRG_RESUME (R219). -/
def execPrgResume (via : Via) (s : State) : Res := .next (s.prgVia via (·.prgResume))

/-- HOLD puts the device in HELD (R218). -/
def State.prgHold (s : State) : State := if s.dev == .boot then s else s.enterHeld 3

/-- PRG_HOLD (R218). -/
def execPrgHold (via : Via) (s : State) : Res := .next (s.prgVia via (·.prgHold))

/-- STORE_BOOT starts writing the image in force to the Attic (R220). -/
def State.prgStore (s : State) : State :=
  match s.prog.forceInfo with
  | some i => if i.bootOk then s.setProg (fun p => { p with storing := some p.forceImage }) else s.reject
  | none => s.reject

/-- STORE_BOOT (R220). -/
def execStoreBoot (via : Via) (s : State) : Res := .next (s.prgVia via (·.prgStore))

/-- BOOT_STORE_DONE: the new boot program has been written and read back; if the read-back fails, the previous one
stays (R220). -/
def execBootStoreDone (ok : Bool) (s : State) : Res :=
  .next (match s.prog.storing with
  | some b => s.setProg (fun p => { p with storing := none, boot := if ok then b else p.boot })
  | none => s)

/-- A write of SYS_PRG_CMD. -/
def State.prgCmd (s : State) (v : Nat) : State :=
  match bits v 3 0 with
  | 1 => s.prgLoad
  | 2 => s.prgCommit (s.prgEpoch (bit v 4))
  | 3 => s.prgAbort
  | 4 => s.prgResume
  | 5 => s.prgHold
  | 6 => s.prgStore
  | _ => s

/-! ## The boot program (R221) -/

/-- At the end of BOOT the boot program is validated and committed, or the device enters HELD: 0 no boot program, 2
refused (R218, R221).  `auto` is AUTO, or 0 when R563 or R577 forbids a commit. -/
def State.bootProgram (s : State) (auto : Nat) : State :=
  let b := s.prog.boot
  if auto = 0 || b == [] then (s.enterHeld 0).bootEnded
  else
    let (fs, t) := s.validateImage b b.length
    if fs != [] then ((s.refuse fs).enterHeld 2).bootEnded
    else if auto = 2 && !imgSigned b then (s.enterHeld 2).bootEnded
    else (t.loaded b).accept none true

/-! ## Live pairs (R216) -/

/-- The registers of an LV pair; none for two parameter words. -/
def pairKeys (p : LvPair) : Option (RegKey × RegKey) :=
  match p with
  | .nco n x => some ((.GT_NCO_FLO, 16 * n.val + x.val), (.GT_NCO_FHI, 16 * n.val + x.val))
  | .level p => some ((.OPL_LEVEL_BOT, p.val), (.OPL_LEVEL_STEP, p.val))
  | .size d => some ((.VID_SIZE_W, d.val), (.VID_SIZE_H, d.val))
  | .param _ _ => none

/-- A value written to the first register of a pair is held (R216). -/
def State.pairFirst (s : State) (a : RegKey) (v : Nat) : State :=
  { s with held := Table.insert RegKey.lt s.held a (BitVec.ofNat 32 (v &&& a.1.mask (fun c => c == .LV))) }

/-- A value written to the second register is latched with the held value, else with the first field's pending
value; the new pair replaces one that waits (R216). -/
def State.pairSecond (s : State) (a b : RegKey) (v : Nat) : State :=
  let first := match Table.get? s.held a with
    | some w => w
    | none => Table.getD s.lv a (s.reg a.1 a.2)
  let second := BitVec.ofNat 32 (v &&& b.1.mask (fun c => c == .LV))
  { s with
    held := Table.erase s.held a
    lv := Table.insert RegKey.lt (Table.insert RegKey.lt s.lv a first) b second }

/-- The tiles that a write to tile n's parameters and NCO pairs reaches: its shadow too (R217). -/
def State.writeTiles (s : State) (n : Nat) : List Nat :=
  match s.groupOf n with
  | some g => if (s.tilesOf g).contains n then s.tilesOf g else [n]
  | none => [n]

/-- The first register of a pair is written; an NCO pair goes to the shadow too. -/
def State.pairFirstReg (s : State) (a : RegKey) (v : Nat) : State :=
  if a.1 == .GT_NCO_FLO then
    s.over (s.writeTiles (a.2 / 16)) (fun s n => s.pairFirst (a.1, 16 * n + a.2 % 16) v)
  else s.pairFirst a v

/-- The second register of a pair is written; OPL_LEVEL_STEP = 0 is ignored. -/
def State.pairSecondReg (s : State) (a b : RegKey) (v : Nat) : State :=
  if a.1 == .GT_NCO_FLO then
    s.over (s.writeTiles (a.2 / 16)) (fun s n => s.pairSecond (a.1, 16 * n + a.2 % 16) (b.1, 16 * n + b.2 % 16) v)
  else if b.1 == .OPL_LEVEL_STEP && v % 2 ^ 16 == 0 then s
  else s.pairSecond a b v

/-! ## Parameter words (R144, R197, R216, R217) -/

/-- The address of a tile's parameter word. -/
def paramAddr (n p : Nat) : Nat := Block.GT.base n + 0x400 + 4 * p

/-- A host write of parameter word p of tile n: ST words are staged for the group, LV words wait for the next FRAME,
a pair as R216 says. -/
def State.paramWrite (s : State) (n p v : Nat) : State :=
  let t := s.tile n
  let even := p / 2 * 2
  if !bit t.lvMap p then
    match s.groupOf n with
    | some g => s.setProg (fun x => { x with params := Table.insert natLt x.params (256 * g + p) v })
    | none => s.setTile n { t with params := Table.set 0 t.params p v }
  else s.over (s.writeTiles n) (fun s m =>
    let t := s.tile m
    if !bit t.pairMap even then s.setTile m { t with pLv := Table.insert natLt t.pLv p v }
    else if p = even then s.setTile m { t with pHeld := Table.insert natLt t.pHeld p v }
    else
      let first := match Table.get? t.pHeld even with
        | some w => w
        | none => Table.getD t.pLv even (Table.getD t.params even 0)
      s.setTile m { t with
        pHeld := Table.erase t.pHeld even, pLv := Table.insert natLt (Table.insert natLt t.pLv even first) p v })

/-- PARAM_WRITE: parameter word p of tile n is written (R217). -/
def execParamWrite (path : Path) (tile : Fin 68) (p : BitVec 8) (value : BitVec 32) (s : State) : Res :=
  .next ((s.paramWrite tile.val p.toNat value.toNat).emit (.writeDone path (paramAddr tile.val p.toNat)))

/-- A write of a pair's first or second register, or of the first or second of two paired parameter words. -/
def State.pairWrite (s : State) (path : Path) (pair : LvPair) (second : Bool) (v : Nat) : State :=
  match pair, pairKeys pair with
  | .param n k, _ =>
    let p := 2 * k.val + b2n second
    (s.paramWrite n.val p v).emit (.writeDone path (paramAddr n.val p))
  | _, some (a, b) =>
    if second then (s.pairSecondReg a b v).wrote path b.1 b.2 else (s.pairFirstReg a v).wrote path a.1 a.2
  | _, none => s

/-- PAIR_FIRST_WRITE: the first register of an LV pair is written (R216). -/
def execPairFirstWrite (path : Path) (pair : LvPair) (value : BitVec 32) (s : State) : Res :=
  .next (s.pairWrite path pair false value.toNat)

/-- PAIR_SECOND_WRITE: the second register of an LV pair is written (R216). -/
def execPairSecondWrite (path : Path) (pair : LvPair) (value : BitVec 32) (s : State) : Res :=
  .next (s.pairWrite path pair true value.toNat)

end Sys2Proof.Machine
end

