-- ==== Sys2Proof/Machine/Recovery.lean ====
section
/-! DEFINITION. The recovery ladder's commands and events, and the unlock of loops that the ladder acts on (R75, R97,
R570 to R583, R593). -/

namespace Sys2Proof.Machine

/-! ## Loops that unlock (R75, R90, R97, R570) -/

/-- BYP_UNLOCK while any die runs on bypass is a shared-class error (R97, R570). -/
def State.bypLost (s : State) : State :=
  let engine := s.dev == .held || s.dev == .run || s.dev == .service
  let hit := s.flag CLK_STATUS.BYP_LOCK 0 && engine && (List.range 8).any (fun k => (s.die k).onBypass)
  s.bypUnlock.when hit (·.faultFreeze Block.CLK.index 0)

/-- PLL_PHASE_UNLOCK: a phase-window loop is declared unlocked (R75, R86, R90, R97). -/
def execPllPhaseUnlock (loop : Loop) (s : State) : Res :=
  .next (match loop with
  | .jc k => s.jcUnlock k.val
  | .tile =>
    if s.flag CLK_STATUS.TILE_LOCK 0 then (s.setFlag CLK_STATUS.TILE_LOCK 0 false).relockCause else s
  | .byp => s.bypLost
  | .mem m => s.setClk (fun c => { c with memLock := setNth c.memLock m.val false })
  | .core => s.setClk (fun c => { c with coreLock := false })
  | .serdes => s.setClk (fun c => { c with serdesLock := false })
  | .pix d => s.setClk (fun c => { c with pixLock := setNth c.pixLock d.val false })
  | .aon => s.setClk (fun c => { c with aonLock := false }))

/-- BYP_UNLOCK: the bypass PLL is declared unlocked (R97). -/
def execBypUnlock (s : State) : Res := .next s.bypLost

/-! ## SAFE and step 3 (R574 to R576) -/

/-- FAULT_FREEZE: an uncorrectable error of shared logic, in the block of a source index and its instance (R570,
R574). -/
def execFaultFreeze (source : Fin 22) (inst : BitVec 10) (s : State) : Res :=
  .next (s.faultFreeze source.val inst.toNat)

/-- SAFE_HOLD_EXPIRE: with SAFE_AUTO the warm reset starts SAFE_HOLD_S after entry (R575). -/
def execSafeHoldExpire (s : State) : Res :=
  .next (match s.rcv.safeAt with
  | none => s
  | some t =>
    if s.dev == .safe && s.flag SYS_RCV_CFG.SAFE_AUTO 0 &&
        decide (t + s.fld SYS_RCV_CFG.SAFE_HOLD_S 0 * sCycles ≤ s.now) then
      s.warmReset 1 (le (leBytes 4 (s.reg .SYS_PM 0).toNat) 1 1) (le (leBytes 4 (s.reg .SYS_PM 0).toNat) 2 2) true
    else s)

/-- HOLD cancels the count of SAFE (R575). -/
def State.rcvHold (s : State) : State :=
  if s.dev == .safe then { s with rcv := { s.rcv with safeAt := none } } else s

/-- RCV_HOLD. -/
def execRcvHold (path : Path) (s : State) : Res := .next (s.rcvHold.wrote path .SYS_RCV_CMD 0)

/-- WARM starts a device warm reset at once (R575, R576). -/
def State.rcvWarm (s : State) : State := s.warmReset 2 Block.SYS.index 0 false

/-- RCV_WARM. -/
def execRcvWarm (path : Path) (s : State) : Res := .next (s.rcvWarm.wrote path .SYS_RCV_CMD 0)

/-- RCV_PWR_CYCLE: PWR_CYCLE through SYS_RCV_CMD (R580). -/
def execRcvPwrCycle (path : Path) (s : State) : Res :=
  .next ((if s.dev == .off then s else s.powerCycle 3).wrote path .SYS_RCV_CMD 0)

/-- RESET_N_LOW: RESET_N has been low for 1 µs: a warm reset starts, and BOOT does not start from STANDBY until it
rises (R576, R593). -/
def execResetNLow (s : State) : Res :=
  .next (if s.pwr.resetLow then s
  else ({ s with pwr := { s.pwr with resetLow := true } } : State).warmReset 3 Block.SYS.index 0 false)

/-- RESET_N_RISE: a warm reset that waits before its step 5, or a BOOT held in STANDBY, goes on (R593). -/
def execResetNRise (s : State) : Res :=
  .next (if !s.pwr.resetLow then s
  else
    let s : State := { s with pwr := { s.pwr with resetLow := false } }
    if s.rcv.waitPin then ({ s with rcv := { s.rcv with waitPin := false } } : State).bringUp else s.standbyStart)

/-! ## Step 4 (R580, R581) -/

/-- BYP_UNLOCK persists: a warm reset has reached step 4 of R553 and the bypass PLL has not locked within the 20 ms of
that step (R97). -/
def State.bypPersists (s : State) : Bool :=
  s.dev == .boot && s.pwr.rail == 0 && !s.rcv.waitPin && !s.clk.bypDone && decide (s.sec.bootAt + 20 * msCycles ≤ s.now)

/-- WARM_RESET_TIMEOUT: BYP_UNLOCK persists after a warm reset, or the reset has not ended BOOT within 15 s of its step 1
(R97, R580). -/
def execWarmResetTimeout (s : State) : Res :=
  .next (match s.rcv.warmAt with
  | none => s
  | some t =>
    if s.bypPersists then s.powerCycle 2 else if s.now < t + 15 * sCycles then s else s.powerCycle 0)

/-- PWR_CYCLE_IGNORED: VHK is still up 2 s after PWR_CYCLE_REQ, driven for 100 ms, was released (R581). -/
def execPwrCycleIgnored (s : State) : Res :=
  .next (match s.rcv.cycleAt with
  | none => s
  | some t =>
    if s.now < t + 2100 * msCycles then s
    else
      let s : State := { s with
        evq := { s.evq with attic := s.evq.attic ++ [.pwrCycleIgnored] }
        rcv := { s.rcv with cycleAt := none } }
      (s.emit (.pin .pwrCycleReq false)).driveFault true)

/-! ## Step 2 (R572, R573) -/

/-- PC_HOLD_EXPIRE: h, frozen for PC_HOLD_S, is released with PC_AUTO after its diagnosis is kept, or retired at its second
freeze within 24 h (R573). -/
def execPcHoldExpire (h : Fin 128) (s : State) : Res :=
  let h := h.val
  let times := Table.getD s.cel.freezes h []
  let due := times.getLast?.any (fun t => decide (t + s.fld SYS_RCV_CFG.PC_HOLD_S 0 * sCycles ≤ s.now))
  .next (if s.pc h != .frozen || !s.flag SYS_RCV_CFG.PC_AUTO 0 || !due then s
  else
    let (a, y) := Table.getD s.cel.diag h (0, 0)
    let s : State := { s with evq := { s.evq with attic := s.evq.attic ++ [.diagnosis h a y (Table.getD s.cel.history h [])] } }
    let last := times.getLastD 0
    let again := decide (2 ≤ (times.filter (fun t => decide (last < t + 24 * 3600 * sCycles))).length)
    if again then s.pcRetired h else s.pcReleased h)

/-- REINIT_TIMEOUT: step 2 of a function misses its timeout (R572), 2 ms for a tile, 50 ms for a pseudo-channel, 1 s for a
port, 10 ms for a die, 1 ms for a renderer, RELOCK_S for the clocks: a tile and a pseudo-channel are retired, a port is
tried again, a converter die, a jitter cleaner and the reference tree lead to step 3, a renderer is retired. -/
def execReinitTimeout (unit : ReinitUnit) (s : State) : Res :=
  let relock := s.fld SYS_RCV_CFG.RELOCK_S 0 * sCycles
  .next (match unit with
  | .tile n =>
    if (s.tile n.val).state = gtLOADING && !(s.tile n.val).reload && s.timerDue (tmTile n.val) (2 * msCycles) then s.tileRetire n.val else s
  | .pc h =>
    if s.pc h.val == .reinit && s.timerDue (tmPc h.val) (50 * msCycles) then
      let before := s.downPcs
      ((s.setPc h.val .retired).lossSync before).unitFailed kMEM h.val
    else s
  | .port p =>
    if s.fld FAB_PORT_CFG.MODE p.val != 0 && s.portState p.val = 1 && s.timerDue (tmPort p.val) (1000 * msCycles) then
      ((s.linkDrop p.val).reinit Block.FAB.index p.val).linkBegin p.val (s.port p.val).lanes
    else s
  | .die k =>
    let d := s.die k.val
    if d.down && decide (d.downSince + 10 * msCycles ≤ s.now) then s.warmReset 4 Block.CNV.index (0x200 + k.val) true else s
  | .renderer p =>
    match s.oplSwap with
    | some w =>
      if w.old = p.val && w.cause == .failure && s.timerDue tmRenderer msCycles then
        ({ s with oplSwap := none } : State).oplRetire p.val
      else s
    | none => s
  | .cleaner k =>
    match (s.die k.val).bypSince with
    | some t =>
      if s.clk.relock = 0 && !bit (s.fld CLK_STATUS.JC_LOCK 0) k.val && decide (t + relock ≤ s.now) then
        s.warmReset 5 Block.CLK.index k.val true
      else s
    | none => s
  | .relock =>
    match s.clk.failSince with
    | some t => if t + relock ≤ s.now then s.warmReset 5 Block.CLK.index 0 true else s
    | none => s)

end Sys2Proof.Machine
end

