-- ==== Sys2Proof/Machine/Boot.lean ====
section
/-! DEFINITION. The end of BOOT (R552, R553, R576, R577). -/

namespace Sys2Proof.Machine

/-- No calibration run waits or is in progress on any die. -/
def State.calDone (s : State) : Bool :=
  (List.range 8).all (fun k =>
    let d := Table.getD s.cal.dies k {}
    d.queue.isEmpty && d.cur.isNone)

/-- Steps 3 to 8 of R553 are done: the rails stand, the crystal loops have locked, BOOT_CAL has run, the vendor
microcode and the system image of the running firmware match their digests, and RESET_N is high. -/
def State.bootReady (s : State) : Bool :=
  s.dev == .boot && s.pwr.rail == 0 && s.crystalLocked && !s.rcv.waitPin && s.calDone && s.prog.commit.isNone &&
  match s.sec.running with
  | some slot => s.sectionOk slot 2 && s.sectionOk slot 3
  | none => false

/-- The AUTO policy under which the boot program is judged: 0 while the host asks for it by pins, and after a warm
reset that the ladder started with PM_HOLD = 1 (R221, R577). -/
def State.bootAuto (s : State) : Nat :=
  if s.presence || (s.flag SYS_RCV_CFG.PM_HOLD 0 && s.rcv.byLadder) then 0 else s.fld SYS_PRG_POLICY.AUTO 0

/-- BOOT_END: step 9 of R553: the ports take their platform settings, a STRAP module samples GPIO0 to GPIO11, and the
stored boot program is validated and committed, or the device enters HELD; the slot record is written (R552). -/
def execBootEnd (gpio : BitVec 12) (s : State) : Res :=
  .next (if !s.bootReady then s
  else
    let s := s.loadPci.fabStrap gpio.toNat
    let s : State := { s with rcv := { s.rcv with warmAt := none } }
    (s.setFld SYS_RCV_STAT.STEP 0 0).bootProgram s.bootAuto)

end Sys2Proof.Machine
end

