-- ==== Sys2Proof/Machine/Comparator.lean ====
section
/-! DEFINITION. The window comparators of the converter dies (R58 to R64). -/

namespace Sys2Proof.Machine

/-- The fields of an output in CNV_CH_CMP_STAT: state, UNSETTLED, INBAND; its combiner code and the offset
of its transition count in the channel's epoch entry. -/
def cmpState (above : Bool) : Fld := if above then CNV_CH_CMP_STAT.ABOVE else CNV_CH_CMP_STAT.BELOW
def cmpUnsettled (above : Bool) : Fld :=
  if above then CNV_CH_CMP_STAT.UNSETTLED_HI else CNV_CH_CMP_STAT.UNSETTLED_LO
def cmpInband (above : Bool) : Fld := if above then CNV_CH_CMP_STAT.INBAND_HI else CNV_CH_CMP_STAT.INBAND_LO
def cmpCode (c : Nat) (above : Bool) : Nat := if above then 0x900 + c else 0xA00 + c
def cmpIdx (c : Nat) (above : Bool) : Nat := 2 * c + (if above then 0 else 1)

/-- Outputs are held at 0 while the die is unpowered, reset or re-initialised and in SERV (R63, R274). -/
def State.cmpHeld (s : State) (c : Nat) : Bool :=
  !(s.die (c / 32)).started || (s.die (c / 32)).down || s.mode (c / 32) == 8

/-- An output takes an accepted state: the combiner level follows and the epoch counts the transition
(R61, R62). -/
def State.cmpTake (s : State) (c : Nat) (above v : Bool) : State :=
  if s.flag (cmpState above) c == v then s
  else ((s.setFlag (cmpState above) c v).level (cmpCode c above) v).stat
    (0x400 + 32 * c + (if above then 20 else 22)) 1

/-- COMPARATOR_CROSSING: the raw output changes; the first exit from the band settles the output and
clears INBAND (R59, R63).  A change during settling is discarded but for the raw output itself (R64). -/
def execComparatorCrossing (ch : Fin 256) (above raw : Bool) (s : State) : Res :=
  let c := ch.val
  let i := cmpIdx c above
  let s := s.setCmp i { s.cmp i with raw := raw }
  .next (if s.cmpHeld c || (s.cmp i).settling then s
  else (s.setFlag (cmpUnsettled above) c false).setFlag (cmpInband above) c false)

/-- COMPARATOR_ACCEPT: the filter has the last five samples of an output; a new state that three of them
show is accepted and the blanking of BLANK ticks starts (R61). -/
def execComparatorAccept (ch : Fin 256) (above : Bool) (samples : BitVec 5) (s : State) : Res :=
  let c := ch.val
  let x := s.cmp (cmpIdx c above)
  let new := !s.flag (cmpState above) c
  let votes := ((List.range 5).filter (fun i => bit samples.toNat i == new)).length
  .next (if x.blanking || x.settling || s.cmpHeld c || s.flag (cmpUnsettled above) c || decide (votes < 3) then s
  else (s.cmpTake c above new).setCmp (cmpIdx c above) { x with blanking := true, blankAt := s.now })

/-- The blanking of channel c in TCLK cycles: BLANK ticks of 1, 16, 256 or 4,096 cycles (R61). -/
def State.blankCycles (s : State) (c : Nat) : Nat :=
  s.fld CNV_CH_CMP_CFG.BLANK c * 16 ^ s.fld CNV_CH_CMP_CFG.TICK_SEL c

/-- COMPARATOR_BLANK_END: BLANK ticks have passed and the filter samples the output again (R61). -/
def execComparatorBlankEnd (ch : Fin 256) (above : Bool) (s : State) : Res :=
  let i := cmpIdx ch.val above
  .next (if (s.cmp i).blankAt + s.blankCycles ch.val ≤ s.now then s.setCmp i { s.cmp i with blanking := false }
  else s)

/-- CMP_SETTLE_END: the settle interval of SETTLE µs ends: the output takes the raw state, or, still inside its
band, stays 0 with INBAND set and CMP_INBAND raised (R63).  The state taken starts no blanking: R61 and R63 do not
say whether it does (DESIGN CHOICE, log entry 90).  An interval that ends while the settling of R64 runs, over which the
filter holds, takes the raw state at once all the same: the rules do not say which of them wins (DESIGN CHOICE, log
entry 103). -/
def execCmpSettleEnd (ch : Fin 256) (above inBand : Bool) (s : State) : Res :=
  let c := ch.val
  .next (if s.cmpHeld c || !s.flag (cmpUnsettled above) c ||
      s.now < (s.cmp (cmpIdx c above)).since + s.fld CNV_CH_CMP_CFG.SETTLE c * usCycles then s
  else
    let s := s.setFlag (cmpUnsettled above) c false
    if inBand then (s.setFlag (cmpInband above) c true).raise Ev.CMP_INBAND c [(0, 1, b2n (!above))]
    else s.cmpTake c above (s.cmp (cmpIdx c above)).raw)

/-- Thresholds, mode or filter of channel c change at a switch point: settling begins (R64). -/
def State.cmpResettle (s : State) (c : Nat) : State :=
  s.over [true, false] (fun s above =>
    s.setCmp (cmpIdx c above) { s.cmp (cmpIdx c above) with settling := true, settleAt := s.now })

/-- The settling of channel c after a change, in TCLK cycles (R64). -/
def State.settleCycles (s : State) (c : Nat) : Nat := settleTime (s.fld CNV_CH_CMP_CFG.MODE c)

/-- CMP_RESETTLE_END: the settling of channel ch ends; the filters resume from the held states and follow
the raw outputs; one that lies beyond the held state has left its band (R63, R64). -/
def execCmpResettleEnd (ch : Fin 256) (s : State) : Res :=
  .next (if s.now < (s.cmp (cmpIdx ch.val true)).settleAt + s.settleCycles ch.val then s
  else s.over [true, false] (fun s above =>
    let x := s.cmp (cmpIdx ch.val above)
    let s := s.setCmp (cmpIdx ch.val above) { x with settling := false }
    s.when (x.settling && x.raw != s.flag (cmpState above) ch.val && !s.cmpHeld ch.val) (fun s =>
      (s.setFlag (cmpUnsettled above) ch.val false).setFlag (cmpInband above) ch.val false)))

/-- An octant enters or leaves SERV: its outputs fall to 0 toward the combiner, without a transition, or
start afresh (R63, R274). -/
def State.cmpRestart (s : State) (k : Nat) : State :=
  s.each 32 (fun s j =>
    s.over [true, false] (fun s above =>
      let c := 32 * k + j
      let s := s.when (s.flag (cmpState above) c) (·.level (cmpCode c above) false)
      ((s.setFlag (cmpState above) c false).setFlag (cmpUnsettled above) c true).setFlag (cmpInband above) c
        false |>.setCmp (cmpIdx c above) { raw := (s.cmp (cmpIdx c above)).raw, since := s.now }))

end Sys2Proof.Machine
end

