-- ==== Sys2Proof/Machine/Pages.lean ====
section
/-! DEFINITION. The statistics pages of the epochs (R128, R129, R521 to R523). -/

namespace Sys2Proof.Machine

/-! ## The bytes of a page (R521 to R523) -/

/-- LENGTH of a page. -/
def pageLength : Nat := 14336

/-- A counter of `w` bytes at a page offset; it saturates. -/
def statBytes (t : Table Nat Int) (off w : Nat) : List Byte := leBytes w (satU (8 * w) (Table.getD t off 0).toNat)

/-- Counters that stand next to each other, by width. -/
def statRow (t : Table Nat Int) : Nat → List Nat → List Byte
  | _, [] => []
  | off, w :: ws => statBytes t off w ++ statRow t (off + w) ws

/-- What a page holds for a value that nothing measured in the epoch; the manual does not say. -/
def State.pageBlank (s : State) (off : Nat) : Nat := Config.free "page value without a measurement" [s.epoch.page.epoch, off] 0

/-- A minimum or maximum of `w` bytes, in two's complement. -/
def State.statExtreme (s : State) (off w : Nat) : List Byte :=
  leBytes w (match Table.get? s.epoch.prev off with
  | some v => toU (8 * w) (satS (8 * w) v)
  | none => s.pageBlank off)

/-- A mean of `w` bytes. -/
def State.statMean (s : State) (off w : Nat) : List Byte :=
  let n := Table.getD s.epoch.prev (off + 0x20000) 0
  leBytes w (if n = 0 then s.pageBlank off else satU (8 * w) (tdiv (Table.getD s.epoch.prev (off + 0x10000) 0) n).toNat)

/-- Section 0: power, background, landing buffer, temperatures; each part with its offset. -/
def State.pagePower (s : State) : List (Nat × List Byte) :=
  let t := s.epoch.prev
  let supply := ((List.range 3).map (fun i =>
    s.statExtreme (0x40 + 6 * i) 2 ++ s.statExtreme (0x42 + 6 * i) 2 ++ s.statMean (0x44 + 6 * i) 2)).flatten
  [(0x40, supply ++ s.statMean 0x52 4 ++ s.statExtreme 0x56 4 ++ statBytes t 0x5A 2 ++ zeros 36),
   (0x80, statRow t 0x80 ([4, 4, 8, 8, 4, 2, 2] ++ List.replicate 9 2 ++ [2, 4]) ++ zeros 8),
   (0xC0, statRow t 0xC0 ([2, 4, 4] ++ List.replicate 8 1 ++ [4, 4, 4]) ++ zeros 34),
   (0x100, ((List.range 40).map (fun i => s.statExtreme (0x100 + 4 * i) 2 ++ s.statExtreme (0x102 + 4 * i) 2)).flatten)]

/-- A channel's entry (R523). -/
def channelEntry (t : Table Nat Int) (c : Nat) : List Byte :=
  let o := 0x400 + 32 * c
  let code := fun (o : Nat) (d : Int) => leBytes 2 (toU 16 (Table.getD t o d))
  statRow t o [4, 4, 4, 4] ++ code (o + 16) 0x7FFF ++ code (o + 18) (-0x8000) ++ statRow t (o + 20) [2, 2, 2] ++ zeros 2 ++
  statBytes t (o + 28) 4

/-- The parts of a page that its SECT bits select, each with its offset. -/
def State.pageParts (s : State) : List (Nat × List Byte) :=
  let t := s.epoch.prev
  let sect := s.epoch.page.sect
  let rows := fun (i o n w : Nat) (ws : List Nat) (pad : Nat) =>
    if bit sect i then [(o, ((List.range n).map (fun j => statRow t (o + w * j) ws ++ zeros pad)).flatten)] else []
  (if bit sect 0 then s.pagePower else []) ++ rows 1 0x200 16 8 [4, 2, 2] 0 ++
  (if bit sect 2 then [(0x400, ((List.range 256).map (channelEntry t)).flatten)] else []) ++
  rows 3 0x2400 64 16 [4, 4, 4] 4 ++ rows 4 0x2800 32 16 [4, 4, 4, 4] 0 ++ rows 5 0x2A00 68 16 [4, 4, 2, 2, 1] 3 ++
  rows 6 0x3000 256 8 [4, 4] 0

/-- The header of a page. -/
def PageInfo.header (p : PageInfo) : List Byte :=
  leBytes 8 p.epoch ++ otBytes p.start ++ otBytes p.stop ++ leBytes 4 1 ++ leBytes 2 p.sect ++ leBytes 1 p.type ++
  leBytes 1 p.flags ++ leBytes 4 pageLength ++ zeros 20

/-- The address of the page of epoch e. -/
def State.pageBase (s : State) (e : Nat) : Nat := s.fld EPO_PAGE_BASE.BASE 0 * 2 ^ 16 + 65536 * (e % 2)

/-- A write of the page unit: to system memory, where both pages lie. -/
def State.pageWrite (s : State) (a : Nat) (bs : List Byte) : State :=
  if inSystem a bs.length then s.devPut s.srcOther a bs else s

/-! ## At the boundary (R128, R129, R521) -/

/-- TCLK cycles that a page keeps the next from starting: LENGTH / EPO_MBPS. -/
def State.pageTime (s : State) : Nat := pageLength * usCycles / s.budget 4 1500

/-- A page may start. -/
def State.pageFree (s : State) : Bool :=
  !s.epoch.writing && match s.epoch.page.began with
  | some t => decide (t + s.pageTime ≤ s.now)
  | none => true

/-- What an epoch starts with: the counts of its first cycle (R126), and the maxima that do not start from nothing, the
landing fill and the clock states (R522). -/
def State.firstStats (s : State) : Table Nat Int :=
  let t := statHigh s.epoch.early 0xC0 ((s.landFill / 1024 : Nat) : Int)
  (List.range 8).foldl (fun t k => statHigh t (0xCA + k) (s.clkq k : Nat)) t

/-- The unacknowledged page that the page of epoch e overwrites (R129). -/
def State.pageLost (s : State) (e : Nat) : Option Nat :=
  s.epoch.pages.find? (fun p => p % 2 == e % 2 && !s.epoch.acked.contains (p % 2 ^ 32))

/-- An unacknowledged page is overwritten: counted and reported (R129). -/
def State.pageMissed (s : State) (e : Nat) : State :=
  match s.pageLost e with
  | some p => (s.addFld EPO_COUNTS.STATS_MISSED 0 1).raise Ev.STATS_MISSED 0 [(0, 8, p)]
  | none => s

/-- An epoch whose page cannot start: its counters are discarded and it is counted (R521, R525). -/
def State.pageSkip (s : State) (e : Nat) : State :=
  let fresh := match s.epoch.lastSkip with
    | some t => decide (t + sCycles ≤ s.now)
    | none => true
  let s : State := { s with epoch := { s.epoch with stats := s.firstStats, early := [], lastSkip := some s.now } }
  (s.addFld EPO_SKIPPED.COUNT 0 1).when fresh (·.raise Ev.PAGE_SKIPPED 0 [(0, 8, e)])

/-- The page of epoch e, which ended at t_B, starts: its COMPLETE word is cleared. -/
def State.pageStart (s : State) (e tB : Nat) : State :=
  let s := s.pageMissed e
  let p : PageInfo := {
    epoch := e, start := s.epoch.lastOt, stop := tB, type := s.epoch.type,
    flags := b2n s.epoch.forced + 2 * b2n s.epoch.stepped, sect := s.fld EPO_PAGE_CFG.SECT 0, began := some s.now }
  let prev := (List.range 68).foldl (fun t n => Table.insert natLt t (0x2A0C + 16 * n) ((s.tile n).state : Int)) s.epoch.stats
  let s : State := { s with epoch := { s.epoch with
    stats := s.firstStats, early := [], prev := prev, writing := true, page := p
    pages := e :: s.epoch.pages.filter (fun x => x % 2 != e % 2)
    acked := s.epoch.acked.filter (fun a => s.epoch.pages.any (fun x => x % 2 ^ 32 == a && x % 2 != e % 2)) } }
  s.pageWrite (s.pageBase e + 32) (zeros 4)

/-- At t_B every counter is latched, and the page of the epoch that ends starts or is skipped. -/
def State.epochLatch (s : State) (tB : Nat) : State :=
  if s.pageFree then s.pageStart s.epoch.num tB else s.pageSkip s.epoch.num

/-! ## Meanings -/

/-- EPO_PAGE_COMPLETE: every write of the page is acknowledged; COMPLETE is set and PAGE_READY raised (R128). -/
def execEpoPageComplete (s : State) : Res :=
  .next (if !s.epoch.writing then s
  else
    let p := s.epoch.page
    let a := s.pageBase p.epoch
    let s := s.over s.pageParts (fun s x => s.pageWrite (a + x.1) x.2)
    let s := s.pageWrite a p.header
    let s : State := { s with epoch := { s.epoch with writing := false, prev := [] } }
    s.raise Ev.PAGE_READY 0 [(0, 8, p.epoch)])

/-- The host acknowledges a page by the low word of its epoch number (R129). -/
def State.epoAck (s : State) (v : Nat) : State :=
  { s with epoch := { s.epoch with acked := (v % 2 ^ 32) :: s.epoch.acked.filter (· != v % 2 ^ 32) } }

/-- EPO_ACK: a write of EPO_ACK. -/
def execEpoAck (path : Path) (value : BitVec 32) (s : State) : Res := .next ((s.epoAck value.toNat).wrote path .EPO_ACK 0)

end Sys2Proof.Machine
end

