-- ==== Sys2Proof/Machine/Replay.lean ====
section
/-! DEFINITION. The replay reader: GO, the feed of blocks, STOP (R269 to R273). -/

namespace Sys2Proof.Machine

/-- The cause for which GO is refused (R270), in the order of the rule; 0 when it is accepted.  LEN = 0 is
refused with cause 3 (the register's table). -/
def State.rplCause (s : State) (k : Nat) : Nat :=
  let start := s.reg64 .SYS_RPL_START_LO .SYS_RPL_START_HI k
  let len := s.fld SYS_RPL_LEN.LEN k
  let src := s.fld SYS_RPL_CTRL.SRC k
  if s.mode k != 7 then 1
  else if (s.replay k).running then 2
  else if len = 0 || s.gib = 0 || decide (start < s.oldest src) then 3
  else if s.fld SYS_OCT_STAT.RATE_DIV src + s.fld SYS_RPL_CTRL.RATE k < s.fld SYS_OCT_STAT.RATE_DIV k then 4
  else if s.pinBudget < s.pinUsed + 32 * 128 * len then 5
  else 0

/-- A tile restarts at sample `w` as R212 states, its parameters kept: its lanes stand at w, both WI and RP, and it starts
when its segments are written, with COMMIT set in its EVP (R270). -/
def State.tileRestart (s : State) (n w : Nat) : State :=
  let s := s.takeStagedGt n
  let t := s.tile n
  let lanes := (List.range 4).foldl (fun x l => Table.set 0 x l w) []
  s.setTile n { t with
    state := gtLOADING, haltCause := 0, reload := true, gtTaken := true, swDue := none, swIdx := w, goStart := true,
    evp := t.evp ||| 2 ^ evCOMMIT, wi := lanes, rp := lanes }

/-- GO (R270). -/
def State.rplGo (s : State) (k : Nat) : State :=
  let cause := s.rplCause k
  if cause != 0 then
    (s.setFld SYS_RPL_STAT.ERR k cause).when (!(s.replay k).running) (·.setFld SYS_RPL_STAT.STATUS k 5)
  else
    let start := s.reg64 .SYS_RPL_START_LO .SYS_RPL_START_HI k
    let s := s.setReplay k { running := true, src := s.fld SYS_RPL_CTRL.SRC k, next := start,
                             left := s.fld SYS_RPL_LEN.LEN k, gib := s.gib, rate := s.fld SYS_RPL_CTRL.RATE k,
                             lastFeed := s.now }
    let s := s.setReg .SYS_RPL_STAT k (BitVec.ofNat 32 (2 ^ 28))
    let s := s.setFlag SYS_OCT_STAT.RPL_BUSY k true
    s.over ((List.range 8).map (8 * k + ·)) (fun s g => s.over (s.tilesOf g) (fun s n => s.tileRestart n (80 * start)))

/-- A write of SYS_RPL_CTRL_k: SRC and RATE take their values; GO starts a replay and STOP ends it at the next block
(log entry 88). -/
def State.rplCtrl (s : State) (k v : Nat) : State :=
  let s := (s.setFld SYS_RPL_CTRL.SRC k (bits v 2 0)).setFld SYS_RPL_CTRL.RATE k (bits v 6 4)
  let s := s.when (bit v 31) (·.rplGo k)
  s.when (bit v 30 && (s.replay k).running) (fun s => s.setReplay k { s.replay k with stop := true })

/-- RPL_GO: the host writes SYS_RPL_CTRL_k with GO = 1 (R270). -/
def execRplGo (path : Path) (k : Fin 8) (src rate : Fin 8) (s : State) : Res :=
  .next ((s.rplCtrl k.val (2 ^ 31 + 16 * rate.val + src.val)).wrote path .SYS_RPL_CTRL k.val)

/-- RPL_STOP: the host writes SYS_RPL_CTRL_k with STOP = 1 (R273). -/
def execRplStop (path : Path) (k : Fin 8) (src rate : Fin 8) (s : State) : Res :=
  .next ((s.rplCtrl k.val (2 ^ 30 + 16 * rate.val + src.val)).wrote path .SYS_RPL_CTRL k.val)

/-- The TCLK cycle before which the reader of octant k feeds no further block: 2^RATE source block periods after the
last one (R271). -/
def State.rplPace (s : State) (k : Nat) : Nat :=
  let r := s.replay k
  let f := s.fOct r.src
  if r.fed = 0 then r.lastFeed
  else r.lastFeed + (2 ^ r.rate * 80 * 1600000000 * f.2 + f.1 - 1) / f.1

/-- RPL_BLOCK_FEED: the reader of octant k feeds the next block of every lane, once its pace and the block's ring write
allow, or ends a replay that STOP was written to; `stall` is the delay in TCLK cycles that memory stalls added (R269, R271, R273). -/
def execRplBlockFeed (k : Fin 8) (stall : Nat) (s : State) : Res :=
  let r := s.replay k.val
  .next (if r.running && r.stop then s.replayEnd k.val 3
  else if !r.running || decide (s.now < s.rplPace k.val) || !s.ringAcked r.src r.next then s
  else
    let s := s.over (List.range 32) (fun s i =>
      let bs := s.ringRead r.gib (32 * r.src + i) r.next
      let s := s.ringFetch srcReplay r.gib (32 * r.src + i) r.next
      s.over (s.tilesOf (8 * k.val + i / 4)) (fun s n => s.laneArrive n (i % 4) r.next bs))
    let s := s.setReplay k.val { r with
      next := r.next + 1, left := r.left - 1, fed := r.fed + 1, lastFeed := s.now, stall := r.stall + stall }
    let s := s.setFld SYS_RPL_STAT.STALL k.val (satU 24 ((r.stall + stall) / usCycles))
    s.when (r.left ≤ 1) (·.replayEnd k.val 2))

end Sys2Proof.Machine
end

