-- ==== Sys2Proof/Machine/Switch.lean ====
section
/-! DEFINITION. The switch point: what comes into force at t_B and what each unit does about it (R40, R57, R64, R81,
R86, R206 to R214, R261, R273 to R276, R302, R328, R368, R424, R439, R442). -/

namespace Sys2Proof.Machine

/-- A register instance differs between the state before the switch point and the one after. -/
def State.moved (u s : State) (r : Reg) (i : Nat) : Bool := u.reg r i != s.reg r i

/-- A field differs. -/
def State.movedFld (u s : State) (f : Fld) (i : Nat) : Bool := u.fld f i != s.fld f i

/-! ## The boundary sample (R126, R276) -/

/-- The switch-point sample of octant k, whose boundary sample is i: sample 0 of the next block when RATE_DIV changes. -/
def State.switchSample (u s : State) (k i : Nat) : Nat :=
  if u.movedFld s SYS_OCT_STAT.RATE_DIV k then 80 * (i / 80 + 1) else i

/-! ## Converter dies (R40, R57, R64, R274, R276, R480) -/

/-- Channel c, whose switch-point sample is i: holds, the user correction up to it, comparator settling. -/
def State.switchChan (u s : State) (c i : Nat) : State :=
  let range := u.movedFld s CNV_CH_CFG.RANGE c
  let s := s.when range (·.calAbandon c i)
  let s := s.when (range || u.movedFld s CNV_CH_CFG.CM_DRIVE c) (·.holdChan c i range)
  let s := s.when (u.moved s .CNV_CH_UOFFS c || u.moved s .CNV_CH_UGAIN c) (fun s =>
    s.setChan c { s.chan c with
      corr := some ⟨i, u.fld CNV_CH_UOFFS.UOFFS c, u.fld CNV_CH_UGAIN.UGAIN c⟩ })
  s.when (u.moved s .CNV_CH_CMP_HI c || u.moved s .CNV_CH_CMP_LO c || u.moved s .CNV_CH_CMP_CFG c) (·.cmpResettle c)

/-- Die k, whose boundary sample is i: entry to and exit from SERV, and a RATE anchor for a new rate. -/
def State.switchDie (u s : State) (k i : Nat) : State :=
  let was := u.mode k == 8
  let is := s.mode k == 8
  let d := s.die k
  let s := s.setDie k { d with
    lastBlock := if !is then none else if was then d.lastBlock else some (i / 80)
    firstBlock := if was && !is then i / 80 else d.firstBlock }
  let s := s.when (was != is) (·.cmpRestart k)
  let s := s.when (u.movedFld s SYS_OCT_STAT.RATE_DIV k && (s.die k).started) (·.anchorPred anRATE k (i / 80 + 1))
  s.each 32 (fun s j => u.switchChan s (32 * k + j) (u.switchSample s k i))

/-- Die k from its boundary block on stores under the new RING_GIB (R328). -/
def State.switchRing (u s : State) (bound : Nat → Nat) : State :=
  if u.gib = s.gib then s
  else
    let s : State := { s with cel := { s.cel with oldGib := u.gib } }
    s.each 8 (fun s k => s.setDie k { s.die k with floor := bound k / 80 })

/-- The record store starts empty where its region or its index changes (R311, R323). -/
def State.switchStore (u s : State) : State :=
  if u.region 1 0 = s.region 1 0 && u.region 2 0 = s.region 2 0 then s
  else { s with trg := { s.trg with stored := [], writePtr := 0 } }

/-! ## Clocks and inputs (R64, R81, R86, R102, R261) -/

/-- The committed loop words move f_syn by more than 50 ppm, or the source or divider of the reference changes. -/
def State.mustRelock (u s : State) : Bool :=
  let a := u.fSyn
  let b := s.fSyn
  let d := ((a.1 * b.2 : Nat) : Int) - (b.1 * a.2 : Nat)
  decide (50 * (a.1 * b.2) < d.natAbs * 1000000) || u.movedFld s CLK_REF_CFG.SRC_SEL 0 ||
  u.movedFld s CLK_REF_CFG.REF_DIV 0

/-- A CKO output runs while it is enabled and not gated by a relock (R81, R86). -/
def State.ckoSync (s : State) (n : Nat) : State :=
  let en := s.flag CLK_CKO_CFG.EN n
  let gate := s.clk.relock != 0 && !s.flag CLK_CKO_CFG.FREE_RUN n
  (s.setFlag CLK_CKO_STAT.GATED n (gate && en)).setFlag CLK_CKO_STAT.RUNNING n (!gate && en)

/-- A changed COARSE lengthens one period of CKO n: by the d source periods that it adds, or by DIV - d where it takes d
away (R78). -/
def State.ckoStretch (u s : State) (n : Nat) : State :=
  let a := u.fld CLK_CKO_CFG.COARSE n
  let b := s.fld CLK_CKO_CFG.COARSE n
  if a = b then s
  else
    let div := s.fld CLK_CKO_CFG.DIV n
    let long := if a < b then b - a else (div - (a - b) % div) % div
    s.setClk (fun c => { c with stretch := Table.set 0 c.stretch n long })

/-- A slew in progress goes on at a SLEW_RATE or RET_SLEW that changes at the switch point, from where it stands (R83,
R93). -/
def State.switchSlew (u s : State) : State :=
  let s := if u.movedFld s CLK_POLICY.SLEW_RATE 0 && s.clk.slewAt.isSome then
    s.setClk (fun c => { c with offset := u.offsetNow, slewAt := some s.now }) else s
  if u.movedFld s CLK_POLICY.RET_SLEW 0 then
    s.setClk (fun c => { c with retMoved := u.retPhase, retAt := s.now }) else s

/-- Quartz at the switch point. -/
def State.switchClk (u s : State) : State :=
  let s := u.switchSlew s
  let s := if u.mustRelock s then s.relockCause else s
  s.each 4 (fun s n => s.when (u.moved s .CLK_CKO_CFG n) (fun s => (u.ckoStretch s n).ckoSync n))

/-- Timing input i: settling after a new threshold, hysteresis or mode; a new function starts afresh. -/
def State.switchTin (u s : State) (i : Nat) : State :=
  let s := s.when (u.movedFld s TDC_IN_CFG.THRESH i || u.movedFld s TDC_IN_CFG.HYST i || u.movedFld s TDC_IN_CFG.MODE i)
    (fun s => s.setTin i { s.tin i with settling := true, settleAt := s.now })
  s.when (u.moved s .TDC_IN_FUNC i || u.moved s .TDC_IN_PARAM i) (fun s =>
    s.setTin i { s.tin i with
      armed := none, starts := [], stops := [], pendStop := none, gate := [], gateDrops := [], gateAt := 160 * s.now
      stats := {} })

/-- The time base at the switch point: the nominal rate word follows f_pfd; after a change of source nothing disciplines
OT96, which runs on its last rate word, until the new source does (R115, R116). -/
def State.switchTime (u s : State) : State :=
  let rate : Int := (s.time.rate : Int) + s.nominalRate - u.nominalRate
  let s : State := { s with time := { s.time with rate := rate.toNat } }
  s.when (u.movedFld s TDC_TIME_CFG.TIME_SRC 0 || u.movedFld s TDC_TIME_CFG.SRC_IDX 0) (·.undisciplined)

/-- The instant of the first predicted turn at or after t, by the lowest-numbered die that has turns (R259). -/
def State.nextTurn (s : State) (t : Nat) : Option Nat :=
  match s.turn.base with
  | [] => none
  | (k, b) :: _ =>
    let i := s.sampleAt k t
    let spt := s.spt k
    some (s.sampleTime k (if spt = 0 then b else b + ceilDiv (i - b) spt * spt))

/-- Octants that enter SYNC, or whose SPT changes, while the tracker has turns: the turns of their dies start anew at the
next predicted turn, and so does the count of predicted turns where that is the lowest-numbered octant's (R258 to
R260). -/
def State.turnJoin (u s : State) (tB : Nat) : State :=
  match u.nextTurn tB with
  | none => s
  | some t0 =>
    let keeps := fun (k : Nat) => (Table.get? u.turn.base k).isSome && u.spt k == s.spt k
    let base := (List.range 8).foldl (fun t k =>
      if keeps k then t
      else if s.mode k = 4 || (Table.get? t k).isSome then Table.insert natLt t k (s.sampleAt k t0) else t) u.turn.base
    let same := s.syncOctants.head? == u.syncOctants.head? && s.syncOctants.head?.any keeps
    let from_ := match s.syncOctants with
      | k :: _ => if same then s.turn.countFrom else Table.getD base k 0
      | [] => s.turn.countFrom
    { s with turn := { s.turn with base := base, countFrom := from_ } }

/-- The turn tracker returns to SEARCH when its setup changes, and keeps its state else (R261). -/
def State.switchTurn (u s : State) (tB : Nat) : State :=
  if u.movedFld s EPO_TURN_CFG.EN 0 || u.movedFld s EPO_TURN_CFG.SLOTS 0 || u.movedFld s EPO_TURN_CFG.TURN_TIN 0 ||
      u.moved s .EPO_TURN_DLY 0 then
    ({ s with turn := {} } : State).setFld EPO_TURN_STAT.STATE 0 0
  else u.turnJoin s tB

/-- A new epoch source starts afresh. -/
def State.switchEpo (u s : State) : State :=
  if u.movedFld s EPO_CFG.SRC 0 || u.movedFld s EPO_CFG.EPO_TIN 0 then
    { s with epoch := { s.epoch with markers := 0, candidates := [], ignored := 0 } }
  else s

/-! ## Records, streams, display, ports, log sets -/

/-- The cells and definitions in force before t_B still serve the firings before it (R213); the record of a definition
that changes will close (R302). -/
def State.switchCells (u s : State) (tB : Nat) : State :=
  let s : State := { s with trg := { s.trg with
    oldRegs := u.regs, oldUntil := tB
    cells := s.trg.cells.map (fun e =>
      (e.1, { e.2 with firedOld := e.2.fired, fired := none, oldInputs := e.2.inputs })) } }
  s.each 32 (fun s d =>
    let c := u.fld TRG_DEF_CFG.CELL d
    let changed := defRegs.any (fun e => u.moved s e.1 (e.2.1 * d + e.2.2)) ||
      cellRegs.any (fun e => u.moved s e.1 (e.2.1 * c + e.2.2))
    s.setDef d { s.def_ d with switched := changed })

/-- Two entries are equal but for GEN. -/
def sameEntry (a b : List Byte) : Bool := a.take 8 == b.take 8 && a.drop 10 == b.drop 10

/-- Streams and subscribers at t_B (R213, R424): causes 1 the stream is gone, 2 the seed is replaced. -/
def State.switchStreams (u s : State) : State :=
  let new := streamsOf s.prog.force
  let seeds := seedsOf s.prog.force
  let s := s.over s.joined (fun s i =>
    let e := s.subEntry i
    let x := s.sub i
    if x.seed then
      if seeds.any (sameEntry e) && new.contains (eStream e) then s
      else s.subLeave i (if new.contains (eStream e) then 2 else 1)
    else if new.contains (eStream e) then s
    else s.subLeave i 1)
  let gone := (streamsOf u.prog.force).filter (fun k => !new.contains k)
  let s : State := { s with stm := { s.stm with streams := s.stm.streams.filter (fun e => !gone.contains e.1) } }
  let s := s.over new (fun s k => s.when (s.stream? k).isNone (·.setStream k {}))
  s.over seeds (fun s e =>
    if s.joined.any (fun i => (s.sub i).seed && sameEntry (s.subEntry i) e) then s
    else match s.freeSub with
      | some i => s.subJoin i e true
      | none => s)

/-- Renderer p clears its cells when its channel, column mapping or level mapping changes (R213, R368). -/
def State.switchOpal (u s : State) (p : Nat) : State :=
  if u.movedFld s OPL_CFG.CHANNEL p || u.movedFld s OPL_CFG.CLAMP p || u.moved s .OPL_MAP p ||
      u.moved s .OPL_LEVEL_BOT p || u.moved s .OPL_LEVEL_STEP p then
    let o := s.opal p
    s.setOpal p ({ o with
      cells := [], lastSeq := if u.movedFld s OPL_CFG.CHANNEL p then none else o.lastSeq } : Opal).snap
  else s

/-- A base address that DISPLAY gives is committed (R379). -/
def State.switchScan (u s : State) (d : Nat) : State :=
  s.when (u.moved s .VID_BASE d) (fun s => s.baseCommit d (s.fld VID_BASE.ADDR d))

/-- Retrievals of other modules whose results leave by port p end with PWR_ABORT, and the completion says so: those in
progress, and those whose pieces are on the way (R314, R543). -/
def State.fabRtvAbort (s : State) (p : Nat) : State :=
  let out := fun (dst req : Nat) => s.nextHop s.fabAddr dst (req % 65536) == some p
  let ended := fun (j : Job) => match j.kind with
    | .retrieval req _ (some m) => out m req
    | _ => false
  let js := s.trg.jobs.filter ended
  let s : State := { s with
    trg := { s.trg with jobs := s.trg.jobs.filter (fun j => !ended j) }
    fab := { s.fab with xfers := s.fab.xfers.map (fun x =>
      if out x.dst x.req && x.off < x.data.length then
        { x with data := x.data.take x.off, entry := x.entry.take 8 ++ [6] ++ x.entry.drop 9 }
      else x) } }
  s.over js (fun s j =>
    let j := { j with status := if 1 < j.status then j.status else 6, cut := match j.cut with | some t => some t | none => s.cutTime j }
    match j.kind with
    | .retrieval req _ (some m) => s.startXfer m req [] (s.completionEntry j)
    | _ => s)

/-- Does subscriber i send by port p: an Ethernet subscriber of the port, or a FABRIC subscriber whose next hop it is? -/
def State.subOnPort (s : State) (i p : Nat) : Bool :=
  let e := s.subEntry i
  if eKind e = kFAB then s.nextHop s.fabAddr (eRing e % 4096) (eStream e) == some p
  else (eKind e == kETH4 || eKind e == kETH6) && ePort e == p

/-- A port whose MODE changes drains, drops its link and trains in the new mode: items being sent on it are aborted and
count as drops, and retrievals by it end with PWR_ABORT (R442, R543; the 100 µs of the drain are those of log entry 107). -/
def State.switchPort (u s : State) (p : Nat) : State :=
  if !u.movedFld s FAB_PORT_CFG.MODE p then s
  else
    let s := s.over s.joined (fun s i =>
      let x := s.sub i
      if s.subOnPort i p && x.sent.isSome then
        s.skipTo i (match s.nextItem i with | some t => t.start + t.size | none => x.rd)
      else s)
    let s := s.when (u.fld FAB_PORT_CFG.MODE p == 1) (·.fabRtvAbort p)
    if s.fld FAB_PORT_CFG.MODE p = 0 then s.linkDrop p else s.linkRetrain p 2

/-- The links whose cost a commit changes are told to the fabric in a new LSA (R451). -/
def State.switchCosts (u s : State) : State :=
  s.when ((List.range 6).any (fun p => u.movedFld s FAB_PORT_CFG.COST p && s.portState p == 3)) (·.newLsa)

/-- A log set starts where EN becomes 1 and stops where it becomes 0 (R439). -/
def State.switchSet (u s : State) (n : Nat) : State :=
  let was := u.flag NVM_SET_CFG.EN n
  let is := s.flag NVM_SET_CFG.EN n
  if was == is then s else if is then s.beginSet n else s.stopSet n

/-! ## Tiles (R205, R210 to R214, R274, R275) -/

/-- The parameter words that tile n of group g has staged: those that the host wrote, over the whole new bank when the
group's PARAM_BANK section differs. -/
def stagedParams (u : State) (g : Nat) : Table Nat Nat :=
  let host := (u.prog.params.filter (fun e => e.1 / 256 == g)).map (fun e => (e.1 % 256, e.2))
  if findSection u.prog.staged 0xA g = findSection u.prog.force 0xA g then host
  else
    let bank := (bankOf u.prog.staged g).1
    let merged := overBank bank host
    (List.range 256).map (fun p => (p, Table.getD merged p 0))

/-- The LV and pair bitmaps of group g after the switch point, for a tile with those of t (R197). -/
def paramMaps (u : State) (t : Tile) (g : Nat) : Nat × Nat :=
  if findSection u.prog.staged 0xA g = findSection u.prog.force 0xA g then (t.lvMap, t.pairMap)
  else (bankOf u.prog.staged g).2

/-- Tile n, which serves group g, at the switch point with sample w: it reloads, or continues, halted or not, when the
block with w arrives; in REPLAY it does so at t_B (R210, R211). -/
def State.switchTile (u s : State) (n g w : Nat) (reload : Bool) : State :=
  let t := s.tile n
  let maps := paramMaps u t g
  let s := s.setTile n { t with
    swDue := some w, reload := reload, gtTaken := false, startAt := if reload then none else t.startAt
    ladder := t.ladder && !reload, pStaged := stagedParams u g
    lvMap := maps.1
    pairMap := maps.2 }
  s.when (s.mode (g / 8) == 7) (·.tileSwitch n w)

/-- Group g of an octant that is disabled or in SERV needs no tile: the tiles that it has are freed, and a migration of
it ends (R252, R274, R275). -/
def State.switchIdle (u s : State) (g : Nat) : State :=
  let d := g / 32
  let mine := match Table.get? s.pan.migs d with
    | some m => m.group == g
    | none => false
  let s := (s.when mine (·.setMig d none)).over (s.tilesOf g) (fun s n => s.tileFreed n g)
  let s := s.setProg (fun p => { p with late := p.late.filter (· != g) })
  s.slotTake g (stagedParams u g) (paramMaps u (s.tile (groupSlot g)) g)

/-- Group g of an octant in a mode that needs tiles, with its switch-point sample w: its tiles reload or continue; where
it has none, a free tile starts its program, and with no free tile it waits for one (R210, R211, R214, R252). -/
def State.switchLive (u s : State) (g w : Nat) : State :=
  let new := s.tilesOf g == []
  let s := s.when new (·.groupTakes g (w / 80))
  let tiles := (s.tilesOf g).filter (fun n => !(s.pan.migs.any (fun m => m.2.old == n) && !(s.tile n).runs))
  let s := s.over tiles (fun s n => u.switchTile s n g w (new || u.groupReloads s g))
  if tiles != [] then s.setProg (fun p => { p with late := p.late.filter (· != g) })
  else (s.slotTake g (stagedParams u g) (paramMaps u (s.tile (groupSlot g)) g)).setProg (fun p => { p with late := p.late.filter (· != g) ++ [g] })

/-- The groups of idle octants give up their tiles before the others take theirs. -/
def State.switchGroups (u s : State) (w : Nat → Nat) : State :=
  let s := s.each 64 (fun s g => s.when (!liveMode (s.mode (g / 8))) (u.switchIdle · g))
  s.each 64 (fun s g => if liveMode (s.mode (g / 8)) then u.switchLive s g (w (g / 8)) else s)

/-! ## The device (R206, R218, R219, R274) -/

/-- Every octant is in SERV. -/
def State.allServ (s : State) : Bool := (List.range 8).all (fun k => s.mode k == 8)

/-- The device leaves BOOT, HELD, RUN or SERVICE for RUN or SERVICE; `resume`: by RESUME.  In SERVICE the outputs stop;
in RUN the TOUT pins take their levels; `u` is the state before the boundary (R4).  Outputs that restart do so with
the samples from `bound k` of octant k on (R219). -/
def State.enterRun (u s : State) (resume : Bool) (bound : Nat → Nat) : State :=
  let held := s.dev == .held
  let t : State := { s with dev := if s.allServ then .service else .run, prog := { s.prog with resume := none } }
  let restart := if t.outputsOn && !u.outputsOn then
      ((List.range 8).filter (fun k => t.mode k != 7)).map (fun k => (k, bound k))
    else t.prog.restart.filter (fun e => u.fld SYS_OCT_STAT.RATE_DIV e.1 == t.fld SYS_OCT_STAT.RATE_DIV e.1)
  let t : State := { t with prog := { t.prog with restart := restart } }
  let t := if t.outputsOn then u.toutSync t else t.when u.outputsOn (·.stopOutputs)
  t.when held (·.raise Ev.HELD_EXIT 0 [(0, 1, b2n resume)])

/-- The sections and the registers of the staging bank come into force. -/
def State.takeBank (u : State) : State :=
  let s := u.takeStaged
  let p := u.prog
  let gt := s.staged.foldl (fun t e => Table.insert RegKey.lt t e.1 e.2) p.gtTake
  { s with
    staged := []
    prog := { s.prog with
      force := p.staged, forceInfo := p.stagedInfo, forceImage := p.stagedImage, params := [], origin := [],
      gtTake := gt, commit := none } }

/-- The switch point at t_B; `bound k` is die k's boundary sample, `e` the epoch that begins (R211). -/
def State.switchPoint (u : State) (tB e : Nat) (bound : Nat → Nat) (boot : Bool) : State :=
  let s := u.takeBank
  let s := s.each 8 (fun s k => s.when (u.mode k == 7 && s.mode k != 7) (·.replayEnd k 3))
  let s := u.switchCells s tB
  let s := s.each 8 (fun s k => u.switchDie s k (bound k))
  let s := u.switchStore (u.switchRing s bound)
  let s := u.switchTime (u.switchClk s)
  let s := s.each 16 (fun s i => u.switchTin s i)
  let s := u.switchEpo (u.switchTurn s tB)
  let s := u.switchStreams s
  let s := s.each 17 (fun s p => u.switchOpal s p)
  let s := s.each 2 (fun s d => u.switchScan s d)
  let s := s.each 6 (fun s p => u.switchPort s p)
  let s := (u.switchCosts s).when (u.moved s .FAB_ADDR_CFG 0) (·.fabReaddress)
  let s := s.each 4 (fun s n => u.switchSet s n)
  let s : State := { s with prog := { s.prog with
    switching := true, switchOt := tB, switchAt := s.now, switchEpoch := e } }
  let s := u.switchGroups s (fun k => u.switchSample s k (bound k))
  let s := s.each 68 (fun s n => s.when (s.groupOf n).isNone (·.takeStagedGt n))
  let s := u.enterRun (s.setFlag SYS_PRG_STATUS.HAS_RUN 0 (u.flag SYS_PRG_STATUS.HAS_RUN 0 || s.prog.force != [])) false
    (fun k => u.switchSample s k (bound k))
  let s := (s.when (s.flag SYS_PRG_STATUS.HAS_RUN 0) (·.startRing)).panNext
  (s.when boot (·.bootEnded)).switchDone

end Sys2Proof.Machine
end

