-- ==== Sys2Proof/Machine/Epoch.lean ====
section
/-! DEFINITION. The epoch boundary (R94, R117, R118, R121, R124 to R129, R157, R206, R211, R219). -/

namespace Sys2Proof.Machine

/-- The boundary samples of the dies at t_B (R126). -/
def State.boundsAt (s : State) (tB : Nat) : Table Nat Nat :=
  (List.range 8).foldl (fun t k => Table.set 0 t k (s.sampleAt k tB)) []

/-- The EPOCH anchor of every die for the block that holds its boundary sample, at the time that its marker measured
(`marks`), or, for a die that is down or has no mark, at the predicted time (R121, R126). -/
def State.epochAnchors (s : State) (marks : List Nat) : State :=
  s.each 8 (fun s k =>
    let d := s.die k
    let b := Table.getD s.epoch.bounds k 0 / 80
    let pred := s.sampleTime k (80 * b)
    if d.started then s.anchor anEPOCH k b (if d.down then pred else marks.getD k pred) 0 else s)

/-- A reference that returns by STEP: the tree steps to its phase at a block boundary and is locked; every die gets a
DISCONTINUITY anchor with the jump, and STEP_APPLIED is raised (R94, R610).  Until two gates have found the frequency
locked (R74), the step waits for a later boundary. -/
def State.quartzStep (s : State) (tB : Nat) : State :=
  if s.clk.ret != some .step || s.clk.goodGates < 2 then s
  else
    let jump := toS 32 (s.fld CLK_JUMP.JUMP_PS 0)
    let s := s.clockChange State.returnLocked
    let first := s.blockAt 0 tB
    let s := s.each 8 (fun s k =>
      if (s.die k).started then
        let b := s.blockAt k tB
        s.anchor anDISCONTINUITY k b ((s.sampleTime k (80 * b) : Int) + fsToOt (1000 * jump)).toNat (1000 * jump)
      else s)
    (s.raise Ev.STEP_APPLIED 0 [(0, 4, toU 32 jump), (4, 5, first)]).relockDone

/-- The OT96 step that waits for the boundary: a host set, or the error of the disciplining source (R117, R118).  The
first step of the PTP servo makes the time valid (R430). -/
def State.boundaryStep (s : State) (tB : Nat) : State :=
  if s.flag TDC_TIME_CFG.SET_ARM 0 && s.fld TDC_TIME_CFG.TIME_SRC 0 != 1 then s.applySet tB
  else match s.time.step with
    | some d =>
      let s := s.when (s.fld TDC_TIME_CFG.TIME_SRC 0 == 2) (·.setFlag TDC_STATUS.TIME_VALID 0 true)
      s.otStep d tB false
    | none => s

/-- The type of an epoch (R127). -/
def State.typeOf (s : State) (e : Nat) : Nat :=
  if s.flag EPO_CFG.TYPE_SRC 0 then b2n (s.flag TDC_IN_STAT.LEVEL (s.fld EPO_CFG.TYPE_TIN 0))
  else
    let n := s.fld EPO_CFG.TYPE_LEN 0
    let j := e % (if n = 0 then 16 else n)
    bits (s.reg .EPO_TYPE_SEQ 0).toNat (2 * j + 1) (2 * j)

/-- The commit whose switch point this boundary is (R206): accepted, 100 µs past, and of the epoch asked for. -/
def State.dueCommit (s : State) (tB e : Nat) : Option Commit :=
  match s.prog.commit with
  | some c =>
    let number := match c.epoch with
      | some n => n == e
      | none => true
    let state := s.dev == .boot || s.dev == .held || s.dev == .run || s.dev == .service
    if c.accepted && decide (c.after ≤ tB) && number && state then some c else none
  | none => none

/-- The boundary that begins the epoch asked for falls less than 100 µs after validation ended, or has passed: of an
epoch source that gives no time ahead this shows only now, and the commit is refused (R207, R208). -/
def State.lateCommit (s : State) (tB e : Nat) : State :=
  match s.prog.commit with
  | some c => match c.epoch with
    | some n =>
      if c.accepted && (decide (n < e) || (n == e && decide (tB < c.after))) then
        ((s.setProg (fun p => { p with commit := none })).refuse [headFail 0x23 (n % 2 ^ 32) 0]).enterHeld 1
      else s
    | none => s
  | none => s

/-- RESUME leaves HELD at this boundary (R219). -/
def State.dueResume (s : State) (tB : Nat) : Bool :=
  s.dev == .held && match s.prog.resume with
  | some t => decide (t ≤ tB)
  | none => false

/-- Every tile that serves a group waits for its boundary sample (R157). -/
def State.epochTiles (s : State) : State :=
  s.each 68 (fun s n =>
    match s.groupOf n with
    | some g =>
      if liveMode (s.mode (g / 8)) then
        s.setTile n { s.tile n with epDue := some (Table.getD s.epoch.bounds (g / 8) 0) }
      else s
    | none => s)

/-- The boundary at t_B, in the order: the counters and the page; the anchors; a Quartz step and an OT96 step; the switch
point or RESUME; the new epoch's type; the combiner's event and the tiles' EPOCH. -/
def State.boundary (s : State) (tB : Nat) (marks : List Nat) : State :=
  let s := s.epochLatch tB
  let e := (s.epoch.num + 1) % 2 ^ 64
  let bounds := s.boundsAt tB
  let s : State := { s with epoch := { s.epoch with
    num := e, lastOt := tB, lastCycle := s.now, announced := none, forced := false, stepped := false, bounds := bounds } }
  let s := (s.epochAnchors marks).quartzStep tB
  let before := s.time.ot
  let s := s.boundaryStep tB
  let label := ((tB : Int) + s.time.ot - before).toNat
  let s : State := { s with epoch := { s.epoch with lastOt := label } }
  let s := s.lateCommit tB e
  let s := match s.dueCommit tB e with
    | some c => s.switchPoint tB e (fun k => Table.getD bounds k 0) c.boot
    | none => if s.dueResume tB then s.enterRun s true (fun k => Table.getD bounds k 0) else s
  let s : State := { s with epoch := { s.epoch with type := s.typeOf e } }
  (s.combEvent 0xE00 label (fun _ => true)).epochTiles

/-- EPOCH_BOUNDARY: device time reaches the announced boundary (R124 to R129).  `marks` are the measured times of sample
0 of each die's boundary block. -/
def execEpochBoundary (marks : List Nat) (s : State) : Res :=
  .next (match s.epoch.announced with
  | some t => if t ≤ s.time.ot then s.boundary t marks else s
  | none => s)

end Sys2Proof.Machine
end

