-- ==== Sys2Proof/Machine/Views.lean ====
section
/-! DEFINITION. What a control register reads as: the fields in force, and the live views of state that has its home
outside the registers. -/

namespace Sys2Proof.Machine

/-! ## Parts of a word -/

/-- The bits of the fields of one access type. -/
def Reg.bitsOf (r : Reg) (a : Acc) : Nat := r.mask (fun x => x == a)

/-- The low words whose read captures the other words of their value (R11 and the register tables): the first
instance of the high word and how many words are captured. -/
def Reg.captures (r : Reg) (i : Nat) : List RegKey :=
  match r with
  | .CNV_SEQ_LO => [(.CNV_SEQ_HI, i)]
  | .EPO_NUM_LO => [(.EPO_NUM_HI, i)]
  | .EPO_TURN_BASE_LO => [(.EPO_TURN_BASE_HI, i)]
  | .TRG_IDX_NEXT_LO => [(.TRG_IDX_NEXT_HI, i)]
  | .CEL_LOSS_NEXT_LO => [(.CEL_LOSS_NEXT_HI, i)]
  | .CEL_ANCHOR_NEXT_LO => [(.CEL_ANCHOR_NEXT_HI, i)]
  | .CEL_HEAD_LO => [(.CEL_HEAD_HI, i)]
  | .CEL_FLOOR_LO => [(.CEL_FLOOR_HI, i)]
  | .VID_FRAME_LO => [(.VID_FRAME_HI, i)]
  | .DMA_CH_CUR_LO => [(.DMA_CH_CUR_HI, i)]
  | .STM_FIRST_SEQ_LO => [(.STM_FIRST_SEQ_HI, i)]
  | .TDC_OT_CAP => if i = 0 then [(.TDC_OT_CAP, 1), (.TDC_OT_CAP, 2), (.TDC_OT_CAP, 3)] else []
  | .VID_FLIP_TS =>
    if i % 4 = 0 then [(.VID_FLIP_TS, i + 1), (.VID_FLIP_TS, i + 2), (.VID_FLIP_TS, i + 3)] else []
  | _ => []

/-- The words that read as the last read of their low word captured them. -/
def Reg.captured (r : Reg) (i : Nat) : Bool :=
  match r with
  | .CNV_SEQ_HI | .EPO_NUM_HI | .EPO_TURN_BASE_HI | .TRG_IDX_NEXT_HI | .CEL_LOSS_NEXT_HI | .CEL_ANCHOR_NEXT_HI
  | .CEL_HEAD_HI | .CEL_FLOOR_HI | .VID_FRAME_HI | .DMA_CH_CUR_HI | .STM_FIRST_SEQ_HI => true
  | .TDC_OT_CAP => i != 0
  | .VID_FLIP_TS => i % 4 != 0
  | _ => false

/-- Word w of a time stamp as TDC_OT_CAP shows it: fraction in words 0 and 1, seconds in words 2 and 3. -/
def otWord (ot w : Nat) : Nat :=
  match w with
  | 0 => ot % 2 ^ 32
  | 1 => ot / 2 ^ 32 % 2 ^ 16
  | 2 => ot / 2 ^ 48 % 2 ^ 32
  | _ => ot / 2 ^ 80 % 2 ^ 16

/-- The low or the high word of a 64-bit value. -/
def halfWord (v : Nat) (hi : Bool) : Nat := if hi then v / 2 ^ 32 % 2 ^ 32 else v % 2 ^ 32

/-! ## Views of the units -/

/-- SYS_PRG_STATUS.STATE. -/
def DevState.prgCode (d : DevState) : Nat :=
  match d with
  | .held => 1
  | .run => 2
  | .service => 3
  | .safe => 4
  | _ => 0

/-- Every section of one bank stands with the same bytes in the other. -/
def sectionsIn (a b : List Section) : Bool := a.all (fun x => b.any (fun y => x.type == y.type && x.inst == y.inst &&
  x.bytes == y.bytes))

/-- A staged copy differs from the value in force (R205). -/
def State.dirty (s : State) : Bool :=
  s.staged.any (fun e =>
    mergeBits (e.1.1.takeMask e.1.2) (s.reg e.1.1 e.1.2).toNat e.2.toNat != (s.reg e.1.1 e.1.2).toNat) ||
  !(sectionsIn s.prog.staged s.prog.force && sectionsIn s.prog.force s.prog.staged) ||
  s.prog.params.any (fun e => Table.getD (s.tile (s.groupTile (e.1 / 256))).params (e.1 % 256) 0 != e.2)

/-- The sequence number of the last closed block of die k. -/
def State.lastClosed (s : State) (k : Nat) : Nat := (s.die k).count - 1

/-- CNV_STATUS of die k. -/
def State.cnvStatus (s : State) (k : Nat) : Nat :=
  let cs := (List.range 32).map (32 * k + ·)
  let lane := fun (l : Nat) => cs.any (fun c => s.fld CNV_CH_ROUTE.SERVING c == l + 1 || s.fld CNV_CH_ROUTE.SHADOW c == l + 1)
  16 * b2n (cs.any (fun c => (s.flag CNV_CH_ROUTE.STALE_NOW c))) + 8 * b2n (lane 1) + 4 * b2n (lane 0) + s.clkq k

/-- The trims of slice u: those of the range of the channel that it serves or runs for; of range 1 when there is none. -/
def State.trimWordOf (s : State) (u : Nat) : Nat :=
  let e := s.calEntry u
  match s.sliceChan (u / 34) (u % 34) with
  | some c => match s.fld CNV_CH_CFG.RANGE c with
    | 0 => e.r0
    | 1 => e.r1
    | _ => e.r2
  | none => e.r1

/-- CAL_DIE_STAT.PHASE: 5 while a run waits for a quiet window (R484). -/
def State.calPhase (s : State) (k : Nat) : Nat :=
  match (s.calDie k).cur with
  | some c => c.phase
  | none =>
    let confined := fun (j : CalJob) => j.task == .run && (match s.calWay k j with
      | .hold .. => true
      | .hitless _ => s.flag CAL_QUIET.ALL 0
      | .inPlace => false)
    if !s.quietNow && (s.calDie k).queue.any confined then 5 else 0

/-- CAL_DIE_STAT of die k. -/
def State.calStat (s : State) (k : Nat) : Nat :=
  let slice := match (s.calDie k).cur with
    | some c => c.job.slice
    | none => 0
  let suspects := ((List.range 34).filter (fun sl => s.flag CNV_SL_STATE.SUSPECT (34 * k + sl))).length
  s.freeSlices k * 2 ^ 30 + satU 6 (s.calDie k).queue.length * 2 ^ 24 + s.calPhase k * 2 ^ 21 + suspects * 2 ^ 8 + slice

/-- GT_STATUS of a tile. -/
def Tile.status (t : Tile) : Nat :=
  t.haltCause * 2 ^ 24 + t.evp % 64 * 2 ^ 12 + t.calls.length * 2 ^ 6 + t.reps.length * 2 ^ 3 + t.state

/-- The unit counts of PAN_SPARES: units of kind k, free ones and retired ones (R496). -/
def State.spares (s : State) (k : Nat) : Nat × Nat :=
  let count := fun (n : Nat) => (((List.range n).filter (fun u => s.role k u == roFREE)).length,
    ((List.range n).filter (fun u => s.role k u == roRETIRED)).length)
  match k with
  | 0 => count 272
  | 1 => count 68
  | 2 => count 17
  | 3 => (((List.range 8).filter (fun i => s.reserveRole (136 + i) == roFREE)).length,
      ((List.range 128).filter (fun h => s.memRole h == roRETIRED)).length)
  | 4 => count 30
  | 5 => count 9
  | 6 => (s.pan.sample.atticFree, s.pan.sample.atticRetired)
  | 7 => (32 - s.pan.csUsed.foldl (fun m e => max m e.2) 0, s.pan.csUsed.foldl (fun n e => n + e.2) 0)
  | _ => (s.spareMin, s.cel.rows.foldl (fun n e => n + e.2) 0)

/-- PAN_MOVE: the progress of a copy is a free value. -/
def State.panMove (s : State) : Nat :=
  match s.pan.move with
  | none => 0
  | some m => 2 ^ 31 + m.hpc * 2 ^ 24 + (m.reserve - 136) * 2 ^ 20 +
      Config.free "progress of a memory move" [(m.hpc : Nat), (s.now : Nat)] 0 % 1001

/-- PAN_ASK: the oldest request. -/
def State.panAsk (s : State) : Nat :=
  match s.pan.asks with
  | [] => 0
  | a :: _ => 2 ^ 31 + a.kind % 16 * 2 ^ 24 + s.pan.asks.length * 2 ^ 16 + a.unit % 2 ^ 16

/-- PWR_STATUS.PHASES_B while a move runs: group g has moved 250 ns × g after its start (R533). -/
def State.phasesB (s : State) : Nat :=
  match s.pwr.move with
  | none => s.fld PWR_STATUS.PHASES_B 0
  | some m =>
    let moved := 6 * min 16 ((s.now - m.since) / 400 + 1)
    if m.dest = 1 then moved else 96 - moved

/-- SEC_STATUS. -/
def State.secStatus (s : State) : Nat :=
  let x := s.sec
  let policy := match x.owner with
    | some o => o.policy
    | none => 0
  x.fwSvn % 256 * 2 ^ 24 + x.ownerSeq % 32 * 2 ^ 19 + x.bootsel % 8 * 2 ^ 16 + x.running.getD 0 % 4 * 2 ^ 14 + x.tries % 4 * 2 ^ 12 +
    2 ^ 11 * b2n x.osReady + 2 ^ 10 * b2n x.owner.isSome + 2 ^ 9 * b2n (bit x.bootsel 2) + 2 ^ 8 * b2n x.trngOk + policy % 4

/-- SYS_RCV_STAT.HOLD_LEFT: while the count of R575 runs, the seconds left; 0xFFFF after HOLD. -/
def State.holdLeft (s : State) : Nat :=
  if s.dev != .safe then 0
  else match s.rcv.safeAt with
    | none => 0xFFFF
    | some t =>
      if s.flag SYS_RCV_CFG.SAFE_AUTO 0 then
        satU 16 ((t + s.fld SYS_RCV_CFG.SAFE_HOLD_S 0 * sCycles - s.now) / sCycles)
      else 0

/-- OPL_STAT of a renderer. -/
def State.oplStat (s : State) (p : Nat) : Nat :=
  let code := fun (i : Nat) =>
    let b := Table.getD (s.opal p).bufs i {}
    if b.writing then 1 else if b.free (s.showsPhys p) then 0 else if b.front != [] || b.retiring != [] then 3 else 2
  256 * b2n (Table.get? s.held (.OPL_LEVEL_BOT, p)).isSome + code 0 + 4 * code 1 + 16 * code 2 + 64 * code 3

/-- TRG_DEF_STAT of a definition: a segment counts from its trigger to the close of its record. -/
def State.defStat (s : State) (d : Nat) : Nat :=
  let made := s.trg.jobs.filter (fun j => j.kind == .segment d)
  satU 16 ((s.def_ d).segs.length + made.length) * 2 ^ 16 + 8 * b2n (s.segOpen d) + min 7 (s.def_ d).queue.length

/-- One word of a 32-byte digest, byte 4n in [7:0]. -/
def digestWord (b : List Byte) (n : Nat) : Nat := le b (4 * n) 4

/-! ## The value of a register (R9, R11) -/

/-- What the RO fields of a register show where their home is elsewhere; other fields as they stand. -/
def State.live (s : State) (r : Reg) (i : Nat) : Nat :=
  let v := (s.reg r i).toNat
  match r with
  | .EVQ_STATUS => withBits v 0 0 (b2n s.evqFull)
  | .CNV_CTRL => withBits v 3 2 (2 * b2n (s.hubCopy i) + b2n (s.anaCopy i))
  | .CNV_STATUS => s.cnvStatus i
  | .CNV_SEQ_LO => halfWord (s.lastClosed i) false
  | .CNV_SEQ_HI => halfWord (s.lastClosed i) true
  | .CNV_SL_TRIM_A => s.trimWordOf i
  | .CNV_SL_TRIM_B => (s.calEntry i).term
  | .CLK_TCLK_INT => s.tileWord / 2 ^ 32 % 512
  | .CLK_TCLK_FRAC => s.tileWord % 2 ^ 32
  | .TDC_OT_CAP => otWord s.ot96 i
  | .TDC_IN_STAT => withBits v 3 3 (b2n (s.tin i).conv)
  | .EPO_NUM_LO => halfWord s.epoch.num false
  | .EPO_NUM_HI => halfWord s.epoch.num true
  | .GT_ID => s.groupCh i * 256 + 128 * b2n (decide (34 ≤ i)) + i
  | .GT_STATUS => (s.tile i).status
  | .GT_PC => (s.tile i).pc
  | .GT_XRX_STAT =>
    let x := Table.getD (s.tile (i / 4)).xrings (i % 4) {}
    (if s.atWaitx (i / 4) (i % 4) then 0 else x.claimed) * 2 ^ 15 + x.fill
  | .GT_NCO_STAT => b2n (Table.get? s.held (.GT_NCO_FLO, i)).isSome
  | .SYS_PRG_STATUS =>
    withBits (withBits v 7 7 (b2n s.dirty)) 3 0 (8 * b2n s.prgBusy + s.dev.prgCode)
  | .TRG_PIN_USED => s.pinUsed / 1024
  | .TRG_IDX_NEXT_LO => halfWord s.trg.idxNext false
  | .TRG_IDX_NEXT_HI => halfWord s.trg.idxNext true
  | .TRG_DEF_STAT => s.defStat i
  | .CEL_STATUS => withBits v 11 8 s.cel.asleep
  | .CEL_REPAIR => withBits (withBits v 31 24 s.spareMin) 11 0 (if s.cel.softOn then satU 12 s.cel.soft.length else 0)
  | .CEL_DIAG_ADDR => (Table.getD s.cel.diag (s.fld CEL_DIAG_SEL.HPC 0) (0, 0)).1
  | .CEL_DIAG_SYND => (Table.getD s.cel.diag (s.fld CEL_DIAG_SEL.HPC 0) (0, 0)).2
  | .CEL_LOSS_NEXT_LO => halfWord s.cel.lossNext false
  | .CEL_LOSS_NEXT_HI => halfWord s.cel.lossNext true
  | .CEL_ANCHOR_NEXT_LO => halfWord s.cel.anchorNext false
  | .CEL_ANCHOR_NEXT_HI => halfWord s.cel.anchorNext true
  | .CEL_HEAD_LO => halfWord (s.die i).head false
  | .CEL_HEAD_HI => halfWord (s.die i).head true
  | .CEL_FLOOR_LO => halfWord (s.die i).floor false
  | .CEL_FLOOR_HI => halfWord (s.die i).floor true
  | .LND_STATUS => withBits v 0 0 (b2n (s.dev != .boot && s.dev != .standby && s.dev != .off && s.gateOpen))
  | .LND_FILL => s.landFill / 1024
  | .OPL_ID => (match s.oplLogical i with | some l => l | none => 31) * 256 + i
  | .OPL_STAT => s.oplStat i
  | .VID_LAT_TOL => s.latTol i
  | .VID_STATUS => withBits v 31 31 (b2n (Table.get? s.held (.VID_SIZE_W, i)).isSome)
  | .DMA_STATUS => (List.range 32).foldl (fun n c =>
      n + 2 ^ c * b2n ([dmRUNNING, dmDRAINING, dmSTOPPING].contains (s.fld DMA_CH_STAT.STATE c))) 0
  | .CAL_DIE_STAT => s.calStat i
  | .PAN_ASK => s.panAsk
  | .PAN_SPARES => satU 16 (s.spares i).1 * 2 ^ 16 + satU 16 (s.spares i).2
  | .PAN_MOVE => s.panMove
  | .PWR_STATUS =>
    withBits (withBits (withBits (withBits v 31 29 s.dev.code) 28 28 (b2n (s.dma.draining != []))) 22 16 s.phasesB)
      8 8 (b2n s.returnPend)
  | .SEC_STATUS => s.secStatus
  | .SEC_DBG_STAT => satU 16 ((s.sec.lifeEnd - s.now) / sCycles) * b2n (s.sec.scope != 0) * 2 ^ 16 + s.sec.scope
  | .SEC_FW_DIGEST => digestWord (s.slotDigest (i / 8)) (i % 8)
  | .SYS_RCV_STAT => withBits v 31 16 s.holdLeft
  | _ => v

/-- The value that a read of a register instance returns: WO fields read 0, captured words as they were captured
(R11). -/
def State.regValue (s : State) (r : Reg) (i : Nat) : Nat :=
  let v := if r.captured i then (Table.getD s.capt (r, i) 0).toNat else s.live r i
  v % 2 ^ 32 - (v % 2 ^ 32 &&& r.bitsOf .WO)

/-- A read of a register: RC fields clear, and a low word captures the words above it (R11, R13).  A read of
PCI_CFG_DATA in root-port role performs a configuration access, whose answer is free here (R411).  LND_PEAK goes on from
the fill at the read (R360). -/
def State.readReg (s : State) (r : Reg) (i : Nat) : Nat × State :=
  if r = .PCI_CFG_DATA && s.rootPort i then
    let (x, s) := s.draw "result of a configuration access" [(i : Nat)]
    let (d, s) := s.draw "data of a configuration access" [(i : Nat)]
    let v := if x % 4 = 0 then d % 2 ^ 32 else 0xFFFFFFFF
    (v, (s.setReg r i (BitVec.ofNat 32 v)).cfgResult i (x % 4))
  else
    let v := s.regValue r i
    let s' := s.over (r.captures i) (fun t k =>
      { t with capt := Table.put RegKey.lt 0 t.capt k (BitVec.ofNat 32 (s.live k.1 k.2)) })
    let rc := r.bitsOf .RC
    let t := s'.when (rc != 0) (fun t => t.setReg r i (BitVec.ofNat 32 (mergeBits rc (t.reg r i).toNat 0)))
    (v, t.when (r = .LND_PEAK) (·.setFld LND_PEAK.KIB 0 (s.landFill / 1024)))

end Sys2Proof.Machine
end

