-- ==== Sys2Proof/Machine/HostAccess.lean ====
section
/-! DEFINITION. Accesses of the host: reads and writes of the control registers and of the address space, on Hearth,
through the BARs of a PCIe endpoint and through the CZ control protocol (R8 to R13, R27, R28, R33, R34, R118, R409,
R566, R606, R608). -/

namespace Sys2Proof.Machine

/-! ## What lies at an address (R27, R28, R606) -/

/-- What an access reaches: a register, a word of the history window (R359), a parameter word of a tile (R217), a word
of CAL_SET or CAL_HOST (R487), memory that may be written, read-only memory, or program memory, control store or data
memory of a tile. -/
inductive Target where
  | reg (k : RegKey)
  | history (w : Nat)
  | param (n p : Nat)
  | calSet (w : Nat)
  | calHost (w : Nat)
  | memory
  | readOnly
  | tileMem (n : Nat)
deriving DecidableEq, Repr

/-- The word of a window of `len` bytes at `b` that lies at address a. -/
def windowWord (a b len : Nat) : Option Nat := if within a 4 b len then some ((a - b) / 4) else none

/-- The control word at an aligned address: of a window, or a register; none where no register lies (R606). -/
def controlAt (a : Nat) : Option Target :=
  match windowWord a (Block.CEL.base 0 + 0x1000) 0x1000 with
  | some w => some (.history w)
  | none => match windowWord a (Block.CAL.base 0 + 0x1000) (272 * 16) with
    | some w => some (.calSet w)
    | none => match windowWord a (Block.CAL.base 0 + 0x3000) (272 * 16) with
      | some w => some (.calHost w)
      | none =>
        let n := (a - Block.GT.base 0) / 0x01000000
        match (if n < 68 then windowWord a (Block.GT.base n + 0x400) 1024 else none) with
        | some p => some (.param n p)
        | none => (regAt a).map .reg

/-- Is the address in the control-register region, or in the GT block of a tile window? -/
def isControl (a : Nat) : Bool :=
  within a 1 0x004000000000 0x480000 ||
  (within a 1 0x003000000000 (68 * 0x01000000) && decide (0xF00000 ≤ a % 0x01000000))

/-- What an access to [a, a+len) reaches; none completes with a bus error (R8, R27, R28, R606). -/
def targetOf (a len : Nat) : Option Target :=
  if isControl a then (if len = 4 && a % 4 = 0 then controlAt a else none)
  else if inCellar a len || inSystem a len then some .memory
  else if inReadOnly a len then some .readOnly
  else (tileAt a len).map .tileMem

/-! ## Rings of the host (R33, R34, R608) -/

/-- The writes of event entries that are issued complete. -/
def State.evqComplete : Nat → State → State
  | 0, s => s
  | n + 1, s =>
    if s.evq.inFlight == [] then s
    else State.evqComplete n
      (if s.poisonedRange (s.evqBase + 32 * s.fld EVQ_TAIL.TAIL 0) 32 then s.evqAckErr else s.evqAckOk)

/-- ENABLE is cleared: issued writes complete, then TAIL and HEAD become 0 (R608). -/
def State.evqOff (s : State) : State :=
  let s := s.evqComplete s.evq.inFlight.length
  ((s.setFlag EVQ_CTRL.ENABLE 0 false).setFld EVQ_TAIL.TAIL 0 0).setFld EVQ_HEAD.HEAD 0 0

/-- ENABLE is set: the queue must lie in system memory; the held events are written first (R35, R608). -/
def State.evqOn (s : State) : State :=
  if s.evqInSystem then (s.setFlag EVQ_CTRL.ENABLE 0 true).evqFlush 256 else s

/-- A write of EVQ_CTRL. -/
def State.evqCtrl (s : State) (v : Nat) : State :=
  let was := s.flag EVQ_CTRL.ENABLE 0
  let s := (s.setFld EVQ_CTRL.IRQ_THRESHOLD 0 (bits v 15 8)).setFlag EVQ_CTRL.IRQ_EN 0 (bit v 1)
  if was && !bit v 0 then s.evqOff else if !was && bit v 0 then s.evqOn else s

/-- A write of EVQ_HEAD: a value outside HEAD to TAIL is ignored (R33); held events follow into the room that it
makes. -/
def State.evqHead (s : State) (v : Nat) : State :=
  if headOk s.evqEntries (s.fld EVQ_HEAD.HEAD 0) (s.fld EVQ_TAIL.TAIL 0) v then
    let s := s.setFld EVQ_HEAD.HEAD 0 v
    s.when (s.flag EVQ_CTRL.ENABLE 0) (·.evqFlush 256)
  else s

/-- The host moves the HEAD of a device-written ring; a value outside HEAD to TAIL is ignored (R34). -/
def State.ringHead (s : State) (head tail : Fld) (n v : Nat) : State :=
  if headOk n (s.fld head 0) (s.fld tail 0) v then s.setFld head 0 v else s

/-- The base register of a ring: BASE_HI; SIZE_LOG2 unless the ring is enabled; ENABLE.  Answers whether ENABLE was
cleared. -/
def State.ringSetup (s : State) (en size base : Fld) (v : Nat) : Bool × State :=
  let was := s.flag en 0
  let s := s.setFld base 0 (bits v base.hi base.lo)
  let s := s.when (!was) (·.setFld size 0 (bits v size.hi size.lo))
  (was && !bit v 31, s.setFlag en 0 (bit v 31))

/-- The Jasper ring is switched off: its issued writes complete, then TAIL and HEAD become 0. -/
def State.jasperOff (s : State) : State :=
  let s := s.each s.jasper.inFlight.length (fun s _ =>
    s.jasperAck (s.poisonedRange (s.jasperBase + 32 * s.fld TDC_RING_PTR.TAIL 0) 32))
  s.setReg .TDC_RING_PTR 0 0

/-! ## Writes of registers (R11) -/

/-- An ST value of the host goes to the staging bank (R205). -/
def State.stageHost (s : State) (k : RegKey) (v : Nat) : State :=
  let s := s.stage k.1 k.2 (BitVec.ofNat 32 (mergeBits (k.1.stMask k.2) (s.stagedReg k.1 k.2).toNat v))
  { s with prog := { s.prog with origin := Table.erase s.prog.origin k } }

/-- The RW, W1C and ST fields of a register take a written word by their types (R11). -/
def State.writeFields (s : State) (r : Reg) (i v : Nat) : State :=
  let rw := r.rwMask i
  let w1c := r.bitsOf .W1C
  let old := mergeBits rw (s.reg r i).toNat v
  let s := s.when (rw ||| w1c != 0) (·.setReg r i (BitVec.ofNat 32 (old - (old &&& (v &&& w1c)))))
  s.when (r.stMask i != 0) (·.stageHost (r, i) v)

/-- Bytes that a PCIe host answers and that a command without them leaves free. -/
def freeBytes (kind : String) (n free : Nat) : List Byte :=
  (List.range n).map (fun (i : Nat) => BitVec.ofNat 8 (Config.free kind [(i : Nat)] free))

/-- A write of CAL_CMD (R475, R486 to R491). -/
def State.calCmd (s : State) (v : Nat) : State :=
  let k := bits v 11 8
  let sl := bits v 5 0
  let named := decide (k < 8) && decide (sl < 34)
  let whole := bit v 26
  match bits v 31 28 with
  | 1 => s.when named (·.calRunCmd k sl)
  | 2 => s.when (decide (k < 8)) (·.calRunDieCmd k)
  | 3 => s.when (decide (k < 8) && (whole || decide (sl < 34))) (·.calApply k sl whole)
  | 4 => s.calExport (bit v 27)
  | 5 => s.calImport
  | 6 => s.calCommit
  | 7 => s.when named (·.calClearSuspect k sl)
  | 8 => s.when (decide (k < 8) && (whole || decide (sl < 34))) (·.calCopy k sl whole)
  | _ => s

/-- A write of PAN_CMD (R526). -/
def State.panCmd (s : State) (v : Nat) : State :=
  let kind := bits v 27 24
  let unit := bits v 15 0
  match bits v 31 28 with
  | 1 => s.panApprove kind unit
  | 2 => s.panDecline kind unit
  | 3 => s.panSwap kind unit
  | 4 => s.panRotate kind unit
  | 5 => s.panRetire kind unit
  | _ => s

/-- A write of PWR_CMD (R535, R537, R539, R542). -/
def State.pwrCmd (s : State) (v : Nat) : State :=
  match bits v 31 28 with
  | 1 => s.pwrReturnA
  | 2 => s.pwrForceB
  | 3 => s.pwrStandby (bit v 27)
  | 4 => s.pwrWake
  | 5 => s.powerCycle 3
  | _ => s

/-- A write of SYS_RCV_CMD (R575, R580). -/
def State.rcvCmd (s : State) (v : Nat) : State :=
  match bits v 31 28 with
  | 1 => s.rcvHold
  | 2 => s.rcvWarm
  | 3 => s.powerCycle 3
  | _ => s

/-- A write of CEL_FREEZE_CMD; a channel that is not frozen is ignored (R355). -/
def State.freezeCmd (s : State) (v : Nat) : State :=
  match bits v 9 8 with
  | 1 => s.pcReleased (bits v 6 0)
  | 2 => s.pcRetired (bits v 6 0)
  | _ => s

/-- A write of STM_CMD (R422, R423). -/
def State.stmCmd (s : State) (v : Nat) : State :=
  match bits v 31 28 with
  | 1 => s.stmJoin
  | 2 => s.stmLeave (bits v 7 0) (bits v 23 8)
  | _ => s

/-- A write of DMA_CH_CTRL: DSPACE only in IDLE and HALTED, IRQ_EN, then START and STOP (R402). -/
def State.dmaCtrl (s : State) (c v : Nat) : State :=
  let st := s.fld DMA_CH_STAT.STATE c
  let s := s.when (st = dmIDLE || st = dmHALTED) (·.setFld DMA_CH_CTRL.DSPACE c (bits v 29 28))
  let s := s.setFlag DMA_CH_CTRL.IRQ_EN c (bit v 0)
  (s.when (bit v 31) (·.dmaStart c)).when (bit v 30) (·.dmaStop c)

/-- A write of PCI_CFG_DATA; in root-port role it performs a configuration access, whose result is free here (R411). -/
def State.cfgWrite (s : State) (p v : Nat) : State :=
  let s := s.setReg .PCI_CFG_DATA p (BitVec.ofNat 32 v)
  if s.rootPort p then
    let (x, s) := s.draw "result of a configuration access" [(p : Nat)]
    (s.cfgResult p (x % 4)).emit (.send (.pcie p) [(s.reg .PCI_CFG_ADDR p).toNat] (leBytes 4 v))
  else s

/-- FAB_RX_BASE_HI: clearing ENABLE zeroes WP and RD and ends what waits to be written again; with ENABLE credit is
granted (R466, R468). -/
def State.rxBaseWrite (s : State) (v : Nat) : State :=
  let (off, s) := s.ringSetup FAB_RX_BASE_HI.ENABLE FAB_RX_BASE_HI.SIZE_LOG2 FAB_RX_BASE_HI.BASE_HI v
  if off then
    let s : State := { s with fab := { s.fab with rxHeld := [] } }
    (s.setReg .FAB_RX_WP 0 0).setReg .FAB_RX_RD 0 0
  else s.grantAll

/-- A control word of register instance (r, i) takes a written value: the fields by their access types, and what the
register's own table and rules say of a write. -/
def State.writeReg (s : State) (r : Reg) (i v : Nat) : State :=
  match r with
  | .EVQ_BASE_LO | .EVQ_BASE_HI => s.when (!s.flag EVQ_CTRL.ENABLE 0) (·.writeFields r i v)
  | .EVQ_SIZE =>
    s.when (!s.flag EVQ_CTRL.ENABLE 0 && decide (8 ≤ bits v 4 0) && decide (bits v 4 0 ≤ 16)) (·.writeFields r i v)
  | .EVQ_CTRL => s.evqCtrl v
  | .EVQ_HEAD => s.evqHead (bits v 15 0)
  | .TDC_TIME_CFG => (s.writeFields r i v).when (bit v 31) (·.setFlag TDC_TIME_CFG.SET_ARM 0 true)
  | .TDC_CAL => (s.writeFields r i v).when (bit v 0) (·.calNow)
  | .TDC_RING_BASE_HI =>
    let s := s.when (bit v 29) (·.setFlag TDC_RING_BASE_HI.IRQ_PEND 0 false)
    let (off, t) := s.ringSetup TDC_RING_BASE_HI.ENABLE TDC_RING_BASE_HI.SIZE_LOG2 TDC_RING_BASE_HI.BASE_HI v
    (t.when off (·.jasperOff)).setFlag TDC_RING_BASE_HI.IRQ_EN 0 (bit v 30)
  | .TDC_RING_PTR => s.ringHead TDC_RING_PTR.HEAD TDC_RING_PTR.TAIL s.jasperEntries (bits v 31 16)
  | .TRG_RTV_BASE_HI =>
    let (off, t) := s.ringSetup TRG_RTV_BASE_HI.ENABLE TRG_RTV_BASE_HI.SIZE_LOG2 TRG_RTV_BASE_HI.BASE_HI v
    t.when off (fun t =>
      let t := t.setReg .TRG_RTV_PTR 0 0
      { t with fab := { t.fab with rtvWait := t.fab.rtvWait.map (fun e => (0, e.2)) } })
  | .TRG_RTC_BASE_HI =>
    let (off, t) := s.ringSetup TRG_RTC_BASE_HI.ENABLE TRG_RTC_BASE_HI.SIZE_LOG2 TRG_RTC_BASE_HI.BASE_HI v
    let t := t.when off (·.setReg .TRG_RTC_PTR 0 0)
    (t.setFlag TRG_RTC_BASE_HI.IRQ_EN 0 (bit v 30)).when (bit v 29) (·.setFlag TRG_RTC_BASE_HI.IRQ_PEND 0 false)
  | .TRG_RTV_PTR => s.rtvTail (bits v 31 16)
  | .TRG_RTC_PTR => s.ringHead TRG_RTC_PTR.HEAD TRG_RTC_PTR.TAIL s.rtcEntries (bits v 31 16)
  | .TRG_SW => s.swTriggers v
  | .EPO_ACK => s.epoAck v
  | .SYS_PRG_CMD => s.prgCmd v
  | .SYS_RPL_CTRL => s.rplCtrl i v
  | .SYS_RCV_CMD => s.rcvCmd v
  | .CLK_SYN_OFFSET => s.offsetWrite v
  | .CLK_DIE_DLY => (s.delayWrite i (bits v 9 0)).stageHost (r, i) v
  | .CLK_CKO_DLY => s.delayWrite (8 + i) (bits v 9 0)
  | .GT_NCO_FLO | .OPL_LEVEL_BOT | .VID_SIZE_W => s.pairFirstReg (r, i) v
  | .GT_NCO_FHI => s.pairSecondReg (.GT_NCO_FLO, i) (r, i) v
  | .OPL_LEVEL_STEP => s.pairSecondReg (.OPL_LEVEL_BOT, i) (r, i) v
  | .VID_SIZE_H => s.pairSecondReg (.VID_SIZE_W, i) (r, i) v
  | .VID_BASE => s.baseCommit i v
  | .CEL_FC_CTRL => s.fcWrite v
  | .CEL_FREEZE_CMD => s.freezeCmd v
  | .DMA_RATE => s.when (decide (bits v 5 0 ≤ 60)) (·.writeFields r i v)
  | .DMA_CH_CTRL => s.dmaCtrl i v
  | .DMA_CH_DB => s.dmaDoorbell i
  | .PCI_CTRL => s.pciCtrlWrite i v
  | .PCI_CFG_DATA => s.cfgWrite i v
  | .STM_CMD => s.stmCmd v
  | .STM_RING_DB =>
    ({ s with free := s.free + 1 } : State).ringDoorbell (bits v 7 0) (freeBytes "entry of a PCIe ring" 16 s.free)
  | .NVM_SET_CMD => s.when (bit v 0) (·.nvmFormatCmd i
      ((List.finRange 32).map (fun d => (d, Config.free "capacity of a drive" [(d.val : Nat)] 0))))
  | .FAB_RX_BASE_HI => s.rxBaseWrite v
  | .FAB_RX_RD => s.writeRxRd (BitVec.ofNat 32 v)
  | .CAL_CMD => s.calCmd v
  | .CAL_COMMIT_ARM => s.calArm (BitVec.ofNat 32 v)
  | .PAN_CMD => s.panCmd v
  | .PAN_TEL_BASE_HI =>
    let (off, t) := s.ringSetup PAN_TEL_BASE_HI.ENABLE PAN_TEL_BASE_HI.SIZE_LOG2 PAN_TEL_BASE_HI.BASE_HI v
    t.when off (·.setReg .PAN_TEL_PTR 0 0)
  | .PAN_TEL_PTR => s.ringHead PAN_TEL_PTR.HEAD PAN_TEL_PTR.TAIL s.telEntries (bits v 31 16)
  | .PWR_CMD => s.pwrCmd v
  | .HK_ADC_CMD => s.when (bit v 31) (·.urgent (bits v 5 0))
  | .SEC_CMD => s.secCommand (bits v 31 24) (bits v 23 0)
  | .SEC_DBG_CMD => (s.when (bit v 31) (·.chalCmd)).when (bit v 30) (·.debugClose)
  | r => s.writeFields r i v

/-! ## One access (R8, R11, R12, R27, R28, R606) -/

/-- A register of a running tile that has a field of a type that R12 does not permit. -/
def State.refusedByTile (s : State) (k : RegKey) : Bool :=
  k.1.desc.block == .GT && (s.tile (k.2 / k.1.perTile)).state != 0 &&
  k.1.desc.fields.any (fun f => f.acc == .RW || f.acc == .WO || f.acc == .W1C || f.acc == .W1S)

/-- The words of an entry of a calibration set, as a window shows them. -/
def calWord (t : Table Nat CalEntry) (w : Nat) : Nat := le (Table.getD t (w / 4) {}).bytes (4 * (w % 4)) 4

/-- An entry with one of its words replaced. -/
def calPut (t : Table Nat CalEntry) (w v : Nat) : Table Nat CalEntry :=
  let b := (Table.getD t (w / 4) {}).bytes
  Table.set {} t (w / 4) (calEntryOf (b.take (4 * (w % 4)) ++ leBytes 4 v ++ b.drop (4 * (w % 4) + 4)))

/-- The 16 bytes of a history entry (R359). -/
def HistCmd.bytes (h : HistCmd) : List Byte :=
  leBytes 4 h.cycle ++ leBytes 1 h.cmd ++ leBytes 1 h.bank ++ leBytes 1 h.source ++ zeros 1 ++ leBytes 4 h.row ++
  leBytes 2 h.col ++ leBytes 1 h.result ++ zeros 1

/-- Word w of the history window: 256 entries, the latest last (R359). -/
def State.historyWord (s : State) (w : Nat) : Nat :=
  let l := Table.getD s.cel.history (s.fld CEL_DIAG_SEL.HPC 0) []
  match (if 256 ≤ w / 4 + l.length then l[w / 4 + l.length - 256]? else none) with
  | some h => le h.bytes (4 * (w % 4)) 4
  | none => 0

/-- The source class of a path (R359). -/
def State.hostSource (s : State) (path : Path) : Nat :=
  match path with
  | .hearth => srcHearth
  | .bar _ => srcPcie
  | .cz _ => s.srcOther

/-- A read of `len` bytes at a: the bytes, or none for a bus error.  Memory that does not serve answers with error
status, counted as poisoned (R352). -/
def State.readAt (s : State) (path : Path) (a len : Nat) : Option (List Byte) × State :=
  match targetOf a len with
  | none => (none, s)
  | some (.reg k) => let (v, s) := s.readReg k.1 k.2; (some (leBytes 4 v), s)
  | some (.history w) => (some (leBytes 4 (s.historyWord w)), s)
  | some (.param n p) => (some (leBytes 4 (Table.getD (s.tile n).params p 0)), s)
  | some (.calSet w) => (some (leBytes 4 (calWord s.cal.vol w)), s)
  | some (.calHost w) => (some (leBytes 4 (calWord s.cal.host w)), s)
  | some .memory =>
    (if s.poisonedRange a len then none else some (s.bytes a len), s.readBy (s.hostSource path) a len)
  | some .readOnly => (some ((List.range len).map (fun i => s.anyByte (a + i))), { s with free := s.free + 1 })
  | some (.tileMem _) => (some ((List.range len).map (fun i => s.tileByte (a + i))), s)

/-- A write of bytes at a: whether it completes without error, and the state after it.  A refused write of a running
tile's register raises WRITE_REFUSED (R12). -/
def State.writeAt (s : State) (path : Path) (a : Nat) (bs : List Byte) : Bool × State :=
  match targetOf a bs.length with
  | none => (false, s)
  | some (.reg k) =>
    if s.refusedByTile k then (false, s.raise Ev.WRITE_REFUSED (k.2 / k.1.perTile) [(0, 4, blockOffset k)])
    else (true, s.writeReg k.1 k.2 (ofLe bs))
  | some (.history _) => (true, s)
  | some (.param n p) => (true, s.paramWrite n p (ofLe bs))
  | some (.calSet _) => (true, s)
  | some (.calHost w) => (true, { s with cal := { s.cal with host := calPut s.cal.host w (ofLe bs) } })
  | some .memory => (!s.poisonedRange a bs.length, s.devPut (s.hostSource path) a bs)
  | some .readOnly => (false, s)
  | some (.tileMem n) => if (s.tile n).state != 0 then (false, s) else (true, s.tilePut a bs)

/-- A read on a path: the bytes are returned, or the read completes with a bus error on Hearth and in the protocol, and
with completer abort at an endpoint, which counts it (R8, R409). -/
def State.hostRead (s : State) (path : Path) (a len : Nat) : State :=
  match s.readAt path a len with
  | (some bs, s) => s.emit (.readDone path a bs)
  | (none, s) =>
    match path with
    | .bar p => (s.pciUr p.val).emit (.pciError p.val true a)
    | _ => s.emit (.busError path a)

/-- A write on a path: an error is a bus error on Hearth and in the protocol; at an endpoint the write is dropped and
counted (R8, R12, R409). -/
def State.hostWrite (s : State) (path : Path) (a : Nat) (bs : List Byte) : State :=
  match s.writeAt path a bs with
  | (true, s) => s.emit (.writeDone path a)
  | (false, s) => match path with
    | .bar p => s.pciUr p.val
    | _ => s.emit (.busError path a)

/-- A write of a register instance on a path. -/
def State.hostWriteReg (s : State) (path : Path) (r : Reg) (i v : Nat) : State :=
  s.hostWrite path (r.addr i) (leBytes 4 v)

/-! ## Meanings: the host on its paths -/

/-- REG_WRITE: a host write of an address takes effect by the access types of the fields there (R11). -/
def execRegWrite (path : Path) (addr : BitVec 48) (bytes : List Byte) (s : State) : Res :=
  .next (s.hostWrite path addr.toNat bytes)

/-- RC_READ: a read; RC fields return their value and clear (R11, R13). -/
def execRcRead (path : Path) (addr : BitVec 48) (len : Nat) (s : State) : Res := .next (s.hostRead path addr.toNat len)

/-- CAPTURE_READ: a read; a low word captures the words above it. -/
def execCaptureRead (path : Path) (addr : BitVec 48) (len : Nat) (s : State) : Res :=
  .next (s.hostRead path addr.toNat len)

/-- EVQ_WRITE_ACK: the oldest issued entry's write is acknowledged (R33). -/
def execEvqWriteAck (error : Bool) (s : State) : Res := .next (if error then s.evqAckErr else s.evqAckOk)

/-- RING_REWRITE_RETRY: an entry acknowledged with error status is written again, at most once per 1 ms (R33). -/
def execRingRewriteRetry (ring : RewriteRing) (s : State) : Res :=
  .next (match ring with
  | .completion => s.when (s.flag TRG_RTC_BASE_HI.ENABLE 0) (·.retryCompletion)
  | .telemetry => s.when (s.flag PAN_TEL_BASE_HI.ENABLE 0) (·.retryTelemetry)
  | .fabric => s.when (s.flag FAB_RX_BASE_HI.ENABLE 0) (·.retryItems))

/-- EVQ_ENABLE: EVQ_CTRL is written with ENABLE = 1 (R35, R608). -/
def execEvqEnable (path : Path) (value : BitVec 32) (s : State) : Res :=
  .next (s.hostWriteReg path .EVQ_CTRL 0 (withBits value.toNat 0 0 1))

/-- EVQ_DISABLE: EVQ_CTRL is written with ENABLE = 0 (R608). -/
def execEvqDisable (path : Path) (value : BitVec 32) (s : State) : Res :=
  .next (s.hostWriteReg path .EVQ_CTRL 0 (withBits value.toNat 0 0 0))

/-- EVQ_HEAD_WRITE (R33). -/
def execEvqHeadWrite (path : Path) (value : BitVec 32) (s : State) : Res :=
  .next (s.hostWriteReg path .EVQ_HEAD 0 value.toNat)

/-- RING_HEAD_WRITE: the host writes HEAD of a device-written ring (R34). -/
def execRingHeadWrite (path : Path) (ring : HeadRing) (value : BitVec 16) (s : State) : Res :=
  .next (s.hostWriteReg path (match ring with
    | .jasper => .TDC_RING_PTR
    | .completion => .TRG_RTC_PTR
    | .telemetry => .PAN_TEL_PTR) 0 (value.toNat * 2 ^ 16))

/-- SET_ARM: TDC_TIME_CFG is written with SET_ARM = 1: TDC_OT_SET is applied at the next PPS edge or epoch boundary
(R118). -/
def execSetArm (path : Path) (value : BitVec 32) (s : State) : Res :=
  .next (s.hostWriteReg path .TDC_TIME_CFG 0 (withBits value.toNat 31 31 1))

/-! ## The BARs of an endpoint (R409) -/

/-- Bytes of the MSI-X table and of the pending-bit array in BAR0. -/
def msixOffset (x : Nat) : Option Nat := if within x 4 0x7E0000 1024 then some (x - 0x7E0000) else none
def inPba (x : Nat) : Bool := within x 4 0x7F0000 8

/-- A read of a BAR: its bytes; none for completer abort or unsupported request. -/
def State.barRead (s : State) (p : Nat) (bar2 : Bool) (x len : Nat) : Option (List Byte) × State :=
  if bar2 then
    let a := (s.reg .PCI_WIN_OFS p).toNat * 65536 + x
    if inCellar a len || inSystem a len then s.readAt (.bar ⟨p % 2, by omega⟩) a len else (none, s)
  else if len != 4 || x % 4 != 0 then (none, s)
  else if x < 0x480000 then s.readAt (.bar ⟨p % 2, by omega⟩) (0x004000000000 + x) 4
  else match msixOffset x with
    | some o => (some ((List.range 4).map (fun i => Table.getD s.msix (65536 * p + o + i) 0)), s)
    | none => if inPba x then (some (zeros 4), s) else (none, s)

/-- A write of a BAR: false when it is dropped as an error. -/
def State.barWrite (s : State) (p : Nat) (bar2 : Bool) (x : Nat) (bs : List Byte) : Bool × State :=
  if bar2 then
    let a := (s.reg .PCI_WIN_OFS p).toNat * 65536 + x
    if inCellar a bs.length || inSystem a bs.length then (true, (s.writeAt (.bar ⟨p % 2, by omega⟩) a bs).2) else (false, s)
  else if bs.length != 4 || x % 4 != 0 then (false, s)
  else if x < 0x480000 then s.writeAt (.bar ⟨p % 2, by omega⟩) (0x004000000000 + x) bs
  else match msixOffset x with
    | some o => (true, { s with msix := (List.range 4).foldl (fun (t : Table Nat Byte) i =>
        Table.set 0 t (65536 * p + o + i) (nth bs i 0)) s.msix })
    | none => (inPba x, s)

/-- BAR_ACCESS: an inbound request of an endpoint whose link is up, within the BAR: it is served, or a read completes with
completer abort in BAR0 and unsupported request in BAR2, and a write is dropped; both are counted (R409).  An offset
beyond the size of BAR2 is no request to it. -/
def execBarAccess (port : Fin 2) (bar2 : Bool) (offset : BitVec 64) (len : Nat) (write : Option (List Byte))
    (s : State) : Res :=
  let p := port.val
  let x := offset.toNat
  let n := match write with
    | some bs => bs.length
    | none => len
  .next (if s.rootPort p || !s.flag PCI_STATUS.LINK_UP p || (bar2 && decide (barSize p < x + n)) then s
  else match write with
    | none => match s.barRead p bar2 x len with
      | (some bs, s) => s.emit (.readDone (.bar port) x bs)
      | (none, t) =>
        let a := (s.reg .PCI_WIN_OFS p).toNat * 65536 + x
        let abort := !bar2 || ((inCellar a len || inSystem a len) && s.poisonAbort a)
        (t.pciUr p).emit (.pciError p abort x)
    | some bs => match s.barWrite p bar2 x bs with
      | (true, s) => s.emit (.writeDone (.bar port) x)
      | (false, s) => s.pciUr p)

/-! ## The CZ control protocol (R565 to R567) -/

/-- Reads of registers at 8-byte addresses, in order, until one ends with a bus error. -/
def State.czReadRegs : Nat → State → List Byte → Option (List Byte) × State
  | 0, s, _ => (some [], s)
  | n + 1, s, b =>
    if b.length < 8 then (some [], s)
    else match s.readAt (.cz 0) (le b 0 8) 4 with
      | (none, s) => (none, s)
      | (some v, s) => match State.czReadRegs n s (b.drop 8) with
        | (none, s) => (none, s)
        | (some l, s) => (some (v ++ l), s)

/-- The word that the fields under a mask take from a value: RW, ST and LV bits outside the mask stay as they are, other
bits outside it are written 0. -/
def State.maskedWord (s : State) (t : Target) (a v mask : Nat) : Nat :=
  let keep := match t with
    | .reg (r, i) =>
      let live := match Table.get? s.held (r, i) with
        | some w => w.toNat
        | none => (Table.getD s.lv (r, i) (s.reg r i)).toNat
      ((s.reg r i).toNat &&& r.bitsOf .RW) ||| ((s.stagedReg r i).toNat &&& r.stMask i) |||
        (live &&& (r.bitsOf .LV ||| r.bitsOf .LVT))
    | .param n p =>
      let x := s.tile n
      if bit x.lvMap p then
        match Table.get? x.pHeld p with
        | some w => w
        | none => Table.getD x.pLv p (Table.getD x.params p 0)
      else Table.getD s.prog.params (256 * (match s.groupOf n with | some g => g | none => 64) + p)
        (Table.getD x.params p 0)
    | .calHost w => calWord s.cal.host w
    | .memory | .readOnly | .tileMem _ => s.load a 4
    | .history _ | .calSet _ => 0
  mergeBits mask keep v

/-- Writes of registers, each a address of 8 bytes, a value and a mask of 4 bytes, until one ends with a bus error. -/
def State.czWriteRegs : Nat → State → List Byte → Bool × State
  | 0, s, _ => (true, s)
  | n + 1, s, b =>
    if b.length < 16 then (true, s)
    else
      let a := le b 0 8
      let w := match targetOf a 4 with
        | some t => s.maskedWord t a (le b 8 4) (le b 12 4)
        | none => le b 8 4
      match s.writeAt (.cz 0) a (leBytes 4 w) with
        | (false, s) => (false, s)
        | (true, s) => State.czWriteRegs n s (b.drop 16)

/-- READ_REG. -/
def execReadReg (conn : Nat) (req : BitVec 64) (body : List Byte) (s : State) : Res :=
  .next (s.czRun (.session conn) req.toNat 0x10 (fun s =>
    if body.length % 8 != 0 then (czBAD_REQUEST, [], s)
    else match s.czReadRegs (body.length / 8) body with
      | (some l, s) => (czOK, l, s)
      | (none, s) => (czBUS_ERROR, [], s)))

/-- WRITE_REG. -/
def execWriteReg (conn : Nat) (req : BitVec 64) (body : List Byte) (s : State) : Res :=
  .next (s.czRun (.session conn) req.toNat 0x11 (fun s =>
    if body.length % 16 != 0 then (czBAD_REQUEST, [], s)
    else match s.czWriteRegs (body.length / 16) body with
      | (true, s) => (czOK, [], s)
      | (false, s) => (czBUS_ERROR, [], s)))

/-- READ_MEM: address of 8 bytes and length of 4. -/
def execReadMem (conn : Nat) (req : BitVec 64) (body : List Byte) (s : State) : Res :=
  .next (s.czRun (.session conn) req.toNat 0x12 (fun s =>
    if body.length != 12 || decide (2 ^ 24 < le body 8 4) then (czBAD_REQUEST, [], s)
    else match s.readAt (.cz conn) (le body 0 8) (le body 8 4) with
      | (some l, s) => (czOK, l, s)
      | (none, s) => (czBUS_ERROR, [], s)))

/-- WRITE_MEM: address of 8 bytes, length of 4, and the data. -/
def execWriteMem (conn : Nat) (req : BitVec 64) (body : List Byte) (s : State) : Res :=
  .next (s.czRun (.session conn) req.toNat 0x13 (fun s =>
    if decide (body.length < 12) || body.length != 12 + le body 8 4 then (czBAD_REQUEST, [], s)
    else match s.writeAt (.cz conn) (le body 0 8) (body.drop 12) with
      | (true, s) => (czOK, [], s)
      | (false, s) => (czBUS_ERROR, [], s)))

/-- LOAD_IMAGE: the image is placed in system memory, at an address that the manual leaves open, and loaded (R199). -/
def State.loadImage (s : State) (image : List Byte) : Nat × List Byte × State :=
  if s.prgBusy then (czREFUSED, [], s.reject)
  else
    let (x, s) := s.draw "where LOAD_IMAGE places an image" [(image.length : Nat)]
    let a := sysBase + x % ((sysSize - image.length) / 64 + 1) * 64
    let s := s.devPut s.srcOther a image
    let s := (s.setReg .SYS_IMG_ADDR_LO 0 (BitVec.ofNat 32 a)).setReg .SYS_IMG_ADDR_HI 0 (BitVec.ofNat 32 (a / 2 ^ 32))
    (czOK, [], (s.setReg .SYS_IMG_LEN 0 (BitVec.ofNat 32 image.length)).prgLoad)

/-- LOAD_IMAGE. -/
def execLoadImage (conn : Nat) (req : BitVec 64) (body : List Byte) (s : State) : Res :=
  .next (s.czRun (.session conn) req.toNat 0x20 (fun s =>
    if decide (2 ^ 24 < body.length) then (czBAD_REQUEST, [], s) else s.loadImage body))

end Sys2Proof.Machine
end

