-- ==== Sys2Proof/Machine/Dispatch.lean ====
section
/-! DEFINITION. The dispatch of a command to its meaning: one arm per constructor of `Instr`. -/

namespace Sys2Proof.Machine

def exec (i : Instr) (s : State) : Host.Outcome State Fault Refusal :=
  match i with
  | .regWrite path addr bytes => Sys2Proof.Machine.execRegWrite path addr bytes s
  | .rcRead path addr len => Sys2Proof.Machine.execRcRead path addr len s
  | .captureRead path addr len => Sys2Proof.Machine.execCaptureRead path addr len s
  | .evqWriteAck error => Sys2Proof.Machine.execEvqWriteAck error s
  | .ringRewriteRetry ring => Sys2Proof.Machine.execRingRewriteRetry ring s
  | .evqEnable path value => Sys2Proof.Machine.execEvqEnable path value s
  | .evqDisable path value => Sys2Proof.Machine.execEvqDisable path value s
  | .evqHeadWrite path value => Sys2Proof.Machine.execEvqHeadWrite path value s
  | .ringHeadWrite path ring value => Sys2Proof.Machine.execRingHeadWrite path ring value s
  | .blockClose k codes => Sys2Proof.Machine.execBlockClose k codes s
  | .blockLand k => Sys2Proof.Machine.execBlockLand k s
  | .ringWriteIssue q => Sys2Proof.Machine.execRingWriteIssue q s
  | .ringWriteAck q => Sys2Proof.Machine.execRingWriteAck q s
  | .blockTileArrival k => Sys2Proof.Machine.execBlockTileArrival k s
  | .dieLinkCrc k hub => Sys2Proof.Machine.execDieLinkCrc k hub s
  | .rangeHoldEnd ch sample => Sys2Proof.Machine.execRangeHoldEnd ch sample s
  | .overRangeExcursion ch first signs over6 peak => Sys2Proof.Machine.execOverRangeExcursion ch first signs over6 peak s
  | .clampEngage ch sample neg => Sys2Proof.Machine.execClampEngage ch sample neg s
  | .clampDisengage ch sample => Sys2Proof.Machine.execClampDisengage ch sample s
  | .clampRecoveryEnd ch sample => Sys2Proof.Machine.execClampRecoveryEnd ch sample s
  | .comparatorCrossing ch above raw => Sys2Proof.Machine.execComparatorCrossing ch above raw s
  | .comparatorAccept ch above samples => Sys2Proof.Machine.execComparatorAccept ch above samples s
  | .comparatorBlankEnd ch above => Sys2Proof.Machine.execComparatorBlankEnd ch above s
  | .cmpSettleEnd ch above inBand => Sys2Proof.Machine.execCmpSettleEnd ch above inBand s
  | .cmpResettleEnd ch => Sys2Proof.Machine.execCmpResettleEnd ch s
  | .refinEdge => Sys2Proof.Machine.execRefinEdge s
  | .refQualifyEnd hz => Sys2Proof.Machine.execRefQualifyEnd hz s
  | .refMissingEdge coastPpb => Sys2Proof.Machine.execRefMissingEdge coastPpb s
  | .lockGateEnd quarters synHz tclkHz slip => Sys2Proof.Machine.execLockGateEnd quarters synHz tclkHz slip s
  | .pllPhaseLock loop => Sys2Proof.Machine.execPllPhaseLock loop s
  | .pllPhaseUnlock loop => Sys2Proof.Machine.execPllPhaseUnlock loop s
  | .relockStepDone => Sys2Proof.Machine.execRelockStepDone s
  | .relockFail => Sys2Proof.Machine.execRelockFail s
  | .relockRetry => Sys2Proof.Machine.execRelockRetry s
  | .bypUnlock => Sys2Proof.Machine.execBypUnlock s
  | .offsetWrite path value => Sys2Proof.Machine.execOffsetWrite path value s
  | .offsetSlewDone => Sys2Proof.Machine.execOffsetSlewDone s
  | .delayWrite path d value => Sys2Proof.Machine.execDelayWrite path d value s
  | .delayStep d => Sys2Proof.Machine.execDelayStep d s
  | .phaseJumpMeasured jumpPs predicted => Sys2Proof.Machine.execPhaseJumpMeasured jumpPs predicted s
  | .tinEdge n rising inst => Sys2Proof.Machine.execTinEdge n rising inst s
  | .turnLost => Sys2Proof.Machine.execTurnLost s
  | .tinSettleEnd n inBand raw => Sys2Proof.Machine.execTinSettleEnd n inBand raw s
  | .loopUnlock => Sys2Proof.Machine.execLoopUnlock s
  | .tdcCalInterval => Sys2Proof.Machine.execTdcCalInterval s
  | .tdcCalDone n conv deviation => Sys2Proof.Machine.execTdcCalDone n conv deviation s
  | .calNow path => Sys2Proof.Machine.execCalNow path s
  | .pairWinExpire n => Sys2Proof.Machine.execPairWinExpire n s
  | .freqGateEnd n => Sys2Proof.Machine.execFreqGateEnd n s
  | .statsComplete n => Sys2Proof.Machine.execStatsComplete n s
  | .tdcRingWriteAck error => Sys2Proof.Machine.execTdcRingWriteAck error s
  | .timeSrcError errorFs => Sys2Proof.Machine.execTimeSrcError errorFs s
  | .timeSrcLost => Sys2Proof.Machine.execTimeSrcLost s
  | .setArm path value => Sys2Proof.Machine.execSetArm path value s
  | .boundaryMarkerStamp k block ot => Sys2Proof.Machine.execBoundaryMarkerStamp k block ot s
  | .anchorWriteAck error => Sys2Proof.Machine.execAnchorWriteAck error s
  | .epochAnnounce => Sys2Proof.Machine.execEpochAnnounce s
  | .epochBoundary marks => Sys2Proof.Machine.execEpochBoundary marks s
  | .epochTimeout => Sys2Proof.Machine.execEpochTimeout s
  | .epoPageComplete => Sys2Proof.Machine.execEpoPageComplete s
  | .epoAck path value => Sys2Proof.Machine.execEpoAck path value s
  | .jNop tile fl => Sys2Proof.Machine.execJNop tile fl s
  | .jHalt tile fl => Sys2Proof.Machine.execJHalt tile fl s
  | .jB tile fl g imm target => Sys2Proof.Machine.execJB tile fl g imm target s
  | .jCall tile fl g imm target => Sys2Proof.Machine.execJCall tile fl g imm target s
  | .jRet tile fl => Sys2Proof.Machine.execJRet tile fl s
  | .jRep tile fl g imm target => Sys2Proof.Machine.execJRep tile fl g imm target s
  | .jBrk tile fl g imm target => Sys2Proof.Machine.execJBrk tile fl g imm target s
  | .jWaitev tile fl d mask => Sys2Proof.Machine.execJWaitev tile fl d mask s
  | .jEvclr tile fl d mask => Sys2Proof.Machine.execJEvclr tile fl d mask s
  | .jFence tile fl => Sys2Proof.Machine.execJFence tile fl s
  | .jAdd tile fl d sr t => Sys2Proof.Machine.execJAdd tile fl d sr t s
  | .jSub tile fl d sr t => Sys2Proof.Machine.execJSub tile fl d sr t s
  | .jAnd tile fl d sr t => Sys2Proof.Machine.execJAnd tile fl d sr t s
  | .jOr tile fl d sr t => Sys2Proof.Machine.execJOr tile fl d sr t s
  | .jXor tile fl d sr t => Sys2Proof.Machine.execJXor tile fl d sr t s
  | .jShl tile fl d sr t => Sys2Proof.Machine.execJShl tile fl d sr t s
  | .jShr tile fl d sr t => Sys2Proof.Machine.execJShr tile fl d sr t s
  | .jSar tile fl d sr t => Sys2Proof.Machine.execJSar tile fl d sr t s
  | .jMul tile fl d sr t => Sys2Proof.Machine.execJMul tile fl d sr t s
  | .jMulh tile fl d sr t => Sys2Proof.Machine.execJMulh tile fl d sr t s
  | .jMin tile fl d sr t => Sys2Proof.Machine.execJMin tile fl d sr t s
  | .jMax tile fl d sr t => Sys2Proof.Machine.execJMax tile fl d sr t s
  | .jClz tile fl d sr t => Sys2Proof.Machine.execJClz tile fl d sr t s
  | .jCmp tile fl d sr t => Sys2Proof.Machine.execJCmp tile fl d sr t s
  | .jMov tile fl d sr t => Sys2Proof.Machine.execJMov tile fl d sr t s
  | .jAddi tile fl d sr imm => Sys2Proof.Machine.execJAddi tile fl d sr imm s
  | .jAndi tile fl d sr imm => Sys2Proof.Machine.execJAndi tile fl d sr imm s
  | .jOri tile fl d sr imm => Sys2Proof.Machine.execJOri tile fl d sr imm s
  | .jXori tile fl d sr imm => Sys2Proof.Machine.execJXori tile fl d sr imm s
  | .jShli tile fl d sr imm => Sys2Proof.Machine.execJShli tile fl d sr imm s
  | .jShri tile fl d sr imm => Sys2Proof.Machine.execJShri tile fl d sr imm s
  | .jSari tile fl d sr imm => Sys2Proof.Machine.execJSari tile fl d sr imm s
  | .jCmpi tile fl d sr imm => Sys2Proof.Machine.execJCmpi tile fl d sr imm s
  | .jLi tile fl d sr imm => Sys2Proof.Machine.execJLi tile fl d sr imm s
  | .jLdw tile fl g a off => Sys2Proof.Machine.execJLdw tile fl g a off s
  | .jStw tile fl g a off => Sys2Proof.Machine.execJStw tile fl g a off s
  | .jLdh tile fl g a off => Sys2Proof.Machine.execJLdh tile fl g a off s
  | .jSth tile fl g a off => Sys2Proof.Machine.execJSth tile fl g a off s
  | .jLdp tile fl d sr imm => Sys2Proof.Machine.execJLdp tile fl d sr imm s
  | .jRds tile fl d sr imm => Sys2Proof.Machine.execJRds tile fl d sr imm s
  | .jWrs tile fl d sr imm => Sys2Proof.Machine.execJWrs tile fl d sr imm s
  | .jAcfg tile fl a g imm => Sys2Proof.Machine.execJAcfg tile fl a g imm s
  | .jAadd tile fl a g imm => Sys2Proof.Machine.execJAadd tile fl a g imm s
  | .jMova tile fl a g imm => Sys2Proof.Machine.execJMova tile fl a g imm s
  | .jMovg tile fl a g imm => Sys2Proof.Machine.execJMovg tile fl a g imm s
  | .jWaitin tile fl v => Sys2Proof.Machine.execJWaitin tile fl v s
  | .jInadv tile fl v => Sys2Proof.Machine.execJInadv tile fl v s
  | .jWaitx tile fl v => Sys2Proof.Machine.execJWaitx tile fl v s
  | .jFftr tile fl v => Sys2Proof.Machine.execJFftr tile fl v s
  | .jFftc tile fl v => Sys2Proof.Machine.execJFftc tile fl v s
  | .jIfftc tile fl v => Sys2Proof.Machine.execJIfftc tile fl v s
  | .jDet tile fl v => Sys2Proof.Machine.execJDet tile fl v s
  | .jXspec tile fl v => Sys2Proof.Machine.execJXspec tile fl v s
  | .jMaskc tile fl v => Sys2Proof.Machine.execJMaskc tile fl v s
  | .jNco tile fl v => Sys2Proof.Machine.execJNco tile fl v s
  | .jDecim tile fl v => Sys2Proof.Machine.execJDecim tile fl v s
  | .jThr tile fl v => Sys2Proof.Machine.execJThr tile fl v s
  | .jFeat tile fl v => Sys2Proof.Machine.execJFeat tile fl v s
  | .jVadd tile fl v => Sys2Proof.Machine.execJVadd tile fl v s
  | .jVsub tile fl v => Sys2Proof.Machine.execJVsub tile fl v s
  | .jVmul tile fl v => Sys2Proof.Machine.execJVmul tile fl v s
  | .jVcmul tile fl v => Sys2Proof.Machine.execJVcmul tile fl v s
  | .jVscale tile fl v => Sys2Proof.Machine.execJVscale tile fl v s
  | .jVconv tile fl v => Sys2Proof.Machine.execJVconv tile fl v s
  | .jCdot tile fl v => Sys2Proof.Machine.execJCdot tile fl v s
  | .jBcopy tile fl v => Sys2Proof.Machine.execJBcopy tile fl v s
  | .jFill tile fl v => Sys2Proof.Machine.execJFill tile fl v s
  | .jSpout tile fl v => Sys2Proof.Machine.execJSpout tile fl v s
  | .jTrgc tile fl v => Sys2Proof.Machine.execJTrgc tile fl v s
  | .jXmit tile fl v => Sys2Proof.Machine.execJXmit tile fl v s
  | .jXld tile fl v => Sys2Proof.Machine.execJXld tile fl v s
  | .jXch tile fl v => Sys2Proof.Machine.execJXch tile fl v s
  | .customerInstr tile word ecc => Sys2Proof.Machine.execCustomerInstr tile word ecc s
  | .tileUwd tile opcode upc => Sys2Proof.Machine.execTileUwd tile opcode upc s
  | .xldLand tile => Sys2Proof.Machine.execXldLand tile s
  | .xchArrival g sender items => Sys2Proof.Machine.execXchArrival g sender items s
  | .paramWrite path tile p value => Sys2Proof.Machine.execParamWrite path tile p value s
  | .pairFirstWrite path pair value => Sys2Proof.Machine.execPairFirstWrite path pair value s
  | .pairSecondWrite path pair value => Sys2Proof.Machine.execPairSecondWrite path pair value s
  | .prgLoad path => Sys2Proof.Machine.execPrgLoad path s
  | .prgValidationEnd => Sys2Proof.Machine.execPrgValidationEnd s
  | .prgCommit path atEpoch => Sys2Proof.Machine.execPrgCommit path atEpoch s
  | .commitValidationEnd => Sys2Proof.Machine.execCommitValidationEnd s
  | .prgAbort path => Sys2Proof.Machine.execPrgAbort path s
  | .prgResume path => Sys2Proof.Machine.execPrgResume path s
  | .prgHold path => Sys2Proof.Machine.execPrgHold path s
  | .storeBoot path => Sys2Proof.Machine.execStoreBoot path s
  | .bootStoreDone ok => Sys2Proof.Machine.execBootStoreDone ok s
  | .tileReloadDone tile => Sys2Proof.Machine.execTileReloadDone tile s
  | .groupLate g tile => Sys2Proof.Machine.execGroupLate g tile s
  | .rplGo path k src rate => Sys2Proof.Machine.execRplGo path k src rate s
  | .rplBlockFeed k stall => Sys2Proof.Machine.execRplBlockFeed k stall s
  | .rplStop path k src rate => Sys2Proof.Machine.execRplStop path k src rate s
  | .combinerEventArrival code t => Sys2Proof.Machine.execCombinerEventArrival code t s
  | .cellFire c u => Sys2Proof.Machine.execCellFire c u s
  | .toutPulseEnd n => Sys2Proof.Machine.execToutPulseEnd n s
  | .timerFire j t => Sys2Proof.Machine.execTimerFire j t s
  | .swTrigger path value => Sys2Proof.Machine.execSwTrigger path value s
  | .defRearm d => Sys2Proof.Machine.execDefRearm d s
  | .recordTimeout d => Sys2Proof.Machine.execRecordTimeout d s
  | .recCopyBlock j => Sys2Proof.Machine.execRecCopyBlock j s
  | .itemRecordArrival d item => Sys2Proof.Machine.execItemRecordArrival d item s
  | .recordWriteAcked => Sys2Proof.Machine.execRecordWriteAcked s
  | .indexWriteAck => Sys2Proof.Machine.execIndexWriteAck s
  | .rtvDoorbell path tail => Sys2Proof.Machine.execRtvDoorbell path tail s
  | .rtvStart => Sys2Proof.Machine.execRtvStart s
  | .rtvComplete j => Sys2Proof.Machine.execRtvComplete j s
  | .plannedStallRetry => Sys2Proof.Machine.execPlannedStallRetry s
  | .fcGo path value => Sys2Proof.Machine.execFcGo path value s
  | .freqChangeDone aligned => Sys2Proof.Machine.execFreqChangeDone aligned s
  | .refreshDue h => Sys2Proof.Machine.execRefreshDue h s
  | .scrubRead h bank row col corrected => Sys2Proof.Machine.execScrubRead h bank row col corrected s
  | .pcFreeze h cause bank row col synd => Sys2Proof.Machine.execPcFreeze h cause bank row col synd s
  | .lossEntryAck => Sys2Proof.Machine.execLossEntryAck s
  | .pcRelease h => Sys2Proof.Machine.execPcRelease h s
  | .pcReinitDone h passed rows => Sys2Proof.Machine.execPcReinitDone h passed rows s
  | .pcRetire h => Sys2Proof.Machine.execPcRetire h s
  | .softRepair h bank row => Sys2Proof.Machine.execSoftRepair h bank row s
  | .hardRepair h bank row => Sys2Proof.Machine.execHardRepair h bank row s
  | .oplRecordArrival l item => Sys2Proof.Machine.execOplRecordArrival l item s
  | .oplPlot p => Sys2Proof.Machine.execOplPlot p s
  | .oplDecayStep p => Sys2Proof.Machine.execOplDecayStep p s
  | .oplFrameRequest p => Sys2Proof.Machine.execOplFrameRequest p s
  | .oplFlip p => Sys2Proof.Machine.execOplFlip p s
  | .vidBaseCommit path d value => Sys2Proof.Machine.execVidBaseCommit path d value s
  | .vidLatch d pinError => Sys2Proof.Machine.execVidLatch d pinError s
  | .flipRetired d rend => Sys2Proof.Machine.execFlipRetired d rend s
  | .hpdChange d hpd => Sys2Proof.Machine.execHpdChange d hpd s
  | .linkTrainDone d sinkRate sinkLanes passed => Sys2Proof.Machine.execLinkTrainDone d sinkRate sinkLanes passed s
  | .underrun d line x => Sys2Proof.Machine.execUnderrun d line x s
  | .dmaStart path c => Sys2Proof.Machine.execDmaStart path c s
  | .dmaStop path c => Sys2Proof.Machine.execDmaStop path c s
  | .dmaDoorbell path c => Sys2Proof.Machine.execDmaDoorbell path c s
  | .dmaDescFetch c link desc error => Sys2Proof.Machine.execDmaDescFetch c link desc error s
  | .dmaWritesAcked c n src error => Sys2Proof.Machine.execDmaWritesAcked c n src error s
  | .dmaReadbackDone c src dst error => Sys2Proof.Machine.execDmaReadbackDone c src dst error s
  | .dmaProgress c src error => Sys2Proof.Machine.execDmaProgress c src error s
  | .dmaDrain domain => Sys2Proof.Machine.execDmaDrain domain s
  | .dmaDrainTimeout domain => Sys2Proof.Machine.execDmaDrainTimeout domain s
  | .barAccess port bar2 offset len write => Sys2Proof.Machine.execBarAccess port bar2 offset len write s
  | .pciInbound p addr len write => Sys2Proof.Machine.execPciInbound p addr len write s
  | .pciCfgAccess path p write result data => Sys2Proof.Machine.execPciCfgAccess path p write result data s
  | .pciDisable path p value => Sys2Proof.Machine.execPciDisable path p value s
  | .pciLinkUp p speed width => Sys2Proof.Machine.execPciLinkUp p speed width s
  | .pciLinkDown p => Sys2Proof.Machine.execPciLinkDown p s
  | .pciAer p status requester => Sys2Proof.Machine.execPciAer p status requester s
  | .streamItem stream item => Sys2Proof.Machine.execStreamItem stream item s
  | .subSend n entry => Sys2Proof.Machine.execSubSend n entry s
  | .join path => Sys2Proof.Machine.execJoin path s
  | .leave path gen n => Sys2Proof.Machine.execLeave path gen n s
  | .stmRingDb path n entry => Sys2Proof.Machine.execStmRingDb path n entry s
  | .pcieRingPoll n entry => Sys2Proof.Machine.execPcieRingPoll n entry s
  | .nextHopRetry n => Sys2Proof.Machine.execNextHopRetry n s
  | .ethRxFrame p frame => Sys2Proof.Machine.execEthRxFrame p frame s
  | .ptpMessageRx p domain transport m => Sys2Proof.Machine.execPtpMessageRx p domain transport m s
  | .ptpAnnounceTimeout => Sys2Proof.Machine.execPtpAnnounceTimeout s
  | .nvmeCmdComplete d j status => Sys2Proof.Machine.execNvmeCmdComplete d j status s
  | .nvmeCmdTimeout d j => Sys2Proof.Machine.execNvmeCmdTimeout d j s
  | .nvmFlushTimer d => Sys2Proof.Machine.execNvmFlushTimer d s
  | .nvmSetStart n probes => Sys2Proof.Machine.execNvmSetStart n probes s
  | .nvmFormat path n capacities => Sys2Proof.Machine.execNvmFormat path n capacities s
  | .linkSignalDetect p lanes => Sys2Proof.Machine.execLinkSignalDetect p lanes s
  | .linkBringupStepDone p uid rport mode asymPs => Sys2Proof.Machine.execLinkBringupStepDone p uid rport mode asymPs s
  | .linkSignalLoss p lane => Sys2Proof.Machine.execLinkSignalLoss p lane s
  | .flitCrcFail p retry => Sys2Proof.Machine.execFlitCrcFail p retry s
  | .helloSend p => Sys2Proof.Machine.execHelloSend p s
  | .helloRx p h => Sys2Proof.Machine.execHelloRx p h s
  | .nbrTimeout p => Sys2Proof.Machine.execNbrTimeout p s
  | .lsaRx p h l => Sys2Proof.Machine.execLsaRx p h l s
  | .lsaRefresh => Sys2Proof.Machine.execLsaRefresh s
  | .lsaExpire uid => Sys2Proof.Machine.execLsaExpire uid s
  | .routeInstall => Sys2Proof.Machine.execRouteInstall s
  | .addrClaimTimer => Sys2Proof.Machine.execAddrClaimTimer s
  | .timeExchange p t1 => Sys2Proof.Machine.execTimeExchange p t1 s
  | .timeRx p m => Sys2Proof.Machine.execTimeRx p m s
  | .fabTimeServo => Sys2Proof.Machine.execFabTimeServo s
  | .gmAnnounce => Sys2Proof.Machine.execGmAnnounce s
  | .gmTimeout => Sys2Proof.Machine.execGmTimeout s
  | .fabTriggerRx h tree id cell t tseq => Sys2Proof.Machine.execFabTriggerRx h tree id cell t tseq s
  | .fabItemRx h entry => Sys2Proof.Machine.execFabItemRx h entry s
  | .fabRtvReqRx h entry => Sys2Proof.Machine.execFabRtvReqRx h entry s
  | .fabCreditRx h grant n => Sys2Proof.Machine.execFabCreditRx h grant n s
  | .fabRxRdWrite path value => Sys2Proof.Machine.execFabRxRdWrite path value s
  | .calTrigger k sl => Sys2Proof.Machine.execCalTrigger k sl s
  | .calRun path k sl => Sys2Proof.Machine.execCalRun path k sl s
  | .calRunDie path k => Sys2Proof.Machine.execCalRunDie path k s
  | .calRunStart k => Sys2Proof.Machine.execCalRunStart k s
  | .calCompare k pass => Sys2Proof.Machine.execCalCompare k pass s
  | .calRunDone k offs gain skew term => Sys2Proof.Machine.execCalRunDone k offs gain skew term s
  | .calHoldEnd k => Sys2Proof.Machine.execCalHoldEnd k s
  | .calQuietOpen k => Sys2Proof.Machine.execCalQuietOpen k s
  | .calForce k => Sys2Proof.Machine.execCalForce k s
  | .calApply path k sl whole => Sys2Proof.Machine.execCalApply path k sl whole s
  | .calExport path attic => Sys2Proof.Machine.execCalExport path attic s
  | .calImport path => Sys2Proof.Machine.execCalImport path s
  | .calCommitArm path key => Sys2Proof.Machine.execCalCommitArm path key s
  | .calCommit path => Sys2Proof.Machine.execCalCommit path s
  | .calClearSuspect path k sl => Sys2Proof.Machine.execCalClearSuspect path k sl s
  | .calCopy path k sl whole => Sys2Proof.Machine.execCalCopy path k sl whole s
  | .panMonitorSample sample => Sys2Proof.Machine.execPanMonitorSample sample s
  | .panHistoryHour => Sys2Proof.Machine.execPanHistoryHour s
  | .panApprove path kind unit => Sys2Proof.Machine.execPanApprove path kind unit s
  | .panDecline path kind unit => Sys2Proof.Machine.execPanDecline path kind unit s
  | .panSwap path kind unit => Sys2Proof.Machine.execPanSwap path kind unit s
  | .panRotateNow path kind unit => Sys2Proof.Machine.execPanRotateNow path kind unit s
  | .panRetire path kind unit => Sys2Proof.Machine.execPanRetire path kind unit s
  | .rotationStep d => Sys2Proof.Machine.execRotationStep d s
  | .migrationLoadDone d => Sys2Proof.Machine.execMigrationLoadDone d s
  | .haltEvent tile => Sys2Proof.Machine.execHaltEvent tile s
  | .selftestDone renderer unit fail rows => Sys2Proof.Machine.execSelftestDone renderer unit fail rows s
  | .opalRotation => Sys2Proof.Machine.execOpalRotation s
  | .opalCopyDone => Sys2Proof.Machine.execOpalCopyDone s
  | .memMoveCopyDone => Sys2Proof.Machine.execMemMoveCopyDone s
  | .laneSwap p ok => Sys2Proof.Machine.execLaneSwap p ok s
  | .coreOfflineAck => Sys2Proof.Machine.execCoreOfflineAck s
  | .coreSwapTimeout => Sys2Proof.Machine.execCoreSwapTimeout s
  | .supplyCmpCrossing y good => Sys2Proof.Machine.execSupplyCmpCrossing y good s
  | .supplyQualifiedLow y => Sys2Proof.Machine.execSupplyQualifiedLow y s
  | .switchMoveDone ns => Sys2Proof.Machine.execSwitchMoveDone ns s
  | .returnCountExpire => Sys2Proof.Machine.execReturnCountExpire s
  | .returnA path => Sys2Proof.Machine.execReturnA path s
  | .forceB path => Sys2Proof.Machine.execForceB path s
  | .pwrStandby path forced => Sys2Proof.Machine.execPwrStandby path forced s
  | .osShutdownDone reported => Sys2Proof.Machine.execOsShutdownDone reported s
  | .wake path => Sys2Proof.Machine.execWake path s
  | .pwrCycle path => Sys2Proof.Machine.execPwrCycle path s
  | .vhkLow reading => Sys2Proof.Machine.execVhkLow reading s
  | .vhkPowerLoss => Sys2Proof.Machine.execVhkPowerLoss s
  | .vhkPowerOn => Sys2Proof.Machine.execVhkPowerOn s
  | .railStepDone => Sys2Proof.Machine.execRailStepDone s
  | .railFail rail => Sys2Proof.Machine.execRailFail rail s
  | .overtempStop site => Sys2Proof.Machine.execOvertempStop site s
  | .adcPassTick => Sys2Proof.Machine.execAdcPassTick s
  | .adcConversionDone value => Sys2Proof.Machine.execAdcConversionDone value s
  | .adcUrgent path input => Sys2Proof.Machine.execAdcUrgent path input s
  | .romBoot bootsel => Sys2Proof.Machine.execRomBoot bootsel s
  | .bootWatchdog bootsel => Sys2Proof.Machine.execBootWatchdog bootsel s
  | .bootEnd gpio => Sys2Proof.Machine.execBootEnd gpio s
  | .osReady => Sys2Proof.Machine.execOsReady s
  | .trngFail adaptive => Sys2Proof.Machine.execTrngFail adaptive s
  | .czSessionConnect conn key issuer => Sys2Proof.Machine.execCzSessionConnect conn key issuer s
  | .czOpen conn req => Sys2Proof.Machine.execCzOpen conn req s
  | .sessionResume conn req sid => Sys2Proof.Machine.execSessionResume conn req sid s
  | .readReg conn req body => Sys2Proof.Machine.execReadReg conn req body s
  | .writeReg conn req body => Sys2Proof.Machine.execWriteReg conn req body s
  | .readMem conn req body => Sys2Proof.Machine.execReadMem conn req body s
  | .writeMem conn req body => Sys2Proof.Machine.execWriteMem conn req body s
  | .loadImage conn req body => Sys2Proof.Machine.execLoadImage conn req body s
  | .attest src req body => Sys2Proof.Machine.execAttest src req body s
  | .getCert src req => Sys2Proof.Machine.execGetCert src req s
  | .czCalExport src req body => Sys2Proof.Machine.execCzCalExport src req body s
  | .fwWrite src req body => Sys2Proof.Machine.execFwWrite src req body s
  | .fwActivate src req body => Sys2Proof.Machine.execFwActivate src req body s
  | .lockFw src req ok => Sys2Proof.Machine.execLockFw src req ok s
  | .lockOwner src req ok => Sys2Proof.Machine.execLockOwner src req ok s
  | .platformWrite src req body => Sys2Proof.Machine.execPlatformWrite src req body s
  | .ownerInstall src req body => Sys2Proof.Machine.execOwnerInstall src req body s
  | .ownerUpdate src req body => Sys2Proof.Machine.execOwnerUpdate src req body s
  | .ownerClear src req body => Sys2Proof.Machine.execOwnerClear src req body s
  | .debugChal src req => Sys2Proof.Machine.execDebugChal src req s
  | .debugToken src req body => Sys2Proof.Machine.execDebugToken src req body s
  | .debugClose path => Sys2Proof.Machine.execDebugClose path s
  | .debugLifeExpire => Sys2Proof.Machine.execDebugLifeExpire s
  | .debugChalExpire => Sys2Proof.Machine.execDebugChalExpire s
  | .mboxWord valid last word => Sys2Proof.Machine.execMboxWord valid last word s
  | .evqSubscribe conn req floor => Sys2Proof.Machine.execEvqSubscribe conn req floor s
  | .faultFreeze source inst => Sys2Proof.Machine.execFaultFreeze source inst s
  | .safeHoldExpire => Sys2Proof.Machine.execSafeHoldExpire s
  | .rcvHold path => Sys2Proof.Machine.execRcvHold path s
  | .rcvWarm path => Sys2Proof.Machine.execRcvWarm path s
  | .rcvPwrCycle path => Sys2Proof.Machine.execRcvPwrCycle path s
  | .resetNLow => Sys2Proof.Machine.execResetNLow s
  | .warmResetTimeout => Sys2Proof.Machine.execWarmResetTimeout s
  | .pcHoldExpire h => Sys2Proof.Machine.execPcHoldExpire h s
  | .reinitTimeout unit => Sys2Proof.Machine.execReinitTimeout unit s
  | .pwrCycleIgnored => Sys2Proof.Machine.execPwrCycleIgnored s
  | .supplySettleEnd y state => Sys2Proof.Machine.execSupplySettleEnd y state s
  | .resetNRise => Sys2Proof.Machine.execResetNRise s
  | .dieResumed k => Sys2Proof.Machine.execDieResumed k s
  | .uartRecoveryImage image => Sys2Proof.Machine.execUartRecoveryImage image s
  | .announceRx p h gm => Sys2Proof.Machine.execAnnounceRx p h gm s
  | .czSessionEnd conn => Sys2Proof.Machine.execCzSessionEnd conn s
  | .pciCplTimeout p chan => Sys2Proof.Machine.execPciCplTimeout p chan s
  | .vernierLoopLock => Sys2Proof.Machine.execVernierLoopLock s
  | .trngRecovered => Sys2Proof.Machine.execTrngRecovered s
  | .returnSlewInLockWin => Sys2Proof.Machine.execReturnSlewInLockWin s
  | .stackSleep m hearthStopped => Sys2Proof.Machine.execStackSleep m hearthStopped s
  | .stackWake m => Sys2Proof.Machine.execStackWake m s
  | .calCommitted ok => Sys2Proof.Machine.execCalCommitted ok s
  | .opalRendererError p => Sys2Proof.Machine.execOpalRendererError p s

end Sys2Proof.Machine
end

