-- ==== Sys2Proof/Machine/Tick.lean ====
section
/-! DEFINITION. What the device does when no command waits: one cycle of TCLK (log entry 1). -/

namespace Sys2Proof.Machine

/-- OT96 advances by the rate word, and by a part of a slew (R115, R117). -/
def State.timeTick (s : State) : State :=
  if s.time.running then
    let d := s.slewPart
    { s with time := { s.time with
      ot := ((s.time.ot : Int) + s.time.rate + d).toNat
      slewLeft := s.time.slewLeft - d } }
  else s

/-- A turn sample of the lowest-numbered octant in SYNC passes: combiner source 0xE01 (R260, R283). -/
def State.turnTick (s0 s : State) : State :=
  match s.syncOctants with
  | [] => s
  | k :: _ =>
    match s.turnSampleIn k (s0.sampleAt k s0.time.ot) (s.sampleAt k s.time.ot) with
    | some u => s.combEvent 0xE01 (s.sampleTime k u) (fun _ => true)
    | none => s

/-- Die 0's block counter passes a block boundary while the die produces no blocks, or the one at which it resumes: a
frame boundary of the CLK block (R48, R79). -/
def State.frameTick (s : State) : State :=
  let d := s.die 0
  let b := s.sampleAt 0 s.time.ot / 80
  if d.started && (d.down || decide (s.clk.frameCount < d.count)) && decide (s.clk.frameCount < b) then
    (s.setClk (fun c => { c with frameCount := b })).clkFrame
  else s

/-- Stops that no start of their own cycle has met are ORDER errors (R109, R111). -/
def State.stopTick (s : State) : State :=
  if s.tins.any (fun e => e.2.pendStop.isSome) then s.each 16 State.orderStop else s

/-- Converters that wait to exchange roles do so once their input is idle (R105). -/
def State.swapTick (s : State) : State :=
  if s.tins.any (fun e => e.2.swap) then
    s.each 16 (fun s i => s.when (s.tinIdle i) (fun s => s.setTin i ((s.tin i).exchange s.now)))
  else s

/-- Records of definitions that the last switch point changed close once their old cells can fire no more (R302). -/
def State.switchedTick (s : State) : State :=
  if s.trg.defs.any (fun e => e.2.switched && e.2.segs != []) then s.each 32 State.closeSwitched else s

/-- Corrected reads that the memory side has reported are counted (R343). -/
def State.corrTick (s : State) : State :=
  if s.cel.corrPend.isEmpty then s
  else ({ s with cel := { s.cel with corrPend := [] } } : State).over s.cel.corrPend State.corrected

/-- The scan-outs in a cycle: lines are fetched, and a base that a later one replaced is dropped (R379, R382). -/
def State.videoTick (s : State) : State :=
  if s.scans.isEmpty then s else s.each 2 (fun s d => (s.baseTick d).fetchTick d)

/-- A tile in a cycle: the ladder's reload, and one item leaves its output queue (R160, R572). -/
def State.tileTick (s : State) (n : Nat) : State := (s.tileReload n).tileSend n

/-- One TCLK cycle: device time advances, firings reach the cells above their own, and the tiles go on (R115, R160). -/
def State.tick (s : State) : State :=
  let s : State := { s with now := s.now + 1 }
  (s.turnTick s.timeTick).stopTick.corrTick.swapTick.linkTick.switchedTick.frameTick.videoTick.each 68 State.tileTick

end Sys2Proof.Machine
end

