-- ==== Sys2Proof/Safety.lean ====
section
/-! DEFINITION. What a safe state is: the memory is in its canonical form, so that equal contents are equal data, and
what a state that a run reaches keeps. -/

namespace Sys2Proof.Machine

/-- The canonical form of memory: addresses strictly rising, and no byte listed that an unlisted address reads as. -/
def Memory.wf (m : Table Nat Byte) : Bool := Table.wf natLt (fun _ => 0) m

/-- The invariant of the machine. -/
def State.Inv (s : State) : Prop := Memory.wf s.mem = true

/-- A step that does not stop, and the state after it. -/
def Steps (s t : State) : Prop := step s = .next t

end Sys2Proof.Machine
end

