-- ==== Sys2Proof/WellFormed.lean ====
section
/-! DEFINITION. Commands whose operands have the shape that the manual gives them.  The meanings are total and do not
ask for it; an ill-formed command is one that no sender can make. -/

namespace Sys2Proof

/-- The operands have the sizes of the manual: a block close brings 80 codes of each of 32 channels (R45, R48); an
excursion has a sample (R51); a boundary brings at most one mark per die (R126); a calibration run gives a trim for each
of the three ranges (R481, R487); a descriptor that comes through PCIe has 64 bytes (R393); a fabric item has its entry
header (R468) and a retrieval request 64 bytes (R313); a client's key has 64 bytes (R564). -/
def Instr.wellFormed (i : Instr) : Bool :=
  match i with
  | .blockClose _ codes => codes.length == 32 && codes.all (fun c => c.length == 80)
  | .overRangeExcursion _ _ signs _ _ => signs != []
  | .epochBoundary marks => decide (marks.length ≤ 8)
  | .calRunDone _ offs gain skew _ => offs.length == 3 && gain.length == 3 && skew.length == 3
  | .dmaDescFetch _ _ desc _ => desc.length == 64 || desc == []
  | .fabItemRx _ entry => decide (32 ≤ entry.length)
  | .fabRtvReqRx _ entry => entry.length == 64
  | .czSessionConnect _ key _ => key.length == 64
  | _ => true

end Sys2Proof
end

