-- ==== Sys2Proof/Certificates/Slice0/Obligations.lean ====
section
/-! DEFINITION. The statements about the machine that are to be proved. -/

open Sys2Proof Sys2Proof.Machine

/-- A step takes the command at the front of the queue and runs it on the state with the queue's rest (log entry 8). -/
def Obligations.StepRunsFrontCommand : Prop :=
  ∀ (c : Instr) (rest : List Instr) (s : State),
    step { s with pending := c :: rest } = exec c { s with pending := rest }

/-- A step on an empty queue is one TCLK cycle, which is the model's choice (log entry 1): OT96 advances by its rate word
(R115), and stands still while the time base is not running; nothing else changes while no item waits in a tile. -/
def Obligations.IdleStepIsOneCycle : Prop :=
  ∀ s : State, s.pending = [] → (∀ n, n < 68 → (s.tile n).out = [] ∧ (s.tile n).cands = [] ∧ (s.tile n).acks = [] ∧
      (s.tile n).ladder = false) → s.syncOctants = [] →
    (∀ e ∈ s.tins, e.2.pendStop = none ∧ e.2.swap = false) → s.trg.links = [] → s.cel.corrPend = [] →
    (∀ e ∈ s.trg.defs, e.2.switched = false) →
    (∀ d, d < 2 → (s.scan d).base.length < 2 ∧ ((s.scan d).live = false ∨ s.flag VID_CTRL.EN d = false)) →
    (s.die 0).down = false → ((s.die 0).started = true → (s.die 0).count ≤ s.clk.frameCount) →
    (s.time.running = true → s.time.slewLeft = 0 →
      step s = .next { s with now := s.now + 1, time := { s.time with ot := s.time.ot + s.time.rate } }) ∧
    (s.time.running = false → step s = .next { s with now := s.now + 1 })

/-- The machine after reset: the invariant holds, nothing is queued, sent or listed in memory, and the registers hold the
values of their tables' Reset columns (R10).  That the device is in STANDBY is the model's reading (log entry 79). -/
def Obligations.ResetState : Prop :=
  State.reset.Inv ∧ State.reset.pending = [] ∧ State.reset.out = [] ∧ State.reset.dev = .standby ∧
  (∀ r i, State.reset.reg r i = r.reset i) ∧ (∀ a, State.reset.byte a = 0) ∧
  State.reset.fld SYS_ID.PART 0 = 0x2560 ∧ State.reset.fld SYS_ID.REV 0 = 0xB0 ∧
  State.reset.fld EVQ_SIZE.SIZE_LOG2 0 = 10 ∧ State.reset.fld EVQ_CTRL.IRQ_THRESHOLD 0 = 1 ∧
  State.reset.flag EVQ_CTRL.ENABLE 0 = false ∧ State.reset.fld EVQ_BASE_HI.BASE_HI 0 = 0x0020 ∧
  State.reset.fld CNV_STATUS.CLKQ 3 = 3 ∧ State.reset.fld CNV_CH_CFG.RANGE 255 = 1 ∧
  State.reset.fld PWR_CMP_CFG.THRESH 0 = 1620 ∧ State.reset.fld PWR_CMP_CFG.THRESH 2 = 1650

/-- The invariant of the machine is inductive: whatever command stands in front, or none, a step from a state whose memory
is in canonical form leads to such a state.  The states range over all of them, reachable or not. -/
def Obligations.MemoryStaysCanonical : Prop :=
  ∀ s t : State, s.Inv → Steps s t → t.Inv

/-- `exec` never answers anything but a next state, and the commands that wait there are those that waited before: only a
step takes from the queue. -/
def Obligations.CommandsKeepTheQueue : Prop :=
  ∀ (c : Instr) (s : State), ∃ t, exec c s = .next t ∧ t.pending = s.pending

/-- R8.  REG_WRITE and RC_READ at an address of the control registers, on Hearth or in the protocol (BAR0: statement O11): anything but an aligned 32-bit word
completes with a bus error and neither reads nor changes a register; an aligned access reads or writes the register as a
little-endian word. -/
def Obligations.RegisterAccessesAreAlignedWords : Prop :=
  (∀ (s : State) (path : Path) (a : BitVec 48) (bs : List Byte), (∀ p, path ≠ .bar p) → isControl a.toNat = true → (bs.length ≠ 4 ∨ a.toNat % 4 ≠ 0) →
    exec (.regWrite path a bs) s = .next (s.emit (.busError path a.toNat))) ∧
  (∀ (s : State) (path : Path) (a : BitVec 48) (len : Nat), (∀ p, path ≠ .bar p) → isControl a.toNat = true → (len ≠ 4 ∨ a.toNat % 4 ≠ 0) →
    exec (.rcRead path a len) s = .next (s.emit (.busError path a.toNat))) ∧
  (∀ (s : State) (path : Path) (a : BitVec 48) (bs : List Byte) (k : RegKey), bs.length = 4 → targetOf a.toNat 4 = some (.reg k) →
    s.refusedByTile k = false →
    exec (.regWrite path a bs) s = .next ((s.writeReg k.1 k.2 (ofLe bs)).emit (.writeDone path a.toNat))) ∧
  (∀ (s : State) (path : Path) (a : BitVec 48) (k : RegKey), targetOf a.toNat 4 = some (.reg k) →
    exec (.rcRead path a 4) s =
      .next ((s.readReg k.1 k.2).2.emit (.readDone path a.toNat (leBytes 4 (s.readReg k.1 k.2).1))))

/-- A host write and a host read of registers of each access type (R11): RO, ST, W1C, RC, and a low word that captures its
high word (R66).  Nothing else changes. -/
def Obligations.AccessTypesAtWork : Prop :=
  (∀ (s : State) (path : Path) (a : BitVec 48) (bs : List Byte), bs.length = 4 → targetOf a.toNat 4 = some (.reg (.SYS_ID, 0)) →
    exec (.regWrite path a bs) s = .next (s.emit (.writeDone path a.toNat))) ∧
  (∀ (s : State) (path : Path) (a : BitVec 48) (c : Nat) (v : BitVec 32), targetOf a.toNat 4 = some (.reg (.CNV_CH_CFG, c)) → ∃ t,
    exec (.regWrite path a (leBytes 4 v.toNat)) s = .next t ∧ t.regs = s.regs ∧ t.mem = s.mem ∧
    t.stagedReg .CNV_CH_CFG c = BitVec.ofNat 32 (mergeBits 7 (s.stagedReg .CNV_CH_CFG c).toNat v.toNat) ∧
    (∀ r i, (r, i) ≠ (Reg.CNV_CH_CFG, c) → t.stagedReg r i = s.stagedReg r i)) ∧
  (∀ (s : State) (path : Path) (a : BitVec 48) (c : Nat) (v : BitVec 32), targetOf a.toNat 4 = some (.reg (.CNV_CH_FLAGS, c)) → ∃ t,
    exec (.regWrite path a (leBytes 4 v.toNat)) s = .next t ∧
    t = { s with regs := t.regs, out := .writeDone path a.toNat :: s.out } ∧
    (∀ r i, (r, i) ≠ (Reg.CNV_CH_FLAGS, c) → t.reg r i = s.reg r i) ∧
    ∀ b, (t.reg .CNV_CH_FLAGS c).getLsbD b =
      ((s.reg .CNV_CH_FLAGS c).getLsbD b && !(decide (b < 4) && v.getLsbD b))) ∧
  (∀ (s : State) (path : Path) (a : BitVec 48), targetOf a.toNat 4 = some (.reg (.EVQ_DROPPED, 0)) → ∃ t,
    exec (.rcRead path a 4) s = .next t ∧
    t = { s with
          regs := t.regs
          out := .readDone path a.toNat (leBytes 4 (s.fld EVQ_DROPPED.DROPPED 0)) :: s.out } ∧
    t.fld EVQ_DROPPED.DROPPED 0 = 0 ∧ (∀ r i, (r, i) ≠ (Reg.EVQ_DROPPED, 0) → t.reg r i = s.reg r i)) ∧
  (∀ (s : State) (path : Path) (a : BitVec 48) (k : Nat), targetOf a.toNat 4 = some (.reg (.CNV_SEQ_LO, k)) → ∃ t,
    exec (.captureRead path a 4) s = .next t ∧
    t = { s with
          capt := t.capt
          out := .readDone path a.toNat (leBytes 4 (s.lastClosed k % 2 ^ 32)) :: s.out } ∧
    Table.getD t.capt (.CNV_SEQ_HI, k) 0 = BitVec.ofNat 32 (s.lastClosed k / 2 ^ 32) ∧
    (∀ q, q ≠ (Reg.CNV_SEQ_HI, k) → Table.getD t.capt q 0 = Table.getD s.capt q 0))

/-- The event that raising kind k makes in s (R30, R607). -/
def raisedEvent (s : State) (k : EventKind) (inst : Nat) (fs : List (Nat × Nat × Nat)) : Event :=
  ⟨packSource k.block k.number, packSource k.block inst, k.severity, s.evq.count % 65536, s.ot96, detail fs % 2 ^ 96⟩

/-- R35.  The hold buffer, the order in which held events are written when EVQ_ENABLE sets ENABLE, and the Attic event
log. -/
def Obligations.EventsAreHeldAndWrittenFirst : Prop :=
  (∀ (s : State) (k : EventKind) (inst : Nat) (fs : List (Nat × Nat × Nat)), s.flag EVQ_CTRL.ENABLE 0 = false → s.evq.hold.length < 256 →
    (s.raise k inst fs).evq.hold = s.evq.hold ++ [raisedEvent s k inst fs] ∧
    (s.raise k inst fs).fld EVQ_DROPPED.DROPPED 0 = s.fld EVQ_DROPPED.DROPPED 0) ∧
  (∀ (s : State) (k : EventKind) (inst : Nat) (fs : List (Nat × Nat × Nat)), s.flag EVQ_CTRL.ENABLE 0 = false → 256 ≤ s.evq.hold.length →
    (s.raise k inst fs).evq.hold = s.evq.hold ∧ (s.raise k inst fs).evq.inFlight = s.evq.inFlight ∧
    (s.raise k inst fs).fld EVQ_DROPPED.DROPPED 0 = satU 32 (s.fld EVQ_DROPPED.DROPPED 0 + 1)) ∧
  (∀ (s : State) (path : Path) (v : BitVec 32), s.flag EVQ_CTRL.ENABLE 0 = false → s.evqInSystem = true → s.evq.hold.length ≤ 256 →
    ∃ t n, exec (.evqEnable path v) s = .next t ∧ t.flag EVQ_CTRL.ENABLE 0 = true ∧
      t.fld EVQ_CTRL.IRQ_THRESHOLD 0 = bits v.toNat 15 8 ∧ t.flag EVQ_CTRL.IRQ_EN 0 = bit v.toNat 1 ∧
      t.evq.inFlight.map EvqWrite.ev = s.evq.inFlight.map EvqWrite.ev ++ s.evq.hold.take n ∧
      t.evq.hold = s.evq.hold.drop n ∧ (n < s.evq.hold.length → t.evqFull = true) ∧
      t = { s with evq := t.evq, regs := t.regs, out := .writeDone path (Reg.EVQ_CTRL.addr 0) :: s.out } ∧
      ∀ r i, (r, i) ≠ (Reg.EVQ_CTRL, 0) → t.reg r i = s.reg r i) ∧
  (∀ (s : State) (k : EventKind) (inst : Nat) (fs : List (Nat × Nat × Nat)), (s.raise k inst fs).evq.attic =
    if 3 ≤ k.severity then s.evq.attic ++ [.event (raisedEvent s k inst fs)] else s.evq.attic)

/-- EVQ_WRITE_ACK (R33): what the acknowledgement of the oldest issued entry does, and what it leaves unchanged. -/
def Obligations.EventEntryAcknowledged : Prop :=
  (∀ (s : State) (w : EvqWrite) (rest : List EvqWrite), s.evq.inFlight = w :: rest → ∃ t,
    exec (.evqWriteAck false) s = .next t ∧ t.evq = { s.evq with inFlight := rest, lastSeq := w.ev.seq } ∧
    t.fld EVQ_TAIL.TAIL 0 = (s.fld EVQ_TAIL.TAIL 0 + 1) % s.evqEntries % 65536 ∧
    t.bytes (s.evqBase + 32 * s.fld EVQ_TAIL.TAIL 0) 32 = w.ev.bytes w.ovf ∧
    (∀ a, (a < s.evqBase + 32 * s.fld EVQ_TAIL.TAIL 0 ∨ s.evqBase + 32 * s.fld EVQ_TAIL.TAIL 0 + 32 ≤ a) →
      t.byte a = s.byte a) ∧
    (∀ r i, (r, i) ≠ (Reg.EVQ_TAIL, 0) → (r, i) ≠ (Reg.EVQ_STATUS, 0) → t.reg r i = s.reg r i) ∧
    t = { s with evq := t.evq, regs := t.regs, mem := t.mem, cel := t.cel, out := t.out }) ∧
  (∀ (s : State) (w : EvqWrite) (rest : List EvqWrite), s.evq.inFlight = w :: rest → ∃ t,
    exec (.evqWriteAck true) s = .next t ∧
    t.evq.inFlight = (rest.take 1).map (fun x => { x with ovf := true }) ++ rest.drop 1 ∧
    (rest = [] → t.evq.ovf = true) ∧ t.flag EVQ_STATUS.WR_ERR 0 = true ∧
    t.fld EVQ_DROPPED.DROPPED 0 = satU 32 (s.fld EVQ_DROPPED.DROPPED 0 + 1) ∧
    t.fld EVQ_TAIL.TAIL 0 = s.fld EVQ_TAIL.TAIL 0 ∧
    (∀ r i, (r, i) ≠ (Reg.EVQ_DROPPED, 0) → (r, i) ≠ (Reg.EVQ_STATUS, 0) → t.reg r i = s.reg r i) ∧
    t = { s with evq := t.evq, regs := t.regs, epoch := t.epoch })

/-- The host's operations on the event queue and the device-written rings, and SET_ARM, each with all that changes. -/
def Obligations.RingsUnderHostControl : Prop :=
  (∀ (s : State) (path : Path) (v : BitVec 32), s.flag EVQ_CTRL.ENABLE 0 = true → s.evq.inFlight = [] → ∃ t,
    exec (.evqDisable path v) s = .next t ∧ t.flag EVQ_CTRL.ENABLE 0 = false ∧ t.fld EVQ_TAIL.TAIL 0 = 0 ∧
    t.fld EVQ_HEAD.HEAD 0 = 0 ∧ t.evq = s.evq ∧ t.mem = s.mem ∧
    ∀ r i, (r, i) ∉ [(Reg.EVQ_CTRL, 0), (.EVQ_TAIL, 0), (.EVQ_HEAD, 0)] → t.reg r i = s.reg r i) ∧
  (∀ (s : State) (path : Path) (v : BitVec 32), s.evq.hold = [] → exec (.evqHeadWrite path v) s = .next
    ((if headOk s.evqEntries (s.fld EVQ_HEAD.HEAD 0) (s.fld EVQ_TAIL.TAIL 0) (bits v.toNat 15 0)
      then s.setFld EVQ_HEAD.HEAD 0 (bits v.toNat 15 0) else s).emit (.writeDone path (Reg.EVQ_HEAD.addr 0)))) ∧
  (∀ (s : State) (path : Path) (v : BitVec 32), s.flag EVQ_CTRL.ENABLE 0 = true → ∃ t, exec (.evqDisable path v) s = .next t ∧
    t.flag EVQ_CTRL.ENABLE 0 = false ∧ t.fld EVQ_TAIL.TAIL 0 = 0 ∧ t.fld EVQ_HEAD.HEAD 0 = 0 ∧ t.evq.inFlight = [] ∧
    t.evq.hold = s.evq.hold ∧ t.evq.attic = s.evq.attic) ∧
  (∀ (s : State) (path : Path) (v : BitVec 32), s.flag EVQ_CTRL.ENABLE 0 = true → s.evq.hold.length ≤ 256 →
    headOk s.evqEntries (s.fld EVQ_HEAD.HEAD 0) (s.fld EVQ_TAIL.TAIL 0) (bits v.toNat 15 0) = true →
    ∃ t n, exec (.evqHeadWrite path v) s = .next t ∧ t.fld EVQ_HEAD.HEAD 0 = bits v.toNat 15 0 ∧
      t.evq.inFlight.map EvqWrite.ev = s.evq.inFlight.map EvqWrite.ev ++ s.evq.hold.take n ∧
      t.evq.hold = s.evq.hold.drop n ∧ (n < s.evq.hold.length → t.evqFull = true) ∧
      t = { s with evq := t.evq, regs := t.regs, out := .writeDone path (Reg.EVQ_HEAD.addr 0) :: s.out } ∧
      ∀ r i, (r, i) ≠ (Reg.EVQ_HEAD, 0) → t.reg r i = s.reg r i) ∧
  (∀ (s : State) (path : Path) (v : BitVec 16), exec (.ringHeadWrite path .jasper v) s = .next
    ((if headOk s.jasperEntries (s.fld TDC_RING_PTR.HEAD 0) (s.fld TDC_RING_PTR.TAIL 0) v.toNat
      then s.setFld TDC_RING_PTR.HEAD 0 v.toNat else s).emit (.writeDone path (Reg.TDC_RING_PTR.addr 0)))) ∧
  (∀ (s : State) (path : Path) (v : BitVec 16), exec (.ringHeadWrite path .completion v) s = .next
    ((if headOk s.rtcEntries (s.fld TRG_RTC_PTR.HEAD 0) (s.fld TRG_RTC_PTR.TAIL 0) v.toNat
      then s.setFld TRG_RTC_PTR.HEAD 0 v.toNat else s).emit (.writeDone path (Reg.TRG_RTC_PTR.addr 0)))) ∧
  (∀ (s : State) (path : Path) (v : BitVec 16), exec (.ringHeadWrite path .telemetry v) s = .next
    ((if headOk s.telEntries (s.fld PAN_TEL_PTR.HEAD 0) (s.fld PAN_TEL_PTR.TAIL 0) v.toNat
      then s.setFld PAN_TEL_PTR.HEAD 0 v.toNat else s).emit (.writeDone path (Reg.PAN_TEL_PTR.addr 0)))) ∧
  (∀ (s : State) (e : List Byte), s.flag TRG_RTC_BASE_HI.ENABLE 0 = true → s.completion.inFlight = [e] →
    s.completion.failed = true →
    exec (.ringRewriteRetry .completion) s = .next (if s.completion.lastTry + msCycles ≤ s.now
      then ({ s with completion := { s.completion with inFlight := [], failed := false } } : State).putCompletion e
      else s)) ∧
  (∀ (s : State) (e : List Byte), s.flag PAN_TEL_BASE_HI.ENABLE 0 = true → s.telemetry.inFlight = [e] →
    s.telemetry.failed = true →
    exec (.ringRewriteRetry .telemetry) s = .next (if s.telemetry.lastTry + msCycles ≤ s.now
      then ({ s with telemetry := { s.telemetry with inFlight := [], failed := false } } : State).putTelemetry e
      else s)) ∧
  (∀ (s : State), s.flag FAB_RX_BASE_HI.ENABLE 0 = true →
    (s.now < s.fab.rxTry + msCycles → exec (.ringRewriteRetry .fabric) s = .next s) ∧
    (∀ (e : List Byte), s.fab.rxHeld = [e] → s.fab.rxTry + msCycles ≤ s.now →
      (inCellar s.rxBase (64 * s.rxUnits) || inSystem s.rxBase (64 * s.rxUnits)) = true →
      let wp := (s.reg .FAB_RX_WP 0).toNat
      ((List.range (e.length / 64)).any (fun i => s.poisoned (s.rxBase + 64 * ((wp + i) % s.rxUnits))) = false →
        ∃ t, exec (.ringRewriteRetry .fabric) s = .next t ∧ t.fab = { s.fab with rxHeld := [] } ∧
          t.reg .FAB_RX_WP 0 = BitVec.ofNat 32 (wp + e.length / 64) ∧ t.evq = s.evq) ∧
      ((List.range (e.length / 64)).any (fun i => s.poisoned (s.rxBase + 64 * ((wp + i) % s.rxUnits))) = true →
        exec (.ringRewriteRetry .fabric) s = .next { s with fab := { s.fab with rxTry := s.now } }))) ∧
  (∀ (s : State), (s.flag FAB_RX_BASE_HI.ENABLE 0 = false → exec (.ringRewriteRetry .fabric) s = .next s) ∧
    (s.flag TRG_RTC_BASE_HI.ENABLE 0 = false → exec (.ringRewriteRetry .completion) s = .next s) ∧
    (s.flag PAN_TEL_BASE_HI.ENABLE 0 = false → exec (.ringRewriteRetry .telemetry) s = .next s)) ∧
  (∀ (s : State) (path : Path) (v : BitVec 32), ∃ t, exec (.setArm path v) s = .next t ∧
    t.flag TDC_TIME_CFG.SET_ARM 0 = true ∧ t.mem = s.mem ∧
    ∀ r i, (r, i) ≠ (Reg.TDC_TIME_CFG, 0) → t.reg r i = s.reg r i)

/-- A session exists for connection c, has not answered REQ_ID req and has no challenge waiting under it (R567). -/
def freshRequest (s : State) (c req : Nat) : Bool :=
  match s.session c with
  | some y => (y.cache.find? (fun e => e.1 == req)).isNone && !s.sec.waits.contains (.challenge (.session c) req)
  | none => false

/-- Accesses through the BARs of an endpoint (R409) and by requests of the CZ protocol (R566).  The address at which
LOAD_IMAGE places an image is a free value (log entry 71). -/
def Obligations.AccessesByEndpointAndProtocol : Prop :=
  (∀ (s : State) (p : Fin 2) (x : BitVec 64) (k : RegKey), s.rootPort p = false → s.flag PCI_STATUS.LINK_UP p = true →
    x.toNat < 0x480000 → x.toNat % 4 = 0 → targetOf (0x004000000000 + x.toNat) 4 = some (.reg k) →
    exec (.barAccess p false x 4 none) s =
      .next ((s.readReg k.1 k.2).2.emit (.readDone (.bar p) x.toNat (leBytes 4 (s.readReg k.1 k.2).1)))) ∧
  (∀ (s : State) (p : Fin 2) (x : BitVec 64) (len : Nat) (bs : List Byte), s.rootPort p = false →
    s.flag PCI_STATUS.LINK_UP p = true → inCellar ((s.reg .PCI_WIN_OFS p).toNat * 65536 + x.toNat) bs.length = true →
    isControl ((s.reg .PCI_WIN_OFS p).toNat * 65536 + x.toNat) = false → x.toNat + bs.length ≤ barSize p →
    exec (.barAccess p true x len (some bs)) s = .next
      ((s.devPut srcPcie ((s.reg .PCI_WIN_OFS p).toNat * 65536 + x.toNat) bs).emit (.writeDone (.bar p) x.toNat))) ∧
  (∀ (s : State) (p : Fin 2) (x : BitVec 64) (len : Nat) (bs : List Byte), s.rootPort p = false →
    s.flag PCI_STATUS.LINK_UP p = true → (bs.length ≠ 4 ∨ x.toNat % 4 ≠ 0) →
    exec (.barAccess p false x len (some bs)) s = .next (s.addFld PCI_ERR.UR_CA p 1)) ∧
  (∀ (s : State) (c : Nat) (req : BitVec 64) (a : Nat) (k : RegKey), freshRequest s c req.toNat = true → a < 2 ^ 64 →
    targetOf a 4 = some (.reg k) → exec (.readReg c req (leBytes 8 a)) s =
      .next ((s.readReg k.1 k.2).2.czAnswer (.session c) req.toNat 0x10 czOK (leBytes 4 (s.readReg k.1 k.2).1))) ∧
  (∀ (s : State) (c : Nat) (req : BitVec 64) (a : Nat) (v : Word) (k : RegKey), freshRequest s c req.toNat = true →
    a < 2 ^ 64 → targetOf a 4 = some (.reg k) → s.refusedByTile k = false →
    exec (.writeReg c req (leBytes 8 a ++ leBytes 4 v.toNat ++ leBytes 4 0xFFFFFFFF)) s =
      .next ((s.writeReg k.1 k.2 v.toNat).czAnswer (.session c) req.toNat 0x11 czOK [])) ∧
  (∀ (s : State) (c : Nat) (req : BitVec 64) (a n : Nat), freshRequest s c req.toNat = true → a < 2 ^ 64 → n ≤ 2 ^ 24 →
    targetOf a n = some .memory → s.poisonedRange a n = false →
    exec (.readMem c req (leBytes 8 a ++ leBytes 4 n)) s =
      .next ((s.readBy s.srcOther a n).czAnswer (.session c) req.toNat 0x12 czOK (s.bytes a n))) ∧
  (∀ (s : State) (c : Nat) (req : BitVec 64) (a : Nat) (bs : List Byte), freshRequest s c req.toNat = true →
    a < 2 ^ 64 → bs.length < 2 ^ 32 → targetOf a bs.length = some .memory → s.poisonedRange a bs.length = false →
    exec (.writeMem c req (leBytes 8 a ++ leBytes 4 bs.length ++ bs)) s =
      .next ((s.devPut s.srcOther a bs).czAnswer (.session c) req.toNat 0x13 czOK [])) ∧
  (∀ (s : State) (c : Nat) (req : BitVec 64) (image : List Byte), freshRequest s c req.toNat = true →
    image.length ≤ 2 ^ 24 → s.prgBusy = false → ∃ a, a % 64 = 0 ∧ inSystem a image.length = true ∧
    exec (.loadImage c req image) s = .next (
      let u : State := { s with free := s.free + 1 }
      ((((u.devPut u.srcOther a image).setReg .SYS_IMG_ADDR_LO 0 (BitVec.ofNat 32 a)).setReg
        .SYS_IMG_ADDR_HI 0 (BitVec.ofNat 32 (a / 2 ^ 32))).setReg .SYS_IMG_LEN 0 (BitVec.ofNat 32
        image.length)).prgLoad.czAnswer (.session c) req.toNat 0x20 czOK []))

/-- BLOCK_CLOSE: what a die sends to the hub when its blocks close, and that a die which does not run closes none. -/
def Obligations.DieClosesItsBlocks : Prop :=
  (∀ (s : State) (k : Fin 8) (codes : List (List (BitVec 12))), s.hubCopy k = true → ∃ t blks,
    exec (.blockClose k codes) s = .next t ∧ (t.die k).count = (s.die k).count + 1 ∧
    (t.die k).hubLink = (s.die k).hubLink ++ blks ∧ blks.length = 32 ∧
    ∀ j, j < 32 → ∃ blk, blks[j]? = some blk ∧ blk.ch = 32 * k.val + j ∧ blk.count = (s.die k).count ∧
      blk.bytes.length = 128 ∧
      ((s.chan (32 * k + j)).stale = [] → (s.chan (32 * k + j)).calStale = [] → (s.chan (32 * k + j)).excs = [] → (s.chan (32 * k + j)).corr = none →
        s.fld CNV_CH_UOFFS.UOFFS (32 * k + j) = 0 → s.fld CNV_CH_UGAIN.UGAIN (32 * k + j) = 32768 →
        blk.bytes.take 120 =
          packSamples ((List.range 80).map (fun i => (nth (nth codes j []) i 0).toInt)))) ∧
  (∀ (s : State) (k : Fin 8) (codes : List (List (BitVec 12))), ((s.die k).started = false ∨ (s.die k).down = true) →
    exec (.blockClose k codes) s = .next s)

/-- Over-range excursions and the clamp, as they change the channel, its counter and what is reported. -/
def Obligations.OverRangeAndClamp : Prop :=
  (∀ (s : State) (c : Fin 256) (first : Nat) (signs : List Bool) (o : Option Nat), signs ≠ [] →
    (s.chan c).excPeak = none → ((s.chan c).prot = [] ∨ ∃ n, n < first + signs.length ∧ (s.chan c).prot = [⟨n, none⟩]) →
    exec (.overRangeExcursion c first signs o .upTo6) s =
      .next (s.setChan c { s.chan c with
        excs := (s.chan c).excs ++ [(first, signs)], excEnd := first + signs.length, excPeak := some .upTo6
        excOver6 := o.map (first + ·), excClamped := decide ((s.chan c).prot ≠ [])
        dirty := (s.chan c).dirty ++
          [⟨first, some (first + signs.length +
            s.samplesWithin (c.val / 32) (if (s.chan c).prot = [] then 3000 else 12000))⟩] })) ∧
  (∀ (s : State) (c : Fin 256) (n : Nat) (neg : Bool), (s.chan c).clamp = false → (s.chan c).recovering = false →
    (s.chan c).recovered = none → exec (.clampEngage c n neg) s =
      .next ((((s.setChan c { s.chan c with
          clamp := true, recovering := false, clampNeg := neg, prot := (s.chan c).prot ++ [⟨n, none⟩]
          excClamped := (s.chan c).excClamped || decide (n ≤ (s.chan c).excEnd) }).addFld
        CNV_CH_PROT_COUNT.COUNT c 1).stat (0x400 + 32 * c.val + 24) 1).raise Ev.PROT_ENGAGED c
        [(0, 5, n / 80), (5, 1, b2n neg)])) ∧
  (∀ (s : State) (c : Fin 256) (n t : Nat) (neg : Bool), (s.chan c).clamp = false → (s.chan c).recovering = false →
    (s.chan c).recovered = some t → s.now < t + msCycles → exec (.clampEngage c n neg) s =
      .next (((s.setChan c { s.chan c with
          clamp := true, recovering := false, clampNeg := neg, prot := (s.chan c).prot ++ [⟨n, none⟩]
          excClamped := (s.chan c).excClamped || decide (n ≤ (s.chan c).excEnd) }).addFld
        CNV_CH_PROT_COUNT.COUNT c 1).stat (0x400 + 32 * c.val + 24) 1)) ∧
  (∀ (s : State) (c : Fin 256) (n : Nat), (s.chan c).clamp = true → exec (.clampDisengage c n) s =
    .next (s.setChan c { s.chan c with clamp := false, recovering := true, clampOff := n })) ∧
  (∀ (s : State) (c : Fin 256) (n : Nat), (s.chan c).clamp = false → (s.chan c).recovering = true →
    s.recoveredAt (c.val / 32) (s.chan c).clampOff n = false → exec (.clampRecoveryEnd c n) s = .next s) ∧
  (∀ (s : State) (c : Fin 256) (n : Nat), (s.chan c).clamp = false → (s.chan c).recovering = true →
    s.recoveredAt (c.val / 32) (s.chan c).clampOff n = true → ∃ t, exec (.clampRecoveryEnd c n) s = .next t ∧ t = { s with chans := t.chans } ∧
    (t.chan c).recovering = false ∧ (t.chan c).recovered = some s.now ∧
    (∀ p ∈ (t.chan c).prot, p.stop ≠ none) ∧
    ∀ d, d ≠ c.val → (∀ q ∈ (s.chan d).nbr, q.1 ≠ c.val ∨ q.2.stop ≠ none) → t.chan d = s.chan d)

/-- The links of a converter die, its re-initialisation and resumption, and the end of a range hold. -/
def Obligations.DieLinksAndHolds : Prop :=
  (∀ (s : State) (k : Fin 8), (s.die k).down = false →
    ((s.die k).hubFails < 3 → exec (.dieLinkCrc k true) s =
      .next (s.setDie k { s.die k with hubFails := (s.die k).hubFails + 1 })) ∧
    ((s.die k).anaFails < 3 → exec (.dieLinkCrc k false) s =
      .next (s.setDie k { s.die k with anaFails := (s.die k).anaFails + 1 })) ∧
    (3 ≤ (s.die k).hubFails → exec (.dieLinkCrc k true) s = .next (s.dieDown k))) ∧
  (∀ (s : State) (k : Fin 8), (s.die k).down = false → ((s.dieDown k).die k).down = true ∧
    ((s.dieDown k).die k).downSince = s.now ∧ (s.dieDown k).hubCopy k = false) ∧
  (∀ (s : State) (k : Fin 8), (s.die k).down = true → ∃ t, exec (.dieResumed k) s = .next t ∧
    (t.die k).down = false ∧ (t.die k).count = max (s.die k).count (s.countNow k) ∧
    t.evq.count = s.evq.count + 1 ∧ t.mem = s.mem) ∧
  (∀ (s : State) (c : Fin 256) (n : Nat) (changed : Bool), (s.chan c).hold = some changed →
    (n ≠ s.sampleAfter (c.val / 32) (s.chan c).holdAt 2000000 → exec (.rangeHoldEnd c n) s = .next s) ∧
    (n = s.sampleAfter (c.val / 32) (s.chan c).holdAt 2000000 → exec (.rangeHoldEnd c n) s = .next (((if changed then (s.endHold c n).trimsFrom c (n / 80) else s.endHold c n)).raise
      Ev.RANGE_SETTLED c [(0, 1, s.fld CNV_CH_CFG.RANGE c), (1, 5, n / 80), (6, 1, b2n (!changed))])) ∧
    ((s.endHold c n).chan c).hold = none ∧ (∀ p ∈ ((s.endHold c n).chan c).stale, p.stop ≠ none) ∧
    (s.endHold c n).flag CNV_CH_ROUTE.STALE_NOW c = (s.chan c).calHold)

/-- The window comparators: what each event does to an output that is not held at 0. -/
def Obligations.ComparatorOutputs : Prop :=
  (∀ (s : State) (c : Fin 256) (above raw : Bool), s.cmpHeld c = false →
    (s.cmp (cmpIdx c above)).settling = true → exec (.comparatorCrossing c above raw) s =
      .next (s.setCmp (cmpIdx c above) { s.cmp (cmpIdx c above) with raw := raw })) ∧
  (∀ (s : State) (c : Fin 256) (above raw : Bool), s.cmpHeld c = false → (s.cmp (cmpIdx c above)).settling = false →
    exec (.comparatorCrossing c above raw) s =
      .next (((s.setCmp (cmpIdx c above) { s.cmp (cmpIdx c above) with raw := raw }).setFlag (cmpUnsettled above) c false).setFlag
        (cmpInband above) c false)) ∧
  (∀ (s : State) (c : Fin 256) (above : Bool) (w : BitVec 5), s.cmpHeld c = false →
    (s.cmp (cmpIdx c above)).blanking = false → (s.cmp (cmpIdx c above)).settling = false →
    s.flag (cmpUnsettled above) c = false →
    exec (.comparatorAccept c above w) s = .next (
      if 3 ≤ ((List.range 5).filter (fun i => bit w.toNat i == !s.flag (cmpState above) c)).length then
        (s.cmpTake c above (!s.flag (cmpState above) c)).setCmp (cmpIdx c above)
          { s.cmp (cmpIdx c above) with blanking := true, blankAt := s.now }
      else s)) ∧
  (∀ (s : State) (c : Fin 256) (above : Bool), exec (.comparatorBlankEnd c above) s =
    .next (if (s.cmp (cmpIdx c above)).blankAt +
        s.fld CNV_CH_CMP_CFG.BLANK c * 16 ^ s.fld CNV_CH_CMP_CFG.TICK_SEL c ≤ s.now then
      s.setCmp (cmpIdx c above) { s.cmp (cmpIdx c above) with blanking := false } else s)) ∧
  (∀ (s : State) (c : Fin 256) (above : Bool), s.cmpHeld c = false → s.flag (cmpUnsettled above) c = true →
    (s.cmp (cmpIdx c above)).since + s.fld CNV_CH_CMP_CFG.SETTLE c * usCycles ≤ s.now →
    exec (.cmpSettleEnd c above true) s = .next (((s.setFlag (cmpUnsettled above) c false).setFlag (cmpInband above) c
      true).raise Ev.CMP_INBAND c [(0, 1, b2n (!above))]) ∧
    exec (.cmpSettleEnd c above false) s =
      .next ((s.setFlag (cmpUnsettled above) c false).cmpTake c above (s.cmp (cmpIdx c above)).raw)) ∧
  (∀ (s : State) (c : Fin 256), (s.cmp (cmpIdx c true)).settleAt + s.settleCycles c ≤ s.now → ∃ t,
    exec (.cmpResettleEnd c) s = .next t ∧ t = { s with cmps := t.cmps, regs := t.regs } ∧
    (∀ above, t.cmp (cmpIdx c above) = { s.cmp (cmpIdx c above) with settling := false } ∧
      t.flag (cmpState above) c = s.flag (cmpState above) c) ∧
    (∀ r i, (r, i) ≠ (Reg.CNV_CH_CMP_STAT, c.val) → t.reg r i = s.reg r i))

/-- The presence detector of REFIN and the entry into coasting. -/
def Obligations.ReferenceDetector : Prop :=
  (∀ s : State, exec .refinEdge s = .next
    (if s.fld CLK_STATUS.REF_STATE 0 = refABSENT then
      (s.setFld CLK_STATUS.REF_STATE 0 refQUALIFYING).setClk (fun c => { c with qualAt := s.now }) else s)) ∧
  (∀ (s : State) (hz : Nat), s.now < s.clk.qualAt + s.fld CLK_REF_CFG.QUAL 0 * 10 * msCycles →
    exec (.refQualifyEnd hz) s = .next s) ∧
  (∀ (s : State) (hz : Nat), s.fld CLK_STATUS.REF_STATE 0 = refQUALIFYING → hz = s.fld CLK_REF_NOM.NOM_HZ 0 →
    s.flag CLK_REF_CFG.SRC_SEL 0 = false → s.tree = treeCOASTING →
    s.clk.qualAt + s.fld CLK_REF_CFG.QUAL 0 * 10 * msCycles ≤ s.now → ∃ t, exec (.refQualifyEnd hz) s = .next t ∧
    t = ((({ s with clk := { s.clk with refHz := hz } } : State).setFld CLK_STATUS.REF_STATE 0 refPRESENT).raise
      Ev.REF_QUALIFIED 0 [(0, 4, hz)]).setClk (fun c => { c with ret := some .measuring })) ∧
  (∀ (s : State) (hz : Nat), s.fld CLK_REF_CFG.TOL_PPM 0 * s.fld CLK_REF_NOM.NOM_HZ 0 <
      (hz - s.fld CLK_REF_NOM.NOM_HZ 0) * 1000000 → exec (.refQualifyEnd hz) s = .next s) ∧
  (∀ (s : State) (w : Int), s.fld CLK_STATUS.REF_STATE 0 = refQUALIFYING →
    exec (.refMissingEdge w) s = .next (s.setFld CLK_STATUS.REF_STATE 0 refABSENT)) ∧
  (∀ (s : State) (w : Int), s.fld CLK_STATUS.REF_STATE 0 = refPRESENT → s.flag CLK_REF_CFG.SRC_SEL 0 = false →
    s.clk.ret = none → s.synLock = true → s.clk.relock = 0 → ∃ t, exec (.refMissingEdge w) s = .next t ∧
    t = ((s.setFld CLK_STATUS.REF_STATE 0 refABSENT).refLost 0).coast w ∧ t.tree = treeCOASTING ∧ t.synLock = false ∧
    t.flag CLK_STATUS.TILE_LOCK 0 = false ∧ t.fld CLK_STATUS.REF_STATE 0 = refABSENT ∧
    t.flag CLK_FLAGS.REF_LOST_SEEN 0 = true ∧ t.clk.coastPpb = some w ∧ t.mem = s.mem)

/-- The lock detectors and the relock sequence. -/
def Obligations.LockAndRelock : Prop :=
  (∀ (s : State) (q hz tc : Nat), s.synLock = false → s.clk.relock = 6 → q * 2 ^ 32 * 1000000000 = s.gateExpected →
    s.nearCeiling hz s.fSyn.1 s.fSyn.2 = false → s.nearCeiling tc 1600000000 1 = false →
    let u := s.setFld CLK_FREQ_ERR.ERR 0 0
    exec (.lockGateEnd q hz tc false) s = .next (if s.clk.goodGates = 0 then u.setClk (fun c => { c with goodGates := 1 })
      else ((u.setClk (fun c => { c with goodGates := 0, relock := 7 })).setFlag CLK_STATUS.SYN_LOCK 0 true).relockDone)) ∧
  (∀ (s : State) (q hz tc : Nat), s.synLock = true → ∃ t, exec (.lockGateEnd q hz tc true) s = .next t ∧
    t.flag CLK_FLAGS.SYN_UNLOCK_SEEN 0 = true ∧ (s.clk.relock = 0 → t.synLock = false ∧ t.tree = treeRELOCKING ∧
      t.clk.relock = 4 ∧ ∀ k : Fin 8, (t.die k).onBypass = true)) ∧
  (∀ (s : State) (k : Fin 8), s.clk.relock ≠ 0 → exec (.pllPhaseLock (.jc k)) s = .next
    (s.setFld CLK_STATUS.JC_LOCK 0 (s.fld CLK_STATUS.JC_LOCK 0 ||| 2 ^ k.val)).relockDone) ∧
  (∀ s : State, s.clk.relock = 7 → s.synLock = true → s.flag CLK_STATUS.TILE_LOCK 0 = true →
    s.fld CLK_STATUS.JC_LOCK 0 = 255 → s.relockDone.tree = treeLOCKED ∧ s.relockDone.clk.relock = 0 ∧
    s.relockDone.clk.everLocked = true ∧ ∀ k : Fin 8, (s.relockDone.die k).onBypass = false) ∧
  (∀ s : State, s.flag CLK_STATUS.TILE_LOCK 0 = true →
    exec (.pllPhaseUnlock .tile) s = .next (s.setFlag CLK_STATUS.TILE_LOCK 0 false).relockCause) ∧
  (∀ (s : State) (m : Fin 4), exec (.pllPhaseUnlock (.mem m)) s =
    .next (s.setClk (fun c => { c with memLock := setNth c.memLock m false }))) ∧
  (∀ s : State, s.flag CLK_STATUS.BYP_LOCK 0 = true → s.dev = .boot → ∃ t, exec .bypUnlock s = .next t ∧
    t.flag CLK_STATUS.BYP_LOCK 0 = false ∧ t.mem = s.mem ∧ t.dev = s.dev) ∧
  (∀ s : State, exec .relockStepDone s = .next (
    if s.clk.relock = 4 then s.setClk (fun c => { c with relock := 5 })
    else if s.clk.relock = 5 then s.setClk (fun c => { c with relock := 6, goodGates := 0 }) else s)) ∧
  (∀ s : State, s.clk.relock = 6 → exec .relockFail s = .next (if s.clk.step4At + 100 * msCycles ≤ s.now then
    (((s.dropReturn.setClk (fun c => { c with
      relock := relockWAIT, failAt := s.now, failSince := some (c.failSince.getD s.now) })).setTree treeBYPASS).setFlag CLK_STATUS.SYN_LOCK 0 false).raise Ev.RELOCK_FAIL 0 [(0, 2, s.clk.attempts)] else s)) ∧
  (∀ s : State, s.clk.relock = relockWAIT → s.now < s.clk.failAt + sCycles → exec .relockRetry s = .next s) ∧
  (∀ s : State, s.clk.relock = relockWAIT → s.clk.failAt + sCycles ≤ s.now → exec .relockRetry s = .next s.restartRelock ∧
    s.restartRelock.clk.relock = 4 ∧ s.restartRelock.clk.attempts = s.clk.attempts + 1 ∧
    s.restartRelock.tree = treeRELOCKING)

/-- Offset slew, fine delays and the return of the reference. -/
def Obligations.OffsetsDelaysAndReturn : Prop :=
  (∀ (s : State) (path : Path) (v : BitVec 32), exec (.offsetWrite path v) s = .next (State.wrote (
    if 50000 < (toS 32 v.toNat - toS 32 (s.reg .CLK_SYN_OFFSET 0).toNat).natAbs ∨
        s.fld CLK_CEIL.CEIL_PPM 0 * 1000 < (toS 32 v.toNat).natAbs then s.setFlag CLK_FLAGS.OFFSET_REFUSED 0 true
    else (s.setReg .CLK_SYN_OFFSET 0 v).setClk (fun c => { c with offsetWaits := true })) path .CLK_SYN_OFFSET 0)) ∧
  (∀ (s : State) (t0 : Nat), s.clk.slewAt = some t0 → s.offsetNow ≠ s.clk.slewTo → exec .offsetSlewDone s = .next s) ∧
  (∀ (s : State) (t0 : Nat), s.clk.slewAt = some t0 → s.offsetNow = s.clk.slewTo → ∃ t, exec .offsetSlewDone s = .next t ∧
    t.clk = { s.clk with offset := s.clk.slewTo, slewAt := none } ∧
    t.flag CLK_STATUS.SLEWING 0 = (s.clk.ret == some .slew) ∧ t.mem = s.mem ∧ t.evq = s.evq) ∧
  (∀ (s : State) (path : Path) (n : Fin 4) (v : BitVec 32), ∃ t, exec (.delayWrite path ⟨8 + n, by omega⟩ v) s = .next t ∧
    t.fld CLK_CKO_DLY.FINE n = v.toNat % 1024 ∧ (8 + n.val) ∈ t.clk.delayWaits ∧
    (∀ r i, (r, i) ≠ (Reg.CLK_CKO_DLY, n.val) → t.reg r i = s.reg r i)) ∧
  (∀ (s : State) (d : Fin 12), d.val ∈ s.clk.moving → s.stepDue d = false → exec (.delayStep d) s = .next s) ∧
  (∀ (s : State) (n : Fin 4), (8 + n.val) ∈ s.clk.moving → s.stepDue (8 + n.val) = true →
    Table.getD s.clk.delay (8 + n.val) 0 + 1 < Table.getD s.clk.delayTo (8 + n.val) 0 →
    exec (.delayStep ⟨8 + n, by omega⟩) s = .next (s.setClk (fun c => { c with
      delay := Table.set 0 c.delay (8 + n.val) (Table.getD s.clk.delay (8 + n.val) 0 + 1)
      stepAt := Table.set 0 c.stepAt (8 + n.val) s.now }))) ∧
  (∀ (s : State) (n : Fin 4), (8 + n.val) ∈ s.clk.moving → s.stepDue (8 + n.val) = true →
    Table.getD s.clk.delay (8 + n.val) 0 + 1 = Table.getD s.clk.delayTo (8 + n.val) 0 → ∃ t,
    exec (.delayStep ⟨8 + n, by omega⟩) s = .next t ∧ (8 + n.val) ∉ t.clk.moving ∧
    Table.getD t.clk.delay (8 + n.val) 0 = Table.getD s.clk.delayTo (8 + n.val) 0 ∧ t.flag CLK_CKO_STAT.SLEWING n = false) ∧
  (∀ (s : State) (j : Int) (predicted : Nat), s.clk.ret = some .measuring → s.flag CLK_POLICY.RETURN 0 = false →
    s.fld TDC_TIME_CFG.TIME_SRC 0 = 0 → ∃ t, exec (.phaseJumpMeasured j predicted) s = .next t ∧
    t.clk = { s.clk with ret := some .slew, retStart := s.now, retAt := s.now, retMoved := 0, periods := 0 } ∧ t.flag CLK_STATUS.SLEWING 0 = true ∧
    t.reg .CLK_JUMP 0 = BitVec.ofInt 32 j ∧ (∀ k : Fin 8, (t.die k).ambig = true) ∧ t.evq.count = s.evq.count + 2) ∧
  (∀ s : State, s.clk.ret = some .slew → s.slewReached = false → exec .returnSlewInLockWin s = .next s) ∧
  (∀ s : State, s.clk.ret = some .slew → s.slewReached = true → exec .returnSlewInLockWin s = .next
    ((s.setClk (fun c => { c with ret := some .closing, retStart := s.now - c.retStart, goodGates := 0 })).setFlag
      CLK_STATUS.SLEWING 0 s.clk.slewAt.isSome))

/-- The way of a block from the hub link of its die into its slot of the raw ring. -/
def Obligations.BlocksReachTheRing : Prop :=
  (∀ (s : State) (k : Fin 8), (s.die k).hubLink = [] → exec (.blockLand k) s = .next s) ∧
  (∀ (s : State) (k : Fin 8) (b : SBlock) (rest : List SBlock), (s.die k).hubLink = b :: rest →
    s.cel.running = true →
    let u := s.setDie k { s.die k with hubLink := rest, hubFails := 0 }
    let g := s.gibOf (b.ch / 32) b.count
    let a := s.ringAddr g b.ch b.count
    let q := a / 128 % 128
    (g = 0 → exec (.blockLand k) s = .next (u.settle b)) ∧
    (g ≠ 0 → s.poisoned a = true → exec (.blockLand k) s = .next (u.landDiscard b)) ∧
    (g ≠ 0 → s.poisoned a = false → s.cel.capped.contains q = true →
      exec (.blockLand k) s = .next (((u.setFlag LND_STATUS.CAPPED 0 true).landDiscard b).discardEvent 3)) ∧
    (g ≠ 0 → s.poisoned a = false → s.cel.capped.contains q = false →
      128 * (s.queue q).length < s.fld LND_CFG.PC_CAP 0 * 1024 → s.flag LND_STATUS.FULL 0 = true →
      exec (.blockLand k) s = .next ((u.landDiscard b).discardEvent 4)) ∧
    (g ≠ 0 → s.poisoned a = false → s.cel.capped.contains q = false →
      128 * (s.queue q).length < s.fld LND_CFG.PC_CAP 0 * 1024 → s.flag LND_STATUS.FULL 0 = false →
      s.landFill < 31 * 2 ^ 20 → ∃ t, exec (.blockLand k) s = .next t ∧
        t.queue q = s.queue q ++ [⟨b, a⟩] ∧ (∀ p, p ≠ q → t.queue p = s.queue p) ∧
        (t.die k).hubLink = rest ∧ (∀ j, j ≠ k.val → t.die j = s.die j) ∧
        s.fld LND_PEAK.KIB 0 ≤ t.fld LND_PEAK.KIB 0 ∧
        (∀ (r : Reg) (i : Nat), (r, i) ≠ (.LND_PEAK, 0) → t.reg r i = s.reg r i) ∧
        t = { s with regs := t.regs, dies := t.dies, cel := t.cel, epoch := t.epoch })) ∧
  (∀ (s : State) (b : SBlock) (k : Nat), k = b.ch / 32 → (s.settle b).die k =
    { s.die k with unsettled := (s.die k).unsettled.filter (· != (b.ch, b.count)), head := ((s.settle b).die k).head } ∧
    (s.die k).head ≤ ((s.settle b).die k).head) ∧
  (∀ (s : State) (q : Fin 128), s.queue q = [] → s.crossHead q = none → exec (.ringWriteIssue q) s = .next s) ∧
  (∀ (s : State) (q : Fin 128) (w : RingWrite) (rest : List RingWrite) (h : Nat), s.queue q = w :: rest →
    s.crossHead q = none → s.hpcOf w.addr = some h → exec (.ringWriteIssue q) s = .next (if s.stalled h then
        (if (s.crossing (h / 32)).length < 16 then (State.landRelief { s.setQueue q rest with cel :=
          { (s.setQueue q rest).cel with cross := s.cel.cross ++ [w] } } q).payRefresh q else s)
      else
      let u := (s.setQueue q rest).breakPins w.addr w.blk
      let u : State := { u with cel := { u.cel with issued := u.cel.issued ++ [w] } }
      ((u.memLog srcRing true w.addr 128).landRelief q).payRefresh q)) ∧
  (∀ (s : State) (q : Fin 128) (w : RingWrite) (h : Nat), s.crossHead q = some w → s.hpcOf w.addr = some h →
    s.stalled h = false → exec (.ringWriteIssue q) s = .next
      (let u := ({ s with cel := { s.cel with cross := s.cel.cross.erase w } } : State).breakPins w.addr w.blk
      let u : State := { u with cel := { u.cel with issued := u.cel.issued ++ [w] } }
      u.memLog srcRing true w.addr 128)) ∧
  (∀ (s : State) (q : Fin 128), s.cel.issued.find? (fun w => w.addr / 128 % 128 == q.val) = none →
    exec (.ringWriteAck q) s = .next s) ∧
  (∀ (s : State) (q : Fin 128) (w : RingWrite),
    s.cel.issued.find? (fun w => w.addr / 128 % 128 == q.val) = some w →
    let u : State := ({ s with cel := { s.cel with issued := s.cel.issued.erase w } } : State).devWrite w.addr w.blk.bytes
    let v := u.setDie (w.blk.ch / 32) { u.die (w.blk.ch / 32) with
      ringWrote := true, ringLast := max (u.die (w.blk.ch / 32)).ringLast w.blk.count }
    exec (.ringWriteAck q) s = .next (v.settle w.blk).closeSegments ∧
    (s.poisoned w.addr = false → w.addr % 128 = 0 → w.blk.bytes.length = 128 →
      ∀ i, i < 128 → some (u.byte (w.addr + i)) = w.blk.bytes[i]?))

/-- Planned stalls of the memory: which start, which are deferred, and what each does. -/
def Obligations.PlannedStalls : Prop :=
  (∀ (s : State) (x : Stall), s.planStall x = if s.stallOk then s.runStall x else
    (((({ s with cel := { s.cel with waiting := s.cel.waiting ++ [(x, s.now)] } } : State).addFld LND_DEFERS.COUNT 0 1).stat
      0xC6 1).raise Ev.STALL_DEFERRED 0 [(0, 1, x.code)])) ∧
  (∀ (s : State), s.stallOk = true → s.cel.stall = none ∧ s.landFill ≤ s.fld LND_CFG.GATE 0 * 1024 ∧
    (∀ e ∈ s.cel.queues, 128 * e.2.length ≤ s.fld LND_CFG.PC_GATE 0 * 1024) ∧
    (∀ t, s.cel.stallEnd = some t → t + 100 * usCycles ≤ s.now)) ∧
  (∀ (s : State), exec .plannedStallRetry s = .next (match s.cel.waiting with
    | [] => s
    | (x, t) :: rest => if s.now < t + 10 * usCycles then s
      else ({ s with cel := { s.cel with waiting := rest } } : State).planStall x)) ∧
  (∀ (s : State) (path : Path) (v : BitVec 32),
    let u := s.setFld CEL_FC_CTRL.STACKS 0 (bits v.toNat 3 0)
    let u := if bits v.toNat 5 4 = 3 then u else u.setFld CEL_FC_CTRL.RATE 0 (bits v.toNat 5 4)
    exec (.fcGo path v) s = .next (State.wrote (if bit v.toNat 31 = true ∧ u.fld CEL_FC_CTRL.STACKS 0 ≠ 0 ∧
        (List.range 4).all (fun m => !bit (u.fld CEL_FC_CTRL.STACKS 0) m || u.rateFits m (u.fld CEL_FC_CTRL.RATE 0)) = true then
      u.planStall (.freq (u.fld CEL_FC_CTRL.STACKS 0) (u.fld CEL_FC_CTRL.RATE 0)) else u) path .CEL_FC_CTRL 0)) ∧
  (∀ (s : State) (mask rate : Nat) (aligned : Bool), s.cel.stall = some (.freq mask rate) →
    ∃ t, exec (.freqChangeDone aligned) s = .next t ∧ t.cel.stall = none ∧ t.cel.stallEnd = some s.now ∧
      t.flag CEL_STATUS.FC_BUSY 0 = false ∧ t.evq.count = s.evq.count + 1 ∧ t.mem = s.mem ∧
      (∀ m, m < 4 → bits (t.fld CEL_FC_STAT.RATE 0) (2 * m + 1) (2 * m) =
        if aligned = true ∧ bit mask m = true then rate % 4 else bits (s.fld CEL_FC_STAT.RATE 0) (2 * m + 1) (2 * m))) ∧
  (∀ (s : State) (aligned : Bool), s.cel.stall = none → exec (.freqChangeDone aligned) s = .next s) ∧
  (∀ (s : State) (h : Fin 128) (bank : Fin 48) (row : BitVec 16), exec (.softRepair h bank row) s = .next
    (if s.pcDown h then s else s.planStall (.repair h bank row.toNat))) ∧
  (∀ (s : State) (h bank row : Nat), s.cel.soft.contains (h, bank, row) = false →
    (s.softRow h bank row).rowsUsed h bank = s.rowsUsed h bank + 1 ∧
    (s.softRow h bank row).cel.soft = s.cel.soft ++ [(h, bank, row)] ∧
    (s.cel.softOn = true → bits ((s.softRow h bank row).live .CEL_REPAIR 0) 11 0 = satU 12 (s.cel.soft.length + 1)) ∧
    (s.softRow h bank row).mem = s.mem ∧ (s.softRow h bank row).regs = s.regs)

/-- Freezes of HBM pseudo-channels, and the acknowledged writes of the loss map and of the anchor log. -/
def Obligations.FreezeReleaseAndLossMap : Prop :=
  (∀ (s : State) (h : Fin 128) (cause : Fin 3) (bank : Fin 48) (row : BitVec 16) (col : Fin 32) (synd : BitVec 16),
    (s.pc h ≠ .ok → exec (.pcFreeze h cause bank row col synd) s = .next s) ∧
    (s.pc h = .ok → ∃ t, exec (.pcFreeze h cause bank row col synd) s = .next t ∧ t.pc h = .frozen ∧
      bit (t.reg .CEL_FROZEN (h.val / 32)).toNat (h.val % 32) = true ∧
      Table.get? t.cel.diag h = some (bank.val * 2 ^ 26 + row.toNat * 2 ^ 10 + col.val * 2 ^ 5,
        cause.val * 2 ^ 24 + (if cause.val = 0 then 0 else 3) * 2 ^ 16 + (if cause.val = 0 then synd.toNat else 0)) ∧
      (∀ j, j ≠ h.val → t.pc j = s.pc j) ∧ s.evq.count < t.evq.count ∧
      (cause.val ≠ 0 → t.reg .CEL_ECC_UNCORR 0 = s.reg .CEL_ECC_UNCORR 0))) ∧
  (∀ (s : State) (h : Fin 128), exec (.pcRelease h) s = .next (s.pcReleased h) ∧
    exec (.pcRetire h) s = .next (s.pcRetired h)) ∧
  (∀ (s : State) (h : Nat), (s.pc h ≠ .frozen → s.release h = s ∧ s.retirePc h = s) ∧
    (s.pc h = .frozen → (s.release h).pc h = .reinit ∧ s.retirePc h = s.setPc h .retired)) ∧
  (∀ (s : State) (h : Fin 128) (passed : Bool) (rows : List (Fin 48 × BitVec 16)), s.pc h ≠ .reinit →
    exec (.pcReinitDone h passed rows) s = .next s) ∧
  (∀ (s : State) (h : Fin 128) (rows : List (Fin 48 × BitVec 16)), s.pc h = .reinit →
    (∃ u : State, exec (.pcReinitDone h true rows) s = .next ((u.lossSync s.downPcs).raise Ev.PC_RELEASED h
        [(0, 1, 0), (1, 2, rows.length)]) ∧ u.pc h = .ok ∧
      bit (u.reg .CEL_FROZEN (h.val / 32)).toNat (h.val % 32) = false ∧ Table.get? u.cel.history h = none ∧
      u.mem = (s.wipePc h).mem ∧ u.evq = s.evq) ∧
    exec (.pcReinitDone h false rows) s =
      .next (((s.setPc h .retired).lossSync s.downPcs).unitFailed kMEM h)) ∧
  (∀ (s : State), exec .lossEntryAck s = .next (match s.cel.losses.find? (fun e => !e.acked) with
    | none => s
    | some e =>
      let losses := s.cel.losses.filterMap (fun x =>
        if x = e then (if e.closed.isSome then none else some { e with acked := true }) else some x)
      let u := ({ s with cel := { s.cel with losses := losses, lossNext := s.cel.lossNext + 1 } } : State).raise
        Ev.LOSS_OPEN (celInst e.hpc) [(0, 8, e.entry), (8, 1, e.cause)]
      if e.closed.isSome then u.rewriteLoss e else u)) ∧
  (∀ (s : State) (error : Bool) (a : List Byte) (rest : List (List Byte)) (r : Region), s.cel.anchors = a :: rest →
    s.region 5 0 = some r → ∃ t, exec (.anchorWriteAck error) s = .next t ∧ t.cel.anchors = rest ∧
      t.cel.anchorNext = s.cel.anchorNext + 1 ∧
      t.mem = (if error then s else s.devWrite (r.offset + 64 * (s.cel.anchorNext % (r.length / 64))) a).mem ∧
      t = { s with mem := t.mem, cel := t.cel }) ∧
  (∀ (s : State) (error : Bool), (s.cel.anchors = [] ∨ s.region 5 0 = none) →
    exec (.anchorWriteAck error) s = .next s)

/-- Refresh, patrol scrub, hard repair and self-refresh. -/
def Obligations.RefreshScrubRepairSleep : Prop :=
  (∀ (s : State) (h : Fin 128),
    let owed := Table.getD s.cel.owed h.val 0
    let idle := s.pc h = .frozen ∨ s.pc h = .retired ∨ s.stalled h = true ∨
      s.timerDue (tmRefresh h) (s.refreshCycles h) = false
    (idle → exec (.refreshDue h) s = .next s) ∧
    (¬ idle → s.queue h ≠ [] → owed < s.fld CEL_REFRESH.POSTPONE 0 → exec (.refreshDue h) s =
      .next { s.timerSet (tmRefresh h) with cel := { s.cel with owed := Table.set 0 s.cel.owed h.val (owed + 1) } }) ∧
    (¬ idle → (s.queue h = [] ∨ s.fld CEL_REFRESH.POSTPONE 0 ≤ owed) → exec (.refreshDue h) s =
      .next (({ s.timerSet (tmRefresh h) with cel := { s.cel with owed := Table.set 0 s.cel.owed h.val 0 } } : State).hist h.val srcControl
        (List.replicate (owed + 1) (5, 0, 0, 0, 0))))) ∧
  (∀ (s : State) (h : Fin 128) (bank : Fin 48) (row : BitVec 16) (col : Fin 32) (corrected : Bool),
    (s.flag CEL_SCRUB.EN 0 = false ∨ s.pcDown h = true ∨ s.stalled h = true ∨ (bank.val = 0 ∧ row = 0 ∧ col.val = 0 ∧
      s.timerDue (tmScrub h) (s.fld CEL_SCRUB.PERIOD_H 0 * 3600 * sCycles) = false)) →
    exec (.scrubRead h bank row col corrected) s = .next s) ∧
  (∀ (s : State) (h : Fin 128) (bank : Fin 48) (row : BitVec 16) (col : Fin 32),
    s.flag CEL_SCRUB.EN 0 = true → s.pcDown h = false → s.stalled h = false →
    (¬ (bank.val = 0 ∧ row = 0 ∧ col.val = 0) ∨
      s.timerDue (tmScrub h) (s.fld CEL_SCRUB.PERIOD_H 0 * 3600 * sCycles) = true) →
    let pass := Table.getD s.cel.scrubPass h.val 0 + (if bank.val = 0 ∧ row = 0 ∧ col.val = 0 then 1 else 0)
    let key := (h.val * 64 + bank.val) * 65536 + row.toNat
    (∃ t, exec (.scrubRead h bank row col false) s = .next t ∧ Table.getD t.cel.scrubPass h.val 0 = pass ∧
      t.cel.scrub = s.cel.scrub ∧ t.regs = s.regs ∧ t.mem = s.mem ∧ t.evq = s.evq) ∧
    (∃ t, exec (.scrubRead h bank row col true) s = .next t ∧ Table.getD t.cel.scrubPass h.val 0 = pass ∧
      Table.getD t.cel.scrub key (0, 0) = (if (Table.getD s.cel.scrub key (0, 0)).1 ≠ 0 ∧
        (Table.getD s.cel.scrub key (0, 0)).2 = pass then Table.getD s.cel.scrub key (0, 0)
        else ((Table.getD s.cel.scrub key (0, 0)).1 + 1, pass)) ∧
      t.fld CEL_ECC_CORR.COUNT 0 = satU (CEL_ECC_CORR.COUNT.hi + 1 - CEL_ECC_CORR.COUNT.lo)
        (s.fld CEL_ECC_CORR.COUNT 0 + 1) ∧ t.mem = s.mem)) ∧
  (∀ (s : State) (h : Fin 128) (bank : Fin 48) (row : BitVec 16), exec (.hardRepair h bank row) s = .next
    (if (Table.get? s.cel.moved h.val).isSome || s.dev == .service then s.hardRow h bank row.toNat else s)) ∧
  (∀ (s : State) (m : Fin 4) (stopped : Bool),
    let busy := (List.range 8).any (fun k => (s.die k).started && !(s.die k).down)
    let wanted := s.cel.queues.any (fun e => e.1 / 32 == m.val) || (s.cel.cross ++ s.cel.issued).any (fun w =>
      match s.hpcOf w.addr with | some h => h / 32 == m.val | none => false)
    (busy || wanted || s.clientsBusy || (decide (m.val < 2) && !stopped) || bit s.cel.asleep m.val ||
        s.cel.stall.isSome → exec (.stackSleep m stopped) s = .next s) ∧
    (¬ (busy || wanted || s.clientsBusy || (decide (m.val < 2) && !stopped) || bit s.cel.asleep m.val ||
        s.cel.stall.isSome) → ∃ c, exec (.stackSleep m stopped) s = .next { s with cel := c } ∧
      c.asleep = s.cel.asleep ||| 2 ^ m.val ∧ (∀ j, j < 32 → Table.getD c.owed (32 * m.val + j) 0 = 0) ∧
      (∀ h, h / 32 ≠ m.val → Table.getD c.owed h 0 = Table.getD s.cel.owed h 0 ∧
        Table.getD c.history h [] = Table.getD s.cel.history h []))) ∧
  (∀ (s : State) (m : Fin 4), s.cel.stallAt (32 * m.val) = false → ∃ c, exec (.stackWake m) s = .next { s with cel := c } ∧
    bit c.asleep m.val = false ∧ (∀ j, j < 4 → j ≠ m.val → bit c.asleep j = bit s.cel.asleep j) ∧ c.owed = s.cel.owed) ∧
  (∀ (s : State) (m : Fin 4), s.cel.stallAt (32 * m.val) = true → exec (.stackWake m) s = .next s)

/-- Edges of the timing inputs and the end of their settle intervals.  An instant is counted in vernier steps of 1/160
TCLK cycle, so 2 ns are 512 steps. -/
def Obligations.TimingInputEdges : Prop :=
  (∀ (s : State) (n : Fin 25) (rising : Bool) (inst : Nat), 17 ≤ n.val → (s.tin n).swap = false →
    ∃ t, exec (.tinEdge n rising inst) s = .next t ∧ t = { s with tins := t.tins } ∧
      t.tin n = (if s.deadAt n inst then { s.tin n with raw := rising, edges := (s.tin n).edges + 1 }
        else { s.tin n with raw := rising, edges := (s.tin n).edges + 1, lastKept := some inst, stampOt := s.otOf inst })) ∧
  (∀ (s : State) (rising : Bool) (inst : Nat), (s.tin 16).swap = false →
    ∃ t, exec (.tinEdge 16 rising inst) s = .next t ∧ t = { s with tins := t.tins } ∧
      t.tin 16 = (if rising && !s.deadAt 16 inst &&
          decide (((s.tin 16).edges + 1) % 16 ^ s.fld TDC_TIME_CFG.REF_PRESCALE 0 = 0) then
        { s.tin 16 with raw := rising, edges := (s.tin 16).edges + 1, lastKept := some inst, stampOt := s.otOf inst }
        else { s.tin 16 with raw := rising, edges := (s.tin 16).edges + b2n rising })) ∧
  (∀ (s : State) (n : Fin 25) (rising : Bool) (inst : Nat), n.val < 16 → (s.tin n).settling = true →
    exec (.tinEdge n rising inst) s = .next (s.setTin n { s.tin n with raw := rising })) ∧
  (∀ (s : State) (n : Fin 25) (rising : Bool) (inst : Nat), n.val < 16 → (s.tin n).settling = false →
    let slope := s.fld TDC_IN_CFG.SLOPE n
    let taken := slope = 2 ∨ (slope = 0 ∧ rising = true) ∨ (slope = 1 ∧ rising = false)
    ∃ t, exec (.tinEdge n rising inst) s = .next t ∧ (t.tin n).raw = rising ∧
      t.flag TDC_IN_STAT.LEVEL n = rising ∧ t.flag TDC_IN_STAT.UNSETTLED n = false ∧ t.flag TDC_IN_STAT.INBAND n = false ∧
      (¬ taken → (t.tin n).edges = (s.tin n).edges ∧ (t.tin n).lastKept = (s.tin n).lastKept ∧
        t.reg .TDC_IN_DEAD n = s.reg .TDC_IN_DEAD n) ∧
      (∀ l, taken → s.fld TDC_IN_CFG.MODE n = 0 → (s.tin n).lastKept = some l → inst < l + 512 →
        (t.tin n).edges = (s.tin n).edges ∧
        (t.tin n).lastKept = some l ∧ t.fld TDC_IN_DEAD.DEAD n = satU 32 (s.fld TDC_IN_DEAD.DEAD n + 1)) ∧
      (taken → s.fld TDC_IN_CFG.MODE n = 0 → (∀ l, (s.tin n).lastKept = some l → l + 512 ≤ inst) →
        (t.tin n).edges = (s.tin n).edges + 1 ∧
        (t.tin n).lastKept = some inst ∧ t.reg .TDC_IN_DEAD n = s.reg .TDC_IN_DEAD n) ∧
      (taken → s.fld TDC_IN_CFG.MODE n ≠ 0 → (t.tin n).edges = (s.tin n).edges + 1 ∧
        (t.tin n).lastKept = (s.tin n).lastKept ∧ t.reg .TDC_IN_DEAD n = s.reg .TDC_IN_DEAD n)) ∧
  (∀ (s : State) (n : Fin 16) (inBand raw : Bool),
    ((s.tin n).settling = true → s.now < (s.tin n).settleAt + settleTime (s.fld TDC_IN_CFG.MODE n) →
      exec (.tinSettleEnd n inBand raw) s = .next s) ∧
    ((s.tin n).settling = true → (s.tin n).settleAt + settleTime (s.fld TDC_IN_CFG.MODE n) ≤ s.now → ∃ t,
      exec (.tinSettleEnd n inBand raw) s = .next t ∧ (t.tin n).settling = false ∧ (t.tin n).raw = raw ∧
      t.flag TDC_IN_STAT.LEVEL n = raw ∧ t.mem = s.mem ∧
      t.flag TDC_IN_STAT.UNSETTLED n =
        (s.flag TDC_IN_STAT.UNSETTLED n && s.flag TDC_IN_STAT.LEVEL n == raw)) ∧
    ((s.tin n).settling = false → s.now < (s.tin n).since + s.fld TDC_IN_CFG.SETTLE n * usCycles →
      exec (.tinSettleEnd n inBand raw) s = .next s) ∧
    ((s.tin n).settling = false → s.flag TDC_IN_STAT.UNSETTLED n = false →
      exec (.tinSettleEnd n inBand raw) s = .next s) ∧
    ((s.tin n).settling = false → s.flag TDC_IN_STAT.UNSETTLED n = true →
      (s.tin n).since + s.fld TDC_IN_CFG.SETTLE n * usCycles ≤ s.now → inBand = true → ∃ t,
      exec (.tinSettleEnd n inBand raw) s = .next t ∧ t.flag TDC_IN_STAT.INBAND n = true ∧
      t.flag TDC_IN_STAT.UNSETTLED n = false ∧ t.flag TDC_IN_STAT.LEVEL n = s.flag TDC_IN_STAT.LEVEL n ∧
      t.evq.count = s.evq.count + 1 ∧ t.mem = s.mem) ∧
    ((s.tin n).settling = false → s.flag TDC_IN_STAT.UNSETTLED n = true →
      (s.tin n).since + s.fld TDC_IN_CFG.SETTLE n * usCycles ≤ s.now → inBand = false →
      exec (.tinSettleEnd n inBand raw) s =
        .next (((s.setTin n { s.tin n with raw := raw }).setFlag TDC_IN_STAT.UNSETTLED n false).tinTake n raw))) ∧
  (∀ (s : State) (i : Nat) (v : Bool), (s.flag TDC_IN_STAT.LEVEL i = v → s.tinTake i v = s) ∧
    (s.flag TDC_IN_STAT.LEVEL i ≠ v → s.tinTake i v = (s.setFlag TDC_IN_STAT.LEVEL i v).level (0x810 + i) v))

/-- Results of Jasper's measurement functions and the ring that they go to. -/
def Obligations.JasperResults : Prop :=
  (∀ (s : State) (n : Fin 16) (a : Stamp), s.func n = 1 → s.flag TDC_IN_FUNC.SIGNED n = false →
    (s.tin n).armed = some a → s.fld TDC_IN_FUNC.PARTNER n ≠ n.val → exec (.pairWinExpire n) s =
      .next (if 160 * s.now ≤ a.inst + 160 * s.param n then s
        else (s.setTin n { s.tin n with armed := none }).unpaired n)) ∧
  (∀ (s : State) (n : Fin 16) (x : Stamp) (rest : List Stamp), s.func n = 1 → s.flag TDC_IN_FUNC.SIGNED n = true →
    (s.tin n).stops = x :: rest →
    (160 * s.now < x.inst + 160 * s.param n → exec (.pairWinExpire n) s = .next (s.dropStarts n (160 * s.param n))) ∧
    (x.inst + 160 * s.param n ≤ 160 * s.now → nearestStart (s.tin n).starts x (160 * s.param n) = none → ∃ t,
      exec (.pairWinExpire n) s = .next t ∧ (t.tin n).stops = rest ∧ t.jasper = s.jasper ∧ t.mem = s.mem ∧
      s.fld TDC_IN_ERR.UNPAIRED n ≤ t.fld TDC_IN_ERR.UNPAIRED n) ∧
    (∀ a, x.inst + 160 * s.param n ≤ 160 * s.now → nearestStart (s.tin n).starts x (160 * s.param n) = some a → ∃ t,
      exec (.pairWinExpire n) s = .next t ∧ (t.tin n).stops = rest ∧ a ∉ (t.tin n).starts ∧
      (t.tin n).results = (s.tin n).results + 1 ∧ t.mem = s.mem)) ∧
  (∀ (s : State) (n win : Nat) (a : Stamp), a ∈ ((s.dropStarts n win).tin n).starts ↔ a ∈ (s.tin n).starts ∧
    (160 * s.now ≤ a.inst + win ∨ ∃ x ∈ (s.tin n).stops, inWindow win a x = true)) ∧
  (∀ (s : State) (n : Fin 16), s.func n ≠ 1 → s.func n ≠ 3 → exec (.pairWinExpire n) s = .next s) ∧
  (∀ (s : State) (n : Fin 16), s.func n ≠ 2 → exec (.freqGateEnd n) s = .next s) ∧
  (∀ (s : State) (n : Fin 16), 160 * s.now < s.gateEnd n → exec (.freqGateEnd n) s = .next s) ∧
  (∀ (s : State) (n : Fin 16), s.func n = 2 → s.gateEnd n ≤ 160 * s.now → (s.tin n).gate.length < 3 →
    exec (.freqGateEnd n) s = .next (s.setTin n { s.tin n with
      gate := (s.tin n).gate.filter (fun e => decide (s.gateEnd n ≤ e.2))
      gateDrops := (s.tin n).gateDrops.filter (fun x => decide (s.gateEnd n ≤ x)), gateAt := s.gateEnd n })) ∧
  (∀ (s : State) (n : Fin 16) (k d t0 : Nat), s.func n = 2 → 0 < d → s.gateEnd n ≤ 160 * s.now → t0 + 2 * d < s.gateEnd n →
    (s.tin n).gateDrops = [] → (s.tin n).gate = [(k, t0), (k + 1, t0 + d), (k + 2, t0 + 2 * d)] → 2 ^ 32 * 256000000000 / d < 2 ^ 64 →
    exec (.freqGateEnd n) s = .next ((s.setTin n { s.tin n with gate := [], gateAt := s.gateEnd n }).jasperPut 3 n s.uncal
      (leBytes 8 (2 ^ 32 * 256000000000 / d) ++ leBytes 4 3 ++ leBytes 4 0))) ∧
  (∀ (s : State) (n : Fin 16), (s.func n ≠ 3 ∨ (s.tin n).stats.n < 2 ∨ (s.tin n).stats.n < s.param n) →
    exec (.statsComplete n) s = .next s) ∧
  (∀ (s : State) (n : Fin 16) (v : Int) (c : Nat), s.func n = 3 → s.param n ≤ c → 2 ≤ c → v.natAbs < 2 ^ 47 →
    (s.tin n).stats = { n := c, sum := c * v, sumSq := c * (v.natAbs * v.natAbs), min := v, max := v } →
    exec (.statsComplete n) s = .next ((s.setTin n { s.tin n with stats := {} }).jasperPut 4 n s.uncal
      (leBytes 6 (toU 48 v) ++ leBytes 6 (toU 48 v) ++ leBytes 6 (toU 48 v) ++ leBytes 4 0))) ∧
  (∀ (s : State) (error : Bool), exec (.tdcRingWriteAck error) s = .next (match s.jasper.inFlight with
    | [] => s
    | e :: rest =>
      let u : State := { s with jasper := { s.jasper with inFlight := rest } }
      match (if error then none else u.physPut u.srcOther (s.jasperBase + 32 * s.fld TDC_RING_PTR.TAIL 0) e) with
      | none => { (u.addFld TDC_RING_DROPPED.DROPPED 0 1).stat 0xDA 1 with
          jasper := match rest with
            | [] => { u.jasper with ovf := true }
            | w :: r => { u.jasper with inFlight := ovfBefore w :: r } }
      | some v => (v.setFld TDC_RING_PTR.TAIL 0 ((s.fld TDC_RING_PTR.TAIL 0 + 1) % v.jasperEntries)).pend
          TDC_RING_BASE_HI.IRQ_PEND TDC_RING_BASE_HI.IRQ_EN 0 33)) ∧
  (∀ (s : State) (src a : Nat) (bs : List Byte), inSystem a bs.length = true → s.poisonedRange a bs.length = false →
    s.physPut src a bs = some ((s.setBytes a bs).memLog src true a bs.length))

/-- What disciplines device time, and the vernier loop. -/
def Obligations.DeviceTimeDiscipline : Prop :=
  (∀ (s : State) (e : Int), s.fld TDC_TIME_CFG.TIME_SRC 0 = 0 → exec (.timeSrcError e) s = .next s) ∧
  (∀ (s : State) (e : Int), s.fld TDC_TIME_CFG.TIME_SRC 0 ≠ 0 → ∃ t, exec (.timeSrcError e) s = .next t ∧
    t.flag TDC_STATUS.TIME_SRC_OK 0 = true ∧ t.time.ot = s.time.ot ∧ t.time.rate = s.time.rate ∧ t.mem = s.mem ∧
    t.evq = s.evq ∧
    ((fsToOt e).natAbs * 1000000 ≤ s.fld TDC_TIME_CFG.STEP_THR 0 * 2 ^ 80 →
      t.time.slewLeft = -(fsToOt e) ∧ t.time.step = none) ∧
    (s.fld TDC_TIME_CFG.STEP_THR 0 * 2 ^ 80 < (fsToOt e).natAbs * 1000000 → 
      t.time.slewLeft = 0 ∧ t.time.step = some (-(fsToOt e))) ∧
    (∀ (r : Reg) (i : Nat), (r, i) ≠ (.TDC_STATUS, 0) → t.reg r i = s.reg r i)) ∧
  (∀ (s : State), exec .timeSrcLost s = .next (if s.flag TDC_STATUS.TIME_SRC_OK 0 then
      (State.raise { s.setFlag TDC_STATUS.TIME_SRC_OK 0 false with
          time := { s.time with rate := ((s.time.rate : Int) + s.slewPart).toNat, slewLeft := 0 } }
        Ev.TIME_SRC_LOST 0 [(0, 1, s.fld TDC_TIME_CFG.TIME_SRC 0)])
    else s)) ∧
  (∀ (s : State) (k : Fin 8) (block ot : Nat),
    let d := ((ot : Int) - s.sampleTime k (80 * block)).natAbs
    ((s.die k).started = false ∨ d * 10 ^ 11 ≤ 2 ^ 80 → exec (.boundaryMarkerStamp k block ot) s = .next s) ∧
    ((s.die k).started = true → 2 ^ 80 < d * 10 ^ 11 → ∃ t a, exec (.boundaryMarkerStamp k block ot) s = .next t ∧
      (t.die k).anchors.head? = some a ∧ a.block = block ∧ a.time = ot ∧
      t.cel.anchors.length = s.cel.anchors.length + 1 ∧ t.mem = s.mem ∧ t.time = s.time)) ∧
  (∀ (s : State), exec .loopUnlock s = .next (if s.flag TDC_STATUS.LOOP_LOCK 0 then
    (s.setFlag TDC_STATUS.LOOP_LOCK 0 false).raise Ev.LOOP_UNLOCK 0 [] else s)) ∧
  (∀ (s : State), exec .vernierLoopLock s = .next (s.setFlag TDC_STATUS.LOOP_LOCK 0 true))

/-- Calibration of the vernier converters.  A rejected table of the last run leaves the roles as they are (DESIGN CHOICE,
log entry 92). -/
def Obligations.VernierCalibration : Prop :=
  (∀ (s : State), s.now < s.time.calAt + s.fld TDC_CAL.INTERVAL 0 * sCycles → exec .tdcCalInterval s = .next s) ∧
  (∀ (s : State), s.time.calAt + s.fld TDC_CAL.INTERVAL 0 * sCycles ≤ s.now → ∃ t, exec .tdcCalInterval s = .next t ∧
    t = { s with tins := t.tins, time := { s.time with calAt := s.now } } ∧
    ∀ j, j < 16 → t.tin j = (if (s.tin j).calRuns = [] ∧ (s.tin j).swap = false then
      { s.tin j with calRuns := [b2n (!(s.tin j).conv)], calFrom := s.now } else s.tin j)) ∧
  (∀ (s : State) (path : Path), ∃ t, exec (.calNow path) s = .next t ∧ t.flag TDC_CAL.CAL_NOW 0 = true ∧ t.mem = s.mem ∧
    (∀ j, j < 16 → t.tin j = { s.tin j with 
      calRuns := [b2n (!(s.tin j).conv), b2n (s.tin j).conv], swap := false, calFrom := s.now }) ∧
    (∀ (r : Reg) (i : Nat), (r, i) ≠ (.TDC_CAL, 0) → t.reg r i = s.reg r i)) ∧
  (∀ (s : State) (n : Fin 16) (conv : Bool) (d : Nat),
    ((s.tin n).calRuns.head? ≠ some (b2n conv) ∨ (s.tin n).swap = true ∨ s.now < (s.tin n).calFrom + 2 ^ 24) →
    exec (.tdcCalDone n conv d) s = .next s) ∧
  (∀ (s : State) (n : Fin 16) (conv : Bool) (d : Nat), (s.tin n).calRuns.head? = some (b2n conv) →
    (s.tin n).swap = false → (s.tin n).calFrom + 2 ^ 24 ≤ s.now → ∃ t, exec (.tdcCalDone n conv d) s = .next t ∧ t.mem = s.mem ∧
      (t.tin n).calRuns = (s.tin n).calRuns.drop 1 ∧
      (t.tin n).table0 = ((s.tin n).table0 || (decide (d ≤ 2) && !conv)) ∧
      (t.tin n).table1 = ((s.tin n).table1 || (decide (d ≤ 2) && conv)) ∧
      (d ≤ 2 → s.tinIdle n = true → (t.tin n).conv = !(s.tin n).conv ∧ (t.tin n).swap = false) ∧
      (d ≤ 2 → s.tinIdle n = false → (t.tin n).conv = (s.tin n).conv ∧ (t.tin n).swap = true) ∧
      (2 < d → (s.tin n).calRuns.drop 1 = [] → (t.tin n).conv = (s.tin n).conv ∧ (t.tin n).swap = false) ∧
      (∀ j, j ≠ n.val → t.tin j = s.tin j) ∧ (d ≤ 2 → t.evq = s.evq) ∧ (2 < d → t.evq.count = s.evq.count + 1) ∧
      ((∀ j, j < 16 → (t.tin j).calRuns = []) → t.flag TDC_CAL.CAL_NOW 0 = false) ∧
      ((∀ j, j < 16 → (t.tin j).table0 = true ∧ (t.tin j).table1 = true) → t.flag TDC_STATUS.CAL_DONE 0 = true))

/-- The epoch counter, its boundaries and pages.  `EPOCH_TIMEOUT` carries the number of the epoch that begins, which is
the model's reading (log entry 81). -/
def Obligations.EpochsAndPages : Prop :=
  (∀ (s : State), s.fld EPO_CFG.SRC 0 ≠ 0 → s.epoch.candidates = [] → exec .epochAnnounce s = .next s) ∧
  (∀ (s : State) (c : Nat) (cs : List Nat), s.fld EPO_CFG.SRC 0 ≠ 0 → s.epoch.candidates = c :: cs →
    let u : State := { s with epoch := { s.epoch with candidates := cs } }
    exec .epochAnnounce s = .next (match s.epoch.announced with
      | some a => if c < a + nsToOt 1000 then u.addFld EPO_COUNTS.SHORT 0 1 else s
      | none =>
        if s.epoch.lastOt ≠ 0 ∧ c < s.epoch.lastOt + nsToOt 1000 then u.addFld EPO_COUNTS.SHORT 0 1
        else { u with epoch := { u.epoch with announced := some c } })) ∧
  (∀ (s : State), s.fld EPO_CFG.SRC 0 = 0 → s.epoch.announced = none →
    let c := s.timerInstant (max s.time.ot s.epoch.ignored)
    ∃ t, exec .epochAnnounce s = .next t ∧ t.epoch.announced = (if s.epoch.lastOt ≠ 0 ∧
      c < s.epoch.lastOt + nsToOt 1000 then none else some c) ∧ t.time = s.time ∧ t.mem = s.mem) ∧
  (∀ (s : State) (t : Nat), 0 < (s.reg .EPO_PERIOD 0).toNat → t < s.timerInstant t ∧
    ∃ m, (s.timerInstant t - 1) * 1000000 < m * (s.reg .EPO_PERIOD 0).toNat * 2 ^ 80 ∧
      m * (s.reg .EPO_PERIOD 0).toNat * 2 ^ 80 ≤ s.timerInstant t * 1000000) ∧
  (∀ (s : State) (marks : List Nat), (s.epoch.announced = none ∨ ∃ t, s.epoch.announced = some t ∧ s.time.ot < t) →
    exec (.epochBoundary marks) s = .next s) ∧
  (∀ (s : State) (marks : List Nat) (tB : Nat), s.epoch.announced = some tB → tB ≤ s.time.ot →
    ∃ t, exec (.epochBoundary marks) s = .next t ∧ t.epoch.num = (s.epoch.num + 1) % 2 ^ 64 ∧ t.epoch.announced = none ∧
      t.epoch.lastCycle = s.now ∧ t.epoch.forced = false ∧
      (∀ k, k < 8 → Table.getD t.epoch.bounds k 0 = s.sampleAt k tB) ∧
      (s.pageFree = true → t.epoch.writing = true ∧ t.epoch.page.epoch = s.epoch.num ∧ t.epoch.page.stop = tB ∧
        t.epoch.page.start = s.epoch.lastOt)) ∧
  (∀ (s : State), exec .epochTimeout s = .next (if s.now < s.epoch.lastCycle + 1000 * sCycles ∨ s.boundaryDue = true then s else
    let u := if s.epoch.announced.isSome then s.addFld EPO_COUNTS.SHORT 0 1 else s
    State.raise { u with epoch := { u.epoch with announced := some s.time.ot, forced := true } }
      Ev.EPOCH_TIMEOUT 0 [(0, 8, s.epoch.num + 1)])) ∧
  (∀ (s : State), s.epoch.writing = false → exec .epoPageComplete s = .next s) ∧
  (∀ (s : State), s.epoch.writing = true → ∃ t, exec .epoPageComplete s = .next t ∧ t.epoch.writing = false ∧
    t.evq.count = s.evq.count + 1 ∧ t.epoch.num = s.epoch.num ∧ t.time = s.time ∧
    (inSystem (s.pageBase s.epoch.page.epoch) 14336 = true → s.poisoned (s.pageBase s.epoch.page.epoch) = false →
      t.bytes (s.pageBase s.epoch.page.epoch) 64 = s.epoch.page.header)) ∧
  (∀ (p : PageInfo), p.header.length = 64 ∧ le p.header 0 8 = p.epoch % 2 ^ 64 ∧ le p.header 32 4 = 1 ∧
    le p.header 40 4 = 14336) ∧
  (∀ (s : State) (path : Path) (v : BitVec 32), ∃ t, exec (.epoAck path v) s = .next t ∧
    v.toNat ∈ t.epoch.acked ∧ (∀ e ∈ s.epoch.acked, e ∈ t.epoch.acked) ∧ t.regs = s.regs ∧ t.mem = s.mem) ∧
  (∀ (s : State),
    let missed := ∃ k, s.syncOctants.head? = some k ∧ s.fld EPO_TURN_STAT.STATE 0 ≠ 0 ∧ s.turn.lost = false ∧
      s.sampleTime k (s.turn.countFrom + 16 * s.spt k) ≤ s.time.ot
    (missed → exec .turnLost s = .next (((({ s with turn := { s.turn with lost := true } } : State).setFld
      EPO_TURN_STAT.STATE 0 2).raise Ev.TURN_LOST 0 [(0, 8, s.turn.confirmed)]))) ∧
    (¬ missed → exec .turnLost s = .next s))

/-- The tile and the flags field of a Jextan instruction. -/
def jextanOf : Instr → Option (Fin 68 × JFlags)
  | .jNop n f => some (n, f)
  | .jHalt n f => some (n, f)
  | .jB n f _ _ _ => some (n, f)
  | .jCall n f _ _ _ => some (n, f)
  | .jRet n f => some (n, f)
  | .jRep n f _ _ _ => some (n, f)
  | .jBrk n f _ _ _ => some (n, f)
  | .jWaitev n f _ _ => some (n, f)
  | .jEvclr n f _ _ => some (n, f)
  | .jFence n f => some (n, f)
  | .jAdd n f _ _ _ => some (n, f)
  | .jSub n f _ _ _ => some (n, f)
  | .jAnd n f _ _ _ => some (n, f)
  | .jOr n f _ _ _ => some (n, f)
  | .jXor n f _ _ _ => some (n, f)
  | .jShl n f _ _ _ => some (n, f)
  | .jShr n f _ _ _ => some (n, f)
  | .jSar n f _ _ _ => some (n, f)
  | .jMul n f _ _ _ => some (n, f)
  | .jMulh n f _ _ _ => some (n, f)
  | .jMin n f _ _ _ => some (n, f)
  | .jMax n f _ _ _ => some (n, f)
  | .jClz n f _ _ _ => some (n, f)
  | .jCmp n f _ _ _ => some (n, f)
  | .jMov n f _ _ _ => some (n, f)
  | .jAddi n f _ _ _ => some (n, f)
  | .jAndi n f _ _ _ => some (n, f)
  | .jOri n f _ _ _ => some (n, f)
  | .jXori n f _ _ _ => some (n, f)
  | .jShli n f _ _ _ => some (n, f)
  | .jShri n f _ _ _ => some (n, f)
  | .jSari n f _ _ _ => some (n, f)
  | .jCmpi n f _ _ _ => some (n, f)
  | .jLi n f _ _ _ => some (n, f)
  | .jLdw n f _ _ _ => some (n, f)
  | .jStw n f _ _ _ => some (n, f)
  | .jLdh n f _ _ _ => some (n, f)
  | .jSth n f _ _ _ => some (n, f)
  | .jLdp n f _ _ _ => some (n, f)
  | .jRds n f _ _ _ => some (n, f)
  | .jWrs n f _ _ _ => some (n, f)
  | .jAcfg n f _ _ _ => some (n, f)
  | .jAadd n f _ _ _ => some (n, f)
  | .jMova n f _ _ _ => some (n, f)
  | .jMovg n f _ _ _ => some (n, f)
  | .jWaitin n f _ => some (n, f)
  | .jInadv n f _ => some (n, f)
  | .jWaitx n f _ => some (n, f)
  | .jFftr n f _ => some (n, f)
  | .jFftc n f _ => some (n, f)
  | .jIfftc n f _ => some (n, f)
  | .jDet n f _ => some (n, f)
  | .jXspec n f _ => some (n, f)
  | .jMaskc n f _ => some (n, f)
  | .jNco n f _ => some (n, f)
  | .jDecim n f _ => some (n, f)
  | .jThr n f _ => some (n, f)
  | .jFeat n f _ => some (n, f)
  | .jVadd n f _ => some (n, f)
  | .jVsub n f _ => some (n, f)
  | .jVmul n f _ => some (n, f)
  | .jVcmul n f _ => some (n, f)
  | .jVscale n f _ => some (n, f)
  | .jVconv n f _ => some (n, f)
  | .jCdot n f _ => some (n, f)
  | .jBcopy n f _ => some (n, f)
  | .jFill n f _ => some (n, f)
  | .jSpout n f _ => some (n, f)
  | .jTrgc n f _ => some (n, f)
  | .jXmit n f _ => some (n, f)
  | .jXld n f _ => some (n, f)
  | .jXch n f _ => some (n, f)
  | _ => none

/-- What every Jextan instruction has in common before its own operation. -/
def Obligations.JextanGates : Prop :=
  (∀ (c : Instr) (s : State) (n : Fin 68) (fl : JFlags), jextanOf c = some (n, fl) →
    ((s.tile n).runs = false → exec c s = .next s) ∧
    ((s.tile n).runs = true → fl.ecc = .program → exec c s = .next (s.tileFault n flPM_ECC (s.tile n).pc)) ∧
    ((s.tile n).runs = true → fl.ecc = .clean → fl.pred = true → (s.tile n).cond fl.cond.toNat = false →
      exec c s = .next (s.seqFrom n (s.tile n).pc)) ∧
    (∀ a, (s.tile n).runs = true → fl.ecc = .corrected a → ∃ t, exec c s = .next t ∧ s.evq.count < t.evq.count)) ∧
  (∀ (s : State) (n p : Nat), (repNext (s.tile n).calls.length p (s.tile n).reps).1 < 16384 →
    s.seqFrom n p = s.setTile n { s.tile n with
      pc := (repNext (s.tile n).calls.length p (s.tile n).reps).1
      reps := (repNext (s.tile n).calls.length p (s.tile n).reps).2 }) ∧
  (∀ (s : State) (n code p : Nat), code < 2 ^ 8 → p < 2 ^ 14 →
    (s.tileFault n code p).reg .GT_FAULT n = BitVec.ofNat 32 (2 ^ 31 + p * 2 ^ 16 + code) ∧
    s.evq.count < (s.tileFault n code p).evq.count ∧
    (s.groupOf n = none → s.tileFault n code p = ((s.setTile n { s.tile n with state := gtFAULTED }).setReg .GT_FAULT n
      (BitVec.ofNat 32 (2 ^ 31 + p * 2 ^ 16 + code))).raise Ev.TILE_FAULT n [(0, 1, code), (1, 2, p)]))

/-- The tile executes an instruction with these flags: it runs, its memories report nothing, the predicate holds. -/
def jGo (s : State) (n : Nat) (fl : JFlags) : Prop :=
  (s.tile n).runs = true ∧ fl.ecc = .clean ∧ (fl.pred = true → (s.tile n).cond fl.cond.toNat = true)

/-- The next instruction in sequence lies in the program memory. -/
def jIn (s : State) (n : Nat) : Prop := (repNext (s.tile n).calls.length (s.tile n).pc (s.tile n).reps).1 < 16384

/-- Only tile n and the count of free values differ. -/
def onlyTile (n : Nat) (s u : State) : Prop :=
  u = { s with tiles := u.tiles, free := u.free } ∧ ∀ m, m ≠ n → u.tile m = s.tile m

/-- The tile differs in its registers, its flags and its place in the program only, and went on in sequence. -/
def onlyAlu (n : Nat) (s u : State) : Prop :=
  u.tile n = { s.tile n with
    g := (u.tile n).g, z := (u.tile n).z, n := (u.tile n).n, c := (u.tile n).c, v := (u.tile n).v
    pc := (repNext (s.tile n).calls.length (s.tile n).pc (s.tile n).reps).1
    reps := (repNext (s.tile n).calls.length (s.tile n).pc (s.tile n).reps).2 }

/-- The flags of tile n in u follow the result r: Z and N always, C and V where they are given. -/
def flagsOf (n : Nat) (u : State) (r : Int) (cv : Option (Bool × Bool)) : Prop :=
  ((u.tile n).z = true ↔ toU 32 r = 0) ∧ ((u.tile n).n = true ↔ 2 ^ 31 ≤ toU 32 r) ∧
    ∀ x, cv = some x → (u.tile n).c = x.1 ∧ (u.tile n).v = x.2

/-- Command c runs as a scalar instruction with the result r in register d. -/
def aluGives (c : Instr) (s : State) (n : Nat) (fl : JFlags) (d : Nat) (r : Int) (cv : Option (Bool × Bool)) : Prop :=
  ∃ u, exec c s = .next u ∧ (u.tile n).gr d = (if d = 0 then 0 else toU 32 r) ∧
    (∀ j, j ≠ d → (u.tile n).gr j = (s.tile n).gr j) ∧ (fl.setf = true → flagsOf n u r cv) ∧
    (fl.setf = false → (u.tile n).z = (s.tile n).z ∧ (u.tile n).n = (s.tile n).n ∧ (u.tile n).c = (s.tile n).c ∧
      (u.tile n).v = (s.tile n).v) ∧ onlyAlu n s u ∧ onlyTile n s u

/-- The scalar arithmetic of Jextan, in the words of the instruction table. -/
def Obligations.JextanArithmetic : Prop :=
  (∀ (s : State) (n : Fin 68) (fl : JFlags) (d sr t : BitVec 5), jGo s n fl → jIn s n →
    let a := (s.tile n).gs sr.toNat
    let b := (s.tile n).gs t.toNat
    let ua := (s.tile n).gr sr.toNat
    let ub := (s.tile n).gr t.toNat
    let cvAdd := some (decide (2 ^ 32 ≤ ua + ub), decide (a + b < -2 ^ 31 ∨ 2 ^ 31 ≤ a + b))
    let cvSub := some (decide (ub ≤ ua), decide (a - b < -2 ^ 31 ∨ 2 ^ 31 ≤ a - b))
    (∀ r, r < 32 → (s.tile n).gr r < 2 ^ 32) →
    aluGives (.jAdd n fl d sr t) s n fl d.toNat (if fl.sat then satS 32 (a + b) else a + b) cvAdd ∧
    aluGives (.jSub n fl d sr t) s n fl d.toNat (if fl.sat then satS 32 (a - b) else a - b) cvSub ∧
    aluGives (.jAnd n fl d sr t) s n fl d.toNat (ua &&& ub : Nat) none ∧
    aluGives (.jOr n fl d sr t) s n fl d.toNat (ua ||| ub : Nat) none ∧
    aluGives (.jXor n fl d sr t) s n fl d.toNat (ua ^^^ ub : Nat) none ∧
    aluGives (.jShl n fl d sr t) s n fl d.toNat (ua * 2 ^ (ub % 32) : Nat) none ∧
    aluGives (.jShr n fl d sr t) s n fl d.toNat (ua / 2 ^ (ub % 32) : Nat) none ∧
    aluGives (.jSar n fl d sr t) s n fl d.toNat (a / (2 ^ (ub % 32) : Nat)) none ∧
    aluGives (.jMul n fl d sr t) s n fl d.toNat (if fl.sat then satS 32 (a * b) else a * b) none ∧
    aluGives (.jMulh n fl d sr t) s n fl d.toNat (a * b / (2 ^ 32 : Nat)) none ∧
    aluGives (.jMin n fl d sr t) s n fl d.toNat (min a b) none ∧
    aluGives (.jMax n fl d sr t) s n fl d.toNat (max a b) none ∧
    aluGives (.jClz n fl d sr t) s n fl d.toNat (clz32 ua : Nat) none ∧
    aluGives (.jMov n fl d sr t) s n fl d.toNat a none ∧
    (∃ u, exec (.jCmp n fl d sr t) s = .next u ∧ (u.tile n).g = (s.tile n).g ∧ flagsOf n u (a - b) cvSub ∧
      onlyAlu n s u ∧ onlyTile n s u)) ∧
  (∀ (s : State) (n : Fin 68) (fl : JFlags) (d sr : BitVec 5) (imm : BitVec 32), jGo s n fl → jIn s n →
    let a := (s.tile n).gs sr.toNat
    let b := imm.toInt
    let ua := (s.tile n).gr sr.toNat
    let ub := imm.toNat
    let cvAdd := some (decide (2 ^ 32 ≤ ua + ub), decide (a + b < -2 ^ 31 ∨ 2 ^ 31 ≤ a + b))
    let cvSub := some (decide (ub ≤ ua), decide (a - b < -2 ^ 31 ∨ 2 ^ 31 ≤ a - b))
    (∀ r, r < 32 → (s.tile n).gr r < 2 ^ 32) →
    aluGives (.jAddi n fl d sr imm) s n fl d.toNat (if fl.sat then satS 32 (a + b) else a + b) cvAdd ∧
    aluGives (.jAndi n fl d sr imm) s n fl d.toNat (ua &&& ub : Nat) none ∧
    aluGives (.jOri n fl d sr imm) s n fl d.toNat (ua ||| ub : Nat) none ∧
    aluGives (.jXori n fl d sr imm) s n fl d.toNat (ua ^^^ ub : Nat) none ∧
    aluGives (.jShli n fl d sr imm) s n fl d.toNat (ua * 2 ^ (ub % 32) : Nat) none ∧
    aluGives (.jShri n fl d sr imm) s n fl d.toNat (ua / 2 ^ (ub % 32) : Nat) none ∧
    aluGives (.jSari n fl d sr imm) s n fl d.toNat (a / (2 ^ (ub % 32) : Nat)) none ∧
    (∃ u, exec (.jCmpi n fl d sr imm) s = .next u ∧ (u.tile n).g = (s.tile n).g ∧ flagsOf n u (a - b) cvSub ∧
      onlyAlu n s u ∧ onlyTile n s u) ∧
    (∃ u, exec (.jLi n fl d sr imm) s = .next u ∧ (u.tile n).gr d.toNat = (if d.toNat = 0 then 0 else ub) ∧
      (∀ j, j ≠ d.toNat → (u.tile n).gr j = (s.tile n).gr j) ∧ (u.tile n).z = (s.tile n).z ∧ onlyAlu n s u ∧
      onlyTile n s u)) ∧
  (∀ a, a < 2 ^ 32 → clz32 a ≤ 32 ∧ (a ≠ 0 → 2 ^ (31 - clz32 a) ≤ a ∧ a < 2 ^ (32 - clz32 a)) ∧ (a = 0 → clz32 a = 32))

/-- A tile that goes on in sequence. -/
def inSeq (t : Tile) : Tile := { t with
  pc := (repNext t.calls.length t.pc t.reps).1, reps := (repNext t.calls.length t.pc t.reps).2 }

/-- Command c answers a next state in which tile n is t; nothing else but the count of free values differs. -/
def tileGives (c : Instr) (s : State) (n : Nat) (t : Tile) : Prop := ∃ u, exec c s = .next u ∧ u.tile n = t ∧ onlyTile n s u

/-- Control flow, events and waits of Jextan.  A wait's command is its end (log entry 32). -/
def Obligations.JextanControlFlow : Prop :=
  (∀ (s : State) (n : Fin 68) (fl : JFlags), jGo s n fl → jIn s n →
    tileGives (.jNop n fl) s n (inSeq (s.tile n)) ∧
    (∃ u, exec (.jHalt n fl) s = .next u ∧ u.evq.count = s.evq.count + 1 ∧ u.mem = s.mem ∧
      u.tile n = { inSeq (s.tile n) with state := gtHALTED, haltCause := 1 } ∧ ∀ m, m ≠ n.val → u.tile m = s.tile m) ∧
    tileGives (.jFence n fl) s n (inSeq { s.tile n with z := (s.tile n).out.length + (s.tile n).acks.length + (s.tile n).xlds.length == 0 })) ∧
  (∀ (s : State) (n : Fin 68) (fl : JFlags) (g : BitVec 5) (imm : BitVec 16) (target : BitVec 14), jGo s n fl →
    let t := s.tile n
    ((∀ l rest, t.reps = l :: rest → l.first ≤ target.toNat ∧ target.toNat ≤ l.last) →
      tileGives (.jB n fl g imm target) s n { t with pc := target.toNat }) ∧
    (∀ l rest, t.reps = l :: rest → ¬ (l.first ≤ target.toNat ∧ target.toNat ≤ l.last) →
      exec (.jB n fl g imm target) s = .next (s.tileFault n flRPT_ESC t.pc)) ∧
    (t.calls.length < 16 →
      tileGives (.jCall n fl g imm target) s n { t with calls := (t.pc + 1) :: t.calls, pc := target.toNat }) ∧
    (16 ≤ t.calls.length → exec (.jCall n fl g imm target) s = .next (s.tileFault n flCALL_STACK t.pc)) ∧
    (1 ≤ imm.toNat → imm.toNat ≤ 4 → imm.toNat ≤ t.reps.length →
      tileGives (.jBrk n fl g imm target) s n { t with reps := t.reps.drop imm.toNat, pc := target.toNat }) ∧
    (1 ≤ imm.toNat → imm.toNat ≤ 4 → t.reps.length < imm.toNat →
      exec (.jBrk n fl g imm target) s = .next (s.tileFault n flRPT_STACK t.pc))) ∧
  (∀ (s : State) (n : Fin 68) (fl : JFlags), jGo s n fl →
    ((s.tile n).calls = [] → exec (.jRet n fl) s = .next (s.tileFault n flCALL_STACK (s.tile n).pc)) ∧
    (∀ p rest, (s.tile n).calls = (p + 1) :: rest → (repNext rest.length p (s.tile n).reps).1 < 16384 →
      tileGives (.jRet n fl) s n (inSeq { s.tile n with calls := rest, pc := p }))) ∧
  (∀ (s : State) (n : Fin 68) (fl : JFlags) (g : BitVec 5) (imm : BitVec 16) (target : BitVec 14), jGo s n fl →
    let t := s.tile n
    let count := if g = 0 then imm.toNat else t.gr g.toNat
    t.pc < target.toNat → (∀ l rest, t.reps = l :: rest → l.depth = t.calls.length → target.toNat ≤ l.last) →
    (count ≠ 0 → t.reps.length < 4 → tileGives (.jRep n fl g imm target) s n
      { t with reps := ⟨t.pc + 1, target.toNat, count, t.calls.length⟩ :: t.reps, pc := t.pc + 1 }) ∧
    (count ≠ 0 → 4 ≤ t.reps.length → exec (.jRep n fl g imm target) s = .next (s.tileFault n flRPT_STACK t.pc)) ∧
    (count = 0 → exec (.jRep n fl g imm target) s = .next (s.seqFrom n target.toNat))) ∧
  (∀ (s : State) (n : Fin 68) (fl : JFlags) (d : BitVec 5) (mask : BitVec 6), jGo s n fl → jIn s n →
    tileGives (.jWaitev n fl d mask) s n (inSeq { (s.tile n).setGr d.toNat ((s.tile n).evp &&& mask.toNat) with
      z := (s.tile n).evp &&& mask.toNat != 0 }) ∧
    ∃ e, tileGives (.jEvclr n fl d mask) s n (inSeq { s.tile n with evp := e }) ∧
      ∀ b, b < 6 → bit e b = (bit (s.tile n).evp b && !(bit mask.toNat b && b != evHALT))) ∧
  (∀ (s : State) (n : Fin 68) (fl : JFlags) (v : JV), jGo s n fl → jIn s n →
    let t := s.tile n
    let l := v.lane.toNat
    tileGives (.jWaitin n fl v) s n
      (inSeq { t with z := decide (Table.getD t.rp l 0 + t.vcount v ≤ Table.getD t.wi l 0) }) ∧
    tileGives (.jInadv n fl v) s n (inSeq { t with rp := Table.set 0 t.rp l (Table.getD t.rp l 0 + t.vcount v) }) ∧
    (s.xringOf n (t.ar v.ay.toNat).addr = none →
      exec (.jWaitx n fl v) s = .next (s.tileFault n flBAD_OPERAND t.pc)) ∧
    ∀ j, s.xringOf n (t.ar v.ay.toNat).addr = some j →
      let r := Table.getD t.xrings j {}
      tileGives (.jWaitx n fl v) s n (inSeq { t with
        xrings := Table.set {} t.xrings j (if t.vcount v ≤ r.fill then { r with fill := r.fill - t.vcount v, claimed := t.vcount v }
          else { r with claimed := 0 })
        z := decide (t.vcount v ≤ r.fill) }))

/-- The tile after an access with PU: a has advanced. -/
def afterPu (fl : JFlags) (t : Tile) (a : BitVec 3) : Tile :=
  if fl.pu then t.setAr a.toNat (t.ar a.toNat).post else t

/-- Data memory, parameters, special registers and address registers.  The address of an access is `AReg.at_` of the
register with the offset, the function that the meaning uses. -/
def Obligations.JextanLoadsStoresAndSpecials : Prop :=
  (∀ (s : State) (n : Fin 68) (fl : JFlags) (g : BitVec 5) (a : BitVec 3) (off : BitVec 32), jGo s n fl → jIn s n →
    let t := s.tile n
    let q := (t.ar a.toNat).at_ off.toInt
    let p := q.toNat
    (q % 4 = 0 → 0 ≤ q → q + 4 ≤ 0x180000 →
      tileGives (.jLdw n fl g a off) s n (inSeq (afterPu fl (t.setGr g.toNat (s.dmLoad n p 4)) a)) ∧
      ∃ u, exec (.jStw n fl g a off) s = .next u ∧ u.bytes (dmBase n + p) 4 = leBytes 4 (t.gr g.toNat) ∧
        (∀ x, x < dmBase n + p ∨ dmBase n + p + 4 ≤ x → u.byte x = s.byte x) ∧ u.tile n = inSeq (afterPu fl t a) ∧
        u = { s with mem := u.mem, tiles := u.tiles }) ∧
    (q % 2 = 0 → 0 ≤ q → q + 2 ≤ 0x180000 →
      tileGives (.jLdh n fl g a off) s n (inSeq (afterPu fl (t.setGr g.toNat (toU 32 (toS 16 (s.dmLoad n p 2)))) a)) ∧
      ∃ u, exec (.jSth n fl g a off) s = .next u ∧ u.bytes (dmBase n + p) 2 = leBytes 2 (t.gr g.toNat) ∧
        (∀ x, x < dmBase n + p ∨ dmBase n + p + 2 ≤ x → u.byte x = s.byte x) ∧ u.tile n = inSeq (afterPu fl t a) ∧
        u = { s with mem := u.mem, tiles := u.tiles }) ∧
    (q % 4 ≠ 0 → exec (.jLdw n fl g a off) s = .next (s.tileFault n flBAD_OPERAND t.pc) ∧
      exec (.jStw n fl g a off) s = .next (s.tileFault n flBAD_OPERAND t.pc)) ∧
    (q % 2 ≠ 0 → exec (.jLdh n fl g a off) s = .next (s.tileFault n flBAD_OPERAND t.pc) ∧
      exec (.jSth n fl g a off) s = .next (s.tileFault n flBAD_OPERAND t.pc)) ∧
    (q % 4 = 0 → (q < 0 ∨ 0x180000 < q + 4) → exec (.jLdw n fl g a off) s = .next (s.tileFault n flMEM_RANGE t.pc) ∧
      exec (.jStw n fl g a off) s = .next (s.tileFault n flMEM_RANGE t.pc)) ∧
    (q % 2 = 0 → (q < 0 ∨ 0x180000 < q + 2) → exec (.jLdh n fl g a off) s = .next (s.tileFault n flMEM_RANGE t.pc) ∧
      exec (.jSth n fl g a off) s = .next (s.tileFault n flMEM_RANGE t.pc))) ∧
  (∀ (s : State) (n : Fin 68) (fl : JFlags) (d sr : BitVec 5) (imm : BitVec 32), jGo s n fl → jIn s n →
    let t := s.tile n
    let i := imm.toNat % 256
    tileGives (.jLdp n fl d sr imm) s n (inSeq (t.setGr d.toNat (Table.getD t.params i 0))) ∧
    (∀ x, s.sr32 n i = some x → tileGives (.jRds n fl d sr imm) s n (inSeq (t.setGr d.toNat x))) ∧
    (∀ x, s.sr32 n i = none → s.sr64 n i = some x → tileGives (.jRds n fl d sr imm) s n (inSeq
      (({ t with capt := Table.set 0 t.capt i (x / 2 ^ 32 % 2 ^ 32) } : Tile).setGr d.toNat x))) ∧
    (s.sr32 n i = none → s.sr64 n i = none → i % 2 = 1 → (s.sr64 n (i - 1)).isSome = true →
      tileGives (.jRds n fl d sr imm) s n (inSeq (t.setGr d.toNat (Table.getD t.capt (i - 1) 0)))) ∧
    (i = 6 → tileGives (.jWrs n fl d sr imm) s n (inSeq { t with evm := t.gr sr.toNat % 32 })) ∧
    (i ≠ 6 → exec (.jWrs n fl d sr imm) s = .next (s.tileFault n flBAD_OPERAND t.pc))) ∧
  (∀ (s : State) (n : Nat), s.sr64 n 0 = some (s.now - (s.tile n).started) ∧ s.sr32 n 5 = some (s.tile n).evp ∧
    s.sr32 n 6 = some (s.tile n).evm ∧ s.sr32 n 7 = some (s.groupCh n) ∧ s.sr32 n 0x1E = some (s.tile n).outFree ∧
    ∀ l, l < 4 → s.sr64 n (8 + 2 * l) = some (Table.getD (s.tile n).rp l 0) ∧
      s.sr64 n (16 + 2 * l) = some (Table.getD (s.tile n).wi l 0)) ∧
  (∀ (s : State) (n : Fin 68) (fl : JFlags) (a : BitVec 3) (g : BitVec 5) (imm : BitVec 32), jGo s n fl → jIn s n →
    let t := s.tile n
    let w := t.gr g.toNat
    (imm.toNat / 2 ^ 30 < 2 ∨ (∃ k, 1 ≤ k ∧ k < 21 ∧ w % 2 ^ 21 = 2 ^ k) → tileGives (.jAcfg n fl a g imm) s n
      (inSeq (t.setAr a.toNat ⟨imm.toNat % 2 ^ 21, imm.toNat % 2 ^ 21, w % 2 ^ 21, toS 11 (w / 2 ^ 21) * 64,
        imm.toNat / 2 ^ 30⟩))) ∧
    (2 ≤ imm.toNat / 2 ^ 30 → (∀ k, 1 ≤ k → w % 2 ^ 21 ≠ 2 ^ k) →
      exec (.jAcfg n fl a g imm) s = .next (s.tileFault n flBAD_OPERAND t.pc)) ∧
    tileGives (.jAadd n fl a g imm) s n (inSeq (t.setAr a.toNat ((t.ar a.toNat).move (t.gs g.toNat + imm.toInt)))) ∧
    tileGives (.jMova n fl a g imm) s n (inSeq (t.setAr a.toNat { t.ar a.toNat with addr := w % 2 ^ 21 })) ∧
    tileGives (.jMovg n fl a g imm) s n (inSeq (t.setGr g.toNat (t.ar a.toNat).addr)))

/-- The address registers after PU of a V-format instruction. -/
def vPu (fl : JFlags) (v : JV) (t : Tile) : Tile :=
  if fl.pu then
    let t1 := t.setAr v.ax.toNat (t.ar v.ax.toNat).post
    if v.az = v.ax then t1 else t1.setAr v.az.toNat (t1.ar v.az.toNat).post
  else t

/-- Command c completes as a V-format instruction: outside the bytes of z memory is as before, and tile n differs in
its address registers after PU and its place in the program only. -/
def vecGives (c : Instr) (s : State) (n : Nat) (fl : JFlags) (v : JV) (z : Opnd) (post : State → Prop) : Prop :=
  ∃ u, exec c s = .next u ∧ post u ∧ u.tile n = inSeq (vPu fl v (s.tile n)) ∧
    (∀ x, (∀ a ∈ z.bytesOf, x ≠ dmBase n + a) → u.byte x = s.byte x) ∧
    u = { s with mem := u.mem, tiles := u.tiles, free := u.free }

/-- The elementwise and copying vector instructions. -/
def Obligations.JextanVectors : Prop :=
  (∀ (s : State) (n : Fin 68) (fl : JFlags) (v : JV), jGo s n fl → jIn s n →
    let t := s.tile n
    let c := t.vcount v
    let x := vecOp (t.ar v.ax.toNat) 4 c 64
    let y := vecOp (t.ar v.ay.toNat) 4 c 64
    let z := vecOp (t.ar v.az.toNat) 4 c 64
    let lin := (t.ar v.az.toNat).mode = 0
    let get := fun (o : Opnd) (i : Nat) => s.dmInt n (o.addr i) 4
    checkOps [x, y] (some z) Opnd.same = .ok () →
    (ceilDiv c 96 + 2 ≤ 8192 →
      vecGives (.jVadd n fl v) s n fl v z (fun u => lin → ∀ i, i < c →
        u.dmInt n (z.addr i) 4 = fit32 fl.sat (get x i + get y i)) ∧
      vecGives (.jVsub n fl v) s n fl v z (fun u => lin → ∀ i, i < c →
        u.dmInt n (z.addr i) 4 = fit32 fl.sat (get x i - get y i))) ∧
    (ceilDiv c 96 + 4 ≤ 8192 → vecGives (.jVmul n fl v) s n fl v z (fun u => lin → ∀ i, i < c →
        u.dmInt n (z.addr i) 4 = fit32 fl.sat (get x i * get y i / (2 ^ (v.param.toNat % 32) : Nat))))) ∧
  (∀ (s : State) (n : Fin 68) (fl : JFlags) (v : JV), jGo s n fl → jIn s n →
    let t := s.tile n
    let c := t.vcount v
    let x := vecOp (t.ar v.ax.toNat) 8 c 64
    let y := vecOp (t.ar v.ay.toNat) 8 c 64
    let z := vecOp (t.ar v.az.toNat) 8 c 64
    let lin := (t.ar v.az.toNat).mode = 0
    let d : Int := (2 ^ (v.param.toNat % 32) : Nat)
    (checkOps [x, y] (some z) Opnd.same = .ok () → ceilDiv c 48 + 4 ≤ 8192 →
      vecGives (.jVcmul n fl v) s n fl v z (fun u => lin → ∀ i, i < c →
        let p := cmul fl.xf (s.c32 n (x.addr i)) (s.c32 n (y.addr i))
        u.c32 n (z.addr i) = (fit32 fl.sat (p.1 / d), fit32 fl.sat (p.2 / d)))) ∧
    (checkOps [x] (some z) noneEqual = .ok () → 1 ≤ c → c ≤ 65536 →
      vecGives (.jBcopy n fl v) s n fl v z (fun u => lin → ∀ i, i < c → u.dmLoad n (z.addr i) 8 = s.dmLoad n (x.addr i) 8)) ∧
    (checkOps [] (some z) noneEqual = .ok () → 1 ≤ c → c ≤ 65536 →
      vecGives (.jFill n fl v) s n fl v z (fun u => lin → ∀ i, i < c → u.dmInt n (z.addr i) 8 = t.gs v.gp.toNat)) ∧
    (let o := linOp (t.ar v.az.toNat) 16 64
     checkOps [x, y] (some o) noneEqual = .ok () → ceilDiv c 48 + 6 ≤ 8192 →
      ∃ u, exec (.jCdot n fl v) s = .next u ∧ u.tile n = inSeq t ∧
        (let sums := (List.range c).map (fun i => cmul fl.xf (s.c32 n (x.addr i)) (s.c32 n (y.addr i)))
         satS 48 (isum (sums.map (·.1))) = isum (sums.map (·.1)) → satS 48 (isum (sums.map (·.2))) = isum (sums.map (·.2)) →
           ((t.ar v.az.toNat).mode = 1 → 16 ≤ (t.ar v.az.toNat).len) →
           toS 48 (ofLe (u.opBytes n o 0 6)) = isum (sums.map (·.1)) ∧
           toS 48 (ofLe (u.opBytes n o 8 6)) = isum (sums.map (·.2))) ∧
        (∀ a, (∀ b ∈ o.bytesOf, a ≠ dmBase n + b) → u.byte a = s.byte a) ∧
        u = { s with mem := u.mem, tiles := u.tiles, free := u.free })) ∧
  (∀ (s : State) (n : Fin 68) (fl : JFlags) (v : JV), jGo s n fl → jIn s n →
    let t := s.tile n
    let c := t.vcount v
    let words := if bit v.param.toNat 0 = true then 2 else 1
    let x := vecOp (t.ar v.ax.toNat) (4 * words) c 64
    let z := vecOp (t.ar v.az.toNat) (4 * words) c 64
    checkOps [x] (some z) Opnd.same = .ok () → ceilDiv c 96 + 2 ≤ 8192 →
      vecGives (.jVscale n fl v) s n fl v z (fun u => (t.ar v.az.toNat).mode = 0 → ∀ i w, i < c → w < words →
        u.dmInt n (z.addr i + 4 * w) 4 = fit32 fl.sat (shiftBy (s.dmInt n (x.addr i + 4 * w) 4) (t.gs v.gp.toNat)))) ∧
  (∀ (s : State) (n : Fin 68) (fl : JFlags) (v : JV), jGo s n fl → jIn s n →
    let t := s.tile n
    let c := t.vcount v
    let f := Config.free "source format of VCONV" [((v.param.toNat % 256 : Nat) : Int)] 0 % 7
    let z := vecOp (t.ar v.az.toNat) (fmtSize (Config.free "destination format of VCONV"
      [((v.param.toNat % 256 : Nat) : Int)] 0 % 7)) c 64
    checkOps [vecOp (t.ar v.ax.toNat) (fmtSize f) c (if f = 0 then 2 else 64)] (some z) noneEqual = .ok () →
    ceilDiv c 96 + 2 ≤ 8192 → vecGives (.jVconv n fl v) s n fl v z (fun _ => True)) ∧
  (∀ (s : State) (n : Fin 68) (fl : JFlags) (v : JV) (e : JErr), jGo s n fl →
    checkOps [vecOp ((s.tile n).ar v.ax.toNat) 4 ((s.tile n).vcount v) 64, vecOp ((s.tile n).ar v.ay.toNat) 4
      ((s.tile n).vcount v) 64] (some (vecOp ((s.tile n).ar v.az.toNat) 4 ((s.tile n).vcount v) 64)) Opnd.same = .error e →
    ceilDiv ((s.tile n).vcount v) 96 + 2 ≤ 8192 →
    exec (.jVadd n fl v) s = .next ((s.partly n e.part).tileFault n e.code (s.tile n).pc) ∧
    (e.code = flBAD_OPERAND ∨ e.code = flMEM_RANGE))

/-- Command c queues an item with these bytes for a destination, or drops it when the queue lacks room. -/
def queueGives (c : Instr) (s : State) (n : Nat) (fl : JFlags) (v : JV) (d : ItemDest) (bs : List Byte) : Prop :=
  (bs.length ≤ (s.tile n).outFree → tileGives c s n (inSeq (vPu fl v { s.tile n with
    out := (s.tile n).out ++ [⟨d, bs, (s.tile n).muted, (s.tile n).outRp⟩], outRp := s.rpLow n, z := true }))) ∧
  ((s.tile n).outFree < bs.length → ∃ u, exec c s = .next u ∧ (u.tile n).out = (s.tile n).out ∧ (u.tile n).z = false ∧
    u.fld GT_OUT_DROPS.DROPS n = satU (GT_OUT_DROPS.DROPS.hi + 1 - GT_OUT_DROPS.DROPS.lo) (s.fld GT_OUT_DROPS.DROPS n + 1) ∧
    (u.tile n).g = (s.tile n).g ∧ u.mem = s.mem ∧ s.evq.count ≤ u.evq.count)

/-- The instructions by which a tile sends something. -/
def Obligations.JextanOutputs : Prop :=
  (∀ (s : State) (n : Fin 68) (fl : JFlags) (v : JV), jGo s n fl → jIn s n →
    let t := s.tile n
    let k := 64 * t.vcount v
    let x := blkOp (t.ar v.ax.toNat) (t.vcount v)
    let y := linOp (t.ar v.ay.toNat) 64 64
    (checkOps [x, y] none noneEqual = .ok () → 2 + ceilDiv (64 + k) 1024 ≤ 8192 →
      queueGives (.jSpout n fl v) s n fl v (.route (v.param.toNat % 256)) (s.opBytes n y 0 64 ++ s.opBytes n x 0 k)) ∧
    (checkOps [x] none noneEqual = .ok () → 2 + ceilDiv k 1024 ≤ 8192 → v.gp ≠ 31 →
      queueGives (.jXmit n fl v) s n fl v (.phys (t.gr v.gp.toNat + t.gr (v.gp.toNat + 1) * 2 ^ 32)) (s.opBytes n x 0 k)) ∧
    (checkOps [x] none noneEqual = .ok () → 2 + ceilDiv k 1024 ≤ 8192 →
      queueGives (.jXch n fl v) s n fl v (.exchange (v.param.toNat % 256)) (s.opBytes n x 0 k)) ∧
    (checkOps [] (some (blkOp (t.ar v.az.toNat) (t.vcount v))) noneEqual = .ok () → v.gp ≠ 31 →
      tileGives (.jXld n fl v) s n (inSeq { t with
        xlds := t.xlds ++ [⟨t.gr v.gp.toNat + t.gr (v.gp.toNat + 1) * 2 ^ 32, t.ar v.az.toNat, t.vcount v⟩] }))) ∧
  (∀ (s : State) (n : Fin 68) (fl : JFlags) (v : JV), jGo s n fl → jIn s n →
    let t := s.tile n
    let l := v.lane.toNat
    let ch := s.groupCh n + l
    let i := ((Table.getD t.rp l 0 : Nat) : Int) + t.gs v.gp.toNat
    (t.muted = false → t.cands.length < 16 → tileGives (.jTrgc n fl v) s n (inSeq { t with
      cands := t.cands ++ [(8 * ch + v.param.toNat % 8, s.sampleTime (ch / 32) i.toNat)] })) ∧
    (t.muted = false → 16 ≤ t.cands.length → ∃ u, exec (.jTrgc n fl v) s = .next u ∧ (u.tile n).cands = t.cands ∧
      u.fld GT_OUT_DROPS.DROPS n = satU (GT_OUT_DROPS.DROPS.hi + 1 - GT_OUT_DROPS.DROPS.lo)
        (s.fld GT_OUT_DROPS.DROPS n + 1) ∧ (u.tile n).g = t.g ∧ u.mem = s.mem) ∧
    (t.muted = true → tileGives (.jTrgc n fl v) s n (inSeq t)))

/-- Command c completes with `post`; memory outside the data-memory bytes that `dst` names, the registers and flags of
tile n and the other tiles are as before, and the PC goes on in sequence. -/
def spectralGives (c : Instr) (s : State) (n : Nat) (dst : Nat → Prop) (post : State → Prop) : Prop :=
  ∃ u, exec c s = .next u ∧ post u ∧ (∀ x, (∀ a, dst a → x ≠ dmBase n + a) → u.byte x = s.byte x) ∧
    (u.tile n).g = (s.tile n).g ∧ (u.tile n).z = (s.tile n).z ∧ (u.tile n).n = (s.tile n).n ∧
    (u.tile n).c = (s.tile n).c ∧ (u.tile n).v = (s.tile n).v ∧ (u.tile n).evp = (s.tile n).evp ∧
    (u.tile n).pc = (inSeq (s.tile n)).pc ∧ (u.tile n).rp = (s.tile n).rp ∧ ∀ m, m ≠ n → u.tile m = s.tile m

/-- The byte lies in the n bytes from a. -/
def inBytes (a n x : Nat) : Prop := a ≤ x ∧ x < a + n

/-- The byte is one of an operand's; in MODULO, where the ring may end inside an element of up to 8 bytes, also one of the
element's. -/
def opBytesAt (x : AReg) (o : Opnd) (a : Nat) : Prop :=
  a ∈ o.bytesOf ∨ (x.mode = 1 ∧ ∃ i, i < o.n ∧ inBytes (o.addr i) 8 a)

/-- The operand of so many bytes lies whole: the register is not MODULO, or its ring holds all of the bytes and ends between
elements of 8 bytes. -/
def liesWhole (x : AReg) (bytes : Nat) : Prop := x.mode ≠ 1 ∨ (x.base % 8 = 0 ∧ x.len % 8 = 0 ∧ bytes ≤ x.len)

/-- The spectral instructions.  What the rounding inside the passes of a transform gives is free (log entry 34), as are
the contents of its scratch area. -/
def Obligations.JextanSpectral : Prop :=
  (∀ (s : State) (n : Fin 68) (fl : JFlags) (v : JV) (real : Bool), jGo s n fl → jIn s n →
    let t := s.tile n
    let lg := v.param.toNat % 32
    let len := 2 ^ lg
    let bt := t.vcount v
    let m := if real then len / 2 else len
    let hop := if v.gp = 0 then len else t.gr v.gp.toNat
    let es := if real then 2 else 8
    let az := t.ar v.az.toNat
    let x := vecOp (t.ar v.ax.toNat) es (hop * (bt - 1) + len) (if real then 2 else 64)
    let w := vecOp (t.ar v.ay.toNat) 4 len 64
    let slots := linOp az (bt * (8 * m + 64)) 64
    let scratch := linFrom az (bt * (8 * m + 64)) (8 * m) 64
    let dst := fun (a : Nat) => opBytesAt az slots a ∨ opBytesAt az scratch a
    let ok := fun (win : Bool) =>
      (!scratch.meets x || (!real && bt == 1 && scratch.ext == x.ext)) = true ∧
      checkOps (if win then [x, w] else [x]) (some slots) noneEqual = .ok () ∧
      checkOps (if win then [w] else []) (some scratch) noneEqual = .ok ()
    let zero := fun (u : State) => liesWhole az (bt * (8 * m + 64) + 8 * m) → (∀ i, i < hop * (bt - 1) + len →
        s.dmLoad n (x.addr i) es = 0) → ∀ b k, b < bt → k < m →
          u.c32 n (slots.addr (b * (8 * m + 64) + 8 * k)) = (0, 0) ∧
          u.dmInt n (slots.addr (b * (8 * m + 64) + 8 * m)) 2 = -128 ∧
          bit (u.dmLoad n (slots.addr (b * (8 * m + 64) + 8 * m + 2)) 1) 0 = true
    6 ≤ lg → lg ≤ 16 → 1 ≤ bt → bt ≤ 4096 → 1 ≤ hop → hop ≤ 65536 →
    bt * ceilDiv (topBit m) 6 * ceilDiv m 64 + 32 ≤ 8192 →
    (real = true → s.ringEn n v.lane.toNat = true → ok fl.xf →
      spectralGives (.jFftr n fl v) s n dst zero) ∧
    (real = false → ok fl.xf →
      spectralGives (.jFftc n fl v) s n dst zero) ∧
    (real = false → ok false →
      spectralGives (.jIfftc n fl v) s n dst zero)) ∧
  (∀ (s : State) (n : Fin 68) (fl : JFlags) (v : JV), jGo s n fl → jIn s n →
    let t := s.tile n
    let m := t.vcount v
    let mode := v.param.toNat % 4
    let es := match mode with | 1 => 2 | 2 => 8 | _ => 4
    let az := t.ar v.az.toNat
    let x := linOp (t.ar v.ax.toNat) (8 * m + 64) 64
    let z := linOp az (64 + es * m) 64
    let power := fun (i : Nat) => (s.c32 n (x.addr (8 * i))).1 ^ 2 + (s.c32 n (x.addr (8 * i))).2 ^ 2
    let e := s.dmInt n (x.addr (8 * m)) 2
    checkOps [x] (some z) noneEqual = .ok () →
    ceilDiv m 256 + 4 ≤ 8192 →
    spectralGives (.jDet n fl v) s n (opBytesAt az z) (fun u => liesWhole az (64 + es * m) →
      (mode = 0 → u.dmLoad n (z.addr 0) 2 = toU 16 (2 * e + 3) ∧ u.dmLoad n (z.addr 4) 4 = 1 ∧
        ∀ i, i < m → (u.dmLoad n (z.addr (64 + 4 * i)) 4 : Int) = toU 32 (power i / 8)) ∧
      (mode = 1 → u.dmLoad n (z.addr 0) 2 = toU 16 (2 * e) ∧
        ∀ i, i < m → u.dmLoad n (z.addr (64 + 2 * i)) 2 = log2560 (max (power i) 1).toNat % 2 ^ 16) ∧
      (mode = 2 → fl.xf = true → u.dmLoad n (z.addr 4) 4 = 1 ∧
        ∀ i, i < m → u.dmLoad n (z.addr (64 + 8 * i)) 8 = toU 64 (power i)) ∧
      (mode = 3 → fl.xf = true → u.dmLoad n (z.addr 0) 2 = toU 16 (2 * e + 3)))) ∧
  (∀ (s : State) (n : Fin 68) (fl : JFlags) (v : JV), jGo s n fl → jIn s n →
    let t := s.tile n
    let m := t.vcount v
    let x := linOp (t.ar v.ax.toNat) (8 * m + 64) 64
    let y := linOp (t.ar v.ay.toNat) (8 * m + 64) 64
    let az := t.ar v.az.toNat
    let z := linOp az (64 + 16 * m) 64
    checkOps [x, y] (some z) noneEqual = .ok () → ceilDiv m 48 + 4 ≤ 8192 →
    spectralGives (.jXspec n fl v) s n (opBytesAt az z) (fun u => liesWhole az (64 + 16 * m) → fl.xf = true →
      ∀ i, i < m → let p := cmul true (s.c32 n (x.addr (8 * i))) (s.c32 n (y.addr (8 * i)))
        u.a48 n (z.addr (64 + 16 * i)) = satS 48 p.1 ∧ u.a48 n (z.addr (72 + 16 * i)) = satS 48 p.2)) ∧
  (∀ (s : State) (n : Fin 68) (fl : JFlags) (v : JV) (s0 : Nat), jGo s n fl → jIn s n →
    let t := s.tile n
    let c := t.vcount v
    let x := vecOp (t.ar v.ax.toNat) 2 c 2
    let z := vecOp (t.ar v.az.toNat) 8 c 64
    1 ≤ c → c ≤ 65536 → v.param.toNat < 4 → s.ringEn n v.lane.toNat = true → ceilDiv c 48 + 4 ≤ 8192 →
    checkOps [x] (some z) Opnd.sameStart = .ok () → s.ringRun n v.lane.toNat x = some s0 →
    spectralGives (.jNco n fl v) s n (fun a => a ∈ z.bytesOf) (fun u => (t.ar v.az.toNat).mode < 2 →
      liesWhole (t.ar v.az.toNat) (8 * c) → ∀ i, i < c →
      u.c32 n (z.addr i) = ncoMix (s.dmInt n (x.addr i) 2) (s.ncoTheta n (4 * v.lane.toNat + v.param.toNat) (s0 + i)))) ∧
  (∀ (s : State) (n : Fin 68) (fl : JFlags) (v : JV), jGo s n fl → jIn s n →
    let t := s.tile n
    let c := t.vcount v
    let p := v.param.toNat
    let x := vecOp (t.ar v.ax.toNat) 8 c 64
    let z := vecOp (t.ar v.az.toNat) 8 (c / 2) 64
    c % 2 = 0 → 2 ≤ c → c ≤ 65536 → p % 16 < 5 → bits p 11 8 < 12 → ceilDiv c 64 + 4 ≤ 8192 →
    checkOps [x] (some z) noneEqual = .ok () →
    spectralGives (.jDecim n fl v) s n (fun a => a ∈ z.bytesOf) (fun u => (t.ar v.az.toNat).mode < 2 →
      liesWhole (t.ar v.az.toNat) (4 * c) → ∀ i, i < c / 2 →
      (u.c32 n (z.addr i)).1.natAbs ≤ 131071 ∧ (u.c32 n (z.addr i)).2.natAbs ≤ 131071))

/-- Memory outside the data-memory bytes that `dst` names is as before. -/
def memKept (s u : State) (n : Nat) (dst : Nat → Prop) : Prop := ∀ x, (∀ a, dst a → x ≠ dmBase n + a) → u.byte x = s.byte x

/-- The instructions of the trigger chapter. -/
def Obligations.JextanMasksHitsFeatures : Prop :=
  (∀ (s : State) (n : Fin 68) (fl : JFlags) (v : JV), jGo s n fl → jIn s n →
    let t := s.tile n
    let c := t.vcount v
    let x := linOp (t.ar v.ax.toNat) (64 + 2 * c) 64
    let y := linOp (t.ar v.ay.toNat) (64 + 8 * c) 64
    let qual := s.dmLoad n (y.addr 4) 2
    let g := v.gp.toNat
    1 ≤ c → c ≤ 65536 → v.param.toNat < 2 → v.az = 0 → g ≠ 31 → ceilDiv c 256 + 4 ≤ 8192 →
    checkOps [x] (some y) noneEqual = .ok () →
    (qual = 0 → exec (.jMaskc n fl v) s = .next (s.tileFault n flBAD_OPERAND t.pc)) ∧
    (qual ≠ 0 → ∃ u, exec (.jMaskc n fl v) s = .next u ∧
      memKept s u n (fun a => ∃ i, i < c ∧ inBytes (y.addr (64 + 8 * i) + 4) 3 a) ∧
      (liesWhole (t.ar v.ay.toNat) (64 + 8 * c) →
       let hits := (List.range c).filter (fun i => decide (qual ≤ u.dmLoad n (y.addr (64 + 8 * i) + 4) 2))
       (g ≠ 0 → (u.tile n).gr g = hits.length) ∧ (u.tile n).gr (g + 1) = hits.headD 0xFFFFFFFF) ∧
      (∀ j, j ≠ g → j ≠ g + 1 → (u.tile n).gr j = t.gr j) ∧ (u.tile n).z = t.z ∧
      (u.tile n).pc = (inSeq t).pc ∧ ∀ m, m ≠ n.val → u.tile m = s.tile m)) ∧
  (∀ (s : State) (n : Fin 68) (fl : JFlags) (v : JV) (s0 : Nat), jGo s n fl → jIn s n →
    let t := s.tile n
    let c := t.vcount v
    let l := v.lane.toNat
    let g := v.gp.toNat
    let x := vecOp (t.ar v.ax.toNat) 2 c 2
    let az := t.ar v.az.toNat
    let ys := (List.range c).map (fun i =>
      if bit v.param.toNat 0 = true then -(s.dmInt n (x.addr i) 2) else s.dmInt n (x.addr i) 2)
    let r := thrScan (toS 16 (t.gr g)) (bits (t.gr g) 31 16 : Nat) s0 ys (bit t.armed l && !bit v.param.toNat 1) []
    let k := min r.2.length (t.gr (g + 1))
    let z := linOp az (64 + 8 * k) 64
    1 ≤ c → c ≤ 65536 → v.param.toNat < 4 → g ≠ 31 → s.ringEn n l = true → ceilDiv c 64 + 4 ≤ 8192 →
    s.ringIndex n l x.start = some s0 → t.gr (g + 1) < 2 ^ 32 →
    checkOps [x] (some z) noneEqual = .ok () →
    ∃ u, exec (.jThr n fl v) s = .next u ∧ memKept s u n (fun a => a ∈ z.bytesOf) ∧
      (liesWhole az (64 + 8 * k) → u.dmLoad n (z.addr 0) 4 = k ∧
        u.dmLoad n (z.addr 4) 1 = b2n (decide (t.gr (g + 1) < r.2.length)) ∧ u.dmLoad n (z.addr 16) 4 = c ∧
        ∀ i h, i < k → r.2[i]? = some h → u.dmLoad n (z.addr (64 + 8 * i)) 8 = h % 2 ^ 64) ∧
      (u.tile n).gr (g + 1) = k ∧ bit (u.tile n).armed l = r.1 ∧
      (∀ j, j ≠ g + 1 → (u.tile n).gr j = t.gr j) ∧ (u.tile n).pc = (inSeq t).pc ∧
      ∀ m, m ≠ n.val → u.tile m = s.tile m) ∧
  (∀ (s : State) (n : Fin 68) (fl : JFlags) (v : JV) (cfg : FeatCfg), jGo s n fl → jIn s n →
    let t := s.tile n
    let c := t.vcount v
    let l := v.lane.toNat
    let ca := t.gr v.gp.toNat
    let az := t.ar v.az.toNat
    let z := linOp az (32 * c) 64
    1 ≤ c → c ≤ 341 → s.ringEn n l = true → ca % 64 = 0 → 24 * c + 4 ≤ 8192 →
    checkOps [linOp (t.ar v.ax.toNat) (64 + 8 * c) 64, ⟨fun i => ca + i, 1, 64, ca, 64, true, [(ca, 64)]⟩]
      (some z) noneEqual = .ok () →
    (s.ringIndex n l ((t.ar v.ay.toNat).byteAt 0)).isSome = true → featCfg (s.dmBytes n ca 64) = some cfg →
    ∃ u, exec (.jFeat n fl v) s = .next u ∧ memKept s u n (fun a => a ∈ z.bytesOf) ∧
      (liesWhole az (32 * c) → ∀ i, i < c → u.dmLoad n (z.addr (32 * i + 10)) 2 = (s.groupCh n + l) % 2 ^ 16) ∧ (u.tile n).g = t.g ∧
      (u.tile n).z = t.z ∧ (u.tile n).pc = (inSeq t).pc ∧ ∀ m, m ≠ n.val → u.tile m = s.tile m) ∧
  (∀ (s : State) (n : Fin 68) (fl : JFlags) (v : JV), jGo s n fl → (s.tile n).vcount v = 0 →
    exec (.jMaskc n fl v) s = .next (s.tileFault n flBAD_OPERAND (s.tile n).pc) ∧
    exec (.jThr n fl v) s = .next (s.tileFault n flBAD_OPERAND (s.tile n).pc) ∧
    exec (.jFeat n fl v) s = .next (s.tileFault n flBAD_OPERAND (s.tile n).pc))

/-- Customer opcodes: bits [63:56] of the word are the opcode, [55:48] the flags. -/
def Obligations.CustomerInstructions : Prop :=
  (∀ (s : State) (n : Fin 68) (word : BitVec 64) (ecc : MicEcc), (s.tile n).runs = false →
    exec (.customerInstr n word ecc) s = .next s) ∧
  (∀ (s : State) (n : Fin 68) (word : BitVec 64), (s.tile n).runs = true → word.toNat / 2 ^ 56 = 0xBF →
    exec (.customerInstr n word .clean) s = .next (s.tileFault n flILLEGAL_OP (s.tile n).pc)) ∧
  (∀ (s : State) (n : Fin 68) (word : BitVec 64), (s.tile n).runs = true → 0xC0 ≤ word.toNat / 2 ^ 56 →
    exec (.customerInstr n word .program) s = .next (s.tileFault n flPM_ECC (s.tile n).pc)) ∧
  (∀ (s : State) (n : Fin 68) (word : BitVec 64), (s.tile n).runs = true → 0xC0 ≤ word.toNat / 2 ^ 56 →
    let t := s.tile n
    let e := 64 * n.val + (word.toNat / 2 ^ 56 - 0xC0)
    let o := t.micOps word.toNat (s.fld GT_UDISP_A.FMT e)
    let st := s.micStart n o (s.fld GT_UDISP_A.START e)
    let skips := bit word.toNat 55 && !t.cond (bits word.toNat 54 52)
    (skips = true → exec (.customerInstr n word .clean) s = .next (s.seqFrom n t.pc)) ∧
    (skips = false → s.flag GT_UDISP_A.VALID e = false →
      exec (.customerInstr n word .clean) s = .next (s.tileFault n flILLEGAL_OP t.pc)) ∧
    (skips = false → s.flag GT_UDISP_A.VALID e = true → o.v = true → s.fld GT_UDISP_B.MAXN e < o.count →
      exec (.customerInstr n word .clean) s = .next (s.tileFault n flBAD_OPERAND t.pc)) ∧
    (skips = false → s.flag GT_UDISP_A.VALID e = true → (o.v = false ∨ o.count ≤ s.fld GT_UDISP_B.MAXN e) →
      exec (.customerInstr n word .clean) s = .next (match Mic.run n o (s.fld GT_UDISP_A.BOUND e) st.2 8193 st.1 with
        | .done m => (m.finish n o).seqFrom n t.pc
        | .fault c m => m.fault n t.pc o c
        | .run m => m.fault n t.pc o flTILE_UWD))) ∧
  (∀ (m : Mic) (n pc code : Nat) (o : MicOps), code < 2 ^ 8 → pc < 2 ^ 14 →
    (m.fault n pc o code).reg .GT_FAULT n = BitVec.ofNat 32 (2 ^ 31 + pc * 2 ^ 16 + code)) ∧
  (∀ (s : State) (n : Fin 68) (opcode : BitVec 8) (upc : BitVec 12), exec (.tileUwd n opcode upc) s =
    .next (if (s.tile n).runs then
      (s.setReg .GT_UFAULT n (BitVec.ofNat 32 (2 ^ 31 + upc.toNat * 2 ^ 16 + opcode.toNat))).tileFault n flTILE_UWD
        (s.tile n).pc
      else s))

/-- The state in which a Jextan instruction runs its operation: a corrected error of its word is reported first. -/
def corrFirst (s : State) (n : Nat) (fl : JFlags) : State := match fl.ecc with
  | .corrected a => s.tileCorr n a.toNat
  | _ => s

/-- Command c ends in the fault PC_END of tile n, whose PC is free; but for what a corrected word reports and
for the count of free values the fault acts on the state as it was. -/
def endsProgram (c : Instr) (s : State) (n : Nat) (fl : JFlags) : Prop :=
  ∃ (f k : Nat), exec c s = .next (State.tileFault { corrFirst s n fl with free := k } n 0x09 f)

/-- R156, for every report of the memories with which the instruction gets to its operation. -/
def Obligations.CallStackAndProgramEndFaults : Prop :=
  (∀ (s : State) (n : Fin 68) (fl : JFlags) (g : BitVec 5) (imm : BitVec 16) (target : BitVec 14),
    (s.tile n).runs = true → fl.ecc ≠ .program → (fl.pred = true → (s.tile n).cond fl.cond.toNat = true) →
    (16 ≤ (s.tile n).calls.length →
      exec (.jCall n fl g imm target) s = .next ((corrFirst s n fl).tileFault n 0x08 (s.tile n).pc)) ∧
    ((s.tile n).calls.length < 16 → ∃ u, exec (.jCall n fl g imm target) s = .next u ∧
      (u.tile n).calls = ((s.tile n).pc + 1) :: (s.tile n).calls ∧ (u.tile n).pc = target.toNat)) ∧
  (∀ (s : State) (n : Fin 68) (fl : JFlags),
    (s.tile n).runs = true → fl.ecc ≠ .program → (fl.pred = true → (s.tile n).cond fl.cond.toNat = true) →
    ((s.tile n).calls = [] → exec (.jRet n fl) s = .next ((corrFirst s n fl).tileFault n 0x08 (s.tile n).pc)) ∧
    (16384 ≤ (repNext (s.tile n).calls.length (s.tile n).pc (s.tile n).reps).1 → endsProgram (.jNop n fl) s n fl) ∧
    ∀ rest, (s.tile n).calls = 16384 :: rest → 16384 ≤ (repNext rest.length 16383 (s.tile n).reps).1 →
      ∃ u f, exec (.jRet n fl) s = .next (State.tileFault u n 0x09 f)) ∧
  (∀ (c : Instr) (s : State) (n : Fin 68) (fl : JFlags), jextanOf c = some (n, fl) →
    (s.tile n).runs = true → fl.ecc ≠ .program → fl.pred = true → (s.tile n).cond fl.cond.toNat = false →
    16384 ≤ (repNext (s.tile n).calls.length (s.tile n).pc (s.tile n).reps).1 → endsProgram c s n fl)

/-- Arrivals at the tiles. -/
def Obligations.TileInputs : Prop :=
  (∀ (s : State) (k : Fin 8), (s.die k).anaLink = [] → exec (.blockTileArrival k) s = .next s) ∧
  (∀ (s : State) (k : Fin 8) (b : SBlock) (rest : List SBlock), (s.die k).anaLink = b :: rest →
    exec (.blockTileArrival k) s = .next (((s.setDie k { s.die k with anaLink := rest, anaFails := 0 }).tilesOf (b.ch / 4)).foldl
      (fun u n => u.laneArrive n (b.ch % 4) b.count b.bytes) (s.setDie k { s.die k with anaLink := rest, anaFails := 0 }))) ∧
  (∀ (s : State) (n l b : Nat) (bs : List Byte), b < Table.getD (s.tile n).wi l 0 / 80 → s.laneArrive n l b bs = s) ∧
  (∀ (s : State) (n l b : Nat) (bs : List Byte), n < 68 → 0 < l → l < 4 → Table.getD (s.tile n).wi l 0 / 80 ≤ b →
    (s.tile n).swDue = none →
    Table.getD ((s.laneArrive n l b bs).tile n).wi l 0 = 80 * (b + 1) ∧
    (s.ringEn n l = false → (s.laneArrive n l b bs).mem = s.mem) ∧
    (s.ringEn n l = true → 64 * s.fld GT_RING.BASE (4 * n + l) + 168 * s.ringB n l ≤ dmSize →
      (s.laneArrive n l b bs).dmLoad n (s.ringBase n l + 160 * s.ringB n l + 8 * (b % s.ringB n l)) 8 =
        blockTag bs % 2 ^ 64 ∧
      ∀ j, j < 80 → (s.laneArrive n l b bs).dmLoad n (s.ringBase n l + 160 * (b % s.ringB n l) + 2 * j) 2 =
        toU 16 (if isGap bs then 0 else blockSample bs j))) ∧
  (∀ (s : State) (n : Fin 68), (s.tile n).xlds = [] → exec (.xldLand n) s = .next s) ∧
  (∀ (s : State) (n : Fin 68) (src : Nat) (dst : AReg) (rest : List XldReq), (s.tile n).xlds = ⟨src, dst, 1⟩ :: rest →
    let r := s.setTile n { s.tile n with xlds := rest }
    exec (.xldLand n) s = .next (if s.poisonedRange src 64 then
      (State.memLog (r.addFld CEL_POISON.COUNT 0 1) srcTile false src 64).opPut n (blkOp dst 1) 0 (zeros 64)
      else State.opPut { r.memLog srcTile false src 64 with free := s.free + 1 } n (blkOp dst 1) 0
        ((List.range 64).map (fun j => r.anyByte (src + j))))) ∧
  (∀ (s : State) (n : Fin 68) (x : XldReq) (rest : List XldReq), (s.tile n).xlds = x :: rest →
    ∃ t, exec (.xldLand n) s = .next t ∧ t.tile n = { s.tile n with xlds := rest } ∧
      ∀ y, (∀ i, i < 64 * x.units → y ≠ dmBase n + (blkOp x.dst x.units).addr i) → t.byte y = s.byte y) ∧
  (∀ (s : State) (g : Fin 64) (n : Fin 68), exec (.xchArrival g n 0) s = .next s ∧
    ((s.tile n).xsent.find? (fun x => x.1 == g.val) = none → exec (.xchArrival g n 1) s = .next s) ∧
    (∀ x, (s.tile n).xsent.find? (fun x => x.1 == g.val) = some x → exec (.xchArrival g n 1) s =
      .next (((s.setTile n { s.tile n with xsent := (s.tile n).xsent.erase x }).tilesOf g).foldl
        (fun u m => u.xchArrive m x.2.1 x.2.2) (s.setTile n { s.tile n with xsent := (s.tile n).xsent.erase x }))) ∧
    (∀ k t, exec (.xchArrival g n k) s = .next t → exec (.xchArrival g n (k + 1)) s = exec (.xchArrival g n 1) t)) ∧
  (∀ (s : State) (n r j : Nat) (item : List Byte), n < 68 → (List.range 4).find? (fun j =>
      s.flag GT_XRX_CFG.EN (4 * n + j) && s.fld GT_XRX_CFG.ROUTE (4 * n + j) == r) = some j →
    let y := Table.getD (s.tile n).xrings j {}
    let x := if s.atWaitx n j then { y with claimed := 0 } else y
    let size := 2 ^ s.fld GT_XRX_CFG.SIZE_LOG2 (4 * n + j)
    let units := ceilDiv item.length 64
    (size < x.fill + x.claimed + units → (s.xchArrive n r item).mem = s.mem ∧
      ((s.xchArrive n r item).tile n).xrings = (s.tile n).xrings ∧
      (s.xchArrive n r item).fld GT_XRX_DROPS.DROPS n = satU (GT_XRX_DROPS.DROPS.hi + 1 - GT_XRX_DROPS.DROPS.lo)
        (s.fld GT_XRX_DROPS.DROPS n + 1)) ∧
    (x.fill + x.claimed + units ≤ size → Table.getD ((s.xchArrive n r item).tile n).xrings j {} =
      { x with fill := x.fill + units, next := (x.next + units) % size } ∧ (s.xchArrive n r item).regs = s.regs)) ∧
  (∀ (s : State) (n : Fin 68), ((s.tile n).state ≠ gtLOADING ∨ (s.tile n).reload = false ∨ s.groupOf n = none) →
    exec (.tileReloadDone n) s = .next s) ∧
  (∀ (s : State) (n : Fin 68) (g : Nat), (s.tile n).state = gtLOADING → (s.tile n).reload = true → s.groupOf n = some g →
    ∃ t, exec (.tileReloadDone n) s = .next t ∧ (t.tile n).state = gtRUN ∧ (t.tile n).pc = s.entryOf g ∧
      (t.tile n).reload = false ∧ (t.tile n).g = [] ∧ (t.tile n).calls = [] ∧ (t.tile n).pHeld = (s.tile n).pHeld ∧
      (t.tile n).pLv = (s.tile n).pLv ∧ (t.tile n).evp = (if (s.tile n).goStart then 2 ^ evCOMMIT else 0) ∧
      (∀ l, l < 4 → Table.getD (t.tile n).rp l 0 = (s.tile n).swIdx) ∧ (t.tile n).started = s.now) ∧
  (∀ (s : State) (g : Fin 64) (n : Fin 68), (g.val ∉ s.prog.late ∨ s.groupOf n ≠ none ∨ s.role kTILE n ≠ roFREE ∨
    (n.val < 34 ∧ 32 ≤ g.val) ∨ (34 ≤ n.val ∧ g.val < 32)) → exec (.groupLate g n) s = .next s) ∧
  (∀ (s : State) (g : Fin 64) (n : Fin 68), g.val ∈ s.prog.late → s.groupOf n = none → s.role kTILE n = roFREE →
    (n.val < 34 ↔ g.val < 32) → ∃ t, exec (.groupLate g n) s = .next t ∧ t.groupOf n = some g.val ∧
      (t.tile n).state = gtRUN ∧ (t.tile n).pc = s.entryOf g ∧ g.val ∉ t.prog.late ∧ t.evq.count = s.evq.count + 1)

/-- The replay reader and the trigger combiner.  STOP takes effect with the next block, which is not fed (log entry 88). -/
def Obligations.ReplayAndCombiner : Prop :=
  (∀ (s : State) (path : Path) (k src rate : Fin 8),
    let u := (s.setFld SYS_RPL_CTRL.SRC k src).setFld SYS_RPL_CTRL.RATE k rate
    (s.mode k ≠ 7 → u.rplCause k = 1) ∧ (s.mode k = 7 → (s.replay k).running = true → u.rplCause k = 2) ∧
    (u.rplCause k ≠ 0 → ∃ t, exec (.rplGo path k src rate) s = .next t ∧ t.fld SYS_RPL_STAT.ERR k = u.rplCause k ∧
      t.replays = s.replays ∧ t.tiles = s.tiles ∧ t.mem = s.mem ∧ t.evq = s.evq ∧
      ((s.replay k).running = false → t.fld SYS_RPL_STAT.STATUS k = 5) ∧
      (∀ r i, (r, i) ≠ (Reg.SYS_RPL_CTRL, k.val) → (r, i) ≠ (Reg.SYS_RPL_STAT, k.val) → t.reg r i = s.reg r i)) ∧
    (u.rplCause k = 0 → ∃ t, exec (.rplGo path k src rate) s = .next t ∧ (t.replay k).running = true ∧
      (t.replay k).src = src.val ∧ (t.replay k).rate = rate.val ∧ (t.replay k).fed = 0 ∧
      (t.replay k).next = s.reg64 .SYS_RPL_START_LO .SYS_RPL_START_HI k ∧
      (t.replay k).left = s.fld SYS_RPL_LEN.LEN k ∧ (∀ j, j ≠ k.val → t.replay j = s.replay j) ∧
      t.mem = s.mem ∧ t.trg = s.trg)) ∧
  (∀ (s : State) (k : Fin 8) (stall : Nat), (s.replay k).stop = false →
    ((s.replay k).running = false ∨ s.now < s.rplPace k ∨ s.ringAcked (s.replay k).src (s.replay k).next = false) →
    exec (.rplBlockFeed k stall) s = .next s) ∧
  (∀ (s : State) (k : Fin 8) (stall : Nat), (s.replay k).running = true → (s.replay k).stop = false →
    s.rplPace k ≤ s.now → s.ringAcked (s.replay k).src (s.replay k).next = true →
    ∃ t, exec (.rplBlockFeed k stall) s = .next t ∧ t.replay k = { s.replay k with
        running := decide (1 < (s.replay k).left), next := (s.replay k).next + 1, left := (s.replay k).left - 1,
        fed := (s.replay k).fed + 1, lastFeed := s.now, stall := (s.replay k).stall + stall } ∧
      (∀ j, j ≠ k.val → t.replay j = s.replay j) ∧
      ((s.replay k).left ≤ 1 → t.fld SYS_RPL_STAT.STATUS k = 2 ∧ t.flag SYS_OCT_STAT.RPL_BUSY k = false)) ∧
  (∀ (s : State) (path : Path) (k src rate : Fin 8), ∃ t, exec (.rplStop path k src rate) s = .next t ∧
    t.replay k = { s.replay k with stop := (s.replay k).running || (s.replay k).stop } ∧
    t.mem = s.mem ∧ t.evq = s.evq ∧ (∀ r i, (r, i) ≠ (Reg.SYS_RPL_CTRL, k.val) → t.reg r i = s.reg r i)) ∧
  (∀ (s : State) (k : Fin 8) (stall : Nat), (s.replay k).running = true → (s.replay k).stop = true →
    ∃ t, exec (.rplBlockFeed k stall) s = .next t ∧ (t.replay k).running = false ∧
      t.fld SYS_RPL_STAT.STATUS k = 3 ∧ t.flag SYS_OCT_STAT.RPL_BUSY k = false ∧
      t.evq.count = s.evq.count + 1 ∧ t.tiles = s.tiles ∧ t.mem = s.mem) ∧
  (∀ (s : State) (code : BitVec 12) (at_ : Nat), (∀ c i, c < 64 → i < 16 → s.names c i code.toNat = false ∧
      (s.trg.oldRegs = [] ∨ s.oldCells.names c i code.toNat = false)) →
    exec (.combinerEventArrival code at_) s = .next s) ∧
  (∀ (s : State) (code : BitVec 12) (at_ : Nat) (c : Fin 64) (i : Fin 16),
    (∀ c' j, c' < 64 → j < 16 → s.names c' j code.toNat = decide (c' = c.val ∧ j = i.val) ∧
      (s.trg.oldRegs = [] ∨ s.oldCells.names c' j code.toNat = false)) →
    (Table.getD (s.cell c).inputs i []).length < 16 →
    let lat : Int := s.fld TRG_CELL_CFG.LAT c
    let late := decide (s.cycleOf at_ + lat < s.now)
    ∃ t, exec (.combinerEventArrival code at_) s = .next t ∧ (late = false → t = { s with trg := t.trg }) ∧
      (⟨if late then s.now - lat else s.cycleOf at_, at_, late, code.toNat⟩ : CellEvent) ∈ Table.getD (t.cell c).inputs i [] ∧
      (late = true → t.fld TRG_CELL_LATE.LATE c = satU (TRG_CELL_LATE.LATE.hi + 1 - TRG_CELL_LATE.LATE.lo)
        (s.fld TRG_CELL_LATE.LATE c + 1)) ∧ t.mem = s.mem ∧ (∀ c', c' ≠ c.val → t.cell c' = s.cell c')) ∧
  (∀ (s : State) (c : Fin 64) (u : Nat), s.trg.oldRegs = [] →
    (s.fires c u = false ∨ u + s.fld TRG_CELL_CFG.LAT c ≠ s.now) → exec (.cellFire c u) s = .next s) ∧
  (∀ (s : State) (c : Fin 64) (u : Nat), s.trg.oldRegs = [] → s.trg.oldUntil ≤ (s.firing c u).time → s.fires c u = true →
    u + s.fld TRG_CELL_CFG.LAT c = s.now → (s.cell c).fired = none →
    ∃ t, exec (.cellFire c u) s = .next t ∧ t.fld TRG_CELL_FIRES.FIRES c = satU 32 (s.fld TRG_CELL_FIRES.FIRES c + 1) ∧
      (s.outputsOn = true → ∀ n, n < 8 → bit (s.fld TRG_CELL_OUT.TOUT c) n = true →
        Table.get? t.trg.tout n = some (s.now + s.fld TRG_TOUT_CFG.WIDTH n)) ∧
      (s.outputsOn = false → t.trg.tout = s.trg.tout ∧ t.trg.jobs = s.trg.jobs) ∧ t.mem = s.mem) ∧
  (∀ (s : State) (c : Nat) (u : Int), s.flag TRG_CELL_CFG.EN c = false → s.fires c u = false) ∧
  (∀ (s : State) (n : Fin 8), (Table.get? s.trg.tout n.val = none → exec (.toutPulseEnd n) s = .next s) ∧
    (∀ e, Table.get? s.trg.tout n.val = some e → s.now < e → exec (.toutPulseEnd n) s = .next s) ∧
    (∀ e, Table.get? s.trg.tout n.val = some e → e ≤ s.now → exec (.toutPulseEnd n) s = .next { s with
      trg := { s.trg with tout := Table.erase s.trg.tout n.val }
      out := .pin (.tout n) (s.outputsOn && s.flag TRG_TOUT_CFG.INV n) :: s.out })) ∧
  (∀ (s : State) (j : Fin 8) (ns : Nat), ((s.reg .TRG_TMR_PERIOD j).toNat = 0 ∨
      ns % (s.reg .TRG_TMR_PERIOD j).toNat ≠ (s.reg .TRG_TMR_PHASE j).toNat ∨ s.cycleOf (nsToOt ns) ≠ s.now ∨
      ∃ l, Table.get? s.trg.timers j.val = some l ∧ ns ≤ l) → exec (.timerFire j ns) s = .next s) ∧
  (∀ (s : State) (j : Fin 8) (ns : Nat), (s.reg .TRG_TMR_PERIOD j).toNat ≠ 0 →
    ns % (s.reg .TRG_TMR_PERIOD j).toNat = (s.reg .TRG_TMR_PHASE j).toNat → s.cycleOf (nsToOt ns) = s.now →
    (∀ l, Table.get? s.trg.timers j.val = some l → l < ns) →
    exec (.timerFire j ns) s = exec (.combinerEventArrival (BitVec.ofNat 12 (0xC00 + j.val)) (nsToOt ns))
      { s with trg := { s.trg with timers := Table.insert natLt s.trg.timers j.val ns } }) ∧
  (∀ (s : State) (path : Path), exec (.swTrigger path 0) s = .next (s.emit (.writeDone path (Reg.TRG_SW.addr 0)))) ∧
  (∀ (s : State) (path : Path) (j : Fin 16), exec (.swTrigger path (BitVec.ofNat 32 (2 ^ j.val))) s =
    .next ((s.combEvent (0xC10 + j.val) s.time.ot (fun _ => true)).emit (.writeDone path (Reg.TRG_SW.addr 0))))

/-- The record engine, the record store and deferred retrieval. -/
def Obligations.RecordsAndRetrieval : Prop :=
  (∀ (s : State) (c s0 ns : Nat), (s.windowAt c s0 ns).first = s0 / 80 ∧
    (s.windowAt c s0 ns).blocks = ((s.windowAt c s0 ns).len + 79) / 80 + 1 ∧ (s.windowAt c s0 ns).done = []) ∧
  (∀ (s : State) (d : Fin 32), (s.def_ d).rearming = false → exec (.defRearm d) s = .next s) ∧
  (∀ (s : State) (d : Fin 32), (s.def_ d).rearming = true → (s.def_ d).queue = [] →
    s.outputsOn = true → exec (.defRearm d) s = .next (s.setDef d { s.def_ d with rearming := false })) ∧
  (∀ (s : State) (d : Fin 32), (s.def_ d).rearming = true → s.outputsOn = false → exec (.defRearm d) s = .next
    ((s.setDef d { s.def_ d with rearming := false, queue := [] }).addFld SYS_HELD_DISCARDS.COUNT 0
      (s.def_ d).queue.length)) ∧
  (∀ (s : State) (d : Fin 32) (f : Firing) (q : List Firing), (s.def_ d).rearming = true → (s.def_ d).queue = f :: q →
    s.outputsOn = true → s.trg.oldRegs = [] →
    let pre := (s.reg .TRG_DEF_PRE d).toNat
    let post := (s.reg .TRG_DEF_POST d).toNat
    let ws := (s.defChannels d).map (fun c => s.windowAt c (s.sampleAt (c / 32) (f.time - nsToOt pre)) (pre + post))
    let j : Job := ⟨.segment d, f, ws, 0, 1, false, false, 0, s.gib, none, s.now⟩
    s.segmentsHeld < 64 →
    s.pinUsed + j.pinned ≤ s.pinBudget →
    ∃ t, exec (.defRearm d) s = .next t ∧ t.trg.jobs = s.trg.jobs ++ [j] ∧ (t.def_ d).queue = q ∧
      (t.def_ d).rearming = false ∧ t.regs = s.regs ∧ t.mem = s.mem) ∧
  (∀ (s : State) (d : Fin 32), (s.def_ d).rearming = true → s.outputsOn = true → s.trg.oldRegs = [] →
    64 ≤ s.segmentsHeld → s.segOpen d = false → ∃ t, exec (.defRearm d) s = .next t ∧ t.trg.jobs = s.trg.jobs ∧
      (t.def_ d).queue = [] ∧ (t.def_ d).rearming = false ∧ t.mem = s.mem) ∧
  (∀ (s : State) (d : Fin 32), let ms := ((s.recordCfg d).reg .TRG_DEF_TIMEOUT d).toNat
    ((s.def_ d).since = none ∨ ms = 0 ∨ ∃ a, (s.def_ d).since = some a ∧ s.now < a + ms * msCycles) →
    exec (.recordTimeout d) s = .next s) ∧
  (∀ (s : State) (d : Fin 32) (r : Region) (a : Nat), (s.def_ d).since = some a →
    let cfg := s.recordCfg d
    let bs := s.recordBytes cfg d 3 (s.def_ d).segs
    a + (cfg.reg .TRG_DEF_TIMEOUT d).toNat * msCycles ≤ s.now → (cfg.reg .TRG_DEF_TIMEOUT d).toNat ≠ 0 →
    s.outputsOn = true → s.recordsLost s.trg.writePtr ((bs.length + 63) / 64 * 64) s.trg.recnum = [] →
    (s.def_ d).segs ≠ [] → s.region 1 0 = some r → s.trg.writePtr + bs.length ≤ r.length →
    ∃ t, exec (.recordTimeout d) s = .next t ∧ (t.def_ d).segs = [] ∧ (t.def_ d).since = s.nextSince d ∧
      t.trg.recnum = s.trg.recnum + 1 ∧ t.trg.jobs = s.trg.jobs ∧ t.trg.idxNext = s.trg.idxNext) ∧
  (∀ (s : State) (j : Nat), (s.trg.jobs[j]? = none ∨ s.outputsOn = true ∧
      ∃ x, s.trg.jobs[j]? = some x ∧ s.copyNext x = none ∧ x.complete = false) → exec (.recCopyBlock j) s = .next s) ∧
  (∀ (s : State) (x y : Job), s.copyNext x = some y → ∃ w ∈ x.windows, ∃ w' ∈ y.windows, ∃ b,
    w' = { w with done := w.done ++ [b] } ∧ w.done.length < w.blocks ∧
    (x.broken = true ∨ s.ringAcked (w.ch / 32) (w.first + w.done.length) = true) ∧
    (x.broken = true → b = gapBlock (w.first + w.done.length)) ∧
    (x.broken = false → b = s.ringRead x.gib w.ch (w.first + w.done.length))) ∧
  (∀ (s : State) (j : Nat) (x : Job) (d : Fin 32), s.trg.jobs[j]? = some x → x.kind = .segment d → s.outputsOn = false →
    ∃ t, exec (.recCopyBlock j) s = .next t ∧ x ∉ t.trg.jobs ∧ (t.def_ d).rearming = true ∧ t.mem = s.mem ∧
      t.trg.recnum = s.trg.recnum ∧ (t.def_ d).segs = (s.def_ d).segs) ∧
  (∀ (s : State) (j : Nat) (x y : Job), (s.outputsOn = true ∨ ∃ req a m, x.kind = .retrieval req a m) →
    s.trg.jobs[j]? = some x → s.copyNext x = some y → y.complete = false →
    exec (.recCopyBlock j) s = .next { s.copyFetch x with trg := { s.trg with jobs := s.trg.jobs.set j y } }) ∧
  (∀ (s : State) (j : Nat) (x y : Job) (d : Fin 32), s.trg.jobs[j]? = some x → s.copyNext x = some y → y.complete = true →
    x.kind = .segment d → s.outputsOn = true → s.trg.oldRegs = [] → (s.def_ d).switched = false →
    (s.def_ d).segs.length < s.fld TRG_DEF_CFG.SEGS_M1 d →
    ∃ t, exec (.recCopyBlock j) s = .next t ∧ y ∉ t.trg.jobs ∧ t.trg.recnum = s.trg.recnum ∧
      (t.def_ d).segs = (s.def_ d).segs ++ [⟨y.fire, y.windows, y.ext, y.triggers, y.broken⟩] ∧
      t = { s.copyFetch x with trg := t.trg }) ∧
  (∀ (s : State) (d : Fin 32) (item : List Byte), (s.offHall 3 d item = none → exec (.itemRecordArrival d item) s = .next s) ∧
    ∀ u, s.offHall 3 d item = some u → u = { s with hall := s.hall.erase ⟨3, d, item⟩ } ∧ (s.outputsOn = false →
      exec (.itemRecordArrival d item) s = .next (u.addFld SYS_HELD_DISCARDS.COUNT 0 1))) ∧
  (∀ (s : State) (d : Fin 32) (item : List Byte) (r : Region), (s.offHall 3 d item).isSome = true →
    s.outputsOn = true → s.segmentsHeld < 64 →
    s.region 1 0 = some r → s.trg.writePtr + (128 + item.length) ≤ r.length → (∀ a, s.poisoned a = false) →
    s.recordsLost s.trg.writePtr ((128 + item.length + 63) / 64 * 64) s.trg.recnum = [] →
    ∃ t, exec (.itemRecordArrival d item) s = .next t ∧ t.trg.recnum = s.trg.recnum + 1 ∧
      t.bytes (r.offset + s.trg.writePtr) 1 = [0x32] ∧
      t.bytes (r.offset + s.trg.writePtr + 128) item.length = item ∧
      le (t.bytes (r.offset + s.trg.writePtr) 128) 12 4 = 0 ∧ t.regs = s.regs ∧ t.trg.idxNext = s.trg.idxNext) ∧
  (∀ (s : State), s.trg.writing = [] → exec .recordWriteAcked s = .next s) ∧
  (∀ (s : State) (w : RecordWrite) (l : List RecordWrite) (a : Nat), s.trg.writing = w :: l → w.failed = false →
    s.indexAddr w.recnum = some a → (∀ b, s.poisoned b = false) → s.trg.stored.any (·.recnum == w.recnum) = true →
    ∃ t, exec .recordWriteAcked s = .next t ∧ t.bytes a w.index.length = w.index ∧
      t = { s with mem := t.mem, cel := t.cel, trg := { s.trg with writing := l, indexing := s.trg.indexing ++ [w] } } ∧
      (∀ b, (b < a ∨ a + w.index.length ≤ b) → t.byte b = s.byte b)) ∧
  (∀ (s : State) (w : RecordWrite) (l : List RecordWrite), s.trg.writing = w :: l → w.failed = true →
    ∃ t, exec .recordWriteAcked s = .next t ∧ t.trg.writing = l ∧ t.mem = s.mem ∧ t.trg.indexing = s.trg.indexing ∧
      (∀ x ∈ t.trg.stored, x.recnum ≠ w.recnum) ∧ t.fld TRG_DEF_CNT.DROPPED (le w.index 24 2 % 32) =
        satU (TRG_DEF_CNT.DROPPED.hi + 1 - TRG_DEF_CNT.DROPPED.lo) (s.fld TRG_DEF_CNT.DROPPED (le w.index 24 2 % 32) + 1)) ∧
  (∀ (s : State), s.trg.indexing = [] → exec .indexWriteAck s = .next s) ∧
  (∀ (s : State) (w : RecordWrite) (l : List RecordWrite), s.trg.indexing = w :: l →
    exec .indexWriteAck s = .next { s with trg := { s.trg with indexing := l, idxNext := w.recnum + 1 } }) ∧
  (∀ (s : State) (path : Path) (v : BitVec 16), exec (.rtvDoorbell path v) s = .next
    (((if s.flag TRG_RTV_BASE_HI.ENABLE 0 = true ∧ v.toNat < s.rtvEntries then s.setFld TRG_RTV_PTR.TAIL 0 v.toNat else s)
      : State).emit (.writeDone path (Reg.TRG_RTV_PTR.addr 0)))) ∧
  (∀ (s : State), (16 ≤ s.retrievals.length ∨ s.fab.rtvWait = [] ∧ s.rtvRingLen = 0) → exec .rtvStart s = .next s) ∧
  (∀ (s : State), s.retrievals.length < 16 → s.fab.rtvWait = [] → s.rtvRingLen ≠ 0 →
    let a := s.rtvBase + 64 * s.fld TRG_RTV_PTR.HEAD 0
    let r := parseRtv (s.bytes a 64)
    ∀ j : Job, j.kind = .retrieval r.req r.dest none → j.windows = (if s.rtvStatus r false = 0 then s.rtvWindows r else []) →
    j.fire = ⟨s.rtvTime r, 0xFFFF, 0xFFFF, false⟩ → j.ext = r.lenNs → j.triggers = 0 → j.closed = true → j.broken = false →
    j.status = s.rtvStatus r false → j.gib = s.gib → j.made = s.now → (j.cut = none ↔ s.rtvStatus r false = 0) →
    (s.rtvStatus r false = 0 → s.pinBudget < s.pinUsed + j.pinned →
      exec .rtvStart s = .next ((s.readBy srcRecord a 64).raise Ev.PIN_WAIT 0 [(0, 8, r.req)])) ∧
    ((s.rtvStatus r false ≠ 0 ∨ s.pinUsed + j.pinned ≤ s.pinBudget) → ∃ t, exec .rtvStart s = .next t ∧
      (∃ c, t = { s with trg := { s.trg with jobs := s.trg.jobs ++ [{ j with cut := c }] }, regs := t.regs, cel := t.cel } ∧
        (s.rtvStatus r false = 0 → c = none) ∧ (s.rtvStatus r false ≠ 0 → c.isSome = true)) ∧
      (∀ k i, (k, i) ≠ (Reg.TRG_RTV_PTR, 0) → (k, i) ≠ (Reg.CEL_POISON, 0) → t.reg k i = s.reg k i) ∧
      t.fld TRG_RTV_PTR.TAIL 0 = s.fld TRG_RTV_PTR.TAIL 0)) ∧
  (∀ (s : State) (r : RtvRequest) (remote : Bool), (r.lenNs = 0 ∨ 2000000000 < r.lenNs ∨ r.chans = [] ∨ remote = false ∧ r.dest % 64 ≠ 0) →
    s.rtvStatus r remote = 5) ∧
  (∀ (s : State) (j : Nat), (s.trg.jobs[j]? = none ∨
      ∃ x d, s.trg.jobs[j]? = some x ∧ x.kind = .segment d) → exec (.rtvComplete j) s = .next s) ∧
  (∀ (s : State) (j : Nat) (x : Job) (req dest : Nat), s.trg.jobs[j]? = some x → x.kind = .retrieval req dest none →
    ((s.copyAll x.remaining x).2.complete = false ∨ s.rtcFull = true) → exec (.rtvComplete j) s = .next s) ∧
  (∀ (s : State) (j : Nat) (x : Job) (req dest : Nat), s.trg.jobs[j]? = some x → x.kind = .retrieval req dest none →
    (s.copyAll x.remaining x).2.complete = true → s.rtcFull = false → (∀ a, s.poisoned a = false) →
    let a := s.rtcBase + 32 * s.fld TRG_RTC_PTR.TAIL 0
    inCellar a 32 = true ∨ inSystem a 32 = true →
    ∃ t, exec (.rtvComplete j) s = .next t ∧ t.trg.jobs = s.trg.jobs.eraseIdx j ∧
      le (t.bytes a 32) 0 8 = req % 2 ^ 64 ∧ le (t.bytes a 32) 8 1 = x.status % 256 ∧
      t.fld TRG_RTC_PTR.TAIL 0 = (s.fld TRG_RTC_PTR.TAIL 0 + 1) % s.rtcEntries % 65536 ∧
      (1 < x.status → ∀ b, (b < a ∨ a + 32 ≤ b) → t.byte b = s.byte b))

/-- A saturating counter field has grown by n. -/
def countsBy (s t : State) (f : Fld) (i n : Nat) : Prop := t.fld f i = satU (f.hi + 1 - f.lo) (s.fld f i + n)

/-- An item is a spectrum of renderer p's channel (R362). -/
def oplFits (s : State) (p : Nat) (item : List Byte) : Prop :=
  s.flag OPL_CFG.EN p = true ∧ le item 0 1 = 3 ∧ le item 2 2 = s.fld OPL_CFG.CHANNEL p

/-- The Opal renderers. -/
def Obligations.OpalRenderers : Prop :=
  (∀ (s : State) (l : Fin 16) (item : List Byte),
    (s.offHall 2 l item = none → exec (.oplRecordArrival l item) s = .next s) ∧
    ∀ u, s.offHall 2 l item = some u → u = { s with hall := s.hall.erase ⟨2, l, item⟩ } ∧ (s.oplSwap = none →
      (17 ≤ s.oplPhys l ∨ s.flag OPL_CFG.EN (s.oplPhys l) = false) → exec (.oplRecordArrival l item) s = .next u)) ∧
  (∀ (s : State) (l : Fin 16) (item : List Byte), s.oplSwap = none → (s.offHall 2 l item).isSome = true →
    let p := s.oplPhys l
    p < 17 → s.flag OPL_CFG.EN p = true → (le item 0 1 ≠ 3 ∨ le item 2 2 ≠ s.fld OPL_CFG.CHANNEL p) →
    ∃ t, exec (.oplRecordArrival l item) s = .next t ∧ countsBy s t OPL_DROPS.DROPPED p 1 ∧
      (t.opal p).queue = (s.opal p).queue ∧ (t.opal p).lastSeq = (s.opal p).lastSeq ∧ t.mem = s.mem) ∧
  (∀ (s : State) (l : Fin 16) (item : List Byte), s.oplSwap = none → (s.offHall 2 l item).isSome = true →
    let p := s.oplPhys l
    p < 17 → oplFits s p item → ∃ t, exec (.oplRecordArrival l item) s = .next t ∧ t.mem = s.mem ∧
      (t.opal p).lastSeq = some (le item 48 8) ∧ (t.opal p).cells = (s.opal p).cells ∧
      (∀ m, le item 28 2 &&& s.fld OPL_SKIP.SKIP_FLAGS p = 0 → (s.opal p).queue.length < 64 →
        (s.opal p).lastSeq = some m → countsBy s t OPL_DROPS.DROPPED p (le item 48 8 - (m + 1))) ∧
      (le item 28 2 &&& s.fld OPL_SKIP.SKIP_FLAGS p ≠ 0 → (t.opal p).queue = (s.opal p).queue ∧
        countsBy s t OPL_DROPS.SKIPPED p 1) ∧
      (le item 28 2 &&& s.fld OPL_SKIP.SKIP_FLAGS p = 0 → (s.opal p).queue.length < 64 →
        (t.opal p).queue = (s.opal p).queue ++ [item]) ∧
      (64 ≤ (s.opal p).queue.length → (t.opal p).queue = (s.opal p).queue)) ∧
  (∀ (s : State) (p : Fin 17), ((s.opal p).queue = [] ∨ s.flag OPL_CFG.EN p = false ∨ (s.opal p).decayDue = true ∨
    (s.opal p).due.isSome = true ∨ s.oplCopying p = true) → exec (.oplPlot p) s = .next s) ∧
  (∀ (s : State) (p : Fin 17) (item : List Byte) (rest : List (List Byte)), (s.opal p).queue = item :: rest →
    s.flag OPL_CFG.EN p = true → (s.opal p).decayDue = false → (s.opal p).due = none → s.oplCopying p = false →
    ((le item 2 2 ≠ s.fld OPL_CFG.CHANNEL p ∨ le item 28 2 &&& s.fld OPL_SKIP.SKIP_FLAGS p ≠ 0) → ∃ t,
      exec (.oplPlot p) s = .next t ∧ (t.opal p).queue = rest ∧ (t.opal p).cells = (s.opal p).cells ∧
      (t.opal p).ticks = (s.opal p).ticks ∧ (if le item 2 2 ≠ s.fld OPL_CFG.CHANNEL p then
        countsBy s t OPL_DROPS.DROPPED p 1 else countsBy s t OPL_DROPS.SKIPPED p 1)) ∧
    (le item 2 2 = s.fld OPL_CFG.CHANNEL p → le item 28 2 &&& s.fld OPL_SKIP.SKIP_FLAGS p = 0 →
    ∃ t, exec (.oplPlot p) s = .next t ∧ (t.opal p).queue = rest ∧ countsBy s t OPL_SPECTRA.COUNT p 1 ∧
      (∀ k, Table.getD (t.opal p).cells k 0 = Table.getD (s.opal p).cells k 0 ∨
        Table.getD (t.opal p).cells k 0 = satU 16 (Table.getD (s.opal p).cells k 0 + s.fld OPL_CFG.INC p)) ∧
      (∀ x r r', x < 1024 → r < 256 → r' < 256 → r ≠ r' →
        Table.getD (t.opal p).cells (256 * x + r) 0 = Table.getD (s.opal p).cells (256 * x + r) 0 ∨
        Table.getD (t.opal p).cells (256 * x + r') 0 = Table.getD (s.opal p).cells (256 * x + r') 0) ∧
      (t.opal p).decayDue = decide (s.fld OPL_DECAY.TICK p ≤ (s.opal p).ticks + 1) ∧
      (t.opal p).due = (if s.fld OPL_CFG.FRAME_SRC p = 0 ∧ s.fld OPL_FRAME_CNT.FRAME_SPECTRA p ≤ (s.opal p).records + 1
        then some s.now else none) ∧
      (∀ q, q ≠ p.val → t.opal q = s.opal q) ∧ t.mem = s.mem)) ∧
  (∀ (s : State) (p : Fin 17), (s.opal p).decayDue = false → exec (.oplDecayStep p) s = .next s) ∧
  (∀ (s : State) (p : Fin 17), (s.opal p).decayDue = true → s.oplSwap = none →
    (s.opal p).cells.Pairwise (fun a b => a.1 < b.1) → ∃ t, exec (.oplDecayStep p) s = .next t ∧
      t = { s with opals := t.opals } ∧ (t.opal p).decayDue = false ∧ (t.opal p).queue = (s.opal p).queue ∧
      (∀ k, Table.getD (t.opal p).cells k 0 = (let c := Table.getD (s.opal p).cells k 0
        let d := s.fld OPL_DECAY.D p
        if d = 0 then c else c - (c + 2 ^ d - 1) / 2 ^ d)) ∧ (∀ q, q ≠ p.val → t.opal q = s.opal q)) ∧
  (∀ (s : State) (p : Fin 17), (s.opal p).due = none → exec (.oplFrameRequest p) s = .next s) ∧
  (∀ (s : State) (p : Fin 17) (a l : Nat), (s.opal p).due = some a → s.oplSwap = none → s.lv = [] →
    (s.opal p).lastReq = some l → a < l + 13332800 → ∃ t, exec (.oplFrameRequest p) s = .next t ∧
      (t.opal p).due = none ∧ (t.opal p).frames = (s.opal p).frames ∧ countsBy s t OPL_FRAMES.FRAME_SKIP p 1 ∧
      (t.opal p).lastReq = some l ∧ t.mem = s.mem) ∧
  (∀ (s : State) (p : Fin 17) (a : Nat), (s.opal p).due = some a → s.oplSwap = none → s.lv = [] →
    (∀ l, (s.opal p).lastReq = some l → l + 13332800 ≤ a) → (Table.getD (s.opal p).bufs 0 {}).free (s.showsPhys p) = true →
    s.scanRanges.any (fun r => decide (r.1 < s.oplBufBase p 0 + 2 ^ 20) && decide (s.oplBufBase p 0 < r.1 + r.2)) = false →
    ∃ t, exec (.oplFrameRequest p) s = .next t ∧ (t.opal p).due = none ∧ (t.opal p).lastReq = some a ∧
      (t.opal p).frames = (s.opal p).frames ++ [((0, s.oplBufBase p 0), [(s.opal p).cells])] ∧
      (Table.getD (t.opal p).bufs 0 {}).writing = true ∧ t.regs = s.regs ∧ t.mem = s.mem) ∧
  (∀ (s : State) (p : Fin 17), (s.opal p).frames = [] → exec (.oplFlip p) s = .next s) ∧
  (∀ (s : State) (p : Fin 17) (i b : Nat) (cells : Table Nat Nat) (rest : List ((Nat × Nat) × List (Table Nat Nat))),
    (s.opal p).frames = ((i, b), [cells]) :: rest → (∀ a, s.poisoned a = false) → ∃ t, exec (.oplFlip p) s = .next t ∧
      (t.opal p).frames = rest ∧ (Table.getD (t.opal p).bufs i {}).writing = false ∧
      (∀ d, d ∈ s.showsPhys p → (d, b) ∈ (Table.getD (t.opal p).bufs i {}).pending) ∧
      (∀ x y, x < 1024 → y < 256 → t.load (b + 4096 * y + 4 * x) 4 =
        (s.reg .OPL_CMAP (256 * p + colourIndex (s.flag OPL_CFG.LOG_MAP p) (s.fld OPL_COLOUR.CGAIN p)
          (Table.getD cells (256 * x + (255 - y)) 0))).toNat) ∧
      (∀ a, (a < b ∨ b + 2 ^ 20 ≤ a) → t.byte a = s.byte a) ∧ t.regs = s.regs) ∧
  (∀ (s : State), (s.oplSwap = none ∨ ∃ w, s.oplSwap = some w ∧ w.step ≠ .copying) →
    exec .opalCopyDone s = .next s) ∧
  (∀ (s : State) (w : OplSwap), s.oplSwap = some w → w.step = .copying → ∃ t, exec .opalCopyDone s = .next t ∧
    t.oplSwap = some { w with step := .both } ∧ (t.opal w.new).cells = (s.opal w.old).cells ∧
    (t.opal w.new).ticks = (s.opal w.old).ticks ∧ t = { s with opals := t.opals, oplSwap := t.oplSwap }) ∧
  (∀ (s : State) (p : Fin 17), s.oplLogical p = none → exec (.opalRendererError p) s = .next s) ∧
  (∀ (s : State) (p : Fin 17) (l : Nat), s.oplLogical p = some l → s.freeSpare kOPAL (List.range 17) = none →
    (s.step2 Block.OPL.index p).1 < 4 → ∃ t, exec (.opalRendererError p) s = .next t ∧
      (t.opal p).queue = [] ∧ (t.opal p).cells = [] ∧ (t.opal p).lastSeq = none ∧
      (t.opal p).bufs = (s.opal p).bufs ∧ t.oplMap = s.oplMap ∧ t.evq.count = s.evq.count + 1 ∧
      ∀ q, q ≠ p.val → t.opal q = s.opal q)

/-- The two scan-outs. -/
def Obligations.ScanOuts : Prop :=
  (∀ (s : State) (path : Path) (d : Fin 2) (v : BitVec 32), ∃ t, exec (.vidBaseCommit path d v) s = .next t ∧
    t.fld VID_BASE.ADDR d = v.toNat ∧ t.flag VID_STATUS.BASE_PEND d = true ∧
    t.scan d = { s.scan d with base := (s.scan d).base.filter (fun b => b.2 != s.now) ++ [(v.toNat, s.now)] } ∧ t.fld VID_BASE_ACT.ADDR d = s.fld VID_BASE_ACT.ADDR d ∧
    t.mem = s.mem ∧
    ((∀ b ∈ (s.scan d).base, b.2 ≠ s.now) → t.evq = s.evq ∧ t.fld VID_RETIRED.ADDR d = s.fld VID_RETIRED.ADDR d) ∧
    (∀ a, (s.scan d).base = [(a, s.now)] → t.evq.count = s.evq.count + 1 ∧ t.fld VID_RETIRED.ADDR d = a % 2 ^ 32)) ∧
  (∀ (s : State) (d : Fin 2) (a c : Nat) (b : Nat × Nat), (s.scan d).base = [(a, c), b] →
    ((s.baseTick d).scan d).base = [b] ∧ (s.baseTick d).fld VID_RETIRED.ADDR d = a % 2 ^ 32) ∧
  (∀ (s : State) (d : Fin 2) (e : BitVec 48), s.flag VID_CTRL.EN d = false → exec (.vidLatch d e) s = .next s) ∧
  (∀ (s : State) (d : Fin 2) (e : BitVec 48), s.flag VID_CTRL.EN d = true → s.lv = [] →
    ∃ t, exec (.vidLatch d e) s = .next t ∧ t.mem = s.mem ∧
      t.reg64 .VID_FRAME_LO .VID_FRAME_HI d = (s.reg64 .VID_FRAME_LO .VID_FRAME_HI d + 1) % 2 ^ 64 ∧
      (∀ a c, (s.scan d).base.find? (fun b => decide (b.2 < s.now)) = some (a, c) →
        t.fld VID_BASE_ACT.ADDR d = a % 2 ^ 32 ∧ t.flag VID_STATUS.BASE_PEND d = ((t.scan d).base != []) ∧
        t.fld VID_FLIP_FRAME.FRAME d = (s.reg64 .VID_FRAME_LO .VID_FRAME_HI d + 1) % 2 ^ 32 ∧
        (t.scan d).base = (s.scan d).base.filter (fun b => decide (s.now ≤ b.2)) ∧
        (s.fld VID_BASE_ACT.ADDR d ≠ a → (s.scan d).based = true → (t.scan d).retiring = (s.scan d).retiring ++
          [(s.fld VID_BASE_ACT.ADDR d, s.reg64 .VID_FRAME_LO .VID_FRAME_HI d)])) ∧
      ((s.scan d).base.find? (fun b => decide (b.2 < s.now)) = none → t.fld VID_BASE_ACT.ADDR d = s.fld VID_BASE_ACT.ADDR d ∧
        (t.scan d).retiring = (s.scan d).retiring) ∧
      (∀ p, p < 17 → s.flag OPL_CFG.EN p = true → s.fld OPL_CFG.FRAME_SRC p = d.val + 1 → (s.opal p).due = none →
        (t.opal p).due = some s.now) ∧
      (e = 0 → t.evq = s.evq) ∧
      (e ≠ 0 → s.flag VID_STATUS.TRAINED d = true → s.outputsOn = true →
        countsBy s t VID_CRC_STAT.MISMATCH d 1 ∧ t.evq.count = s.evq.count + 1 ∧ t.flag VID_CRC_STAT.PIN_VALID d = true) ∧
      (s.flag VID_STATUS.TRAINED d = false → t.flag VID_CRC_STAT.PIN_VALID d = false ∧ t.evq = s.evq)) ∧
  (∀ (s : State) (d : Fin 2), (s.scan d).retiring = [] → exec (.flipRetired d none) s = .next s) ∧
  (∀ (s : State) (d : Fin 2) (a f : Nat) (rest : List (Nat × Nat)), (s.scan d).retiring = (a, f) :: rest →
    ∃ t, exec (.flipRetired d none) s = .next t ∧ t.scan d = { s.scan d with retiring := rest } ∧
      t.fld VID_RETIRED.ADDR d = a % 2 ^ 32 ∧ t.evq.count = s.evq.count + 1 ∧ t.mem = s.mem ∧
      ∀ r i, (r, i) ≠ (Reg.VID_RETIRED, d.val) → r ≠ .EVQ_DROPPED → t.reg r i = s.reg r i) ∧
  (∀ (s : State) (d : Fin 2) (l : Fin 16), ∃ t, exec (.flipRetired d (some l)) s = .next t ∧ t = { s with opals := t.opals } ∧
    (∀ i, ∀ e ∈ (Table.getD (t.opal (s.oplPhys l)).bufs i {}).retiring, e.1 ≠ d.val) ∧
    (t.opal (s.oplPhys l)).queue = (s.opal (s.oplPhys l)).queue ∧ ∀ q, q ≠ s.oplPhys l → t.opal q = s.opal q) ∧
  (∀ (s : State) (d : Fin 2), s.flag VID_STATUS.HPD d = false → exec (.hpdChange d .fall) s = .next s ∧
    exec (.hpdChange d .lostLink) s = .next s ∧ ∃ t, exec (.hpdChange d .rise) s = .next t ∧
      t.flag VID_STATUS.HPD d = true ∧ t.scan d = { s.scan d with training := true } ∧ t.evq.count = s.evq.count + 1 ∧
      t.flag VID_STATUS.TRAINED d = s.flag VID_STATUS.TRAINED d ∧ t.mem = s.mem) ∧
  (∀ (s : State) (d : Fin 2), s.flag VID_STATUS.HPD d = true → exec (.hpdChange d .rise) s = .next s ∧
    (∃ t, exec (.hpdChange d .fall) s = .next t ∧ t.flag VID_STATUS.HPD d = false ∧ t.flag VID_STATUS.TRAINED d = false ∧
      t.scan d = { s.scan d with training := false } ∧ t.evq.count = s.evq.count + 1 ∧ t.mem = s.mem) ∧
    (∃ t, exec (.hpdChange d .lostLink) s = .next t ∧ t.flag VID_STATUS.HPD d = true ∧
      t.flag VID_STATUS.TRAINED d = false ∧ t.scan d = { s.scan d with training := true } ∧ t.evq = s.evq)) ∧
  (∀ (s : State) (d : Fin 2) (sr : Fin 4) (sl : Fin 3) (ok : Bool), (s.scan d).training = false →
    exec (.linkTrainDone d sr sl ok) s = .next s) ∧
  (∀ (s : State) (d mr ml : Nat), (∀ r l, s.dpChoice d mr ml = some (r, l) → r ≤ mr ∧ l ≤ ml ∧
      s.dpFits d r (2 ^ l) = true ∧ (∀ r' l', r' ≤ mr → l' ≤ ml → (r' < r ∨ r' = r ∧ l' < l) → s.dpFits d r' (2 ^ l') = false)) ∧
    (s.dpChoice d mr ml = none → ∀ r l, r ≤ mr → l ≤ ml → s.dpFits d r (2 ^ l) = false)) ∧
  (∀ (s : State) (d : Fin 2) (sr : Fin 4) (sl : Fin 3) (ok : Bool), (s.scan d).training = true →
    ∃ t, exec (.linkTrainDone d sr sl ok) s = .next t ∧ t.scan d = { s.scan d with training := false } ∧
      t.evq.count = s.evq.count + 1 ∧ t.mem = s.mem ∧
      (match s.dpChoice d (min sr (s.fld VID_CTRL.MAX_RATE d)) (min sl (s.fld VID_CTRL.MAX_LANES d)) with
      | some (r, l) => if ok then t.flag VID_STATUS.TRAINED d = true ∧ t.fld VID_STATUS.LANES d = l ∧ t.fld VID_STATUS.RATE d = r
          else t.flag VID_STATUS.TRAINED d = s.flag VID_STATUS.TRAINED d
      | none => t.flag VID_STATUS.TRAINED d = s.flag VID_STATUS.TRAINED d)) ∧
  (∀ (s : State) (d : Fin 2) (line x : Nat), s.flag VID_CTRL.EN d = false → exec (.underrun d line x) s = .next s) ∧
  (∀ (s : State) (d : Fin 2) (line x : Nat), s.flag VID_CTRL.EN d = true → ∃ t, exec (.underrun d line x) s = .next t ∧
    (t.scan d).black = (s.scan d).black ++ [(line, x)] ∧ countsBy s t VID_UNDERRUN.COUNT d 1 ∧ t.mem = s.mem ∧
    ((s.scan d).under.last = none → t.evq.count = s.evq.count + 1))

/-- The DMA engine. -/
def Obligations.DmaEngineWorks : Prop :=
  (∀ (s : State) (path : Path) (c : Fin 32), s.fld DMA_CH_STAT.STATE c ≠ dmIDLE → s.fld DMA_CH_STAT.STATE c ≠ dmHALTED →
    exec (.dmaStart path c) s = .next (s.emit (.writeDone path (Reg.DMA_CH_CTRL.addr c)))) ∧
  (∀ (s : State) (path : Path) (c : Fin 32), (s.fld DMA_CH_STAT.STATE c = dmIDLE ∨ s.fld DMA_CH_STAT.STATE c = dmHALTED) →
    let a := s.fld DMA_CH_HEAD_LO.ADDR_LO c * 64 + (s.reg .DMA_CH_HEAD_HI c).toNat * 2 ^ 32
    ∃ t, exec (.dmaStart path c) s = .next t ∧ t.dmaCh c = { phase := .fetch, space := s.fld DMA_CH_CTRL.DSPACE c, addr := a, count := s.fld DMA_CH_STAT.DB_COUNT c } ∧
      t.fld DMA_CH_STAT.STATE c = dmRUNNING ∧ t.reg64 .DMA_CH_CUR_LO .DMA_CH_CUR_HI c = a % 2 ^ 64 ∧
      (∀ j, j ≠ c.val → t.dmaCh j = s.dmaCh j) ∧ t.mem = s.mem) ∧
  (∀ (s : State) (path : Path) (c : Fin 32), ∃ t, exec (.dmaStop path c) s = .next t ∧ t.mem = s.mem ∧
    (∀ j, j ≠ c.val → t.dmaCh j = s.dmaCh j) ∧
    ((s.dmaCh c).phase = .idle → t.dmaCh c = s.dmaCh c ∧ t.regs = s.regs) ∧
    (((s.dmaCh c).phase = .data ∨ (s.dmaCh c).phase = .readback) →
      t.dmaCh c = { s.dmaCh c with ending := some dsSTOPPED } ∧ t.fld DMA_CH_STAT.STATE c = dmSTOPPING) ∧
    (((s.dmaCh c).phase = .parkLink ∨ (s.dmaCh c).phase = .parkOwn) →
      t.dmaCh c = { s.dmaCh c with phase := .idle } ∧ t.fld DMA_CH_STAT.STATE c = dmIDLE)) ∧
  (∀ (s : State) (path : Path) (c : Fin 32), ∃ t, exec (.dmaDoorbell path c) s = .next t ∧
    t.fld DMA_CH_STAT.DB_COUNT c = (s.fld DMA_CH_STAT.DB_COUNT c + 1) % 2 ^ 16 ∧ t.dma = s.dma ∧ t.mem = s.mem ∧
    (∀ r i, (r, i) ≠ (Reg.DMA_CH_STAT, c.val) → t.reg r i = s.reg r i)) ∧
  (∀ (s : State) (c : Fin 32) (link : BitVec 64) (desc : List Byte) (e : Bool), ((s.dmaCh c).phase = .idle ∨
      (s.dmaCh c).phase = .data ∨ (s.dmaCh c).phase = .readback ∨
      ((s.dmaCh c).phase = .parkLink ∨ (s.dmaCh c).phase = .parkOwn) ∧ s.fld DMA_CH_STAT.DB_COUNT c = (s.dmaCh c).count) →
    exec (.dmaDescFetch c link desc e) s = .next s) ∧
  (∀ (s : State) (c : Fin 32) (link : BitVec 64) (desc : List Byte) (e : Bool), (s.dmaCh c).space = 0 →
    ((s.dmaCh c).phase = .relink ∨ (s.dmaCh c).phase = .parkLink ∧ s.fld DMA_CH_STAT.DB_COUNT c ≠ (s.dmaCh c).count) →
    (s.poisonedRange ((s.dmaCh c).addr + 40) 8 = true → ∃ t, exec (.dmaDescFetch c link desc e) s = .next t ∧
      t.mem = s.mem ∧ t.fld DMA_CH_STAT.LAST_STATUS c = dsMEM_ERR ∧ t.fld DMA_CH_STAT.STATE c = dmHALTED ∧
      (t.dmaCh c).phase = .idle ∧ t.evq.count = s.evq.count + 1) ∧
    (s.poisonedRange ((s.dmaCh c).addr + 40) 8 = false → s.load ((s.dmaCh c).addr + 40) 8 % 2 = 0 →
      ∃ t, exec (.dmaDescFetch c link desc e) s = .next t ∧ t.mem = s.mem ∧
      t.dmaCh c = { s.dmaCh c with phase := .parkLink, count := if (s.dmaCh c).phase = .relink then
        (s.dmaCh c).count else s.fld DMA_CH_STAT.DB_COUNT c } ∧ t.fld DMA_CH_STAT.STATE c = dmPARKED ∧ t.evq = s.evq)) ∧
  (∀ (s : State) (c : Fin 32) (link : BitVec 64) (desc : List Byte) (e : Bool) (a : Nat), (s.dmaCh c).space = 0 →
    ((s.dmaCh c).phase = .fetch ∧ a = (s.dmaCh c).addr ∨
      (s.dmaCh c).phase = .relink ∧ s.load ((s.dmaCh c).addr + 40) 8 % 2 = 1 ∧ a = s.load ((s.dmaCh c).addr + 40) 8 / 64 * 64 ∧
        s.poisonedRange ((s.dmaCh c).addr + 40) 8 = false) →
    (inCellar a 64 || inSystem a 64) = true → s.poisonedRange a 64 = false →
    let d : Dma := { s.dmaCh c with addr := a, desc := s.bytes a 64 }
    ∃ t, exec (.dmaDescFetch c link desc e) s = .next t ∧ t.reg64 .DMA_CH_CUR_LO .DMA_CH_CUR_HI c = a % 2 ^ 64 ∧
      (bit d.ctrl 31 = false → t.dmaCh c = { d with phase := .parkOwn } ∧ t.fld DMA_CH_STAT.STATE c = dmPARKED ∧ t.mem = s.mem) ∧
      (bit d.ctrl 31 = true → d.malformed = false → d.addressable = true → s.dma.draining = [] → d.op ≠ 4 →
        (∀ p, 1 ≤ p → p ≤ 2 → d.touches p = true → s.flag PCI_STATUS.LINK_UP (p - 1) = true) → t.dmaCh c = { d with phase := if d.op = 2 then .readback else .data, done := 0 } ∧
        t.fld DMA_CH_STAT.STATE c = dmRUNNING ∧ t.mem = s.mem ∧ t.evq = s.evq) ∧
      (bit d.ctrl 31 = true → d.malformed = false → d.addressable = true → s.dma.draining = [] →
        (∃ p, 1 ≤ p ∧ p ≤ 2 ∧ d.touches p = true ∧ s.flag PCI_STATUS.LINK_UP (p - 1) = false) →
        t.fld DMA_CH_STAT.LAST_STATUS c = dsPCIE_ERR ∧ t.fld DMA_CH_STAT.STATE c = dmHALTED) ∧
      (bit d.ctrl 31 = true → d.malformed = true → t.fld DMA_CH_STAT.LAST_STATUS c = dsBAD_DESC ∧
        t.fld DMA_CH_STAT.STATE c = dmHALTED ∧ (t.dmaCh c).phase = .idle)) ∧
  (∀ (s : State) (c : Fin 32) (link : BitVec 64) (desc : List Byte), (s.dmaCh c).space ≠ 0 → (s.dmaCh c).phase = .fetch →
    ∃ t, exec (.dmaDescFetch c link desc true) s = .next t ∧ t.fld DMA_CH_STAT.LAST_STATUS c = dsPCIE_ERR ∧
      t.fld DMA_CH_STAT.STATE c = dmHALTED ∧ (t.dmaCh c).phase = .idle ∧ t.mem = s.mem ∧ t.evq.count = s.evq.count + 1) ∧
  (∀ (s : State) (c : Fin 32) (n : Nat) (src : List Byte) (e : Bool), (s.dmaCh c).phase ≠ .data →
    exec (.dmaWritesAcked c n src e) s = .next s) ∧
  (∀ (s : State) (c : Fin 32) (n : Nat) (src : List Byte), (s.dmaCh c).phase = .data → (s.dmaCh c).ending = none →
    let d := s.dmaCh c
    d.op = 0 → d.sspace = 0 → d.dspace = 0 → d.overlap = false → d.done = 0 → (inCellar d.src d.len || inSystem d.src d.len) = true →
    (∀ a, s.poisoned a = false) → ∃ t, exec (.dmaWritesAcked c n src false) s = .next t ∧
      t.bytes d.dst d.len = s.bytes d.src d.len ∧ (∀ a, (a < d.dst ∨ d.dst + d.len ≤ a) → t.byte a = s.byte a) ∧
      t.dmaCh c = { d with done := d.len, phase := .readback } ∧ t.regs = s.regs ∧ t.evq = s.evq) ∧
  (∀ (s : State) (c : Fin 32) (n : Nat) (src : List Byte), (s.dmaCh c).phase = .data →
    (s.dmaCh c).ending = some dsSTOPPED → (∀ a, s.poisoned a = false) →
    let d := s.dmaCh c
    let upto := max d.done (min n (if d.stream then min d.len (d.done + d.piece - 1) else d.len))
    ∃ t, exec (.dmaWritesAcked c n src false) s = .next t ∧ ((upto = 0 ∨ s.spaceUp d.dspace = false) →
      t.fld DMA_CH_STAT.LAST_STATUS c = dsSTOPPED ∧ t.fld DMA_CH_STAT.STATE c = dmIDLE ∧ (t.dmaCh c).phase = .idle) ∧
      (upto ≠ 0 → s.spaceUp d.dspace = true → t.dmaCh c = { d with done := upto, phase := .readback } ∧
        t.fld DMA_CH_STAT.LAST_STATUS c = s.fld DMA_CH_STAT.LAST_STATUS c)) ∧
  (∀ (s : State) (c : Fin 32) (n : Nat) (src : List Byte), (s.dmaCh c).phase = .data → (s.dmaCh c).ending = none →
    (s.dmaCh c).stream = true → (s.dmaCh c).done + (s.dmaCh c).piece ≤ (s.dmaCh c).len →
    exec (.dmaWritesAcked c n src false) s = .next s) ∧
  (∀ (s : State) (c : Fin 32) (src dst : List Byte) (e : Bool), (s.dmaCh c).phase ≠ .readback →
    exec (.dmaReadbackDone c src dst e) s = .next s) ∧
  (∀ (s : State) (c : Fin 32) (src dst : List Byte), (s.dmaCh c).phase = .readback → (s.dmaCh c).ending = none →
    let d := s.dmaCh c
    d.op < 2 → d.space = 0 → s.dma.draining = [] → (∀ a, s.poisoned a = false) →
    ∃ t, exec (.dmaReadbackDone c src dst false) s = .next t ∧ t.load (d.addr + 48) 1 = dsOK ∧
      t.load (d.addr + 52) 4 = d.done % 2 ^ 32 ∧ t.load d.addr 4 = d.ctrl % 2 ^ 31 ∧
      (∀ a, (a < d.addr ∨ d.addr + 4 ≤ a ∧ a < d.addr + 48 ∨ d.addr + 64 ≤ a) → t.byte a = s.byte a) ∧
      countsBy s t DMA_CH_DONE.COUNT c 1 ∧ t.fld DMA_CH_STAT.LAST_STATUS c = dsOK ∧ t.evq = s.evq ∧
      t.dmaCh c = { d with phase := .relink, count := s.fld DMA_CH_STAT.DB_COUNT c }) ∧
  (∀ (s : State) (c : Fin 32) (src dst : List Byte), (s.dmaCh c).phase = .readback → (s.dmaCh c).ending = some dsSTOPPED →
    let d := s.dmaCh c
    d.op ≠ 2 → d.space = 0 → s.dma.draining = [] → (∀ a, s.poisoned a = false) →
    ∃ t, exec (.dmaReadbackDone c src dst false) s = .next t ∧ t.load (d.addr + 48) 1 = dsSTOPPED ∧
      t.load (d.addr + 52) 4 = d.done % 2 ^ 32 ∧ t.fld DMA_CH_STAT.LAST_STATUS c = dsSTOPPED ∧
      t.fld DMA_CH_STAT.STATE c = dmIDLE ∧ (t.dmaCh c).phase = .idle) ∧
  (∀ (s : State) (c : Fin 32) (src : List Byte) (e : Bool), ((s.dmaCh c).phase ≠ .data ∨ (s.dmaCh c).stream = false ∨
      (s.dmaCh c).len < (s.dmaCh c).done + (s.dmaCh c).piece) → exec (.dmaProgress c src e) s = .next s) ∧
  (∀ (s : State) (c : Fin 32) (src : List Byte), (s.dmaCh c).phase = .data → (s.dmaCh c).ending = none →
    let d := s.dmaCh c
    d.stream = true → d.dspace = 0 → d.done + d.piece ≤ d.len → (∀ a, s.poisoned a = false) →
    ∃ t, exec (.dmaProgress c src false) s = .next t ∧ t.load d.progress 8 = (d.done + d.piece) % 2 ^ 64 ∧
      t.dmaCh c = { d with done := d.done + d.piece } ∧ t.regs = s.regs ∧ t.evq = s.evq) ∧
  (∀ (s : State) (dom : Fin 3), s.drains dom = true → exec (.dmaDrain dom) s = .next s) ∧
  (∀ (s : State) (dom : Fin 3), s.drains dom = false → ∃ t, exec (.dmaDrain dom) s = .next t ∧ t.mem = s.mem ∧
    t.dma.chans = s.dma.chans ∧
    ((∀ c, c < 32 → (s.dmaCh c).phase ≠ .data ∧ (s.dmaCh c).phase ≠ .readback) →
      t.drains dom = false ∧ s.evq.count < t.evq.count ∧ (dom ≠ 0 → t.flag PCI_STATUS.LINK_UP (dom.val - 1) = false)) ∧
    (∀ c, c < 32 → ((s.dmaCh c).phase = .data ∨ (s.dmaCh c).phase = .readback) →
      (s.dmaCh c).uses dom = true → t.drains dom = true ∧
      t.evq = s.evq ∧ (dom ≠ 0 → t.flag PCI_STATUS.DRAINING (dom.val - 1) = true))) ∧
  (∀ (s : State) (dom : Fin 3), (s.drains dom = false ∨ s.timerDue (tmDrain dom) (100 * usCycles) = false) →
    exec (.dmaDrainTimeout dom) s = .next s) ∧
  (∀ (s : State) (dom : Fin 3), s.drains dom = true → s.timerDue (tmDrain dom) (100 * usCycles) = true → ∃ t, exec (.dmaDrainTimeout dom) s = .next t ∧ t.mem = s.mem ∧
    t.drains dom = true ∧ ∀ c, c < 32 → ((s.dmaCh c).phase = .data ∨ (s.dmaCh c).phase = .readback) →
      (s.dmaCh c).uses dom = true → (s.dmaCh c).ending = none →
      t.dmaCh c = { s.dmaCh c with ending := some dsPWR_ABORT } ∧ t.fld DMA_CH_STAT.STATE c = dmDRAINING)

/-- The PCIe ports. -/
def Obligations.PciePorts : Prop :=
  (∀ (s : State) (p : Fin 2) (a : BitVec 64) (len : Nat) (w : Option (List Byte)),
    (s.rootPort p = false ∨ s.flag PCI_STATUS.LINK_UP p = false) → exec (.pciInbound p a len w) s = .next s) ∧
  (∀ (s : State) (p : Fin 2) (a : BitVec 64) (len : Nat) (bs : List Byte), s.rootPort p = true →
    s.flag PCI_STATUS.LINK_UP p = true →
    (s.inWindow p a.toNat bs.length = false → ∃ t, exec (.pciInbound p a len (some bs)) s = .next t ∧
      t = { s with regs := t.regs } ∧ countsBy s t PCI_ERR.UR_CA p 1 ∧ t.fld PCI_ERR.CPL_TIMEOUT p = s.fld PCI_ERR.CPL_TIMEOUT p) ∧
    (s.inWindow p a.toNat bs.length = true → (∀ x, s.poisoned x = false) → ∃ t, exec (.pciInbound p a len (some bs)) s = .next t ∧
      t = { s with mem := t.mem, cel := t.cel } ∧ t.bytes a.toNat bs.length = bs ∧
      ∀ x, (x < a.toNat ∨ a.toNat + bs.length ≤ x) → t.byte x = s.byte x)) ∧
  (∀ (s : State) (p : Fin 2) (a : BitVec 64) (len : Nat), s.rootPort p = true → s.flag PCI_STATUS.LINK_UP p = true →
    (s.inWindow p a.toNat len = true → s.poisonedRange a.toNat len = false → exec (.pciInbound p a len none) s =
      .next ((s.readBy srcPcie a.toNat len).emit (.send (.pcie p) [a.toNat] (s.bytes a.toNat len)))) ∧
    (s.inWindow p a.toNat len = true → s.poisonedRange a.toNat len = true → ∃ t, exec (.pciInbound p a len none) s = .next t ∧
      t.mem = s.mem ∧ t.out = .pciError p (s.poisonAbort a.toNat) a.toNat :: s.out ∧ countsBy s t PCI_ERR.UR_CA p 1) ∧
    (s.inWindow p a.toNat len = false → ∃ t, exec (.pciInbound p a len none) s = .next t ∧ t.mem = s.mem ∧
      t.out = .pciError p false a.toNat :: s.out ∧ countsBy s t PCI_ERR.UR_CA p 1)) ∧
  (∀ (s : State) (p : Fin 2) (a n : Nat), s.inWindow p a n = true → s.fld PCI_IN_SIZE.IN_LOG2 p ≠ 0 ∧
    (s.reg .PCI_IN_BASE p).toNat * 65536 ≤ a ∧
    a + n ≤ (s.reg .PCI_IN_BASE p).toNat * 65536 + 2 ^ s.fld PCI_IN_SIZE.IN_LOG2 p ∧ (inCellar a n || inSystem a n) = true) ∧
  (∀ (s : State) (path : Path) (p : Fin 2) (v : BitVec 32) (r : Fin 4) (d : BitVec 32),
    ∃ t, exec (.pciCfgAccess path p (some v) r d) s = .next t ∧ t.reg .PCI_CFG_DATA p = v ∧ t.mem = s.mem ∧
      (s.rootPort p = false → t.fld PCI_CFG_STAT.RESULT p = s.fld PCI_CFG_STAT.RESULT p ∧
        t.out = .writeDone path (Reg.PCI_CFG_DATA.addr p) :: s.out) ∧
      (s.rootPort p = true → t.fld PCI_CFG_STAT.RESULT p = r.val ∧ ((r = 1 ∨ r = 3) → countsBy s t PCI_ERR.UR_CA p 1))) ∧
  (∀ (s : State) (path : Path) (p : Fin 2) (r : Fin 4) (d : BitVec 32), s.rootPort p = true →
    ∃ t, exec (.pciCfgAccess path p none r d) s = .next t ∧ t.fld PCI_CFG_STAT.RESULT p = r.val ∧
      t.reg .PCI_CFG_DATA p = (if r = 0 then d else 0xFFFFFFFF#32) ∧
      t.out = .readDone path (Reg.PCI_CFG_DATA.addr p) (leBytes 4 (if r = 0 then d.toNat else 0xFFFFFFFF)) :: s.out) ∧
  (∀ (s : State) (path : Path) (p : Fin 2) (v : BitVec 32), s.flag PCI_CTRL.EN p = true → s.drains (p.val + 1) = false →
    (∀ c, c < 32 → (s.dmaCh c).phase ≠ .data ∧ (s.dmaCh c).phase ≠ .readback) →
    ∃ t, exec (.pciDisable path p v) s = .next t ∧ t.flag PCI_CTRL.EN p = false ∧
      t.fld PCI_CTRL.ROLE p = s.fld PCI_CTRL.ROLE p ∧ t.flag PCI_STATUS.LINK_UP p = false ∧
      t.flag PCI_STATUS.DRAINING p = false ∧ t.drains (p.val + 1) = false ∧ t.mem = s.mem) ∧
  (∀ (s : State) (p : Fin 2) (speed : Fin 6) (width : Fin 4), (s.flag PCI_CTRL.EN p = false ∨
      s.flag PCI_STATUS.LINK_UP p = true ∨ s.drains (p.val + 1) = true ∨ s.fld PCI_CTRL.MAX_SPEED p < speed.val ∨
      s.fld PCI_CTRL.MAX_WIDTH p < width.val) → exec (.pciLinkUp p speed width) s = .next s) ∧
  (∀ (s : State) (p : Fin 2) (speed : Fin 6) (width : Fin 4), s.flag PCI_CTRL.EN p = true →
    s.flag PCI_STATUS.LINK_UP p = false → s.drains (p.val + 1) = false → speed.val ≤ s.fld PCI_CTRL.MAX_SPEED p →
    width.val ≤ s.fld PCI_CTRL.MAX_WIDTH p → ∃ t, exec (.pciLinkUp p speed width) s = .next t ∧
      t.flag PCI_STATUS.LINK_UP p = true ∧ t.fld PCI_STATUS.SPEED p = speed.val ∧ t.fld PCI_STATUS.WIDTH p = width.val ∧
      t.flag PCI_STATUS.FLIT p = (speed == 5) ∧ t.evq.count = s.evq.count + 1 ∧ t.mem = s.mem ∧
      ∀ r i, (r, i) ≠ (Reg.PCI_STATUS, p.val) → r ≠ .EVQ_DROPPED → t.reg r i = s.reg r i) ∧
  (∀ (s : State) (p : Fin 2), s.flag PCI_STATUS.LINK_UP p = false → exec (.pciLinkDown p) s = .next s) ∧
  (∀ (s : State) (p : Fin 2), s.flag PCI_STATUS.LINK_UP p = true → (∀ c, c < 32 → (s.dmaCh c).phase = .idle) →
    ∃ t, exec (.pciLinkDown p) s = .next t ∧ t.flag PCI_STATUS.LINK_UP p = false ∧ t.evq.count = s.evq.count + 2 ∧
      t.mem = s.mem ∧ t.dma = s.dma) ∧
  (∀ (s : State) (p : Fin 2) (a b : BitVec 32), exec (.pciAer p a b) s =
    .next (s.raise Ev.PCI_AER p [(0, 4, a.toNat), (4, 4, b.toNat)])) ∧
  (∀ (s : State) (p : Fin 2), ∃ t, exec (.pciCplTimeout p none) s = .next t ∧ t = { s with regs := t.regs } ∧
    countsBy s t PCI_ERR.CPL_TIMEOUT p 1 ∧ t.fld PCI_ERR.UR_CA p = s.fld PCI_ERR.UR_CA p) ∧
  (∀ (s : State) (p : Fin 2) (c : Fin 32), (s.dmaCh c).touches (p.val + 1) = true →
    let d := s.dmaCh c
    let ends := fun (t : State) => t.fld DMA_CH_STAT.LAST_STATUS c = dsPCIE_ERR ∧ t.fld DMA_CH_STAT.STATE c = dmHALTED ∧
      (t.dmaCh c).phase = .idle
    (d.phase = .data → ∃ t, exec (.pciCplTimeout p (some c)) s = .next t ∧ countsBy s t PCI_ERR.CPL_TIMEOUT p 1 ∧
      (ends t ∨ d.op ≠ 2 ∧ s.spaceUp d.dspace = true ∧ ∃ n, 0 < n ∧ d.done ≤ n ∧
        t.dmaCh c = { d with done := n, phase := .readback, ending := some dsPCIE_ERR })) ∧
    (d.phase = .readback → d.ending = none → ∃ t, exec (.pciCplTimeout p (some c)) s = .next t ∧
      countsBy s t PCI_ERR.CPL_TIMEOUT p 1 ∧ ends t))

/-- Streams and their subscribers. -/
def Obligations.StreamsAndSubscribers : Prop :=
  (∀ (s : State) (k : Fin 64) (item : List Byte), (s.offHall 1 k item = none → exec (.streamItem k item) s = .next s) ∧
    ∀ u, s.offHall 1 k item = some u → u = { s with hall := s.hall.erase ⟨1, k, item⟩ } ∧
      (s.outputsOn = false → exec (.streamItem k item) s = .next (u.addFld SYS_HELD_DISCARDS.COUNT 0 1)) ∧
      (s.outputsOn = true → s.stream? k = none → exec (.streamItem k item) s = .next u)) ∧
  (∀ (s : State) (k : Fin 64) (item : List Byte) (st : Stream) (r : Region), (s.offHall 1 k item).isSome = true →
    s.outputsOn = true →
    s.stream? k = some st → s.region 4 k = some r → s.subsOf k = [] → (∀ a, s.poisoned a = false) →
    let size := (32 + item.length + 63) / 64 * 64
    size ≤ r.length → ∃ t x, exec (.streamItem k item) s = .next t ∧ t.stream? k = some x ∧ x.wp = st.wp + size ∧
      x.seq = st.seq + 1 ∧ (⟨st.wp, size, item.length, st.seq, s.time.ot⟩ : StmItem) ∈ x.items ∧
      t.ringGet r (st.wp + 32) item.length = item ∧ le (t.ringGet r st.wp 32) 8 8 = st.seq % 2 ^ 64 ∧
      le (t.ringGet r st.wp 32) 16 4 = item.length % 2 ^ 32 ∧ t.regs = s.regs ∧ t.evq = s.evq) ∧
  (∀ (s : State) (i : Fin 256) (entry : List Byte), (s.sub i).waiting = true → exec (.subSend i entry) s = .next s) ∧
  (∀ (s : State) (i : Fin 256) (entry : List Byte), ((s.sub i).waiting = false ∨ s.timerDue (tmPoll i) usCycles = false) →
    exec (.pcieRingPoll i entry) s = .next s) ∧
  (∀ (s : State) (i : Fin 256) (entry : List Byte), (s.sub i).waiting = false →
    (s.outputsOn = false ∨ s.nextItem i = none) → ∃ t, exec (.subSend i entry) s = .next t ∧
      t.sub i = { s.sub i with
        tokens := min ((s.sub i).tokens + (eBudget (s.subEntry i) * (s.now - (s.sub i).filled) : Nat)) (65536 * 1600)
        filled := s.now } ∧ t = { s with stm := t.stm } ∧ t.stm = { s.stm with subs := t.stm.subs }) ∧
  (∀ (s : State) (i : Fin 256) (entry : List Byte) (x : StmItem) (mac : Nat), (s.sub i).waiting = false →
    s.outputsOn = true → s.nextItem i = some x →
    let e := s.subEntry i
    (eKind e = kETH4 ∨ eKind e = kETH6) → s.destMac e = some mac → s.ethUp (ePort e) = true → (s.sub i).sent = none →
    (s.sub i).leaving = none → x.len ≤ 64 * ePkt e → x.len = (s.itemBytes (eStream e) x).length →
    (s.refill i).mayPay i (32 + x.len) = true → (∀ a, s.poisoned a = false) →
    ∃ t args bs, exec (.subSend i entry) s = .next t ∧ t.out = .send (.ethernet (ePort e)) args bs :: s.out ∧
      bs.drop 32 = s.itemBytes (eStream e) x ∧ bs.length = 32 + x.len ∧ (t.sub i).rd = x.start + x.size ∧
      (t.sub i).sent = none ∧ (t.sub i).drops = 0 ∧ t.mem = s.mem ∧ t.regs = s.regs) ∧
  (∀ (s : State) (i : Fin 256) (entry : List Byte) (x : StmItem) (c : Instr) (acks : List Out),
    (c = .pcieRingPoll i entry ∧ s.timerDue (tmPoll i) usCycles = true ∧ acks = [] ∨
      ∃ path, c = .stmRingDb path i entry ∧ acks = [.writeDone path (Reg.STM_RING_DB.addr 0)]) →
    (s.sub i).waiting = true → (s.sub i).back = none → s.outputsOn = true →
    s.nextItem i = some x → eKind (s.subEntry i) = kRING →
    let e := s.subEntry i
    let bs := s.wholeItem i e x
    s.flag PCI_STATUS.LINK_UP (ePort e) = true → s.flag PCI_STATUS.DRAINING (ePort e) = false →
    (bit (le entry 12 4) 31 = false → ∃ t, exec c s = .next t ∧ (t.sub i).waiting = true ∧
      (t.sub i).rd = (s.sub i).rd ∧ t.out = acks ++ s.out) ∧
    (bit (le entry 12 4) 31 = true → (s.refill i).mayPay i bs.length = true → 0 < le entry 8 4 →
      let n := min bs.length (le entry 8 4)
      ∃ t ctrl, exec c s = .next t ∧ (t.sub i).waiting = false ∧ (t.sub i).rd = (s.sub i).rd ∧
        (t.sub i).back = some ctrl ∧ (t.sub i).sent = some n ∧
        t.out = acks ++ .readReq (ePort e) ((le entry 0 8 + n - 1) / 4 * 4) 4 ::
          .send (.pcie (ePort e)) [le entry 0 8] (bs.take n) :: s.out ∧
        bits ctrl 27 0 = n % 2 ^ 28 ∧ bit ctrl 31 = false ∧ (bit ctrl 30 = true ↔ le entry 8 4 < bs.length))) ∧
  (∀ (s : State) (i : Fin 256) (entry : List Byte) (x : StmItem) (ctrl : Nat), (s.sub i).waiting = false →
    (s.sub i).back = some ctrl → (s.sub i).leaving = none → s.outputsOn = true → s.nextItem i = some x →
    let e := s.subEntry i
    eKind e = kRING → s.flag PCI_STATUS.LINK_UP (ePort e) = true → s.flag PCI_STATUS.DRAINING (ePort e) = false →
    ∃ t, exec (.subSend i entry) s = .next t ∧ (t.sub i).rd = x.start + x.size ∧ (t.sub i).back = none ∧
      (t.sub i).sent = none ∧ (t.sub i).ring = ((s.sub i).ring + 1) % 2 ^ eLog2 e ∧
      t.out = .send (.pcie (ePort e)) [eRing e + 16 * (s.sub i).ring + 12] (leBytes 4 ctrl) :: s.out) ∧
  (∀ (s : State) (path : Path) (i : Fin 256) (entry : List Byte), exec (.stmRingDb path i entry) s =
    .next ((if (s.sub i).waiting then s.subSend i entry else s : State).emit (.writeDone path (Reg.STM_RING_DB.addr 0)))) ∧
  (∀ (s : State) (path : Path),
    let e := ((List.range 16).map (fun n => leBytes 4 (s.reg .STM_SUB_STAGE n).toNat)).flatten
    (s.freeSub = none → ∃ t, exec (.join (.reg path)) s = .next t ∧ t.fld STM_CMD_STAT.RESULT 0 = 2 ∧ t.stm = s.stm) ∧
    (∀ i, s.freeSub = some i → (s.joined.map s.subEntry).any (sameDest e) = true → ∃ t, exec (.join (.reg path)) s = .next t ∧
      t.fld STM_CMD_STAT.RESULT 0 = 3 ∧ t.stm = s.stm) ∧
    (∀ i st, s.freeSub = some i → (s.joined.map s.subEntry).any (sameDest e) = false →
      pathOver (e :: s.joined.map s.subEntry) s.portCapacity s.vyderUp.length s.drivesOn e = false → s.entryOk e = true →
      s.stream? (eStream e) = some st → ∃ t, exec (.join (.reg path)) s = .next t ∧ t.fld STM_CMD_STAT.RESULT 0 = 1 ∧
        t.fld STM_CMD_STAT.INDEX 0 = i % 256 ∧ t.fld STM_CMD_STAT.GEN 0 = eGen (s.subEntry i) ∧
        t.reg64 .STM_FIRST_SEQ_LO .STM_FIRST_SEQ_HI 0 = st.seq % 2 ^ 64 ∧ (t.sub i).rd = st.wp ∧
        eKind (t.subEntry i) = eKind e ∧ eStream (t.subEntry i) = eStream e ∧ eGen (t.subEntry i) = eGen (s.subEntry i) ∧
        t.evq.count = s.evq.count + 1 ∧ t.mem = s.mem)) ∧
  (∀ (s : State) (c : Nat) (req : BitVec 64) (e : List Byte), freshRequest s c req.toNat = true →
    (e.length ≠ 64 → exec (.join (.cz c req e)) s = .next (s.czAnswer (.session c) req.toNat 0x30 czBAD_REQUEST [])) ∧
    (e.length = 64 → s.freeSub = none →
      exec (.join (.cz c req e)) s = .next (s.czAnswer (.session c) req.toNat 0x30 czREFUSED [2])) ∧
    (∀ i st, e.length = 64 → s.freeSub = some i → (s.joined.map s.subEntry).any (sameDest e) = false →
      pathOver (e :: s.joined.map s.subEntry) s.portCapacity s.vyderUp.length s.drivesOn e = false → s.entryOk e = true →
      s.stream? (eStream e) = some st → ∃ u : State, exec (.join (.cz c req e)) s = .next (u.czAnswer (.session c) req.toNat 0x30
        czOK (leBytes 1 i ++ leBytes 2 (eGen (s.subEntry i)) ++ leBytes 8 st.seq)) ∧ (u.sub i).rd = st.wp ∧
        eKind (u.subEntry i) = eKind e ∧ eStream (u.subEntry i) = eStream e)) ∧
  (∀ (s : State) (c : Nat) (req : BitVec 64) (gen : BitVec 16) (i : Fin 256), freshRequest s c req.toNat = true →
    ((eKind (s.subEntry i) = 0 ∨ eGen (s.subEntry i) ≠ gen.toNat) → exec (.leave (.cz c req) gen i) s =
      .next (s.czAnswer (.session c) req.toNat 0x31 czREFUSED [7])) ∧
    (eKind (s.subEntry i) ≠ 0 → eGen (s.subEntry i) = gen.toNat → (s.sub i).sent = none → exec (.leave (.cz c req) gen i) s =
      .next ((s.subLeave i 0).czAnswer (.session c) req.toNat 0x31 czOK []))) ∧
  (∀ (s : State) (path : Path) (gen : BitVec 16) (i : Fin 256),
    ((eKind (s.subEntry i) = 0 ∨ eGen (s.subEntry i) ≠ gen.toNat) → ∃ t, exec (.leave (.reg path) gen i) s = .next t ∧
      t.fld STM_CMD_STAT.RESULT 0 = 7 ∧ t.stm = s.stm ∧ t.evq = s.evq) ∧
    (eKind (s.subEntry i) ≠ 0 → eGen (s.subEntry i) = gen.toNat → (s.sub i).sent = none →
      ∃ t, exec (.leave (.reg path) gen i) s = .next t ∧ t.fld STM_CMD_STAT.RESULT 0 = 1 ∧ eKind (t.subEntry i) = 0 ∧
        eGen (t.subEntry i) = (gen.toNat + 1) % 65536 ∧ t.evq.count = s.evq.count + 1 ∧
        t.flag STM_CMD_STAT.BUSY 0 = false) ∧
    (∀ n, eKind (s.subEntry i) ≠ 0 → eGen (s.subEntry i) = gen.toNat → (s.sub i).sent = some n →
      ∃ t, exec (.leave (.reg path) gen i) s = .next t ∧ t.fld STM_CMD_STAT.RESULT 0 = 1 ∧ t.flag STM_CMD_STAT.BUSY 0 = true ∧
        t.sub i = { s.sub i with leaving := some 0 } ∧ t.subEntry i = s.subEntry i ∧ t.evq = s.evq)) ∧
  (∀ (s : State) (i : Fin 256), ((s.sub i).hopTry = none ∨ (s.destMac (s.subEntry i)).isSome = true) →
    exec (.nextHopRetry i) s = .next s) ∧
  (∀ (s : State) (i : Fin 256) (at_ : Nat), (s.sub i).hopTry = some at_ → at_ + sCycles ≤ s.now →
    (eKind (s.subEntry i) = kETH4 ∨ eKind (s.subEntry i) = kETH6) → s.destMac (s.subEntry i) = none →
    ∃ t, exec (.nextHopRetry i) s = .next t ∧ t.sub i = { s.sub i with hopFailed := true, hopTry := some s.now } ∧
      ((s.sub i).hopFailed = true → t.evq = s.evq) ∧ ((s.sub i).hopFailed = false → t.evq.count = s.evq.count + 1))

/-- Received frames, the PTP servo, and the commands of the record log's drives. -/
def Obligations.EthernetPtpAndRecordLog : Prop :=
  (∀ (s : State) (p : Fin 6) (f : EthFrame), s.ethUp p = false → exec (.ethRxFrame p f) s = .next s) ∧
  (∀ (s : State) (p : Fin 6), s.ethUp p = true →
    exec (.ethRxFrame p .pause) s = .next s ∧
    exec (.ethRxFrame p .other) s = .next (s.addFld STM_ETH_RXDISC.COUNT p 1) ∧
    (let answer := fun (args : List Nat) (bs : List Byte) =>
        s.emit (.send (.ethernet p) (nth s.sec.plat.macs p 0 :: bits (s.ethWord p 11) 11 0 :: args) bs)
     (∀ ip sender mac, exec (.ethRxFrame p (.arpRequest ip sender mac)) s = .next (if ip.toNat = s.ethIp4 p then
       answer [0x807, sender.toNat, mac.toNat] [] else s)) ∧
     (∀ ip src bs, exec (.ethRxFrame p (.echo4 ip src bs)) s = .next (if ip.toNat = s.ethIp4 p then
       answer [0, src.toNat] bs else s)) ∧
     (∀ ip src bs, exec (.ethRxFrame p (.echo6 ip src bs)) s = .next (if ip.toNat = s.ethIp6 p then
       answer [129, src.toNat] bs else s)) ∧
     (∀ ip sender mac, exec (.ethRxFrame p (.ndSolicit ip sender mac)) s = .next (if ip.toNat = s.ethIp6 p then
       answer [136, sender.toNat, mac.toNat] [] else s))) ∧
    (∀ ip mac, ∃ t, exec (.ethRxFrame p (.arpReply ip mac)) s = .next t ∧ t = { s with stm := t.stm } ∧
      (⟨p, false, ip.toNat, mac.toNat, s.now⟩ : NextHop) ∈ t.stm.hops)) ∧
  (∀ (s : State) (p : Fin 6) (dom : BitVec 8) (tr : Fin 3) (m : PtpMsg), (s.ethUp p = false ∨
      s.fld TDC_TIME_CFG.TIME_SRC 0 ≠ 2 ∨ s.fld TDC_TIME_CFG.SRC_IDX 0 ≠ p.val ∨
      s.fld STM_PTP_CFG.DOMAIN 0 ≠ dom.toNat ∨ s.fld STM_PTP_CFG.TRANSPORT 0 ≠ tr.val) →
    exec (.ptpMessageRx p dom tr m) s = .next s) ∧
  (∀ (s : State) (p : Fin 6) (dom : BitVec 8) (tr : Fin 3), s.ethUp p = true → s.fld TDC_TIME_CFG.TIME_SRC 0 = 2 →
    s.fld TDC_TIME_CFG.SRC_IDX 0 = p.val → s.fld STM_PTP_CFG.DOMAIN 0 = dom.toNat → s.fld STM_PTP_CFG.TRANSPORT 0 = tr.val →
    (∀ m, s.stm.masters = [] → s.stm.master = none → ∃ t, exec (.ptpMessageRx p dom tr (.announce m)) s = .next t ∧
      t.stm.master = some m.sender ∧ t.stm.masters = [(m, s.now)] ∧ t.evq.count = s.evq.count + 1 ∧ t.time = s.time) ∧
    (∀ id a b, s.stm.master ≠ some id → exec (.ptpMessageRx p dom tr (.sync id a b)) s = .next s ∧
      exec (.ptpMessageRx p dom tr (.delayResp id a b)) s = .next s) ∧
    (∀ id t1 t2, s.stm.master = some id → ∃ t, exec (.ptpMessageRx p dom tr (.sync id t1 t2)) s = .next t ∧
      t.stm.sync = some (((t1.toNat * 2 ^ 32 : Nat) : Int), s.ptpStamp p 0 t2) ∧ t.time = s.time ∧
      t.out.length = s.out.length + 1) ∧
    (∀ id a1 a2 t3 t4, s.stm.master = some id → s.stm.sync = some (a1, a2) →
      exec (.ptpMessageRx p dom tr (.delayResp id t3 t4)) s = .next
        (State.discipline { s with stm := { s.stm with sync := none } }
          (a2 - a1 - tdiv ((a2 - a1) + ((t4.toNat * 2 ^ 32 : Nat) - s.ptpStamp p 1 t3)) 2)))) ∧
  (∀ (s : State), s.stm.master = none → exec .ptpAnnounceTimeout s = .next s) ∧
  (∀ (s : State) (m : PtpMaster) (at_ : Nat), s.stm.masters = [(m, at_)] → s.stm.master = some m.sender →
    (s.now < at_ + 3 * m.intervalMs.toNat * msCycles → exec .ptpAnnounceTimeout s = .next s) ∧
    (at_ + 3 * m.intervalMs.toNat * msCycles ≤ s.now → exec .ptpAnnounceTimeout s =
      .next ({ s with stm := { s.stm with master := none, sync := none, masters := [] } } : State).timeSrcLost)) ∧
  (∀ (s : State) (d : Fin 32) (j : Nat) (st : BitVec 16), s.driveRoom d ≤ j →
    exec (.nvmeCmdComplete d j st) s = .next s) ∧
  (∀ (s : State) (d : Fin 32) (j : Nat) (c : NvmCmd), j < s.driveRoom d → (s.drive d).cmds[j]? = some c →
    (∃ t, exec (.nvmeCmdComplete d j 0) s = .next t ∧
      (t.drive d).cmds.map (·.op) = ((s.drive d).cmds.eraseIdx j).map (·.op) ∧ t.regs = s.regs ∧ t.mem = s.mem ∧
      ∀ e, e ≠ d.val → t.drive e = s.drive e) ∧
    (∀ st, st ≠ 0 → c.tries < 2 → ∃ t, exec (.nvmeCmdComplete d j st) s = .next t ∧
      t.drive d = { s.drive d with cmds := (s.drive d).cmds.set j { c with tries := c.tries + 1, issued := some s.now } } ∧
      t.out.length = s.out.length + b2n (s.driveUp d) ∧ t.regs = s.regs ∧ t.evq = s.evq) ∧
    (∀ st, st ≠ 0 → 2 ≤ c.tries → ∃ t, exec (.nvmeCmdComplete d j st) s = .next t ∧ t.drive d = {} ∧
      bit (t.fld NVM_SET_STAT.FAILED (s.fld NVM_DRIVE.SET d)) (s.fld NVM_DRIVE.INDEX d) = decide (s.fld NVM_DRIVE.INDEX d < NVM_SET_STAT.FAILED.hi + 1 - NVM_SET_STAT.FAILED.lo) ∧
      s.evq.count < t.evq.count)) ∧
  (∀ (s : State) (d : Fin 32) (j : Nat), ((s.drive d).cmds[j]? = none ∨ ∃ c, (s.drive d).cmds[j]? = some c ∧
      ∀ a, c.issued = some a → s.now < a + sCycles) → exec (.nvmeCmdTimeout d j) s = .next s) ∧
  (∀ (s : State) (d : Fin 32) (j : Nat) (c : NvmCmd) (a : Nat), (s.drive d).cmds[j]? = some c → c.issued = some a →
    a + sCycles ≤ s.now → ∃ t, exec (.nvmeCmdTimeout d j) s = .next t ∧ t.drive d = {} ∧ s.evq.count < t.evq.count) ∧
  (∀ (s : State) (d : Fin 32), (s.setState (s.fld NVM_DRIVE.SET d) ≠ 2 ∨
      s.timerDue (tmFlush d) (s.fld NVM_SET_CFG.FLUSH_MS (s.fld NVM_DRIVE.SET d) * msCycles) = false) →
    exec (.nvmFlushTimer d) s = .next s) ∧
  (∀ (s : State) (d : Fin 32), s.setState (s.fld NVM_DRIVE.SET d) = 2 → d.val ∈ s.liveDrives (s.fld NVM_DRIVE.SET d) →
    s.timerDue (tmFlush d) (s.fld NVM_SET_CFG.FLUSH_MS (s.fld NVM_DRIVE.SET d) * msCycles) = true →
    ∃ t, exec (.nvmFlushTimer d) s = .next t ∧ (t.drive d).cmds.map (·.op) = (s.drive d).cmds.map (·.op) ++ [.flush] ∧
      t.regs = s.regs ∧ t.mem = s.mem) ∧
  (∀ (s : State) (n : Fin 4) (ps : List NvmProbe), (s.setState n ≠ 1 ∨ s.setDrives n = []) →
    exec (.nvmSetStart n ps) s = .next s) ∧
  (∀ (s : State) (n : Fin 4) (d : Fin 32), s.setState n = 1 → s.setDrives n = [d.val] →
    (∃ t, exec (.nvmSetStart n []) s = .next t ∧ t.setState n = 0 ∧ s.evq.count < t.evq.count) ∧
    (∀ (p : NvmProbe) (b : List Byte), p.drive = d → p.good = true → s.driveUp d = true → superOf p.copyA p.copyB = some b →
      ∃ t, exec (.nvmSetStart n [p]) s = .next t ∧ t.setState n = 2 ∧
        (let x := resumed p b
         (t.drive d).segCount = x.segCount ∧ (t.drive d).gen = x.gen ∧ (t.drive d).lastClosed = x.lastClosed ∧
         (t.drive d).seg = (if x.segCount ≠ 0 ∧ (x.used < x.segCount ∨ s.flag NVM_SET_CFG.POLICY n = false) then
           some (x.nextSeq, x.nextSlot) else none)) ∧
        (t.logSet n).setId = slice b 16 16 ∧ (t.logSet n).uid = le b 40 8 ∧ t.evq.count = s.evq.count + 1)) ∧
  (∀ (s : State) (path : Path) (n : Fin 4) (caps : List (Fin 32 × Nat)), s.flag NVM_SET_CFG.EN n = true → s.sec.trngOk = true →
    exec (.nvmFormat path n caps) s = .next (s.emit (.writeDone path (Reg.NVM_SET_CMD.addr n)))) ∧
  (∀ (s : State) (path : Path) (n : Fin 4) (caps : List (Fin 32 × Nat)), s.flag NVM_SET_CFG.EN n = false → s.sec.trngOk = true →
    ∃ t, exec (.nvmFormat path n caps) s = .next t ∧ (t.logSet n).setId = Config.random s.free 16 ∧
      (t.logSet n).recSeq = 0 ∧ (t.logSet n).uid = s.reg64 .FAB_UID_LO .FAB_UID_HI 0 ∧ t.regs = s.regs ∧ t.mem = s.mem ∧
      ∀ d ∈ s.setDrives n, (t.drive d).gen = 1) ∧
  (∀ (s : State) (path : Path) (n : Fin 4) (caps : List (Fin 32 × Nat)), s.sec.trngOk = false →
    exec (.nvmFormat path n caps) s = .next (({ s with sec := { s.sec with waits := s.sec.waits ++ [.format n caps] } }
      : State).emit (.writeDone path (Reg.NVM_SET_CMD.addr n))))

/-- Links, hellos, link state and addresses of the fabric. -/
def Obligations.FabricLinksAndRoutes : Prop :=
  (∀ (s : State) (p : Fin 6) (lanes : BitVec 5), (s.portState p ≠ 0 ∨ s.fld FAB_PORT_CFG.MODE p = 0 ∨ s.dev = .standby) →
    exec (.linkSignalDetect p lanes) s = .next s) ∧
  (∀ (s : State) (p : Fin 6) (lanes : BitVec 5), s.portState p = 0 → s.fld FAB_PORT_CFG.MODE p ≠ 0 → s.dev = .run →
    let l := (s.goodLanes p lanes.toNat).filter (· != s.fld FAB_PORT_STAT.SPARE_LANE p)
    (l.length = 4 → ∃ t, exec (.linkSignalDetect p lanes) s = .next t ∧ t.portState p = 1 ∧ (t.port p).step = 2 ∧
      (t.port p).lanes = l.foldl (fun m i => m + 2 ^ i) 0 ∧ t.evq = s.evq ∧
      (∀ r i, (r, i) ≠ (Reg.FAB_PORT_STAT, p.val) → t.reg r i = s.reg r i)) ∧
    (l.length ≠ 4 → s.fld FAB_PORT_CFG.MODE p = 2 → exec (.linkSignalDetect p lanes) s = .next s)) ∧
  (∀ (s : State) (p : Fin 6) (u : BitVec 64) (rp : Fin 6) (m : Fin 4) (a : Int), s.portState p ≠ 1 →
    exec (.linkBringupStepDone p u rp m a) s = .next s) ∧
  (∀ (s : State) (p : Fin 6) (u : BitVec 64) (rp : Fin 6) (m : Fin 4) (a : Int), s.portState p = 1 →
    ∃ t, exec (.linkBringupStepDone p u rp m a) s = .next t ∧ t.mem = s.mem ∧ (∀ q, q ≠ p.val → t.port q = s.port q) ∧
      ((s.port p).step = 2 → t.port p = { s.port p with step := 3 } ∧ t.portState p = 1) ∧
      ((s.port p).step = 3 → s.fld FAB_PORT_CFG.MODE p = 1 → t.port p = { s.port p with step := 4 } ∧ t.portState p = 1) ∧
      ((s.port p).step = 3 → s.fld FAB_PORT_CFG.MODE p = 2 → (t.port p).step = 0 ∧ t.portState p = 2) ∧
      ((s.port p).step = 4 → m.val = s.fld FAB_PORT_CFG.MODE p →
        t.port p = { s.port p with step := 5, uid := u.toNat, rport := rp.val } ∧ t.evq = s.evq) ∧
      ((s.port p).step = 4 → m.val ≠ s.fld FAB_PORT_CFG.MODE p → (t.port p).step = 0 ∧ t.portState p = 1 ∧
        t.evq.count = s.evq.count + 1) ∧
      ((s.port p).step = 5 → t.port p = { s.port p with step := 6, asym := a }) ∧
      ((s.port p).step = 6 → (t.port p).step = 0 ∧ t.portState p = 2 ∧ t.out.length = s.out.length + 1)) ∧
  (∀ (s : State) (p : Fin 6) (l : Fin 5), (s.portState p = 0 ∨ bit (s.port p).lanes l = false) →
    exec (.linkSignalLoss p l) s = .next s) ∧
  (∀ (s : State) (p : Fin 6) (l : Fin 5), s.portState p ≠ 0 → bit (s.port p).lanes l = true →
    ∃ t, exec (.linkSignalLoss p l) s = .next t ∧ t.portState p = 0 ∧ t.fld FAB_PORT_STAT.LANES p = 0 ∧
      (t.port p).step = 0 ∧ (t.port p).lastHello = none ∧ (t.port p).offsets = [] ∧
      t.mem = s.mem ∧ (t.port p).replay = [] ∧
      (s.fld TDC_TIME_CFG.TIME_SRC 0 ≠ 3 → t.evq.count = s.evq.count + (if s.portState p = 3 then 2 else 1))) ∧
  (∀ (s : State) (p : Fin 6) (r : Bool), p.val ∉ s.vyderUp → exec (.flitCrcFail p r) s = .next s) ∧
  (∀ (s : State) (p : Fin 6) (r : Bool), p.val ∈ s.vyderUp →
    let n := if r then (s.port p).fails + 1 else 0
    (n < 8 → ∃ t m, exec (.flitCrcFail p r) s = .next t ∧ t.port p = { s.port p with fails := n, again := m } ∧
      (r = true → m = (s.port p).again) ∧
      (r = false → ((s.port p).replay = [] → m = none) ∧ ((s.port p).replay ≠ [] → ∃ x ∈ (s.port p).replay, m = some x)) ∧
      (∀ args bs, m = some (args, bs) →
        t.out = .send (.fabric p) args (bs.take 1 ++ [bs.getD 1 0 ||| 1] ++ bs.drop 2) :: s.out) ∧ (m = none → t.out = s.out) ∧
      countsBy s t FAB_PORT_ERR.RETRIES p 1 ∧ t.portState p = s.portState p ∧ t.evq = s.evq) ∧
    (8 ≤ n → ∃ t, exec (.flitCrcFail p r) s = .next t ∧ t.portState p = 1 ∧ (t.port p).step = 2 ∧
      (t.port p).lanes = (s.port p).lanes ∧ countsBy s t FAB_PORT_ERR.RETRAINS p 1 ∧ s.evq.count + 2 ≤ t.evq.count)) ∧
  (∀ (s : State) (p : Fin 6), exec (.helloSend p) s = .next (if s.fab.on = true ∧ p.val ∈ s.vyderUp ∧
      s.timerDue (tmHello p) msCycles = true then
    (s.timerSet (tmHello p)).fabSend p [msgHELLO, 0] (fabMsg msgHELLO false (s.ownHdr 0 0) (s.helloBytes p)) else s)) ∧
  (∀ (s : State) (p : Nat) (args : List Nat) (bs : List Byte), (s.fabSend p args bs).out = .send (.fabric p) args bs :: s.out ∧
    ((s.fabSend p args bs).port p).replay = replayOf 256 ((args, bs) :: (s.port p).replay)) ∧
  (∀ (s : State) (p : Fin 6) (h : FabHello), p.val ∉ s.vyderUp → exec (.helloRx p h) s = .next s) ∧
  (∀ (s : State) (p : Fin 6) (h : FabHello), p.val ∈ s.vyderUp → h.gm.uid.toNat = s.uid →
    ∃ t, exec (.helloRx p h) s = .next t ∧ t.portState p = 3 ∧ t.fld FAB_PORT_STAT.NBR_ADDR p = h.addr.toNat ∧
      t.port p = { s.port p with uid := h.uid.toNat, rport := h.port.val, lastHello := some s.now, replay := (t.port p).replay } ∧
      (s.portState p ≠ 3 → t.fab.lsaSeq = s.fab.lsaSeq + 1 ∧
        (s.fld TDC_TIME_CFG.TIME_SRC 0 ≠ 3 → t.evq.count = s.evq.count + 1)) ∧
      (s.portState p = 3 → (s.port p).uid = h.uid.toNat → (s.port p).rport = h.port.val →
        s.fld FAB_PORT_STAT.NBR_ADDR p = h.addr.toNat → t.evq = s.evq ∧ t.fab.lsaSeq = s.fab.lsaSeq ∧ t.out = s.out)) ∧
  (∀ (s : State) (p : Fin 6), (∀ a, (s.port p).lastHello = some a → s.now < a + 3 * msCycles) →
    exec (.nbrTimeout p) s = .next s) ∧
  (∀ (s : State) (p : Fin 6) (a : Nat), (s.port p).lastHello = some a → a + 3 * msCycles ≤ s.now → s.portState p = 3 →
    ∃ t, exec (.nbrTimeout p) s = .next t ∧ t.portState p = 2 ∧ t.fab.lsaSeq = s.fab.lsaSeq + 1 ∧ t.mem = s.mem ∧
      (s.fld TDC_TIME_CFG.TIME_SRC 0 ≠ 3 → t.evq.count = s.evq.count + 1) ∧
      (s.fld TDC_TIME_CFG.TIME_SRC 0 = 3 → s.flag FAB_STATUS.IS_GM 0 = false → s.timeParent = some p.val →
        t.flag TDC_STATUS.TIME_SRC_OK 0 = false)) ∧
  (∀ (s : State) (p : Fin 6) (h : FabHdr) (l : FabLsa), p.val ∉ s.vyderUp → exec (.lsaRx p h l) s = .next s) ∧
  (∀ (s : State) (p : Fin 6) (h : FabHdr) (l : FabLsa) (f : FabFilter), p.val ∈ s.vyderUp →
    Table.get? s.fab.filters h.src.toNat = some f → f.inc = h.inc.toNat → h.seq.toNat ∈ f.seen →
    exec (.lsaRx p h l) s = .next (s.addFld FAB_COUNTS.DUP 0 1)) ∧
  (∀ (s : State) (p : Fin 6) (h : FabHdr) (l : FabLsa), p.val ∈ s.vyderUp → Table.get? s.fab.filters h.src.toNat = none →
    l.uid.toNat ≠ s.uid →
    ((∀ e ∈ s.fab.db, e.1.uid = l.uid → e.1.inc ≠ l.inc ∨ e.1.seq.toNat < l.seq.toNat) →
      ∃ t, exec (.lsaRx p h l) s = .next t ∧ (l, s.now) ∈ t.fab.db ∧ (∀ e ∈ t.fab.db, e.1.uid = l.uid → e = (l, s.now)) ∧
        Table.get? t.fab.filters h.src.toNat = some ⟨h.inc.toNat, h.seq.toNat, [h.seq.toNat]⟩) ∧
    ((∀ e ∈ s.fab.db, e.1.uid = l.uid → e.1.inc = l.inc ∧ l.seq.toNat ≤ e.1.seq.toNat) → (∃ e ∈ s.fab.db, e.1.uid = l.uid) →
      ∃ t, exec (.lsaRx p h l) s = .next t ∧ t.fab.db = s.fab.db ∧ t.out = s.out)) ∧
  (∀ (s : State), s.timerDue tmLsa (10 * sCycles) = false → exec .lsaRefresh s = .next s) ∧
  (∀ (s : State), s.fab.on = false → exec .lsaRefresh s = .next s ∧ exec .routeInstall s = .next s ∧
    exec .addrClaimTimer s = .next s) ∧
  (∀ (s : State), s.fab.on = true → s.timerDue tmLsa (10 * sCycles) = true → ∃ t, exec .lsaRefresh s = .next t ∧ t.fab = { s.fab with lsaSeq := s.fab.lsaSeq + 1, ports := t.fab.ports } ∧
    t.trg.seq = s.trg.seq + 1 ∧ t.out.length = s.out.length + s.vyderUp.length ∧ t.regs = s.regs) ∧
  (∀ (s : State) (u : BitVec 64), (∀ e ∈ s.fab.db, e.1.uid = u → s.now < e.2 + 40 * sCycles) →
    exec (.lsaExpire u) s = .next s) ∧
  (∀ (s : State) (u : BitVec 64), ∃ t, exec (.lsaExpire u) s = .next t ∧
    (∀ e ∈ t.fab.db, e ∈ s.fab.db ∧ (e.1.uid = u → s.now < e.2 + 40 * sCycles)) ∧
    (∀ e ∈ s.fab.db, e.1.uid ≠ u → e ∈ t.fab.db)) ∧
  (∀ (s : State), s.fab.on = true → ∃ t, exec .routeInstall s = .next t ∧ t.fab.inst = s.ownLsa :: s.fab.db.map (·.1) ∧
    t.fab.db = s.fab.db ∧ t.mem = s.mem ∧
    (s.fld TDC_TIME_CFG.TIME_SRC 0 = 3 → t.flag FAB_STATUS.IS_GM 0 = false →
      t.flag TDC_STATUS.TIME_SRC_OK 0 = t.timeParent.isSome)) ∧
  (∀ (s : State) (a : Nat), s.fab.on = true → s.fld FAB_ADDR_CFG.MODE 0 = 0 → s.addrState = 0 → s.fab.firstNbr = none →
    (s.now < s.fab.started + 10 * msCycles → exec .addrClaimTimer s = .next s) ∧
    (s.fab.started + 10 * msCycles ≤ s.now → s.freeAddr s.fabAddr = some a → ∃ t, exec .addrClaimTimer s = .next t ∧
      t.fabAddr = a ∧ t.addrState = 1 ∧ t.evq.count = s.evq.count + 1 ∧ t.fab.lsaSeq = s.fab.lsaSeq + 1)) ∧
  (∀ (s : State) (b a : Nat), s.freeAddr b = some a → a < 4096 ∧ s.otherHolder a = none ∧
    (s.otherHolder (b % 4096) = none → a = b % 4096))

/-- Time, grandmaster and messages of the fabric.  The sign of the servo's error is the model's reading (log entry 40). -/
def Obligations.FabricTimeAndMessages : Prop :=
  (∀ (s : State) (p : Fin 6) (a : BitVec 96), exec (.timeExchange p a) s = .next (if s.fab.on = true ∧ p.val ∈ s.vyderUp ∧
      s.timerDue (tmExchange p) msCycles = true then
    (s.timerSet (tmExchange p)).fabSend p [msgTIME, 0] (fabMsg msgTIME false (s.ownHdr 0 0) (leBytes 12 a.toNat)) else s)) ∧
  (∀ (s : State) (p : Fin 6) (m : FabTime), p.val ∉ s.vyderUp → exec (.timeRx p m) s = .next s) ∧
  (∀ (s : State) (p : Fin 6), p.val ∈ s.vyderUp →
    (∀ t1 t2 t3, exec (.timeRx p (.request t1 t2 t3)) s = .next (s.fabSend p [msgTIME, 0]
      (fabMsg msgTIME false (s.ownHdr 0 0) (leBytes 12 t1.toNat ++ leBytes 12 t2.toNat ++ leBytes 12 t3.toNat)))) ∧
    (∀ t1 t2 t3 t4, ∃ t, exec (.timeRx p (.answer t1 t2 t3 t4)) s = .next t ∧ t.time = s.time ∧
      (t.port p).delays = (tdiv (stampDiff t4 t1 - stampDiff t3 t2) 2 :: (s.port p).delays).take 16 ∧
      (t.port p).offsets = ((tdiv (stampDiff t2 t1 - stampDiff t4 t3) 2 - tdiv (s.asym p) 2) :: (s.port p).offsets).take 16 ∧
      (∀ r i, (r, i) ≠ (Reg.FAB_PORT_DELAY, p.val) → t.reg r i = s.reg r i))) ∧
  (∀ (s : State), (s.fld TDC_TIME_CFG.TIME_SRC 0 ≠ 3 ∨ s.fab.on = false ∨ s.timerDue tmServo (16 * msCycles) = false) →
    exec .fabTimeServo s = .next s) ∧
  (∀ (s : State), s.fld TDC_TIME_CFG.TIME_SRC 0 = 3 → s.fab.on = true → s.timerDue tmServo (16 * msCycles) = true →
    let u := s.timerSet tmServo
    (s.flag FAB_STATUS.IS_GM 0 = true → exec .fabTimeServo s = .next u.undisciplined) ∧
    (s.flag FAB_STATUS.IS_GM 0 = false → s.timeParent = none → exec .fabTimeServo s = .next u.timeSrcLost) ∧
    (∀ p, s.flag FAB_STATUS.IS_GM 0 = false → s.timeParent = some p →
      (s.fab.parent ≠ some (s.port p).uid → exec .fabTimeServo s = .next (({ u with fab := { s.fab with
        parent := some (s.port p).uid } } : State).setFlag TDC_STATUS.TIME_SRC_OK 0 true)) ∧
      (s.fab.parent = some (s.port p).uid → (s.port p).offsets ≠ [] →
        exec .fabTimeServo s = .next (u.discipline (-meanI (s.port p).offsets))))) ∧
  (∀ (s : State), s.fab.on = false → exec .gmAnnounce s = .next s ∧ exec .gmTimeout s = .next s) ∧
  (∀ (s : State), s.fab.on = true → ∃ t b, exec .gmTimeout s = .next t ∧ t.fab = { s.fab with gm := some b } ∧
    gmBeats s.ownGm b = false ∧ (b = s.ownGm ∨ ∃ e ∈ s.fab.cands, e.1 = b) ∧
    (∀ e ∈ s.fab.cands, s.now < e.2 + sCycles → s.reachable e.1.uid = true → gmBeats e.1 b = false) ∧
    t.fld FAB_GM.PRIO 0 = b.prio.toNat ∧ t.flag FAB_GM.REF 0 = b.ref ∧ t.time = s.time) ∧
  (∀ (s : State), s.timerDue tmAnnounce (125 * msCycles) = false → exec .gmAnnounce s = .next s) ∧
  (∀ (s : State), s.fab.on = true → s.fab.cands = [] → s.timerDue tmAnnounce (125 * msCycles) = true →
    ∃ t, exec .gmAnnounce s = .next t ∧ t.fab.gm = some s.ownGm ∧
    t.flag FAB_STATUS.IS_GM 0 = true ∧
    (s.addressed = true → t.trg.seq = s.trg.seq + 1 ∧
      (s.fab.gm = some s.ownGm → t.out.length = s.out.length + s.vyderUp.length)) ∧
    (s.addressed = false → t.trg.seq = s.trg.seq ∧ (s.fab.gm = some s.ownGm → t.out = s.out))) ∧
  (∀ (s : State) (h : FabHdr) (f : FabFilter), Table.get? s.fab.filters h.src.toNat = some f → f.inc = h.inc.toNat →
    h.seq.toNat ∈ f.seen →
    (∀ p gm, p.val ∈ s.vyderUp → exec (.announceRx p h gm) s = .next (s.addFld FAB_COUNTS.DUP 0 1)) ∧
    (∀ tree id cell time q, s.fab.on = true → exec (.fabTriggerRx h tree id cell time q) s = .next (s.addFld FAB_COUNTS.DUP 0 1)) ∧
    (∀ bs, s.fab.on = true → s.addressed = true → h.unknown = false → h.dst.toNat = s.fabAddr →
      exec (.fabItemRx h bs) s = .next (s.addFld FAB_COUNTS.DUP 0 1) ∧
      exec (.fabRtvReqRx h bs) s = .next (s.addFld FAB_COUNTS.DUP 0 1))) ∧
  (∀ (s : State) (p : Fin 6) (h : FabHdr) (gm : FabGm), (p.val ∉ s.vyderUp → exec (.announceRx p h gm) s = .next s) ∧
    (p.val ∈ s.vyderUp → Table.get? s.fab.filters h.src.toNat = none → gm.uid.toNat ≠ s.uid →
      ∃ t, exec (.announceRx p h gm) s = .next t ∧ (gm, s.now) ∈ t.fab.cands ∧
        Table.get? t.fab.filters h.src.toNat = some ⟨h.inc.toNat, h.seq.toNat, [h.seq.toNat]⟩)) ∧
  (∀ (s : State) (h : FabHdr) (tree : Fin 2) (id : Fin 64) (cell : BitVec 8) (time : BitVec 96) (q : BitVec 32),
    (s.fab.on = false → exec (.fabTriggerRx h tree id cell time q) s = .next s) ∧
    (s.fab.on = true → Table.get? s.fab.filters h.src.toNat = none →
      ∃ t, exec (.fabTriggerRx h tree id cell time q) s = .next t ∧ t.mem = s.mem ∧
        (bit (s.reg64 .FAB_TRG_SUB_LO .FAB_TRG_SUB_HI 0) id = false → t.trg = s.trg) ∧
        (bit (s.reg64 .FAB_TRG_SUB_LO .FAB_TRG_SUB_HI 0) id = true →
          t.trg = (s.combEvent (0xB00 + id.val) (time.toNat * 2 ^ 32) (fun _ => true)).trg) ∧
        (h.hops = 15 → countsBy s t FAB_NO_ROUTE.COUNT 0 1 ∧
          (bit (s.reg64 .FAB_TRG_SUB_LO .FAB_TRG_SUB_HI 0) id = false → t.out = s.out)))) ∧
  (∀ (s : State) (h : FabHdr) (bs : List Byte), (s.fab.on = false → exec (.fabItemRx h bs) s = .next s ∧
      exec (.fabRtvReqRx h bs) s = .next s) ∧
    (s.fab.on = true → h.unknown = true → exec (.fabItemRx h bs) s = .next s.noRoute ∧ exec (.fabRtvReqRx h bs) s = .next s.noRoute ∧
      ∀ g k, exec (.fabCreditRx h g k) s = .next s.noRoute) ∧
    (s.fab.on = true → h.unknown = false → (h.dst.toNat ≠ s.fabAddr ∨ s.addressed = false) →
      exec (.fabItemRx h bs) s = .next (s.forward msgITEM h bs) ∧
      exec (.fabRtvReqRx h bs) s = .next (s.forward msgRTVREQ h bs))) ∧
  (∀ (s : State) (h : FabHdr) (bs : List Byte), s.fab.on = true → h.unknown = false → h.dst.toNat = s.fabAddr → s.addressed = true →
    Table.get? s.fab.filters h.src.toNat = none →
    let n := entrySize (bs.length - 32) / 64
    (s.flag FAB_RX_BASE_HI.ENABLE 0 = true → s.fab.rxHeld = [] → (∀ a, s.poisoned a = false) → n ≤ s.rxUnits →
      (inCellar s.rxBase (64 * s.rxUnits) || inSystem s.rxBase (64 * s.rxUnits)) = true →
      ∃ t, exec (.fabItemRx h bs) s = .next t ∧ (t.reg .FAB_RX_WP 0).toNat = ((s.reg .FAB_RX_WP 0).toNat + n) % 2 ^ 32 ∧
        (∀ i j, i < n → j < 64 → 64 * i + j < bs.length →
          some (t.byte (s.rxBase + 64 * (((s.reg .FAB_RX_WP 0).toNat + i) % s.rxUnits) + j)) = bs[64 * i + j]?)) ∧
    (s.flag FAB_RX_BASE_HI.ENABLE 0 = true → s.fab.rxHeld ≠ [] → ∃ t, exec (.fabItemRx h bs) s = .next t ∧
      t.fab.rxHeld = s.fab.rxHeld ++ [bs ++ zeros (entrySize (bs.length - 32) - bs.length)] ∧ t.regs = s.regs ∧ t.mem = s.mem) ∧
    (s.flag FAB_RX_BASE_HI.ENABLE 0 = false → ∃ t, exec (.fabItemRx h bs) s = .next t ∧ t.regs = s.regs ∧ t.mem = s.mem) ∧
    (16 ≤ s.retrievals.length → ∃ t, exec (.fabRtvReqRx h bs) s = .next t ∧ t.trg = s.trg ∧ t.regs = s.regs ∧
      t.fab.rtvWait = s.fab.rtvWait ++ [(s.rtvRingLen, h.src.toNat, bs)]) ∧
    (∀ k : BitVec 32, s.fab.xfers = [] → ∃ t, exec (.fabCreditRx h true k) s = .next t ∧ t.regs = s.regs ∧ t.mem = s.mem ∧
      Table.getD t.fab.credit h.src.toNat 0 = Table.getD s.fab.credit h.src.toNat 0 + k.toNat) ∧
    (∀ k : BitVec 32, s.flag FAB_RX_BASE_HI.ENABLE 0 = false → ∃ t, exec (.fabCreditRx h false k) s = .next t ∧
      t.fab.asks = s.fab.asks ++ [(h.src.toNat, k.toNat)] ∧ t.out = s.out)) ∧
  (∀ (s : State) (path : Path) (v : BitVec 32),
    (s.rxUsed < (v.toNat + 2 ^ 32 - (s.reg .FAB_RX_RD 0).toNat) % 2 ^ 32 →
      exec (.fabRxRdWrite path v) s = .next (s.emit (.writeDone path (Reg.FAB_RX_RD.addr 0)))) ∧
    ((v.toNat + 2 ^ 32 - (s.reg .FAB_RX_RD 0).toNat) % 2 ^ 32 ≤ s.rxUsed →
      ∃ t, exec (.fabRxRdWrite path v) s = .next t ∧ t.reg .FAB_RX_RD 0 = v ∧ t.mem = s.mem))

/-- Die k has one run queued and none in progress, in a state that runs calibrations. -/
def calOne (s : State) (k : Nat) (j : CalJob) : Prop :=
  (s.calDie k).cur = none ∧ (s.calDie k).queue = [j] ∧ (s.calDie k).hitful = false ∧ j.task = .run ∧ s.dev = .run

/-- A run of die k is in progress in a phase, which has lasted as long as a comparison and a run take. -/
def calAt (s : State) (k : Nat) (cur : CalCur) (phase : Nat) : Prop :=
  (s.calDie k).cur = some cur ∧ cur.job.task = .run ∧ cur.phase = phase ∧ cur.job.slice < 34 ∧ cur.await = false ∧
  cur.since + 150 * usCycles ≤ s.now

/-- Calibration runs. -/
def Obligations.CalibrationRuns : Prop :=
  (∀ (s : State) (k : Fin 8) (sl : Fin 34), s.flag CAL_CFG.AUTO 0 = false → s.fld CAL_CFG.AGE_H 0 = 0 →
    exec (.calTrigger k sl) s = .next s) ∧
  (∀ (s : State) (k : Fin 8) (sl : Fin 34), s.flag CAL_CFG.AUTO 0 = true → s.fld CAL_CFG.DRIFT 0 ≤ s.tempDiff k sl →
    s.role kSLICE (34 * k + sl) ≠ roRETIRED → (∀ j ∈ (s.calDie k).queue, j.slice ≠ sl.val) →
    ∃ t, exec (.calTrigger k sl) s = .next t ∧ t = { s with cal := t.cal } ∧
      t.calDie k = { s.calDie k with queue := (s.calDie k).queue ++ [{ slice := sl, task := .run, host := false, since := s.now }] }) ∧
  (∀ (s : State) (path : Path) (k : Fin 8) (sl : Fin 34), ∃ t, exec (.calRun path k sl) s = .next t ∧
    t.fld CAL_CMD_STAT.RESULT 0 = 1 ∧ t.flag CAL_CMD_STAT.BUSY 0 = false ∧ t.mem = s.mem ∧
    (s.role kSLICE (34 * k + sl) = roRETIRED → t.cal = s.cal) ∧
    (s.role kSLICE (34 * k + sl) ≠ roRETIRED → ∃ j ∈ (t.calDie k).queue, j.slice = sl.val ∧ j.task = .run ∧ j.host = true) ∧
    ((∃ j ∈ (s.calDie k).queue, j.slice = sl.val ∧ j.task = .run) → (t.calDie k).queue.length = (s.calDie k).queue.length)) ∧
  (∀ (s : State) (path : Path) (k : Fin 8), ∃ t, exec (.calRunDie path k) s = .next t ∧ t.fld CAL_CMD_STAT.RESULT 0 = 1 ∧
    (∀ sl, sl < 34 → s.role kSLICE (34 * k + sl) ≠ roRETIRED →
      ∃ j ∈ (t.calDie k).queue, j.slice = sl ∧ j.task = .run ∧ j.host = true) ∧
    (∀ q, q ≠ k.val → t.calDie q = s.calDie q)) ∧
  (∀ (s : State) (k : Fin 8), (s.calDie k).hitful = false → ((s.calDie k).cur.isSome = true ∨ (s.calDie k).queue = [] ∨
      s.dev = .safe ∨ s.dev = .standby) → exec (.calRunStart k) s = .next s ∧ exec (.calForce k) s = .next s) ∧
  (∀ (s : State) (k : Fin 8), exec (.calQuietOpen k) s = exec (.calRunStart k) s) ∧
  (∀ (s : State) (k : Fin 8) (j : CalJob), calOne s k j → s.calWay k j = .inPlace →
    ∃ t, exec (.calRunStart k) s = .next t ∧ t = { s with cal := t.cal } ∧ (t.calDie k).queue = [] ∧
      (t.calDie k).cur = some { job := j, way := .inPlace, chan := s.netOf k j.slice, phase := 2, old := s.calEntry (34 * k + j.slice), since := s.now }) ∧
  (∀ (s : State) (k : Fin 8) (j : CalJob) (p c : Nat), calOne s k j → s.calWay k j = .hitless p →
    s.netOf k j.slice = some c → s.calMayStart k j false = true → ∃ t, exec (.calRunStart k) s = .next t ∧
      (t.calDie k).cur = some { job := j, way := .hitless p, chan := some c, phase := 1, old := s.calEntry (34 * k + j.slice), since := s.now } ∧
      t.role kSLICE (34 * k + p) = roSPARE ∧ t.fld CNV_CH_ROUTE.SHADOW c = laneCode p ∧
      t.fld CNV_CH_ROUTE.SERVING c = s.fld CNV_CH_ROUTE.SERVING c ∧ t.evq = s.evq) ∧
  (∀ (s : State) (k : Fin 8) (j : CalJob) (a b c : Nat), calOne s k j → s.calWay k j = .hold a b →
    s.netOf k j.slice = some c →
    (s.calMayStart k j false = true → ∃ t, exec (.calRunStart k) s = .next t ∧ countsBy s t CAL_COUNTS.STALE 0 1 ∧
      (t.chan c).calHold = true ∧ (t.chan c).hold = (s.chan c).hold ∧ t.flag CNV_CH_ROUTE.STALE_NOW c = true ∧
      (t.calDie k).cur = some { job := j, way := .hold a b, chan := some c, phase := 4, old := s.calEntry (34 * k + j.slice), since := s.now }) ∧
    (s.calMayStart k j false = false → j.overdue = false → s.commitPending = false →
      ∃ t, exec (.calRunStart k) s = .next t ∧ (t.calDie k).cur = none ∧ t.regs = (s.raise Ev.CAL_OVERDUE 0 []).regs ∧
        (t.calDie k).queue = [{ j with overdue := true }] ∧ t.evq.count = s.evq.count + 1) ∧
    (s.calMayStart k j false = false → j.overdue = true → exec (.calRunStart k) s = .next s) ∧
    (s.fld CAL_QUIET.FORCE_S 0 ≠ 0 → j.since + s.fld CAL_QUIET.FORCE_S 0 * sCycles ≤ s.now →
      ∃ t, exec (.calForce k) s = .next t ∧ (t.chan c).calHold = true ∧ countsBy s t CAL_COUNTS.STALE 0 1)) ∧
  (∀ (s : State) (k : Fin 8) (ok : Bool), ((s.calDie k).cur = none ∨ ∃ cur, (s.calDie k).cur = some cur ∧ (cur.phase ≠ 1 ∧
    cur.phase ≠ 3 ∨ cur.await = true ∨ s.now < cur.since + usCycles)) → exec (.calCompare k ok) s = .next s) ∧
  (∀ (s : State) (k : Fin 8) (cur : CalCur) (p c : Nat), calAt s k cur 1 → cur.way = .hitless p → cur.chan = some c → c / 32 = k.val →
    (∃ t, exec (.calCompare k true) s = .next t ∧ t.evq = s.evq ∧
      (s.hubCopy k = true → (t.chan c).serveNext = some (laneCode p) ∧ (t.calDie k).cur = some { cur with await := true } ∧
        t.regs = s.regs) ∧
      (s.hubCopy k = false → t.fld CNV_CH_ROUTE.SERVING c = laneCode p % 4 ∧ t.fld CNV_CH_ROUTE.SHADOW c = 0 ∧
        (t.calDie k).cur = some { cur with phase := 2, since := s.now } ∧
        t.fld CNV_CH_ROUTE.CALGEN c = (s.fld CNV_CH_ROUTE.CALGEN c + 1) % 16)) ∧
    (p < 34 → Table.getD s.cal.cmpFails (34 * k + p) 0 = 0 → ∃ t, exec (.calCompare k false) s = .next t ∧
      (t.calDie k).cur = none ∧ t.fld CNV_CH_ROUTE.SHADOW c = 0 ∧ t.role kSLICE (34 * k + p) = roFREE ∧
      t.fld CNV_CH_ROUTE.SERVING c = s.fld CNV_CH_ROUTE.SERVING c ∧
      countsBy s t CNV_SL_STATE.REJECTS (34 * k + p) 1 ∧ s.evq.count + 2 ≤ t.evq.count)) ∧
  (∀ (s : State) (k : Fin 8) (cur : CalCur) (p c : Nat), calAt s k cur 3 → cur.way = .hitless p → cur.chan = some c → c / 32 = k.val →
    (∃ t, exec (.calCompare k true) s = .next t ∧ t.evq = s.evq ∧
      (s.hubCopy k = true → (t.chan c).serveNext = some (laneCode cur.job.slice) ∧
        (t.calDie k).cur = some { cur with await := true } ∧ t.regs = s.regs) ∧
      (s.hubCopy k = false → (t.calDie k).cur = none ∧ t.role kSLICE (34 * k + p) = roFREE ∧
        t.fld CNV_CH_ROUTE.SERVING c = laneCode cur.job.slice % 4)) ∧
    (cur.again = false → ∃ t, exec (.calCompare k false) s = .next t ∧
      (t.calDie k).cur = some { cur with again := true, undo := none, since := s.now } ∧
      (cur.undo = none → t.calEntry (34 * k + cur.job.slice) = s.calEntry (34 * k + cur.job.slice) ∧
        countsBy s t CNV_SL_STATE.REJECTS (34 * k + cur.job.slice) 1) ∧
      (∀ last n, cur.undo = some (last, n) → n < 255 → t.calEntry (34 * k + cur.job.slice) = cur.old ∧
        t.fld CNV_SL_STATE.REJECTS (34 * k + cur.job.slice) = n + 1 ∧
        Table.get? t.cal.lastRun (34 * k + cur.job.slice) = last ∧
        t.fld CNV_SL_STATE.CALGEN (34 * k + cur.job.slice) = (s.fld CNV_SL_STATE.CALGEN (34 * k + cur.job.slice) + 1) % 16))) ∧
  (∀ (s : State) (k : Fin 8) (cur : CalCur) (p c : Nat), (s.calDie k).cur = some cur → cur.job.task = .run → cur.way = .hitless p →
    cur.chan = some c → (cur.await = false → s.calBoundary k = s) ∧
    (cur.await = true → cur.phase = 1 → (s.calBoundary k).fld CNV_CH_ROUTE.SHADOW c = 0 ∧
      ((s.calBoundary k).calDie k).cur = some { cur with phase := 2, await := false, since := s.now }) ∧
    (cur.await = true → cur.phase = 3 → (s.calBoundary k).role kSLICE (34 * k + p) = roFREE ∧
      ((s.calBoundary k).calDie k).cur = none)) ∧
  (∀ (s : State) (k : Fin 8) (o g w : List Int) (term : Int), ((s.calDie k).cur = none ∨
      ∃ cur, (s.calDie k).cur = some cur ∧ (cur.done = true ∨ cur.job.task ≠ .run ∨
        s.now < cur.since + 150 * usCycles)) →
    exec (.calRunDone k o g w term) s = .next s) ∧
  (∀ (s : State) (k : Fin 8) (o g w : List Int) (term : Int) (cur : CalCur), (calAt s k cur 2 ∨ calAt s k cur 4) → cur.done = false →
    let u := 34 * k.val + cur.job.slice
    let e := s.calEntry u
    let bad := resultCheck e o g w ≠ 0 ∨ ((s.dev = .boot ∨ s.mode k = 8) ∧ (term < 0 ∨ 64 ≤ term))
    (bad → ∃ t, exec (.calRunDone k o g w term) s = .next t ∧ t.calEntry u = e ∧
      countsBy s t CNV_SL_STATE.REJECTS u 1 ∧ s.evq.count + 1 ≤ t.evq.count ∧
      (cur.way = .inPlace → (t.calDie k).cur = none) ∧
      (∀ p, cur.way = .hitless p → (t.calDie k).cur = some { cur with phase := 3, done := true, changed := false, undo := none, since := s.now }) ∧
      (∀ a b, cur.way = .hold a b → (t.calDie k).cur = some { cur with done := true, changed := false })) ∧
    (¬bad → ∃ t, exec (.calRunDone k o g w term) s = .next t ∧ t.fld CNV_SL_STATE.REJECTS u = 0 ∧
      t.fld CNV_SL_STATE.CALGEN u = (s.fld CNV_SL_STATE.CALGEN u + 1) % 16 ∧ t.evq = s.evq ∧
      (∃ x, t.calEntry u = resultEntry o g w x (s.dieTemp k) ∧ (s.dev ≠ .boot → s.mode k ≠ 8 → x = e.term) ∧
        ((s.dev = .boot ∨ s.mode k = 8) → x = term.toNat)) ∧ Table.get? t.cal.lastRun u = some s.now ∧
      (cur.way = .inPlace → (t.calDie k).cur = none) ∧
      (∀ p, cur.way = .hitless p → ∃ ch, (t.calDie k).cur = some { cur with phase := 3, done := true, changed := ch, undo := some (Table.get? s.cal.lastRun u, s.fld CNV_SL_STATE.REJECTS u), since := s.now }) ∧
      (∀ a b, cur.way = .hold a b → ∃ ch, (t.calDie k).cur = some { cur with done := true, changed := ch }))) ∧
  (∀ (s : State) (k : Fin 8), ((s.calDie k).cur = none ∨ ∃ cur, (s.calDie k).cur = some cur ∧ cur.done = false) →
    exec (.calHoldEnd k) s = .next s) ∧
  (∀ (s : State) (k : Fin 8) (cur : CalCur) (a b c : Nat), calAt s k cur 4 → cur.way = .hold a b → cur.chan = some c → c / 32 = k.val →
    cur.done = true → (s.hubCopy k = true → 80 * ((s.die k).count + 1) < b → exec (.calHoldEnd k) s = .next s) ∧
    ((s.hubCopy k = false ∨ b ≤ 80 * ((s.die k).count + 1)) → ∃ t, exec (.calHoldEnd k) s = .next t ∧ (t.calDie k).cur = none ∧ (t.chan c).calHold = false ∧
      (t.chan c).hold = (s.chan c).hold ∧ t.flag CNV_CH_ROUTE.STALE_NOW c = (s.chan c).hold.isSome ∧ (t.chan c).newTrims = (s.chan c).newTrims ++ (if cur.changed then [b / 80] else []) ∧
      t.evq = s.evq))

/-- The commands on the calibration sets. -/
def Obligations.CalibrationSets : Prop :=
  (∀ (s : State) (path : Path) (k : Fin 8) (sl : Fin 34) (whole : Bool), ∃ t, exec (.calApply path k sl whole) s = .next t ∧
    t.cal = { s.cal with dies := t.cal.dies } ∧ t.flag CAL_CMD_STAT.BUSY 0 = true ∧ t.fld CAL_CMD_STAT.RESULT 0 = 0 ∧
    (t.calDie k).cur = (s.calDie k).cur ∧ (∀ q, q ≠ k.val → t.calDie q = s.calDie q) ∧
    (∀ x ∈ (if whole then List.range 34 else [sl.val]), ∃ j ∈ (t.calDie k).queue, j.slice = x ∧ j.task = .apply ∧ j.host = true) ∧
    ((s.calDie k).queue = [] → (t.calDie k).queue = (if whole then List.range 34 else [sl.val]).map (fun x =>
      { slice := x, task := .apply, host := true, since := s.now }))) ∧
  (∀ (s : State) (path : Path) (attic : Bool), inSystem s.calRecAddr 4544 = false →
    ∃ t, exec (.calExport path attic) s = .next t ∧ t.mem = s.mem ∧ t.fld CAL_CMD_STAT.RESULT 0 = 2) ∧
  (∀ (s : State) (path : Path) (attic : Bool), inSystem s.calRecAddr 4544 = true → (∀ a, s.poisoned a = false) →
    ∃ t, exec (.calExport path attic) s = .next t ∧ t.fld CAL_CMD_STAT.RESULT 0 = 1 ∧ t.cal = s.cal ∧
      t.bytes s.calRecAddr 4 = [0x43, 0x5A, 0x43, 0x4C] ∧ t.load (s.calRecAddr + 8) 8 = s.reg64 .FAB_UID_LO .FAB_UID_HI 0 ∧
      t.bytes (s.calRecAddr + 64) 4352 = calSetBytes (if attic then s.cal.attic else s.cal.vol) ∧
      (∀ a, (a < s.calRecAddr ∨ s.calRecAddr + (s.calRecord attic).length ≤ a) → t.byte a = s.byte a)) ∧
  (∀ (s : State) (path : Path), ∃ t, exec (.calImport path) s = .next t ∧ t.cal = { s.cal with host := t.cal.host } ∧
    t.mem = s.mem ∧ t.evq = s.evq ∧
    (let ok := inSystem s.calRecAddr 4544 && !s.poisonedRange s.calRecAddr 4544 && s.recordOk (s.bytes s.calRecAddr 4544)
     t.fld CAL_CMD_STAT.RESULT 0 = (if ok then 1 else 2) ∧
     ∀ e, e < 272 → Table.getD t.cal.host e {} =
       if ok then calEntryOf (s.bytes (s.calRecAddr + 64 + 16 * e) 16) else Table.getD s.cal.host e {})) ∧
  (∀ (s : State) (b : List Byte), s.recordOk b = (b.take 4 == [0x43, 0x5A, 0x43, 0x4C] && le b 4 2 == 1 && le b 6 2 == 272 &&
    le b 8 8 == s.reg64 .FAB_UID_LO .FAB_UID_HI 0 && slice b 4416 32 == sha256 (b.take 4416) &&
    ecdsaVerify Config.identityPub (slice b 4416 32) (slice b 4448 32) (slice b 4480 32))) ∧
  (∀ (s : State) (path : Path) (v : BitVec 32), exec (.calCommitArm path v) s = .next
    (((if v = 0x43414C21 then { s with cal := { s.cal with armed := some s.now } } else s : State)).emit
      (.writeDone path (Reg.CAL_COMMIT_ARM.addr 0)))) ∧
  (∀ (s : State) (path : Path), (∀ a, s.cal.armed = some a → a + sCycles < s.now) →
    ∃ t, exec (.calCommit path) s = .next t ∧ t.cal = s.cal ∧ t.fld CAL_CMD_STAT.RESULT 0 = 3) ∧
  (∀ (s : State) (path : Path) (a : Nat), s.cal.armed = some a → s.now ≤ a + sCycles →
    ((∃ k, k < 8 ∧ (s.calDie k).cur.isSome = true) → ∃ t, exec (.calCommit path) s = .next t ∧ t.cal = s.cal ∧
      t.fld CAL_CMD_STAT.RESULT 0 = 4) ∧
    (s.cal.committing = none → (∀ k, k < 8 → (s.calDie k).cur = none ∧ ∀ j ∈ (s.calDie k).queue, j.task ≠ .apply) →
      ∃ t, exec (.calCommit path) s = .next t ∧ t.cal = { s.cal with armed := none, committing := some s.cal.vol } ∧
        t.flag CAL_CMD_STAT.BUSY 0 = true)) ∧
  (∀ (s : State) (ok : Bool), s.cal.committing = none → exec (.calCommitted ok) s = .next s) ∧
  (∀ (s : State) (v : Table Nat CalEntry), s.cal.committing = some v →
    (∃ t, exec (.calCommitted false) s = .next t ∧ t.cal = { s.cal with committing := none } ∧
      t.fld CAL_INFO.COMMIT_COUNT 0 = s.fld CAL_INFO.COMMIT_COUNT 0 ∧ t.fld CAL_CMD_STAT.RESULT 0 = 5) ∧
    (∃ t, exec (.calCommitted true) s = .next t ∧ t.cal = { s.cal with committing := none, attic := v } ∧
      t.fld CAL_INFO.COMMIT_COUNT 0 = (s.fld CAL_INFO.COMMIT_COUNT 0 + 1) % 2 ^ 16 ∧ t.flag CAL_INFO.FACTORY 0 = false ∧
      t.evq.count = s.evq.count + 1 ∧ t.fld CAL_CMD_STAT.RESULT 0 = 1 ∧ t.flag CAL_CMD_STAT.BUSY 0 = false)) ∧
  (∀ (s : State) (path : Path) (k : Fin 8) (sl : Fin 34), ∃ t, exec (.calClearSuspect path k sl) s = .next t ∧
    t.flag CNV_SL_STATE.SUSPECT (34 * k + sl) = false ∧ t.cal = s.cal ∧
    t.fld CNV_SL_STATE.REJECTS (34 * k + sl) = s.fld CNV_SL_STATE.REJECTS (34 * k + sl) ∧ t.fld CAL_CMD_STAT.RESULT 0 = 1 ∧
    (∀ i, i ≠ 34 * k.val + sl.val → t.reg .CNV_SL_STATE i = s.reg .CNV_SL_STATE i)) ∧
  (∀ (s : State) (path : Path) (k : Fin 8) (sl : Fin 34) (whole : Bool), ∃ t, exec (.calCopy path k sl whole) s = .next t ∧
    t.fld CAL_CMD_STAT.RESULT 0 = 1 ∧ t.cal = { s.cal with host := t.cal.host } ∧
    (∀ x, x < 34 → Table.getD t.cal.host (34 * k + x) {} =
      if whole = true ∨ x = sl.val then s.calEntry (34 * k + x) else Table.getD s.cal.host (34 * k + x) {}) ∧
    (∀ e, (e < 34 * k.val ∨ 34 * k.val + 34 ≤ e) → Table.getD t.cal.host e {} = Table.getD s.cal.host e {}))

/-- The oldest request of the pantry is the one for a unit. -/
def askFront (s : State) (kind : BitVec 4) (unit : BitVec 16) : Prop :=
  ∃ a rest, s.pan.asks = a :: rest ∧ a.kind = kind.toNat ∧ a.unit = unit.toNat

/-- The pantry may start swaps. -/
def panFree (s : State) : Prop :=
  s.commitPending = false ∧ s.dev ≠ .safe ∧ s.dev ≠ .standby ∧ s.dev ≠ .off

/-- The timers of the rotations and of the telemetry have run their periods (R515, R517, R524). -/
abbrev rotDue (s : State) (d : Fin 2) : Prop :=
  s.timerDue (tmRotation d) (s.fld PAN_ROT.TILE_MIN 0 * 60 * sCycles / 32) = true
abbrev opalDue (s : State) : Prop := s.timerDue tmOpal (s.fld PAN_ROT.OPAL_MIN 0 * 60 * sCycles) = true
abbrev telDue (s : State) : Prop := s.timerDue tmTel (s.fld PAN_ROT.TEL_MIN 0 * 60 * sCycles) = true

/-- The pantry's commands and timers. -/
def Obligations.PantryCommands : Prop :=
  (∀ (s : State) (path : Path) (kind : BitVec 4) (unit : BitVec 16), ¬ askFront s kind unit →
    exec (.panApprove path kind unit) s = .next ((s.panResult 3).wrote path .PAN_CMD 0) ∧
    exec (.panDecline path kind unit) s = .next ((s.panResult 3).wrote path .PAN_CMD 0)) ∧
  (∀ (s : State) (path : Path) (kind : BitVec 4) (unit : BitVec 16), askFront s kind unit →
    (s.commitPending = true → exec (.panApprove path kind unit) s = .next ((s.panResult 4).wrote path .PAN_CMD 0)) ∧
    (∃ t, exec (.panDecline path kind unit) s = .next t ∧ t.pan.asks = s.pan.asks.tail ∧ t.fld PAN_CMD_STAT.RESULT 0 = 1 ∧
      (kind.toNat, unit.toNat, s.now) ∈ t.pan.declined ∧ t.pan = { s.pan with asks := t.pan.asks, declined := t.pan.declined } ∧
      t.evq = s.evq ∧ t.mem = s.mem) ∧
    (s.commitPending = false → ∃ t, exec (.panApprove path kind unit) s = .next t ∧ t.pan.asks = s.pan.asks.tail ∧
      ((t.flag PAN_CMD_STAT.BUSY 0 = true ∧ t.fld PAN_CMD_STAT.RESULT 0 = 0 ∧ t.pan.approved = some (kind.toNat, unit.toNat)) ∨
        (t.flag PAN_CMD_STAT.BUSY 0 = false ∧ (t.fld PAN_CMD_STAT.RESULT 0 = 2 ∨ t.fld PAN_CMD_STAT.RESULT 0 = 5))))) ∧
  (∀ (s : State) (path : Path) (unit : BitVec 16) (k : Fin 8) (sl : Fin 34) (p : Nat), panFree s → unit.toNat = 34 * k.val + sl →
    s.sliceServes k sl = true → s.role kSLICE (34 * k + sl) ≠ roRETIRED → s.freeSlice k sl = some p →
    (∃ t, exec (.panSwap path 0 unit) s = .next t ∧ t.flag PAN_CMD_STAT.BUSY 0 = true ∧ t.fld PAN_CMD_STAT.RESULT 0 = 0 ∧
      (∃ j ∈ (t.calDie k).queue, j.slice = sl.val ∧ j.task = .swap .host) ∧ t.evq = s.evq) ∧
    (askFront s 0 unit → ∃ t, exec (.panApprove path 0 unit) s = .next t ∧ t.fld PAN_CMD_STAT.RESULT 0 = 0 ∧
      t.flag PAN_CMD_STAT.BUSY 0 = true ∧ t.pan.approved = some (0, unit.toNat) ∧
      t.pan.asks = s.pan.asks.tail ∧ (∃ j ∈ (t.calDie k).queue, j.slice = sl.val ∧ j.task = .swap .wear))) ∧
  (∀ (s : State) (path : Path) (unit : BitVec 16) (k : Fin 8) (sl : Fin 34), panFree s → unit.toNat = 34 * k.val + sl →
    s.sliceServes k sl = true → s.role kSLICE (34 * k + sl) ≠ roRETIRED → s.freeSlice k sl = none →
    (s.spareBusy k = false → ∃ t, exec (.panSwap path 0 unit) s = .next t ∧ t.fld PAN_CMD_STAT.RESULT 0 = 2 ∧
      t.flag PAN_CMD_STAT.BUSY 0 = false ∧ t.evq.count = s.evq.count + 1 ∧ t.cal = s.cal) ∧
    (s.spareBusy k = true → ∃ t, exec (.panSwap path 0 unit) s = .next t ∧ t.flag PAN_CMD_STAT.BUSY 0 = true ∧
      (∃ j ∈ (t.calDie k).queue, j.slice = sl.val ∧ j.task = .swap .host) ∧ t.evq = s.evq)) ∧
  (∀ (s : State) (path : Path) (unit : BitVec 16) (g n : Nat), panFree s → unit.toNat < 68 → s.groupOf unit.toNat = some g →
    Table.get? s.pan.migs (dieOf unit.toNat) = none → s.freeSpare kTILE (dieTiles (dieOf unit.toNat)) = some n →
    n ≠ unit.toNat → ∃ t, exec (.panSwap path 1 unit) s = .next t ∧ t.flag PAN_CMD_STAT.BUSY 0 = true ∧
      Table.get? t.pan.migs (dieOf unit.toNat) = some { group := g, old := unit.toNat, spare := n, cause := .host } ∧
      t.role kTILE n = roSPARE ∧ (t.tile n).state = gtLOADING ∧ (t.tile n).muted = (s.tile unit.toNat).runs ∧
      t.groupOf n = some g ∧ t.tile unit.toNat = s.tile unit.toNat ∧ t.mem = s.mem) ∧
  (∀ (s : State) (path : Path) (unit : BitVec 16), panFree s → unit.toNat < 128 → Table.get? s.cel.moved unit.toNat = none →
    s.pc unit.toNat = .ok → s.pan.move = none → ∃ t, exec (.panSwap path 3 unit) s = .next t ∧
      match s.freeReserve unit.toNat with
      | some q => t.pan.move = some { hpc := unit.toNat, reserve := q, dead := false, cause := .host, since := s.now } ∧
          t.flag PAN_CMD_STAT.BUSY 0 = true ∧ t.evq = s.evq
      | none => t.pan.move = none ∧ t.fld PAN_CMD_STAT.RESULT 0 = 2 ∧ t.evq.count = s.evq.count + 1) ∧
  (∀ (s : State) (path : Path) (unit : BitVec 16), panFree s → unit.toNat < 30 →
    let p := unit.toNat / 5
    (s.fld FAB_PORT_CFG.MODE p ≠ 1 ∨ bit (s.port p).lanes (unit.toNat % 5) = false →
      ∃ t, exec (.panSwap path 4 unit) s = .next t ∧ t.fld PAN_CMD_STAT.RESULT 0 = 5 ∧ t.pan = s.pan ∧ t.evq = s.evq) ∧
    (s.fld FAB_PORT_CFG.MODE p = 1 → bit (s.port p).lanes (unit.toNat % 5) = true → s.pan.lane = none →
      (s.spareLane p).isSome = true → ∃ t, exec (.panSwap path 4 unit) s = .next t ∧ t.flag PAN_CMD_STAT.BUSY 0 = true ∧
        t.port p = s.port p ∧ t.evq = s.evq ∧ (∃ w, t.pan.lane = some w ∧ w.kind = kLANE ∧ w.unit = unit.toNat ∧ w.cause = .host))) ∧
  (∀ (s : State) (path : Path) (unit : BitVec 16) (n : Nat), panFree s → unit.toNat < 9 → s.role kCORE unit.toNat ≠ roFREE →
    s.role kCORE unit.toNat ≠ roRETIRED → s.pan.core = none → s.freeSpare kCORE (List.range 9) = some n →
    ∃ t, exec (.panSwap path 5 unit) s = .next t ∧ Out.send .mailbox [unit.toNat] [] ∈ t.out ∧
      t.pan.core = some { core := unit.toNat, spare := n, cause := .host, since := s.now } ∧
      t.role kCORE unit.toNat = s.role kCORE unit.toNat ∧ t.evq = s.evq) ∧
  (∀ (s : State) (path : Path) (kind : BitVec 4) (unit : BitVec 16), s.commitPending = true → kind ≠ 8 →
    exec (.panSwap path kind unit) s = .next ((s.panResult 4).wrote path .PAN_CMD 0)) ∧
  (∀ (s : State) (path : Path) (kind : BitVec 4) (unit : BitVec 16), s.commitPending = false → s.dev = .safe →
    (∃ t, exec (.panSwap path kind unit) s = .next t ∧ t.fld PAN_CMD_STAT.RESULT 0 = 5 ∧ t.pan = s.pan ∧ t.cal = s.cal) ∧
    (∃ t, exec (.panRotateNow path kind unit) s = .next t ∧ t.fld PAN_CMD_STAT.RESULT 0 = 5 ∧ t.pan = s.pan) ∧
    exec (.panRetire path kind unit) s = .next ((s.panResult 5).wrote path .PAN_CMD 0)) ∧
  (∀ (s : State) (path : Path) (unit : BitVec 16), s.dev ≠ .safe →
    (∀ kind : BitVec 4, (kind = 1 ∧ unit.toNat < 68) ∨ (kind = 2 ∧ unit.toNat < 17) ∨ (kind = 5 ∧ unit.toNat < 9) →
      s.role kind.toNat unit.toNat = roFREE → ∃ t, exec (.panRetire path kind unit) s = .next t ∧
        t.role kind.toNat unit.toNat = roRETIRED ∧ t.fld PAN_CMD_STAT.RESULT 0 = 1 ∧ t.cal = s.cal ∧ t.tiles = s.tiles) ∧
    (unit.toNat < 272 → s.role kSLICE unit.toNat = roFREE → ∃ t, exec (.panRetire path 0 unit) s = .next t ∧
      t.role kSLICE unit.toNat = roRETIRED ∧ t.flag CNV_SL_STATE.SUSPECT unit.toNat = false ∧
      t.fld PAN_CMD_STAT.RESULT 0 = 1 ∧ t.cal = s.cal)) ∧
  (∀ (s : State) (path : Path) (kind : BitVec 4) (unit : BitVec 16), s.commitPending = true →
    ∃ t, exec (.panRotateNow path kind unit) s = .next t ∧ t.fld PAN_CMD_STAT.RESULT 0 = 4 ∧ t.pan = s.pan ∧ t.tiles = s.tiles) ∧
  (∀ (s : State) (d : Fin 2), (s.flag PAN_ROT.EN 0 = false ∨ ¬ rotDue s d) → exec (.rotationStep d) s = .next s) ∧
  (∀ (s : State) (d : Fin 2), s.flag PAN_ROT.EN 0 = true → rotDue s d → (s.rotReady d = false ∨ s.rotGroup d = none) →
    exec (.rotationStep d) s = .next ((s.timerSet (tmRotation d)).stat 0xB2 1)) ∧
  (∀ (s : State) (path : Path) (unit : BitVec 16) (d : Fin 2) (g n p : Nat), s.rotReady d = true → s.rotGroup d = some (g, n) →
    s.groupOf n = some g → dieOf n = d.val → s.freeSpare kTILE (dieTiles d) = some p → p ≠ n →
    (s.flag PAN_ROT.EN 0 = true → rotDue s d → ∃ t, exec (.rotationStep d) s = .next t ∧
      Table.get? t.pan.migs d = some { group := g, old := n, spare := p, cause := .rotation } ∧
      Table.getD t.pan.rotNext d 0 = (g + 1) % 32 ∧ t.role kTILE p = roSPARE ∧ t.epoch = s.epoch ∧ t.pan.rotNow = s.pan.rotNow) ∧
    (unit.toNat < 68 → dieOf unit.toNat = d.val → ∃ t, exec (.panRotateNow path 1 unit) s = .next t ∧ t.pan.rotNow = true ∧
      t.flag PAN_CMD_STAT.BUSY 0 = true ∧ t.fld PAN_CMD_STAT.RESULT 0 = 0 ∧
      (∃ m, Table.get? t.pan.migs d = some m ∧ m.old = n ∧ m.cause = .rotation))) ∧
  (∀ (s : State), (s.fld PAN_ROT.OPAL_MIN 0 = 0 ∨ ¬ opalDue s) → exec .opalRotation s = .next s) ∧
  (∀ (s : State), s.fld PAN_ROT.OPAL_MIN 0 ≠ 0 → opalDue s → (¬ panFree s ∨ s.freeSpare kOPAL (List.range 17) = none ∨
      s.oplSwap.isSome = true) → exec .opalRotation s = .next (s.timerSet tmOpal)) ∧
  (∀ (s : State) (n l : Nat), s.fld PAN_ROT.OPAL_MIN 0 ≠ 0 → opalDue s → panFree s → s.freeSpare kOPAL (List.range 17) = some n →
    s.oplSwap = none → ((List.range 16).map (fun i => (s.pan.oplNext + i) % 16)).find? (fun l => s.flag OPL_CFG.EN (s.oplPhys l)) = some l →
    ∃ t, exec .opalRotation s = .next t ∧ t.pan.oplNext = (l + 1) % 16 ∧ t.role kOPAL n = roSPARE ∧ t.mem = s.mem ∧
      ∃ w, t.oplSwap = some w ∧ w.logical = l ∧ w.old = s.oplPhys l ∧ w.new = n ∧ w.step = .waiting ∧ w.cause = .rotation) ∧
  (∀ (s : State) (x : PanSample), (s.dev = .off ∨ s.dev = .standby) → exec (.panMonitorSample x) s = .next s) ∧
  (∀ (s : State) (x : PanSample), s.dev ≠ .off → s.dev ≠ .standby → ∃ t, exec (.panMonitorSample x) s = .next t ∧
    t.pan.sample = x ∧ (telDue s → t.pan.telHbm = t.pan.hbmCorr) ∧
    (s.dev = .safe → (∀ d, d < 11 → t.fld PAN_AGE.SLOW d = toU 16 (nth x.ages d 0)) ∧ t.pan.roles = s.pan.roles ∧
      t.pan.telNum = s.pan.telNum + (if telDue s then 1 else 0) ∧ t.pan.asks = s.pan.asks ∧ t.pan.waiting = s.pan.waiting ∧ t.cal = s.cal ∧
      (∀ d, d < 11 → (s.fld PAN_THR_A.AGE_PM 0 : Int) < nth x.ages d 0 → d ∈ t.pan.ageWarned) ∧
      ((s.telFull = true ∨ ¬ telDue s) → t.mem = s.mem ∧ t.fld PAN_TEL_PTR.TAIL 0 = s.fld PAN_TEL_PTR.TAIL 0) ∧
      (s.telFull = false → telDue s → s.fld PAN_TEL_PTR.TAIL 0 < s.telEntries → s.poisonedRange (s.telBase + 16384 * s.fld PAN_TEL_PTR.TAIL 0) 16384 = false →
        t.fld PAN_TEL_PTR.TAIL 0 = (s.fld PAN_TEL_PTR.TAIL 0 + 1) % s.telEntries % 2 ^ 16))) ∧
  (∀ (s : State), ((s.dev = .off ∨ s.timerDue tmHour (3600 * sCycles) = false) → exec .panHistoryHour s = .next s) ∧
    (s.dev ≠ .off → s.timerDue tmHour (3600 * sCycles) = true → ∃ t, exec .panHistoryHour s = .next t ∧
      t = { s with pan := t.pan, epoch := t.epoch, hk := t.hk } ∧
      t.pan.histNum = s.pan.histNum + 1 ∧ t.pan.hourTile = s.pan.tileEcc ∧ t.pan.hourHbm = s.pan.hbmCorr ∧
      t.pan.history.getLast? = some (s.telRecord s.pan.histNum s.pan.sample) ∧
      t.pan.history.length = min (s.pan.history.length + 1) 32768 ∧
      t.pan.roles = s.pan.roles))

/-- The ends of swaps. -/
def Obligations.SwapsEnd : Prop :=
  (∀ (s : State) (d : Fin 2), (Table.get? s.pan.migs d.val = none ∨ ∃ m, Table.get? s.pan.migs d.val = some m ∧ m.loaded = true) →
    exec (.migrationLoadDone d) s = .next s) ∧
  (∀ (s : State) (d : Fin 2) (m : Migration), Table.get? s.pan.migs d.val = some m → m.loaded = false → m.spare ≠ m.old →
    ∃ t, exec (.migrationLoadDone d) s = .next t ∧ t = { s with
        mem := t.mem, tiles := t.tiles, pan := t.pan, regs := t.regs, staged := t.staged, lv := t.lv, held := t.held, prog := { s.prog with gtTake := t.prog.gtTake } } ∧
      t.regs = copyGt s.regs m.old m.spare ∧ t.lv = copyGt s.lv m.old m.spare ∧
      Table.get? t.pan.migs d.val = some { m with loaded := true } ∧ t.pan.roles = s.pan.roles ∧
      (t.tile m.spare).params = (s.tile m.old).params ∧ (t.tile m.spare).pLv = (s.tile m.old).pLv ∧
      (t.tile m.spare).startAt = some (Table.getD (s.tile m.spare).wi 0 0 + s.samplesWithin (m.group / 8) (10 ^ 8)) ∧
      (∀ n, n ≠ m.spare → t.tile n = s.tile n)) ∧
  (∀ (s : State) (n : Fin 68), Table.get? s.pan.migs (dieOf n) = none →
    ((s.tile n).runs = false → exec (.haltEvent n) s = .next (s.setTile n { s.tile n with evp := (s.tile n).evp ||| 2 ^ evHALT })) ∧
    ((s.tile n).runs = true → ∃ t, exec (.haltEvent n) s = .next t ∧ (t.tile n).state = gtHALTED ∧ (t.tile n).haltCause = 2 ∧
      (t.tile n).pc = (s.tile n).pc ∧ t.evq.count = s.evq.count + 1 ∧ t.mem = s.mem ∧ t.pan = s.pan ∧
      (∀ q, q ≠ n.val → t.tile q = s.tile q))) ∧
  (∀ (s : State) (n : Fin 68) (m : Migration), Table.get? s.pan.migs (dieOf n) = some m → m.old = n.val → m.spare ≠ n.val →
    s.pan.waiting = [] → (s.tile m.spare).runs = true → (s.tile m.spare).muted = false → (s.tile m.spare).cutAfter = none →
    ∃ t, exec (.haltEvent n) s = .next t ∧ Table.get? t.pan.migs (dieOf n) = none ∧
      (t.tile m.spare).state = gtRUN ∧ t.groupOf m.spare = s.groupOf m.spare ∧ t.groupOf n = none ∧
      t.role kTILE n = (if m.retire then roRETIRED else roTEST) ∧ t.role kTILE m.spare = servingRole kTILE m.spare ∧
      (t.tile n).runs = false ∧ t.mem = s.mem ∧ s.evq.count + 1 ≤ t.evq.count) ∧
  (∀ (s : State) (n : Fin 68) (m : Migration), Table.get? s.pan.migs (dieOf n) = some m → m.old ≠ n.val →
    ∃ t, exec (.haltEvent n) s = .next t ∧ t.pan = s.pan ∧ ((s.tile n).runs = true → (t.tile n).state = gtHALTED) ∧
      (∀ q, q ≠ n.val → t.tile q = s.tile q)) ∧
  (∀ (s : State) (ren : Bool) (u : Fin 68) (fail : Option (Fin 4)) (rows : Option (Fin 33)),
    s.role (if ren then kOPAL else kTILE) u ≠ roTEST → exec (.selftestDone ren u fail rows) s = .next s) ∧
  (∀ (s : State) (u : Fin 68) (rows : Option (Fin 33)), s.role kTILE u = roTEST → s.pan.waiting = [] →
    let used := Table.getD s.pan.csUsed u.val 0
    let more := match rows with | some r => r.val | none => 0
    (∃ t, exec (.selftestDone false u none rows) s = .next t ∧ t.role kTILE u = roFREE ∧ (t.tile u).state = gtIDLE ∧
      (Table.getD t.pan.tests u.val (0, 0)) = ((Table.getD s.pan.tests u.val (0, 0)).1 + 1, 0) ∧ t.evq = s.evq) ∧
    (∀ (c : Fin 4), (rows.isSome = true → used + more ≤ 32 → ∃ t, exec (.selftestDone false u (some c) rows) s = .next t ∧
        t.role kTILE u = roFREE ∧ Table.getD t.pan.csUsed u.val 0 = used + more ∧ t.evq = s.evq) ∧
      (rows = none ∨ 32 < used + more → ∃ t, exec (.selftestDone false u (some c) rows) s = .next t ∧
        t.role kTILE u = roRETIRED ∧ (Table.getD t.pan.tests u.val (0, 0)).2 = 1 + c.val ∧ s.evq.count + 1 ≤ t.evq.count ∧
        t.tiles = s.tiles))) ∧
  (∀ (s : State) (u : Fin 68) (rows : Option (Fin 33)), s.role kOPAL u = roTEST → s.pan.waiting = [] →
    (∃ t, exec (.selftestDone true u none rows) s = .next t ∧ t.role kOPAL u = roFREE ∧ t.opals = s.opals ∧ t.evq = s.evq) ∧
    (∀ c : Fin 4, ∃ t, exec (.selftestDone true u (some c) rows) s = .next t ∧ t.role kOPAL u = roRETIRED ∧
      t.evq.count = s.evq.count + 2 ∧ t.pan.tests = s.pan.tests)) ∧
  (∀ (s : State), s.pan.move = none → exec .memMoveCopyDone s = .next s) ∧
  (∀ (s : State) (m : MemMove), s.pan.move = some m → m.dead = false → s.now < m.since + s.moveCycles →
    exec .memMoveCopyDone s = .next s) ∧
  (∀ (s : State) (m : MemMove), s.pan.move = some m → (m.dead = true ∨ m.since + s.moveCycles ≤ s.now) →
    s.pan.waiting = [] → ∃ t, exec .memMoveCopyDone s = .next t ∧
    t.pan.move = none ∧ Table.get? t.cel.moved m.hpc = some m.reserve ∧ (∀ h, h ≠ m.hpc → Table.get? t.cel.moved h =
      Table.get? s.cel.moved h) ∧ t.pc m.hpc = s.pc m.hpc ∧ s.evq.count + (if m.dead then 2 else 1) ≤ t.evq.count ∧
    ((m.cause = .host ∨ m.cause = .wear ∧ s.pan.approved = some (kMEM, m.hpc)) → t.fld PAN_CMD_STAT.RESULT 0 = 1 ∧ t.flag PAN_CMD_STAT.BUSY 0 = false) ∧
    (∀ a, (∀ r, s.region 6 0 = some r → 192 ≤ r.length ∧ (a < r.offset ∨ r.offset + r.length ≤ a)) →
      (m.dead = false → t.byte a = s.byte a) ∧
      (m.dead = true → m.hpc < 128 → s.gib ≤ 128 → t.byte a =
      if a < cellarSize ∧ a / 128 % 128 = m.hpc then (if a < s.gib * 2 ^ 30 ∧ a % 128 = 122 then 0xF0 else 0) else s.byte a))) ∧
  (∀ (s : State) (p : Fin 6) (ok : Bool), (s.pan.lane = none ∨ ∃ w, s.pan.lane = some w ∧ w.unit / 5 ≠ p.val) →
    exec (.laneSwap p ok) s = .next s) ∧
  (∀ (s : State) (p : Fin 6) (w : PanSwap), s.pan.lane = some w → w.unit / 5 = p.val → s.pan.waiting = [] →
    (∀ n, s.spareLane p = some n → n ≠ w.unit → ∃ t, exec (.laneSwap p true) s = .next t ∧ t.pan.lane = none ∧
      (t.port p).lanes = (s.port p).lanes - 2 ^ (w.unit % 5) + 2 ^ (n % 5) ∧ t.fld FAB_PORT_STAT.SPARE_LANE p = w.unit % 5 ∧
      t.role kLANE n = roSPARE ∧ t.role kLANE w.unit = roRETIRED ∧ t.fld FAB_PORT_STAT.STATE p = s.fld FAB_PORT_STAT.STATE p ∧
      t.evq.count = s.evq.count + 1 + b2n (t.freeSpare kLANE (List.range 30)).isNone ∧ (∀ q, q ≠ p.val → t.port q = s.port q)) ∧
    (∃ t, exec (.laneSwap p false) s = .next t ∧ t.pan = { s.pan with lane := none, approved := t.pan.approved } ∧ t.fab = s.fab ∧
      t.evq.count = s.evq.count + 1 ∧ ((w.cause = .host ∨ s.pan.approved = some (kLANE, w.unit)) →
        t.fld PAN_CMD_STAT.RESULT 0 = 5 ∧ t.pan.approved ≠ some (kLANE, w.unit)))) ∧
  (∀ (s : State), s.pan.core = none → exec .coreOfflineAck s = .next s ∧ exec .coreSwapTimeout s = .next s) ∧
  (∀ (s : State) (c : CoreSwap), s.pan.core = some c →
    (c.since + 150 * msCycles < s.now → exec .coreOfflineAck s = .next s) ∧
    (s.now ≤ c.since + 150 * msCycles → s.pan.waiting = [] → c.core ≠ c.spare → c.core < 9 → c.spare < 9 →
      ∃ t, exec .coreOfflineAck s = .next t ∧ t.pan.core = none ∧ t.role kCORE c.core = roRETIRED ∧
        t.role kCORE c.spare = roSPARE ∧ t.evq.count = s.evq.count + 2 ∧ (∀ u, u < 9 → u ≠ c.core → u ≠ c.spare →
          t.role kCORE u = s.role kCORE u)) ∧
    (s.now ≤ c.since + 150 * msCycles → exec .coreSwapTimeout s = .next s) ∧
    (c.since + 150 * msCycles < s.now → s.pan.waiting = [] → ∃ t, exec .coreSwapTimeout s = .next t ∧
      t.pan = { s.pan with core := none, approved := t.pan.approved } ∧
      t.evq.count = s.evq.count + 1 ∧ (c.cause = .host → t.fld PAN_CMD_STAT.RESULT 0 = 5)))

/-- A device in STANDBY that starts by itself as soon as a source is named (R532, R537, R539). -/
def autoStarts (s : State) : Prop :=
  s.dev = .standby ∧ s.flag PWR_SW_CFG.AUTO_START 0 = true ∧ s.pwr.hold = false ∧ s.pwr.resetLow = false ∧ s.sec.running.isSome = true

/-- The phases move to input `dest`; both inputs are to be converted at once (R534). -/
def moveStarts (s t : State) (dest cause : Nat) : Prop :=
  t.pwr.move = some ⟨dest, s.now, cause⟩ ∧ t.fld PWR_STATUS.SOURCE 0 = 2 ∧ t.pwr.retFrom = none ∧
  (s.hk.urgent = [] → t.hk.urgent = [40, 41]) ∧ t.dev = s.dev ∧ t.mem = s.mem ∧
  t.fld PWR_STATUS.PHASES_B 0 = s.fld PWR_STATUS.PHASES_B 0

/-- Supplies, switchover and the housekeeping ADC. -/
def Obligations.SuppliesAndAdc : Prop :=
  (∀ (s : State) (y : Fin 3) (g : Bool), (s.dev = .off ∨ (s.good y = g ∧ s.unsettled y = false)) →
    exec (.supplyCmpCrossing y g) s = .next s) ∧
  (∀ (s : State) (y : Fin 3) (g : Bool), s.dev ≠ .off → s.dev ≠ .standby → (s.good y ≠ g ∨ s.unsettled y = true) →
    ∃ t, exec (.supplyCmpCrossing y g) s = .next t ∧ t.good y = g ∧ t.unsettled y = false ∧
      bit (t.fld PWR_CMP_STAT.INBAND 0) y = false ∧ (∀ x, x < 3 → x ≠ y.val → t.good x = s.good x ∧ t.unsettled x = s.unsettled x) ∧
      t = { s with regs := t.regs, pwr := { s.pwr with retFrom := t.pwr.retFrom }, hk := t.hk } ∧ t.source = s.source ∧
      t.hk = (if g then s else s.timerSet (tmLow y) : State).hk ∧
      (y = 0 → g = false → t.pwr.retFrom = none) ∧
      (y = 0 → g = true → s.source = 1 → t.pwr.retFrom = some (s.pwr.retFrom.getD s.now)) ∧
      (y ≠ 0 → t.pwr = s.pwr)) ∧
  (∀ (s : State), autoStarts s →
    (s.good 0 = false → ∃ t, exec (.supplyCmpCrossing 0 true) s = .next t ∧ t.dev = .boot ∧ t.source = 0 ∧ t.pwr.rail = 2) ∧
    (s.good 0 = false → s.good 1 = false → s.unsettled 0 = true → ∃ t, exec (.supplyCmpCrossing 1 true) s = .next t ∧
      t.dev = .standby ∧ t.good 1 = true ∧ t.source = s.source) ∧
    (s.good 0 = false → s.good 1 = false → s.unsettled 0 = false → ∃ t, exec (.supplyCmpCrossing 1 true) s = .next t ∧
      t.dev = .boot ∧ t.source = 1 ∧ t.fld PWR_STATUS.PHASES_B 0 = 96)) ∧
  (∀ (s : State) (y st : Fin 3), (s.dev = .off ∨ s.unsettled y = false ∨
      s.timerDue (tmSettle y) (s.fld PWR_CMP_CFG.SETTLE y * usCycles) = false) → exec (.supplySettleEnd y st) s = .next s) ∧
  (∀ (s : State) (y st : Fin 3), s.dev ≠ .off → s.unsettled y = true →
    s.timerDue (tmSettle y) (s.fld PWR_CMP_CFG.SETTLE y * usCycles) = true →
    (st ≠ 1 → exec (.supplySettleEnd y st) s = exec (.supplyCmpCrossing y (decide (st = 2))) s) ∧
    (s.dev ≠ .standby → ∃ t, exec (.supplySettleEnd y 1) s = .next t ∧ t.good y = s.good y ∧ t.unsettled y = false ∧
      bit (t.fld PWR_CMP_STAT.INBAND 0) y = true ∧ t.flag PWR_FLAGS.INBAND_SEEN 0 = true ∧ t.evq.count = s.evq.count + 1)) ∧
  (∀ (s : State) (y : Fin 2), (s.good y = true ∨ s.unsettled y = true ∨
      s.timerDue (tmLow y) (usCycles / 5) = false ∨ (s.pwr.move = none ∧ s.source ≠ y.val)) →
    exec (.supplyQualifiedLow y) s = .next s) ∧
  (∀ (s : State) (y : Fin 2), s.good y = false → s.unsettled y = false → s.timerDue (tmLow y) (usCycles / 5) = true →
    (∀ m, s.pwr.move = some m → ∃ t, exec (.supplyQualifiedLow y) s = .next t ∧ y.val ∈ t.pwr.lowWaits ∧ t.pwr.move = some m ∧
      t = { s with pwr := t.pwr }) ∧
    (s.pwr.move = none → s.source = y → s.good (1 - y.val) = true → ∃ t, exec (.supplyQualifiedLow y) s = .next t ∧
      moveStarts s t (1 - y.val) 2 ∧ (y = 1 → t.flag PWR_STATUS.FORCED_B 0 = false)) ∧
    (s.pwr.move = none → s.source = y → s.good (1 - y.val) = false → ∃ t, exec (.supplyQualifiedLow y) s = .next t ∧
      t.dev = .standby ∧ t.mem = [] ∧ t.cal.vol = s.cal.vol ∧ t.pwr.faultN = true ∧ Out.pin .pwrgd false ∈ t.out ∧
      t.flag PWR_STATUS.PWRGD 0 = false ∧ t.source = 3 ∧ t.flag PWR_FLAGS.BOTH_FAIL_SEEN 0 = true ∧
      t.evq.count = s.evq.count + 1 ∧ t.good y = false)) ∧
  (∀ (s : State) (ns : BitVec 32), (∀ m, s.pwr.move = some m → s.now < m.since + 15 * (usCycles / 4)) →
    exec (.switchMoveDone ns) s = .next s) ∧
  (∀ (s : State) (ns : BitVec 32) (m : PwrMove), s.pwr.move = some m → m.dest ≤ 1 →
    m.since + 15 * (usCycles / 4) ≤ s.now →
    (s.pwr.lowWaits = [] → ∃ t, exec (.switchMoveDone ns) s = .next t ∧ t.pwr.move = none ∧ t.source = m.dest ∧
      t.fld PWR_STATUS.PHASES_B 0 = 96 * m.dest ∧ countsBy s t (if m.dest = 0 then PWR_SW_COUNT.TO_A else PWR_SW_COUNT.TO_B) 0 1 ∧
      t.reg .PWR_SW_LAST 0 = ns ∧ t.flag PWR_FLAGS.SW_SEEN 0 = true ∧ t.evq.count = s.evq.count + 1 ∧ t.mem = s.mem ∧
      (s.pwr.retFrom = none → t.pwr.retFrom = if m.dest = 1 ∧ s.good 0 = true then some s.now else none)) ∧
    (s.pwr.lowWaits = [m.dest] → s.good m.dest = false → s.good (1 - m.dest) = true →
      ∃ t, exec (.switchMoveDone ns) s = .next t ∧ t.pwr.move = some ⟨1 - m.dest, s.now, 2⟩ ∧ t.source = 2 ∧ t.pwr.lowWaits = [])) ∧
  (∀ (s : State), (s.returnPend = false ∨ s.source ≠ 1 ∨ s.good 0 = false) → exec .returnCountExpire s = .next s) ∧
  (∀ (s : State) (a : Nat), s.returnPend = true → s.source = 1 → s.good 0 = true → s.pwr.retFrom = some a →
    (s.now < a + s.fld PWR_SW_CFG.RETURN_MS 0 * msCycles → exec .returnCountExpire s = .next s) ∧
    (a + s.fld PWR_SW_CFG.RETURN_MS 0 * msCycles ≤ s.now → ∃ t, exec .returnCountExpire s = .next t ∧ moveStarts s t 0 0)) ∧
  (∀ (s : State) (path : Path), (s.source ≠ 1 ∨ s.good 0 = false ∨ (s.flag PWR_SW_CFG.AUTO_RETURN 0 = true ∧
      s.flag PWR_STATUS.FORCED_B 0 = false)) → exec (.returnA path) s = .next (s.wrote path .PWR_CMD 0)) ∧
  (∀ (s : State) (path : Path), s.source = 1 → s.good 0 = true → (s.flag PWR_SW_CFG.AUTO_RETURN 0 = false ∨
      s.flag PWR_STATUS.FORCED_B 0 = true) → ∃ t, exec (.returnA path) s = .next t ∧ moveStarts s t 0 1 ∧
      t.flag PWR_STATUS.FORCED_B 0 = false) ∧
  (∀ (s : State) (path : Path), (s.good 1 = false ∨ 2 ≤ s.source) → exec (.forceB path) s = .next (s.wrote path .PWR_CMD 0)) ∧
  (∀ (s : State) (path : Path), s.good 1 = true → s.source ≤ 1 → ∃ t, exec (.forceB path) s = .next t ∧
    t.flag PWR_STATUS.FORCED_B 0 = true ∧ t.returnPend = false ∧ (s.source = 0 → moveStarts s t 1 0) ∧
    (s.source = 1 → t.pwr = s.pwr ∧ t.source = 1)) ∧
  (∀ (s : State), (s.dev = .off ∨ s.flag HK_ADC_CFG.EN 0 = false ∨
      s.timerDue tmPass (s.fld HK_ADC_PERIOD.US 0 * usCycles) = false) → exec .adcPassTick s = .next s) ∧
  (∀ (s : State), s.dev ≠ .off → s.flag HK_ADC_CFG.EN 0 = true → s.timerDue tmPass (s.fld HK_ADC_PERIOD.US 0 * usCycles) = true →
    (s.hk.pos.isSome = true → s.hk.interrupted = true → exec .adcPassTick s = .next (s.timerSet tmPass)) ∧
    (s.hk.pos.isSome = true → s.hk.interrupted = false → ∃ t, exec .adcPassTick s = .next t ∧
      countsBy s t HK_ADC_STAT.OVERRUN 0 1 ∧ t.hk.pos = s.hk.pos ∧ t.hk.urgent = s.hk.urgent) ∧
    (s.hk.pos = none → s.hk.urgent = [] → 0 < s.fld HK_ADC_CFG.LEN 0 → ∃ t, exec .adcPassTick s = .next t ∧
      t.hk.pos = some 0 ∧ t.flag HK_ADC_STAT.BUSY 0 = true ∧ t.fld HK_ADC_STAT.CUR 0 = s.adcEntry 0 ∧ t.evq = s.evq)) ∧
  (∀ (s : State) (v : BitVec 16), s.timerDue tmConversion s.adcTime = false → exec (.adcConversionDone v) s = .next s) ∧
  (∀ (s : State) (v : BitVec 16), s.hk.urgent = [] → s.hk.pos = none → s.timerDue tmConversion s.adcTime = true →
    exec (.adcConversionDone v) s = .next (s.timerSet tmConversion)) ∧
  (∀ (s : State) (v : BitVec 16) (n : Nat), s.hk.urgent = [] → s.hk.pos = some n → s.dev ≠ .boot → s.dev ≠ .off →
    s.timerDue tmConversion s.adcTime = true →
    let i := s.adcEntry n
    let warn : Int := (100 * s.fld HK_THERM.WARN 0 : Nat)
    ∃ t, exec (.adcConversionDone v) s = .next t ∧ t.dev = s.dev ∧
      (s.adcPowered i = false → t.fld HK_RESULT.VALUE i = 0x8000 ∧ t.fld HK_RESULT.PASS i = s.fld HK_RESULT.PASS i) ∧
      (s.adcPowered i = true → t.fld HK_RESULT.VALUE i = v.toNat ∧ t.fld HK_RESULT.PASS i = (s.fld HK_RESULT.PASS i + 1) % 65536) ∧
      (s.adcPowered i = true → i < 40 → t.siteTemp i = v.toInt ∧ (i ∈ t.pwr.above ↔ warn < v.toInt) ∧
        t.evq.count = s.evq.count + (if warn < v.toInt ∧ i ∉ s.pwr.above then 1 else 0)) ∧
      (n + 1 < s.fld HK_ADC_CFG.LEN 0 → t.hk.pos = some (n + 1) ∧ t.fld HK_ADC_STAT.CUR 0 = s.adcEntry (n + 1)) ∧
      (s.fld HK_ADC_CFG.LEN 0 ≤ n + 1 → t.hk.pos = none ∧ t.flag HK_ADC_STAT.BUSY 0 = false)) ∧
  (∀ (s : State) (v : BitVec 16) (i : Nat) (rest : List Nat), s.hk.urgent = i :: rest → i < 64 → s.dev ≠ .boot →
    s.timerDue tmConversion s.adcTime = true →
    s.adcPowered i = true → ∃ t, exec (.adcConversionDone v) s = .next t ∧ t.hk.urgent = rest ∧
      t.fld HK_URGENT_RES.INPUT 0 = i ∧ t.fld HK_URGENT_RES.VALUE 0 = v.toNat ∧ t.adcReading i = v.toNat ∧
      t.fld HK_RESULT.PASS i = s.fld HK_RESULT.PASS i ∧ (rest = [] → t.flag HK_ADC_STAT.URGENT_BUSY 0 = false)) ∧
  (∀ (s : State) (path : Path) (i : BitVec 6),
    (4 ≤ s.hk.urgent.length → ∃ t, exec (.adcUrgent path i) s = .next t ∧ countsBy s t HK_ADC_STAT.URG_LOST 0 1 ∧ t.hk = s.hk) ∧
    (s.hk.urgent.length < 4 → ∃ t, exec (.adcUrgent path i) s = .next t ∧ t.hk.urgent = s.hk.urgent ++ [i.toNat] ∧
      t.hk.pos = s.hk.pos ∧ (s.hk.urgent = [] → t.fld HK_ADC_STAT.CUR 0 = i.toNat ∧ t.flag HK_ADC_STAT.URGENT_BUSY 0 = true ∧
        t.fld HK_ADC_STAT.ABORTS 0 = (s.fld HK_ADC_STAT.ABORTS 0 + b2n s.hk.pos.isSome) % 16)))

/-- The engine is off: STANDBY, memory lost, no source, PWRGD low, every sequence ended (R537, R542). -/
def engineIsOff (t : State) : Prop :=
  t.dev = .standby ∧ t.mem = [] ∧ t.source = 3 ∧ t.fld PWR_STATUS.PHASES_B 0 = 0 ∧ t.flag PWR_STATUS.PWRGD 0 = false ∧
  Out.pin .pwrgd false ∈ t.out ∧ t.pwr.rail = 0 ∧ t.pwr.move = none ∧ t.pwr.down = none ∧ t.sec.osReady = false

/-- The hub's sites have cooled, and 60 s have passed since the stop at a (R544). -/
def mayWake (s : State) (a : Nat) : Prop :=
  a + 60 * sCycles ≤ s.now ∧ ∀ i, i < 8 → s.siteTemp (24 + i) ≤ (100 * s.fld HK_THERM.WARN 0 : Int) - 1000

/-- Power states. -/
def Obligations.PowerStates : Prop :=
  (∀ (s : State) (path : Path) (forced : Bool), s.dev ≠ .held → s.dev ≠ .run → s.dev ≠ .service →
    exec (.pwrStandby path forced) s = .next (s.wrote path .PWR_CMD 0)) ∧
  (∀ (s : State) (path : Path), (s.dev = .held ∨ s.dev = .run ∨ s.dev = .service) →
    (s.pwr.down = none → ∃ t, exec (.pwrStandby path false) s = .next t ∧ t.pwr.down = some s.now ∧ t.dev = s.dev ∧
      Out.send .mailbox [0x100] [] ∈ t.out ∧ t = { s with pwr := t.pwr, out := t.out }) ∧
    (s.pwr.down.isSome = true → exec (.pwrStandby path false) s = .next (s.wrote path .PWR_CMD 0)) ∧
    (∃ t, exec (.pwrStandby path true) s = .next t ∧ engineIsOff t)) ∧
  (∀ (s : State) (reported : Bool), s.pwr.down = none → exec (.osShutdownDone reported) s = .next s) ∧
  (∀ (s : State) (a : Nat), s.pwr.down = some a →
    (∃ t, exec (.osShutdownDone true) s = .next t ∧ engineIsOff t) ∧
    (s.now < a + 30 * sCycles → exec (.osShutdownDone false) s = .next s) ∧
    (a + 30 * sCycles ≤ s.now → exec (.osShutdownDone false) s = exec (.osShutdownDone true) s)) ∧
  (∀ (s : State) (path : Path), (s.dev ≠ .standby ∨ ∃ a, s.pwr.stopAt = some a ∧ ¬ mayWake s a) →
    exec (.wake path) s = .next (s.wrote path .PWR_CMD 0)) ∧
  (∀ (s : State) (path : Path), s.dev = .standby → (s.pwr.stopAt = none ∨ ∃ a, s.pwr.stopAt = some a ∧ mayWake s a) →
    (s.selectSource = none → ∃ t, exec (.wake path) s = .next t ∧ t.dev = .standby ∧ t.pwr.wake = true ∧
      t.pwr.hold = false ∧ t.pwr.stopAt = none ∧ t.regs = s.regs) ∧
    (∀ y, s.selectSource = some y → s.sec.running.isSome = true → s.pwr.resetLow = false →
      ∃ t, exec (.wake path) s = .next t ∧ t.dev = .boot ∧ t.source = y ∧ t.pwr.rail = 2 ∧ t.pwr.faultN = false ∧
        t.sec.bootAt = s.now ∧ t.fld PWR_STATUS.PHASES_B 0 = 96 * y)) ∧
  (∀ (s : State) (path : Path), s.dev = .off → exec (.pwrCycle path) s = .next (s.wrote path .PWR_CMD 0)) ∧
  (∀ (s : State) (path : Path), s.dev ≠ .off → ∃ t, exec (.pwrCycle path) s = .next t ∧ engineIsOff t ∧
    t.pwr.faultN = true ∧ t.pwr.hold = true ∧ t.rcv.cycleAt = some s.now ∧ t.fld SYS_RCV_STAT.STEP 0 = 3 ∧
    Out.pin .pwrCycleReq true ∈ t.out ∧ t.evq.count = s.evq.count + 1 ∧ t.cal.attic = s.cal.attic) ∧
  (∀ (s : State) (x : BitVec 16), s.dev = .off → exec (.vhkLow x) s = .next s) ∧
  (∀ (s : State) (x : BitVec 16), s.dev ≠ .off → ∃ t, exec (.vhkLow x) s = .next t ∧ t.flag PWR_FLAGS.VHK_LOW_SEEN 0 = true ∧
    t.evq.count = s.evq.count + 1 ∧ t.dev = s.dev ∧ t.mem = s.mem ∧ t.good 2 = false ∧
    (s.hk.urgent.length < 4 → t.hk.urgent = s.hk.urgent ++ [42])) ∧
  (∀ (s : State), ∃ t, exec .vhkPowerLoss s = .next t ∧ t.dev = .off ∧ t.mem = [] ∧ t.cal.vol = s.cal.attic ∧
    t.cal.attic = s.cal.attic ∧ t.sec.flash = s.sec.flash ∧ t.sec.owner = s.sec.owner ∧ t.sec.fwSvn = s.sec.fwSvn ∧
    t.sec.running = none ∧ t.sec.sessions = [] ∧ t.evq.count = 0 ∧ t.evq.attic = s.evq.attic ∧ t.pan.history = s.pan.history ∧
    t.cel.soft = s.cel.soft ∧ t.cel.moved = s.cel.moved ∧ t.hk = {} ∧ t.time = {} ∧ t.prog.force = [] ∧ t.staged = [] ∧
    t.fld PWR_STATUS.SOURCE 0 = 3 ∧ (∀ u, u < 272 → t.role kSLICE u = (if s.role kSLICE u = roRETIRED then roRETIRED
      else homeRole kSLICE u))) ∧
  (∀ (s : State), (s.dev = .off → ∃ t, exec .vhkPowerOn s = .next t ∧ t.dev = .standby ∧ t.mem = s.mem ∧ t.evq = s.evq ∧
      t.flag PWR_SW_CFG.AUTO_START 0 = s.sec.plat.autoStart ∧ (∀ r i, (r, i) ≠ (Reg.PWR_SW_CFG, 0) → t.reg r i = s.reg r i) ∧
      (∀ y, y < 3 → Table.get? t.hk.timers (tmSettle y) = some s.now) ∧ (∀ i, i < 16 → (t.tin i).since = s.now)) ∧
    (s.dev ≠ .off → exec .vhkPowerOn s = .next s)) ∧
  (∀ (s : State) (r : Fin 8), (s.dev ≠ .boot ∨ s.pwr.rail = 0) → exec .railStepDone s = .next s ∧ exec (.railFail r) s = .next s) ∧
  (∀ (s : State), s.dev = .boot → s.pwr.rail ≠ 0 →
    (s.pwr.rail < 7 → exec .railStepDone s = .next { s with pwr := { s.pwr with rail := s.pwr.rail + 1 } }) ∧
    (7 ≤ s.pwr.rail → s.pwr.resetLow = false → ∃ t, exec .railStepDone s = .next t ∧ t.dev = .boot ∧ t.pwr.rail = 0 ∧ t.sec.bootAt = s.now ∧
      Out.pin .pwrgd true ∈ t.out)) ∧
  (∀ (s : State) (r : Fin 8), s.dev = .boot → s.pwr.rail ≠ 0 → ∃ t, exec (.railFail r) s = .next t ∧ engineIsOff t ∧
    t.pwr.hold = true ∧ t.pwr.faultN = true ∧ t.evq.count = s.evq.count + 1 ∧
    (s.pwr.wake = false → ∀ y, ∃ q, exec (.supplyCmpCrossing y true) t = .next q ∧ q.dev = .standby)) ∧
  (∀ (s : State) (i : Fin 40), (s.dev = .off ∨ s.dev = .standby ∨ s.siteTemp i ≤ (100 * s.fld HK_THERM.STOP 0 : Int) ∨
      s.timerDue (tmOver i) msCycles = false) →
    exec (.overtempStop i) s = .next s) ∧
  (∀ (s : State) (i : Fin 40), s.dev ≠ .off → s.dev ≠ .standby → (100 * s.fld HK_THERM.STOP 0 : Int) < s.siteTemp i →
    s.timerDue (tmOver i) msCycles = true →
    ∃ t, exec (.overtempStop i) s = .next t ∧ engineIsOff t ∧ t.pwr.faultN = true ∧ t.pwr.hold = true ∧ t.pwr.wake = false ∧
      t.pwr.stopAt = some t.now ∧ t.flag PWR_FLAGS.OVERTEMP_SEEN 0 = true ∧
      (∀ path, exec (.wake path) t = .next (t.wrote path .PWR_CMD 0)))

/-- The candidates of the ROM, in order, for BOOTSEL[1:0] other than 3 (R551). -/
def romOrder (s : State) (bootsel : Nat) : List Nat :=
  match bootsel % 4 with
  | 0 => (match s.sec.pend with
          | some p => if s.sec.tries = 0 then [s.sec.active, 1 - s.sec.active] else [p, s.sec.active, 1 - s.sec.active]
          | none => [s.sec.active, 1 - s.sec.active])
  | 1 => [0]
  | _ => [1]

/-- The slot record names slots A and B. -/
def slotsOk (s : State) : Prop := s.sec.active ≤ 1 ∧ ∀ p, s.sec.pend = some p → p ≤ 1

/-- The boot chain. -/
def Obligations.BootChain : Prop :=
  (∀ (s : State) (b : BitVec 3), (s.dev ≠ .standby ∨ s.sec.running.isSome = true ∨ s.sec.recovery = true) →
    exec (.romBoot b) s = .next s) ∧
  (∀ (s : State) (b : BitVec 3), s.dev = .standby → s.sec.running = none → s.sec.recovery = false → ∃ t,
    exec (.romBoot b) s = .next t ∧ t.sec.bootsel = b.toNat ∧ t.sec.flash = s.sec.flash ∧
    (b.toNat % 4 = 3 → t.sec.recovery = true ∧ t.sec.running = none ∧ t.evq = s.evq) ∧
    (b.toNat % 4 ≠ 3 → (romOrder s b.toNat).find? s.slotValid = none → t.sec.recovery = true ∧ t.sec.running = none ∧
      t.pwr.faultN = true ∧ t.evq.attic = s.evq.attic ++ [.noFirmware]) ∧
    (∀ slot, b.toNat % 4 ≠ 3 → (romOrder s b.toNat).find? s.slotValid = some slot → t.sec.running = some slot ∧
      t.sec.trngOk = true ∧ t.sec.svn = le (s.slotBytes slot 6 1) 0 1 ∧ t.sec.pend = s.sec.pend ∧
      t.evq.count = s.evq.count + (if (romOrder s b.toNat).headD slot = slot then 1 else 2) ∧
      t.sec.tries = s.sec.tries - (if s.sec.pend = some slot then 1 else 0))) ∧
  (∀ (s : State) (b : BitVec 3), (s.dev ≠ .boot ∨ s.sec.running = none ∨ s.now < s.sec.bootAt + 30 * sCycles) →
    exec (.bootWatchdog b) s = .next s) ∧
  (∀ (s : State) (b : BitVec 3) (f : Nat), s.dev = .boot → s.sec.running = some f → s.sec.bootAt + 30 * sCycles ≤ s.now →
    slotsOk s → ∃ t, exec (.bootWatchdog b) s = .next t ∧ t.mem = [] ∧ t.sec.flash = s.sec.flash ∧ t.sec.owner = s.sec.owner ∧
    t.sec.fwSvn = s.sec.fwSvn ∧ t.cal.attic = s.cal.attic ∧ t.sec.bootsel = b.toNat ∧
    (b.toNat % 4 = 3 → t.sec.recovery = true ∧ t.sec.running = none) ∧
    (b.toNat % 4 ≠ 3 → (romOrder s b.toNat).find? s.slotValid = none → t.sec.recovery = true ∧ t.sec.running = none ∧
      .noFirmware ∈ t.evq.attic) ∧
    (∀ slot, b.toNat % 4 ≠ 3 → (romOrder s b.toNat).find? s.slotValid = some slot → t.sec.running = some slot ∧
      (slot ≠ f → 2 ≤ t.evq.count) ∧
      t.sec.tries = s.sec.tries - (if s.sec.pend = some slot then 1 else 0))) ∧
  (∀ (s : State) (img : List Byte), (s.sec.recovery = false ∨ s.dev = .off) → exec (.uartRecoveryImage img) s = .next s) ∧
  (∀ (s : State) (img : List Byte), s.sec.recovery = true → s.dev ≠ .off → ∃ t, exec (.uartRecoveryImage img) s = .next t ∧
    (if firmwareValid (fun a n => (img.drop a).take n) s.sec.fwSvn = true
     then t.sec.running = some 2 ∧ t.sec.image = img ∧ t.sec.recovery = false ∧ t.sec.flash = s.sec.flash ∧
       t.sec.active = s.sec.active ∧ t.evq.count = s.evq.count + 1
     else t = s)) ∧
  (∀ (s : State) (gpio : BitVec 12), s.bootReady = false → exec (.bootEnd gpio) s = .next s) ∧
  (∀ (s : State) (gpio : BitVec 12), s.bootReady = true → (s.bootAuto = 0 ∨ s.prog.boot = []) → ∃ t,
    exec (.bootEnd gpio) s = .next t ∧ t.dev = .held ∧ t.rcv.warmAt = none ∧ t.fld SYS_RCV_STAT.STEP 0 = 0 ∧
    t.pwr.strap = gpio.toNat ∧ s.evq.count + 1 ≤ t.evq.count ∧ t.prog.commit = none ∧
    (∀ p : Fin 2, t.flag PCI_CTRL.EN p = bit s.sec.plat.pci (2 * p) ∧ t.flag PCI_CTRL.ROLE p = bit s.sec.plat.pci (2 * p + 1) ∧
      ∀ l, s.sec.plat.pciLimits[p.val]? = some l → l.1 < 8 → l.2 < 4 →
        t.fld PCI_CTRL.MAX_SPEED p = l.1 ∧ t.fld PCI_CTRL.MAX_WIDTH p = l.2) ∧
    (∀ p, s.sec.pend = some p → s.sec.running = some p → t.sec.active = p ∧ t.sec.pend = none ∧ t.sec.tries = 0) ∧
    (s.sec.pend ≠ s.sec.running → t.sec.active = s.sec.active ∧ t.sec.pend = s.sec.pend)) ∧
  (∀ (s : State) (gpio : BitVec 12), s.bootReady = true → s.bootAuto ≠ 0 → s.prog.boot ≠ [] → ∃ t,
    exec (.bootEnd gpio) s = .next t ∧ t.rcv.warmAt = none ∧ (t.prog.commit = none → t.dev = .held) ∧
    (s.bootAuto = 2 → imgSigned s.prog.boot = false → t.dev = .held)) ∧
  (∀ (s : State), ((s.dev = .off ∨ s.dev = .standby ∨ s.dev = .boot) → exec .osReady s = .next s) ∧
    (s.dev ≠ .off → s.dev ≠ .standby → s.dev ≠ .boot → exec .osReady s = .next { s with sec := { s.sec with osReady := true } })) ∧
  (∀ (s : State) (a : Bool), (s.sec.running = none → exec (.trngFail a) s = .next s) ∧
    (s.sec.running.isSome = true → ∃ t, exec (.trngFail a) s = .next t ∧ t.sec.trngOk = false ∧ t.sec.waits = s.sec.waits ∧
      t.evq.count = s.evq.count + 1)) ∧
  (∀ (s : State), (s.sec.trngOk = true ∨ s.sec.running = none) → exec .trngRecovered s = .next s) ∧
  (∀ (s : State), s.sec.trngOk = false → s.sec.running.isSome = true →
    (s.sec.waits = [] → exec .trngRecovered s = .next { s with sec := { s.sec with trngOk := true } }) ∧
    (s.sec.waits = [.chalReg] → ∃ t, exec .trngRecovered s = .next t ∧ t.sec.trngOk = true ∧ t.sec.waits = [] ∧
      t.sec.chal = some (Config.random s.free 32, s.now) ∧ t.free = s.free + 1 ∧
      ∀ n : Fin 8, t.reg .SEC_DBG_CHAL n = BitVec.ofNat 32 (le (Config.random s.free 32) (4 * n) 4)) ∧
    (∀ req, s.sec.waits = [.challenge .secCmd req] → ∃ t, exec .trngRecovered s = .next t ∧ t.sec.waits = [] ∧
      t.fld SEC_CMD_STAT.STATUS 0 = 0 ∧ t.flag SEC_CMD_STAT.BUSY 0 = false ∧ t.sec.chal = some (Config.random s.free 32, s.now)) ∧
    (s.sec.waits = [.fabric] → ∃ t, exec .trngRecovered s = .next t ∧ t.fab.on = true ∧ t.fab.inc = ofLe (Config.random s.free 4)))

/-- A request of session y on connection c that has neither been answered nor waits. -/
def freshReq (s : State) (c : Nat) (y : Session) (req : Nat) : Prop :=
  s.session c = some y ∧ (∀ e ∈ y.cache, e.1 ≠ req) ∧ TrngAsk.challenge (.session c) req ∉ s.sec.waits

/-- The request was answered: the response is out, and cached for a retry (R565, R567). -/
def answered (s t : State) (c : Nat) (y : Session) (req op status : Nat) (body : List Byte) : Prop :=
  t.out = .czResp c req op status 0 body :: s.out ∧
  (t.session c).map (·.cache) = some ((y.cache ++ [(req, status, body)]).drop (y.cache.length + 1 - 1024))

/-- A request arrives whole in the mailbox with its last word (R563). -/
def mboxWhole (b : List Byte) (op : Nat) : Prop :=
  b.take 4 = [0x43, 0x5A, 1, 1] ∧ le b 4 2 = op ∧ 32 + le b 16 4 ≤ b.length

/-- Sessions of the control protocol, reports and the mailbox. -/
def Obligations.SessionsAndReports : Prop :=
  (∀ (s : State) (c : Nat) (key issuer : List Byte),
    let live := s.sec.conns.length + (s.sec.sessions.filter (fun y => y.conn.isSome)).length
    (s.sec.running = none ∨ s.dev = .off ∨ c ∈ s.sec.conns ∨ (s.session c).isSome = true ∨ 8 ≤ live →
      exec (.czSessionConnect c key issuer) s = .next s) ∧
    (s.sec.running.isSome = true → s.dev ≠ .off → c ∉ s.sec.conns → s.session c = none → live < 8 →
      (s.sec.owner = none ∨ (∃ o, s.sec.owner = some o ∧ (key ∈ o.keys ∨ issuer ∈ o.keys)) →
        exec (.czSessionConnect c key issuer) s = .next { s with sec := { s.sec with conns := s.sec.conns ++ [c] } }) ∧
      (∀ o, s.sec.owner = some o → key ∉ o.keys → issuer ∉ o.keys → ∃ t, exec (.czSessionConnect c key issuer) s = .next t ∧
        t.sec = s.sec ∧ t.evq.count = s.evq.count + 1))) ∧
  (∀ (s : State) (c : Nat) (req sid : BitVec 64), c ∉ s.sec.conns →
    exec (.czOpen c req) s = .next s ∧ exec (.sessionResume c req sid) s = .next s) ∧
  (∀ (s : State) (c : Nat) (req : BitVec 64), c ∈ s.sec.conns → s.session c = none → ∃ t id, exec (.czOpen c req) s = .next t ∧
    t.out = .czResp c req.toNat 0x01 0 0 (leBytes 8 id) :: s.out ∧ t.session c = some ⟨some c, id, [(req.toNat, 0, leBytes 8 id)], none, none⟩ ∧
    c ∉ t.sec.conns ∧ t.free = s.free + 1) ∧
  (∀ (s : State) (c : Nat) (req sid : BitVec 64), c ∈ s.sec.conns → s.session c = none →
    ((∀ y ∈ s.sec.sessions, y.conn = none → y.id = sid.toNat → ∀ a, y.ended = some a → a + 60 * sCycles ≤ s.now) →
      exec (.sessionResume c req sid) s = .next (s.emit (.czResp c req.toNat 0x02 5 0 []))) ∧
    (∀ y a, s.sec.sessions = [y] → y.conn = none → y.id = sid.toNat → y.ended = some a → s.now < a + 60 * sCycles →
      ∃ t, exec (.sessionResume c req sid) s = .next t ∧ answered s t c y req.toNat 0x02 0 [] ∧ c ∉ t.sec.conns ∧
        (t.session c).map (·.id) = some y.id)) ∧
  (∀ (s : State) (c : Nat), ∃ t, exec (.czSessionEnd c) s = .next t ∧ t.session c = none ∧ c ∉ t.sec.conns ∧ t.out = s.out ∧
    (∀ y ∈ s.sec.sessions, y.conn = some c → { y with conn := none, floor := none, ended := some s.now } ∈ t.sec.sessions) ∧
    (∀ y ∈ s.sec.sessions, y.conn ≠ some c → y ∈ t.sec.sessions) ∧ t.sec.sessions.length = s.sec.sessions.length) ∧
  (∀ (s : State) (c : Nat) (req : BitVec 64) (b : List Byte) (f : BitVec 8),
    (s.session c = none →
      exec (.attest (.session c) req b) s = .next (s.emit (.czResp c req.toNat 0x40 2 0 [])) ∧
      exec (.getCert (.session c) req) s = .next (s.emit (.czResp c req.toNat 0x41 2 0 [])) ∧
      exec (.czCalExport (.session c) req b) s = .next (s.emit (.czResp c req.toNat 0x42 2 0 [])) ∧
      exec (.evqSubscribe c req f) s = .next (s.emit (.czResp c req.toNat 0x80 2 0 []))) ∧
    (∀ y e, s.session c = some y → y.cache.find? (fun x => x.1 == req.toNat) = some e →
      exec (.attest (.session c) req b) s = .next (s.emit (.czResp c req.toNat 0x40 1 e.2.1 e.2.2)) ∧
      exec (.getCert (.session c) req) s = .next (s.emit (.czResp c req.toNat 0x41 1 e.2.1 e.2.2)) ∧
      exec (.czCalExport (.session c) req b) s = .next (s.emit (.czResp c req.toNat 0x42 1 e.2.1 e.2.2)) ∧
      exec (.evqSubscribe c req f) s = .next (s.emit (.czResp c req.toNat 0x80 1 e.2.1 e.2.2)))) ∧
  (∀ (s : State) (c : Nat) (y : Session) (req : BitVec 64) (b : List Byte), freshReq s c y req.toNat →
    (b.length = 32 → ∃ t r, exec (.attest (.session c) req b) s = .next t ∧ answered s t c y req.toNat 0x40 0 r ∧
      r.take 4 = [0x43, 0x5A, 0x41, 0x54] ∧ slice r 8 8 = leBytes 8 s.uid ∧ slice r 16 32 = b ∧
      r = s.report b ∧ t.regs = s.regs ∧ t.mem = s.mem) ∧
    (b.length ≠ 32 → ∃ t, exec (.attest (.session c) req b) s = .next t ∧ answered s t c y req.toNat 0x40 2 []) ∧
    (∃ t, exec (.getCert (.session c) req) s = .next t ∧ answered s t c y req.toNat 0x41 0 Config.certificate) ∧
    (∀ v, b = [v] → v.toNat ≤ 1 → ∃ t, exec (.czCalExport (.session c) req b) s = .next t ∧
      answered s t c y req.toNat 0x42 0 (s.calRecord (v.toNat == 1)) ∧ t.cal = s.cal) ∧
    (b.length ≠ 1 → ∃ t, exec (.czCalExport (.session c) req b) s = .next t ∧ answered s t c y req.toNat 0x42 2 []) ∧
    (∀ f : BitVec 8, ∃ t, exec (.evqSubscribe c req f) s = .next t ∧ answered s t c y req.toNat 0x80 0 [] ∧
      (t.session c).map (·.floor) = some (if f = 0xFF then none else some f.toNat))) ∧
  (∀ (s : State) (req : BitVec 64) (b : List Byte),
    exec (.attest .jtag req b) s = .next (s.czAnswer .jtag req.toNat 0x40 3 []) ∧
    exec (.getCert .jtag req) s = .next (s.czAnswer .jtag req.toNat 0x41 3 []) ∧
    exec (.czCalExport .jtag req b) s = .next (s.czAnswer .jtag req.toNat 0x42 3 [])) ∧
  (∀ (s : State) (req : BitVec 64) (b : List Byte), (b.length ≠ 32 → ∃ t, exec (.attest .secCmd req b) s = .next t ∧
      t.fld SEC_CMD_STAT.STATUS 0 = 2 ∧ t.flag SEC_CMD_STAT.BUSY 0 = false) ∧
    (∃ t, exec (.getCert .secCmd req) s = .next t ∧ t.fld SEC_CMD_STAT.STATUS 0 = 0 ∧ t.flag SEC_CMD_STAT.BUSY 0 = false) ∧
    (∃ t, exec (.czCalExport .secCmd req b) s = .next t ∧ t.flag SEC_CMD_STAT.BUSY 0 = false ∧
      t.fld SEC_CMD_STAT.STATUS 0 = (if b.length = 1 ∧ le b 0 1 ≤ 1 then 0 else 2))) ∧
  (∀ (s : State) (req : BitVec 64) (b : List Byte), b.length = 32 → inSystem s.mboxAddr (s.report b).length = true →
    ∃ t, exec (.attest .secCmd req b) s = .next t ∧ t.fld SEC_CMD_STAT.STATUS 0 = 0 ∧ t.flag SEC_CMD_STAT.BUSY 0 = false) ∧
  (∀ (s : State) (v l : Bool) (w : BitVec 32), s.dev = .off → exec (.mboxWord v l w) s = .next s) ∧
  (∀ (s : State) (l : Bool) (w : BitVec 32), s.dev ≠ .off →
    (s.sec.mboxOut = [] → exec (.mboxWord false l w) s = .next (s.emit (.jtag false false 0))) ∧
    (∀ x rest, s.sec.mboxOut = x :: rest → exec (.mboxWord false l w) s =
      .next { s.emit (.jtag true (rest == []) x) with sec := { s.sec with mboxOut := rest } }) ∧
    (∃ t, exec (.mboxWord true false w) s = .next t ∧ t.sec.mboxIn = s.sec.mboxIn ++ [w] ∧ t.sec.mboxOut = s.sec.mboxOut.tail)) ∧
  (∀ (s : State) (w : BitVec 32) (op : Nat), s.dev ≠ .off →
    let b := ((s.sec.mboxIn ++ [w]).map (fun w => leBytes 4 w.toNat)).flatten
    (mboxWhole b op → op ≠ 0x70 → op ≠ 0x71 → ∃ t, exec (.mboxWord true true w) s = .next t ∧ t.sec.mboxIn = [] ∧
      t.sec.mboxOut = s.sec.mboxOut.tail ++ byteWords 9 (czHeader op 3 (le b 8 8) 0)) ∧
    (b.take 4 ≠ [0x43, 0x5A, 1, 1] → b.length = 32 → ∃ t, exec (.mboxWord true true w) s = .next t ∧ t.sec.mboxIn = [] ∧
      t.sec.mboxOut = s.sec.mboxOut.tail ++ byteWords 9 (czHeader (le b 4 2) 2 (le b 8 8) 0)) ∧
    (mboxWhole b 0x70 → s.sec.trngOk = true → ∃ t, exec (.mboxWord true true w) s = .next t ∧
      t.sec.chal = some (Config.random s.free 32, s.now)) ∧
    (mboxWhole b 0x71 → s.tokenOk (slice b 32 (le b 16 4)) = false → ∃ t, exec (.mboxWord true true w) s = .next t ∧
      t.sec.chal = none ∧ t.sec.scope = s.sec.scope ∧ t.evq.count = s.evq.count + 1 ∧
      t.sec.mboxOut = s.sec.mboxOut.tail ++ byteWords 9 (czHeader 0x71 3 (le b 8 8) 0)))

/-- The request can run: a session's REQ_ID has neither been answered nor waits (R567); the command buffer has no such
list; through the mailbox DEBUG_CHAL and DEBUG_TOKEN run (R563). -/
def mayRun (s : State) (src : CzSource) (req op : Nat) : Prop :=
  match src with
  | .session c => ∃ y, freshReq s c y req
  | .secCmd => True
  | .jtag => op = 0x70 ∨ op = 0x71

/-- A request without a response body has been answered with a status (R563, R565). -/
def replied (s t : State) (src : CzSource) (req op status : Nat) : Prop :=
  match src with
  | .session c => t.out.head? = some (.czResp c req op status 0 [])
  | .secCmd => t.fld SEC_CMD_STAT.STATUS 0 = status ∧ t.flag SEC_CMD_STAT.BUSY 0 = false
  | .jtag => t.sec.mboxOut = s.sec.mboxOut ++ byteWords 9 (czHeader op status req 0)

/-- Firmware, fuses, owner records and debug unlock. -/
def Obligations.FirmwareOwnerAndDebug : Prop :=
  (∀ (s : State) (src : CzSource) (req : BitVec 64) (b : List Byte), mayRun s src req.toNat 0x50 →
    let slot := le b 0 1
    let data := b.drop 5
    let base := slotSize * slot + le b 1 4
    (b.length < 5 ∨ 1 < slot ∨ slotSize < le b 1 4 + data.length → ∃ t, exec (.fwWrite src req b) s = .next t ∧
      replied s t src req.toNat 0x50 2 ∧ t.sec.flash = s.sec.flash) ∧
    (5 ≤ b.length → slot ≤ 1 → le b 1 4 + data.length ≤ slotSize → slot = s.sec.active → ∃ t,
      exec (.fwWrite src req b) s = .next t ∧ replied s t src req.toNat 0x50 5 ∧ t.sec.flash = s.sec.flash) ∧
    (5 ≤ b.length → slot ≤ 1 → le b 1 4 + data.length ≤ slotSize → slot ≠ s.sec.active → ∃ t,
      exec (.fwWrite src req b) s = .next t ∧ replied s t src req.toNat 0x50 0 ∧
      (∀ i, i < data.length → Table.getD t.sec.flash (base + i) 0 = data.getD i 0) ∧
      (∀ a, (a < base ∨ base + data.length ≤ a) → Table.getD t.sec.flash a 0 = Table.getD s.sec.flash a 0) ∧
      t.sec.active = s.sec.active ∧ t.sec.pend = s.sec.pend) ∧
    ((b.length ≠ 1 ∨ 1 < slot) → ∃ t, exec (.fwActivate src req b) s = .next t ∧ replied s t src req.toNat 0x51 2 ∧
      t.sec.pend = s.sec.pend) ∧
    (b.length = 1 → slot ≤ 1 → ∃ t, exec (.fwActivate src req b) s = .next t ∧ replied s t src req.toNat 0x51 0 ∧
      t.sec.pend = some slot ∧ t.sec.tries = 3 ∧ t.sec.active = s.sec.active ∧ t.sec.running = s.sec.running)) ∧
  (∀ (s : State) (src : CzSource) (req : BitVec 64) (ok : Bool), mayRun s src req.toNat 0x54 →
    (∃ t, exec (.lockFw src req ok) s = .next t ∧
      replied s t src req.toNat 0x54 (if s.sec.svn ≤ s.sec.fwSvn ∨ ok = true then 0 else 5) ∧
      t.sec.fwSvn = (if ok then max s.sec.fwSvn s.sec.svn else s.sec.fwSvn) ∧
      t.evq.count = s.evq.count + (if s.sec.svn ≤ s.sec.fwSvn then 0 else 1)) ∧
    (s.sec.owner = none → ∃ t, exec (.lockOwner src req ok) s = .next t ∧ replied s t src req.toNat 0x55 5 ∧
      t.sec.ownerSeq = s.sec.ownerSeq) ∧
    (∀ o, s.sec.owner = some o → ∃ t, exec (.lockOwner src req ok) s = .next t ∧
      replied s t src req.toNat 0x55 (if o.seq % 32 ≤ s.sec.ownerSeq ∨ ok = true then 0 else 5) ∧
      t.sec.ownerSeq = (if ok then max s.sec.ownerSeq (o.seq % 32) else s.sec.ownerSeq))) ∧
  (∀ (s : State) (src : CzSource) (req : BitVec 64) (b : List Byte), mayRun s src req.toNat 0x58 →
    (s.sec.owner = none → ∃ t, exec (.platformWrite src req b) s = .next t ∧
      (if b.length = 44 then replied s t src req.toNat 0x58 0 ∧ t.sec.plat = s.sec.plat.replace b
       else replied s t src req.toNat 0x58 2 ∧ t.sec.plat = s.sec.plat)) ∧
    (∀ o, s.sec.owner = some o → ∃ t, exec (.platformWrite src req b) s = .next t ∧
      (if b.length ≠ 120 then replied s t src req.toNat 0x58 2 ∧ t.sec.plat = s.sec.plat
       else if s.ownerSigned o b = true then replied s t src req.toNat 0x58 0 ∧ t.sec.plat = s.sec.plat.replace (slice b 12 44)
       else replied s t src req.toNat 0x58 3 ∧ t.sec.plat = s.sec.plat ∧ t.evq.count = s.evq.count + 1))) ∧
  (∀ (s : State) (src : CzSource) (req : BitVec 64) (b : List Byte), mayRun s src req.toNat 0x60 →
    (parseOwner b = none → ∃ t, exec (.ownerInstall src req b) s = .next t ∧ replied s t src req.toNat 0x60 2 ∧
      t.sec.owner = s.sec.owner) ∧
    (∀ o, parseOwner b = some o → ∃ t, exec (.ownerInstall src req b) s = .next t ∧ t.evq.count = s.evq.count + 1 ∧
      (s.sec.owner = none → s.presence = true → replied s t src req.toNat 0x60 0 ∧ t.sec.owner = some o ∧
        t.flag SYS_PRG_POLICY.SIG_REQ 0 = o.sigReq ∧ t.fld SYS_PRG_POLICY.AUTO 0 = o.auto) ∧
      (s.sec.owner.isSome = true ∨ s.presence = false → replied s t src req.toNat 0x60 3 ∧ t.sec.owner = s.sec.owner)) ∧
    (parseOwner (b.take (b.length - 64)) = none → ∃ t, exec (.ownerUpdate src req b) s = .next t ∧
      replied s t src req.toNat 0x61 2 ∧ t.sec.owner = s.sec.owner) ∧
    (∀ n, parseOwner (b.take (b.length - 64)) = some n → s.sec.owner = none → ∃ t, exec (.ownerUpdate src req b) s = .next t ∧
      replied s t src req.toNat 0x61 3 ∧ t.sec.owner = none) ∧
    (∀ n o, parseOwner (b.take (b.length - 64)) = some n → s.sec.owner = some o → ∃ t,
      exec (.ownerUpdate src req b) s = .next t ∧ t.evq.count = s.evq.count + 1 ∧ t.sec.ownerSeq = s.sec.ownerSeq ∧
      (if s.ownerSigned o b = true then replied s t src req.toNat 0x61 0 ∧ t.sec.owner = some n ∧ o.seq < le b 8 4
       else replied s t src req.toNat 0x61 3 ∧ t.sec.owner = some o)) ∧
    (s.sec.owner = none → ∃ t, exec (.ownerClear src req b) s = .next t ∧ replied s t src req.toNat 0x62 5 ∧ t.evq = s.evq) ∧
    (∀ o, s.sec.owner = some o → ∃ t, exec (.ownerClear src req b) s = .next t ∧ t.evq.count = s.evq.count + 1 ∧
      t.sec.fwSvn = s.sec.fwSvn ∧ t.sec.ownerSeq = s.sec.ownerSeq ∧
      (if s.presence = true ∨ (b.length = 76 ∧ s.ownerSigned o b = true)
       then replied s t src req.toNat 0x62 0 ∧ t.sec.owner = none ∧ t.flag SYS_PRG_POLICY.SIG_REQ 0 = false
       else replied s t src req.toNat 0x62 3 ∧ t.sec.owner = some o))) ∧
  (∀ (s : State) (src : CzSource) (req : BitVec 64), mayRun s src req.toNat 0x70 →
    (s.sec.trngOk = true → ∃ t, exec (.debugChal src req) s = .next t ∧ t.free = s.free + 1 ∧
      t.sec.chal = some (Config.random s.free 32, s.now) ∧ (∀ n : Fin 8, t.reg .SEC_DBG_CHAL n =
        BitVec.ofNat 32 (le (Config.random s.free 32) (4 * n) 4)) ∧
      (∀ c, src = .session c → t.out = .czResp c req.toNat 0x70 0 0 (Config.random s.free 32) :: s.out)) ∧
    (s.sec.trngOk = false → ∃ t, exec (.debugChal src req) s = .next t ∧ t.sec.waits = s.sec.waits ++ [.challenge src req.toNat] ∧
      t.out = s.out ∧ t.sec.chal = s.sec.chal)) ∧
  (∀ (s : State) (c : Nat) (y : Session) (req : BitVec 64), s.session c = some y → y.cache.find? (fun e => e.1 == req.toNat) = none →
    .challenge (.session c) req.toNat ∈ s.sec.waits → exec (.debugChal (.session c) req) s =
      .next { s with sec := { s.sec with waits := s.sec.waits ++ [.copy c req.toNat] } }) ∧
  (∀ (s : State) (src : CzSource) (req : BitVec 64) (b : List Byte), mayRun s src req.toNat 0x71 →
    ∃ t, exec (.debugToken src req b) s = .next t ∧ t.sec.chal = none ∧ t.evq.count = s.evq.count + 1 ∧
      (if s.tokenOk b = true
       then replied s t src req.toNat 0x71 0 ∧ t.sec.scope = le b 44 4 % 8 ∧ t.sec.unlocked = true ∧
         t.sec.lifeEnd = s.now + le b 48 4 * sCycles ∧ 1 ≤ le b 48 4 ∧ le b 48 4 ≤ 86400
       else replied s t src req.toNat 0x71 3 ∧ t.sec.scope = s.sec.scope ∧ t.sec.unlocked = s.sec.unlocked)) ∧
  (∀ (s : State) (req : BitVec 64) (b : List Byte) (ok : Bool),
    let no := fun (op : Nat) => (s.czAnswer .jtag req.toNat op 3 [])
    exec (.fwWrite .jtag req b) s = .next (no 0x50) ∧ exec (.fwActivate .jtag req b) s = .next (no 0x51) ∧
    exec (.lockFw .jtag req ok) s = .next (no 0x54) ∧ exec (.lockOwner .jtag req ok) s = .next (no 0x55) ∧
    exec (.platformWrite .jtag req b) s = .next (no 0x58) ∧ exec (.ownerInstall .jtag req b) s = .next (no 0x60) ∧
    exec (.ownerUpdate .jtag req b) s = .next (no 0x61) ∧ exec (.ownerClear .jtag req b) s = .next (no 0x62)) ∧
  (∀ (s : State) (path : Path), exec (.debugClose path) s =
    .next (({ s with sec := { s.sec with scope := 0 } } : State).wrote path .SEC_DBG_CMD 0)) ∧
  (∀ (s : State), (s.sec.scope = 0 ∨ s.now < s.sec.lifeEnd → exec .debugLifeExpire s = .next s) ∧
    (s.sec.scope ≠ 0 → s.sec.lifeEnd ≤ s.now → exec .debugLifeExpire s = .next { s with sec := { s.sec with scope := 0 } }) ∧
    ((s.sec.chal = none ∨ ∃ c a, s.sec.chal = some (c, a) ∧ s.now < a + 300 * sCycles) → exec .debugChalExpire s = .next s) ∧
    (∀ c a, s.sec.chal = some (c, a) → a + 300 * sCycles ≤ s.now →
      exec .debugChalExpire s = .next { s with sec := { s.sec with chal := none } }))

/-- Warm resets within WARM_WINDOW minutes (R580). -/
def warmRecent (s : State) : Nat :=
  (s.rcv.warms.filter (fun a => decide (s.now < a + s.fld SYS_RCV_CFG.WARM_WINDOW 0 * 60 * sCycles))).length

/-- What a warm reset leaves (R10, R576 to R578). -/
def warmLeft (s t : State) (cause : Nat) : Prop :=
  t.dev = .boot ∧ t.rcv.warmCount = s.rcv.warmCount + 1 ∧ t.rcv.warmAt = some s.now ∧ t.rcv.safeAt = none ∧
  t.fld SYS_RCV_STAT.STEP 0 = 2 ∧ t.fld SYS_RCV_STAT.WARM_COUNT 0 = min (s.rcv.warmCount + 1) 255 ∧
  bits (t.reg .SYS_PM 0).toNat 7 0 = cause ∧ t.flag SYS_PRG_STATUS.HAS_RUN 0 = false ∧ t.prog.force = [] ∧
  t.prog.boot = s.prog.boot ∧ t.staged = [] ∧ t.cal.attic = s.cal.attic ∧ t.pan.history = s.pan.history ∧
  (∀ a, inSystem a 1 = true → t.byte a = 0) ∧ s.evq.count + 1 ≤ t.evq.count

/-- A warm reset from s: twice within the window it runs, and the third time it is a power cycle (R580). -/
def warmFrom (s t : State) (cause : Nat) : Prop :=
  (warmRecent s < 2 → warmLeft s t cause) ∧
  (2 ≤ warmRecent s → engineIsOff t ∧ t.rcv.cycleAt = some s.now ∧ t.fld SYS_RCV_STAT.STEP 0 = 3)

/-- Nothing is in flight that could still be written when the engine stops. -/
def quiet (s : State) : Prop :=
  s.cel.issued = [] ∧ s.cel.cross = [] ∧ s.cel.queues = [] ∧ s.cel.losses = [] ∧ s.dma = {} ∧ s.trg.jobs = [] ∧ s.replays = [] ∧ s.joined = []

/-- The recovery ladder. -/
def Obligations.RecoveryLadder : Prop :=
  (∀ (s : State) (src : Fin 22) (i : BitVec 10), (s.dev = .safe ∨ s.dev = .off ∨ s.dev = .standby) →
    exec (.faultFreeze src i) s = .next s) ∧
  (∀ (s : State) (src : Fin 22) (i : BitVec 10), s.dev ≠ .safe → s.dev ≠ .off → s.dev ≠ .standby → ∃ t,
    exec (.faultFreeze src i) s = .next t ∧ t.dev = .safe ∧ t.rcv.safeAt = some s.now ∧ t.fld SYS_RCV_STAT.STEP 0 = 1 ∧
    t.cel.running = false ∧ (∀ n, n < 68 → (t.tile n).runs = false) ∧ s.evq.count + 1 ≤ t.evq.count ∧
    (t.reg .SYS_PM 0).toNat = 1 + 2 ^ 8 * src.val + 2 ^ 16 * i.toNat ∧ t.trg.tout = []) ∧
  (∀ (s : State), (s.rcv.safeAt = none ∨ s.dev ≠ .safe ∨ s.flag SYS_RCV_CFG.SAFE_AUTO 0 = false) →
    exec .safeHoldExpire s = .next s) ∧
  (∀ (s : State) (a : Nat), s.rcv.safeAt = some a → s.dev = .safe → s.flag SYS_RCV_CFG.SAFE_AUTO 0 = true →
    (s.now < a + s.fld SYS_RCV_CFG.SAFE_HOLD_S 0 * sCycles → exec .safeHoldExpire s = .next s) ∧
    (a + s.fld SYS_RCV_CFG.SAFE_HOLD_S 0 * sCycles ≤ s.now → ∃ t, exec .safeHoldExpire s = .next t ∧ warmFrom s t 1)) ∧
  (∀ (s : State) (path : Path), (s.dev = .safe → exec (.rcvHold path) s =
      .next (({ s with rcv := { s.rcv with safeAt := none } } : State).wrote path .SYS_RCV_CMD 0)) ∧
    (s.dev ≠ .safe → exec (.rcvHold path) s = .next (s.wrote path .SYS_RCV_CMD 0))) ∧
  (∀ (s : State) (path : Path), (s.dev = .off ∨ s.dev = .standby → exec (.rcvWarm path) s = .next (s.wrote path .SYS_RCV_CMD 0)) ∧
    (s.dev ≠ .off → s.dev ≠ .standby → ∃ t, exec (.rcvWarm path) s = .next t ∧ warmFrom s t 2 ∧
      (warmRecent s < 2 → quiet s → ∀ a, a < cellarSize → t.byte a = s.byte a))) ∧
  (∀ (s : State) (path : Path), s.dev = .off → exec (.rcvPwrCycle path) s = .next (s.wrote path .SYS_RCV_CMD 0)) ∧
  (∀ (s : State) (path : Path), s.dev ≠ .off → ∃ t, exec (.rcvPwrCycle path) s = .next t ∧ engineIsOff t ∧
    t.pwr.faultN = true ∧ t.pwr.hold = true ∧ t.rcv.cycleAt = some s.now ∧ t.fld SYS_RCV_STAT.STEP 0 = 3 ∧
    Out.pin .pwrCycleReq true ∈ t.out) ∧
  (∀ (s : State), (s.pwr.resetLow = true → exec .resetNLow s = .next s) ∧
    (s.pwr.resetLow = false → (s.dev = .off ∨ s.dev = .standby) →
      exec .resetNLow s = .next { s with pwr := { s.pwr with resetLow := true } }) ∧
    (s.pwr.resetLow = false → s.dev ≠ .off → s.dev ≠ .standby → ∃ t, exec .resetNLow s = .next t ∧ warmFrom s t 3 ∧
      t.pwr.resetLow = true ∧ (warmRecent s < 2 → s.pwr.rail = 0 → t.rcv.waitPin = true))) ∧
  (∀ (s : State), (s.pwr.resetLow = false → exec .resetNRise s = .next s) ∧
    (s.pwr.resetLow = true → s.rcv.waitPin = false → s.dev ≠ .standby →
      exec .resetNRise s = .next { s with pwr := { s.pwr with resetLow := false } }) ∧
    (s.pwr.resetLow = true → s.rcv.waitPin = true → ∃ t, exec .resetNRise s = .next t ∧ t.dev = .boot ∧
      t.pwr.resetLow = false ∧ t.rcv.waitPin = false ∧ t.sec.bootAt = s.now) ∧
    (∀ y, s.pwr.resetLow = true → s.rcv.waitPin = false → autoStarts { s with pwr := { s.pwr with resetLow := false } } →
      s.selectSource = some y → ∃ t, exec .resetNRise s = .next t ∧ t.dev = .boot ∧ t.source = y ∧ t.pwr.rail = 2)) ∧
  (∀ (s : State), (s.bypPersists = true ↔ s.dev = .boot ∧ s.pwr.rail = 0 ∧ s.rcv.waitPin = false ∧ s.clk.bypDone = false ∧
    s.sec.bootAt + 20 * msCycles ≤ s.now)) ∧
  (∀ (s : State), s.rcv.warmAt = none → exec .warmResetTimeout s = .next s) ∧
  (∀ (s : State) (a : Nat), s.rcv.warmAt = some a →
    (s.bypPersists = false → s.now < a + 15 * sCycles → exec .warmResetTimeout s = .next s) ∧
    (s.bypPersists = true ∨ a + 15 * sCycles ≤ s.now → ∃ t, exec .warmResetTimeout s = .next t ∧ engineIsOff t ∧ t.rcv.warmAt = none ∧
      t.rcv.cycleAt = some s.now ∧ t.pwr.faultN = true ∧ t.evq.count = s.evq.count + 1)) ∧
  (∀ (s : State), s.rcv.cycleAt = none → exec .pwrCycleIgnored s = .next s) ∧
  (∀ (s : State) (a : Nat), s.rcv.cycleAt = some a →
    (s.now < a + 2100 * msCycles → exec .pwrCycleIgnored s = .next s) ∧
    (a + 2100 * msCycles ≤ s.now → ∃ t, exec .pwrCycleIgnored s = .next t ∧ t.evq.attic = s.evq.attic ++ [.pwrCycleIgnored] ∧
      t.rcv.cycleAt = none ∧ t.pwr.faultN = true ∧ t.dev = s.dev ∧ Out.pin .pwrCycleReq false ∈ t.out)) ∧
  (∀ (s : State) (h : Fin 128), (s.pc h ≠ .frozen ∨ s.flag SYS_RCV_CFG.PC_AUTO 0 = false) → exec (.pcHoldExpire h) s = .next s) ∧
  (∀ (s : State) (h : Fin 128) (old : List Nat) (a : Nat), s.pc h = .frozen → s.flag SYS_RCV_CFG.PC_AUTO 0 = true →
    Table.getD s.cel.freezes h.val [] = old ++ [a] →
    (s.now < a + s.fld SYS_RCV_CFG.PC_HOLD_S 0 * sCycles → exec (.pcHoldExpire h) s = .next s) ∧
    (a + s.fld SYS_RCV_CFG.PC_HOLD_S 0 * sCycles ≤ s.now → ∃ t d y w, exec (.pcHoldExpire h) s = .next t ∧
      (d, y) = Table.getD s.cel.diag h.val (0, 0) ∧ w = Table.getD s.cel.history h.val [] ∧ .diagnosis h.val d y w ∈ t.evq.attic ∧
      ((∃ o ∈ old, a < o + 24 * 3600 * sCycles) → t.pc h = .retired) ∧
      ((∀ o ∈ old, o + 24 * 3600 * sCycles ≤ a) → Table.getD s.rcv.steps (1024 * Block.CEL.index + h.val) [] = [] →
        t.pc h = .reinit))) ∧
  (∀ (s : State) (n : Fin 68), ((s.tile n).state ≠ gtLOADING ∨ (s.tile n).reload = true ∨
    s.timerDue (tmTile n) (2 * msCycles) = false) → exec (.reinitTimeout (.tile n)) s = .next s) ∧
  (∀ (s : State) (n : Fin 68), (s.tile n).state = gtLOADING → (s.tile n).reload = false →
    s.timerDue (tmTile n) (2 * msCycles) = true → ∃ t,
    exec (.reinitTimeout (.tile n)) s = .next t ∧ t.role kTILE n = roRETIRED ∧ t.groupOf n = none ∧ s.evq.count + 1 ≤ t.evq.count ∧
    (∀ g, s.groupOf n = some g → g ∈ t.prog.late)) ∧
  (∀ (s : State) (h : Fin 128), (s.pc h ≠ .reinit ∨ s.timerDue (tmPc h) (50 * msCycles) = false → exec (.reinitTimeout (.pc h)) s = .next s) ∧
    (s.pc h = .reinit → s.timerDue (tmPc h) (50 * msCycles) = true → ∃ t, exec (.reinitTimeout (.pc h)) s = .next t ∧ t.pc h = .retired)) ∧
  (∀ (s : State) (p : Fin 6), (s.fld FAB_PORT_CFG.MODE p = 0 ∨ s.portState p ≠ 1 ∨ s.timerDue (tmPort p) (1000 * msCycles) = false →
      exec (.reinitTimeout (.port p)) s = .next s) ∧
    (s.fld FAB_PORT_CFG.MODE p ≠ 0 → s.portState p = 1 → s.timerDue (tmPort p) (1000 * msCycles) = true → ∃ t, exec (.reinitTimeout (.port p)) s = .next t ∧ t.portState p = 1 ∧
      (t.port p).step = 2 ∧ (t.port p).lanes = (s.port p).lanes ∧ s.evq.count + 1 ≤ t.evq.count)) ∧
  (∀ (s : State) (k : Fin 8), ((s.die k).down = false ∨ s.now < (s.die k).downSince + 10 * msCycles →
      exec (.reinitTimeout (.die k)) s = .next s) ∧
    ((s.die k).down = true → (s.die k).downSince + 10 * msCycles ≤ s.now → s.dev ≠ .off → s.dev ≠ .standby →
      ∃ t, exec (.reinitTimeout (.die k)) s = .next t ∧ warmFrom s t 4)) ∧
  (∀ (s : State) (p : Fin 17), ((s.oplSwap = none ∨ s.timerDue tmRenderer msCycles = false ∨
      ∃ w, s.oplSwap = some w ∧ (w.old ≠ p.val ∨ w.cause ≠ .failure)) →
      exec (.reinitTimeout (.renderer p)) s = .next s) ∧
    (∀ w, s.oplSwap = some w → w.old = p.val → w.cause = .failure → s.timerDue tmRenderer msCycles = true → ∃ t, exec (.reinitTimeout (.renderer p)) s = .next t ∧ t.oplSwap = none ∧
      t.role kOPAL p = roRETIRED ∧ t.flag OPL_CFG.EN p = false ∧ t.evq.count = s.evq.count + 1)) ∧
  (∀ (s : State) (a : Nat), s.clk.failSince = some a →
    (s.now < a + s.fld SYS_RCV_CFG.RELOCK_S 0 * sCycles → exec (.reinitTimeout .relock) s = .next s) ∧
    (a + s.fld SYS_RCV_CFG.RELOCK_S 0 * sCycles ≤ s.now → s.dev ≠ .off → s.dev ≠ .standby →
      ∃ t, exec (.reinitTimeout .relock) s = .next t ∧ warmFrom s t 5)) ∧
  (∀ (s : State) (k : Fin 8) (a : Nat), (s.die k).bypSince = some a → s.clk.relock = 0 →
    bit (s.fld CLK_STATUS.JC_LOCK 0) k = false → a + s.fld SYS_RCV_CFG.RELOCK_S 0 * sCycles ≤ s.now →
    s.dev ≠ .off → s.dev ≠ .standby → ∃ t, exec (.reinitTimeout (.cleaner k)) s = .next t ∧ warmFrom s t 5) ∧
  (∀ (s : State) (k : Fin 8), ((s.die k).bypSince = none ∨ s.clk.relock ≠ 0 ∨ bit (s.fld CLK_STATUS.JC_LOCK 0) k = true ∨
    ∃ a, (s.die k).bypSince = some a ∧ s.now < a + s.fld SYS_RCV_CFG.RELOCK_S 0 * sCycles) → exec (.reinitTimeout (.cleaner k)) s = .next s)

/-- The commands that load, validate, commit and abort an engine program. -/
def Obligations.ProgramCommands : Prop :=
  (∀ (s t : State) (path : Path) (c : Nat) (req : BitVec 64), s.prgVia (.reg path) (fun _ => t) = t.wrote path .SYS_PRG_CMD 0 ∧
    (freshRequest s c req.toNat = true →
      s.prgVia (.cz c req) (fun _ => t) = t.czAnswer (.session c) req.toNat 0x21 czOK []) ∧
    (s.session c = none → s.prgVia (.cz c req) (fun _ => t) = s.emit (.czResp c req.toNat 0x21 2 0 [])) ∧
    (∀ y e, s.session c = some y → y.cache.find? (fun x => x.1 == req.toNat) = some e →
      s.prgVia (.cz c req) (fun _ => t) = s.emit (.czResp c req.toNat 0x21 1 e.2.1 e.2.2))) ∧
  (∀ (s : State) (via : Via), s.prgBusy = false →
    let a := s.fld SYS_IMG_ADDR_LO.ADDR_LO 0 * 64 + s.fld SYS_IMG_ADDR_HI.ADDR_HI 0 * 2 ^ 32
    let n := (s.reg .SYS_IMG_LEN 0).toNat
    n ≤ 2 ^ 26 → (inCellar a n || inSystem a n) = true → s.poisonedRange a n = false →
    exec (.prgLoad via) s = .next (s.prgVia via (fun _ =>
      { s.readBy s.srcOther a n with prog := { s.prog with loading := some (n, s.bytes a n) } }))) ∧
  (∀ (s : State) (n : Nat) (b : List Byte), s.prog.loading = some (n, b) →
    let u : State := { s with prog := { s.prog with loading := none } }
    exec .prgValidationEnd s = .next (if (u.validateImage b n).1 = [] then
      (((u.validateImage b n).2.setFld SYS_PRG_STATUS.RESULT 0 3).setReg .SYS_PRG_ERRORS 0 0).raise Ev.PRG_LOADED 0
        [(0, 2, imgCount b), (2, 4, le b 24 4)]
      else u.refuse (u.validateImage b n).1)) ∧
  (∀ (s : State) (via : Via) (at_ : Bool), s.prgBusy = false → exec (.prgCommit via at_) s =
    .next (s.prgVia via (fun _ => { s with prog := { s.prog with
        commit := some ⟨if at_ then some (s.reg64 .SYS_PRG_EPOCH_LO .SYS_PRG_EPOCH_HI 0) else none, false, 0, false⟩ } }))) ∧
  (∀ (s : State) (boot : Bool), s.prog.commit = some ⟨none, false, 0, boot⟩ →
    exec .commitValidationEnd s = .next (if s.validateBank = [] then s.accept none boot
      else (({ s with prog := { s.prog with commit := none } } : State).refuse s.validateBank).enterHeld 1)) ∧
  (∀ (s : State) (via : Via), s.prgBusy = false → exec (.prgAbort via) s =
    .next (s.prgVia via (fun _ => { s with
      staged := []
      prog := { s.prog with
        staged := s.prog.force, stagedInfo := s.prog.forceInfo, stagedImage := s.prog.forceImage, params := []
        origin := [] } }))) ∧
  (∀ (s : State) (via : Via) (at_ : Bool), s.prgBusy = true →
    let no := s.prgVia via (fun _ => s.setFlag SYS_PRG_STATUS.CMD_REJECTED 0 true)
    exec (.prgLoad via) s = .next no ∧ exec (.prgCommit via at_) s = .next no ∧ exec (.prgAbort via) s = .next no)

/-- The commands around HELD and the boot program, parameter words and live pairs. -/
def Obligations.HoldResumeBootStoreAndPairs : Prop :=
  (∀ (s : State) (via : Via), s.dev = .held → s.flag SYS_PRG_STATUS.HAS_RUN 0 = true → exec (.prgResume via) s =
    .next (s.prgVia via (fun _ => { s with prog := { s.prog with resume := some (s.time.ot + nsToOt 100000) } }))) ∧
  (∀ (s : State) (via : Via), s.dev = .run → exec (.prgHold via) s =
    .next (s.prgVia via (fun _ => ({ s.stopOutputs with dev := .held } : State).raise Ev.HELD_ENTER 0 [(0, 1, 3)]))) ∧
  (∀ (s : State) (via : Via) (i : ImageInfo), s.prog.forceInfo = some i → i.bootOk = true → exec (.storeBoot via) s =
    .next (s.prgVia via (fun _ => { s with prog := { s.prog with storing := some s.prog.forceImage } }))) ∧
  (∀ (s : State) (b : List Byte), s.prog.storing = some b →
    exec (.bootStoreDone true) s = .next { s with prog := { s.prog with storing := none, boot := b } } ∧
    exec (.bootStoreDone false) s = .next { s with prog := { s.prog with storing := none } }) ∧
  (∀ (s : State) (path : Path) (n : Fin 68) (p : BitVec 8) (v : BitVec 32) (g : Nat),
    bit (s.tile n).lvMap p.toNat = false → s.groupOf n = some g → exec (.paramWrite path n p v) s =
      .next (({ s with prog := { s.prog with params := Table.insert natLt s.prog.params (256 * g + p.toNat) v.toNat } }
        : State).emit (.writeDone path (paramAddr n p.toNat)))) ∧
  (∀ (s : State) (path : Path) (q : Fin 17) (v : BitVec 32), ∃ t, exec (.pairFirstWrite path (.level q) v) s = .next t ∧
    t = { s with held := t.held, out := .writeDone path (Reg.OPL_LEVEL_BOT.addr q) :: s.out } ∧
    Table.get? t.held (.OPL_LEVEL_BOT, q.val) = some (v &&& 0xFFFF)) ∧
  (∀ (s : State) (path : Path) (q : Fin 17) (v w : BitVec 32), v.toNat % 2 ^ 16 ≠ 0 →
    Table.get? s.held (.OPL_LEVEL_BOT, q.val) = some w → ∃ t, exec (.pairSecondWrite path (.level q) v) s = .next t ∧
    t = { s with held := t.held, lv := t.lv, out := .writeDone path (Reg.OPL_LEVEL_STEP.addr q) :: s.out } ∧
    Table.get? t.held (.OPL_LEVEL_BOT, q.val) = none ∧
    Table.get? t.lv (.OPL_LEVEL_BOT, q.val) = some w ∧ Table.get? t.lv (.OPL_LEVEL_STEP, q.val) = some (v &&& 0xFFFF))
end

