-- ==== Sys2Proof/Laws/Table.lean ====
section
/-! SUPPORT. Laws of the sparse tables: what a lookup finds after an update, and that an update keeps the canonical
form. -/

namespace Sys2Proof.Machine

variable {κ α : Type} [DecidableEq κ]

theorem Table.get?_erase_same (t : Table κ α) (k : κ) : Table.get? (Table.erase t k) k = none := by
  induction t with
  | nil => rfl
  | cons e t ih =>
    obtain ⟨a, v⟩ := e
    by_cases h : a = k <;> simp [Table.erase, Table.get?, h, ih]

theorem Table.get?_erase_ne (t : Table κ α) (k j : κ) (h : j ≠ k) :
    Table.get? (Table.erase t k) j = Table.get? t j := by
  induction t with
  | nil => rfl
  | cons e t ih =>
    obtain ⟨a, v⟩ := e
    by_cases ha : a = k
    · subst ha; simp [Table.erase, Table.get?, ih, Ne.symm h]
    · by_cases hj : a = j
      · subst hj; simp [Table.erase, Table.get?, ha]
      · simp [Table.erase, Table.get?, ha, hj, ih]

theorem Table.get?_insert_same (lt : κ → κ → Bool) (t : Table κ α) (k : κ) (v : α) :
    Table.get? (Table.insert lt t k v) k = some v := by
  induction t with
  | nil => simp [Table.insert, Table.get?]
  | cons e t ih =>
    obtain ⟨a, w⟩ := e
    by_cases h : a = k
    · simp [Table.insert, Table.get?, h]
    · cases hl : lt k a <;> simp [Table.insert, Table.get?, h, hl, ih]

theorem Table.get?_insert_ne (lt : κ → κ → Bool) (t : Table κ α) (k j : κ) (v : α) (h : j ≠ k) :
    Table.get? (Table.insert lt t k v) j = Table.get? t j := by
  induction t with
  | nil => simp [Table.insert, Table.get?, Ne.symm h]
  | cons e t ih =>
    obtain ⟨a, w⟩ := e
    by_cases ha : a = k
    · subst ha; simp [Table.insert, Table.get?, Ne.symm h]
    · cases hl : lt k a <;> by_cases hj : a = j
      · subst hj; simp [Table.insert, Table.get?, ha, hl]
      · simp [Table.insert, Table.get?, ha, hl, hj, ih]
      · subst hj; simp [Table.insert, Table.get?, ha, hl, Ne.symm h]
      · simp [Table.insert, Table.get?, ha, hl, hj, Ne.symm h]

/-- What stands at a key after a value is set there. -/
@[simp] theorem Table.getD_put_same [DecidableEq α] (lt : κ → κ → Bool) (d : α) (t : Table κ α) (k : κ) (v : α) :
    Table.getD (Table.put lt d t k v) k d = v := by
  unfold Table.put Table.getD
  split
  · simp_all [Table.get?_erase_same]
  · simp [Table.get?_insert_same]

/-- Every other key is left alone. -/
theorem Table.getD_put_ne [DecidableEq α] (lt : κ → κ → Bool) (d e : α) (t : Table κ α) (k j : κ) (v : α)
    (h : j ≠ k) : Table.getD (Table.put lt d t k v) j e = Table.getD t j e := by
  unfold Table.put Table.getD
  split
  · rw [Table.get?_erase_ne t k j h]
  · rw [Table.get?_insert_ne lt t k j v h]

@[simp] theorem Table.getD_insert_same (lt : κ → κ → Bool) (d : α) (t : Table κ α) (k : κ) (v : α) :
    Table.getD (Table.insert lt t k v) k d = v := by
  simp [Table.getD, Table.get?_insert_same]

theorem Table.getD_insert_ne (lt : κ → κ → Bool) (d : α) (t : Table κ α) (k j : κ) (v : α) (h : j ≠ k) :
    Table.getD (Table.insert lt t k v) j d = Table.getD t j d := by
  simp [Table.getD, Table.get?_insert_ne lt t k j v h]

@[simp] theorem Table.getD_set_same [DecidableEq α] (d : α) (t : Table Nat α) (k : Nat) (v : α) :
    Table.getD (Table.set d t k v) k d = v := Table.getD_put_same natLt d t k v

theorem Table.getD_set_ne [DecidableEq α] (d e : α) (t : Table Nat α) (k j : Nat) (v : α) (h : j ≠ k) :
    Table.getD (Table.set d t k v) j e = Table.getD t j e := Table.getD_put_ne natLt d e t k j v h

/-! ## The canonical form of tables with number keys -/

/-- Keys rise and every key is above `n`. -/
def Table.above (n : Option Nat) (t : Table Nat α) : Bool :=
  match t with
  | [] => true
  | e :: t => (match n with | none => true | some m => decide (m < e.1)) && Table.above (some e.1) t

theorem Table.above_none_of (n : Option Nat) (t : Table Nat α) (h : Table.above n t = true) :
    Table.above none t = true := by
  cases t <;> simp_all [Table.above]

theorem Table.above_mono (m n : Nat) (t : Table Nat α) (h : Table.above (some n) t = true) (hm : m ≤ n) :
    Table.above (some m) t = true := by
  cases t with
  | nil => rfl
  | cons e t => simp_all [Table.above]; omega

/-- `sorted` says that the keys rise. -/
theorem Table.sorted_eq_above (t : Table Nat α) : Table.sorted natLt t = Table.above none t := by
  have key : ∀ (t : Table Nat α) (e : Nat × α), Table.sorted natLt (e :: t) = Table.above (some e.1) t := by
    intro t
    induction t with
    | nil => intro e; rfl
    | cons b t ih => intro e; simp [Table.sorted, Table.above, ih b, natLt]
  cases t with
  | nil => rfl
  | cons e t => simp [Table.above, key]

theorem Table.above_erase (n : Option Nat) (t : Table Nat α) (k : Nat) (h : Table.above n t = true) :
    Table.above n (Table.erase t k) = true := by
  induction t generalizing n with
  | nil => rfl
  | cons e t ih =>
    obtain ⟨a, v⟩ := e
    simp only [Table.above, Bool.and_eq_true] at h
    by_cases ha : a = k
    · rw [Table.erase, if_pos ha]
      cases n with
      | none => exact Table.above_none_of _ _ (ih (some a) h.2)
      | some m => exact Table.above_mono m a _ (ih (some a) h.2) (by simp at h; omega)
    · simp only [Table.erase, if_neg ha, Table.above, Bool.and_eq_true]
      exact ⟨h.1, ih (some a) h.2⟩

theorem Table.above_insert (n : Option Nat) (t : Table Nat α) (k : Nat) (v : α) (h : Table.above n t = true)
    (hn : ∀ m, n = some m → m < k) : Table.above n (Table.insert natLt t k v) = true := by
  induction t generalizing n with
  | nil =>
    cases n with
    | none => rfl
    | some m => simp [Table.insert, Table.above, hn m rfl]
  | cons e t ih =>
    obtain ⟨a, w⟩ := e
    simp only [Table.above, Bool.and_eq_true] at h
    by_cases ha : a = k
    · subst ha; simp only [Table.insert, if_pos, Table.above, Bool.and_eq_true]; exact h
    · by_cases hl : k < a
      · have : natLt k a = true := by simp [natLt, hl]
        simp only [Table.insert, if_neg ha, this, if_pos, Table.above, Bool.and_eq_true, decide_eq_true_eq]
        refine ⟨?_, hl, h.2⟩
        cases n with
        | none => rfl
        | some m => simp [hn m rfl]
      · have : natLt k a = false := by simp [natLt, hl]
        rw [Table.insert, if_neg ha, this]
        simp only [Bool.false_eq_true, if_false, Table.above, Bool.and_eq_true]
        exact ⟨h.1, ih (some a) h.2 (by intro m hm; cases hm; omega)⟩

theorem Table.mem_erase (t : Table κ α) (k : κ) (e : κ × α) (h : e ∈ Table.erase t k) : e ∈ t := by
  induction t with
  | nil => exact h
  | cons b t ih =>
    obtain ⟨a, v⟩ := b
    by_cases ha : a = k
    · rw [Table.erase, if_pos ha] at h; exact List.mem_cons_of_mem _ (ih h)
    · rw [Table.erase, if_neg ha] at h
      rcases List.mem_cons.mp h with h | h
      · exact h ▸ List.mem_cons_self
      · exact List.mem_cons_of_mem _ (ih h)

theorem Table.mem_insert (lt : κ → κ → Bool) (t : Table κ α) (k : κ) (v : α) (e : κ × α)
    (h : e ∈ Table.insert lt t k v) : e = (k, v) ∨ e ∈ t := by
  induction t with
  | nil => simp [Table.insert] at h; exact .inl h
  | cons b t ih =>
    obtain ⟨a, w⟩ := b
    by_cases ha : a = k
    · simp [Table.insert, ha] at h; rcases h with h | h <;> simp [h]
    · cases hl : lt k a
      · simp [Table.insert, ha, hl] at h
        rcases h with h | h
        · simp [h]
        · rcases ih h with h | h <;> simp [h]
      · simp [Table.insert, ha, hl] at h; rcases h with h | h | h <;> simp [h]

/-- A write keeps the canonical form. -/
theorem Table.wf_set [DecidableEq α] (d : α) (t : Table Nat α) (k : Nat) (v : α)
    (h : Table.wf natLt (fun _ => d) t = true) : Table.wf natLt (fun _ => d) (Table.set d t k v) = true := by
  simp only [Table.wf, Bool.and_eq_true, Table.sorted_eq_above, List.all_eq_true, decide_eq_true_eq] at h ⊢
  unfold Table.set Table.put
  split
  · exact ⟨Table.above_erase _ _ _ h.1, fun e he => h.2 e (Table.mem_erase _ _ _ he)⟩
  · next hv =>
    refine ⟨Table.above_insert _ _ _ _ h.1 (by intro m hm; cases hm), fun e he => ?_⟩
    rcases Table.mem_insert _ _ _ _ _ he with rfl | he
    · exact hv
    · exact h.2 e he

theorem Table.above_filter (n : Option Nat) (t : Table Nat α) (p : Nat × α → Bool) (h : Table.above n t = true) :
    Table.above n (t.filter p) = true := by
  induction t generalizing n with
  | nil => rfl
  | cons e t ih =>
    simp only [Table.above, Bool.and_eq_true] at h
    cases hp : p e
    · simp only [List.filter_cons, hp]
      cases n with
      | none => exact Table.above_none_of _ _ (ih (some e.1) h.2)
      | some m => exact Table.above_mono m e.1 _ (ih (some e.1) h.2) (by simp at h; omega)
    · simp only [List.filter_cons, hp, if_pos, Table.above, Bool.and_eq_true]
      exact ⟨h.1, ih (some e.1) h.2⟩

/-- Dropping entries keeps the canonical form. -/
theorem Table.wf_filter [DecidableEq α] (d : α) (t : Table Nat α) (p : Nat × α → Bool)
    (h : Table.wf natLt (fun _ => d) t = true) : Table.wf natLt (fun _ => d) (t.filter p) = true := by
  simp only [Table.wf, Bool.and_eq_true, Table.sorted_eq_above, List.all_eq_true, decide_eq_true_eq] at h ⊢
  exact ⟨Table.above_filter _ _ _ h.1, fun e he => h.2 e ((List.mem_filter.mp he).1)⟩

end Sys2Proof.Machine
end

