-- ==== Sys2Proof/Laws/State.lean ====
section
/-! SUPPORT. Laws of the state: one lemma per field per update, true by unfolding, and what a register, a field or a
byte of memory reads as after an update. -/

namespace Sys2Proof.Machine

/-! ## `State.setReg` -/

@[simp] theorem State.setReg_pending (s : State) (r : Reg) (i : Nat) (v : Word) : (s.setReg r i v).pending = s.pending := rfl
@[simp] theorem State.setReg_now (s : State) (r : Reg) (i : Nat) (v : Word) : (s.setReg r i v).now = s.now := rfl
@[simp] theorem State.setReg_free (s : State) (r : Reg) (i : Nat) (v : Word) : (s.setReg r i v).free = s.free := rfl
@[simp] theorem State.setReg_dev (s : State) (r : Reg) (i : Nat) (v : Word) : (s.setReg r i v).dev = s.dev := rfl
@[simp] theorem State.setReg_staged (s : State) (r : Reg) (i : Nat) (v : Word) : (s.setReg r i v).staged = s.staged := rfl
@[simp] theorem State.setReg_lv (s : State) (r : Reg) (i : Nat) (v : Word) : (s.setReg r i v).lv = s.lv := rfl
@[simp] theorem State.setReg_held (s : State) (r : Reg) (i : Nat) (v : Word) : (s.setReg r i v).held = s.held := rfl
@[simp] theorem State.setReg_capt (s : State) (r : Reg) (i : Nat) (v : Word) : (s.setReg r i v).capt = s.capt := rfl
@[simp] theorem State.setReg_mem (s : State) (r : Reg) (i : Nat) (v : Word) : (s.setReg r i v).mem = s.mem := rfl
@[simp] theorem State.setReg_out (s : State) (r : Reg) (i : Nat) (v : Word) : (s.setReg r i v).out = s.out := rfl
@[simp] theorem State.setReg_evq (s : State) (r : Reg) (i : Nat) (v : Word) : (s.setReg r i v).evq = s.evq := rfl
@[simp] theorem State.setReg_jasper (s : State) (r : Reg) (i : Nat) (v : Word) : (s.setReg r i v).jasper = s.jasper := rfl
@[simp] theorem State.setReg_completion (s : State) (r : Reg) (i : Nat) (v : Word) : (s.setReg r i v).completion = s.completion := rfl
@[simp] theorem State.setReg_telemetry (s : State) (r : Reg) (i : Nat) (v : Word) : (s.setReg r i v).telemetry = s.telemetry := rfl
@[simp] theorem State.setReg_time (s : State) (r : Reg) (i : Nat) (v : Word) : (s.setReg r i v).time = s.time := rfl
@[simp] theorem State.setReg_dies (s : State) (r : Reg) (i : Nat) (v : Word) : (s.setReg r i v).dies = s.dies := rfl
@[simp] theorem State.setReg_chans (s : State) (r : Reg) (i : Nat) (v : Word) : (s.setReg r i v).chans = s.chans := rfl
@[simp] theorem State.setReg_cmps (s : State) (r : Reg) (i : Nat) (v : Word) : (s.setReg r i v).cmps = s.cmps := rfl
@[simp] theorem State.setReg_clk (s : State) (r : Reg) (i : Nat) (v : Word) : (s.setReg r i v).clk = s.clk := rfl
@[simp] theorem State.setReg_tins (s : State) (r : Reg) (i : Nat) (v : Word) : (s.setReg r i v).tins = s.tins := rfl
@[simp] theorem State.setReg_epoch (s : State) (r : Reg) (i : Nat) (v : Word) : (s.setReg r i v).epoch = s.epoch := rfl
@[simp] theorem State.setReg_cel (s : State) (r : Reg) (i : Nat) (v : Word) : (s.setReg r i v).cel = s.cel := rfl
@[simp] theorem State.setReg_tiles (s : State) (r : Reg) (i : Nat) (v : Word) : (s.setReg r i v).tiles = s.tiles := rfl
@[simp] theorem State.setReg_hall (s : State) (r : Reg) (i : Nat) (v : Word) : (s.setReg r i v).hall = s.hall := rfl
@[simp] theorem State.setReg_prog (s : State) (r : Reg) (i : Nat) (v : Word) : (s.setReg r i v).prog = s.prog := rfl
@[simp] theorem State.setReg_trg (s : State) (r : Reg) (i : Nat) (v : Word) : (s.setReg r i v).trg = s.trg := rfl
@[simp] theorem State.setReg_turn (s : State) (r : Reg) (i : Nat) (v : Word) : (s.setReg r i v).turn = s.turn := rfl
@[simp] theorem State.setReg_replays (s : State) (r : Reg) (i : Nat) (v : Word) : (s.setReg r i v).replays = s.replays := rfl
@[simp] theorem State.setReg_opals (s : State) (r : Reg) (i : Nat) (v : Word) : (s.setReg r i v).opals = s.opals := rfl
@[simp] theorem State.setReg_oplMap (s : State) (r : Reg) (i : Nat) (v : Word) : (s.setReg r i v).oplMap = s.oplMap := rfl
@[simp] theorem State.setReg_oplSwap (s : State) (r : Reg) (i : Nat) (v : Word) : (s.setReg r i v).oplSwap = s.oplSwap := rfl
@[simp] theorem State.setReg_scans (s : State) (r : Reg) (i : Nat) (v : Word) : (s.setReg r i v).scans = s.scans := rfl
@[simp] theorem State.setReg_dma (s : State) (r : Reg) (i : Nat) (v : Word) : (s.setReg r i v).dma = s.dma := rfl
@[simp] theorem State.setReg_msix (s : State) (r : Reg) (i : Nat) (v : Word) : (s.setReg r i v).msix = s.msix := rfl
@[simp] theorem State.setReg_stm (s : State) (r : Reg) (i : Nat) (v : Word) : (s.setReg r i v).stm = s.stm := rfl
@[simp] theorem State.setReg_fab (s : State) (r : Reg) (i : Nat) (v : Word) : (s.setReg r i v).fab = s.fab := rfl
@[simp] theorem State.setReg_cal (s : State) (r : Reg) (i : Nat) (v : Word) : (s.setReg r i v).cal = s.cal := rfl
@[simp] theorem State.setReg_hk (s : State) (r : Reg) (i : Nat) (v : Word) : (s.setReg r i v).hk = s.hk := rfl
@[simp] theorem State.setReg_pwr (s : State) (r : Reg) (i : Nat) (v : Word) : (s.setReg r i v).pwr = s.pwr := rfl
@[simp] theorem State.setReg_pan (s : State) (r : Reg) (i : Nat) (v : Word) : (s.setReg r i v).pan = s.pan := rfl
@[simp] theorem State.setReg_rcv (s : State) (r : Reg) (i : Nat) (v : Word) : (s.setReg r i v).rcv = s.rcv := rfl
@[simp] theorem State.setReg_sec (s : State) (r : Reg) (i : Nat) (v : Word) : (s.setReg r i v).sec = s.sec := rfl
@[simp] theorem State.setReg_byte (s : State) (r : Reg) (i : Nat) (v : Word) (addr : Nat) : (s.setReg r i v).byte addr = s.byte addr := rfl

/-! ## `State.setFld` -/

@[simp] theorem State.setFld_pending (s : State) (f : Fld) (i v : Nat) : (s.setFld f i v).pending = s.pending := rfl
@[simp] theorem State.setFld_now (s : State) (f : Fld) (i v : Nat) : (s.setFld f i v).now = s.now := rfl
@[simp] theorem State.setFld_free (s : State) (f : Fld) (i v : Nat) : (s.setFld f i v).free = s.free := rfl
@[simp] theorem State.setFld_dev (s : State) (f : Fld) (i v : Nat) : (s.setFld f i v).dev = s.dev := rfl
@[simp] theorem State.setFld_staged (s : State) (f : Fld) (i v : Nat) : (s.setFld f i v).staged = s.staged := rfl
@[simp] theorem State.setFld_lv (s : State) (f : Fld) (i v : Nat) : (s.setFld f i v).lv = s.lv := rfl
@[simp] theorem State.setFld_held (s : State) (f : Fld) (i v : Nat) : (s.setFld f i v).held = s.held := rfl
@[simp] theorem State.setFld_capt (s : State) (f : Fld) (i v : Nat) : (s.setFld f i v).capt = s.capt := rfl
@[simp] theorem State.setFld_mem (s : State) (f : Fld) (i v : Nat) : (s.setFld f i v).mem = s.mem := rfl
@[simp] theorem State.setFld_out (s : State) (f : Fld) (i v : Nat) : (s.setFld f i v).out = s.out := rfl
@[simp] theorem State.setFld_evq (s : State) (f : Fld) (i v : Nat) : (s.setFld f i v).evq = s.evq := rfl
@[simp] theorem State.setFld_jasper (s : State) (f : Fld) (i v : Nat) : (s.setFld f i v).jasper = s.jasper := rfl
@[simp] theorem State.setFld_completion (s : State) (f : Fld) (i v : Nat) : (s.setFld f i v).completion = s.completion := rfl
@[simp] theorem State.setFld_telemetry (s : State) (f : Fld) (i v : Nat) : (s.setFld f i v).telemetry = s.telemetry := rfl
@[simp] theorem State.setFld_time (s : State) (f : Fld) (i v : Nat) : (s.setFld f i v).time = s.time := rfl
@[simp] theorem State.setFld_dies (s : State) (f : Fld) (i v : Nat) : (s.setFld f i v).dies = s.dies := rfl
@[simp] theorem State.setFld_chans (s : State) (f : Fld) (i v : Nat) : (s.setFld f i v).chans = s.chans := rfl
@[simp] theorem State.setFld_cmps (s : State) (f : Fld) (i v : Nat) : (s.setFld f i v).cmps = s.cmps := rfl
@[simp] theorem State.setFld_clk (s : State) (f : Fld) (i v : Nat) : (s.setFld f i v).clk = s.clk := rfl
@[simp] theorem State.setFld_tins (s : State) (f : Fld) (i v : Nat) : (s.setFld f i v).tins = s.tins := rfl
@[simp] theorem State.setFld_epoch (s : State) (f : Fld) (i v : Nat) : (s.setFld f i v).epoch = s.epoch := rfl
@[simp] theorem State.setFld_cel (s : State) (f : Fld) (i v : Nat) : (s.setFld f i v).cel = s.cel := rfl
@[simp] theorem State.setFld_tiles (s : State) (f : Fld) (i v : Nat) : (s.setFld f i v).tiles = s.tiles := rfl
@[simp] theorem State.setFld_hall (s : State) (f : Fld) (i v : Nat) : (s.setFld f i v).hall = s.hall := rfl
@[simp] theorem State.setFld_prog (s : State) (f : Fld) (i v : Nat) : (s.setFld f i v).prog = s.prog := rfl
@[simp] theorem State.setFld_trg (s : State) (f : Fld) (i v : Nat) : (s.setFld f i v).trg = s.trg := rfl
@[simp] theorem State.setFld_turn (s : State) (f : Fld) (i v : Nat) : (s.setFld f i v).turn = s.turn := rfl
@[simp] theorem State.setFld_replays (s : State) (f : Fld) (i v : Nat) : (s.setFld f i v).replays = s.replays := rfl
@[simp] theorem State.setFld_opals (s : State) (f : Fld) (i v : Nat) : (s.setFld f i v).opals = s.opals := rfl
@[simp] theorem State.setFld_oplMap (s : State) (f : Fld) (i v : Nat) : (s.setFld f i v).oplMap = s.oplMap := rfl
@[simp] theorem State.setFld_oplSwap (s : State) (f : Fld) (i v : Nat) : (s.setFld f i v).oplSwap = s.oplSwap := rfl
@[simp] theorem State.setFld_scans (s : State) (f : Fld) (i v : Nat) : (s.setFld f i v).scans = s.scans := rfl
@[simp] theorem State.setFld_dma (s : State) (f : Fld) (i v : Nat) : (s.setFld f i v).dma = s.dma := rfl
@[simp] theorem State.setFld_msix (s : State) (f : Fld) (i v : Nat) : (s.setFld f i v).msix = s.msix := rfl
@[simp] theorem State.setFld_stm (s : State) (f : Fld) (i v : Nat) : (s.setFld f i v).stm = s.stm := rfl
@[simp] theorem State.setFld_fab (s : State) (f : Fld) (i v : Nat) : (s.setFld f i v).fab = s.fab := rfl
@[simp] theorem State.setFld_cal (s : State) (f : Fld) (i v : Nat) : (s.setFld f i v).cal = s.cal := rfl
@[simp] theorem State.setFld_hk (s : State) (f : Fld) (i v : Nat) : (s.setFld f i v).hk = s.hk := rfl
@[simp] theorem State.setFld_pwr (s : State) (f : Fld) (i v : Nat) : (s.setFld f i v).pwr = s.pwr := rfl
@[simp] theorem State.setFld_pan (s : State) (f : Fld) (i v : Nat) : (s.setFld f i v).pan = s.pan := rfl
@[simp] theorem State.setFld_rcv (s : State) (f : Fld) (i v : Nat) : (s.setFld f i v).rcv = s.rcv := rfl
@[simp] theorem State.setFld_sec (s : State) (f : Fld) (i v : Nat) : (s.setFld f i v).sec = s.sec := rfl
@[simp] theorem State.setFld_byte (s : State) (f : Fld) (i v : Nat) (addr : Nat) : (s.setFld f i v).byte addr = s.byte addr := rfl

/-! ## `State.setFlag` -/

@[simp] theorem State.setFlag_pending (s : State) (f : Fld) (i : Nat) (b : Bool) : (s.setFlag f i b).pending = s.pending := rfl
@[simp] theorem State.setFlag_now (s : State) (f : Fld) (i : Nat) (b : Bool) : (s.setFlag f i b).now = s.now := rfl
@[simp] theorem State.setFlag_free (s : State) (f : Fld) (i : Nat) (b : Bool) : (s.setFlag f i b).free = s.free := rfl
@[simp] theorem State.setFlag_dev (s : State) (f : Fld) (i : Nat) (b : Bool) : (s.setFlag f i b).dev = s.dev := rfl
@[simp] theorem State.setFlag_staged (s : State) (f : Fld) (i : Nat) (b : Bool) : (s.setFlag f i b).staged = s.staged := rfl
@[simp] theorem State.setFlag_lv (s : State) (f : Fld) (i : Nat) (b : Bool) : (s.setFlag f i b).lv = s.lv := rfl
@[simp] theorem State.setFlag_held (s : State) (f : Fld) (i : Nat) (b : Bool) : (s.setFlag f i b).held = s.held := rfl
@[simp] theorem State.setFlag_capt (s : State) (f : Fld) (i : Nat) (b : Bool) : (s.setFlag f i b).capt = s.capt := rfl
@[simp] theorem State.setFlag_mem (s : State) (f : Fld) (i : Nat) (b : Bool) : (s.setFlag f i b).mem = s.mem := rfl
@[simp] theorem State.setFlag_out (s : State) (f : Fld) (i : Nat) (b : Bool) : (s.setFlag f i b).out = s.out := rfl
@[simp] theorem State.setFlag_evq (s : State) (f : Fld) (i : Nat) (b : Bool) : (s.setFlag f i b).evq = s.evq := rfl
@[simp] theorem State.setFlag_jasper (s : State) (f : Fld) (i : Nat) (b : Bool) : (s.setFlag f i b).jasper = s.jasper := rfl
@[simp] theorem State.setFlag_completion (s : State) (f : Fld) (i : Nat) (b : Bool) : (s.setFlag f i b).completion = s.completion := rfl
@[simp] theorem State.setFlag_telemetry (s : State) (f : Fld) (i : Nat) (b : Bool) : (s.setFlag f i b).telemetry = s.telemetry := rfl
@[simp] theorem State.setFlag_time (s : State) (f : Fld) (i : Nat) (b : Bool) : (s.setFlag f i b).time = s.time := rfl
@[simp] theorem State.setFlag_dies (s : State) (f : Fld) (i : Nat) (b : Bool) : (s.setFlag f i b).dies = s.dies := rfl
@[simp] theorem State.setFlag_chans (s : State) (f : Fld) (i : Nat) (b : Bool) : (s.setFlag f i b).chans = s.chans := rfl
@[simp] theorem State.setFlag_cmps (s : State) (f : Fld) (i : Nat) (b : Bool) : (s.setFlag f i b).cmps = s.cmps := rfl
@[simp] theorem State.setFlag_clk (s : State) (f : Fld) (i : Nat) (b : Bool) : (s.setFlag f i b).clk = s.clk := rfl
@[simp] theorem State.setFlag_tins (s : State) (f : Fld) (i : Nat) (b : Bool) : (s.setFlag f i b).tins = s.tins := rfl
@[simp] theorem State.setFlag_epoch (s : State) (f : Fld) (i : Nat) (b : Bool) : (s.setFlag f i b).epoch = s.epoch := rfl
@[simp] theorem State.setFlag_cel (s : State) (f : Fld) (i : Nat) (b : Bool) : (s.setFlag f i b).cel = s.cel := rfl
@[simp] theorem State.setFlag_tiles (s : State) (f : Fld) (i : Nat) (b : Bool) : (s.setFlag f i b).tiles = s.tiles := rfl
@[simp] theorem State.setFlag_hall (s : State) (f : Fld) (i : Nat) (b : Bool) : (s.setFlag f i b).hall = s.hall := rfl
@[simp] theorem State.setFlag_prog (s : State) (f : Fld) (i : Nat) (b : Bool) : (s.setFlag f i b).prog = s.prog := rfl
@[simp] theorem State.setFlag_trg (s : State) (f : Fld) (i : Nat) (b : Bool) : (s.setFlag f i b).trg = s.trg := rfl
@[simp] theorem State.setFlag_turn (s : State) (f : Fld) (i : Nat) (b : Bool) : (s.setFlag f i b).turn = s.turn := rfl
@[simp] theorem State.setFlag_replays (s : State) (f : Fld) (i : Nat) (b : Bool) : (s.setFlag f i b).replays = s.replays := rfl
@[simp] theorem State.setFlag_opals (s : State) (f : Fld) (i : Nat) (b : Bool) : (s.setFlag f i b).opals = s.opals := rfl
@[simp] theorem State.setFlag_oplMap (s : State) (f : Fld) (i : Nat) (b : Bool) : (s.setFlag f i b).oplMap = s.oplMap := rfl
@[simp] theorem State.setFlag_oplSwap (s : State) (f : Fld) (i : Nat) (b : Bool) : (s.setFlag f i b).oplSwap = s.oplSwap := rfl
@[simp] theorem State.setFlag_scans (s : State) (f : Fld) (i : Nat) (b : Bool) : (s.setFlag f i b).scans = s.scans := rfl
@[simp] theorem State.setFlag_dma (s : State) (f : Fld) (i : Nat) (b : Bool) : (s.setFlag f i b).dma = s.dma := rfl
@[simp] theorem State.setFlag_msix (s : State) (f : Fld) (i : Nat) (b : Bool) : (s.setFlag f i b).msix = s.msix := rfl
@[simp] theorem State.setFlag_stm (s : State) (f : Fld) (i : Nat) (b : Bool) : (s.setFlag f i b).stm = s.stm := rfl
@[simp] theorem State.setFlag_fab (s : State) (f : Fld) (i : Nat) (b : Bool) : (s.setFlag f i b).fab = s.fab := rfl
@[simp] theorem State.setFlag_cal (s : State) (f : Fld) (i : Nat) (b : Bool) : (s.setFlag f i b).cal = s.cal := rfl
@[simp] theorem State.setFlag_hk (s : State) (f : Fld) (i : Nat) (b : Bool) : (s.setFlag f i b).hk = s.hk := rfl
@[simp] theorem State.setFlag_pwr (s : State) (f : Fld) (i : Nat) (b : Bool) : (s.setFlag f i b).pwr = s.pwr := rfl
@[simp] theorem State.setFlag_pan (s : State) (f : Fld) (i : Nat) (b : Bool) : (s.setFlag f i b).pan = s.pan := rfl
@[simp] theorem State.setFlag_rcv (s : State) (f : Fld) (i : Nat) (b : Bool) : (s.setFlag f i b).rcv = s.rcv := rfl
@[simp] theorem State.setFlag_sec (s : State) (f : Fld) (i : Nat) (b : Bool) : (s.setFlag f i b).sec = s.sec := rfl
@[simp] theorem State.setFlag_byte (s : State) (f : Fld) (i : Nat) (b : Bool) (addr : Nat) : (s.setFlag f i b).byte addr = s.byte addr := rfl

/-! ## `State.addFld` -/

@[simp] theorem State.addFld_pending (s : State) (f : Fld) (i n : Nat) : (s.addFld f i n).pending = s.pending := rfl
@[simp] theorem State.addFld_now (s : State) (f : Fld) (i n : Nat) : (s.addFld f i n).now = s.now := rfl
@[simp] theorem State.addFld_free (s : State) (f : Fld) (i n : Nat) : (s.addFld f i n).free = s.free := rfl
@[simp] theorem State.addFld_dev (s : State) (f : Fld) (i n : Nat) : (s.addFld f i n).dev = s.dev := rfl
@[simp] theorem State.addFld_staged (s : State) (f : Fld) (i n : Nat) : (s.addFld f i n).staged = s.staged := rfl
@[simp] theorem State.addFld_lv (s : State) (f : Fld) (i n : Nat) : (s.addFld f i n).lv = s.lv := rfl
@[simp] theorem State.addFld_held (s : State) (f : Fld) (i n : Nat) : (s.addFld f i n).held = s.held := rfl
@[simp] theorem State.addFld_capt (s : State) (f : Fld) (i n : Nat) : (s.addFld f i n).capt = s.capt := rfl
@[simp] theorem State.addFld_mem (s : State) (f : Fld) (i n : Nat) : (s.addFld f i n).mem = s.mem := rfl
@[simp] theorem State.addFld_out (s : State) (f : Fld) (i n : Nat) : (s.addFld f i n).out = s.out := rfl
@[simp] theorem State.addFld_evq (s : State) (f : Fld) (i n : Nat) : (s.addFld f i n).evq = s.evq := rfl
@[simp] theorem State.addFld_jasper (s : State) (f : Fld) (i n : Nat) : (s.addFld f i n).jasper = s.jasper := rfl
@[simp] theorem State.addFld_completion (s : State) (f : Fld) (i n : Nat) : (s.addFld f i n).completion = s.completion := rfl
@[simp] theorem State.addFld_telemetry (s : State) (f : Fld) (i n : Nat) : (s.addFld f i n).telemetry = s.telemetry := rfl
@[simp] theorem State.addFld_time (s : State) (f : Fld) (i n : Nat) : (s.addFld f i n).time = s.time := rfl
@[simp] theorem State.addFld_dies (s : State) (f : Fld) (i n : Nat) : (s.addFld f i n).dies = s.dies := rfl
@[simp] theorem State.addFld_chans (s : State) (f : Fld) (i n : Nat) : (s.addFld f i n).chans = s.chans := rfl
@[simp] theorem State.addFld_cmps (s : State) (f : Fld) (i n : Nat) : (s.addFld f i n).cmps = s.cmps := rfl
@[simp] theorem State.addFld_clk (s : State) (f : Fld) (i n : Nat) : (s.addFld f i n).clk = s.clk := rfl
@[simp] theorem State.addFld_tins (s : State) (f : Fld) (i n : Nat) : (s.addFld f i n).tins = s.tins := rfl
@[simp] theorem State.addFld_epoch (s : State) (f : Fld) (i n : Nat) : (s.addFld f i n).epoch = s.epoch := rfl
@[simp] theorem State.addFld_cel (s : State) (f : Fld) (i n : Nat) : (s.addFld f i n).cel = s.cel := rfl
@[simp] theorem State.addFld_tiles (s : State) (f : Fld) (i n : Nat) : (s.addFld f i n).tiles = s.tiles := rfl
@[simp] theorem State.addFld_hall (s : State) (f : Fld) (i n : Nat) : (s.addFld f i n).hall = s.hall := rfl
@[simp] theorem State.addFld_prog (s : State) (f : Fld) (i n : Nat) : (s.addFld f i n).prog = s.prog := rfl
@[simp] theorem State.addFld_trg (s : State) (f : Fld) (i n : Nat) : (s.addFld f i n).trg = s.trg := rfl
@[simp] theorem State.addFld_turn (s : State) (f : Fld) (i n : Nat) : (s.addFld f i n).turn = s.turn := rfl
@[simp] theorem State.addFld_replays (s : State) (f : Fld) (i n : Nat) : (s.addFld f i n).replays = s.replays := rfl
@[simp] theorem State.addFld_opals (s : State) (f : Fld) (i n : Nat) : (s.addFld f i n).opals = s.opals := rfl
@[simp] theorem State.addFld_oplMap (s : State) (f : Fld) (i n : Nat) : (s.addFld f i n).oplMap = s.oplMap := rfl
@[simp] theorem State.addFld_oplSwap (s : State) (f : Fld) (i n : Nat) : (s.addFld f i n).oplSwap = s.oplSwap := rfl
@[simp] theorem State.addFld_scans (s : State) (f : Fld) (i n : Nat) : (s.addFld f i n).scans = s.scans := rfl
@[simp] theorem State.addFld_dma (s : State) (f : Fld) (i n : Nat) : (s.addFld f i n).dma = s.dma := rfl
@[simp] theorem State.addFld_msix (s : State) (f : Fld) (i n : Nat) : (s.addFld f i n).msix = s.msix := rfl
@[simp] theorem State.addFld_stm (s : State) (f : Fld) (i n : Nat) : (s.addFld f i n).stm = s.stm := rfl
@[simp] theorem State.addFld_fab (s : State) (f : Fld) (i n : Nat) : (s.addFld f i n).fab = s.fab := rfl
@[simp] theorem State.addFld_cal (s : State) (f : Fld) (i n : Nat) : (s.addFld f i n).cal = s.cal := rfl
@[simp] theorem State.addFld_hk (s : State) (f : Fld) (i n : Nat) : (s.addFld f i n).hk = s.hk := rfl
@[simp] theorem State.addFld_pwr (s : State) (f : Fld) (i n : Nat) : (s.addFld f i n).pwr = s.pwr := rfl
@[simp] theorem State.addFld_pan (s : State) (f : Fld) (i n : Nat) : (s.addFld f i n).pan = s.pan := rfl
@[simp] theorem State.addFld_rcv (s : State) (f : Fld) (i n : Nat) : (s.addFld f i n).rcv = s.rcv := rfl
@[simp] theorem State.addFld_sec (s : State) (f : Fld) (i n : Nat) : (s.addFld f i n).sec = s.sec := rfl
@[simp] theorem State.addFld_byte (s : State) (f : Fld) (i n : Nat) (addr : Nat) : (s.addFld f i n).byte addr = s.byte addr := rfl

/-! ## `State.setReg64` -/

@[simp] theorem State.setReg64_pending (s : State) (lo hi : Reg) (i v : Nat) : (s.setReg64 lo hi i v).pending = s.pending := rfl
@[simp] theorem State.setReg64_now (s : State) (lo hi : Reg) (i v : Nat) : (s.setReg64 lo hi i v).now = s.now := rfl
@[simp] theorem State.setReg64_free (s : State) (lo hi : Reg) (i v : Nat) : (s.setReg64 lo hi i v).free = s.free := rfl
@[simp] theorem State.setReg64_dev (s : State) (lo hi : Reg) (i v : Nat) : (s.setReg64 lo hi i v).dev = s.dev := rfl
@[simp] theorem State.setReg64_staged (s : State) (lo hi : Reg) (i v : Nat) : (s.setReg64 lo hi i v).staged = s.staged := rfl
@[simp] theorem State.setReg64_lv (s : State) (lo hi : Reg) (i v : Nat) : (s.setReg64 lo hi i v).lv = s.lv := rfl
@[simp] theorem State.setReg64_held (s : State) (lo hi : Reg) (i v : Nat) : (s.setReg64 lo hi i v).held = s.held := rfl
@[simp] theorem State.setReg64_capt (s : State) (lo hi : Reg) (i v : Nat) : (s.setReg64 lo hi i v).capt = s.capt := rfl
@[simp] theorem State.setReg64_mem (s : State) (lo hi : Reg) (i v : Nat) : (s.setReg64 lo hi i v).mem = s.mem := rfl
@[simp] theorem State.setReg64_out (s : State) (lo hi : Reg) (i v : Nat) : (s.setReg64 lo hi i v).out = s.out := rfl
@[simp] theorem State.setReg64_evq (s : State) (lo hi : Reg) (i v : Nat) : (s.setReg64 lo hi i v).evq = s.evq := rfl
@[simp] theorem State.setReg64_jasper (s : State) (lo hi : Reg) (i v : Nat) : (s.setReg64 lo hi i v).jasper = s.jasper := rfl
@[simp] theorem State.setReg64_completion (s : State) (lo hi : Reg) (i v : Nat) : (s.setReg64 lo hi i v).completion = s.completion := rfl
@[simp] theorem State.setReg64_telemetry (s : State) (lo hi : Reg) (i v : Nat) : (s.setReg64 lo hi i v).telemetry = s.telemetry := rfl
@[simp] theorem State.setReg64_time (s : State) (lo hi : Reg) (i v : Nat) : (s.setReg64 lo hi i v).time = s.time := rfl
@[simp] theorem State.setReg64_dies (s : State) (lo hi : Reg) (i v : Nat) : (s.setReg64 lo hi i v).dies = s.dies := rfl
@[simp] theorem State.setReg64_chans (s : State) (lo hi : Reg) (i v : Nat) : (s.setReg64 lo hi i v).chans = s.chans := rfl
@[simp] theorem State.setReg64_cmps (s : State) (lo hi : Reg) (i v : Nat) : (s.setReg64 lo hi i v).cmps = s.cmps := rfl
@[simp] theorem State.setReg64_clk (s : State) (lo hi : Reg) (i v : Nat) : (s.setReg64 lo hi i v).clk = s.clk := rfl
@[simp] theorem State.setReg64_tins (s : State) (lo hi : Reg) (i v : Nat) : (s.setReg64 lo hi i v).tins = s.tins := rfl
@[simp] theorem State.setReg64_epoch (s : State) (lo hi : Reg) (i v : Nat) : (s.setReg64 lo hi i v).epoch = s.epoch := rfl
@[simp] theorem State.setReg64_cel (s : State) (lo hi : Reg) (i v : Nat) : (s.setReg64 lo hi i v).cel = s.cel := rfl
@[simp] theorem State.setReg64_tiles (s : State) (lo hi : Reg) (i v : Nat) : (s.setReg64 lo hi i v).tiles = s.tiles := rfl
@[simp] theorem State.setReg64_hall (s : State) (lo hi : Reg) (i v : Nat) : (s.setReg64 lo hi i v).hall = s.hall := rfl
@[simp] theorem State.setReg64_prog (s : State) (lo hi : Reg) (i v : Nat) : (s.setReg64 lo hi i v).prog = s.prog := rfl
@[simp] theorem State.setReg64_trg (s : State) (lo hi : Reg) (i v : Nat) : (s.setReg64 lo hi i v).trg = s.trg := rfl
@[simp] theorem State.setReg64_turn (s : State) (lo hi : Reg) (i v : Nat) : (s.setReg64 lo hi i v).turn = s.turn := rfl
@[simp] theorem State.setReg64_replays (s : State) (lo hi : Reg) (i v : Nat) : (s.setReg64 lo hi i v).replays = s.replays := rfl
@[simp] theorem State.setReg64_opals (s : State) (lo hi : Reg) (i v : Nat) : (s.setReg64 lo hi i v).opals = s.opals := rfl
@[simp] theorem State.setReg64_oplMap (s : State) (lo hi : Reg) (i v : Nat) : (s.setReg64 lo hi i v).oplMap = s.oplMap := rfl
@[simp] theorem State.setReg64_oplSwap (s : State) (lo hi : Reg) (i v : Nat) : (s.setReg64 lo hi i v).oplSwap = s.oplSwap := rfl
@[simp] theorem State.setReg64_scans (s : State) (lo hi : Reg) (i v : Nat) : (s.setReg64 lo hi i v).scans = s.scans := rfl
@[simp] theorem State.setReg64_dma (s : State) (lo hi : Reg) (i v : Nat) : (s.setReg64 lo hi i v).dma = s.dma := rfl
@[simp] theorem State.setReg64_msix (s : State) (lo hi : Reg) (i v : Nat) : (s.setReg64 lo hi i v).msix = s.msix := rfl
@[simp] theorem State.setReg64_stm (s : State) (lo hi : Reg) (i v : Nat) : (s.setReg64 lo hi i v).stm = s.stm := rfl
@[simp] theorem State.setReg64_fab (s : State) (lo hi : Reg) (i v : Nat) : (s.setReg64 lo hi i v).fab = s.fab := rfl
@[simp] theorem State.setReg64_cal (s : State) (lo hi : Reg) (i v : Nat) : (s.setReg64 lo hi i v).cal = s.cal := rfl
@[simp] theorem State.setReg64_hk (s : State) (lo hi : Reg) (i v : Nat) : (s.setReg64 lo hi i v).hk = s.hk := rfl
@[simp] theorem State.setReg64_pwr (s : State) (lo hi : Reg) (i v : Nat) : (s.setReg64 lo hi i v).pwr = s.pwr := rfl
@[simp] theorem State.setReg64_pan (s : State) (lo hi : Reg) (i v : Nat) : (s.setReg64 lo hi i v).pan = s.pan := rfl
@[simp] theorem State.setReg64_rcv (s : State) (lo hi : Reg) (i v : Nat) : (s.setReg64 lo hi i v).rcv = s.rcv := rfl
@[simp] theorem State.setReg64_sec (s : State) (lo hi : Reg) (i v : Nat) : (s.setReg64 lo hi i v).sec = s.sec := rfl
@[simp] theorem State.setReg64_byte (s : State) (lo hi : Reg) (i v : Nat) (addr : Nat) : (s.setReg64 lo hi i v).byte addr = s.byte addr := rfl

/-! ## `State.takeWord` -/

@[simp] theorem State.takeWord_pending (s : State) (k : RegKey) (v : Word) : (s.takeWord k v).pending = s.pending := rfl
@[simp] theorem State.takeWord_now (s : State) (k : RegKey) (v : Word) : (s.takeWord k v).now = s.now := rfl
@[simp] theorem State.takeWord_free (s : State) (k : RegKey) (v : Word) : (s.takeWord k v).free = s.free := rfl
@[simp] theorem State.takeWord_dev (s : State) (k : RegKey) (v : Word) : (s.takeWord k v).dev = s.dev := rfl
@[simp] theorem State.takeWord_staged (s : State) (k : RegKey) (v : Word) : (s.takeWord k v).staged = s.staged := rfl
@[simp] theorem State.takeWord_lv (s : State) (k : RegKey) (v : Word) : (s.takeWord k v).lv = s.lv := rfl
@[simp] theorem State.takeWord_held (s : State) (k : RegKey) (v : Word) : (s.takeWord k v).held = s.held := rfl
@[simp] theorem State.takeWord_capt (s : State) (k : RegKey) (v : Word) : (s.takeWord k v).capt = s.capt := rfl
@[simp] theorem State.takeWord_mem (s : State) (k : RegKey) (v : Word) : (s.takeWord k v).mem = s.mem := rfl
@[simp] theorem State.takeWord_out (s : State) (k : RegKey) (v : Word) : (s.takeWord k v).out = s.out := rfl
@[simp] theorem State.takeWord_evq (s : State) (k : RegKey) (v : Word) : (s.takeWord k v).evq = s.evq := rfl
@[simp] theorem State.takeWord_jasper (s : State) (k : RegKey) (v : Word) : (s.takeWord k v).jasper = s.jasper := rfl
@[simp] theorem State.takeWord_completion (s : State) (k : RegKey) (v : Word) : (s.takeWord k v).completion = s.completion := rfl
@[simp] theorem State.takeWord_telemetry (s : State) (k : RegKey) (v : Word) : (s.takeWord k v).telemetry = s.telemetry := rfl
@[simp] theorem State.takeWord_time (s : State) (k : RegKey) (v : Word) : (s.takeWord k v).time = s.time := rfl
@[simp] theorem State.takeWord_dies (s : State) (k : RegKey) (v : Word) : (s.takeWord k v).dies = s.dies := rfl
@[simp] theorem State.takeWord_chans (s : State) (k : RegKey) (v : Word) : (s.takeWord k v).chans = s.chans := rfl
@[simp] theorem State.takeWord_cmps (s : State) (k : RegKey) (v : Word) : (s.takeWord k v).cmps = s.cmps := rfl
@[simp] theorem State.takeWord_clk (s : State) (k : RegKey) (v : Word) : (s.takeWord k v).clk = s.clk := rfl
@[simp] theorem State.takeWord_tins (s : State) (k : RegKey) (v : Word) : (s.takeWord k v).tins = s.tins := rfl
@[simp] theorem State.takeWord_epoch (s : State) (k : RegKey) (v : Word) : (s.takeWord k v).epoch = s.epoch := rfl
@[simp] theorem State.takeWord_cel (s : State) (k : RegKey) (v : Word) : (s.takeWord k v).cel = s.cel := rfl
@[simp] theorem State.takeWord_tiles (s : State) (k : RegKey) (v : Word) : (s.takeWord k v).tiles = s.tiles := rfl
@[simp] theorem State.takeWord_hall (s : State) (k : RegKey) (v : Word) : (s.takeWord k v).hall = s.hall := rfl
@[simp] theorem State.takeWord_prog (s : State) (k : RegKey) (v : Word) : (s.takeWord k v).prog = s.prog := rfl
@[simp] theorem State.takeWord_trg (s : State) (k : RegKey) (v : Word) : (s.takeWord k v).trg = s.trg := rfl
@[simp] theorem State.takeWord_turn (s : State) (k : RegKey) (v : Word) : (s.takeWord k v).turn = s.turn := rfl
@[simp] theorem State.takeWord_replays (s : State) (k : RegKey) (v : Word) : (s.takeWord k v).replays = s.replays := rfl
@[simp] theorem State.takeWord_opals (s : State) (k : RegKey) (v : Word) : (s.takeWord k v).opals = s.opals := rfl
@[simp] theorem State.takeWord_oplMap (s : State) (k : RegKey) (v : Word) : (s.takeWord k v).oplMap = s.oplMap := rfl
@[simp] theorem State.takeWord_oplSwap (s : State) (k : RegKey) (v : Word) : (s.takeWord k v).oplSwap = s.oplSwap := rfl
@[simp] theorem State.takeWord_scans (s : State) (k : RegKey) (v : Word) : (s.takeWord k v).scans = s.scans := rfl
@[simp] theorem State.takeWord_dma (s : State) (k : RegKey) (v : Word) : (s.takeWord k v).dma = s.dma := rfl
@[simp] theorem State.takeWord_msix (s : State) (k : RegKey) (v : Word) : (s.takeWord k v).msix = s.msix := rfl
@[simp] theorem State.takeWord_stm (s : State) (k : RegKey) (v : Word) : (s.takeWord k v).stm = s.stm := rfl
@[simp] theorem State.takeWord_fab (s : State) (k : RegKey) (v : Word) : (s.takeWord k v).fab = s.fab := rfl
@[simp] theorem State.takeWord_cal (s : State) (k : RegKey) (v : Word) : (s.takeWord k v).cal = s.cal := rfl
@[simp] theorem State.takeWord_hk (s : State) (k : RegKey) (v : Word) : (s.takeWord k v).hk = s.hk := rfl
@[simp] theorem State.takeWord_pwr (s : State) (k : RegKey) (v : Word) : (s.takeWord k v).pwr = s.pwr := rfl
@[simp] theorem State.takeWord_pan (s : State) (k : RegKey) (v : Word) : (s.takeWord k v).pan = s.pan := rfl
@[simp] theorem State.takeWord_rcv (s : State) (k : RegKey) (v : Word) : (s.takeWord k v).rcv = s.rcv := rfl
@[simp] theorem State.takeWord_sec (s : State) (k : RegKey) (v : Word) : (s.takeWord k v).sec = s.sec := rfl
@[simp] theorem State.takeWord_byte (s : State) (k : RegKey) (v : Word) (addr : Nat) : (s.takeWord k v).byte addr = s.byte addr := rfl

/-! ## `State.stage` -/

@[simp] theorem State.stage_pending (s : State) (r : Reg) (i : Nat) (v : Word) : (s.stage r i v).pending = s.pending := rfl
@[simp] theorem State.stage_now (s : State) (r : Reg) (i : Nat) (v : Word) : (s.stage r i v).now = s.now := rfl
@[simp] theorem State.stage_free (s : State) (r : Reg) (i : Nat) (v : Word) : (s.stage r i v).free = s.free := rfl
@[simp] theorem State.stage_dev (s : State) (r : Reg) (i : Nat) (v : Word) : (s.stage r i v).dev = s.dev := rfl
@[simp] theorem State.stage_regs (s : State) (r : Reg) (i : Nat) (v : Word) : (s.stage r i v).regs = s.regs := rfl
@[simp] theorem State.stage_lv (s : State) (r : Reg) (i : Nat) (v : Word) : (s.stage r i v).lv = s.lv := rfl
@[simp] theorem State.stage_held (s : State) (r : Reg) (i : Nat) (v : Word) : (s.stage r i v).held = s.held := rfl
@[simp] theorem State.stage_capt (s : State) (r : Reg) (i : Nat) (v : Word) : (s.stage r i v).capt = s.capt := rfl
@[simp] theorem State.stage_mem (s : State) (r : Reg) (i : Nat) (v : Word) : (s.stage r i v).mem = s.mem := rfl
@[simp] theorem State.stage_out (s : State) (r : Reg) (i : Nat) (v : Word) : (s.stage r i v).out = s.out := rfl
@[simp] theorem State.stage_evq (s : State) (r : Reg) (i : Nat) (v : Word) : (s.stage r i v).evq = s.evq := rfl
@[simp] theorem State.stage_jasper (s : State) (r : Reg) (i : Nat) (v : Word) : (s.stage r i v).jasper = s.jasper := rfl
@[simp] theorem State.stage_completion (s : State) (r : Reg) (i : Nat) (v : Word) : (s.stage r i v).completion = s.completion := rfl
@[simp] theorem State.stage_telemetry (s : State) (r : Reg) (i : Nat) (v : Word) : (s.stage r i v).telemetry = s.telemetry := rfl
@[simp] theorem State.stage_time (s : State) (r : Reg) (i : Nat) (v : Word) : (s.stage r i v).time = s.time := rfl
@[simp] theorem State.stage_dies (s : State) (r : Reg) (i : Nat) (v : Word) : (s.stage r i v).dies = s.dies := rfl
@[simp] theorem State.stage_chans (s : State) (r : Reg) (i : Nat) (v : Word) : (s.stage r i v).chans = s.chans := rfl
@[simp] theorem State.stage_cmps (s : State) (r : Reg) (i : Nat) (v : Word) : (s.stage r i v).cmps = s.cmps := rfl
@[simp] theorem State.stage_clk (s : State) (r : Reg) (i : Nat) (v : Word) : (s.stage r i v).clk = s.clk := rfl
@[simp] theorem State.stage_tins (s : State) (r : Reg) (i : Nat) (v : Word) : (s.stage r i v).tins = s.tins := rfl
@[simp] theorem State.stage_epoch (s : State) (r : Reg) (i : Nat) (v : Word) : (s.stage r i v).epoch = s.epoch := rfl
@[simp] theorem State.stage_cel (s : State) (r : Reg) (i : Nat) (v : Word) : (s.stage r i v).cel = s.cel := rfl
@[simp] theorem State.stage_tiles (s : State) (r : Reg) (i : Nat) (v : Word) : (s.stage r i v).tiles = s.tiles := rfl
@[simp] theorem State.stage_hall (s : State) (r : Reg) (i : Nat) (v : Word) : (s.stage r i v).hall = s.hall := rfl
@[simp] theorem State.stage_prog (s : State) (r : Reg) (i : Nat) (v : Word) : (s.stage r i v).prog = s.prog := rfl
@[simp] theorem State.stage_trg (s : State) (r : Reg) (i : Nat) (v : Word) : (s.stage r i v).trg = s.trg := rfl
@[simp] theorem State.stage_turn (s : State) (r : Reg) (i : Nat) (v : Word) : (s.stage r i v).turn = s.turn := rfl
@[simp] theorem State.stage_replays (s : State) (r : Reg) (i : Nat) (v : Word) : (s.stage r i v).replays = s.replays := rfl
@[simp] theorem State.stage_opals (s : State) (r : Reg) (i : Nat) (v : Word) : (s.stage r i v).opals = s.opals := rfl
@[simp] theorem State.stage_oplMap (s : State) (r : Reg) (i : Nat) (v : Word) : (s.stage r i v).oplMap = s.oplMap := rfl
@[simp] theorem State.stage_oplSwap (s : State) (r : Reg) (i : Nat) (v : Word) : (s.stage r i v).oplSwap = s.oplSwap := rfl
@[simp] theorem State.stage_scans (s : State) (r : Reg) (i : Nat) (v : Word) : (s.stage r i v).scans = s.scans := rfl
@[simp] theorem State.stage_dma (s : State) (r : Reg) (i : Nat) (v : Word) : (s.stage r i v).dma = s.dma := rfl
@[simp] theorem State.stage_msix (s : State) (r : Reg) (i : Nat) (v : Word) : (s.stage r i v).msix = s.msix := rfl
@[simp] theorem State.stage_stm (s : State) (r : Reg) (i : Nat) (v : Word) : (s.stage r i v).stm = s.stm := rfl
@[simp] theorem State.stage_fab (s : State) (r : Reg) (i : Nat) (v : Word) : (s.stage r i v).fab = s.fab := rfl
@[simp] theorem State.stage_cal (s : State) (r : Reg) (i : Nat) (v : Word) : (s.stage r i v).cal = s.cal := rfl
@[simp] theorem State.stage_hk (s : State) (r : Reg) (i : Nat) (v : Word) : (s.stage r i v).hk = s.hk := rfl
@[simp] theorem State.stage_pwr (s : State) (r : Reg) (i : Nat) (v : Word) : (s.stage r i v).pwr = s.pwr := rfl
@[simp] theorem State.stage_pan (s : State) (r : Reg) (i : Nat) (v : Word) : (s.stage r i v).pan = s.pan := rfl
@[simp] theorem State.stage_rcv (s : State) (r : Reg) (i : Nat) (v : Word) : (s.stage r i v).rcv = s.rcv := rfl
@[simp] theorem State.stage_sec (s : State) (r : Reg) (i : Nat) (v : Word) : (s.stage r i v).sec = s.sec := rfl
@[simp] theorem State.stage_reg (s : State) (r : Reg) (i : Nat) (v : Word) (q : Reg) (j : Nat) : (s.stage r i v).reg q j = s.reg q j := rfl
@[simp] theorem State.stage_fld (s : State) (r : Reg) (i : Nat) (v : Word) (q : Fld) (j : Nat) : (s.stage r i v).fld q j = s.fld q j := rfl
@[simp] theorem State.stage_flag (s : State) (r : Reg) (i : Nat) (v : Word) (q : Fld) (j : Nat) : (s.stage r i v).flag q j = s.flag q j := rfl
@[simp] theorem State.stage_byte (s : State) (r : Reg) (i : Nat) (v : Word) (addr : Nat) : (s.stage r i v).byte addr = s.byte addr := rfl

/-! ## `State.setDie` -/

@[simp] theorem State.setDie_pending (s : State) (k : Nat) (d : Die) : (s.setDie k d).pending = s.pending := rfl
@[simp] theorem State.setDie_now (s : State) (k : Nat) (d : Die) : (s.setDie k d).now = s.now := rfl
@[simp] theorem State.setDie_free (s : State) (k : Nat) (d : Die) : (s.setDie k d).free = s.free := rfl
@[simp] theorem State.setDie_dev (s : State) (k : Nat) (d : Die) : (s.setDie k d).dev = s.dev := rfl
@[simp] theorem State.setDie_regs (s : State) (k : Nat) (d : Die) : (s.setDie k d).regs = s.regs := rfl
@[simp] theorem State.setDie_staged (s : State) (k : Nat) (d : Die) : (s.setDie k d).staged = s.staged := rfl
@[simp] theorem State.setDie_lv (s : State) (k : Nat) (d : Die) : (s.setDie k d).lv = s.lv := rfl
@[simp] theorem State.setDie_held (s : State) (k : Nat) (d : Die) : (s.setDie k d).held = s.held := rfl
@[simp] theorem State.setDie_capt (s : State) (k : Nat) (d : Die) : (s.setDie k d).capt = s.capt := rfl
@[simp] theorem State.setDie_mem (s : State) (k : Nat) (d : Die) : (s.setDie k d).mem = s.mem := rfl
@[simp] theorem State.setDie_out (s : State) (k : Nat) (d : Die) : (s.setDie k d).out = s.out := rfl
@[simp] theorem State.setDie_evq (s : State) (k : Nat) (d : Die) : (s.setDie k d).evq = s.evq := rfl
@[simp] theorem State.setDie_jasper (s : State) (k : Nat) (d : Die) : (s.setDie k d).jasper = s.jasper := rfl
@[simp] theorem State.setDie_completion (s : State) (k : Nat) (d : Die) : (s.setDie k d).completion = s.completion := rfl
@[simp] theorem State.setDie_telemetry (s : State) (k : Nat) (d : Die) : (s.setDie k d).telemetry = s.telemetry := rfl
@[simp] theorem State.setDie_time (s : State) (k : Nat) (d : Die) : (s.setDie k d).time = s.time := rfl
@[simp] theorem State.setDie_chans (s : State) (k : Nat) (d : Die) : (s.setDie k d).chans = s.chans := rfl
@[simp] theorem State.setDie_cmps (s : State) (k : Nat) (d : Die) : (s.setDie k d).cmps = s.cmps := rfl
@[simp] theorem State.setDie_clk (s : State) (k : Nat) (d : Die) : (s.setDie k d).clk = s.clk := rfl
@[simp] theorem State.setDie_tins (s : State) (k : Nat) (d : Die) : (s.setDie k d).tins = s.tins := rfl
@[simp] theorem State.setDie_epoch (s : State) (k : Nat) (d : Die) : (s.setDie k d).epoch = s.epoch := rfl
@[simp] theorem State.setDie_cel (s : State) (k : Nat) (d : Die) : (s.setDie k d).cel = s.cel := rfl
@[simp] theorem State.setDie_tiles (s : State) (k : Nat) (d : Die) : (s.setDie k d).tiles = s.tiles := rfl
@[simp] theorem State.setDie_hall (s : State) (k : Nat) (d : Die) : (s.setDie k d).hall = s.hall := rfl
@[simp] theorem State.setDie_prog (s : State) (k : Nat) (d : Die) : (s.setDie k d).prog = s.prog := rfl
@[simp] theorem State.setDie_trg (s : State) (k : Nat) (d : Die) : (s.setDie k d).trg = s.trg := rfl
@[simp] theorem State.setDie_turn (s : State) (k : Nat) (d : Die) : (s.setDie k d).turn = s.turn := rfl
@[simp] theorem State.setDie_replays (s : State) (k : Nat) (d : Die) : (s.setDie k d).replays = s.replays := rfl
@[simp] theorem State.setDie_opals (s : State) (k : Nat) (d : Die) : (s.setDie k d).opals = s.opals := rfl
@[simp] theorem State.setDie_oplMap (s : State) (k : Nat) (d : Die) : (s.setDie k d).oplMap = s.oplMap := rfl
@[simp] theorem State.setDie_oplSwap (s : State) (k : Nat) (d : Die) : (s.setDie k d).oplSwap = s.oplSwap := rfl
@[simp] theorem State.setDie_scans (s : State) (k : Nat) (d : Die) : (s.setDie k d).scans = s.scans := rfl
@[simp] theorem State.setDie_dma (s : State) (k : Nat) (d : Die) : (s.setDie k d).dma = s.dma := rfl
@[simp] theorem State.setDie_msix (s : State) (k : Nat) (d : Die) : (s.setDie k d).msix = s.msix := rfl
@[simp] theorem State.setDie_stm (s : State) (k : Nat) (d : Die) : (s.setDie k d).stm = s.stm := rfl
@[simp] theorem State.setDie_fab (s : State) (k : Nat) (d : Die) : (s.setDie k d).fab = s.fab := rfl
@[simp] theorem State.setDie_cal (s : State) (k : Nat) (d : Die) : (s.setDie k d).cal = s.cal := rfl
@[simp] theorem State.setDie_hk (s : State) (k : Nat) (d : Die) : (s.setDie k d).hk = s.hk := rfl
@[simp] theorem State.setDie_pwr (s : State) (k : Nat) (d : Die) : (s.setDie k d).pwr = s.pwr := rfl
@[simp] theorem State.setDie_pan (s : State) (k : Nat) (d : Die) : (s.setDie k d).pan = s.pan := rfl
@[simp] theorem State.setDie_rcv (s : State) (k : Nat) (d : Die) : (s.setDie k d).rcv = s.rcv := rfl
@[simp] theorem State.setDie_sec (s : State) (k : Nat) (d : Die) : (s.setDie k d).sec = s.sec := rfl
@[simp] theorem State.setDie_reg (s : State) (k : Nat) (d : Die) (q : Reg) (j : Nat) : (s.setDie k d).reg q j = s.reg q j := rfl
@[simp] theorem State.setDie_fld (s : State) (k : Nat) (d : Die) (q : Fld) (j : Nat) : (s.setDie k d).fld q j = s.fld q j := rfl
@[simp] theorem State.setDie_flag (s : State) (k : Nat) (d : Die) (q : Fld) (j : Nat) : (s.setDie k d).flag q j = s.flag q j := rfl
@[simp] theorem State.setDie_byte (s : State) (k : Nat) (d : Die) (addr : Nat) : (s.setDie k d).byte addr = s.byte addr := rfl

/-! ## `State.setChan` -/

@[simp] theorem State.setChan_pending (s : State) (c : Nat) (d : Chan) : (s.setChan c d).pending = s.pending := rfl
@[simp] theorem State.setChan_now (s : State) (c : Nat) (d : Chan) : (s.setChan c d).now = s.now := rfl
@[simp] theorem State.setChan_free (s : State) (c : Nat) (d : Chan) : (s.setChan c d).free = s.free := rfl
@[simp] theorem State.setChan_dev (s : State) (c : Nat) (d : Chan) : (s.setChan c d).dev = s.dev := rfl
@[simp] theorem State.setChan_regs (s : State) (c : Nat) (d : Chan) : (s.setChan c d).regs = s.regs := rfl
@[simp] theorem State.setChan_staged (s : State) (c : Nat) (d : Chan) : (s.setChan c d).staged = s.staged := rfl
@[simp] theorem State.setChan_lv (s : State) (c : Nat) (d : Chan) : (s.setChan c d).lv = s.lv := rfl
@[simp] theorem State.setChan_held (s : State) (c : Nat) (d : Chan) : (s.setChan c d).held = s.held := rfl
@[simp] theorem State.setChan_capt (s : State) (c : Nat) (d : Chan) : (s.setChan c d).capt = s.capt := rfl
@[simp] theorem State.setChan_mem (s : State) (c : Nat) (d : Chan) : (s.setChan c d).mem = s.mem := rfl
@[simp] theorem State.setChan_out (s : State) (c : Nat) (d : Chan) : (s.setChan c d).out = s.out := rfl
@[simp] theorem State.setChan_evq (s : State) (c : Nat) (d : Chan) : (s.setChan c d).evq = s.evq := rfl
@[simp] theorem State.setChan_jasper (s : State) (c : Nat) (d : Chan) : (s.setChan c d).jasper = s.jasper := rfl
@[simp] theorem State.setChan_completion (s : State) (c : Nat) (d : Chan) : (s.setChan c d).completion = s.completion := rfl
@[simp] theorem State.setChan_telemetry (s : State) (c : Nat) (d : Chan) : (s.setChan c d).telemetry = s.telemetry := rfl
@[simp] theorem State.setChan_time (s : State) (c : Nat) (d : Chan) : (s.setChan c d).time = s.time := rfl
@[simp] theorem State.setChan_dies (s : State) (c : Nat) (d : Chan) : (s.setChan c d).dies = s.dies := rfl
@[simp] theorem State.setChan_cmps (s : State) (c : Nat) (d : Chan) : (s.setChan c d).cmps = s.cmps := rfl
@[simp] theorem State.setChan_clk (s : State) (c : Nat) (d : Chan) : (s.setChan c d).clk = s.clk := rfl
@[simp] theorem State.setChan_tins (s : State) (c : Nat) (d : Chan) : (s.setChan c d).tins = s.tins := rfl
@[simp] theorem State.setChan_epoch (s : State) (c : Nat) (d : Chan) : (s.setChan c d).epoch = s.epoch := rfl
@[simp] theorem State.setChan_cel (s : State) (c : Nat) (d : Chan) : (s.setChan c d).cel = s.cel := rfl
@[simp] theorem State.setChan_tiles (s : State) (c : Nat) (d : Chan) : (s.setChan c d).tiles = s.tiles := rfl
@[simp] theorem State.setChan_hall (s : State) (c : Nat) (d : Chan) : (s.setChan c d).hall = s.hall := rfl
@[simp] theorem State.setChan_prog (s : State) (c : Nat) (d : Chan) : (s.setChan c d).prog = s.prog := rfl
@[simp] theorem State.setChan_trg (s : State) (c : Nat) (d : Chan) : (s.setChan c d).trg = s.trg := rfl
@[simp] theorem State.setChan_turn (s : State) (c : Nat) (d : Chan) : (s.setChan c d).turn = s.turn := rfl
@[simp] theorem State.setChan_replays (s : State) (c : Nat) (d : Chan) : (s.setChan c d).replays = s.replays := rfl
@[simp] theorem State.setChan_opals (s : State) (c : Nat) (d : Chan) : (s.setChan c d).opals = s.opals := rfl
@[simp] theorem State.setChan_oplMap (s : State) (c : Nat) (d : Chan) : (s.setChan c d).oplMap = s.oplMap := rfl
@[simp] theorem State.setChan_oplSwap (s : State) (c : Nat) (d : Chan) : (s.setChan c d).oplSwap = s.oplSwap := rfl
@[simp] theorem State.setChan_scans (s : State) (c : Nat) (d : Chan) : (s.setChan c d).scans = s.scans := rfl
@[simp] theorem State.setChan_dma (s : State) (c : Nat) (d : Chan) : (s.setChan c d).dma = s.dma := rfl
@[simp] theorem State.setChan_msix (s : State) (c : Nat) (d : Chan) : (s.setChan c d).msix = s.msix := rfl
@[simp] theorem State.setChan_stm (s : State) (c : Nat) (d : Chan) : (s.setChan c d).stm = s.stm := rfl
@[simp] theorem State.setChan_fab (s : State) (c : Nat) (d : Chan) : (s.setChan c d).fab = s.fab := rfl
@[simp] theorem State.setChan_cal (s : State) (c : Nat) (d : Chan) : (s.setChan c d).cal = s.cal := rfl
@[simp] theorem State.setChan_hk (s : State) (c : Nat) (d : Chan) : (s.setChan c d).hk = s.hk := rfl
@[simp] theorem State.setChan_pwr (s : State) (c : Nat) (d : Chan) : (s.setChan c d).pwr = s.pwr := rfl
@[simp] theorem State.setChan_pan (s : State) (c : Nat) (d : Chan) : (s.setChan c d).pan = s.pan := rfl
@[simp] theorem State.setChan_rcv (s : State) (c : Nat) (d : Chan) : (s.setChan c d).rcv = s.rcv := rfl
@[simp] theorem State.setChan_sec (s : State) (c : Nat) (d : Chan) : (s.setChan c d).sec = s.sec := rfl
@[simp] theorem State.setChan_reg (s : State) (c : Nat) (d : Chan) (q : Reg) (j : Nat) : (s.setChan c d).reg q j = s.reg q j := rfl
@[simp] theorem State.setChan_fld (s : State) (c : Nat) (d : Chan) (q : Fld) (j : Nat) : (s.setChan c d).fld q j = s.fld q j := rfl
@[simp] theorem State.setChan_flag (s : State) (c : Nat) (d : Chan) (q : Fld) (j : Nat) : (s.setChan c d).flag q j = s.flag q j := rfl
@[simp] theorem State.setChan_byte (s : State) (c : Nat) (d : Chan) (addr : Nat) : (s.setChan c d).byte addr = s.byte addr := rfl

/-! ## `State.setCmp` -/

@[simp] theorem State.setCmp_pending (s : State) (x : Nat) (d : CmpOut) : (s.setCmp x d).pending = s.pending := rfl
@[simp] theorem State.setCmp_now (s : State) (x : Nat) (d : CmpOut) : (s.setCmp x d).now = s.now := rfl
@[simp] theorem State.setCmp_free (s : State) (x : Nat) (d : CmpOut) : (s.setCmp x d).free = s.free := rfl
@[simp] theorem State.setCmp_dev (s : State) (x : Nat) (d : CmpOut) : (s.setCmp x d).dev = s.dev := rfl
@[simp] theorem State.setCmp_regs (s : State) (x : Nat) (d : CmpOut) : (s.setCmp x d).regs = s.regs := rfl
@[simp] theorem State.setCmp_staged (s : State) (x : Nat) (d : CmpOut) : (s.setCmp x d).staged = s.staged := rfl
@[simp] theorem State.setCmp_lv (s : State) (x : Nat) (d : CmpOut) : (s.setCmp x d).lv = s.lv := rfl
@[simp] theorem State.setCmp_held (s : State) (x : Nat) (d : CmpOut) : (s.setCmp x d).held = s.held := rfl
@[simp] theorem State.setCmp_capt (s : State) (x : Nat) (d : CmpOut) : (s.setCmp x d).capt = s.capt := rfl
@[simp] theorem State.setCmp_mem (s : State) (x : Nat) (d : CmpOut) : (s.setCmp x d).mem = s.mem := rfl
@[simp] theorem State.setCmp_out (s : State) (x : Nat) (d : CmpOut) : (s.setCmp x d).out = s.out := rfl
@[simp] theorem State.setCmp_evq (s : State) (x : Nat) (d : CmpOut) : (s.setCmp x d).evq = s.evq := rfl
@[simp] theorem State.setCmp_jasper (s : State) (x : Nat) (d : CmpOut) : (s.setCmp x d).jasper = s.jasper := rfl
@[simp] theorem State.setCmp_completion (s : State) (x : Nat) (d : CmpOut) : (s.setCmp x d).completion = s.completion := rfl
@[simp] theorem State.setCmp_telemetry (s : State) (x : Nat) (d : CmpOut) : (s.setCmp x d).telemetry = s.telemetry := rfl
@[simp] theorem State.setCmp_time (s : State) (x : Nat) (d : CmpOut) : (s.setCmp x d).time = s.time := rfl
@[simp] theorem State.setCmp_dies (s : State) (x : Nat) (d : CmpOut) : (s.setCmp x d).dies = s.dies := rfl
@[simp] theorem State.setCmp_chans (s : State) (x : Nat) (d : CmpOut) : (s.setCmp x d).chans = s.chans := rfl
@[simp] theorem State.setCmp_clk (s : State) (x : Nat) (d : CmpOut) : (s.setCmp x d).clk = s.clk := rfl
@[simp] theorem State.setCmp_tins (s : State) (x : Nat) (d : CmpOut) : (s.setCmp x d).tins = s.tins := rfl
@[simp] theorem State.setCmp_epoch (s : State) (x : Nat) (d : CmpOut) : (s.setCmp x d).epoch = s.epoch := rfl
@[simp] theorem State.setCmp_cel (s : State) (x : Nat) (d : CmpOut) : (s.setCmp x d).cel = s.cel := rfl
@[simp] theorem State.setCmp_tiles (s : State) (x : Nat) (d : CmpOut) : (s.setCmp x d).tiles = s.tiles := rfl
@[simp] theorem State.setCmp_hall (s : State) (x : Nat) (d : CmpOut) : (s.setCmp x d).hall = s.hall := rfl
@[simp] theorem State.setCmp_prog (s : State) (x : Nat) (d : CmpOut) : (s.setCmp x d).prog = s.prog := rfl
@[simp] theorem State.setCmp_trg (s : State) (x : Nat) (d : CmpOut) : (s.setCmp x d).trg = s.trg := rfl
@[simp] theorem State.setCmp_turn (s : State) (x : Nat) (d : CmpOut) : (s.setCmp x d).turn = s.turn := rfl
@[simp] theorem State.setCmp_replays (s : State) (x : Nat) (d : CmpOut) : (s.setCmp x d).replays = s.replays := rfl
@[simp] theorem State.setCmp_opals (s : State) (x : Nat) (d : CmpOut) : (s.setCmp x d).opals = s.opals := rfl
@[simp] theorem State.setCmp_oplMap (s : State) (x : Nat) (d : CmpOut) : (s.setCmp x d).oplMap = s.oplMap := rfl
@[simp] theorem State.setCmp_oplSwap (s : State) (x : Nat) (d : CmpOut) : (s.setCmp x d).oplSwap = s.oplSwap := rfl
@[simp] theorem State.setCmp_scans (s : State) (x : Nat) (d : CmpOut) : (s.setCmp x d).scans = s.scans := rfl
@[simp] theorem State.setCmp_dma (s : State) (x : Nat) (d : CmpOut) : (s.setCmp x d).dma = s.dma := rfl
@[simp] theorem State.setCmp_msix (s : State) (x : Nat) (d : CmpOut) : (s.setCmp x d).msix = s.msix := rfl
@[simp] theorem State.setCmp_stm (s : State) (x : Nat) (d : CmpOut) : (s.setCmp x d).stm = s.stm := rfl
@[simp] theorem State.setCmp_fab (s : State) (x : Nat) (d : CmpOut) : (s.setCmp x d).fab = s.fab := rfl
@[simp] theorem State.setCmp_cal (s : State) (x : Nat) (d : CmpOut) : (s.setCmp x d).cal = s.cal := rfl
@[simp] theorem State.setCmp_hk (s : State) (x : Nat) (d : CmpOut) : (s.setCmp x d).hk = s.hk := rfl
@[simp] theorem State.setCmp_pwr (s : State) (x : Nat) (d : CmpOut) : (s.setCmp x d).pwr = s.pwr := rfl
@[simp] theorem State.setCmp_pan (s : State) (x : Nat) (d : CmpOut) : (s.setCmp x d).pan = s.pan := rfl
@[simp] theorem State.setCmp_rcv (s : State) (x : Nat) (d : CmpOut) : (s.setCmp x d).rcv = s.rcv := rfl
@[simp] theorem State.setCmp_sec (s : State) (x : Nat) (d : CmpOut) : (s.setCmp x d).sec = s.sec := rfl
@[simp] theorem State.setCmp_reg (s : State) (x : Nat) (d : CmpOut) (q : Reg) (j : Nat) : (s.setCmp x d).reg q j = s.reg q j := rfl
@[simp] theorem State.setCmp_fld (s : State) (x : Nat) (d : CmpOut) (q : Fld) (j : Nat) : (s.setCmp x d).fld q j = s.fld q j := rfl
@[simp] theorem State.setCmp_flag (s : State) (x : Nat) (d : CmpOut) (q : Fld) (j : Nat) : (s.setCmp x d).flag q j = s.flag q j := rfl
@[simp] theorem State.setCmp_byte (s : State) (x : Nat) (d : CmpOut) (addr : Nat) : (s.setCmp x d).byte addr = s.byte addr := rfl

/-! ## `State.setTin` -/

@[simp] theorem State.setTin_pending (s : State) (i : Nat) (d : Tin) : (s.setTin i d).pending = s.pending := rfl
@[simp] theorem State.setTin_now (s : State) (i : Nat) (d : Tin) : (s.setTin i d).now = s.now := rfl
@[simp] theorem State.setTin_free (s : State) (i : Nat) (d : Tin) : (s.setTin i d).free = s.free := rfl
@[simp] theorem State.setTin_dev (s : State) (i : Nat) (d : Tin) : (s.setTin i d).dev = s.dev := rfl
@[simp] theorem State.setTin_regs (s : State) (i : Nat) (d : Tin) : (s.setTin i d).regs = s.regs := rfl
@[simp] theorem State.setTin_staged (s : State) (i : Nat) (d : Tin) : (s.setTin i d).staged = s.staged := rfl
@[simp] theorem State.setTin_lv (s : State) (i : Nat) (d : Tin) : (s.setTin i d).lv = s.lv := rfl
@[simp] theorem State.setTin_held (s : State) (i : Nat) (d : Tin) : (s.setTin i d).held = s.held := rfl
@[simp] theorem State.setTin_capt (s : State) (i : Nat) (d : Tin) : (s.setTin i d).capt = s.capt := rfl
@[simp] theorem State.setTin_mem (s : State) (i : Nat) (d : Tin) : (s.setTin i d).mem = s.mem := rfl
@[simp] theorem State.setTin_out (s : State) (i : Nat) (d : Tin) : (s.setTin i d).out = s.out := rfl
@[simp] theorem State.setTin_evq (s : State) (i : Nat) (d : Tin) : (s.setTin i d).evq = s.evq := rfl
@[simp] theorem State.setTin_jasper (s : State) (i : Nat) (d : Tin) : (s.setTin i d).jasper = s.jasper := rfl
@[simp] theorem State.setTin_completion (s : State) (i : Nat) (d : Tin) : (s.setTin i d).completion = s.completion := rfl
@[simp] theorem State.setTin_telemetry (s : State) (i : Nat) (d : Tin) : (s.setTin i d).telemetry = s.telemetry := rfl
@[simp] theorem State.setTin_time (s : State) (i : Nat) (d : Tin) : (s.setTin i d).time = s.time := rfl
@[simp] theorem State.setTin_dies (s : State) (i : Nat) (d : Tin) : (s.setTin i d).dies = s.dies := rfl
@[simp] theorem State.setTin_chans (s : State) (i : Nat) (d : Tin) : (s.setTin i d).chans = s.chans := rfl
@[simp] theorem State.setTin_cmps (s : State) (i : Nat) (d : Tin) : (s.setTin i d).cmps = s.cmps := rfl
@[simp] theorem State.setTin_clk (s : State) (i : Nat) (d : Tin) : (s.setTin i d).clk = s.clk := rfl
@[simp] theorem State.setTin_epoch (s : State) (i : Nat) (d : Tin) : (s.setTin i d).epoch = s.epoch := rfl
@[simp] theorem State.setTin_cel (s : State) (i : Nat) (d : Tin) : (s.setTin i d).cel = s.cel := rfl
@[simp] theorem State.setTin_tiles (s : State) (i : Nat) (d : Tin) : (s.setTin i d).tiles = s.tiles := rfl
@[simp] theorem State.setTin_hall (s : State) (i : Nat) (d : Tin) : (s.setTin i d).hall = s.hall := rfl
@[simp] theorem State.setTin_prog (s : State) (i : Nat) (d : Tin) : (s.setTin i d).prog = s.prog := rfl
@[simp] theorem State.setTin_trg (s : State) (i : Nat) (d : Tin) : (s.setTin i d).trg = s.trg := rfl
@[simp] theorem State.setTin_turn (s : State) (i : Nat) (d : Tin) : (s.setTin i d).turn = s.turn := rfl
@[simp] theorem State.setTin_replays (s : State) (i : Nat) (d : Tin) : (s.setTin i d).replays = s.replays := rfl
@[simp] theorem State.setTin_opals (s : State) (i : Nat) (d : Tin) : (s.setTin i d).opals = s.opals := rfl
@[simp] theorem State.setTin_oplMap (s : State) (i : Nat) (d : Tin) : (s.setTin i d).oplMap = s.oplMap := rfl
@[simp] theorem State.setTin_oplSwap (s : State) (i : Nat) (d : Tin) : (s.setTin i d).oplSwap = s.oplSwap := rfl
@[simp] theorem State.setTin_scans (s : State) (i : Nat) (d : Tin) : (s.setTin i d).scans = s.scans := rfl
@[simp] theorem State.setTin_dma (s : State) (i : Nat) (d : Tin) : (s.setTin i d).dma = s.dma := rfl
@[simp] theorem State.setTin_msix (s : State) (i : Nat) (d : Tin) : (s.setTin i d).msix = s.msix := rfl
@[simp] theorem State.setTin_stm (s : State) (i : Nat) (d : Tin) : (s.setTin i d).stm = s.stm := rfl
@[simp] theorem State.setTin_fab (s : State) (i : Nat) (d : Tin) : (s.setTin i d).fab = s.fab := rfl
@[simp] theorem State.setTin_cal (s : State) (i : Nat) (d : Tin) : (s.setTin i d).cal = s.cal := rfl
@[simp] theorem State.setTin_hk (s : State) (i : Nat) (d : Tin) : (s.setTin i d).hk = s.hk := rfl
@[simp] theorem State.setTin_pwr (s : State) (i : Nat) (d : Tin) : (s.setTin i d).pwr = s.pwr := rfl
@[simp] theorem State.setTin_pan (s : State) (i : Nat) (d : Tin) : (s.setTin i d).pan = s.pan := rfl
@[simp] theorem State.setTin_rcv (s : State) (i : Nat) (d : Tin) : (s.setTin i d).rcv = s.rcv := rfl
@[simp] theorem State.setTin_sec (s : State) (i : Nat) (d : Tin) : (s.setTin i d).sec = s.sec := rfl
@[simp] theorem State.setTin_reg (s : State) (i : Nat) (d : Tin) (q : Reg) (j : Nat) : (s.setTin i d).reg q j = s.reg q j := rfl
@[simp] theorem State.setTin_fld (s : State) (i : Nat) (d : Tin) (q : Fld) (j : Nat) : (s.setTin i d).fld q j = s.fld q j := rfl
@[simp] theorem State.setTin_flag (s : State) (i : Nat) (d : Tin) (q : Fld) (j : Nat) : (s.setTin i d).flag q j = s.flag q j := rfl
@[simp] theorem State.setTin_byte (s : State) (i : Nat) (d : Tin) (addr : Nat) : (s.setTin i d).byte addr = s.byte addr := rfl

/-! ## `State.setTile` -/

@[simp] theorem State.setTile_pending (s : State) (n : Nat) (d : Tile) : (s.setTile n d).pending = s.pending := rfl
@[simp] theorem State.setTile_now (s : State) (n : Nat) (d : Tile) : (s.setTile n d).now = s.now := rfl
@[simp] theorem State.setTile_free (s : State) (n : Nat) (d : Tile) : (s.setTile n d).free = s.free := rfl
@[simp] theorem State.setTile_dev (s : State) (n : Nat) (d : Tile) : (s.setTile n d).dev = s.dev := rfl
@[simp] theorem State.setTile_regs (s : State) (n : Nat) (d : Tile) : (s.setTile n d).regs = s.regs := rfl
@[simp] theorem State.setTile_staged (s : State) (n : Nat) (d : Tile) : (s.setTile n d).staged = s.staged := rfl
@[simp] theorem State.setTile_lv (s : State) (n : Nat) (d : Tile) : (s.setTile n d).lv = s.lv := rfl
@[simp] theorem State.setTile_held (s : State) (n : Nat) (d : Tile) : (s.setTile n d).held = s.held := rfl
@[simp] theorem State.setTile_capt (s : State) (n : Nat) (d : Tile) : (s.setTile n d).capt = s.capt := rfl
@[simp] theorem State.setTile_mem (s : State) (n : Nat) (d : Tile) : (s.setTile n d).mem = s.mem := rfl
@[simp] theorem State.setTile_out (s : State) (n : Nat) (d : Tile) : (s.setTile n d).out = s.out := rfl
@[simp] theorem State.setTile_evq (s : State) (n : Nat) (d : Tile) : (s.setTile n d).evq = s.evq := rfl
@[simp] theorem State.setTile_jasper (s : State) (n : Nat) (d : Tile) : (s.setTile n d).jasper = s.jasper := rfl
@[simp] theorem State.setTile_completion (s : State) (n : Nat) (d : Tile) : (s.setTile n d).completion = s.completion := rfl
@[simp] theorem State.setTile_telemetry (s : State) (n : Nat) (d : Tile) : (s.setTile n d).telemetry = s.telemetry := rfl
@[simp] theorem State.setTile_time (s : State) (n : Nat) (d : Tile) : (s.setTile n d).time = s.time := rfl
@[simp] theorem State.setTile_dies (s : State) (n : Nat) (d : Tile) : (s.setTile n d).dies = s.dies := rfl
@[simp] theorem State.setTile_chans (s : State) (n : Nat) (d : Tile) : (s.setTile n d).chans = s.chans := rfl
@[simp] theorem State.setTile_cmps (s : State) (n : Nat) (d : Tile) : (s.setTile n d).cmps = s.cmps := rfl
@[simp] theorem State.setTile_clk (s : State) (n : Nat) (d : Tile) : (s.setTile n d).clk = s.clk := rfl
@[simp] theorem State.setTile_tins (s : State) (n : Nat) (d : Tile) : (s.setTile n d).tins = s.tins := rfl
@[simp] theorem State.setTile_epoch (s : State) (n : Nat) (d : Tile) : (s.setTile n d).epoch = s.epoch := rfl
@[simp] theorem State.setTile_cel (s : State) (n : Nat) (d : Tile) : (s.setTile n d).cel = s.cel := rfl
@[simp] theorem State.setTile_hall (s : State) (n : Nat) (d : Tile) : (s.setTile n d).hall = s.hall := rfl
@[simp] theorem State.setTile_prog (s : State) (n : Nat) (d : Tile) : (s.setTile n d).prog = s.prog := rfl
@[simp] theorem State.setTile_trg (s : State) (n : Nat) (d : Tile) : (s.setTile n d).trg = s.trg := rfl
@[simp] theorem State.setTile_turn (s : State) (n : Nat) (d : Tile) : (s.setTile n d).turn = s.turn := rfl
@[simp] theorem State.setTile_replays (s : State) (n : Nat) (d : Tile) : (s.setTile n d).replays = s.replays := rfl
@[simp] theorem State.setTile_opals (s : State) (n : Nat) (d : Tile) : (s.setTile n d).opals = s.opals := rfl
@[simp] theorem State.setTile_oplMap (s : State) (n : Nat) (d : Tile) : (s.setTile n d).oplMap = s.oplMap := rfl
@[simp] theorem State.setTile_oplSwap (s : State) (n : Nat) (d : Tile) : (s.setTile n d).oplSwap = s.oplSwap := rfl
@[simp] theorem State.setTile_scans (s : State) (n : Nat) (d : Tile) : (s.setTile n d).scans = s.scans := rfl
@[simp] theorem State.setTile_dma (s : State) (n : Nat) (d : Tile) : (s.setTile n d).dma = s.dma := rfl
@[simp] theorem State.setTile_msix (s : State) (n : Nat) (d : Tile) : (s.setTile n d).msix = s.msix := rfl
@[simp] theorem State.setTile_stm (s : State) (n : Nat) (d : Tile) : (s.setTile n d).stm = s.stm := rfl
@[simp] theorem State.setTile_fab (s : State) (n : Nat) (d : Tile) : (s.setTile n d).fab = s.fab := rfl
@[simp] theorem State.setTile_cal (s : State) (n : Nat) (d : Tile) : (s.setTile n d).cal = s.cal := rfl
@[simp] theorem State.setTile_hk (s : State) (n : Nat) (d : Tile) : (s.setTile n d).hk = s.hk := rfl
@[simp] theorem State.setTile_pwr (s : State) (n : Nat) (d : Tile) : (s.setTile n d).pwr = s.pwr := rfl
@[simp] theorem State.setTile_pan (s : State) (n : Nat) (d : Tile) : (s.setTile n d).pan = s.pan := rfl
@[simp] theorem State.setTile_rcv (s : State) (n : Nat) (d : Tile) : (s.setTile n d).rcv = s.rcv := rfl
@[simp] theorem State.setTile_sec (s : State) (n : Nat) (d : Tile) : (s.setTile n d).sec = s.sec := rfl
@[simp] theorem State.setTile_reg (s : State) (n : Nat) (d : Tile) (q : Reg) (j : Nat) : (s.setTile n d).reg q j = s.reg q j := rfl
@[simp] theorem State.setTile_fld (s : State) (n : Nat) (d : Tile) (q : Fld) (j : Nat) : (s.setTile n d).fld q j = s.fld q j := rfl
@[simp] theorem State.setTile_flag (s : State) (n : Nat) (d : Tile) (q : Fld) (j : Nat) : (s.setTile n d).flag q j = s.flag q j := rfl
@[simp] theorem State.setTile_byte (s : State) (n : Nat) (d : Tile) (addr : Nat) : (s.setTile n d).byte addr = s.byte addr := rfl

/-! ## `State.setDef` -/

@[simp] theorem State.setDef_pending (s : State) (d : Nat) (x : Def) : (s.setDef d x).pending = s.pending := rfl
@[simp] theorem State.setDef_now (s : State) (d : Nat) (x : Def) : (s.setDef d x).now = s.now := rfl
@[simp] theorem State.setDef_free (s : State) (d : Nat) (x : Def) : (s.setDef d x).free = s.free := rfl
@[simp] theorem State.setDef_dev (s : State) (d : Nat) (x : Def) : (s.setDef d x).dev = s.dev := rfl
@[simp] theorem State.setDef_regs (s : State) (d : Nat) (x : Def) : (s.setDef d x).regs = s.regs := rfl
@[simp] theorem State.setDef_staged (s : State) (d : Nat) (x : Def) : (s.setDef d x).staged = s.staged := rfl
@[simp] theorem State.setDef_lv (s : State) (d : Nat) (x : Def) : (s.setDef d x).lv = s.lv := rfl
@[simp] theorem State.setDef_held (s : State) (d : Nat) (x : Def) : (s.setDef d x).held = s.held := rfl
@[simp] theorem State.setDef_capt (s : State) (d : Nat) (x : Def) : (s.setDef d x).capt = s.capt := rfl
@[simp] theorem State.setDef_mem (s : State) (d : Nat) (x : Def) : (s.setDef d x).mem = s.mem := rfl
@[simp] theorem State.setDef_out (s : State) (d : Nat) (x : Def) : (s.setDef d x).out = s.out := rfl
@[simp] theorem State.setDef_evq (s : State) (d : Nat) (x : Def) : (s.setDef d x).evq = s.evq := rfl
@[simp] theorem State.setDef_jasper (s : State) (d : Nat) (x : Def) : (s.setDef d x).jasper = s.jasper := rfl
@[simp] theorem State.setDef_completion (s : State) (d : Nat) (x : Def) : (s.setDef d x).completion = s.completion := rfl
@[simp] theorem State.setDef_telemetry (s : State) (d : Nat) (x : Def) : (s.setDef d x).telemetry = s.telemetry := rfl
@[simp] theorem State.setDef_time (s : State) (d : Nat) (x : Def) : (s.setDef d x).time = s.time := rfl
@[simp] theorem State.setDef_dies (s : State) (d : Nat) (x : Def) : (s.setDef d x).dies = s.dies := rfl
@[simp] theorem State.setDef_chans (s : State) (d : Nat) (x : Def) : (s.setDef d x).chans = s.chans := rfl
@[simp] theorem State.setDef_cmps (s : State) (d : Nat) (x : Def) : (s.setDef d x).cmps = s.cmps := rfl
@[simp] theorem State.setDef_clk (s : State) (d : Nat) (x : Def) : (s.setDef d x).clk = s.clk := rfl
@[simp] theorem State.setDef_tins (s : State) (d : Nat) (x : Def) : (s.setDef d x).tins = s.tins := rfl
@[simp] theorem State.setDef_epoch (s : State) (d : Nat) (x : Def) : (s.setDef d x).epoch = s.epoch := rfl
@[simp] theorem State.setDef_cel (s : State) (d : Nat) (x : Def) : (s.setDef d x).cel = s.cel := rfl
@[simp] theorem State.setDef_tiles (s : State) (d : Nat) (x : Def) : (s.setDef d x).tiles = s.tiles := rfl
@[simp] theorem State.setDef_hall (s : State) (d : Nat) (x : Def) : (s.setDef d x).hall = s.hall := rfl
@[simp] theorem State.setDef_prog (s : State) (d : Nat) (x : Def) : (s.setDef d x).prog = s.prog := rfl
@[simp] theorem State.setDef_turn (s : State) (d : Nat) (x : Def) : (s.setDef d x).turn = s.turn := rfl
@[simp] theorem State.setDef_replays (s : State) (d : Nat) (x : Def) : (s.setDef d x).replays = s.replays := rfl
@[simp] theorem State.setDef_opals (s : State) (d : Nat) (x : Def) : (s.setDef d x).opals = s.opals := rfl
@[simp] theorem State.setDef_oplMap (s : State) (d : Nat) (x : Def) : (s.setDef d x).oplMap = s.oplMap := rfl
@[simp] theorem State.setDef_oplSwap (s : State) (d : Nat) (x : Def) : (s.setDef d x).oplSwap = s.oplSwap := rfl
@[simp] theorem State.setDef_scans (s : State) (d : Nat) (x : Def) : (s.setDef d x).scans = s.scans := rfl
@[simp] theorem State.setDef_dma (s : State) (d : Nat) (x : Def) : (s.setDef d x).dma = s.dma := rfl
@[simp] theorem State.setDef_msix (s : State) (d : Nat) (x : Def) : (s.setDef d x).msix = s.msix := rfl
@[simp] theorem State.setDef_stm (s : State) (d : Nat) (x : Def) : (s.setDef d x).stm = s.stm := rfl
@[simp] theorem State.setDef_fab (s : State) (d : Nat) (x : Def) : (s.setDef d x).fab = s.fab := rfl
@[simp] theorem State.setDef_cal (s : State) (d : Nat) (x : Def) : (s.setDef d x).cal = s.cal := rfl
@[simp] theorem State.setDef_hk (s : State) (d : Nat) (x : Def) : (s.setDef d x).hk = s.hk := rfl
@[simp] theorem State.setDef_pwr (s : State) (d : Nat) (x : Def) : (s.setDef d x).pwr = s.pwr := rfl
@[simp] theorem State.setDef_pan (s : State) (d : Nat) (x : Def) : (s.setDef d x).pan = s.pan := rfl
@[simp] theorem State.setDef_rcv (s : State) (d : Nat) (x : Def) : (s.setDef d x).rcv = s.rcv := rfl
@[simp] theorem State.setDef_sec (s : State) (d : Nat) (x : Def) : (s.setDef d x).sec = s.sec := rfl
@[simp] theorem State.setDef_reg (s : State) (d : Nat) (x : Def) (q : Reg) (j : Nat) : (s.setDef d x).reg q j = s.reg q j := rfl
@[simp] theorem State.setDef_fld (s : State) (d : Nat) (x : Def) (q : Fld) (j : Nat) : (s.setDef d x).fld q j = s.fld q j := rfl
@[simp] theorem State.setDef_flag (s : State) (d : Nat) (x : Def) (q : Fld) (j : Nat) : (s.setDef d x).flag q j = s.flag q j := rfl
@[simp] theorem State.setDef_byte (s : State) (d : Nat) (x : Def) (addr : Nat) : (s.setDef d x).byte addr = s.byte addr := rfl

/-! ## `State.setReplay` -/

@[simp] theorem State.setReplay_pending (s : State) (k : Nat) (x : Replay) : (s.setReplay k x).pending = s.pending := rfl
@[simp] theorem State.setReplay_now (s : State) (k : Nat) (x : Replay) : (s.setReplay k x).now = s.now := rfl
@[simp] theorem State.setReplay_free (s : State) (k : Nat) (x : Replay) : (s.setReplay k x).free = s.free := rfl
@[simp] theorem State.setReplay_dev (s : State) (k : Nat) (x : Replay) : (s.setReplay k x).dev = s.dev := rfl
@[simp] theorem State.setReplay_regs (s : State) (k : Nat) (x : Replay) : (s.setReplay k x).regs = s.regs := rfl
@[simp] theorem State.setReplay_staged (s : State) (k : Nat) (x : Replay) : (s.setReplay k x).staged = s.staged := rfl
@[simp] theorem State.setReplay_lv (s : State) (k : Nat) (x : Replay) : (s.setReplay k x).lv = s.lv := rfl
@[simp] theorem State.setReplay_held (s : State) (k : Nat) (x : Replay) : (s.setReplay k x).held = s.held := rfl
@[simp] theorem State.setReplay_capt (s : State) (k : Nat) (x : Replay) : (s.setReplay k x).capt = s.capt := rfl
@[simp] theorem State.setReplay_mem (s : State) (k : Nat) (x : Replay) : (s.setReplay k x).mem = s.mem := rfl
@[simp] theorem State.setReplay_out (s : State) (k : Nat) (x : Replay) : (s.setReplay k x).out = s.out := rfl
@[simp] theorem State.setReplay_evq (s : State) (k : Nat) (x : Replay) : (s.setReplay k x).evq = s.evq := rfl
@[simp] theorem State.setReplay_jasper (s : State) (k : Nat) (x : Replay) : (s.setReplay k x).jasper = s.jasper := rfl
@[simp] theorem State.setReplay_completion (s : State) (k : Nat) (x : Replay) : (s.setReplay k x).completion = s.completion := rfl
@[simp] theorem State.setReplay_telemetry (s : State) (k : Nat) (x : Replay) : (s.setReplay k x).telemetry = s.telemetry := rfl
@[simp] theorem State.setReplay_time (s : State) (k : Nat) (x : Replay) : (s.setReplay k x).time = s.time := rfl
@[simp] theorem State.setReplay_dies (s : State) (k : Nat) (x : Replay) : (s.setReplay k x).dies = s.dies := rfl
@[simp] theorem State.setReplay_chans (s : State) (k : Nat) (x : Replay) : (s.setReplay k x).chans = s.chans := rfl
@[simp] theorem State.setReplay_cmps (s : State) (k : Nat) (x : Replay) : (s.setReplay k x).cmps = s.cmps := rfl
@[simp] theorem State.setReplay_clk (s : State) (k : Nat) (x : Replay) : (s.setReplay k x).clk = s.clk := rfl
@[simp] theorem State.setReplay_tins (s : State) (k : Nat) (x : Replay) : (s.setReplay k x).tins = s.tins := rfl
@[simp] theorem State.setReplay_epoch (s : State) (k : Nat) (x : Replay) : (s.setReplay k x).epoch = s.epoch := rfl
@[simp] theorem State.setReplay_cel (s : State) (k : Nat) (x : Replay) : (s.setReplay k x).cel = s.cel := rfl
@[simp] theorem State.setReplay_tiles (s : State) (k : Nat) (x : Replay) : (s.setReplay k x).tiles = s.tiles := rfl
@[simp] theorem State.setReplay_hall (s : State) (k : Nat) (x : Replay) : (s.setReplay k x).hall = s.hall := rfl
@[simp] theorem State.setReplay_prog (s : State) (k : Nat) (x : Replay) : (s.setReplay k x).prog = s.prog := rfl
@[simp] theorem State.setReplay_trg (s : State) (k : Nat) (x : Replay) : (s.setReplay k x).trg = s.trg := rfl
@[simp] theorem State.setReplay_turn (s : State) (k : Nat) (x : Replay) : (s.setReplay k x).turn = s.turn := rfl
@[simp] theorem State.setReplay_opals (s : State) (k : Nat) (x : Replay) : (s.setReplay k x).opals = s.opals := rfl
@[simp] theorem State.setReplay_oplMap (s : State) (k : Nat) (x : Replay) : (s.setReplay k x).oplMap = s.oplMap := rfl
@[simp] theorem State.setReplay_oplSwap (s : State) (k : Nat) (x : Replay) : (s.setReplay k x).oplSwap = s.oplSwap := rfl
@[simp] theorem State.setReplay_scans (s : State) (k : Nat) (x : Replay) : (s.setReplay k x).scans = s.scans := rfl
@[simp] theorem State.setReplay_dma (s : State) (k : Nat) (x : Replay) : (s.setReplay k x).dma = s.dma := rfl
@[simp] theorem State.setReplay_msix (s : State) (k : Nat) (x : Replay) : (s.setReplay k x).msix = s.msix := rfl
@[simp] theorem State.setReplay_stm (s : State) (k : Nat) (x : Replay) : (s.setReplay k x).stm = s.stm := rfl
@[simp] theorem State.setReplay_fab (s : State) (k : Nat) (x : Replay) : (s.setReplay k x).fab = s.fab := rfl
@[simp] theorem State.setReplay_cal (s : State) (k : Nat) (x : Replay) : (s.setReplay k x).cal = s.cal := rfl
@[simp] theorem State.setReplay_hk (s : State) (k : Nat) (x : Replay) : (s.setReplay k x).hk = s.hk := rfl
@[simp] theorem State.setReplay_pwr (s : State) (k : Nat) (x : Replay) : (s.setReplay k x).pwr = s.pwr := rfl
@[simp] theorem State.setReplay_pan (s : State) (k : Nat) (x : Replay) : (s.setReplay k x).pan = s.pan := rfl
@[simp] theorem State.setReplay_rcv (s : State) (k : Nat) (x : Replay) : (s.setReplay k x).rcv = s.rcv := rfl
@[simp] theorem State.setReplay_sec (s : State) (k : Nat) (x : Replay) : (s.setReplay k x).sec = s.sec := rfl
@[simp] theorem State.setReplay_reg (s : State) (k : Nat) (x : Replay) (q : Reg) (j : Nat) : (s.setReplay k x).reg q j = s.reg q j := rfl
@[simp] theorem State.setReplay_fld (s : State) (k : Nat) (x : Replay) (q : Fld) (j : Nat) : (s.setReplay k x).fld q j = s.fld q j := rfl
@[simp] theorem State.setReplay_flag (s : State) (k : Nat) (x : Replay) (q : Fld) (j : Nat) : (s.setReplay k x).flag q j = s.flag q j := rfl
@[simp] theorem State.setReplay_byte (s : State) (k : Nat) (x : Replay) (addr : Nat) : (s.setReplay k x).byte addr = s.byte addr := rfl

/-! ## `State.emit` -/

@[simp] theorem State.emit_pending (s : State) (o : Out) : (s.emit o).pending = s.pending := rfl
@[simp] theorem State.emit_now (s : State) (o : Out) : (s.emit o).now = s.now := rfl
@[simp] theorem State.emit_free (s : State) (o : Out) : (s.emit o).free = s.free := rfl
@[simp] theorem State.emit_dev (s : State) (o : Out) : (s.emit o).dev = s.dev := rfl
@[simp] theorem State.emit_regs (s : State) (o : Out) : (s.emit o).regs = s.regs := rfl
@[simp] theorem State.emit_staged (s : State) (o : Out) : (s.emit o).staged = s.staged := rfl
@[simp] theorem State.emit_lv (s : State) (o : Out) : (s.emit o).lv = s.lv := rfl
@[simp] theorem State.emit_held (s : State) (o : Out) : (s.emit o).held = s.held := rfl
@[simp] theorem State.emit_capt (s : State) (o : Out) : (s.emit o).capt = s.capt := rfl
@[simp] theorem State.emit_mem (s : State) (o : Out) : (s.emit o).mem = s.mem := rfl
@[simp] theorem State.emit_evq (s : State) (o : Out) : (s.emit o).evq = s.evq := rfl
@[simp] theorem State.emit_jasper (s : State) (o : Out) : (s.emit o).jasper = s.jasper := rfl
@[simp] theorem State.emit_completion (s : State) (o : Out) : (s.emit o).completion = s.completion := rfl
@[simp] theorem State.emit_telemetry (s : State) (o : Out) : (s.emit o).telemetry = s.telemetry := rfl
@[simp] theorem State.emit_time (s : State) (o : Out) : (s.emit o).time = s.time := rfl
@[simp] theorem State.emit_dies (s : State) (o : Out) : (s.emit o).dies = s.dies := rfl
@[simp] theorem State.emit_chans (s : State) (o : Out) : (s.emit o).chans = s.chans := rfl
@[simp] theorem State.emit_cmps (s : State) (o : Out) : (s.emit o).cmps = s.cmps := rfl
@[simp] theorem State.emit_clk (s : State) (o : Out) : (s.emit o).clk = s.clk := rfl
@[simp] theorem State.emit_tins (s : State) (o : Out) : (s.emit o).tins = s.tins := rfl
@[simp] theorem State.emit_epoch (s : State) (o : Out) : (s.emit o).epoch = s.epoch := rfl
@[simp] theorem State.emit_cel (s : State) (o : Out) : (s.emit o).cel = s.cel := rfl
@[simp] theorem State.emit_tiles (s : State) (o : Out) : (s.emit o).tiles = s.tiles := rfl
@[simp] theorem State.emit_hall (s : State) (o : Out) : (s.emit o).hall = s.hall := rfl
@[simp] theorem State.emit_prog (s : State) (o : Out) : (s.emit o).prog = s.prog := rfl
@[simp] theorem State.emit_trg (s : State) (o : Out) : (s.emit o).trg = s.trg := rfl
@[simp] theorem State.emit_turn (s : State) (o : Out) : (s.emit o).turn = s.turn := rfl
@[simp] theorem State.emit_replays (s : State) (o : Out) : (s.emit o).replays = s.replays := rfl
@[simp] theorem State.emit_opals (s : State) (o : Out) : (s.emit o).opals = s.opals := rfl
@[simp] theorem State.emit_oplMap (s : State) (o : Out) : (s.emit o).oplMap = s.oplMap := rfl
@[simp] theorem State.emit_oplSwap (s : State) (o : Out) : (s.emit o).oplSwap = s.oplSwap := rfl
@[simp] theorem State.emit_scans (s : State) (o : Out) : (s.emit o).scans = s.scans := rfl
@[simp] theorem State.emit_dma (s : State) (o : Out) : (s.emit o).dma = s.dma := rfl
@[simp] theorem State.emit_msix (s : State) (o : Out) : (s.emit o).msix = s.msix := rfl
@[simp] theorem State.emit_stm (s : State) (o : Out) : (s.emit o).stm = s.stm := rfl
@[simp] theorem State.emit_fab (s : State) (o : Out) : (s.emit o).fab = s.fab := rfl
@[simp] theorem State.emit_cal (s : State) (o : Out) : (s.emit o).cal = s.cal := rfl
@[simp] theorem State.emit_hk (s : State) (o : Out) : (s.emit o).hk = s.hk := rfl
@[simp] theorem State.emit_pwr (s : State) (o : Out) : (s.emit o).pwr = s.pwr := rfl
@[simp] theorem State.emit_pan (s : State) (o : Out) : (s.emit o).pan = s.pan := rfl
@[simp] theorem State.emit_rcv (s : State) (o : Out) : (s.emit o).rcv = s.rcv := rfl
@[simp] theorem State.emit_sec (s : State) (o : Out) : (s.emit o).sec = s.sec := rfl
@[simp] theorem State.emit_reg (s : State) (o : Out) (q : Reg) (j : Nat) : (s.emit o).reg q j = s.reg q j := rfl
@[simp] theorem State.emit_fld (s : State) (o : Out) (q : Fld) (j : Nat) : (s.emit o).fld q j = s.fld q j := rfl
@[simp] theorem State.emit_flag (s : State) (o : Out) (q : Fld) (j : Nat) : (s.emit o).flag q j = s.flag q j := rfl
@[simp] theorem State.emit_byte (s : State) (o : Out) (addr : Nat) : (s.emit o).byte addr = s.byte addr := rfl

/-! ## `State.statIn` -/

@[simp] theorem State.statIn_pending (s : State) (old : Bool) (f : Table Nat Int → Table Nat Int) : (s.statIn old f).pending = s.pending := rfl
@[simp] theorem State.statIn_now (s : State) (old : Bool) (f : Table Nat Int → Table Nat Int) : (s.statIn old f).now = s.now := rfl
@[simp] theorem State.statIn_free (s : State) (old : Bool) (f : Table Nat Int → Table Nat Int) : (s.statIn old f).free = s.free := rfl
@[simp] theorem State.statIn_dev (s : State) (old : Bool) (f : Table Nat Int → Table Nat Int) : (s.statIn old f).dev = s.dev := rfl
@[simp] theorem State.statIn_regs (s : State) (old : Bool) (f : Table Nat Int → Table Nat Int) : (s.statIn old f).regs = s.regs := rfl
@[simp] theorem State.statIn_staged (s : State) (old : Bool) (f : Table Nat Int → Table Nat Int) : (s.statIn old f).staged = s.staged := rfl
@[simp] theorem State.statIn_lv (s : State) (old : Bool) (f : Table Nat Int → Table Nat Int) : (s.statIn old f).lv = s.lv := rfl
@[simp] theorem State.statIn_held (s : State) (old : Bool) (f : Table Nat Int → Table Nat Int) : (s.statIn old f).held = s.held := rfl
@[simp] theorem State.statIn_capt (s : State) (old : Bool) (f : Table Nat Int → Table Nat Int) : (s.statIn old f).capt = s.capt := rfl
@[simp] theorem State.statIn_mem (s : State) (old : Bool) (f : Table Nat Int → Table Nat Int) : (s.statIn old f).mem = s.mem := rfl
@[simp] theorem State.statIn_out (s : State) (old : Bool) (f : Table Nat Int → Table Nat Int) : (s.statIn old f).out = s.out := rfl
@[simp] theorem State.statIn_evq (s : State) (old : Bool) (f : Table Nat Int → Table Nat Int) : (s.statIn old f).evq = s.evq := rfl
@[simp] theorem State.statIn_jasper (s : State) (old : Bool) (f : Table Nat Int → Table Nat Int) : (s.statIn old f).jasper = s.jasper := rfl
@[simp] theorem State.statIn_completion (s : State) (old : Bool) (f : Table Nat Int → Table Nat Int) : (s.statIn old f).completion = s.completion := rfl
@[simp] theorem State.statIn_telemetry (s : State) (old : Bool) (f : Table Nat Int → Table Nat Int) : (s.statIn old f).telemetry = s.telemetry := rfl
@[simp] theorem State.statIn_time (s : State) (old : Bool) (f : Table Nat Int → Table Nat Int) : (s.statIn old f).time = s.time := rfl
@[simp] theorem State.statIn_dies (s : State) (old : Bool) (f : Table Nat Int → Table Nat Int) : (s.statIn old f).dies = s.dies := rfl
@[simp] theorem State.statIn_chans (s : State) (old : Bool) (f : Table Nat Int → Table Nat Int) : (s.statIn old f).chans = s.chans := rfl
@[simp] theorem State.statIn_cmps (s : State) (old : Bool) (f : Table Nat Int → Table Nat Int) : (s.statIn old f).cmps = s.cmps := rfl
@[simp] theorem State.statIn_clk (s : State) (old : Bool) (f : Table Nat Int → Table Nat Int) : (s.statIn old f).clk = s.clk := rfl
@[simp] theorem State.statIn_tins (s : State) (old : Bool) (f : Table Nat Int → Table Nat Int) : (s.statIn old f).tins = s.tins := rfl
@[simp] theorem State.statIn_cel (s : State) (old : Bool) (f : Table Nat Int → Table Nat Int) : (s.statIn old f).cel = s.cel := rfl
@[simp] theorem State.statIn_tiles (s : State) (old : Bool) (f : Table Nat Int → Table Nat Int) : (s.statIn old f).tiles = s.tiles := rfl
@[simp] theorem State.statIn_hall (s : State) (old : Bool) (f : Table Nat Int → Table Nat Int) : (s.statIn old f).hall = s.hall := rfl
@[simp] theorem State.statIn_prog (s : State) (old : Bool) (f : Table Nat Int → Table Nat Int) : (s.statIn old f).prog = s.prog := rfl
@[simp] theorem State.statIn_trg (s : State) (old : Bool) (f : Table Nat Int → Table Nat Int) : (s.statIn old f).trg = s.trg := rfl
@[simp] theorem State.statIn_turn (s : State) (old : Bool) (f : Table Nat Int → Table Nat Int) : (s.statIn old f).turn = s.turn := rfl
@[simp] theorem State.statIn_replays (s : State) (old : Bool) (f : Table Nat Int → Table Nat Int) : (s.statIn old f).replays = s.replays := rfl
@[simp] theorem State.statIn_opals (s : State) (old : Bool) (f : Table Nat Int → Table Nat Int) : (s.statIn old f).opals = s.opals := rfl
@[simp] theorem State.statIn_oplMap (s : State) (old : Bool) (f : Table Nat Int → Table Nat Int) : (s.statIn old f).oplMap = s.oplMap := rfl
@[simp] theorem State.statIn_oplSwap (s : State) (old : Bool) (f : Table Nat Int → Table Nat Int) : (s.statIn old f).oplSwap = s.oplSwap := rfl
@[simp] theorem State.statIn_scans (s : State) (old : Bool) (f : Table Nat Int → Table Nat Int) : (s.statIn old f).scans = s.scans := rfl
@[simp] theorem State.statIn_dma (s : State) (old : Bool) (f : Table Nat Int → Table Nat Int) : (s.statIn old f).dma = s.dma := rfl
@[simp] theorem State.statIn_msix (s : State) (old : Bool) (f : Table Nat Int → Table Nat Int) : (s.statIn old f).msix = s.msix := rfl
@[simp] theorem State.statIn_stm (s : State) (old : Bool) (f : Table Nat Int → Table Nat Int) : (s.statIn old f).stm = s.stm := rfl
@[simp] theorem State.statIn_fab (s : State) (old : Bool) (f : Table Nat Int → Table Nat Int) : (s.statIn old f).fab = s.fab := rfl
@[simp] theorem State.statIn_cal (s : State) (old : Bool) (f : Table Nat Int → Table Nat Int) : (s.statIn old f).cal = s.cal := rfl
@[simp] theorem State.statIn_hk (s : State) (old : Bool) (f : Table Nat Int → Table Nat Int) : (s.statIn old f).hk = s.hk := rfl
@[simp] theorem State.statIn_pwr (s : State) (old : Bool) (f : Table Nat Int → Table Nat Int) : (s.statIn old f).pwr = s.pwr := rfl
@[simp] theorem State.statIn_pan (s : State) (old : Bool) (f : Table Nat Int → Table Nat Int) : (s.statIn old f).pan = s.pan := rfl
@[simp] theorem State.statIn_rcv (s : State) (old : Bool) (f : Table Nat Int → Table Nat Int) : (s.statIn old f).rcv = s.rcv := rfl
@[simp] theorem State.statIn_sec (s : State) (old : Bool) (f : Table Nat Int → Table Nat Int) : (s.statIn old f).sec = s.sec := rfl
@[simp] theorem State.statIn_reg (s : State) (old : Bool) (f : Table Nat Int → Table Nat Int) (q : Reg) (j : Nat) : (s.statIn old f).reg q j = s.reg q j := rfl
@[simp] theorem State.statIn_fld (s : State) (old : Bool) (f : Table Nat Int → Table Nat Int) (q : Fld) (j : Nat) : (s.statIn old f).fld q j = s.fld q j := rfl
@[simp] theorem State.statIn_flag (s : State) (old : Bool) (f : Table Nat Int → Table Nat Int) (q : Fld) (j : Nat) : (s.statIn old f).flag q j = s.flag q j := rfl
@[simp] theorem State.statIn_byte (s : State) (old : Bool) (f : Table Nat Int → Table Nat Int) (addr : Nat) : (s.statIn old f).byte addr = s.byte addr := rfl

/-! ## `State.setByte` -/

@[simp] theorem State.setByte_pending (s : State) (a : Nat) (b : Byte) : (s.setByte a b).pending = s.pending := rfl
@[simp] theorem State.setByte_now (s : State) (a : Nat) (b : Byte) : (s.setByte a b).now = s.now := rfl
@[simp] theorem State.setByte_free (s : State) (a : Nat) (b : Byte) : (s.setByte a b).free = s.free := rfl
@[simp] theorem State.setByte_dev (s : State) (a : Nat) (b : Byte) : (s.setByte a b).dev = s.dev := rfl
@[simp] theorem State.setByte_regs (s : State) (a : Nat) (b : Byte) : (s.setByte a b).regs = s.regs := rfl
@[simp] theorem State.setByte_staged (s : State) (a : Nat) (b : Byte) : (s.setByte a b).staged = s.staged := rfl
@[simp] theorem State.setByte_lv (s : State) (a : Nat) (b : Byte) : (s.setByte a b).lv = s.lv := rfl
@[simp] theorem State.setByte_held (s : State) (a : Nat) (b : Byte) : (s.setByte a b).held = s.held := rfl
@[simp] theorem State.setByte_capt (s : State) (a : Nat) (b : Byte) : (s.setByte a b).capt = s.capt := rfl
@[simp] theorem State.setByte_out (s : State) (a : Nat) (b : Byte) : (s.setByte a b).out = s.out := rfl
@[simp] theorem State.setByte_evq (s : State) (a : Nat) (b : Byte) : (s.setByte a b).evq = s.evq := rfl
@[simp] theorem State.setByte_jasper (s : State) (a : Nat) (b : Byte) : (s.setByte a b).jasper = s.jasper := rfl
@[simp] theorem State.setByte_completion (s : State) (a : Nat) (b : Byte) : (s.setByte a b).completion = s.completion := rfl
@[simp] theorem State.setByte_telemetry (s : State) (a : Nat) (b : Byte) : (s.setByte a b).telemetry = s.telemetry := rfl
@[simp] theorem State.setByte_time (s : State) (a : Nat) (b : Byte) : (s.setByte a b).time = s.time := rfl
@[simp] theorem State.setByte_dies (s : State) (a : Nat) (b : Byte) : (s.setByte a b).dies = s.dies := rfl
@[simp] theorem State.setByte_chans (s : State) (a : Nat) (b : Byte) : (s.setByte a b).chans = s.chans := rfl
@[simp] theorem State.setByte_cmps (s : State) (a : Nat) (b : Byte) : (s.setByte a b).cmps = s.cmps := rfl
@[simp] theorem State.setByte_clk (s : State) (a : Nat) (b : Byte) : (s.setByte a b).clk = s.clk := rfl
@[simp] theorem State.setByte_tins (s : State) (a : Nat) (b : Byte) : (s.setByte a b).tins = s.tins := rfl
@[simp] theorem State.setByte_epoch (s : State) (a : Nat) (b : Byte) : (s.setByte a b).epoch = s.epoch := rfl
@[simp] theorem State.setByte_cel (s : State) (a : Nat) (b : Byte) : (s.setByte a b).cel = s.cel := rfl
@[simp] theorem State.setByte_tiles (s : State) (a : Nat) (b : Byte) : (s.setByte a b).tiles = s.tiles := rfl
@[simp] theorem State.setByte_hall (s : State) (a : Nat) (b : Byte) : (s.setByte a b).hall = s.hall := rfl
@[simp] theorem State.setByte_prog (s : State) (a : Nat) (b : Byte) : (s.setByte a b).prog = s.prog := rfl
@[simp] theorem State.setByte_trg (s : State) (a : Nat) (b : Byte) : (s.setByte a b).trg = s.trg := rfl
@[simp] theorem State.setByte_turn (s : State) (a : Nat) (b : Byte) : (s.setByte a b).turn = s.turn := rfl
@[simp] theorem State.setByte_replays (s : State) (a : Nat) (b : Byte) : (s.setByte a b).replays = s.replays := rfl
@[simp] theorem State.setByte_opals (s : State) (a : Nat) (b : Byte) : (s.setByte a b).opals = s.opals := rfl
@[simp] theorem State.setByte_oplMap (s : State) (a : Nat) (b : Byte) : (s.setByte a b).oplMap = s.oplMap := rfl
@[simp] theorem State.setByte_oplSwap (s : State) (a : Nat) (b : Byte) : (s.setByte a b).oplSwap = s.oplSwap := rfl
@[simp] theorem State.setByte_scans (s : State) (a : Nat) (b : Byte) : (s.setByte a b).scans = s.scans := rfl
@[simp] theorem State.setByte_dma (s : State) (a : Nat) (b : Byte) : (s.setByte a b).dma = s.dma := rfl
@[simp] theorem State.setByte_msix (s : State) (a : Nat) (b : Byte) : (s.setByte a b).msix = s.msix := rfl
@[simp] theorem State.setByte_stm (s : State) (a : Nat) (b : Byte) : (s.setByte a b).stm = s.stm := rfl
@[simp] theorem State.setByte_fab (s : State) (a : Nat) (b : Byte) : (s.setByte a b).fab = s.fab := rfl
@[simp] theorem State.setByte_cal (s : State) (a : Nat) (b : Byte) : (s.setByte a b).cal = s.cal := rfl
@[simp] theorem State.setByte_hk (s : State) (a : Nat) (b : Byte) : (s.setByte a b).hk = s.hk := rfl
@[simp] theorem State.setByte_pwr (s : State) (a : Nat) (b : Byte) : (s.setByte a b).pwr = s.pwr := rfl
@[simp] theorem State.setByte_pan (s : State) (a : Nat) (b : Byte) : (s.setByte a b).pan = s.pan := rfl
@[simp] theorem State.setByte_rcv (s : State) (a : Nat) (b : Byte) : (s.setByte a b).rcv = s.rcv := rfl
@[simp] theorem State.setByte_sec (s : State) (a : Nat) (b : Byte) : (s.setByte a b).sec = s.sec := rfl
@[simp] theorem State.setByte_reg (s : State) (a : Nat) (b : Byte) (q : Reg) (j : Nat) : (s.setByte a b).reg q j = s.reg q j := rfl
@[simp] theorem State.setByte_fld (s : State) (a : Nat) (b : Byte) (q : Fld) (j : Nat) : (s.setByte a b).fld q j = s.fld q j := rfl
@[simp] theorem State.setByte_flag (s : State) (a : Nat) (b : Byte) (q : Fld) (j : Nat) : (s.setByte a b).flag q j = s.flag q j := rfl

/-! ## What is read after an update -/

@[simp] theorem State.reg_setReg_same (s : State) (r : Reg) (i : Nat) (v : Word) : (s.setReg r i v).reg r i = v := by
  simp [State.reg, State.setReg]

theorem State.reg_setReg_ne (s : State) (r q : Reg) (i j : Nat) (v : Word) (h : (q, j) ≠ (r, i)) :
    (s.setReg r i v).reg q j = s.reg q j := by
  simp [State.reg, State.setReg, Table.getD_put_ne _ _ _ _ _ _ _ h]

/-- A write of a field changes no other register. -/
theorem State.reg_setFld_ne (s : State) (f : Fld) (q : Reg) (i j v : Nat) (h : (q, j) ≠ (f.reg, i)) :
    (s.setFld f i v).reg q j = s.reg q j := State.reg_setReg_ne s _ _ _ _ _ h

@[simp] theorem State.die_setDie_same (s : State) (k : Nat) (d : Die) : (s.setDie k d).die k = d := by
  simp [State.die, State.setDie]

theorem State.die_setDie_ne (s : State) (k j : Nat) (d : Die) (h : j ≠ k) : (s.setDie k d).die j = s.die j := by
  simp [State.die, State.setDie, Table.getD_set_ne _ _ _ _ _ _ h]

@[simp] theorem State.chan_setChan_same (s : State) (c : Nat) (d : Chan) : (s.setChan c d).chan c = d := by
  simp [State.chan, State.setChan]

theorem State.chan_setChan_ne (s : State) (c j : Nat) (d : Chan) (h : j ≠ c) : (s.setChan c d).chan j = s.chan j := by
  simp [State.chan, State.setChan, Table.getD_set_ne _ _ _ _ _ _ h]

@[simp] theorem State.cmp_setCmp_same (s : State) (x : Nat) (d : CmpOut) : (s.setCmp x d).cmp x = d := by
  simp [State.cmp, State.setCmp]

theorem State.cmp_setCmp_ne (s : State) (x j : Nat) (d : CmpOut) (h : j ≠ x) : (s.setCmp x d).cmp j = s.cmp j := by
  simp [State.cmp, State.setCmp, Table.getD_set_ne _ _ _ _ _ _ h]

@[simp] theorem State.tin_setTin_same (s : State) (i : Nat) (d : Tin) : (s.setTin i d).tin i = d := by
  simp [State.tin, State.setTin]

theorem State.tin_setTin_ne (s : State) (i j : Nat) (d : Tin) (h : j ≠ i) : (s.setTin i d).tin j = s.tin j := by
  simp [State.tin, State.setTin, Table.getD_set_ne _ _ _ _ _ _ h]

@[simp] theorem State.tile_setTile_same (s : State) (n : Nat) (d : Tile) : (s.setTile n d).tile n = d := by
  simp [State.tile, State.setTile]

theorem State.tile_setTile_ne (s : State) (n j : Nat) (d : Tile) (h : j ≠ n) : (s.setTile n d).tile j = s.tile j := by
  simp [State.tile, State.setTile, Table.getD_set_ne _ _ _ _ _ _ h]

@[simp] theorem State.def_setDef_same (s : State) (d : Nat) (x : Def) : (s.setDef d x).def_ d = x := by
  simp [State.def_, State.setDef]

theorem State.def_setDef_ne (s : State) (d j : Nat) (x : Def) (h : j ≠ d) : (s.setDef d x).def_ j = s.def_ j := by
  simp [State.def_, State.setDef, Table.getD_set_ne _ _ _ _ _ _ h]

@[simp] theorem State.byte_setByte_same (s : State) (a : Nat) (b : Byte) : (s.setByte a b).byte a = b := by
  simp [State.byte, State.setByte]

theorem State.byte_setByte_ne (s : State) (a x : Nat) (b : Byte) (h : x ≠ a) : (s.setByte a b).byte x = s.byte x := by
  simp [State.byte, State.setByte, Table.getD_set_ne _ _ _ _ _ _ h]

/-! ## Bit fields -/

theorem withBits_eq (n hi lo v : Nat) (h : lo ≤ hi) :
    withBits n hi lo v = n / 2 ^ (hi + 1) * 2 ^ (hi + 1) + (v % 2 ^ (hi + 1 - lo)) * 2 ^ lo + n % 2 ^ lo := by
  have e : hi + 1 = lo + (hi + 1 - lo) := by omega
  have h1 : n / 2 ^ lo / 2 ^ (hi + 1 - lo) = n / 2 ^ (hi + 1) := by
    rw [Nat.div_div_eq_div_mul, ← Nat.pow_add, ← e]
  have h2 := Nat.div_add_mod n (2 ^ lo)
  have h3 := Nat.div_add_mod (n / 2 ^ lo) (2 ^ (hi + 1 - lo))
  rw [h1] at h3
  have h4 : 2 ^ (hi + 1) = 2 ^ lo * 2 ^ (hi + 1 - lo) := by rw [← Nat.pow_add, ← e]
  unfold withBits bits
  rw [Nat.shiftRight_eq_div_pow]
  generalize n / 2 ^ lo % 2 ^ (hi + 1 - lo) = x at h3 ⊢
  generalize n / 2 ^ (hi + 1) = q at h3 ⊢
  generalize (v % 2 ^ (hi + 1 - lo)) * 2 ^ lo = w
  have h5 : n = q * 2 ^ (hi + 1) + x * 2 ^ lo + n % 2 ^ lo := by
    rw [h4]
    calc n = 2 ^ lo * (n / 2 ^ lo) + n % 2 ^ lo := h2.symm
      _ = 2 ^ lo * (2 ^ (hi + 1 - lo) * q + x) + n % 2 ^ lo := by rw [h3]
      _ = _ := by ring
  omega

theorem bits_withBits_same (n hi lo v : Nat) (h : lo ≤ hi) :
    bits (withBits n hi lo v) hi lo = v % 2 ^ (hi + 1 - lo) := by
  have hp : 0 < 2 ^ lo := Nat.two_pow_pos lo
  have e : 2 ^ (hi + 1) = 2 ^ (hi + 1 - lo) * 2 ^ lo := by rw [← Nat.pow_add]; congr 1; omega
  rw [withBits_eq n hi lo v h]
  unfold bits
  rw [Nat.shiftRight_eq_div_pow, e]
  have : n / (2 ^ (hi + 1 - lo) * 2 ^ lo) * (2 ^ (hi + 1 - lo) * 2 ^ lo) + v % 2 ^ (hi + 1 - lo) * 2 ^ lo + n % 2 ^ lo
      = n % 2 ^ lo + 2 ^ lo * (v % 2 ^ (hi + 1 - lo) + 2 ^ (hi + 1 - lo) * (n / (2 ^ (hi + 1 - lo) * 2 ^ lo))) := by ring
  rw [this, Nat.add_mul_div_left _ _ hp, Nat.div_eq_of_lt (Nat.mod_lt _ hp), Nat.zero_add, Nat.add_mul_mod_self_left,
    Nat.mod_mod]

theorem testBit_withBits (n hi lo v i : Nat) (h : lo ≤ hi) (hi' : i < lo ∨ hi < i) :
    (withBits n hi lo v).testBit i = n.testBit i := by
  have hp : 0 < 2 ^ lo := Nat.two_pow_pos lo
  have hq : 0 < 2 ^ (hi + 1) := Nat.two_pow_pos _
  have e : 2 ^ (hi + 1) = 2 ^ (hi + 1 - lo) * 2 ^ lo := by rw [← Nat.pow_add]; congr 1; omega
  have hx : (v % 2 ^ (hi + 1 - lo)) * 2 ^ lo + n % 2 ^ lo < 2 ^ (hi + 1) := by
    have h1 : v % 2 ^ (hi + 1 - lo) + 1 ≤ 2 ^ (hi + 1 - lo) := Nat.mod_lt _ (Nat.two_pow_pos _)
    have h2 := Nat.mul_le_mul_right (2 ^ lo) h1
    have h3 := Nat.mod_lt n hp
    rw [← e, Nat.add_mul, Nat.one_mul] at h2
    omega
  rw [withBits_eq n hi lo v h]
  rcases hi' with hi' | hi'
  · have a : (n / 2 ^ (hi + 1) * 2 ^ (hi + 1) + v % 2 ^ (hi + 1 - lo) * 2 ^ lo + n % 2 ^ lo) % 2 ^ lo = n % 2 ^ lo := by
      have : n / 2 ^ (hi + 1) * 2 ^ (hi + 1) + v % 2 ^ (hi + 1 - lo) * 2 ^ lo + n % 2 ^ lo
          = n % 2 ^ lo + 2 ^ lo * (n / 2 ^ (hi + 1) * 2 ^ (hi + 1 - lo) + v % 2 ^ (hi + 1 - lo)) := by
        rw [e]; ring
      rw [this, Nat.add_mul_mod_self_left, Nat.mod_mod]
    have b := congrArg (fun x => x.testBit i) a
    simpa only [Nat.testBit_mod_two_pow, hi', decide_true, Bool.true_and] using b
  · have a : (n / 2 ^ (hi + 1) * 2 ^ (hi + 1) + v % 2 ^ (hi + 1 - lo) * 2 ^ lo + n % 2 ^ lo) / 2 ^ (hi + 1)
        = n / 2 ^ (hi + 1) := by
      rw [Nat.add_assoc, Nat.add_comm, Nat.add_mul_div_right _ _ hq, Nat.div_eq_of_lt hx, Nat.zero_add]
    have hd : i = (hi + 1) + (i - (hi + 1)) := by omega
    have b := congrArg (fun x => x.testBit (i - (hi + 1))) a
    simp only [Nat.testBit_div_two_pow] at b
    rwa [show i - (hi + 1) + (hi + 1) = i by omega] at b

/-- A field that lies wholly outside the written one keeps its value. -/
theorem bits_withBits_ne (n hi lo v hi' lo' : Nat) (h : lo ≤ hi) (hd : hi' < lo ∨ hi < lo') :
    bits (withBits n hi lo v) hi' lo' = bits n hi' lo' := by
  unfold bits
  apply Nat.eq_of_testBit_eq
  intro i
  simp only [Nat.testBit_mod_two_pow, Nat.testBit_shiftRight]
  by_cases hi2 : i < hi' + 1 - lo'
  · simp only [hi2, decide_true, Bool.true_and]
    exact testBit_withBits _ _ _ _ _ h (by omega)
  · simp [hi2]

theorem withBits_lt (n hi lo v : Nat) (h : lo ≤ hi) (h32 : hi < 32) (hn : n < 2 ^ 32) : withBits n hi lo v < 2 ^ 32 := by
  apply Nat.lt_pow_two_of_testBit
  intro i hi'
  rw [testBit_withBits _ _ _ _ _ h (by omega)]
  exact Nat.testBit_lt_two_pow (Nat.lt_of_lt_of_le hn (Nat.pow_le_pow_right (by omega) hi'))

/-- A field is read back as it was written, at its width. -/
theorem State.fld_setFld_same (s : State) (f : Fld) (i v : Nat) (h : f.lo ≤ f.hi) (h32 : f.hi < 32) :
    (s.setFld f i v).fld f i = v % 2 ^ (f.hi + 1 - f.lo) := by
  have hn := (s.reg f.reg i).isLt
  simp only [State.fld, State.setFld, State.reg_setReg_same, BitVec.toNat_ofNat]
  rw [Nat.mod_eq_of_lt (withBits_lt _ _ _ _ h h32 hn), bits_withBits_same _ _ _ _ h]

/-- A write of a field leaves the fields beside it alone. -/
theorem State.fld_setFld_ne (s : State) (f g : Fld) (i j v : Nat) (h : f.lo ≤ f.hi) (h32 : f.hi < 32)
    (hd : (g.reg, j) ≠ (f.reg, i) ∨ g.hi < f.lo ∨ f.hi < g.lo) : (s.setFld f i v).fld g j = s.fld g j := by
  by_cases hk : (g.reg, j) = (f.reg, i)
  · have hd := hd.resolve_left (fun x => x hk)
    have hr : g.reg = f.reg := congrArg Prod.fst hk
    have hj : j = i := congrArg Prod.snd hk
    have hn := (s.reg f.reg i).isLt
    simp only [State.fld, State.setFld, hr, hj, State.reg_setReg_same, BitVec.toNat_ofNat]
    rw [Nat.mod_eq_of_lt (withBits_lt _ _ _ _ h h32 hn), bits_withBits_ne _ _ _ _ _ _ h hd]
  · simp only [State.fld, State.setFld]
    rw [State.reg_setReg_ne s _ _ _ _ _ hk]

theorem State.flag_setFlag_same (s : State) (f : Fld) (i : Nat) (b : Bool) (h : f.lo = f.hi) (h32 : f.hi < 32) :
    (s.setFlag f i b).flag f i = b := by
  have e : f.hi + 1 - f.lo = 1 := by omega
  simp only [State.flag, State.setFlag]
  rw [State.fld_setFld_same s f i _ (by omega) h32, e]
  cases b <;> rfl

/-! ## Conditional and repeated operations -/

@[simp] theorem State.when_true (s : State) (f : State → State) : s.when true f = f s := rfl
@[simp] theorem State.when_false (s : State) (f : State → State) : s.when false f = s := rfl
@[simp] theorem State.over_nil {α : Type} (s : State) (f : State → α → State) : s.over [] f = s := rfl
@[simp] theorem State.over_cons {α : Type} (s : State) (a : α) (l : List α) (f : State → α → State) :
    s.over (a :: l) f = (f s a).over l f := rfl
@[simp] theorem State.each_zero (s : State) (f : State → Nat → State) : s.each 0 f = s := rfl

/-- What every application of an operation keeps, a conditional application keeps. -/
theorem State.when_keeps {β : Type} (g : State → β) (s : State) (c : Bool) (f : State → State)
    (h : ∀ s, g (f s) = g s) : g (s.when c f) = g s := by
  cases c
  · rfl
  · exact h s

/-- What every application of an operation keeps, a fold over a list keeps. -/
theorem State.over_keeps {α β : Type} (g : State → β) (s : State) (l : List α) (f : State → α → State)
    (h : ∀ s a, g (f s a) = g s) : g (s.over l f) = g s := by
  induction l generalizing s with
  | nil => rfl
  | cons a l ih => exact (ih (f s a)).trans (h s a)

/-- What every application of an operation keeps, a fold over the numbers below n keeps. -/
theorem State.each_keeps {β : Type} (g : State → β) (s : State) (n : Nat) (f : State → Nat → State)
    (h : ∀ s a, g (f s a) = g s) : g (s.each n f) = g s := State.over_keeps g s (List.range n) f h

end Sys2Proof.Machine
end

