-- ==== Sys2Proof/Laws/Events.lean ====
section
/-! SUPPORT. Laws of events and interrupts: what raising an event can change, and what it leaves alone. -/

namespace Sys2Proof.Machine

/-- Raising events changes the event queue, the registers (EVQ_DROPPED), the epoch counters and what has been sent;
`Raised s t` says that t differs from s there only. -/
def Raised (s t : State) : Prop :=
  t = { s with evq := t.evq, regs := t.regs, epoch := t.epoch, out := t.out } ∧
  (∀ r i, (r, i) ≠ (Reg.EVQ_DROPPED, 0) → t.reg r i = s.reg r i) ∧
  t.epoch = { s.epoch with stats := t.epoch.stats, early := t.epoch.early }

theorem Raised.refl (s : State) : Raised s s := ⟨rfl, fun _ _ _ => rfl, rfl⟩

theorem Raised.trans {s t u : State} (h : Raised s t) (k : Raised t u) : Raised s u := by
  refine ⟨?_, fun r i hk => (k.2.1 r i hk).trans (h.2.1 r i hk), ?_⟩
  · have h1 := k.1; rw [h.1] at h1; exact h1
  · have h1 := k.2.2; rw [h.2.2] at h1; exact h1

/-- Counting for the newest epoch changes its counters alone. -/
theorem State.statIn_epoch (s : State) (f : Table Nat Int → Table Nat Int) :
    (s.statIn false f).epoch =
      { s.epoch with stats := (s.statIn false f).epoch.stats, early := (s.statIn false f).epoch.early } := by
  simp only [State.statIn]
  split <;> rfl

theorem State.stat_raised (s : State) (off : Nat) (n : Int) : Raised s (s.stat off n) := by
  unfold State.stat
  split
  · exact Raised.refl s
  · exact ⟨rfl, fun _ _ _ => rfl, s.statIn_epoch _⟩

theorem State.emit_raised (s : State) (o : Out) : Raised s (s.emit o) := ⟨rfl, fun _ _ _ => rfl, rfl⟩

theorem State.over_raised {α : Type} (s : State) (l : List α) (f : State → α → State)
    (h : ∀ s a, Raised s (f s a)) : Raised s (s.over l f) := by
  induction l generalizing s with
  | nil => exact Raised.refl s
  | cons a l ih => exact (h s a).trans (ih (f s a))

theorem State.dropped_raised (s : State) (n : Nat) : Raised s (s.addFld EVQ_DROPPED.DROPPED 0 n) :=
  ⟨rfl, fun _ _ h => State.reg_setReg_ne s _ _ _ _ _ h, rfl⟩

theorem State.evqDrop_raised (s : State) : Raised s s.evqDrop :=
  ((s.dropped_raised 1).trans (State.stat_raised _ _ _)).trans ⟨rfl, fun _ _ _ => rfl, rfl⟩

theorem State.evqIssue_raised (s : State) (e : Event) : Raised s (s.evqIssue e) := ⟨rfl, fun _ _ _ => rfl, rfl⟩

theorem State.evqFlush_raised (n : Nat) (s : State) : Raised s (State.evqFlush n s) := by
  induction n generalizing s with
  | zero => exact Raised.refl s
  | succ n ih =>
    simp only [State.evqFlush]
    split
    · exact Raised.refl s
    · next e rest _ =>
      split
      · exact Raised.refl s
      · have h : Raised s { s with evq := { s.evq with hold := rest } } := ⟨rfl, fun _ _ _ => rfl, rfl⟩
        exact (h.trans (State.evqIssue_raised _ e)).trans (ih _)

theorem State.evqPut_raised (s : State) (e : Event) : Raised s (s.evqPut e) := by
  unfold State.evqPut State.evqHold
  split
  · refine (State.evqFlush_raised 256 s).trans ?_
    show Raised _ (if (State.evqFlush 256 s).evqFull then _ else _)
    split
    · exact State.evqDrop_raised _
    · exact State.evqIssue_raised _ e
  · split
    · exact ⟨rfl, fun _ _ _ => rfl, rfl⟩
    · exact s.evqDrop_raised

theorem State.pushEvent_raised (s : State) (e : Event) : Raised s (s.pushEvent e) := by
  refine State.over_raised s _ _ (fun t x => ?_)
  split
  · split
    · exact t.emit_raised _
    · exact Raised.refl t
  · exact Raised.refl t

theorem State.raiseSev_raised (s : State) (k : EventKind) (sev inst dt : Nat) : Raised s (s.raiseSev k sev inst dt) := by
  unfold State.raiseSev
  refine Raised.trans (t := _) ?_ ((State.pushEvent_raised _ _).trans (State.evqPut_raised _ _))
  unfold State.when
  split <;> exact ⟨rfl, fun _ _ _ => rfl, rfl⟩

/-- What raising an event changes. -/
theorem State.raise_raised (s : State) (k : EventKind) (inst : Nat) (fs : List (Nat × Nat × Nat)) :
    Raised s (s.raise k inst fs) := s.raiseSev_raised _ _ _ _

/-- No other register changes when an event is raised. -/
theorem State.raise_reg (s : State) (k : EventKind) (inst : Nat) (fs : List (Nat × Nat × Nat)) (r : Reg) (i : Nat)
    (h : (r, i) ≠ (Reg.EVQ_DROPPED, 0)) : (s.raise k inst fs).reg r i = s.reg r i :=
  (s.raise_raised k inst fs).2.1 r i h

theorem State.raise_fld (s : State) (k : EventKind) (inst : Nat) (fs : List (Nat × Nat × Nat)) (f : Fld) (i : Nat)
    (h : (f.reg, i) ≠ (Reg.EVQ_DROPPED, 0)) : (s.raise k inst fs).fld f i = s.fld f i := by
  simp only [State.fld, s.raise_reg k inst fs f.reg i h]

/-- An interrupt is something sent and nothing else. -/
theorem State.irq_sent (s : State) (n : Nat) : ∃ l, s.irq n = { s with out := l } := by
  have key : ∀ (ps : List Nat) (s : State), ∃ l, s.over ps (fun s p => s.emit (.msix p n)) = { s with out := l } := by
    intro ps
    induction ps with
    | nil => intro s; exact ⟨s.out, rfl⟩
    | cons p ps ih =>
      intro s
      obtain ⟨l, h⟩ := ih (s.emit (.msix p n))
      exact ⟨l, h⟩
  unfold State.irq
  split
  · exact ⟨_, rfl⟩
  · next ps _ => exact key _ s

/-- Setting a pending bit changes that bit's register and what has been sent. -/
theorem State.pend_shape (s : State) (p e : Fld) (i n : Nat) :
    ∃ l, s.pend p e i n = { s.setFlag p i true with out := l } := by
  unfold State.pend
  cases !s.flag p i && s.flag e i
  · exact ⟨s.out, rfl⟩
  · exact State.irq_sent _ n

/-! ## One lemma per field -/


theorem Raised.pending {s t : State} (h : Raised s t) : t.pending = s.pending := by rw [h.1]
theorem Raised.now {s t : State} (h : Raised s t) : t.now = s.now := by rw [h.1]
theorem Raised.free {s t : State} (h : Raised s t) : t.free = s.free := by rw [h.1]
theorem Raised.dev {s t : State} (h : Raised s t) : t.dev = s.dev := by rw [h.1]
theorem Raised.staged {s t : State} (h : Raised s t) : t.staged = s.staged := by rw [h.1]
theorem Raised.lv {s t : State} (h : Raised s t) : t.lv = s.lv := by rw [h.1]
theorem Raised.held {s t : State} (h : Raised s t) : t.held = s.held := by rw [h.1]
theorem Raised.capt {s t : State} (h : Raised s t) : t.capt = s.capt := by rw [h.1]
theorem Raised.mem {s t : State} (h : Raised s t) : t.mem = s.mem := by rw [h.1]
theorem Raised.jasper {s t : State} (h : Raised s t) : t.jasper = s.jasper := by rw [h.1]
theorem Raised.completion {s t : State} (h : Raised s t) : t.completion = s.completion := by rw [h.1]
theorem Raised.telemetry {s t : State} (h : Raised s t) : t.telemetry = s.telemetry := by rw [h.1]
theorem Raised.time {s t : State} (h : Raised s t) : t.time = s.time := by rw [h.1]
theorem Raised.dies {s t : State} (h : Raised s t) : t.dies = s.dies := by rw [h.1]
theorem Raised.chans {s t : State} (h : Raised s t) : t.chans = s.chans := by rw [h.1]
theorem Raised.cmps {s t : State} (h : Raised s t) : t.cmps = s.cmps := by rw [h.1]
theorem Raised.clk {s t : State} (h : Raised s t) : t.clk = s.clk := by rw [h.1]
theorem Raised.tins {s t : State} (h : Raised s t) : t.tins = s.tins := by rw [h.1]
theorem Raised.cel {s t : State} (h : Raised s t) : t.cel = s.cel := by rw [h.1]
theorem Raised.tiles {s t : State} (h : Raised s t) : t.tiles = s.tiles := by rw [h.1]
theorem Raised.prog {s t : State} (h : Raised s t) : t.prog = s.prog := by rw [h.1]
theorem Raised.trg {s t : State} (h : Raised s t) : t.trg = s.trg := by rw [h.1]
theorem Raised.turn {s t : State} (h : Raised s t) : t.turn = s.turn := by rw [h.1]
theorem Raised.replays {s t : State} (h : Raised s t) : t.replays = s.replays := by rw [h.1]
theorem Raised.opals {s t : State} (h : Raised s t) : t.opals = s.opals := by rw [h.1]
theorem Raised.oplMap {s t : State} (h : Raised s t) : t.oplMap = s.oplMap := by rw [h.1]
theorem Raised.oplSwap {s t : State} (h : Raised s t) : t.oplSwap = s.oplSwap := by rw [h.1]
theorem Raised.scans {s t : State} (h : Raised s t) : t.scans = s.scans := by rw [h.1]
theorem Raised.dma {s t : State} (h : Raised s t) : t.dma = s.dma := by rw [h.1]
theorem Raised.msix {s t : State} (h : Raised s t) : t.msix = s.msix := by rw [h.1]
theorem Raised.stm {s t : State} (h : Raised s t) : t.stm = s.stm := by rw [h.1]
theorem Raised.fab {s t : State} (h : Raised s t) : t.fab = s.fab := by rw [h.1]
theorem Raised.cal {s t : State} (h : Raised s t) : t.cal = s.cal := by rw [h.1]
theorem Raised.hk {s t : State} (h : Raised s t) : t.hk = s.hk := by rw [h.1]
theorem Raised.pwr {s t : State} (h : Raised s t) : t.pwr = s.pwr := by rw [h.1]
theorem Raised.pan {s t : State} (h : Raised s t) : t.pan = s.pan := by rw [h.1]
theorem Raised.rcv {s t : State} (h : Raised s t) : t.rcv = s.rcv := by rw [h.1]
theorem Raised.sec {s t : State} (h : Raised s t) : t.sec = s.sec := by rw [h.1]

@[simp] theorem State.raise_pending (s : State) (k : EventKind) (inst : Nat) (fs : List (Nat × Nat × Nat)) :
    (s.raise k inst fs).pending = s.pending := (s.raise_raised k inst fs).pending
@[simp] theorem State.raise_now (s : State) (k : EventKind) (inst : Nat) (fs : List (Nat × Nat × Nat)) :
    (s.raise k inst fs).now = s.now := (s.raise_raised k inst fs).now
@[simp] theorem State.raise_free (s : State) (k : EventKind) (inst : Nat) (fs : List (Nat × Nat × Nat)) :
    (s.raise k inst fs).free = s.free := (s.raise_raised k inst fs).free
@[simp] theorem State.raise_dev (s : State) (k : EventKind) (inst : Nat) (fs : List (Nat × Nat × Nat)) :
    (s.raise k inst fs).dev = s.dev := (s.raise_raised k inst fs).dev
@[simp] theorem State.raise_staged (s : State) (k : EventKind) (inst : Nat) (fs : List (Nat × Nat × Nat)) :
    (s.raise k inst fs).staged = s.staged := (s.raise_raised k inst fs).staged
@[simp] theorem State.raise_lv (s : State) (k : EventKind) (inst : Nat) (fs : List (Nat × Nat × Nat)) :
    (s.raise k inst fs).lv = s.lv := (s.raise_raised k inst fs).lv
@[simp] theorem State.raise_held (s : State) (k : EventKind) (inst : Nat) (fs : List (Nat × Nat × Nat)) :
    (s.raise k inst fs).held = s.held := (s.raise_raised k inst fs).held
@[simp] theorem State.raise_capt (s : State) (k : EventKind) (inst : Nat) (fs : List (Nat × Nat × Nat)) :
    (s.raise k inst fs).capt = s.capt := (s.raise_raised k inst fs).capt
@[simp] theorem State.raise_mem (s : State) (k : EventKind) (inst : Nat) (fs : List (Nat × Nat × Nat)) :
    (s.raise k inst fs).mem = s.mem := (s.raise_raised k inst fs).mem
@[simp] theorem State.raise_jasper (s : State) (k : EventKind) (inst : Nat) (fs : List (Nat × Nat × Nat)) :
    (s.raise k inst fs).jasper = s.jasper := (s.raise_raised k inst fs).jasper
@[simp] theorem State.raise_completion (s : State) (k : EventKind) (inst : Nat) (fs : List (Nat × Nat × Nat)) :
    (s.raise k inst fs).completion = s.completion := (s.raise_raised k inst fs).completion
@[simp] theorem State.raise_telemetry (s : State) (k : EventKind) (inst : Nat) (fs : List (Nat × Nat × Nat)) :
    (s.raise k inst fs).telemetry = s.telemetry := (s.raise_raised k inst fs).telemetry
@[simp] theorem State.raise_time (s : State) (k : EventKind) (inst : Nat) (fs : List (Nat × Nat × Nat)) :
    (s.raise k inst fs).time = s.time := (s.raise_raised k inst fs).time
@[simp] theorem State.raise_dies (s : State) (k : EventKind) (inst : Nat) (fs : List (Nat × Nat × Nat)) :
    (s.raise k inst fs).dies = s.dies := (s.raise_raised k inst fs).dies
@[simp] theorem State.raise_chans (s : State) (k : EventKind) (inst : Nat) (fs : List (Nat × Nat × Nat)) :
    (s.raise k inst fs).chans = s.chans := (s.raise_raised k inst fs).chans
@[simp] theorem State.raise_cmps (s : State) (k : EventKind) (inst : Nat) (fs : List (Nat × Nat × Nat)) :
    (s.raise k inst fs).cmps = s.cmps := (s.raise_raised k inst fs).cmps
@[simp] theorem State.raise_clk (s : State) (k : EventKind) (inst : Nat) (fs : List (Nat × Nat × Nat)) :
    (s.raise k inst fs).clk = s.clk := (s.raise_raised k inst fs).clk
@[simp] theorem State.raise_tins (s : State) (k : EventKind) (inst : Nat) (fs : List (Nat × Nat × Nat)) :
    (s.raise k inst fs).tins = s.tins := (s.raise_raised k inst fs).tins
@[simp] theorem State.raise_cel (s : State) (k : EventKind) (inst : Nat) (fs : List (Nat × Nat × Nat)) :
    (s.raise k inst fs).cel = s.cel := (s.raise_raised k inst fs).cel
@[simp] theorem State.raise_tiles (s : State) (k : EventKind) (inst : Nat) (fs : List (Nat × Nat × Nat)) :
    (s.raise k inst fs).tiles = s.tiles := (s.raise_raised k inst fs).tiles
@[simp] theorem State.raise_prog (s : State) (k : EventKind) (inst : Nat) (fs : List (Nat × Nat × Nat)) :
    (s.raise k inst fs).prog = s.prog := (s.raise_raised k inst fs).prog
@[simp] theorem State.raise_trg (s : State) (k : EventKind) (inst : Nat) (fs : List (Nat × Nat × Nat)) :
    (s.raise k inst fs).trg = s.trg := (s.raise_raised k inst fs).trg
@[simp] theorem State.raise_turn (s : State) (k : EventKind) (inst : Nat) (fs : List (Nat × Nat × Nat)) :
    (s.raise k inst fs).turn = s.turn := (s.raise_raised k inst fs).turn
@[simp] theorem State.raise_replays (s : State) (k : EventKind) (inst : Nat) (fs : List (Nat × Nat × Nat)) :
    (s.raise k inst fs).replays = s.replays := (s.raise_raised k inst fs).replays
@[simp] theorem State.raise_opals (s : State) (k : EventKind) (inst : Nat) (fs : List (Nat × Nat × Nat)) :
    (s.raise k inst fs).opals = s.opals := (s.raise_raised k inst fs).opals
@[simp] theorem State.raise_oplMap (s : State) (k : EventKind) (inst : Nat) (fs : List (Nat × Nat × Nat)) :
    (s.raise k inst fs).oplMap = s.oplMap := (s.raise_raised k inst fs).oplMap
@[simp] theorem State.raise_oplSwap (s : State) (k : EventKind) (inst : Nat) (fs : List (Nat × Nat × Nat)) :
    (s.raise k inst fs).oplSwap = s.oplSwap := (s.raise_raised k inst fs).oplSwap
@[simp] theorem State.raise_scans (s : State) (k : EventKind) (inst : Nat) (fs : List (Nat × Nat × Nat)) :
    (s.raise k inst fs).scans = s.scans := (s.raise_raised k inst fs).scans
@[simp] theorem State.raise_dma (s : State) (k : EventKind) (inst : Nat) (fs : List (Nat × Nat × Nat)) :
    (s.raise k inst fs).dma = s.dma := (s.raise_raised k inst fs).dma
@[simp] theorem State.raise_msix (s : State) (k : EventKind) (inst : Nat) (fs : List (Nat × Nat × Nat)) :
    (s.raise k inst fs).msix = s.msix := (s.raise_raised k inst fs).msix
@[simp] theorem State.raise_stm (s : State) (k : EventKind) (inst : Nat) (fs : List (Nat × Nat × Nat)) :
    (s.raise k inst fs).stm = s.stm := (s.raise_raised k inst fs).stm
@[simp] theorem State.raise_fab (s : State) (k : EventKind) (inst : Nat) (fs : List (Nat × Nat × Nat)) :
    (s.raise k inst fs).fab = s.fab := (s.raise_raised k inst fs).fab
@[simp] theorem State.raise_cal (s : State) (k : EventKind) (inst : Nat) (fs : List (Nat × Nat × Nat)) :
    (s.raise k inst fs).cal = s.cal := (s.raise_raised k inst fs).cal
@[simp] theorem State.raise_hk (s : State) (k : EventKind) (inst : Nat) (fs : List (Nat × Nat × Nat)) :
    (s.raise k inst fs).hk = s.hk := (s.raise_raised k inst fs).hk
@[simp] theorem State.raise_pwr (s : State) (k : EventKind) (inst : Nat) (fs : List (Nat × Nat × Nat)) :
    (s.raise k inst fs).pwr = s.pwr := (s.raise_raised k inst fs).pwr
@[simp] theorem State.raise_pan (s : State) (k : EventKind) (inst : Nat) (fs : List (Nat × Nat × Nat)) :
    (s.raise k inst fs).pan = s.pan := (s.raise_raised k inst fs).pan
@[simp] theorem State.raise_rcv (s : State) (k : EventKind) (inst : Nat) (fs : List (Nat × Nat × Nat)) :
    (s.raise k inst fs).rcv = s.rcv := (s.raise_raised k inst fs).rcv
@[simp] theorem State.raise_sec (s : State) (k : EventKind) (inst : Nat) (fs : List (Nat × Nat × Nat)) :
    (s.raise k inst fs).sec = s.sec := (s.raise_raised k inst fs).sec

@[simp] theorem State.raise_byte (s : State) (k : EventKind) (inst : Nat) (fs : List (Nat × Nat × Nat)) (a : Nat) :
    (s.raise k inst fs).byte a = s.byte a := by simp [State.byte]

@[simp] theorem State.irq_pending (s : State) (n : Nat) : (s.irq n).pending = s.pending := by
  obtain ⟨l, h⟩ := s.irq_sent n; rw [h]
@[simp] theorem State.irq_now (s : State) (n : Nat) : (s.irq n).now = s.now := by
  obtain ⟨l, h⟩ := s.irq_sent n; rw [h]
@[simp] theorem State.irq_free (s : State) (n : Nat) : (s.irq n).free = s.free := by
  obtain ⟨l, h⟩ := s.irq_sent n; rw [h]
@[simp] theorem State.irq_dev (s : State) (n : Nat) : (s.irq n).dev = s.dev := by
  obtain ⟨l, h⟩ := s.irq_sent n; rw [h]
@[simp] theorem State.irq_regs (s : State) (n : Nat) : (s.irq n).regs = s.regs := by
  obtain ⟨l, h⟩ := s.irq_sent n; rw [h]
@[simp] theorem State.irq_staged (s : State) (n : Nat) : (s.irq n).staged = s.staged := by
  obtain ⟨l, h⟩ := s.irq_sent n; rw [h]
@[simp] theorem State.irq_lv (s : State) (n : Nat) : (s.irq n).lv = s.lv := by
  obtain ⟨l, h⟩ := s.irq_sent n; rw [h]
@[simp] theorem State.irq_held (s : State) (n : Nat) : (s.irq n).held = s.held := by
  obtain ⟨l, h⟩ := s.irq_sent n; rw [h]
@[simp] theorem State.irq_capt (s : State) (n : Nat) : (s.irq n).capt = s.capt := by
  obtain ⟨l, h⟩ := s.irq_sent n; rw [h]
@[simp] theorem State.irq_mem (s : State) (n : Nat) : (s.irq n).mem = s.mem := by
  obtain ⟨l, h⟩ := s.irq_sent n; rw [h]
@[simp] theorem State.irq_evq (s : State) (n : Nat) : (s.irq n).evq = s.evq := by
  obtain ⟨l, h⟩ := s.irq_sent n; rw [h]
@[simp] theorem State.irq_jasper (s : State) (n : Nat) : (s.irq n).jasper = s.jasper := by
  obtain ⟨l, h⟩ := s.irq_sent n; rw [h]
@[simp] theorem State.irq_completion (s : State) (n : Nat) : (s.irq n).completion = s.completion := by
  obtain ⟨l, h⟩ := s.irq_sent n; rw [h]
@[simp] theorem State.irq_telemetry (s : State) (n : Nat) : (s.irq n).telemetry = s.telemetry := by
  obtain ⟨l, h⟩ := s.irq_sent n; rw [h]
@[simp] theorem State.irq_time (s : State) (n : Nat) : (s.irq n).time = s.time := by
  obtain ⟨l, h⟩ := s.irq_sent n; rw [h]
@[simp] theorem State.irq_dies (s : State) (n : Nat) : (s.irq n).dies = s.dies := by
  obtain ⟨l, h⟩ := s.irq_sent n; rw [h]
@[simp] theorem State.irq_chans (s : State) (n : Nat) : (s.irq n).chans = s.chans := by
  obtain ⟨l, h⟩ := s.irq_sent n; rw [h]
@[simp] theorem State.irq_cmps (s : State) (n : Nat) : (s.irq n).cmps = s.cmps := by
  obtain ⟨l, h⟩ := s.irq_sent n; rw [h]
@[simp] theorem State.irq_clk (s : State) (n : Nat) : (s.irq n).clk = s.clk := by
  obtain ⟨l, h⟩ := s.irq_sent n; rw [h]
@[simp] theorem State.irq_tins (s : State) (n : Nat) : (s.irq n).tins = s.tins := by
  obtain ⟨l, h⟩ := s.irq_sent n; rw [h]
@[simp] theorem State.irq_epoch (s : State) (n : Nat) : (s.irq n).epoch = s.epoch := by
  obtain ⟨l, h⟩ := s.irq_sent n; rw [h]
@[simp] theorem State.irq_cel (s : State) (n : Nat) : (s.irq n).cel = s.cel := by
  obtain ⟨l, h⟩ := s.irq_sent n; rw [h]
@[simp] theorem State.irq_tiles (s : State) (n : Nat) : (s.irq n).tiles = s.tiles := by
  obtain ⟨l, h⟩ := s.irq_sent n; rw [h]
@[simp] theorem State.irq_prog (s : State) (n : Nat) : (s.irq n).prog = s.prog := by
  obtain ⟨l, h⟩ := s.irq_sent n; rw [h]
@[simp] theorem State.irq_trg (s : State) (n : Nat) : (s.irq n).trg = s.trg := by
  obtain ⟨l, h⟩ := s.irq_sent n; rw [h]
@[simp] theorem State.irq_turn (s : State) (n : Nat) : (s.irq n).turn = s.turn := by
  obtain ⟨l, h⟩ := s.irq_sent n; rw [h]
@[simp] theorem State.irq_replays (s : State) (n : Nat) : (s.irq n).replays = s.replays := by
  obtain ⟨l, h⟩ := s.irq_sent n; rw [h]
@[simp] theorem State.irq_opals (s : State) (n : Nat) : (s.irq n).opals = s.opals := by
  obtain ⟨l, h⟩ := s.irq_sent n; rw [h]
@[simp] theorem State.irq_oplMap (s : State) (n : Nat) : (s.irq n).oplMap = s.oplMap := by
  obtain ⟨l, h⟩ := s.irq_sent n; rw [h]
@[simp] theorem State.irq_oplSwap (s : State) (n : Nat) : (s.irq n).oplSwap = s.oplSwap := by
  obtain ⟨l, h⟩ := s.irq_sent n; rw [h]
@[simp] theorem State.irq_scans (s : State) (n : Nat) : (s.irq n).scans = s.scans := by
  obtain ⟨l, h⟩ := s.irq_sent n; rw [h]
@[simp] theorem State.irq_dma (s : State) (n : Nat) : (s.irq n).dma = s.dma := by
  obtain ⟨l, h⟩ := s.irq_sent n; rw [h]
@[simp] theorem State.irq_msix (s : State) (n : Nat) : (s.irq n).msix = s.msix := by
  obtain ⟨l, h⟩ := s.irq_sent n; rw [h]
@[simp] theorem State.irq_stm (s : State) (n : Nat) : (s.irq n).stm = s.stm := by
  obtain ⟨l, h⟩ := s.irq_sent n; rw [h]
@[simp] theorem State.irq_fab (s : State) (n : Nat) : (s.irq n).fab = s.fab := by
  obtain ⟨l, h⟩ := s.irq_sent n; rw [h]
@[simp] theorem State.irq_cal (s : State) (n : Nat) : (s.irq n).cal = s.cal := by
  obtain ⟨l, h⟩ := s.irq_sent n; rw [h]
@[simp] theorem State.irq_hk (s : State) (n : Nat) : (s.irq n).hk = s.hk := by
  obtain ⟨l, h⟩ := s.irq_sent n; rw [h]
@[simp] theorem State.irq_pwr (s : State) (n : Nat) : (s.irq n).pwr = s.pwr := by
  obtain ⟨l, h⟩ := s.irq_sent n; rw [h]
@[simp] theorem State.irq_pan (s : State) (n : Nat) : (s.irq n).pan = s.pan := by
  obtain ⟨l, h⟩ := s.irq_sent n; rw [h]
@[simp] theorem State.irq_rcv (s : State) (n : Nat) : (s.irq n).rcv = s.rcv := by
  obtain ⟨l, h⟩ := s.irq_sent n; rw [h]
@[simp] theorem State.irq_sec (s : State) (n : Nat) : (s.irq n).sec = s.sec := by
  obtain ⟨l, h⟩ := s.irq_sent n; rw [h]

@[simp] theorem State.pend_pending (s : State) (p e : Fld) (i n : Nat) : (s.pend p e i n).pending = s.pending := by
  obtain ⟨l, h⟩ := s.pend_shape p e i n; rw [h]; rfl
@[simp] theorem State.pend_now (s : State) (p e : Fld) (i n : Nat) : (s.pend p e i n).now = s.now := by
  obtain ⟨l, h⟩ := s.pend_shape p e i n; rw [h]; rfl
@[simp] theorem State.pend_free (s : State) (p e : Fld) (i n : Nat) : (s.pend p e i n).free = s.free := by
  obtain ⟨l, h⟩ := s.pend_shape p e i n; rw [h]; rfl
@[simp] theorem State.pend_dev (s : State) (p e : Fld) (i n : Nat) : (s.pend p e i n).dev = s.dev := by
  obtain ⟨l, h⟩ := s.pend_shape p e i n; rw [h]; rfl
@[simp] theorem State.pend_staged (s : State) (p e : Fld) (i n : Nat) : (s.pend p e i n).staged = s.staged := by
  obtain ⟨l, h⟩ := s.pend_shape p e i n; rw [h]; rfl
@[simp] theorem State.pend_lv (s : State) (p e : Fld) (i n : Nat) : (s.pend p e i n).lv = s.lv := by
  obtain ⟨l, h⟩ := s.pend_shape p e i n; rw [h]; rfl
@[simp] theorem State.pend_held (s : State) (p e : Fld) (i n : Nat) : (s.pend p e i n).held = s.held := by
  obtain ⟨l, h⟩ := s.pend_shape p e i n; rw [h]; rfl
@[simp] theorem State.pend_capt (s : State) (p e : Fld) (i n : Nat) : (s.pend p e i n).capt = s.capt := by
  obtain ⟨l, h⟩ := s.pend_shape p e i n; rw [h]; rfl
@[simp] theorem State.pend_mem (s : State) (p e : Fld) (i n : Nat) : (s.pend p e i n).mem = s.mem := by
  obtain ⟨l, h⟩ := s.pend_shape p e i n; rw [h]; rfl
@[simp] theorem State.pend_evq (s : State) (p e : Fld) (i n : Nat) : (s.pend p e i n).evq = s.evq := by
  obtain ⟨l, h⟩ := s.pend_shape p e i n; rw [h]; rfl
@[simp] theorem State.pend_jasper (s : State) (p e : Fld) (i n : Nat) : (s.pend p e i n).jasper = s.jasper := by
  obtain ⟨l, h⟩ := s.pend_shape p e i n; rw [h]; rfl
@[simp] theorem State.pend_completion (s : State) (p e : Fld) (i n : Nat) : (s.pend p e i n).completion = s.completion := by
  obtain ⟨l, h⟩ := s.pend_shape p e i n; rw [h]; rfl
@[simp] theorem State.pend_telemetry (s : State) (p e : Fld) (i n : Nat) : (s.pend p e i n).telemetry = s.telemetry := by
  obtain ⟨l, h⟩ := s.pend_shape p e i n; rw [h]; rfl
@[simp] theorem State.pend_time (s : State) (p e : Fld) (i n : Nat) : (s.pend p e i n).time = s.time := by
  obtain ⟨l, h⟩ := s.pend_shape p e i n; rw [h]; rfl
@[simp] theorem State.pend_dies (s : State) (p e : Fld) (i n : Nat) : (s.pend p e i n).dies = s.dies := by
  obtain ⟨l, h⟩ := s.pend_shape p e i n; rw [h]; rfl
@[simp] theorem State.pend_chans (s : State) (p e : Fld) (i n : Nat) : (s.pend p e i n).chans = s.chans := by
  obtain ⟨l, h⟩ := s.pend_shape p e i n; rw [h]; rfl
@[simp] theorem State.pend_cmps (s : State) (p e : Fld) (i n : Nat) : (s.pend p e i n).cmps = s.cmps := by
  obtain ⟨l, h⟩ := s.pend_shape p e i n; rw [h]; rfl
@[simp] theorem State.pend_clk (s : State) (p e : Fld) (i n : Nat) : (s.pend p e i n).clk = s.clk := by
  obtain ⟨l, h⟩ := s.pend_shape p e i n; rw [h]; rfl
@[simp] theorem State.pend_tins (s : State) (p e : Fld) (i n : Nat) : (s.pend p e i n).tins = s.tins := by
  obtain ⟨l, h⟩ := s.pend_shape p e i n; rw [h]; rfl
@[simp] theorem State.pend_epoch (s : State) (p e : Fld) (i n : Nat) : (s.pend p e i n).epoch = s.epoch := by
  obtain ⟨l, h⟩ := s.pend_shape p e i n; rw [h]; rfl
@[simp] theorem State.pend_cel (s : State) (p e : Fld) (i n : Nat) : (s.pend p e i n).cel = s.cel := by
  obtain ⟨l, h⟩ := s.pend_shape p e i n; rw [h]; rfl
@[simp] theorem State.pend_tiles (s : State) (p e : Fld) (i n : Nat) : (s.pend p e i n).tiles = s.tiles := by
  obtain ⟨l, h⟩ := s.pend_shape p e i n; rw [h]; rfl
@[simp] theorem State.pend_prog (s : State) (p e : Fld) (i n : Nat) : (s.pend p e i n).prog = s.prog := by
  obtain ⟨l, h⟩ := s.pend_shape p e i n; rw [h]; rfl
@[simp] theorem State.pend_trg (s : State) (p e : Fld) (i n : Nat) : (s.pend p e i n).trg = s.trg := by
  obtain ⟨l, h⟩ := s.pend_shape p e i n; rw [h]; rfl
@[simp] theorem State.pend_turn (s : State) (p e : Fld) (i n : Nat) : (s.pend p e i n).turn = s.turn := by
  obtain ⟨l, h⟩ := s.pend_shape p e i n; rw [h]; rfl
@[simp] theorem State.pend_replays (s : State) (p e : Fld) (i n : Nat) : (s.pend p e i n).replays = s.replays := by
  obtain ⟨l, h⟩ := s.pend_shape p e i n; rw [h]; rfl
@[simp] theorem State.pend_opals (s : State) (p e : Fld) (i n : Nat) : (s.pend p e i n).opals = s.opals := by
  obtain ⟨l, h⟩ := s.pend_shape p e i n; rw [h]; rfl
@[simp] theorem State.pend_oplMap (s : State) (p e : Fld) (i n : Nat) : (s.pend p e i n).oplMap = s.oplMap := by
  obtain ⟨l, h⟩ := s.pend_shape p e i n; rw [h]; rfl
@[simp] theorem State.pend_oplSwap (s : State) (p e : Fld) (i n : Nat) : (s.pend p e i n).oplSwap = s.oplSwap := by
  obtain ⟨l, h⟩ := s.pend_shape p e i n; rw [h]; rfl
@[simp] theorem State.pend_scans (s : State) (p e : Fld) (i n : Nat) : (s.pend p e i n).scans = s.scans := by
  obtain ⟨l, h⟩ := s.pend_shape p e i n; rw [h]; rfl
@[simp] theorem State.pend_dma (s : State) (p e : Fld) (i n : Nat) : (s.pend p e i n).dma = s.dma := by
  obtain ⟨l, h⟩ := s.pend_shape p e i n; rw [h]; rfl
@[simp] theorem State.pend_msix (s : State) (p e : Fld) (i n : Nat) : (s.pend p e i n).msix = s.msix := by
  obtain ⟨l, h⟩ := s.pend_shape p e i n; rw [h]; rfl
@[simp] theorem State.pend_stm (s : State) (p e : Fld) (i n : Nat) : (s.pend p e i n).stm = s.stm := by
  obtain ⟨l, h⟩ := s.pend_shape p e i n; rw [h]; rfl
@[simp] theorem State.pend_fab (s : State) (p e : Fld) (i n : Nat) : (s.pend p e i n).fab = s.fab := by
  obtain ⟨l, h⟩ := s.pend_shape p e i n; rw [h]; rfl
@[simp] theorem State.pend_cal (s : State) (p e : Fld) (i n : Nat) : (s.pend p e i n).cal = s.cal := by
  obtain ⟨l, h⟩ := s.pend_shape p e i n; rw [h]; rfl
@[simp] theorem State.pend_hk (s : State) (p e : Fld) (i n : Nat) : (s.pend p e i n).hk = s.hk := by
  obtain ⟨l, h⟩ := s.pend_shape p e i n; rw [h]; rfl
@[simp] theorem State.pend_pwr (s : State) (p e : Fld) (i n : Nat) : (s.pend p e i n).pwr = s.pwr := by
  obtain ⟨l, h⟩ := s.pend_shape p e i n; rw [h]; rfl
@[simp] theorem State.pend_pan (s : State) (p e : Fld) (i n : Nat) : (s.pend p e i n).pan = s.pan := by
  obtain ⟨l, h⟩ := s.pend_shape p e i n; rw [h]; rfl
@[simp] theorem State.pend_rcv (s : State) (p e : Fld) (i n : Nat) : (s.pend p e i n).rcv = s.rcv := by
  obtain ⟨l, h⟩ := s.pend_shape p e i n; rw [h]; rfl
@[simp] theorem State.pend_sec (s : State) (p e : Fld) (i n : Nat) : (s.pend p e i n).sec = s.sec := by
  obtain ⟨l, h⟩ := s.pend_shape p e i n; rw [h]; rfl

@[simp] theorem State.pend_regs (s : State) (p e : Fld) (i n : Nat) : (s.pend p e i n).regs = (s.setFlag p i true).regs := by
  obtain ⟨l, h⟩ := s.pend_shape p e i n; rw [h]

end Sys2Proof.Machine
end

