-- ==== Sys2Proof/Laws/Memory.lean ====
section
/-! SUPPORT. Laws of memory: what a write changes, what it leaves alone, and that every operation on memory keeps its
canonical form. -/

namespace Sys2Proof.Machine

/-! ## Writes change memory only -/

theorem State.setBytes_shape (s : State) (a : Nat) (l : List Byte) :
    s.setBytes a l = { s with mem := (s.setBytes a l).mem } := by
  induction l generalizing s a with
  | nil => rfl
  | cons b l ih => exact ih (s.setByte a b) (a + 1)

theorem State.devWrite_shape (s : State) (a : Nat) (l : List Byte) :
    s.devWrite a l = { s with mem := (s.devWrite a l).mem } := by
  induction l generalizing s a with
  | nil => rfl
  | cons b l ih =>
    simp only [State.devWrite]
    by_cases h : s.poisoned a = true
    · simp only [h, if_true]; exact ih s (a + 1)
    · simp only [h]; exact ih (s.setByte a b) (a + 1)

theorem State.tilePut_shape (s : State) (a : Nat) (l : List Byte) :
    s.tilePut a l = { s with mem := (s.tilePut a l).mem } := by
  induction l generalizing s a with
  | nil => rfl
  | cons b l ih =>
    simp only [State.tilePut]
    by_cases h : tileHole a = true
    · simp only [h, if_true]; exact ih s (a + 1)
    · simp only [h]; exact ih (s.setByte a b) (a + 1)

/-- Which addresses lie on a pseudo-channel that serves does not depend on the contents. -/
theorem State.poisoned_setByte (s : State) (a x : Nat) (b : Byte) : (s.setByte a b).poisoned x = s.poisoned x := rfl

/-! ## What is read after a write -/

theorem State.byte_setBytes_out (s : State) (a x : Nat) (l : List Byte) (h : x < a ∨ a + l.length ≤ x) :
    (s.setBytes a l).byte x = s.byte x := by
  induction l generalizing s a with
  | nil => rfl
  | cons b l ih =>
    simp only [List.length_cons] at h
    rw [State.setBytes, ih (s.setByte a b) (a + 1) (by omega), State.byte_setByte_ne s a x b (by omega)]

theorem State.byte_setBytes_in (s : State) (a i : Nat) (l : List Byte) (h : i < l.length) :
    (s.setBytes a l).byte (a + i) = nth l i 0 := by
  induction l generalizing s a i with
  | nil => simp at h
  | cons b l ih =>
    cases i with
    | zero => rw [State.setBytes, State.byte_setBytes_out _ _ _ _ (by omega)]; simp [nth]
    | succ i =>
      have := ih (s.setByte a b) (a + 1) i (by simpa using h)
      rw [State.setBytes, show a + (i + 1) = a + 1 + i by omega, this]; simp [nth]

theorem State.byte_devWrite_out (s : State) (a x : Nat) (l : List Byte) (h : x < a ∨ a + l.length ≤ x) :
    (s.devWrite a l).byte x = s.byte x := by
  induction l generalizing s a with
  | nil => rfl
  | cons b l ih =>
    simp only [List.length_cons] at h
    rw [State.devWrite, ih _ (a + 1) (by omega)]
    split
    · rfl
    · exact State.byte_setByte_ne s a x b (by omega)

/-- A byte on a pseudo-channel that does not serve is discarded (R352); any other is written. -/
theorem State.byte_devWrite_in (s : State) (a i : Nat) (l : List Byte) (h : i < l.length) :
    (s.devWrite a l).byte (a + i) = if s.poisoned (a + i) then s.byte (a + i) else nth l i 0 := by
  induction l generalizing s a i with
  | nil => simp at h
  | cons b l ih =>
    cases i with
    | zero =>
      rw [State.devWrite, State.byte_devWrite_out _ _ _ _ (by omega)]
      split
      · simp_all
      · simp_all [nth]
    | succ i =>
      rw [State.devWrite, show a + (i + 1) = a + 1 + i by omega, ih _ (a + 1) i (by simpa using h)]
      split
      · simp [nth]
      · rw [State.poisoned_setByte, State.byte_setByte_ne s a _ b (by omega)]; simp [nth]

/-! ## The canonical form -/

theorem Memory.wf_empty : Memory.wf [] = true := rfl

theorem Memory.wf_setByte (s : State) (a : Nat) (b : Byte) (h : Memory.wf s.mem = true) :
    Memory.wf (s.setByte a b).mem = true := Table.wf_set 0 s.mem a b h

theorem Memory.wf_setBytes (s : State) (a : Nat) (l : List Byte) (h : Memory.wf s.mem = true) :
    Memory.wf (s.setBytes a l).mem = true := by
  induction l generalizing s a with
  | nil => exact h
  | cons b l ih => exact ih _ _ (Memory.wf_setByte s a b h)

theorem Memory.wf_store (s : State) (a n v : Nat) (h : Memory.wf s.mem = true) :
    Memory.wf (s.store a n v).mem = true := Memory.wf_setBytes s a _ h

theorem Memory.wf_devWrite (s : State) (a : Nat) (l : List Byte) (h : Memory.wf s.mem = true) :
    Memory.wf (s.devWrite a l).mem = true := by
  induction l generalizing s a with
  | nil => exact h
  | cons b l ih =>
    rw [State.devWrite]
    split
    · exact ih s (a + 1) h
    · exact ih _ _ (Memory.wf_setByte s a b h)

theorem Memory.wf_tilePut (s : State) (a : Nat) (l : List Byte) (h : Memory.wf s.mem = true) :
    Memory.wf (s.tilePut a l).mem = true := by
  induction l generalizing s a with
  | nil => exact h
  | cons b l ih =>
    rw [State.tilePut]
    split
    · exact ih s (a + 1) h
    · exact ih _ _ (Memory.wf_setByte s a b h)

theorem Memory.wf_filter (m : Table Nat Byte) (p : Nat × Byte → Bool) (h : Memory.wf m = true) :
    Memory.wf (m.filter p) = true := Table.wf_filter 0 m p h

theorem Memory.wf_wipePc (s : State) (h' : Nat) (h : Memory.wf s.mem = true) :
    Memory.wf (s.wipePc h').mem = true := Memory.wf_filter s.mem _ h

/-- Two tables with rising keys, none in both, merge into one with rising keys. -/
theorem Memory.above_merge (k : Nat) (lo : Option Nat) (a b : Table Nat Byte) (hk : a.length + b.length ≤ k)
    (ha : Table.above lo a = true) (hb : Table.above lo b = true)
    (hd : ∀ x ∈ a, ∀ y ∈ b, x.1 ≠ y.1) : Table.above lo (mergeMem k a b) = true := by
  induction k generalizing lo a b with
  | zero =>
    have h1 : a = [] := List.length_eq_zero_iff.mp (by omega)
    have h2 : b = [] := List.length_eq_zero_iff.mp (by omega)
    subst h1 h2; rfl
  | succ k ih =>
    cases a with
    | nil => exact hb
    | cons x a =>
      cases b with
      | nil => exact ha
      | cons y b =>
        simp only [List.length_cons] at hk
        have hxy : x.1 ≠ y.1 := hd x List.mem_cons_self y List.mem_cons_self
        simp only [Table.above, Bool.and_eq_true] at ha hb
        rw [mergeMem]
        split
        · next h =>
          simp only [Table.above, Bool.and_eq_true]
          refine ⟨ha.1, ih (some x.1) a (y :: b) (by simp; omega) ha.2 ?_ ?_⟩
          · simp only [Table.above, Bool.and_eq_true, decide_eq_true_eq]; exact ⟨h, hb.2⟩
          · exact fun u hu v hv => hd u (List.mem_cons_of_mem _ hu) v hv
        · next h =>
          simp only [Table.above, Bool.and_eq_true]
          refine ⟨hb.1, ih (some y.1) (x :: a) b (by simp; omega) ?_ hb.2 ?_⟩
          · simp only [Table.above, Bool.and_eq_true, decide_eq_true_eq]; exact ⟨by omega, ha.2⟩
          · exact fun u hu v hv => hd u hu v (List.mem_cons_of_mem _ hv)

theorem Memory.mem_merge (k : Nat) (a b : Table Nat Byte) (e : Nat × Byte) (h : e ∈ mergeMem k a b) :
    e ∈ a ∨ e ∈ b := by
  induction k generalizing a b with
  | zero => exact List.mem_append.mp h
  | succ k ih =>
    cases a with
    | nil => exact .inr h
    | cons x a =>
      cases b with
      | nil => exact .inl h
      | cons y b =>
        rw [mergeMem] at h
        split at h
        · rcases List.mem_cons.mp h with h | h
          · exact .inl (h ▸ List.mem_cons_self)
          · exact (ih a (y :: b) h).imp (List.mem_cons_of_mem _) id
        · rcases List.mem_cons.mp h with h | h
          · exact .inr (h ▸ List.mem_cons_self)
          · exact (ih (x :: a) b h).imp id (List.mem_cons_of_mem _)

theorem Memory.above_emptyTags (h n m lo : Nat) (hlo : lo < 16384 * m + 128 * h + 122) :
    Table.above (some lo) ((List.range' m n).map (fun j => ((16384 * j + 128 * h + 122, 0xF0) : Nat × Byte))) = true := by
  induction n generalizing m lo with
  | zero => rfl
  | succ n ih =>
    simp only [List.range'_succ, List.map_cons, Table.above, Bool.and_eq_true, decide_eq_true_eq]
    exact ⟨hlo, ih (m + 1) _ (by omega)⟩

/-- The cellar part of a pseudo-channel as zeros with empty tags is in the canonical form (R506). -/
theorem Memory.wf_zeroPc (s : State) (h : Nat) (hw : Memory.wf s.mem = true) : Memory.wf (s.zeroPc h).mem = true := by
  have hf := Memory.wf_filter s.mem (fun e => !(decide (e.1 < cellarSize) && e.1 / 128 % 128 == h % 128)) hw
  simp only [Memory.wf, Table.wf, Bool.and_eq_true, Table.sorted_eq_above, List.all_eq_true, decide_eq_true_eq] at hf ⊢
  have hg : s.gib < 128 := Nat.mod_lt _ (by decide)
  refine ⟨Memory.above_merge _ none _ _ (Nat.le_refl _) hf.1 ?_ ?_, fun e he => ?_⟩
  · apply Table.above_none_of (some 0)
    unfold emptyTags
    rw [List.range_eq_range']
    exact Memory.above_emptyTags _ _ 0 0 (by omega)
  · intro x hx y hy hxy
    have h1 := (List.mem_filter.mp hx).2
    obtain ⟨j, hj, rfl⟩ := List.mem_map.mp hy
    have hj := List.mem_range.mp hj
    simp only [hxy, Bool.not_eq_true', Bool.and_eq_false_iff, decide_eq_false_iff_not, beq_eq_false_iff_ne, cellarSize] at h1
    omega
  · rcases Memory.mem_merge _ _ _ _ he with he | he
    · exact hf.2 e he
    · obtain ⟨j, _, rfl⟩ := List.mem_map.mp he
      show (0xF0 : Byte) ≠ 0
      decide

/-- Nothing is listed at reset. -/
theorem Memory.wf_reset : Memory.wf State.reset.mem = true := rfl

end Sys2Proof.Machine
end

