-- ==== Sys2Proof/Tests/Slice0.lean ====
section
/-! SUPPORT. Tests of the model on small states, and for each statement with hypotheses a state that meets them. -/

namespace Sys2Proof.Tests

open Sys2Proof Sys2Proof.Machine

/-! ## Ill-formed commands are refused -/

theorem test_wf_blockClose : Instr.wellFormed (.blockClose 0 []) = false := by decide
theorem test_wf_blockClose_codes : Instr.wellFormed (.blockClose 0 (List.replicate 32 [])) = false := by decide
theorem test_wf_overRange : Instr.wellFormed (.overRangeExcursion 0 0 [] none .upTo6) = false := by decide
theorem test_wf_epochBoundary : Instr.wellFormed (.epochBoundary (List.replicate 9 0)) = false := by decide
theorem test_wf_calRunDone : Instr.wellFormed (.calRunDone 0 [] [0, 0, 0] [0, 0, 0] 0) = false := by decide
theorem test_wf_dmaDescFetch : Instr.wellFormed (.dmaDescFetch 0 0 [0] false) = false := by decide
theorem test_wf_fabItemRx : Instr.wellFormed (.fabItemRx ⟨0, false, 0, 0, 0, 0, 0, false⟩ []) = false := by decide
theorem test_wf_fabRtvReqRx : Instr.wellFormed (.fabRtvReqRx ⟨0, false, 0, 0, 0, 0, 0, false⟩ []) = false := by decide
theorem test_wf_czSessionConnect : Instr.wellFormed (.czSessionConnect 0 [] []) = false := by decide

/-! ## Witnesses of the hypotheses of the statements -/

/-- IdleStepIsOneCycle: reset meets the hypotheses, and so does a state whose time base runs. -/
theorem witness_IdleStepIsOneCycle :
    (∀ s ∈ [State.reset, { State.reset with time := { running := true } }],
      s.pending = [] ∧ s.time.slewLeft = 0 ∧ (∀ n, n < 68 → (s.tile n).out = [] ∧ (s.tile n).cands = [] ∧ (s.tile n).acks = [] ∧
        (s.tile n).ladder = false) ∧ s.syncOctants = [] ∧
      (∀ e ∈ s.tins, e.2.pendStop = none ∧ e.2.swap = false) ∧ s.trg.links = [] ∧ s.cel.corrPend = [] ∧
      (∀ e ∈ s.trg.defs, e.2.switched = false) ∧
      (∀ d, d < 2 → (s.scan d).base.length < 2 ∧ ((s.scan d).live = false ∨ s.flag VID_CTRL.EN d = false)) ∧
      (s.die 0).down = false ∧ ((s.die 0).started = true → (s.die 0).count ≤ s.clk.frameCount)) ∧
    State.reset.time.running = false := by decide

/-- MemoryStaysCanonical: the hypotheses hold of reset and its first cycle, and of a state with a command and a listed
byte. -/
theorem witness_MemoryStaysCanonical : State.reset.Inv ∧
    (let s : State := { State.reset with pending := [.vernierLoopLock], mem := [(5, 1)] }
     s.Inv ∧ ∃ t, Steps s t) := ⟨rfl, rfl, _, rfl⟩

/-- RegisterAccessesAreAlignedWords: addresses of the first register and of a misaligned one meet the hypotheses. -/
theorem witness_RegisterAccessesAreAlignedWords :
    isControl (0x004000050002 : BitVec 48).toNat = true ∧ (0x004000050002 : BitVec 48).toNat % 4 ≠ 0 ∧
    targetOf (0x004000050000 : BitVec 48).toNat 4 = some (.reg (.EVQ_BASE_LO, 0)) ∧
    State.reset.refusedByTile (.EVQ_BASE_LO, 0) = false := by decide

/-- AccessTypesAtWork: the addresses of the five registers. -/
theorem witness_AccessTypesAtWork :
    targetOf (0x004000000000 : BitVec 48).toNat 4 = some (.reg (.SYS_ID, 0)) ∧
    targetOf (0x004000400140 : BitVec 48).toNat 4 = some (.reg (.CNV_CH_CFG, 1)) ∧
    targetOf (0x004000400120 : BitVec 48).toNat 4 = some (.reg (.CNV_CH_FLAGS, 0)) ∧
    targetOf (0x004000050018 : BitVec 48).toNat 4 = some (.reg (.EVQ_DROPPED, 0)) ∧
    targetOf (0x004000470010 : BitVec 48).toNat 4 = some (.reg (.CNV_SEQ_LO, 7)) := by decide +kernel

/-- EventsAreHeldAndWrittenFirst: reset holds nothing and its queue lies in system memory; a buffer can be full. -/
theorem witness_EventsAreHeldAndWrittenFirst :
    State.reset.flag EVQ_CTRL.ENABLE 0 = false ∧ State.reset.evq.hold.length < 256 ∧
    State.reset.evqInSystem = true ∧
    (let s : State := { State.reset with evq := { hold := List.replicate 256 ⟨0, 0, 0, 0, 0, 0⟩ } }
     s.flag EVQ_CTRL.ENABLE 0 = false ∧ s.evq.hold.length = 256 ∧ s.evqInSystem = true) := by decide +kernel

/-- EventEntryAcknowledged: an entry can be in flight. -/
theorem witness_EventEntryAcknowledged :
    ({ State.reset with evq := { inFlight := [⟨⟨1, 2, 3, 4, 5, 6⟩, true⟩] } } : State).evq.inFlight =
      ⟨⟨1, 2, 3, 4, 5, 6⟩, true⟩ :: [] := rfl

/-- RingsUnderHostControl: an enabled queue with nothing in flight, and rings with a failed entry. -/
theorem witness_RingsUnderHostControl :
    (let s := State.reset.setFlag EVQ_CTRL.ENABLE 0 true
     s.flag EVQ_CTRL.ENABLE 0 = true ∧ s.evq.inFlight = [] ∧ s.evq.hold = [] ∧
     headOk s.evqEntries (s.fld EVQ_HEAD.HEAD 0) (s.fld EVQ_TAIL.TAIL 0) (bits (0#32).toNat 15 0) = true) ∧
    (let s := ({ State.reset with evq := { hold := [⟨0, 0, 0, 0, 0, 0⟩], inFlight := [⟨⟨1, 2, 3, 4, 5, 6⟩, true⟩] } } : State).setFlag
       EVQ_CTRL.ENABLE 0 true
     s.flag EVQ_CTRL.ENABLE 0 = true ∧ s.evq.hold.length ≤ 256 ∧ s.evq.inFlight ≠ []) ∧
    (let s := ({ State.reset with completion := { inFlight := [[1]], failed := true }, telemetry := { inFlight := [[1]], failed := true } } : State)
     let s := (s.setFlag TRG_RTC_BASE_HI.ENABLE 0 true).setFlag PAN_TEL_BASE_HI.ENABLE 0 true
     s.flag TRG_RTC_BASE_HI.ENABLE 0 = true ∧ s.flag PAN_TEL_BASE_HI.ENABLE 0 = true ∧
     s.completion.inFlight = [[1]] ∧ s.completion.failed = true ∧ s.telemetry.inFlight = [[1]] ∧
     s.telemetry.failed = true) ∧
    (let s : State := { State.reset.setFlag FAB_RX_BASE_HI.ENABLE 0 true with
       now := msCycles, fab := { rxHeld := [List.replicate 64 0] } }
     s.flag FAB_RX_BASE_HI.ENABLE 0 = true ∧ s.fab.rxHeld = [List.replicate 64 0] ∧ s.fab.rxTry + msCycles ≤ s.now ∧
     inSystem s.rxBase (64 * s.rxUnits) = true ∧
     (List.range ((List.replicate 64 (0 : Byte)).length / 64)).any (fun i =>
       s.poisoned (s.rxBase + 64 * (((s.reg .FAB_RX_WP 0).toNat + i) % s.rxUnits))) = false ∧
     ({ s with now := 0 } : State).now < s.fab.rxTry + msCycles) := by decide

/-- AccessesByEndpointAndProtocol: an endpoint with its link up, a session without answers, a register and a range of the
cellar. -/
theorem witness_AccessesByEndpointAndProtocol : (∀ p, 64 + 8 ≤ barSize p) ∧
    (let s := State.reset.setFlag PCI_STATUS.LINK_UP 0 true
     s.rootPort 0 = false ∧ s.flag PCI_STATUS.LINK_UP 0 = true ∧ inCellar ((s.reg .PCI_WIN_OFS 0).toNat * 65536 + 64) 8 = true ∧
     isControl ((s.reg .PCI_WIN_OFS 0).toNat * 65536 + 64) = false) ∧
    targetOf (0x004000000000 + 0x50000) 4 = some (.reg (.EVQ_BASE_LO, 0)) ∧
    State.reset.refusedByTile (.EVQ_BASE_LO, 0) = false ∧
    (let s : State := { State.reset with sec := { sessions := [⟨some 3, 9, [], none, none⟩] } }
     freshRequest s 3 5 = true ∧ s.prgBusy = false ∧ targetOf 128 16 = some .memory ∧ s.poisonedRange 128 16 = false) := by
  refine ⟨fun p => Nat.le_trans (by decide) (Nat.pow_le_pow_right (by decide) (Nat.le_add_right 30 _)), ?_⟩
  decide

/-- DieClosesItsBlocks: a started die in an octant that retains, with neutral channels. -/
theorem witness_DieClosesItsBlocks :
    (let s := State.reset.setDie 7 { started := true }
     s.hubCopy 7 = true ∧ (s.chan 255).stale = [] ∧ (s.chan 255).calStale = [] ∧ (s.chan 255).excs = [] ∧ (s.chan 255).corr = none ∧
     s.fld CNV_CH_UOFFS.UOFFS 255 = 0 ∧ s.fld CNV_CH_UGAIN.UGAIN 255 = 32768) ∧
    (State.reset.die 0).started = false := by decide

/-- OverRangeAndClamp: channels at rest, with the clamp engaged, recovering, and recovered a short time ago. -/
theorem witness_OverRangeAndClamp :
    (let c := State.reset.chan 255
     c.excPeak = none ∧ c.prot = [] ∧ c.clamp = false ∧ c.recovering = false ∧ c.recovered = none) ∧
    (let s := ((State.reset.setChan 0 { recovered := some 5 }).setChan 1 { clamp := true }).setChan 2 { recovering := true }
     (s.chan 0).recovered = some 5 ∧ (s.chan 0).clamp = false ∧ (s.chan 0).recovering = false ∧ s.now < 5 + msCycles ∧
     (s.chan 1).clamp = true ∧ (s.chan 2).clamp = false ∧ (s.chan 2).recovering = true ∧
     s.recoveredAt 0 (s.chan 2).clampOff 0 = false ∧ s.recoveredAt 0 (s.chan 2).clampOff 621 = true) := by decide

/-- DieLinksAndHolds: dies that run with two and three failures, a die that is down, a channel that holds. -/
theorem witness_DieLinksAndHolds :
    (let s := ((State.reset.setDie 0 { hubFails := 2, anaFails := 2 }).setDie 1 { hubFails := 3 }).setDie 7 { down := true }
     let s := s.setChan 9 { hold := some true, stale := [⟨4, none⟩] }
     (s.die 0).down = false ∧ (s.die 0).hubFails < 3 ∧ (s.die 0).anaFails < 3 ∧ (s.die 1).down = false ∧
     3 ≤ (s.die 1).hubFails ∧ (s.die 7).down = true ∧ (s.chan 9).hold = some true ∧
     s.sampleAfter 0 (s.chan 9).holdAt 2000000 ≠ 0) := by decide

/-- ComparatorOutputs: an output of a started die, settled and unsettled. -/
theorem witness_ComparatorOutputs :
    (let s := (State.reset.setDie 7 { started := true }).setFlag CNV_CH_CMP_STAT.UNSETTLED_LO 255 false
     s.cmpHeld 255 = false ∧ (s.cmp (cmpIdx 255 false)).blanking = false ∧ (s.cmp (cmpIdx 255 false)).settling = false ∧
     s.flag (cmpUnsettled false) 255 = false ∧ s.flag (cmpUnsettled true) 255 = true ∧
     (let s : State := { s with now := 1000000 }
      (s.cmp 510).since + s.fld CNV_CH_CMP_CFG.SETTLE 255 * usCycles ≤ s.now ∧
      (s.cmp 510).settleAt + s.settleCycles 255 ≤ s.now)) ∧
    (let s := (State.reset.setDie 7 { started := true }).setCmp 510 { settling := true }
     s.cmpHeld 255 = false ∧ (s.cmp (cmpIdx 255 true)).settling = true) := by decide

/-- ReferenceDetector: a qualifying reference of a coasting tree, and a present one of a locked tree. -/
theorem witness_ReferenceDetector :
    (let s := (State.reset.setFlag CLK_REF_CFG.SRC_SEL 0 false).setFld CLK_STATUS.REF_STATE 0 refQUALIFYING
     let s := s.setFld CLK_STATUS.TREE 0 treeCOASTING
     0 < 0 + s.fld CLK_REF_CFG.QUAL 0 * 10 * msCycles ∧ 0 + s.fld CLK_REF_CFG.QUAL 0 * 10 * msCycles ≤ 10 ^ 9 ∧
     s.fld CLK_STATUS.REF_STATE 0 = refQUALIFYING ∧ s.flag CLK_REF_CFG.SRC_SEL 0 = false ∧ s.tree = treeCOASTING ∧
     s.fld CLK_REF_CFG.TOL_PPM 0 * s.fld CLK_REF_NOM.NOM_HZ 0 < (600000000 - s.fld CLK_REF_NOM.NOM_HZ 0) * 1000000) ∧
    (let s := ((State.reset.setFlag CLK_REF_CFG.SRC_SEL 0 false).setFld CLK_STATUS.REF_STATE 0 refPRESENT).setFlag CLK_STATUS.SYN_LOCK 0 true
     s.fld CLK_STATUS.REF_STATE 0 = refPRESENT ∧ s.flag CLK_REF_CFG.SRC_SEL 0 = false ∧ s.clk.ret = none ∧
     s.synLock = true ∧ s.clk.relock = 0) := by decide

/-- LockAndRelock: a relock sequence in step 6 with a gate at its expected count, in its last step with every loop
locked, and waiting to retry; a locked synthesiser; a locked tile PLL; a bypass PLL in BOOT. -/
theorem witness_LockAndRelock :
    (let s := ({ State.reset with clk := { relock := 6, goodGates := 1 } } : State)
     let s := ((s.setFld CLK_SYN_INT.N_INT 0 16).setFld CLK_SYN_FRAC.N_FRAC 0 0).setReg .CLK_SYN_OFFSET 0 0
     s.synLock = false ∧ s.clk.relock = 6 ∧ s.clk.relock ≠ 0 ∧ 2 ^ 18 * 16 * 2 ^ 32 * 1000000000 = s.gateExpected ∧
     s.nearCeiling 1000 s.fSyn.1 s.fSyn.2 = false ∧ s.nearCeiling 1000 1600000000 1 = false) ∧
    (let s := ({ State.reset with clk := { relock := 7 } } : State)
     let s := ((s.setFlag CLK_STATUS.SYN_LOCK 0 true).setFlag CLK_STATUS.TILE_LOCK 0 true).setFld CLK_STATUS.JC_LOCK 0 255
     s.clk.relock = 7 ∧ s.synLock = true ∧ s.flag CLK_STATUS.TILE_LOCK 0 = true ∧ s.fld CLK_STATUS.JC_LOCK 0 = 255) ∧
    (let s := ({ State.reset with dev := .boot, clk := { relock := relockWAIT } } : State).setFlag CLK_STATUS.BYP_LOCK 0 true
     s.flag CLK_STATUS.BYP_LOCK 0 = true ∧ s.dev = .boot ∧ s.clk.relock = relockWAIT) := by decide

/-- OffsetsDelaysAndReturn: a slew, moving delays at and before their last step, a return in each step. -/
theorem witness_OffsetsDelaysAndReturn :
    (let s := ({ State.reset with
       now := 1000, clk := { slewAt := some 0, moving := [8, 11], ret := some .measuring, delayTo := [(8, 2), (11, 1)] } } : State)
     s.clk.slewAt = some 0 ∧ s.offsetNow = s.clk.slewTo ∧
     (8 + 0) ∈ s.clk.moving ∧ Table.getD s.clk.delay 8 0 + 1 < Table.getD s.clk.delayTo 8 0 ∧
     (8 + 3) ∈ s.clk.moving ∧ Table.getD s.clk.delay 11 0 + 1 = Table.getD s.clk.delayTo 11 0 ∧
     s.stepDue 8 = true ∧ s.stepDue 11 = true ∧ ({ s with now := 0 } : State).stepDue 8 = false ∧
     ({ s with now := 1600000, clk := { s.clk with slewTo := 10001 } } : State).offsetNow ≠ 10001 ∧
     s.clk.ret = some .measuring ∧ s.flag CLK_POLICY.RETURN 0 = false ∧ s.fld TDC_TIME_CFG.TIME_SRC 0 = 0) ∧
    (let s := ({ State.reset with clk := { ret := some .slew } } : State)
     s.clk.ret = some .slew ∧ s.slewReached = true ∧ (s.setFld CLK_JUMP.JUMP_PS 0 20).slewReached = false) := by decide

/-- BlocksReachTheRing: empty links and queues; blocks that are kept, meet a pseudo-channel that does not serve, a capped
queue, a full buffer; a write that is queued and one that is issued. -/
theorem witness_BlocksReachTheRing :
    (State.reset.die 0).hubLink = [] ∧ State.reset.queue 3 = [] ∧ State.reset.crossHead 3 = none ∧
    State.reset.cel.issued.find? (fun w => w.addr / 128 % 128 == 3) = none ∧
    (let s : State := { State.reset.setDie 0 { hubLink := [⟨2, 5, []⟩], floor := 6 } with
        cel := { running := true, oldGib := 1 } }
     let a := s.ringAddr 1 2 5
     s.gibOf 0 5 = 1 ∧ s.gibOf 0 7 = 0 ∧ s.poisoned a = false ∧ s.cel.capped.contains (a / 128 % 128) = false ∧
     128 * (s.queue (a / 128 % 128)).length < s.fld LND_CFG.PC_CAP 0 * 1024 ∧ s.flag LND_STATUS.FULL 0 = false ∧
     (s.setFlag LND_STATUS.FULL 0 true).flag LND_STATUS.FULL 0 = true ∧ s.landFill < 31 * 2 ^ 20 ∧
     (s.setPc (a / 128 % 128) .frozen).poisoned a = true ∧
     ({ s with cel := { s.cel with capped := [a / 128 % 128] } } : State).cel.capped.contains (a / 128 % 128) = true) ∧
    (let w : RingWrite := ⟨⟨2, 5, List.replicate 128 7⟩, 128⟩
     let s : State := { State.reset with cel := { queues := [(1, [w])], issued := [w] } }
     ({ s with cel := { s.cel with cross := [w] } } : State).crossHead 1 = some w ∧ s.stalled 1 = false ∧
     s.crossHead 1 = none ∧ (s.crossing 0).length < 16 ∧ s.queue 1 = [w] ∧ s.hpcOf w.addr = some 1 ∧ s.poisoned w.addr = false ∧
     s.cel.issued.find? (fun w => w.addr / 128 % 128 == 1) = some w) := by decide

/-- PlannedStalls: reset may start a stall; a frequency change in progress; a row not yet repaired. -/
theorem witness_PlannedStalls : State.reset.stallOk = true ∧ State.reset.cel.stall = none ∧
    ({ State.reset with cel := { stall := some (.freq 5 2) } } : State).cel.stall = some (.freq 5 2) ∧
    State.reset.cel.soft.contains (127, 47, 65535) = false ∧
    ({ State.reset with cel := { softOn := true } } : State).cel.softOn = true ∧ State.reset.rateFits 3 0 = true := by decide

/-- FreezeReleaseAndLossMap: channels that serve, are frozen and are re-initialised; an anchor and its region. -/
theorem witness_FreezeReleaseAndLossMap : State.reset.pc 127 = .ok ∧
    ((State.reset.setPc 3 .frozen).setPc 4 .reinit).pc 3 = .frozen ∧
    ((State.reset.setPc 3 .frozen).setPc 4 .reinit).pc 4 = .reinit ∧ State.reset.cel.anchors = [] ∧
    (let s : State := { State.reset with cel := { anchors := [[1]], regions := [⟨5, 0, 0, 1048576⟩] } }
     s.cel.anchors = [[1]] ∧ s.region 5 0 = some ⟨5, 0, 0, 1048576⟩) := by decide

/-- RefreshScrubRepairSleep: channels that serve and are frozen, a queue that holds a write, an enabled scrub. -/
theorem witness_RefreshScrubRepairSleep : State.reset.queue 127 = [] ∧
    (let s := State.reset.setPc 3 .frozen
     let s : State := { s with cel := { s.cel with queues := [(4, [⟨⟨0, 0, []⟩, 512⟩])] } }
     s.pc 3 = .frozen ∧ s.pcDown 3 = true ∧ ¬ (s.pc 4 = .frozen ∨ s.pc 4 = .retired ∨ s.stalled 4 = true ∨
       s.timerDue (tmRefresh 4) (s.refreshCycles 4) = false) ∧
     s.queue 4 ≠ [] ∧ Table.getD s.cel.owed 4 0 < (s.setFld CEL_REFRESH.POSTPONE 0 8).fld CEL_REFRESH.POSTPONE 0) ∧
    (let s := State.reset.setFlag CEL_SCRUB.EN 0 true
     s.flag CEL_SCRUB.EN 0 = true ∧ s.pcDown 127 = false ∧ s.stalled 127 = false ∧
     s.timerDue (tmScrub 127) (s.fld CEL_SCRUB.PERIOD_H 0 * 3600 * sCycles) = true) ∧
    State.reset.clientsBusy = false ∧ State.reset.cel.stallAt 64 = false ∧
    ({ State.reset with cel := { stall := some (.freq 4 1) } } : State).cel.stallAt 64 = true := by decide

/-- TimingInputEdges: inputs with and without an edge kept, with each slope, settling and not. -/
theorem witness_TimingInputEdges :
    (let s := (State.reset.setTin 24 { lastKept := some 7 }).setTin 3 { lastKept := some 7 }
     let s := s.setTin 4 { settling := true }
     (s.tin 24).swap = false ∧ s.deadAt 24 518 = true ∧ s.deadAt 24 519 = false ∧ (s.tin 16).swap = false ∧ (s.tin 4).settling = true ∧ (s.tin 3).settling = false ∧
     (s.tin 3).lastKept = some 7 ∧ (s.tin 5).lastKept = none ∧ s.fld TDC_IN_CFG.SLOPE 3 = 0 ∧
     s.flag TDC_IN_STAT.UNSETTLED 3 = true ∧ (s.setFld TDC_IN_CFG.MODE 3 0).fld TDC_IN_CFG.MODE 3 = 0 ∧
     s.fld TDC_IN_CFG.MODE 3 ≠ 0 ∧ 0 + settleTime (s.fld TDC_IN_CFG.MODE 4) ≤ 8080 ∧
     0 + s.fld TDC_IN_CFG.SETTLE 3 * usCycles ≤ 16000 ∧
     (s.setFlag TDC_IN_STAT.UNSETTLED 3 false).flag TDC_IN_STAT.UNSETTLED 3 = false) := by decide

/-- JasperResults: inputs of each function with a start, a stop, a gate and sums. -/
theorem witness_JasperResults :
    (let s := State.reset.setFld TDC_IN_FUNC.FUNC 3 1
     let s := (s.setTin 3 { armed := some ⟨4, true, 0⟩, stops := [⟨9, true, 0⟩], starts := [⟨6, true, 0⟩] }).setFld
       TDC_IN_FUNC.PARTNER 3 4
     let z := s.setFlag TDC_IN_FUNC.SIGNED 3 true
     s.func 3 = 1 ∧ s.flag TDC_IN_FUNC.SIGNED 3 = false ∧ s.fld TDC_IN_FUNC.PARTNER 3 ≠ 3 ∧
     (s.tin 3).armed = some ⟨4, true, 0⟩ ∧ z.func 3 = 1 ∧ z.flag TDC_IN_FUNC.SIGNED 3 = true ∧
     (z.tin 3).stops = [⟨9, true, 0⟩] ∧ 160 * z.now < 9 + 160 * z.param 3 ∧
     (let y : State := { z with now := 5000 }
      9 + 160 * y.param 3 ≤ 160 * y.now ∧ nearestStart (y.tin 3).starts ⟨9, true, 0⟩ (160 * y.param 3) = some ⟨6, true, 0⟩ ∧
      nearestStart [] ⟨9, true, 0⟩ (160 * y.param 3) = none)) ∧
    State.reset.func 0 ≠ 1 ∧ State.reset.func 0 ≠ 2 ∧ State.reset.func 0 ≠ 3 ∧
    (let s := (State.reset.setFld TDC_IN_FUNC.FUNC 2 2).setTin 2 { gate := [(1, 0), (2, 1600), (3, 3200)] }
     s.func 2 = 2 ∧ 160 * s.now < s.gateEnd 2 ∧ 0 + 2 * 1600 < s.gateEnd 2 ∧ (s.tin 2).gateDrops = [] ∧
     s.gateEnd 2 ≤ 160 * ({ s with now := 1600000 } : State).now ∧
     2 ^ 32 * 256000000000 / 1600 < 2 ^ 64 ∧ (State.reset.tin 2).gate.length < 3) ∧
    (let s := (State.reset.setFld TDC_IN_FUNC.FUNC 1 3).setReg .TDC_IN_PARAM 1 2
     let s := s.setTin 1 { stats := { n := 2, sum := -8, sumSq := 32, min := -4, max := -4 } }
     s.func 1 = 3 ∧ s.param 1 ≤ 2) ∧
    inSystem 0x002000000000 32 = true ∧ State.reset.poisonedRange 0x002000000000 32 = false := by decide

/-- DeviceTimeDiscipline: no source and a source; small and large errors; a started die. -/
theorem witness_DeviceTimeDiscipline :
    State.reset.fld TDC_TIME_CFG.TIME_SRC 0 = 0 ∧
    (let s := State.reset.setFld TDC_TIME_CFG.TIME_SRC 0 2
     s.fld TDC_TIME_CFG.TIME_SRC 0 ≠ 0 ∧
     (fsToOt (-1000)).natAbs * 1000000 ≤ s.fld TDC_TIME_CFG.STEP_THR 0 * 2 ^ 80 ∧
     s.fld TDC_TIME_CFG.STEP_THR 0 * 2 ^ 80 < (fsToOt 2000000000).natAbs * 1000000) ∧
    ((State.reset.setDie 7 { started := true }).die 7).started = true ∧
    2 ^ 80 < (((2 ^ 80 : Nat) : Int) - (State.reset.setDie 7 { started := true }).sampleTime 7 0).natAbs * 10 ^ 11 := by
  decide

/-- VernierCalibration: an input that calibrates nothing, and one that calibrates converter 1. -/
theorem witness_VernierCalibration : (State.reset.tin 0).calRuns.head? ≠ some (b2n false) ∧
    ((State.reset.setTin 15 { calRuns := [1] }).tin 15).calRuns.head? = some (b2n true) ∧
    ((State.reset.setTin 15 { calRuns := [1] }).tin 15).swap = false ∧
    ((State.reset.setTin 15 { calRuns := [1] }).tin 15).calFrom + 2 ^ 24 ≤ ({ State.reset with now := 2 ^ 24 } : State).now ∧
    (State.reset.setTin 15 { calRuns := [1] }).tinIdle 15 = true ∧
    ((State.reset.setTin 15 { calRuns := [1], lastKept := some 0 }).setFld TDC_IN_CFG.MODE 15 0).tinIdle 15 = false ∧
    0 < 0 + State.reset.fld TDC_CAL.INTERVAL 0 * sCycles := by decide

/-- EpochsAndPages: a source with and without a candidate, boundaries announced and reached, a page being written. -/
theorem witness_EpochsAndPages :
    (State.reset.setFld EPO_CFG.SRC 0 2).fld EPO_CFG.SRC 0 ≠ 0 ∧ State.reset.epoch.candidates = [] ∧
    State.reset.fld EPO_CFG.SRC 0 = 0 ∧ 0 < (State.reset.reg .EPO_PERIOD 0).toNat ∧ State.reset.pageFree = true ∧
    State.reset.epoch.writing = false ∧ State.reset.epoch.announced = none ∧
    (let s := (State.reset.setFld SYS_OCT_STAT.MODE 7 4).setFld EPO_TURN_STAT.STATE 0 1
     s.syncOctants.head? = some 7 ∧ s.fld EPO_TURN_STAT.STATE 0 ≠ 0 ∧ s.turn.lost = false ∧
     s.sampleTime 7 (s.turn.countFrom + 16 * s.spt 7) ≤ ({ s with time := { ot := 2 ^ 100 } } : State).time.ot) ∧
    (let s : State := { State.reset.setFld EPO_CFG.SRC 0 2 with epoch := { candidates := [7] } }
     s.fld EPO_CFG.SRC 0 ≠ 0 ∧ s.epoch.candidates = [7]) ∧
    (let s : State := { State.reset with epoch := { announced := some 5, writing := true }, time := { ot := 5 } }
     s.epoch.announced = some 5 ∧ 5 ≤ s.time.ot ∧ s.epoch.writing = true ∧
     inSystem (s.pageBase s.epoch.page.epoch) 14336 = true ∧ s.poisoned (s.pageBase s.epoch.page.epoch) = false) := by
  decide

/-- JextanGates: a tile that runs and one that does not; a predicate that does not hold. -/
theorem witness_JextanGates :
    jextanOf (.jNop 67 ⟨true, 0, false, false, false, false, .clean⟩) =
      some (67, ⟨true, 0, false, false, false, false, .clean⟩) ∧ (State.reset.tile 67).runs = false ∧
    State.reset.groupOf 66 = none ∧
    (let s := State.reset.setTile 67 { state := 1 }
     (s.tile 67).runs = true ∧ (s.tile 67).cond 0 = false ∧
     (repNext (s.tile 67).calls.length (s.tile 67).pc (s.tile 67).reps).1 < 16384) := by decide

/-- JextanArithmetic: a tile that runs with a predicate that holds. -/
theorem witness_JextanArithmetic :
    (let s := State.reset.setTile 67 { state := 1, z := true, g := [(1, 5), (31, 4294967295)] }
     jGo s 67 ⟨true, 0, false, true, false, false, .clean⟩ ∧ jIn s 67 ∧ ∀ r, r < 32 → (s.tile 67).gr r < 2 ^ 32) := by
  unfold jGo jIn; decide

/-- JextanControlFlow: tiles with an empty and a full call stack, with and without an open body, an enabled ring. -/
theorem witness_JextanControlFlow :
    (let s := ((State.reset.setTile 67 { state := 1, pc := 3, calls := [7], reps := [⟨2, 9, 4, 1⟩] }).setTile 66
       { state := 2, calls := List.replicate 16 1, reps := List.replicate 4 ⟨0, 9, 1, 16⟩ }).setFlag GT_XRX_CFG.EN 268 true
     let fl : JFlags := ⟨false, 0, false, false, false, false, .clean⟩
     jGo s 67 fl ∧ jGo s 66 fl ∧ jIn s 67 ∧ (s.tile 67).calls.length < 16 ∧ 16 ≤ (s.tile 66).calls.length ∧
     (repNext 0 6 (s.tile 67).reps).1 < 16384 ∧ (s.tile 67).reps.length < 4 ∧ 4 ≤ (s.tile 66).reps.length ∧
     s.xringOf 67 0 = some 0 ∧ s.xringOf 66 0 = none) := by
  unfold jGo jIn; decide +kernel

/-- JextanLoadsStoresAndSpecials: a tile that runs, with aligned, misaligned and far addresses. -/
theorem witness_JextanLoadsStoresAndSpecials :
    (let s := State.reset.setTile 67 { state := 1, a := [(1, { addr := 0x17FFFE })] }
     let fl : JFlags := ⟨false, 0, false, false, true, false, .clean⟩
     jGo s 67 fl ∧ jIn s 67 ∧ ((s.tile 67).ar 0).at_ 0 % 4 = 0 ∧ ((s.tile 67).ar 0).at_ 0 + 4 ≤ 0x180000 ∧
     ((s.tile 67).ar 1).at_ 0 % 4 ≠ 0 ∧ ((s.tile 67).ar 1).at_ 2 % 4 = 0 ∧ 0x180000 < ((s.tile 67).ar 1).at_ 2 + 4 ∧
     ((s.tile 67).ar 1).at_ (-1) % 2 ≠ 0 ∧ ((s.tile 67).ar 0).at_ (-4) < 0 ∧ ((s.tile 67).gr 1) % 2 ^ 21 = 0 ∧ s.sr32 67 31 = some 0 ∧ s.sr32 67 8 = none ∧ s.sr64 67 8 = some 0 ∧
     s.sr32 67 9 = none ∧ s.sr64 67 9 = none) := by
  unfold jGo jIn; decide +kernel

/-- JextanVectors: a tile that runs with operands that pass the checks, and some that fail them. -/
theorem witness_JextanVectors :
    (let s := State.reset.setTile 67 { state := 1, a := [(0, { addr := 64 }), (1, { addr := 256 }), (2, { addr := 512 }), (3, { addr := 5 })] }
     let fl : JFlags := ⟨false, 0, true, false, true, false, .clean⟩
     let v : JV := ⟨2, 0, 1, 0, 0, 3, 5⟩
     let o := fun (i k : Nat) => vecOp ((s.tile 67).ar i) k 3 64
     jGo s 67 fl ∧ jIn s 67 ∧ (s.tile 67).vcount v = 3 ∧ ceilDiv 3 96 + 2 ≤ 8192 ∧
     (∀ b ∈ [Opnd.same, noneEqual], ∀ k, k = 4 ∨ k = 8 → (checkOps [o 0 k, o 1 k] (some (o 2 k)) b).toOption = some () ∧
       (checkOps [o 0 k] (some (o 2 k)) b).toOption = some () ∧ (checkOps [] (some (o 2 k)) b).toOption = some ()) ∧
     (checkOps [o 0 8, o 1 8] (some (linOp ((s.tile 67).ar 2) 16 64)) noneEqual).toOption = some () ∧
     ((s.tile 67).ar 2).mode ≠ 1 ∧ (checkOps [o 3 4, o 1 4] (some (o 2 4)) Opnd.same).toOption = none ∧
     ∀ f, f < 7 → (checkOps [vecOp ((s.tile 67).ar 0) (fmtSize f) 3 (if f = 0 then 2 else 64)]
       (some (vecOp ((s.tile 67).ar 2) (fmtSize f) 3 64)) noneEqual).toOption = some ()) := by
  refine ⟨by unfold jGo; decide, by unfold jIn; decide, by decide, by decide, ?_, by decide +kernel, by decide, by decide +kernel,
    by decide +kernel⟩
  intro b hb k hk
  simp only [List.mem_cons, List.not_mem_nil, or_false] at hb
  rcases hb with rfl | rfl <;> rcases hk with rfl | rfl <;> decide +kernel

/-- JextanOutputs: a tile that runs with an empty queue, one whose candidate port is full, one that is muted. -/
theorem witness_JextanOutputs :
    (let s := (State.reset.setTile 67 { state := 1, a := [(1, { addr := 64 })] }).setTile 3
       { state := 1, cands := List.replicate 16 (0, 0) }
     let s := s.setTile 4 { state := 2, muted := true, out := [⟨.route 0, [0, 0], false, 0⟩] }
     let fl : JFlags := ⟨false, 0, false, false, true, false, .clean⟩
     let v : JV := ⟨0, 0, 1, 0, 5, 3, 5⟩
     jGo s 67 fl ∧ jIn s 67 ∧ jGo s 3 fl ∧ jIn s 3 ∧ jGo s 4 fl ∧ jIn s 4 ∧ (s.tile 67).cands.length < 16 ∧
     16 ≤ (s.tile 3).cands.length ∧ (s.tile 4).muted = true ∧ v.gp ≠ 31 ∧ (s.tile 67).vcount v = 3 ∧
     64 + 192 ≤ (s.tile 67).outFree ∧ (s.tile 4).outFree < 65536 ∧
     (checkOps [blkOp ((s.tile 67).ar 0) 3, linOp ((s.tile 67).ar 1) 64 64] none noneEqual).toOption = some () ∧
     (checkOps [] (some (blkOp ((s.tile 67).ar 0) 3)) noneEqual).toOption = some ()) := by
  unfold jGo jIn; decide +kernel

/-- JextanSpectral: a tile that runs, with transforms of one and more passes, a detector, a mixer and a decimator whose
operands pass the checks. -/
theorem witness_JextanSpectral :
    (let s := State.reset.setTile 67 { state := 1, a := [(0, { addr := 0 }), (1, { addr := 0x10000 }), (2, { addr := 0x20000 })] }
     let s := (s.setFlag GT_RING.EN 268 true).setFld GT_RING.B_LOG2 268 6
     let fl : JFlags := ⟨false, 0, false, false, true, false, .clean⟩
     let v : JV := ⟨2, 0, 1, 0, 0, 1, 6⟩
     let a := fun (i : Nat) => (s.tile 67).ar i
     jGo s 67 fl ∧ jIn s 67 ∧ s.ringEn 67 0 = true ∧ (s.tile 67).vcount v = 1 ∧ s.ringRun 67 0 (vecOp (a 0) 2 64 2) = some 0 ∧
     (checkOps [vecOp (a 0) 2 64 2] (some (linOp (a 2) (8 * 32 + 64) 64)) noneEqual).toOption = some () ∧
     (checkOps [linOp (a 0) (8 * 3 + 64) 64] (some (linOp (a 2) (64 + 4 * 3) 64)) noneEqual).toOption = some () ∧
     (checkOps [linOp (a 0) (8 * 3 + 64) 64, linOp (a 1) (8 * 3 + 64) 64] (some (linOp (a 2) (64 + 16 * 3) 64))
       noneEqual).toOption = some () ∧
     (checkOps [vecOp (a 0) 2 64 2] (some (vecOp (a 2) 8 64 64)) Opnd.sameStart).toOption = some () ∧
     (checkOps [vecOp (a 0) 8 64 64] (some (vecOp (a 2) 8 32 64)) noneEqual).toOption = some () ∧
     (checkOps [vecOp (a 0) 8 64 64] (some (linOp (a 2) (8 * 64 + 64) 64)) noneEqual).toOption = some ()) := by
  unfold jGo jIn; decide +kernel

/-- JextanMasksHitsFeatures: a tile that runs with operands in range, and a configuration block in range. -/
theorem witness_JextanMasksHitsFeatures :
    (let s := State.reset.setTile 67 { state := 1, g := [(4, 1000), (5, 2)], a := [(0, { addr := 0 }), (1, { addr := 0x10000 }), (2, { addr := 0x20000 })] }
     let s := (s.setFlag GT_RING.EN 268 true).setFld GT_RING.B_LOG2 268 6
     let fl : JFlags := ⟨false, 0, false, false, true, false, .clean⟩
     let v : JV := ⟨2, 0, 1, 0, 4, 3, 0⟩
     let a := fun (i : Nat) => (s.tile 67).ar i
     jGo s 67 fl ∧ jIn s 67 ∧ s.ringEn 67 0 = true ∧ (s.tile 67).vcount v = 3 ∧ s.ringIndex 67 0 0 = some 0 ∧
     s.dmLoad 67 0x10004 2 = 0 ∧ (s.tile 67).gr 5 < 2 ^ 32 ∧ (s.tile 67).gr 5 = 2 ∧
     (s.store (dmBase 67 + 0x10004) 2 7).dmLoad 67 0x10004 2 ≠ 0 ∧ (s.ringIndex 67 0 ((a 0).byteAt 0)).isSome = true ∧
     (checkOps [linOp (a 0) (64 + 2 * 3) 64] (some (linOp (a 1) (64 + 8 * 3) 64)) noneEqual).toOption = some () ∧
     (checkOps [vecOp (a 0) 2 3 2] (some (linOp (a 2) (64 + 8 * 0) 64)) noneEqual).toOption = some () ∧
     (checkOps [linOp (a 0) (64 + 8 * 3) 64, ⟨fun i => 0x800 + i, 1, 64, 0x800, 64, true, [(0x800, 64)]⟩]
       (some (linOp (a 2) (32 * 3) 64)) noneEqual).toOption = some ()) ∧
    (featCfg (leBytes 2 65535 ++ leBytes 2 1 ++ leBytes 2 0 ++ leBytes 2 2 ++ [1] ++ zeros 55)).isSome = true := by
  unfold jGo jIn; decide +kernel

/-- CustomerInstructions: a tile that runs, an entry that is valid and one that is not, and a routine of one END word. -/
theorem witness_CustomerInstructions :
    (let s := (State.reset.setTile 67 { state := 1 }).setReg .GT_UDISP_A 4290 0xFFFFFFFF
     let o := (s.tile 67).micOps 0xC200000000000000 (s.fld GT_UDISP_A.FMT 4290)
     (s.tile 67).runs = true ∧ (s.tile 66).runs = false ∧ s.flag GT_UDISP_A.VALID 4290 = true ∧
     s.flag GT_UDISP_A.VALID 4289 = false ∧ o.v = false ∧
     (({ o with v := true, count := 1 } : MicOps).count > (State.reset.fld GT_UDISP_B.MAXN 4290))) ∧
    (0xC200000000000000#64).toNat / 2 ^ 56 = 0xC2 ∧ (0xBF00000000000000#64).toNat / 2 ^ 56 = 0xBF := by
  decide +kernel

/-- CallStackAndProgramEndFaults: a full stack, an empty one, a CALL at the last address and a tile at its end. -/
theorem witness_CallStackAndProgramEndFaults :
    (let s := ((State.reset.setTile 67 { state := 1, pc := 16383 }).setTile 66
       { state := 1, pc := 16383, calls := List.replicate 16 5 }).setTile 65 { state := 2, pc := 9, calls := [16384] }
     let fl : JFlags := ⟨false, 0, false, false, false, false, .data⟩
     let fp : JFlags := ⟨true, 0, false, false, false, false, .corrected 8⟩
     (s.tile 67).runs = true ∧ (s.tile 66).runs = true ∧ (s.tile 65).runs = true ∧ fl.ecc ≠ .program ∧ fl.pred = false ∧
     16 ≤ (s.tile 66).calls.length ∧ (s.tile 65).calls.length < 16 ∧ (s.tile 67).calls = [] ∧
     16384 ≤ (repNext (s.tile 67).calls.length (s.tile 67).pc (s.tile 67).reps).1 ∧
     (s.tile 65).calls = [16384] ∧ 16384 ≤ (repNext 0 16383 (s.tile 65).reps).1 ∧
     jextanOf (.jFence 67 fp) = some (67, fp) ∧ fp.ecc ≠ .program ∧ fp.pred = true ∧ (s.tile 67).cond 0 = false) := by
  decide +kernel

/-- TileInputs: links with and without a block, a request that waits, an exchange ring, a tile that reloads, a late group
and a free tile of its die. -/
theorem witness_TileInputs :
    (State.reset.die 0).anaLink = [] ∧ (State.reset.tile 0).xlds = [] ∧
    (State.reset.setDie 7 { anaLink := [⟨224, 0, []⟩] }).die 7 = { anaLink := [⟨224, 0, []⟩] } ∧
    0 < Table.getD ((State.reset.setTile 3 { wi := [(1, 80)] }).tile 3).wi 1 0 / 80 ∧
    Table.getD (State.reset.tile 3).wi 1 0 / 80 ≤ 0 ∧ (State.reset.tile 3).swDue = none ∧ State.reset.ringEn 3 1 = false ∧
    (State.reset.setFlag GT_RING.EN 13 true).ringEn 3 1 = true ∧
    64 * (State.reset.setFlag GT_RING.EN 13 true).fld GT_RING.BASE 13 + 168 * (State.reset.setFlag GT_RING.EN 13 true).ringB 3 1 ≤ dmSize ∧
    ((State.reset.setTile 3 { xlds := [⟨128, { addr := 64 }, 1⟩] }).tile 3).xlds = [⟨128, { addr := 64 }, 1⟩] ∧
    (let s := State.reset.setFlag GT_XRX_CFG.EN 12 true
     (List.range 4).find? (fun j => s.flag GT_XRX_CFG.EN (4 * 3 + j) && s.fld GT_XRX_CFG.ROUTE (4 * 3 + j) == 0) = some 0 ∧
     2 ^ s.fld GT_XRX_CFG.SIZE_LOG2 12 < 2000000 + 0 + 1 ∧ 0 + 0 + 1 ≤ 2 ^ s.fld GT_XRX_CFG.SIZE_LOG2 12) ∧
    (let s := State.reset.setTile 67 { state := gtLOADING, reload := true, assign := .serves 63 }
     (s.tile 67).state = gtLOADING ∧ (s.tile 67).reload = true ∧ s.groupOf 67 = some 63) ∧
    (State.reset.tile 66).state ≠ gtLOADING ∧
    (let s : State := { State.reset with prog := { late := [40] } }
     40 ∈ s.prog.late ∧ 41 ∉ s.prog.late ∧ s.groupOf 66 = none ∧ s.role kTILE 66 = roFREE) := by decide +kernel

/-- ReplayAndCombiner: a replay that may start, one that runs and one that is to stop; a cell with one input, and one
that fires; a pulse; a timer at its instant. -/
theorem witness_ReplayAndCombiner :
    State.reset.mode 0 ≠ 7 ∧ State.reset.rplCause 0 ≠ 0 ∧
    (let s := State.reset.setReplay 1 { running := true, stop := true }
     (s.replay 1).running = true ∧ (s.replay 1).stop = true) ∧
    (let s := ((State.reset.setDie 0 { ringWrote := true }).setReplay 1 { running := true, src := 0, next := 0, left := 1 })
     s.rplPace 1 ≤ s.now ∧ s.ringAcked (s.replay 1).src (s.replay 1).next = true ∧ (s.replay 1).left ≤ 1 ∧
     s.rplPace 2 ≤ s.now ∧ (s.replay 2).stop = false) ∧
    (∀ c, c < 64 → ∀ i, i < 16 → State.reset.names c i 0xC02 = false) ∧ State.reset.trg.oldRegs = [] ∧
    (let s := ((State.reset.setFlag TRG_CELL_CFG.EN 5 true).setFlag TRG_CELL_IN.EN 83 true).setFld TRG_CELL_IN.SRC 83 0xC02
     let s := s.setFld TRG_CELL_TERM.REQ 20 8
     let s := s.setFld TRG_CELL_WIN.W 5 4
     let t := s.setCell 5 { inputs := [(3, [⟨0, 0, false, 0xC02⟩])] }
     s.names 5 3 0xC02 = true ∧ s.names 5 4 0xC02 = false ∧ s.names 6 3 0xC02 = false ∧
     s.trg.oldRegs = [] ∧ s.fires 5 0 = false ∧ t.fires 5 0 = true ∧ t.trg.oldUntil ≤ (t.firing 5 0).time ∧
     0 + t.fld TRG_CELL_CFG.LAT 5 ≠ 1 ∧ ((t.cell 5).fired = none ∧
       0 + ({ t with now := t.fld TRG_CELL_CFG.LAT 5 } : State).fld TRG_CELL_CFG.LAT 5 = t.fld TRG_CELL_CFG.LAT 5)) ∧
    (let s := State.reset.setReg .TRG_TMR_PERIOD 7 1000
     s.cycleOf (nsToOt 0) = s.now ∧ Table.get? s.trg.timers 7 = none ∧
     (s.reg .TRG_TMR_PERIOD 7).toNat ≠ 0 ∧ 5000 % (s.reg .TRG_TMR_PERIOD 7).toNat = (s.reg .TRG_TMR_PHASE 7).toNat) ∧
    (let s : State := { State.reset with trg := { tout := [(3, 0), (4, 9)] } }
     Table.get? s.trg.tout 3 = some 0 ∧ 0 ≤ s.now ∧ Table.get? s.trg.tout 4 = some 9 ∧ s.now < 9) := by decide +kernel

/-- RecordsAndRetrieval: a definition that re-arms with a firing, a record with a segment, jobs that can and cannot copy,
a store with room, index and record writes, requests waiting, retrievals that end. -/
theorem witness_RecordsAndRetrieval :
    (let f : Firing := ⟨2 ^ 80, 0, 0xC10, false⟩
     let w : Window := ⟨0, 0, 80, 0, 1, []⟩
     let x : Job := ⟨.segment 3, f, [w], 0, 1, false, false, 0, 4, none, 0⟩
     let y : Job := { x with broken := true, closed := true }
     let z : Job := ⟨.retrieval 7 0x40 none, f, [], 9, 0, true, false, 5, 4, some 0, 0⟩
     let s : State := ({ State.reset with
       dev := .run
       hall := [⟨3, 5, [1, 2]⟩]
       cel := { regions := [⟨1, 0, 0x100000, 0x100000⟩, ⟨2, 0, 0x200000, 0x10000⟩] }
       trg := { jobs := [x, y, z, { x with windows := [w, { w with ch := 1 }], broken := true }]
                defs := [(3, { queue := [f], rearming := true, since := some 0, segs := [⟨f, [], 0, 1, false⟩] }), (4, { rearming := true })]
                oldRegs := []
                stored := [⟨0, 0x100, 64⟩], recnum := 5
                writing := [⟨0, 0, [], zeros 64, false⟩], indexing := [⟨0, 0, [], [], false⟩] } } : State)
     let s : State := { s with now := 10 * msCycles }
     let s := ((s.setReg .TRG_DEF_TIMEOUT 3 10).setFld TRG_DEF_CFG.SEGS_M1 3 9).setFlag TRG_RTC_BASE_HI.ENABLE 0 true
     let s := (s.setFld TRG_RTC_BASE_HI.SIZE_LOG2 0 4).setFlag TRG_RTV_BASE_HI.ENABLE 0 true
     let s := (s.setFld TRG_RTV_BASE_HI.SIZE_LOG2 0 4).setFld TRG_RTV_PTR.TAIL 0 1
     (s.offHall 3 5 [1, 2]).isSome = true ∧ s.offHall 3 4 [1, 2] = none ∧ s.segOpen 4 = false ∧ (s.recordCfg 3).reg .TRG_DEF_TIMEOUT 3 = 10 ∧
     (s.def_ 3).rearming = true ∧ (s.def_ 3).queue = [f] ∧ s.trg.oldRegs = [] ∧ (s.def_ 3).since.isSome = true ∧
     (s.reg .TRG_DEF_TIMEOUT 3).toNat ≠ 0 ∧ (s.def_ 3).segs ≠ [] ∧
     s.copyNext x = none ∧ x.complete = false ∧ (s.copyNext y).isSome = true ∧
     ((s.copyNext y).map (·.complete)) = some true ∧ s.retrievals.length < 16 ∧ s.rtvRingLen ≠ 0 ∧
     (s.def_ 3).switched = false ∧ (s.def_ 3).segs.length < s.fld TRG_DEF_CFG.SEGS_M1 3 ∧
     s.outputsOn = true ∧ s.segmentsHeld < 64 ∧ 0 + (s.reg .TRG_DEF_TIMEOUT 3).toNat * msCycles ≤ s.now ∧
     s.recordsLost 0 64 5 = [] ∧ s.trg.stored.any (·.recnum == 0) = true ∧ (s.region 1 0).isSome = true ∧ s.indexAddr 5 = some 0x200140 ∧ s.rtcFull = false ∧ (inCellar s.rtcBase 32 = true ∨ inSystem s.rtcBase 32 = true) ∧ (s.copyAll z.remaining z).2.complete = true ∧
     (parseRtv (s.bytes (s.rtvBase + 64 * s.fld TRG_RTV_PTR.HEAD 0) 64)).lenNs = 0) ∧
    State.reset.outputsOn = false ∧ State.reset.rtcFull = true ∧ State.reset.rtvRingLen = 0 := by decide +kernel

/-- OpalRenderers: a renderer that is off and one with records of each kind, a decay step and requests that are due, a frame
that is written, a swap at its copy, an error with no spare left. -/
theorem witness_OpalRenderers :
    State.reset.oplSwap = none ∧ State.reset.flag OPL_CFG.EN (State.reset.oplPhys 0) = false ∧
    (let s := (State.reset.setFlag OPL_CFG.EN 3 true).setFld OPL_CFG.CHANNEL 3 9
     let item : List Byte := [3, 0, 9, 0] ++ zeros 60
     let t := s.setOpal 3 { queue := [item], cells := [(1, 5), (7, 9)], lastSeq := some 0 }
     let d := s.setOpal 3 { decayDue := true, cells := [(1, 5), (7, 9)] }
     let r := s.setOpal 3 { due := some 20000000, lastReq := some 10000000 }
     let q := s.setOpal 3 { due := some 20000000 }
     let f := s.setOpal 3 { frames := [((0, 9), [[(1, 5)]])] }
     let w := { s with oplSwap := some { logical := 3, old := 3, new := 16, step := .copying, cause := .host } }
     (({ s with hall := [⟨2, 3, item⟩] } : State).offHall 2 3 item).isSome = true ∧ s.offHall 2 3 item = none ∧
     le item 28 2 &&& s.fld OPL_SKIP.SKIP_FLAGS 3 = 0 ∧ s.oplPhys 3 = 3 ∧ s.flag OPL_CFG.EN 3 = true ∧ le item 0 1 = 3 ∧ le item 2 2 = s.fld OPL_CFG.CHANNEL 3 ∧
     (t.opal 3).queue = [item] ∧ t.oplCopying 3 = false ∧ (d.opal 3).decayDue = true ∧
     (d.opal 3).cells.Pairwise (fun a b => a.1 < b.1) ∧ (r.opal 3).due = some 20000000 ∧ (r.opal 3).lastReq = some 10000000 ∧
     q.lv = [] ∧ (Table.getD (q.opal 3).bufs 0 {}).free (q.showsPhys 3) = true ∧ q.scanRanges = [] ∧
     (f.opal 3).frames = [((0, 9), [[(1, 5)]])] ∧ (w.oplSwap.map (·.step)) = some .copying ∧ s.oplLogical 3 = some 3 ∧
     (s.setRole kOPAL 16 roRETIRED).freeSpare kOPAL (List.range 17) = none ∧ (s.step2 Block.OPL.index 3).1 < 4) ∧
    State.reset.oplLogical 16 = none := by decide +kernel

/-- ScanOuts: a scan-out that is on with a base that waits and one that retires, HPD both ways, training, and the lowest
link that fits. -/
theorem witness_ScanOuts :
    State.reset.flag VID_CTRL.EN 0 = false ∧ State.reset.flag VID_STATUS.HPD 0 = false ∧
    (let s := ({ State.reset with now := 5 } : State).setFlag VID_CTRL.EN 1 true
     let s := (s.setFlag VID_STATUS.HPD 1 true).setFlag VID_STATUS.TRAINED 1 true
     let s := { s.setScan 1 { base := [(7, 2)], based := true, retiring := [(3, 1)], training := true } with dev := .run }
     s.flag VID_CTRL.EN 1 = true ∧ s.lv = [] ∧ (s.scan 1).base.find? (fun b => decide (b.2 < s.now)) = some (7, 2) ∧ (s.scan 1).based = true ∧ 2 < s.now ∧
     s.fld VID_BASE_ACT.ADDR 1 ≠ 7 ∧ (s.scan 1).retiring = [(3, 1)] ∧ s.flag VID_STATUS.HPD 1 = true ∧
     s.flag VID_STATUS.TRAINED 1 = true ∧ s.outputsOn = true ∧ (s.scan 1).training = true ∧
     (s.setReg .VID_PCLK 1 148500).dpChoice 1 3 2 = some (0, 2) ∧ (s.scan 1).under.last = none) ∧
    (let s := (State.reset.setFlag OPL_CFG.EN 2 true).setFld OPL_CFG.FRAME_SRC 2 2
     s.flag OPL_CFG.EN 2 = true ∧ s.fld OPL_CFG.FRAME_SRC 2 = 1 + 1 ∧ (s.opal 2).due = none) := by decide +kernel

/-- DmaEngineWorks: channels in each phase with descriptors in memory, a domain that drains. -/
theorem witness_DmaEngineWorks :
    State.reset.fld DMA_CH_STAT.STATE 0 = dmIDLE ∧ (State.reset.dmaCh 0).phase = .idle ∧ State.reset.drains 2 = false ∧
    (let copy := leBytes 4 (2 ^ 31) ++ leBytes 4 8 ++ leBytes 8 0x1000 ++ leBytes 8 0x2000 ++ zeros 40
     let strm := leBytes 4 (2 ^ 31 + 3 * 2 ^ 27) ++ leBytes 4 8192 ++ leBytes 8 0x1000 ++ leBytes 8 0x9000 ++ zeros 2 ++ [12] ++ zeros 5 ++ leBytes 8 0x4000 ++ zeros 24
     let s : State := { State.reset with dma := { chans := [(0, { phase := .data, desc := copy }), (1, { phase := .readback, desc := copy, done := 8 }), (2, { phase := .fetch }),
       (3, { phase := .relink }), (4, { phase := .data, desc := copy, ending := some dsSTOPPED }), (5, { phase := .data, desc := strm }), (6, { phase := .fetch, space := 1 })] } }
     let u := s.setBytes 0 copy
     let d : Dma := { desc := copy }
     (s.dmaCh 0).phase = .data ∧ (s.dmaCh 0).op = 0 ∧ (s.dmaCh 0).overlap = false ∧ (s.dmaCh 0).len = 8 ∧
     (s.dmaCh 1).op < 2 ∧ s.dma.draining = [] ∧ s.poisonedRange ((s.dmaCh 3).addr + 40) 8 = false ∧ s.spaceUp (s.dmaCh 4).dspace = true ∧ (s.dmaCh 5).ending = none ∧ s.load ((s.dmaCh 3).addr + 40) 8 % 2 = 0 ∧
     (inCellar 0 64 || inSystem 0 64) = true ∧ s.poisonedRange 0 64 = false ∧ (u.bytes 0 64 = copy) ∧
     bit d.ctrl 31 = true ∧ d.malformed = false ∧ d.addressable = true ∧
     bit (Dma.ctrl { desc := s.bytes 0 64 }) 31 = false ∧
     Dma.malformed { desc := leBytes 4 (2 ^ 31) ++ zeros 60 } = true ∧
     (s.dmaCh 5).stream = true ∧ (s.dmaCh 5).done + (s.dmaCh 5).piece ≤ (s.dmaCh 5).len ∧
     (s.dmaCh 6).space ≠ 0 ∧ (s.dmaCh 4).ending = some dsSTOPPED ∧ (s.dmaCh 0).uses 0 = true ∧
     (inCellar 0x1000 8 || inSystem 0x1000 8) = true ∧ s.timerDue (tmDrain 0) (100 * usCycles) = true ∧
     ((s.dmaDrain 0).timerDue (tmDrain 0) (100 * usCycles) = false) ∧
     ({ s with dma := { s.dma with draining := [(0, 0)] } } : State).drains 0 = true) := by decide +kernel

/-- PciePorts: a root port with a window, an enabled port with its link down, a channel through a port. -/
theorem witness_PciePorts :
    State.reset.rootPort 1 = false ∧ State.reset.flag PCI_STATUS.LINK_UP 0 = false ∧ State.reset.drains 1 = false ∧
    (let s := ((State.reset.setFlag PCI_CTRL.ROLE 1 true).setFlag PCI_STATUS.LINK_UP 1 true).setFld PCI_IN_SIZE.IN_LOG2 1 20
     s.rootPort 1 = true ∧ s.flag PCI_STATUS.LINK_UP 1 = true ∧ s.inWindow 1 4096 8 = true ∧
     s.inWindow 1 (2 ^ 20) 8 = false ∧ s.poisonedRange 4096 8 = false ∧ (∀ c, c < 32 → (s.dmaCh c).phase = .idle)) ∧
    (let s := ((State.reset.setFlag PCI_CTRL.EN 0 true).setFld PCI_CTRL.MAX_SPEED 0 5).setFld PCI_CTRL.MAX_WIDTH 0 3
     s.flag PCI_CTRL.EN 0 = true ∧ 5 ≤ s.fld PCI_CTRL.MAX_SPEED 0 ∧ 3 ≤ s.fld PCI_CTRL.MAX_WIDTH 0) ∧
    (let s := State.reset.setDma 0 { phase := .data, desc := leBytes 4 (2 ^ 31 + 2 ^ 25) ++ zeros 60 }
     (s.dmaCh 0).phase = .data ∧ (s.dmaCh 0).touches 1 = true) := by decide +kernel

/-- StreamsAndSubscribers: a stream with an item, subscribers of an Ethernet port and of a ring, an entry staged for a join,
entries that may leave, a next hop that is unresolved. -/
theorem witness_StreamsAndSubscribers :
    State.reset.outputsOn = false ∧ State.reset.stream? 3 = none ∧
    (let eth : List Byte := [1, 0, 0, 0] ++ leBytes 4 1000 ++ [0, 0, 4, 0] ++ leBytes 2 80 ++ leBytes 2 81 ++ leBytes 4 0x0102A8C0 ++ zeros 12 ++ [2, 0, 0, 0, 0, 1] ++ zeros 26
     let ring : List Byte := [3, 0, 0, 0] ++ leBytes 4 1000 ++ zeros 32 ++ leBytes 8 0x1000 ++ [4] ++ zeros 15
     let s : State := { State.reset with
       dev := .run
       cel := { regions := [⟨4, 0, 0x100000, 0x10000⟩] }
       stm := { streams := [(0, { wp := 64, seq := 1, items := [⟨0, 64, 4, 0, 0⟩] })], subs := [(0, { tokens := 65536 * 1600 }), (1, { tokens := 65536 * 1600, waiting := true }), (2, { hopTry := some 0 })] }
       now := 2 * sCycles }
     let s := (s.setEntry 0 eth).setEntry 1 ring
     let s := (s.setEntry 2 (eth.take 32 ++ zeros 32)).setFlag PCI_STATUS.LINK_UP 0 true
     let s := (s.setFld FAB_PORT_CFG.MODE 0 2).setFld FAB_PORT_STAT.STATE 0 2
     let s := s.setReg .STM_SUB_STAGE 0 3
     s.outputsOn = true ∧ s.subsOf 5 = [] ∧ (s.nextItem 0).isSome = true ∧ eKind (s.subEntry 0) = kETH4 ∧
     s.destMac (s.subEntry 0) = some 0x020000000001 ∧ s.ethUp 0 = true ∧ (s.refill 0).mayPay 0 36 = true ∧
     4 ≤ 64 * ePkt (s.subEntry 0) ∧ (s.itemBytes 0 ⟨0, 64, 4, 0, 0⟩).length = 4 ∧
     (s.nextItem 1).isSome = true ∧ eKind (s.subEntry 1) = kRING ∧ s.flag PCI_STATUS.LINK_UP 0 = true ∧
     s.flag PCI_STATUS.DRAINING 0 = false ∧ (s.sub 1).waiting = true ∧ s.timerDue (tmPoll 1) usCycles = true ∧
     (s.timerSet (tmPoll 1)).timerDue (tmPoll 1) usCycles = false ∧ (s.sub 0).waiting = false ∧ bit (le (zeros 15 ++ [128]) 12 4) 31 = true ∧
     (s.refill 1).mayPay 1 36 = true ∧ s.freeSub = some 3 ∧ s.destMac (s.subEntry 2) = none ∧
     (s.joined.map s.subEntry).any (sameDest ring) = true ∧
     (let e := ring.take 40 ++ leBytes 8 0x9000 ++ ring.drop 48
      (s.joined.map s.subEntry).any (sameDest e) = false ∧ s.entryOk e = true ∧ (s.stream? (eStream e)).isSome = true ∧
      pathOver [e] (fun _ => 48000) 0 (fun _ _ => 0) e = false)) ∧
    (let s : State := { State.reset with hall := [⟨1, 3, [9]⟩], sec := { sessions := [⟨some 3, 9, [], none, none⟩] }, stm := { subs := [(4, { back := some 9, sent := some 2 })] } }
     (s.offHall 1 3 [9]).isSome = true ∧ s.offHall 1 4 [9] = none ∧ freshRequest s 3 5 = true ∧ (s.sub 4).back = some 9 ∧
     (s.sub 4).waiting = false) := by decide +kernel

/-- EthernetPtpAndRecordLog: an Ethernet port that is up and chosen for PTP, a master, a drive with commands, sets that may
start and be formatted. -/
theorem witness_EthernetPtpAndRecordLog :
    State.reset.ethUp 0 = false ∧ State.reset.setState (State.reset.fld NVM_DRIVE.SET 0) ≠ 2 ∧
    (let m : PtpMaster := ⟨1, 1, 1, 1, 1, 1, 1, ⟨1, 1⟩, 1000⟩
     let s : State := { State.reset with
       now := 2 * sCycles
       sec := { trngOk := true }
       stm := { masters := [(m, 0)], master := some ⟨1, 1⟩, sync := some (0, 0), drives := [(0, { cmds := [{ op := .flush, issued := some 0 }, { op := .flush, tries := 2 }] })] } }
     let s := (s.setFld FAB_PORT_CFG.MODE 3 2).setFld FAB_PORT_STAT.STATE 3 2
     let s := (s.setFld TDC_TIME_CFG.TIME_SRC 0 2).setFld TDC_TIME_CFG.SRC_IDX 0 3
     let s := (s.setFlag NVM_DRIVE.EN 0 true).setFld NVM_SET_STAT.STATE 0 2
     let u := s.setFld NVM_SET_STAT.STATE 0 1
     s.ethUp 3 = true ∧ s.fld TDC_TIME_CFG.TIME_SRC 0 = 2 ∧ s.fld TDC_TIME_CFG.SRC_IDX 0 = 3 ∧
     s.fld STM_PTP_CFG.DOMAIN 0 = 0 ∧ s.stm.master = some m.sender ∧ s.stm.sync = some (0, 0) ∧ ((s.setFlag PCI_CTRL.ROLE 0 true).setFlag PCI_STATUS.LINK_UP 0 true).driveUp 0 = true ∧ 0 < s.driveRoom 0 ∧
     s.timerDue (tmFlush 0) (s.fld NVM_SET_CFG.FLUSH_MS 0 * msCycles) = true ∧
     s.setState 0 = 2 ∧ 0 ∈ s.liveDrives 0 ∧ u.setState 0 = 1 ∧ u.setDrives 0 = [0] ∧ s.flag NVM_SET_CFG.EN 0 = false ∧
     0 + sCycles ≤ s.now ∧ State.reset.stm.masters = []) := by decide +kernel

/-- FabricLinksAndRoutes: a port at each step of its bring-up, a link that is up, a filter and a database with a module in
them, an AUTO module whose gathering is over. -/
theorem witness_FabricLinksAndRoutes :
    State.reset.portState 0 ≠ 1 ∧ State.reset.fab.on = false ∧ State.reset.dev = .standby ∧
    (let s : State := { State.reset with
       dev := .run
       now := 41 * sCycles
       fab := { on := true, ports := [(0, { step := 2 }), (1, { step := 6 }), (2, { lastHello := some 0, fails := 7, replay := [([1], [1, 0])] })], filters := [(9, ⟨1, 5, [5]⟩)], db := [(⟨7, 1, 1, 1, 1, []⟩, 0)] } }
     let s := (s.setFld FAB_PORT_CFG.MODE 0 1).setFld FAB_PORT_STAT.STATE 0 1
     let s := (s.setFld FAB_PORT_CFG.MODE 2 1).setFld FAB_PORT_STAT.STATE 2 3
     let s := (s.setFld FAB_PORT_CFG.MODE 3 2).setFld FAB_PORT_CFG.MODE 4 1
     s.portState 0 = 1 ∧ (s.port 0).step = 2 ∧ (s.port 1).step = 6 ∧ 2 ∈ s.vyderUp ∧ s.portState 2 = 3 ∧
     bit (s.port 2).lanes 3 = true ∧ 0 + 3 * msCycles ≤ s.now ∧ s.portState 4 = 0 ∧
     ((s.goodLanes 4 31).filter (· != s.fld FAB_PORT_STAT.SPARE_LANE 4)).length = 4 ∧
     ((s.goodLanes 3 3).filter (· != s.fld FAB_PORT_STAT.SPARE_LANE 3)).length ≠ 4 ∧
     Table.get? s.fab.filters 9 = some ⟨1, 5, [5]⟩ ∧ Table.get? s.fab.filters 8 = none ∧
     s.fld FAB_ADDR_CFG.MODE 0 = 0 ∧ s.addrState = 0 ∧ s.fab.firstNbr = none ∧ s.fab.started + 10 * msCycles ≤ s.now ∧
     s.timerDue (tmHello 2) msCycles = true ∧ s.timerDue tmLsa (10 * sCycles) = true ∧
     (s.timerSet tmLsa).timerDue tmLsa (10 * sCycles) = false ∧ s.otherHolder 5 = none ∧ s.otherHolder 1 = some ⟨7, 1, 1, 1, 1, []⟩) := by decide +kernel

/-- FabricTimeAndMessages: a fabric that is on with a port up, a filter, a time parent's port, an address, a receive ring. -/
theorem witness_FabricTimeAndMessages :
    State.reset.fab.on = false ∧ State.reset.fld TDC_TIME_CFG.TIME_SRC 0 ≠ 3 ∧ State.reset.rxUsed < (7 + 2 ^ 32 - 0) % 2 ^ 32 ∧
    (let me : FabLsa := ⟨0, 3, 1, 0, 0, [⟨7, 1, 2, 0, 1⟩]⟩
     let o : FabLsa := ⟨7, 1, 1, 1, 1, [⟨0, 3, 0, 2, 1⟩]⟩
     let s : State := { State.reset with
       fab := { on := true, ports := [(2, { uid := 7, offsets := [5] })], filters := [(9, ⟨1, 5, [5]⟩)], inst := [me, o], gm := some ⟨7, 1, true⟩, parent := some 7 } }
     let s := (s.setFld FAB_PORT_CFG.MODE 2 1).setFld FAB_PORT_STAT.STATE 2 3
     let s := ((s.setFld TDC_TIME_CFG.TIME_SRC 0 3).setFld FAB_STATUS.ADDR 0 3).setFld FAB_STATUS.ADDR_STATE 0 1
     let s := (s.setFlag FAB_RX_BASE_HI.ENABLE 0 true).setReg .FAB_TRG_SUB_LO 0 1
     2 ∈ s.vyderUp ∧ s.fld TDC_TIME_CFG.TIME_SRC 0 = 3 ∧ s.timeParent = some 2 ∧ s.flag FAB_STATUS.IS_GM 0 = false ∧
     s.fab.parent = some (s.port 2).uid ∧ (s.port 2).offsets ≠ [] ∧ s.addressed = true ∧ s.fabAddr = 3 ∧
     Table.get? s.fab.filters 9 = some ⟨1, 5, [5]⟩ ∧ Table.get? s.fab.filters 8 = none ∧
     bit (s.reg64 .FAB_TRG_SUB_LO .FAB_TRG_SUB_HI 0) 0 = true ∧ s.flag FAB_RX_BASE_HI.ENABLE 0 = true ∧
     s.timerDue (tmExchange 2) msCycles = true ∧ s.timerDue tmServo (16 * msCycles) = true ∧
     s.timerDue tmAnnounce (125 * msCycles) = true ∧ s.fab.cands = [] ∧ s.fab.rxHeld = [] ∧
     (s.timerSet tmServo).timerDue tmServo (16 * msCycles) = false ∧
     ({ s with fab := { s.fab with rxHeld := [zeros 64] } } : State).fab.rxHeld ≠ [] ∧ s.fab.xfers = [] ∧ entrySize 0 / 64 ≤ s.rxUnits ∧
     inSystem s.rxBase (64 * s.rxUnits) = true) := by decide +kernel

/-- CalibrationRuns: a drifted slice, runs that start in each way or wait, runs in each phase. -/
theorem witness_CalibrationRuns :
    (let j : CalJob := { slice := 3, task := .run, host := true, since := 0 }
     let w : CalCur := { job := j, way := .hitless 32, chan := some 3, phase := 1, old := {} }
     let s : State := { State.reset with
       dev := .run
       now := 10 * sCycles
       hk := { temps := [(0, 9000), (1, 9000)] }
       cal := { dies := [(0, { queue := [j] }), (1, { cur := some w }), (2, { cur := some { w with phase := 3 } }), (3, { cur := some { w with phase := 2 } }),
         (4, { cur := some { w with phase := 4, way := .hold 80 160, done := true } }), (5, { cur := some { w with phase := 2, way := .inPlace } }),
         (6, { cur := some { w with phase := 4, way := .hold 80 160 } }), (7, { cur := some { w with phase := 3, undo := some (none, 2) } })] } }
     let n := (s.setRole kSLICE 32 roRETIRED).setRole kSLICE 33 roRETIRED
     s.flag CAL_CFG.AUTO 0 = true ∧ s.fld CAL_CFG.DRIFT 0 ≤ s.tempDiff 0 3 ∧ s.role kSLICE 3 ≠ roRETIRED ∧
     calOne s 0 j ∧ s.calWay 0 j = .hitless 32 ∧ s.netOf 0 3 = some 3 ∧ s.calMayStart 0 j false = true ∧
     (∃ a b, n.calWay 0 j = .hold a b) ∧ calOne n 0 j ∧
     (let q := n.setFld CAL_QUIET.SRC 0 2
      q.calMayStart 0 j false = false ∧ q.commitPending = false ∧ j.overdue = false) ∧
     (let f := n.setFld CAL_QUIET.FORCE_S 0 5
      f.fld CAL_QUIET.FORCE_S 0 ≠ 0 ∧ j.since + f.fld CAL_QUIET.FORCE_S 0 * sCycles ≤ f.now) ∧
     (({ s with dev := .boot } : State).calWay 0 j = .inPlace) ∧ (s.setFld SYS_OCT_STAT.MODE 0 8).calWay 0 j = .inPlace ∧
     calOne (s.setFld SYS_OCT_STAT.MODE 0 8) 0 j ∧
     calAt s 1 w 1 ∧ calAt s 2 { w with phase := 3 } 3 ∧ calAt s 3 { w with phase := 2 } 2 ∧
     calAt s 4 { w with phase := 4, way := .hold 80 160, done := true } 4 ∧ s.hubCopy 4 = false ∧
     calAt s 6 { w with phase := 4, way := .hold 80 160 } 4 ∧ calAt s 7 { w with phase := 3, undo := some (none, 2) } 3 ∧
     (let q := s.setCalDie 7 { cur := some { w with phase := 3, await := true } }
      (q.calDie 7).cur = some { w with phase := 3, await := true }) ∧
     (s.setDie 4 { started := true, count := 0 }).hubCopy 4 = true ∧ 80 * (((s.setDie 4 { started := true, count := 0 }).die 4).count + 1) < 160 ∧
     resultCheck {} [] [] [] = 0 ∧ resultCheck {} [1000] [] [] ≠ 0) := by
  unfold calOne calAt
  refine ⟨by decide, by decide, by decide, by decide, by decide, by decide, by decide, ⟨_, _, rfl⟩, ?_⟩
  decide

/-- CalibrationSets: an empty queue, a record's place in system memory and one outside, an armed COMMIT, a set being
written. -/
theorem witness_CalibrationSets :
    (let s : State := { State.reset with cal := { armed := some 0, committing := some [] } }
     let r := State.reset.setRole kSLICE 5 roRETIRED
     r.role kSLICE 5 = roRETIRED ∧ r.role kSLICE 6 ≠ roRETIRED ∧ (r.calDie 3).queue = [] ∧
     inSystem State.reset.calRecAddr 4544 = true ∧ State.reset.poisoned State.reset.calRecAddr = false ∧
     inSystem (State.reset.setFld CAL_REC_ADDR_HI.ADDR 0 0).calRecAddr 4544 = false ∧
     State.reset.cal.armed = none ∧ s.cal.armed = some 0 ∧ s.now ≤ 0 + sCycles ∧ s.cal.committing = some [] ∧
     State.reset.cal.committing = none) := by decide +kernel

/-- PantryCommands: requests, swaps of each kind, rotations, samples. -/
theorem witness_PantryCommands :
    (let r : State := { State.reset with dev := .run }
     let s : State := { r with pan := { roles := [(1024 * kTILE + 5, roSERVICE)], asks := [⟨0, 3, 0⟩] } }
     let n := (s.setRole kSLICE 32 roRETIRED).setRole kSLICE 33 roRETIRED
     let y := s.setFld FAB_PORT_CFG.MODE 0 1
     let v : State := { s.setFlag PAN_ROT.EN 0 true with tiles := Table.set {} s.tiles 5 { s.tile 5 with state := gtRUN } }
     askFront s 0 3 ∧ ¬ askFront s 0 4 ∧ panFree s ∧ s.sliceServes 0 3 = true ∧ n.sliceServes 0 3 = true ∧ s.role kSLICE 33 = roFREE ∧ s.role kSLICE 3 ≠ roRETIRED ∧
     s.freeSlice 0 3 = some 32 ∧ n.freeSlice 0 3 = none ∧ n.spareBusy 0 = false ∧
     (n.setCalDie 0 { cur := some { job := { slice := 4, task := .run, host := true, since := 0 }, way := .hitless 32, chan := some 4, phase := 1, old := {} } }).spareBusy 0 = true ∧ s.groupOf 5 = some 5 ∧
     s.freeSpare kTILE (dieTiles (dieOf 5)) = some 32 ∧ s.pc 7 = .ok ∧ s.pan.move = none ∧ (s.freeReserve 7).isSome = true ∧
     s.fld FAB_PORT_CFG.MODE 0 ≠ 1 ∧ y.fld FAB_PORT_CFG.MODE 0 = 1 ∧ bit (y.port 0).lanes 2 = true ∧ (y.spareLane 0).isSome = true ∧
     s.role kCORE 3 ≠ roFREE ∧ s.role kCORE 3 ≠ roRETIRED ∧ s.freeSpare kCORE (List.range 9) = some 8 ∧
     s.role kTILE 33 = roFREE ∧ s.role kOPAL 16 = roFREE ∧ v.rotReady 0 = true ∧ rotDue v 0 ∧ telDue v ∧ v.timerDue tmHour (3600 * sCycles) = true ∧
     ¬ rotDue ((v.timerSet (tmRotation 0)).setFld PAN_ROT.TILE_MIN 0 1) 0 ∧
     (v.timerSet tmHour).timerDue tmHour (3600 * sCycles) = false ∧
     ¬ telDue ((v.timerSet tmTel).setFld PAN_ROT.TEL_MIN 0 1) ∧ v.rotGroup 0 = some (5, 5) ∧
     s.rotGroup 0 = none ∧ s.freeSpare kOPAL (List.range 17) = some 16 ∧
     (let o := (s.setFld PAN_ROT.OPAL_MIN 0 5).setFlag OPL_CFG.EN 2 true
      o.fld PAN_ROT.OPAL_MIN 0 ≠ 0 ∧ opalDue o ∧ ¬ opalDue (o.timerSet tmOpal) ∧
      ((List.range 16).map (fun i => (o.pan.oplNext + i) % 16)).find? (fun l => o.flag OPL_CFG.EN (o.oplPhys l)) = some 2) ∧
     (let q : State := { State.reset with dev := .safe }
      q.telFull = true ∧ (q.setFlag PAN_TEL_BASE_HI.ENABLE 0 true).dev = .safe)) := by
  unfold askFront panFree
  refine ⟨⟨_, _, rfl, rfl, rfl⟩, by rintro ⟨a, r, h, h1, h2⟩; cases h; revert h2; decide, ?_⟩
  decide +kernel

/-- SwapsEnd: migrations before and after the load and past the cut, units under test, swaps in progress. -/
theorem witness_SwapsEnd :
    (let m : Migration := { group := 5, old := 5, spare := 32, cause := .wear }
     let m2 : Migration := { group := 32, old := 34, spare := 66, cause := .wear, loaded := true }
     let s : State := { State.reset with
       dev := .run
       tiles := [(5, { State.reset.tile 5 with state := gtRUN, muted := true }),
         (7, { State.reset.tile 7 with state := gtRUN }),
         (66, { State.reset.tile 66 with state := gtRUN, assign := .serves 32 })]
       pan := { migs := [(0, m), (1, m2)], roles := [(1024 * kTILE + 33, roTEST), (2 * 1024 + 16, roTEST)],
                move := some { hpc := 3, reserve := 136, dead := true, cause := .host, since := 0 },
                lane := some { kind := kLANE, unit := 2, cause := .wear }, core := some { core := 3, spare := 8, cause := .wear, since := 0 } } }
     Table.get? s.pan.migs 0 = some m ∧ m.loaded = false ∧ m.spare ≠ m.old ∧ (s.tile 7).runs = true ∧ (s.tile 8).runs = false ∧
     Table.get? s.pan.migs (dieOf 34) = some m2 ∧ m2.old = 34 ∧ m2.spare ≠ 34 ∧ s.pan.waiting = [] ∧
     (s.tile 66).runs = true ∧ (s.tile 66).muted = false ∧ (s.tile 66).cutAfter = none ∧ s.commitPending = false ∧
     s.role kTILE 33 = roTEST ∧ s.role kTILE 5 ≠ roTEST ∧ s.role kOPAL 16 = roTEST ∧ s.gib ≤ 128 ∧
     s.spareLane 0 = some 4 ∧ s.region 6 0 = none ∧ s.now ≤ 0 + 150 * msCycles ∧
     ({ s with now := 150 * msCycles + 1 } : State).pan.core.isSome = true ∧ 0 < 0 + s.moveCycles ∧
     ({ s with pan := { s.pan with move := some { hpc := 3, reserve := 136, dead := false, cause := .wear, since := 0 } } } : State).now = 0) := by decide +kernel

/-- SuppliesAndAdc: each source, moves, counts, and the ADC idle, in a pass and with urgent requests. -/
theorem witness_SuppliesAndAdc :
    (let r := (State.reset.setFld PWR_CMP_STAT.UNSETTLED 0 0).setFld PWR_CMP_STAT.GOOD 0 3
     let a : State := { r.setFld PWR_STATUS.SOURCE 0 0 with dev := .run }
     let b : State := { a.setFld PWR_STATUS.SOURCE 0 1 with now := 200 * msCycles, pwr := { a.pwr with retFrom := some 0 } }
     let n := a.setFld PWR_CMP_STAT.GOOD 0 2
     let f := a.setFld PWR_CMP_STAT.GOOD 0 0
     let z : State := { (State.reset.setFld PWR_CMP_STAT.GOOD 0 0).setFlag PWR_SW_CFG.AUTO_START 0 true with
       dev := .standby, sec := { State.reset.sec with running := some 0 } }
     (∀ y, y < 3 → a.timerDue (tmLow y) (usCycles / 5) = true ∧ a.timerDue (tmSettle y) (a.fld PWR_CMP_CFG.SETTLE y * usCycles) = true) ∧
     (a.timerSet (tmLow 0)).timerDue (tmLow 0) (usCycles / 5) = false ∧ a.timerDue tmPass (a.fld HK_ADC_PERIOD.US 0 * usCycles) = true ∧
     a.timerDue tmConversion a.adcTime = true ∧ (a.timerSet tmConversion).timerDue tmConversion a.adcTime = false ∧
     a.good 0 = true ∧ a.unsettled 0 = false ∧ State.reset.unsettled 1 = true ∧ autoStarts z ∧ z.good 0 = false ∧ z.good 1 = false ∧
     z.unsettled 0 = true ∧ (z.setFld PWR_CMP_STAT.UNSETTLED 0 0).unsettled 0 = false ∧
     autoStarts (z.setFld PWR_CMP_STAT.UNSETTLED 0 0) ∧
     n.good 0 = false ∧ n.unsettled 0 = false ∧ n.pwr.move = none ∧ n.source = 0 ∧ n.good 1 = true ∧ f.good 1 = false ∧ f.source = 0 ∧
     (let m : State := { n with pwr := { n.pwr with move := some ⟨0, 0, 2⟩, lowWaits := [0] } }
      m.good 0 = false ∧ m.good 1 = true ∧ m.pwr.lowWaits = [0] ∧ m.now < 0 + 15 * (usCycles / 4) ∧
      0 + 15 * (usCycles / 4) ≤ ({ m with now := sCycles } : State).now) ∧
     b.returnPend = true ∧ b.source = 1 ∧ 0 + b.fld PWR_SW_CFG.RETURN_MS 0 * msCycles ≤ b.now ∧
     ({ b with now := 5 } : State).now < 0 + b.fld PWR_SW_CFG.RETURN_MS 0 * msCycles ∧ a.returnPend = false ∧
     (b.setFlag PWR_STATUS.FORCED_B 0 true).flag PWR_STATUS.FORCED_B 0 = true ∧ 2 ≤ State.reset.source ∧
     a.flag HK_ADC_CFG.EN 0 = true ∧ 0 < a.fld HK_ADC_CFG.LEN 0 ∧
     (let p : State := { a with hk := { a.hk with pos := some 3, urgent := [40] } }
      p.adcEntry 3 = 3 ∧ p.adcPowered 3 = true ∧ p.adcPowered 40 = true ∧ 3 + 1 < p.fld HK_ADC_CFG.LEN 0 ∧
      ({ p with dev := .standby } : State).adcPowered 3 = false)) := by
  unfold autoStarts
  decide +kernel

/-- PowerStates: a running device, one asked to shut down, STANDBY after a stop, BOOT in a rail step, a hot site. -/
theorem witness_PowerStates :
    (let r : State := { State.reset with dev := .run, now := 100 * sCycles }
     let d : State := { r with pwr := { r.pwr with down := some 0 } }
     let z : State := { State.reset.setFld PWR_CMP_STAT.GOOD 0 1 with
       dev := .standby, now := 100 * sCycles, sec := { State.reset.sec with running := some 0 }, pwr := { stopAt := some 0 } }
     let b : State := { State.reset with dev := .boot, pwr := { rail := 7 }, sec := { State.reset.sec with running := some 0 } }
     let h : State := { r with hk := { temps := [(3, 12000)] } }
     d.pwr.down = some 0 ∧ 0 + 30 * sCycles ≤ d.now ∧ ({ d with now := 5 } : State).now < 0 + 30 * sCycles ∧ r.pwr.down = none ∧
     z.selectSource = some 0 ∧ mayWake z 0 ∧ ¬ mayWake { z with now := 5 } 0 ∧ z.pwr.resetLow = false ∧
     (z.setFld PWR_CMP_STAT.GOOD 0 0).selectSource = none ∧ b.pwr.rail ≠ 0 ∧ b.pwr.wake = false ∧ r.hk.urgent.length < 4 ∧
     h.timerDue (tmOver 3) msCycles = true ∧ (h.timerSet (tmOver 3)).timerDue (tmOver 3) msCycles = false ∧
     (100 * h.fld HK_THERM.STOP 0 : Int) < h.siteTemp 3 ∧ h.siteTemp 4 ≤ (100 * h.fld HK_THERM.STOP 0 : Int)) := by
  unfold mayWake
  refine ⟨rfl, by decide, by decide, rfl, by decide, ⟨by decide, by decide +kernel⟩, fun h => ?_, by decide +kernel⟩
  exact absurd h.1 (by decide)

/-- BootChain: STANDBY before the ROM runs, a BOOT that hangs, recovery, a BOOT that is ready, waiting requests. -/
theorem witness_BootChain :
    (let z : State := { State.reset with dev := .standby, sec := { State.reset.sec with pend := some 1, tries := 2 } }
     let r : State := { z with sec := { z.sec with running := some 1, waits := [.chalReg] } }
     let b : State := { r with dev := .boot, now := 31 * sCycles }
     let d : State := { r.setFlag CLK_STATUS.BYP_LOCK 0 true with
       dev := .boot
       clk := { memLock := [true], coreLock := true, serdesLock := true, pixLock := [true], aonLock := true } }
     let e : State := { d.setFld SYS_PRG_POLICY.AUTO 0 2 with prog := { boot := [1] } }
     z.sec.running = none ∧ z.sec.recovery = false ∧ romOrder z 0 = [1, 0, 1] ∧ romOrder z 5 = [0] ∧ slotsOk z ∧
     b.sec.bootAt + 30 * sCycles ≤ b.now ∧ slotsOk b ∧ d.crystalLocked = true ∧ d.bootReady = true ∧ d.bootAuto = 0 ∧
     (0 : Nat) < 8 ∧ d.sec.plat.pciLimits[1]? = some (5, 3) ∧ e.bootReady = true ∧ e.bootAuto = 2 ∧ e.prog.boot ≠ [] ∧ imgSigned e.prog.boot = false ∧
     r.sec.trngOk = false ∧ r.sec.running.isSome = true ∧ r.sec.waits = [.chalReg]) := by
  unfold slotsOk
  refine ⟨by decide, by decide, by decide, by decide, ⟨by decide, fun p h => ?_⟩, by decide, ⟨by decide, fun p h => ?_⟩, ?_⟩
  · cases h; decide
  · cases h; decide
  · decide +kernel

/-- SessionsAndReports: a client that connects, sessions open and ended, requests new and answered, words in the mailbox. -/
theorem witness_SessionsAndReports :
    (let o : Owner := ⟨1, false, 0, 0, 0, [[7]]⟩
     let s : State := { State.reset with
       dev := .held
       sec := { State.reset.sec with
         running := some 0
         conns := [9]
         sessions := [⟨some 4, 1, [(5, 0, [])], none, none⟩]
         mboxIn := [0x01015A43, 0x40, 0, 0, 0, 0, 0]
         mboxOut := [1, 2] } }
     let d : State := { s with sec := { s.sec with sessions := [⟨none, 1, [], none, some 0⟩] } }
     let w : State := { s with sec := { s.sec with owner := some o } }
     s.sec.running.isSome = true ∧ 3 ∉ s.sec.conns ∧ s.session 3 = none ∧ s.session 9 = none ∧ 9 ∈ s.sec.conns ∧
     w.sec.owner = some o ∧ [7] ∈ o.keys ∧ [8] ∉ o.keys ∧ s.now < 0 + 60 * sCycles ∧
     d.sec.sessions = [⟨none, 1, [], none, some 0⟩] ∧ d.session 9 = none ∧
     freshReq s 4 ⟨some 4, 1, [(5, 0, [])], none, none⟩ 6 ∧
     [(5, 0, ([] : List Byte))].find? (fun x => x.1 == 5) = some (5, 0, []) ∧
     mboxWhole (((s.sec.mboxIn ++ [0]).map (fun w : BitVec 32 => leBytes 4 w.toNat)).flatten) 0x40 ∧
     mboxWhole ((([0x01015A43, 0x71, 0, 0, 0, 0, 0, 0] : List (BitVec 32)).map (fun w : BitVec 32 => leBytes 4 w.toNat)).flatten) 0x71 ∧
     s.tokenOk [] = false ∧
     ((([0x43, 0x70, 0, 0, 0, 0, 0, 0] : List (BitVec 32)).map (fun w : BitVec 32 => leBytes 4 w.toNat)).flatten).take 4 ≠ [0x43, 0x5A, 1, 1]) := by
  unfold freshReq mboxWhole
  decide +kernel

/-- FirmwareOwnerAndDebug: new and waiting requests, each kind of body, an owner or none, a challenge that stands. -/
theorem witness_FirmwareOwnerAndDebug :
    (let o : Owner := ⟨1, false, 0, 0, 0, [[7]]⟩
     let y : Session := ⟨some 4, 1, [(5, 0, [])], none, none⟩
     let s : State := { State.reset with
       dev := .held
       sec := { State.reset.sec with running := some 0, sessions := [y], bootsel := 4, owner := some o,
                                     waits := [.challenge (.session 4) 8], scope := 1, lifeEnd := 9, chal := some ([1], 0) } }
     let b : List Byte := zeros 15 ++ [1] ++ zeros 68
     freshReq s 4 y 6 ∧ mayRun s .secCmd 0 0x50 ∧ mayRun s .jtag 0 0x70 ∧ s.sec.owner = some o ∧ State.reset.sec.owner = none ∧
     s.presence = true ∧ (parseOwner b).isSome = true ∧ (parseOwner ((b ++ zeros 64).take ((b ++ zeros 64).length - 64))).isSome = true ∧
     parseOwner [] = none ∧ le [1, 0, 0, 0, 0, 7] 0 1 ≠ s.sec.active ∧ le [0, 0, 0, 0, 0, 7] 0 1 = s.sec.active ∧
     s.sec.trngOk = false ∧ y.cache.find? (fun e => e.1 == 8) = none ∧ .challenge (.session 4) 8 ∈ s.sec.waits ∧
     s.sec.scope ≠ 0 ∧ s.now < s.sec.lifeEnd ∧ ({ s with now := 300 * sCycles } : State).sec.lifeEnd ≤ 300 * sCycles ∧
     0 + 300 * sCycles ≤ ({ s with now := 300 * sCycles } : State).now ∧ s.now < 0 + 300 * sCycles) := by
  refine ⟨⟨rfl, by decide, by decide⟩, trivial, .inl rfl, rfl, rfl, ?_⟩
  decide +kernel

/-- RecoveryLadder: a running device with and without warm resets behind it, SAFE, a low RESET_N, timers that ran out. -/
theorem witness_RecoveryLadder :
    (let r : State := { State.reset with dev := .run, now := 100 * sCycles }
     let w : State := { r with rcv := { warms := [99 * sCycles, 98 * sCycles], warmAt := some 0, cycleAt := some 0 } }
     let f : State := { r with dev := .safe, rcv := { safeAt := some 0 } }
     let c : State := { r.setFlag SYS_RCV_CFG.PC_AUTO 0 true with cel := { pc := [(3, .frozen), (4, .reinit)], freezes := [(3, [5, 9])] } }
     let u : State := { (r.setFld FAB_PORT_CFG.MODE 1 1).setFld FAB_PORT_STAT.STATE 1 1 with
       tiles := [(7, { State.reset.tile 7 with state := gtLOADING })]
       dies := [(2, { down := true, onBypass := true, bypSince := some 0 })]
       oplSwap := some { logical := 3, old := 3, new := 16, step := .waiting, cause := .failure }
       clk := { everLocked := true, failSince := some 0 } }
     let z : State := { (State.reset.setFld PWR_CMP_STAT.GOOD 0 1).setFlag PWR_SW_CFG.AUTO_START 0 true with
       dev := .standby, sec := { State.reset.sec with running := some 0 }, pwr := { resetLow := true } }
     warmRecent r = 0 ∧ warmRecent w = 2 ∧ f.flag SYS_RCV_CFG.SAFE_AUTO 0 = true ∧
     0 + f.fld SYS_RCV_CFG.SAFE_HOLD_S 0 * sCycles ≤ f.now ∧ quiet r ∧ z.selectSource = some 0 ∧
     autoStarts { z with pwr := { z.pwr with resetLow := false } } ∧ 0 + 15 * sCycles ≤ w.now ∧ 0 + 2100 * msCycles ≤ w.now ∧
     c.pc 3 = .frozen ∧ c.pc 4 = .reinit ∧ c.flag SYS_RCV_CFG.PC_AUTO 0 = true ∧ Table.getD c.cel.freezes 3 [] = [5] ++ [9] ∧
     9 + c.fld SYS_RCV_CFG.PC_HOLD_S 0 * sCycles ≤ c.now ∧ (∃ o ∈ [5], 9 < o + 24 * 3600 * sCycles) ∧
     Table.getD c.rcv.steps (1024 * Block.CEL.index + 3) [] = [] ∧ (u.tile 7).state = gtLOADING ∧ (u.tile 7).reload = false ∧
     u.groupOf 7 = some 7 ∧ u.timerDue (tmTile 7) (2 * msCycles) = true ∧
     (2 : Nat) + 20 * msCycles ≤ ({ r with dev := .boot } : State).now ∧ ({ r with dev := .boot } : State).bypPersists = true ∧ u.fld FAB_PORT_CFG.MODE 1 ≠ 0 ∧ u.portState 1 = 1 ∧ (u.die 2).down = true ∧
     (u.die 2).downSince + 10 * msCycles ≤ u.now ∧ u.oplSwap.isSome = true ∧ (u.die 2).bypSince = some 0 ∧ u.clk.relock = 0 ∧
     bit (u.fld CLK_STATUS.JC_LOCK 0) 2 = false ∧ 0 + u.fld SYS_RCV_CFG.RELOCK_S 0 * sCycles ≤ u.now) := by
  unfold quiet autoStarts
  decide +kernel

/-- ProgramCommands: reset is not busy and names a readable image; a load and a commit can be in progress; a session with an
answered and a new request. -/
theorem witness_ProgramCommands :
    State.reset.prgBusy = false ∧ (State.reset.reg .SYS_IMG_LEN 0).toNat ≤ 2 ^ 26 ∧
    inCellar (State.reset.fld SYS_IMG_ADDR_LO.ADDR_LO 0 * 64 + State.reset.fld SYS_IMG_ADDR_HI.ADDR_HI 0 * 2 ^ 32)
      (State.reset.reg .SYS_IMG_LEN 0).toNat = true ∧
    State.reset.poisonedRange
      (State.reset.fld SYS_IMG_ADDR_LO.ADDR_LO 0 * 64 + State.reset.fld SYS_IMG_ADDR_HI.ADDR_HI 0 * 2 ^ 32)
      (State.reset.reg .SYS_IMG_LEN 0).toNat = false ∧
    (let s : State := { State.reset with prog := { loading := some (0, []), commit := some ⟨none, false, 0, true⟩ } }
     let z : State := { s with sec := { s.sec with sessions := [⟨some 4, 1, [(5, 0, [])], none, none⟩] } }
     freshRequest z 4 6 = true ∧ z.session 3 = none ∧ [(5, 0, ([] : List Byte))].find? (fun x => x.1 == 5) = some (5, 0, []) ∧
     s.prgBusy = true ∧ s.prog.loading = some (0, []) ∧ s.prog.commit = some ⟨none, false, 0, true⟩) := by decide

/-- HoldResumeBootStoreAndPairs: held with a program that has run, a boot-capable program in force, a store under way, a
tile that serves its group, a held first value. -/
theorem witness_HoldResumeBootStoreAndPairs :
    (let s := ({ State.reset with
       dev := .held
       held := [((.OPL_LEVEL_BOT, 4), 7)]
       prog := { forceInfo := some ⟨[], true, false, 1⟩, storing := some [1] } } : State).setFlag SYS_PRG_STATUS.HAS_RUN 0 true
     s.dev = .held ∧ s.flag SYS_PRG_STATUS.HAS_RUN 0 = true ∧ s.prog.forceInfo = some ⟨[], true, false, 1⟩ ∧
     s.prog.storing = some [1] ∧ bit (s.tile 0).lvMap 255 = false ∧ s.groupOf 0 = some 0 ∧
     Table.get? s.held (.OPL_LEVEL_BOT, 4) = some 7 ∧ (0x10001 : BitVec 32).toNat % 2 ^ 16 ≠ 0) ∧
    ({ State.reset with dev := .run } : State).dev = .run := by decide

/-! ## Words of the worked example of chapter 5, and opcodes that no row has -/

/-- Flags of a word: PRED, COND, PU, XF. -/
def flagsOf (pred : Bool) (cond : BitVec 3) (pu xf : Bool) : JFlags := ⟨pred, cond, false, false, pu, xf, .clean⟩

theorem test_word_waitin : vendorInstr 0 0x4000000010000000 =
    some (.jWaitin 0 (flagsOf false 0 false false) ⟨0, 0, 0, 0, 0, 4096, 0⟩) := by decide
theorem test_word_b : vendorInstr 0 0x0290000000000040 = some (.jB 0 (flagsOf true 1 false false) 0 0 0x40) := by decide
theorem test_word_fftr : vendorInstr 0 0x5003A6200001000C =
    some (.jFftr 0 (flagsOf false 0 true true) ⟨5, 1, 4, 1, 0, 1, 12⟩) := by decide
theorem test_word_det : vendorInstr 0 0x5303D40008000002 =
    some (.jDet 0 (flagsOf false 0 true true) ⟨6, 5, 0, 0, 0, 2048, 2⟩) := by decide
theorem test_word_rep : vendorInstr 0 0x0500100000000069 = some (.jRep 0 (flagsOf false 0 false false) 2 0 0x69) := by decide
theorem test_word_brk : vendorInstr 0 0x06E0000000010080 = some (.jBrk 0 (flagsOf true 6 false false) 0 1 0x80) := by decide
theorem test_word_ldp : vendorInstr 0 0x3400100000000000 = some (.jLdp 0 (flagsOf false 0 false false) 2 0 0) := by decide
theorem test_word_addi : vendorInstr 0 0x20001080FFFFFFFF =
    some (.jAddi 0 (flagsOf false 0 false false) 2 2 0xFFFFFFFF) := by decide
theorem test_word_unassigned : vendorInstr 0 0x7500000000000000 = none := by decide
theorem test_word_customer : vendorInstr 0 0xC000000000000000 = none := by decide

end Sys2Proof.Tests
end

section
/-! PROOFS. The state after reset, and what a host's access does to a control register (R8 to R13). -/

namespace Sys2Proof.Machine

/-! ## The state after reset (R10) -/

/-- Settles O3: nothing is listed at reset, so every register and byte reads as its default. -/
theorem resetState : Obligations.ResetState := by
  refine ⟨Memory.wf_reset, rfl, rfl, rfl, fun _ _ => rfl, fun _ => rfl, ?_⟩
  decide

/-! ## Accesses of the host to control registers -/

/-- R8: what is not an aligned 32-bit word reaches nothing among the control registers. -/
theorem targetOf_control_none (a len : Nat) (h : isControl a = true) (hb : len ≠ 4 ∨ a % 4 ≠ 0) :
    targetOf a len = none := by
  have hn : ¬ (len = 4 ∧ a % 4 = 0) := by omega
  simp [targetOf, h, hn]

/-- A write that reaches nothing completes with a bus error, on Hearth and in the protocol. -/
theorem State.hostWrite_none (s : State) (path : Path) (a : Nat) (bs : List Byte) (hp : ∀ p, path ≠ .bar p)
    (h : targetOf a bs.length = none) : s.hostWrite path a bs = s.emit (.busError path a) := by
  cases path with
  | bar p => exact absurd rfl (hp p)
  | hearth => simp only [State.hostWrite, State.writeAt, h]
  | cz c => simp only [State.hostWrite, State.writeAt, h]

/-- A read that reaches nothing completes with a bus error, on Hearth and in the protocol. -/
theorem State.hostRead_none (s : State) (path : Path) (a len : Nat) (hp : ∀ p, path ≠ .bar p)
    (h : targetOf a len = none) : s.hostRead path a len = s.emit (.busError path a) := by
  cases path with
  | bar p => exact absurd rfl (hp p)
  | hearth => simp only [State.hostRead, State.readAt, h]
  | cz c => simp only [State.hostRead, State.readAt, h]

/-- A word written at a register that takes it is written by the access types of its fields. -/
theorem State.hostWrite_reg (s : State) (path : Path) (a : Nat) (bs : List Byte) (k : RegKey)
    (h : targetOf a bs.length = some (.reg k)) (hk : s.refusedByTile k = false) :
    s.hostWrite path a bs = (s.writeReg k.1 k.2 (ofLe bs)).emit (.writeDone path a) := by
  simp only [State.hostWrite, State.writeAt, h, hk, Bool.false_eq_true, if_false]

/-- A read at a register returns the register's word, little-endian. -/
theorem State.hostRead_reg (s : State) (path : Path) (a len : Nat) (k : RegKey) (h : targetOf a len = some (.reg k)) :
    s.hostRead path a len = (s.readReg k.1 k.2).2.emit (.readDone path a (leBytes 4 (s.readReg k.1 k.2).1)) := by
  simp only [State.hostRead, State.readAt, h]

/-- Only a register of a GT block can refuse a write (R12). -/
theorem State.refusedByTile_of_block (s : State) (k : RegKey) (h : k.1.desc.block ≠ .GT) : s.refusedByTile k = false := by
  simp [State.refusedByTile, h]

/-- Settles O6, from the paths of a host access: what is not an aligned word ends before it reaches a register. -/
theorem registerAccessesAreAlignedWords : Obligations.RegisterAccessesAreAlignedWords := by
  refine ⟨fun s path a bs hp hc hb => ?_, fun s path a len hp hc hb => ?_, fun s path a bs k hl ht hk => ?_,
    fun s path a k ht => ?_⟩
  · exact congrArg _ (s.hostWrite_none path a.toNat bs hp (targetOf_control_none _ _ hc hb))
  · exact congrArg _ (s.hostRead_none path a.toNat len hp (targetOf_control_none _ _ hc hb))
  · exact congrArg _ (s.hostWrite_reg path a.toNat bs k (hl ▸ ht) hk)
  · exact congrArg _ (s.hostRead_reg path a.toNat 4 k ht)

/-! ## Registers of each access type (R11) -/

/-- Clearing the bits of a mask leaves the others. -/
theorem testBit_sub_and (a m i : Nat) : (a - (a &&& m)).testBit i = (a.testBit i && !m.testBit i) := by
  have hle : a &&& m ≤ a := Nat.and_le_left
  have hdiv : (a &&& m) / 2 = a / 2 &&& m / 2 := Nat.and_div_two
  have hmod : (a &&& m) % 2 = a % 2 &&& m % 2 := Nat.and_mod_two_pow (n := 1)
  have hlow : (a &&& m) % 2 ≤ a % 2 := hmod ▸ Nat.and_le_left
  induction i generalizing a m with
  | zero =>
    have hsub : (a - (a &&& m)) % 2 = a % 2 - (a &&& m) % 2 := by omega
    rw [Nat.testBit_zero, Nat.testBit_zero, Nat.testBit_zero, hsub, hmod]
    rcases Nat.mod_two_eq_zero_or_one a with ha | ha <;> rcases Nat.mod_two_eq_zero_or_one m with hm | hm <;>
      simp [ha, hm]
  | succ i ih =>
    have hsub : (a - (a &&& m)) / 2 = a / 2 - (a / 2 &&& m / 2) := by omega
    rw [Nat.testBit_succ, Nat.testBit_succ, Nat.testBit_succ, hsub]
    have hmod' : (a / 2 &&& m / 2) % 2 = a / 2 % 2 &&& m / 2 % 2 := Nat.and_mod_two_pow (n := 1)
    exact ih (a / 2) (m / 2) Nat.and_le_left Nat.and_div_two hmod' (hmod' ▸ Nat.and_le_left)

/-- A write of a register with neither RW nor W1C fields only stages it (R205). -/
theorem State.writeFields_staged (s : State) (r : Reg) (i v : Nat) (h : r.rwMask i ||| r.bitsOf .W1C = 0)
    (hst : r.stMask i ≠ 0) : s.writeFields r i v = s.stageHost (r, i) v := by
  simp [State.writeFields, State.when, h, hst]

/-- A write of a register with W1C fields alone clears the bits of theirs that are written 1. -/
theorem State.writeFields_w1c (s : State) (r : Reg) (i v : Nat) (hrw : r.rwMask i = 0) (hst : r.stMask i = 0)
    (h : r.bitsOf .W1C ≠ 0) : s.writeFields r i v = s.setReg r i (BitVec.ofNat 32
      ((s.reg r i).toNat - ((s.reg r i).toNat &&& (v &&& r.bitsOf .W1C)))) := by
  simp [State.writeFields, State.when, hrw, hst, h, mergeBits]

theorem State.stagedReg_stageHost_same (s : State) (r : Reg) (i v : Nat) : (s.stageHost (r, i) v).stagedReg r i =
    BitVec.ofNat 32 (mergeBits (r.stMask i) (s.stagedReg r i).toNat v) := by
  simp [State.stageHost, State.stage, State.stagedReg]

theorem State.stagedReg_stageHost_ne (s : State) (k : RegKey) (r : Reg) (i v : Nat) (h : (r, i) ≠ k) :
    (s.stageHost k v).stagedReg r i = s.stagedReg r i := by
  have hv : (s.stageHost k v).reg r i = s.reg r i := rfl
  simp only [State.stagedReg, hv]
  exact Table.getD_insert_ne RegKey.lt _ _ _ _ _ h

/-- A read of EVQ_DROPPED returns the count and clears it. -/
theorem State.readReg_dropped (s : State) : s.readReg .EVQ_DROPPED 0 =
    (s.fld EVQ_DROPPED.DROPPED 0, s.setReg .EVQ_DROPPED 0 0) := by
  have hr : (s.reg .EVQ_DROPPED 0).toNat < 2 ^ 32 := (s.reg .EVQ_DROPPED 0).isLt
  have hall : (s.reg .EVQ_DROPPED 0).toNat &&& (2 ^ 32 - 1) = (s.reg .EVQ_DROPPED 0).toNat := by
    rw [Nat.and_two_pow_sub_one_eq_mod, Nat.mod_eq_of_lt hr]
  have hrc : Reg.bitsOf .EVQ_DROPPED .RC = 2 ^ 32 - 1 := by decide
  have hwo : Reg.bitsOf .EVQ_DROPPED .WO = 0 := by decide
  have hm : mergeBits (Reg.bitsOf .EVQ_DROPPED .RC) (s.reg .EVQ_DROPPED 0).toNat 0 = 0 := by
    rw [hrc, mergeBits, hall, Nat.zero_and, Nat.sub_self]
  have hv : s.regValue .EVQ_DROPPED 0 = s.fld EVQ_DROPPED.DROPPED 0 := by
    show (s.reg .EVQ_DROPPED 0).toNat % 2 ^ 32 - ((s.reg .EVQ_DROPPED 0).toNat % 2 ^ 32 &&& Reg.bitsOf .EVQ_DROPPED .WO) = _
    simp [hwo, State.fld, bits]
  have hrc' : (Reg.bitsOf .EVQ_DROPPED .RC != 0) = true := by decide
  simp [State.readReg, hv, hrc', Reg.captures, hm]

/-- A read of CNV_SEQ_LO returns the low word of the last closed block's count and captures the high word (R66). -/
theorem State.readReg_seqLo (s : State) (k : Nat) : s.readReg .CNV_SEQ_LO k = (s.lastClosed k % 2 ^ 32,
    { s with capt := Table.put RegKey.lt 0 s.capt (.CNV_SEQ_HI, k) (BitVec.ofNat 32 (s.lastClosed k / 2 ^ 32)) }) := by
  have hrc : Reg.bitsOf .CNV_SEQ_LO .RC = 0 := by decide
  have hwo : Reg.bitsOf .CNV_SEQ_LO .WO = 0 := by decide
  have hv : s.regValue .CNV_SEQ_LO k = s.lastClosed k % 2 ^ 32 := by
    show halfWord (s.lastClosed k) false % 2 ^ 32 - (halfWord (s.lastClosed k) false % 2 ^ 32 &&& Reg.bitsOf .CNV_SEQ_LO .WO) = _
    simp [hwo, halfWord]
  have hh : BitVec.ofNat 32 (s.live .CNV_SEQ_HI k) = BitVec.ofNat 32 (s.lastClosed k / 2 ^ 32) := by
    show BitVec.ofNat 32 (halfWord (s.lastClosed k) true) = _
    apply BitVec.eq_of_toNat_eq
    simp [halfWord]
  simp only [State.readReg, hv, hrc]
  simp [Reg.captures, hh]

/-- A host's word at SYS_ID, whose fields are read-only, changes nothing. -/
theorem State.hostWrite_sysId (s : State) (path : Path) (a : Nat) (bs : List Byte) (hl : bs.length = 4)
    (ht : targetOf a 4 = some (.reg (.SYS_ID, 0))) : s.hostWrite path a bs = s.emit (.writeDone path a) := by
  have hro : s.writeReg .SYS_ID 0 (ofLe bs) = s := rfl
  rw [s.hostWrite_reg path a bs _ (hl ▸ ht) (s.refusedByTile_of_block _ (by decide)), hro]

/-- A host's word at CNV_CH_CFG is staged. -/
theorem State.hostWrite_chCfg (s : State) (path : Path) (a c : Nat) (v : BitVec 32)
    (ht : targetOf a 4 = some (.reg (.CNV_CH_CFG, c))) : s.hostWrite path a (leBytes 4 v.toNat) =
      (s.stageHost (.CNV_CH_CFG, c) v.toNat).emit (.writeDone path a) := by
  have hb : Reg.CNV_CH_CFG.desc.block ≠ .GT := by decide
  have hrw : Reg.mask .CNV_CH_CFG (fun a => a == .RW) ||| Reg.bitsOf .CNV_CH_CFG .W1C = 0 := by decide
  have hst : Reg.mask .CNV_CH_CFG (fun a => a == .ST) ≠ 0 := by decide
  have hreg : s.writeReg .CNV_CH_CFG c v.toNat = s.stageHost (.CNV_CH_CFG, c) v.toNat :=
    s.writeFields_staged .CNV_CH_CFG c _ hrw hst
  rw [s.hostWrite_reg path a _ _ (by rwa [leBytes_length]) (s.refusedByTile_of_block (.CNV_CH_CFG, c) hb),
    ofLe_leBytes_word, hreg]

/-- A host's word at CNV_CH_FLAGS clears the flags that are written 1. -/
theorem State.hostWrite_chFlags (s : State) (path : Path) (a c : Nat) (v : BitVec 32)
    (ht : targetOf a 4 = some (.reg (.CNV_CH_FLAGS, c))) : s.hostWrite path a (leBytes 4 v.toNat) =
      (s.setReg .CNV_CH_FLAGS c (BitVec.ofNat 32 ((s.reg .CNV_CH_FLAGS c).toNat -
        ((s.reg .CNV_CH_FLAGS c).toNat &&& v.toNat % 2 ^ 4)))).emit (.writeDone path a) := by
  have hb : Reg.CNV_CH_FLAGS.desc.block ≠ .GT := by decide
  have hmask : Reg.bitsOf .CNV_CH_FLAGS .W1C = 2 ^ 4 - 1 := by decide
  have hreg : s.writeReg .CNV_CH_FLAGS c v.toNat = s.writeFields .CNV_CH_FLAGS c v.toNat := rfl
  rw [s.hostWrite_reg path a _ _ (by rwa [leBytes_length]) (s.refusedByTile_of_block (.CNV_CH_FLAGS, c) hb),
    ofLe_leBytes_word, hreg, s.writeFields_w1c .CNV_CH_FLAGS c v.toNat rfl rfl (by decide), hmask,
    Nat.and_two_pow_sub_one_eq_mod]

/-- Bit b of a word from which the low four bits of v were cleared. -/
theorem getLsbD_cleared (r v : BitVec 32) (b : Nat) :
    (BitVec.ofNat 32 (r.toNat - (r.toNat &&& v.toNat % 2 ^ 4))).getLsbD b =
      (r.getLsbD b && !(decide (b < 4) && v.getLsbD b)) := by
  rw [BitVec.getLsbD_ofNat, testBit_sub_and, Nat.testBit_mod_two_pow]
  by_cases h32 : b < 32
  · simp [h32, BitVec.getLsbD]
  · simp [h32, BitVec.getLsbD_of_ge _ _ (Nat.le_of_not_lt h32)]

/-- Settles O7, from what a host's access does to a register of each access type. -/
theorem accessTypesAtWork : Obligations.AccessTypesAtWork := by
  refine ⟨fun s path a bs hl ht => ?_, fun s path a c v ht => ?_, fun s path a c v ht => ?_,
    fun s path a ht => ?_, fun s path a k ht => ?_⟩
  · exact congrArg Host.Outcome.next (s.hostWrite_sysId path a.toNat bs hl ht)
  · exact ⟨_, congrArg Host.Outcome.next (s.hostWrite_chCfg path a.toNat c v ht), rfl, rfl,
      s.stagedReg_stageHost_same .CNV_CH_CFG c v.toNat,
      fun r i h => s.stagedReg_stageHost_ne (.CNV_CH_CFG, c) r i v.toNat h⟩
  · refine ⟨_, congrArg Host.Outcome.next (s.hostWrite_chFlags path a.toNat c v ht), rfl,
      fun r i h => s.reg_setReg_ne .CNV_CH_FLAGS r c i _ h, fun b => ?_⟩
    exact (congrArg (·.getLsbD b) (s.reg_setReg_same .CNV_CH_FLAGS c _)).trans (getLsbD_cleared _ v b)
  · have hread := s.hostRead_reg path a.toNat 4 _ ht
    rw [s.readReg_dropped] at hread
    refine ⟨_, congrArg Host.Outcome.next hread, rfl, ?_, fun r i h => s.reg_setReg_ne .EVQ_DROPPED r 0 i 0 h⟩
    exact congrArg (fun w : Word => bits w.toNat 31 0) (s.reg_setReg_same .EVQ_DROPPED 0 0)
  · have hread := s.hostRead_reg path a.toNat 4 _ ht
    rw [s.readReg_seqLo] at hread
    exact ⟨_, congrArg Host.Outcome.next hread, rfl, Table.getD_put_same _ _ _ _ _,
      fun q h => Table.getD_put_ne _ _ _ _ _ _ _ h⟩

end Sys2Proof.Machine
end

section
/-! PROOFS. What the operations that wind the engine down leave alone: the recovery ladder (R570 to R583) runs them
before it resets the engine, and rests on what they keep. -/

namespace Sys2Proof.Machine

/-! ## The relation -/

/-- Registers that the ladder itself writes, and SYS_PRG_STATUS, which it only resets. -/
def ladderReg (r : Reg) : Bool :=
  match r with
  | .SYS_PM | .SYS_RCV_STAT | .SYS_PRG_STATUS => true
  | _ => false

/-- From s to t, what `view` shows and the ladder's registers are as they were, and the logs of events only grow. -/
structure Keeps (view : State → State) (s t : State) : Prop where
  same : view t = view s
  count : s.evq.count ≤ t.evq.count
  attic : s.evq.attic <+: t.evq.attic
  reg : ∀ r i, ladderReg r = true → t.reg r i = s.reg r i

/-- What the reset of the engine and the ladder's commands rely on while the engine winds down. -/
def engineView (s : State) : State :=
  { now := s.now, dev := s.dev, prog := s.prog, rcv := s.rcv, pwr := s.pwr, cal := s.cal, pan := s.pan, sec := s.sec
    tiles := s.tiles, trg := { tout := s.trg.tout } }

/-- Beside that memory, the cellar's state, and the jobs and descriptors that could still write memory. -/
def storeView (s : State) : State :=
  { engineView s with mem := s.mem, cel := s.cel, trg := { tout := s.trg.tout, jobs := s.trg.jobs }
                      dma := { chans := s.dma.chans } }

section
variable {view : State → State} {s t u : State}

theorem Keeps.refl (s : State) : Keeps view s s := ⟨rfl, Nat.le_refl _, List.prefix_refl _, fun _ _ _ => rfl⟩

theorem Keeps.of_eq (h : t = s) : Keeps view s t := h ▸ .refl t

theorem Keeps.trans (h : Keeps view s t) (k : Keeps view t u) : Keeps view s u :=
  ⟨k.same.trans h.same, h.count.trans k.count, h.attic.trans k.attic, fun r i x => (k.reg r i x).trans (h.reg r i x)⟩

/-- An update that leaves the events and the registers alone keeps what it does not show. -/
theorem Keeps.of_fields (hv : view t = view s) (he : t.evq = s.evq) (hr : t.regs = s.regs) : Keeps view s t :=
  ⟨hv, he ▸ Nat.le_refl _, he ▸ List.prefix_refl _, fun r i _ => by simp only [State.reg, hr]⟩

/-- What can be read off the view is as it was. -/
theorem Keeps.eq {α : Type} (h : Keeps view s t) (p : State → α) : p (view t) = p (view s) := congrArg p h.same

theorem Keeps.engine (h : Keeps storeView s t) : Keeps engineView s t :=
  ⟨h.eq engineView, h.count, h.attic, h.reg⟩

theorem Keeps.after (k : Keeps view t u) (hv : view t = view s) (he : t.evq = s.evq) (hr : t.regs = s.regs) :
    Keeps view s u := (Keeps.of_fields hv he hr).trans k

theorem Keeps.ite {c : Prop} [Decidable c] (h : Keeps view s t) (k : Keeps view s u) :
    Keeps view s (if c then t else u) := by
  split
  · exact h
  · exact k

theorem Keeps.over {α : Type} {f : State → α → State} (h : ∀ s a, Keeps view s (f s a)) (s : State) (l : List α) :
    Keeps view s (s.over l f) := by
  induction l generalizing s with
  | nil => exact .refl s
  | cons a l ih => exact (h s a).trans (ih (f s a))

theorem Keeps.each {f : State → Nat → State} (h : ∀ s a, Keeps view s (f s a)) (s : State) (n : Nat) :
    Keeps view s (s.each n f) := Keeps.over h s (List.range n)

theorem Keeps.when {f : State → State} (h : ∀ s, Keeps view s (f s)) (s : State) (c : Bool) :
    Keeps view s (s.when c f) := .ite (h s) (.refl s)

theorem Keeps.now (h : Keeps engineView s t) : t.now = s.now := h.eq State.now
theorem Keeps.dev (h : Keeps engineView s t) : t.dev = s.dev := h.eq State.dev
theorem Keeps.prog (h : Keeps engineView s t) : t.prog = s.prog := h.eq State.prog
theorem Keeps.rcv (h : Keeps engineView s t) : t.rcv = s.rcv := h.eq State.rcv
theorem Keeps.pwr (h : Keeps engineView s t) : t.pwr = s.pwr := h.eq State.pwr
theorem Keeps.cal (h : Keeps engineView s t) : t.cal = s.cal := h.eq State.cal
theorem Keeps.pan (h : Keeps engineView s t) : t.pan = s.pan := h.eq State.pan
theorem Keeps.tiles (h : Keeps engineView s t) : t.tiles = s.tiles := h.eq State.tiles
theorem Keeps.tout (h : Keeps engineView s t) : t.trg.tout = s.trg.tout := h.eq (fun v => v.trg.tout)
theorem Keeps.mem (h : Keeps storeView s t) : t.mem = s.mem := h.eq State.mem
theorem Keeps.cel (h : Keeps storeView s t) : t.cel = s.cel := h.eq State.cel
theorem Keeps.jobs (h : Keeps storeView s t) : t.trg.jobs = s.trg.jobs := h.eq (fun v => v.trg.jobs)
theorem Keeps.dmaChans (h : Keeps storeView s t) : t.dma.chans = s.dma.chans := h.eq (fun v => v.dma.chans)

end

/-! ## Registers, outputs, timers, interrupts -/

theorem State.setReg_store (s : State) (r : Reg) (i : Nat) (v : Word) (h : ladderReg r = false) :
    Keeps storeView s (s.setReg r i v) :=
  ⟨rfl, Nat.le_refl _, List.prefix_refl _, fun q j hq => s.reg_setReg_ne r q i j v (by
    intro e
    cases e
    exact absurd (hq.symm.trans h) (by decide))⟩

theorem State.setFld_store (s : State) (f : Fld) (i v : Nat) (h : ladderReg f.reg = false) :
    Keeps storeView s (s.setFld f i v) := s.setReg_store _ _ _ h

theorem State.setFlag_store (s : State) (f : Fld) (i : Nat) (b : Bool) (h : ladderReg f.reg = false) :
    Keeps storeView s (s.setFlag f i b) := s.setReg_store _ _ _ h

theorem State.addFld_store (s : State) (f : Fld) (i n : Nat) (h : ladderReg f.reg = false) :
    Keeps storeView s (s.addFld f i n) := s.setReg_store _ _ _ h

theorem State.emit_store (s : State) (o : Out) : Keeps storeView s (s.emit o) := .of_fields rfl rfl rfl

theorem State.timerSet_store (s : State) (k : Nat) : Keeps storeView s (s.timerSet k) := .of_fields rfl rfl rfl

theorem State.irq_store (s : State) (n : Nat) : Keeps storeView s (s.irq n) := by
  obtain ⟨l, h⟩ := s.irq_sent n
  rw [h]
  exact .of_fields rfl rfl rfl

theorem State.pend_store (s : State) (p e : Fld) (i n : Nat) (h : ladderReg p.reg = false) :
    Keeps storeView s (s.pend p e i n) :=
  (s.setFlag_store p i true h).trans (.when (fun t => t.irq_store n) _ _)

/-! ## Events -/

/-- How many events have been raised, and the Attic's log. -/
def eventLog (s : State) : Nat × List AtticEntry := (s.evq.count, s.evq.attic)

theorem State.stat_evq (s : State) (off : Nat) (n : Int) : (s.stat off n).evq = s.evq := by
  unfold State.stat
  split <;> rfl

theorem State.evqDrop_eventLog (s : State) : eventLog s.evqDrop = eventLog s := by
  have h := State.stat_evq (s.addFld EVQ_DROPPED.DROPPED 0 1) 0xD6 1
  simp only [eventLog, State.evqDrop, h, State.addFld_evq]

theorem State.evqFlush_eventLog (n : Nat) (s : State) : eventLog (State.evqFlush n s) = eventLog s := by
  induction n generalizing s with
  | zero => rfl
  | succ n ih =>
    simp only [State.evqFlush]
    split
    · rfl
    · split
      · rfl
      · exact ih _

theorem State.evqPut_eventLog (s : State) (e : Event) : eventLog (s.evqPut e) = eventLog s := by
  unfold State.evqPut State.evqHold
  split
  · refine Eq.trans ?_ (State.evqFlush_eventLog 256 s)
    show eventLog (if (State.evqFlush 256 s).evqFull then _ else _) = _
    split
    · exact State.evqDrop_eventLog _
    · rfl
  · split
    · rfl
    · exact s.evqDrop_eventLog

theorem State.pushEvent_eventLog (s : State) (e : Event) : eventLog (s.pushEvent e) = eventLog s := by
  refine State.over_keeps eventLog s _ _ (fun t x => ?_)
  split
  · split <;> rfl
  · rfl

/-- Every event is counted. -/
theorem State.raise_count (s : State) (k : EventKind) (inst : Nat) (fs : List (Nat × Nat × Nat)) :
    (s.raise k inst fs).evq.count = s.evq.count + 1 := by
  refine (congrArg Prod.fst ((State.evqPut_eventLog _ _).trans (State.pushEvent_eventLog _ _))).trans ?_
  unfold eventLog State.when
  split <;> rfl

/-- An event appends to the Attic's log, or leaves it. -/
theorem State.raise_attic (s : State) (k : EventKind) (inst : Nat) (fs : List (Nat × Nat × Nat)) :
    s.evq.attic <+: (s.raise k inst fs).evq.attic := by
  rw [show (s.raise k inst fs).evq.attic = _ from
    congrArg Prod.snd ((State.evqPut_eventLog _ _).trans (State.pushEvent_eventLog _ _))]
  unfold eventLog State.when
  split
  · exact List.prefix_append _ _
  · exact List.prefix_refl _

theorem State.raise_store (s : State) (k : EventKind) (inst : Nat) (fs : List (Nat × Nat × Nat)) :
    Keeps storeView s (s.raise k inst fs) := by
  have h := s.raise_raised k inst fs
  refine ⟨(congrArg storeView h.1).trans rfl, ?_, s.raise_attic k inst fs, fun r i hr => h.2.1 r i ?_⟩
  · rw [s.raise_count k inst fs]
    exact Nat.le_succ _
  · intro e
    cases e
    cases hr

theorem State.stat_store (s : State) (off : Nat) (n : Int) : Keeps storeView s (s.stat off n) :=
  .ite (.refl s) (.of_fields rfl rfl rfl)

/-! ## Replays, records, streams -/

theorem State.replayEnd_store (s : State) (k status : Nat) : Keeps storeView s (s.replayEnd k status) := by
  have hr : Keeps storeView s (s.setReplay k { s.replay k with running := false }) := .of_fields rfl rfl rfl
  exact .ite (.refl s) (((hr.trans (State.setFld_store _ _ _ _ rfl)).trans (State.setFlag_store _ _ _ _ rfl)).trans
    (State.raise_store _ _ _ _))

theorem State.setDef_store (s : State) (d : Nat) (x : Def) : Keeps storeView s (s.setDef d x) := .of_fields rfl rfl rfl

theorem State.recDropped_store (s : State) (d cause : Nat) : Keeps storeView s (s.recDropped d cause) :=
  (((s.addFld_store TRG_DEF_CNT.DROPPED d 1 rfl).trans (State.stat_store _ _ _)).trans (State.setDef_store _ _ _)).trans
    (.when (fun t => t.raise_store _ _ _) _ _)

theorem State.setSub_store (s : State) (i : Nat) (x : Sub) : Keeps storeView s (s.setSub i x) := .of_fields rfl rfl rfl

theorem State.subDrop_store (s : State) (i n : Nat) : Keeps storeView s (s.subDrop i n) :=
  .ite (.refl s) ((((s.addFld_store STM_SUB_DROPS.COUNT i n rfl).trans (State.stat_store _ _ _)).trans
    (State.setSub_store _ _ _)).trans (.when (fun t => t.raise_store _ _ _) _ _))

theorem State.subLeave_store (s : State) (i cause : Nat) : Keeps storeView s (s.subLeave i cause) :=
  (((Keeps.each (fun t _ => t.setReg_store _ _ _ rfl) s 16).trans
    (.when (fun t => t.setFlag_store _ _ _ rfl) _ _)).trans (State.setSub_store _ _ _)).trans (State.raise_store _ _ _ _)

theorem State.streamsHold_store (s : State) : Keeps storeView s s.streamsHold :=
  (Keeps.over (fun t i => ((t.setSub_store i _).trans (.when (fun u => u.subDrop_store i 1) _ _)).trans
    (.when (fun u => u.subLeave_store i 0) _ _)) s s.joined).trans (.of_fields rfl rfl rfl)

/-! ## Log sets -/

theorem State.nvmSend_store (s : State) (d : Nat) (io : Bool) (op : Nat) (args : List Nat) (bs : List Byte) :
    Keeps storeView s (s.nvmSend d io op args bs) := .ite (s.emit_store _) (.refl s)

theorem State.nvmRelease_store (s : State) (d : Nat) : Keeps storeView s (s.nvmRelease d) :=
  .each (fun t _ => (t.nvmSend_store _ _ _ _ _).trans (State.nvmSend_store _ _ _ _ _ _)) s _

theorem State.setDrive_store (s : State) (d : Nat) (x : NvmDrive) : Keeps storeView s (s.setDrive d x) :=
  .of_fields rfl rfl rfl

theorem State.stopSet_store (s : State) (n : Nat) : Keeps storeView s (s.stopSet n) :=
  (Keeps.over (fun t d => ((Keeps.over (fun u _ => u.subDrop_store _ 1) t _).trans
    (.when (fun u => u.nvmRelease_store d) _ _)).trans (State.setDrive_store _ d {})) s _).trans
    (State.setFld_store _ _ _ _ rfl)

/-! ## Fabric -/

theorem State.addFld_noRoute_store (s : State) : Keeps storeView s s.noRoute := s.addFld_store _ _ _ rfl

theorem State.fabSend_store (s : State) (p : Nat) (args : List Nat) (bs : List Byte) :
    Keeps storeView s (s.fabSend p args bs) := .of_fields rfl rfl rfl

theorem State.fabOut_store (s : State) (p type : Nat) (bcast : Bool) (h : FabHdr) (bs : List Byte) :
    Keeps storeView s (s.fabOut p type bcast h bs) := s.fabSend_store _ _ _

theorem State.seqNext_store (s : State) : Keeps storeView s s.seqNext := .of_fields rfl rfl rfl

theorem State.sendRouted_store (s : State) (type dst flow : Nat) (bs : List Byte) :
    Keeps storeView s (s.sendRouted type dst flow bs).2 := by
  unfold State.sendRouted
  dsimp only
  split
  · exact s.addFld_noRoute_store
  · exact (s.fabOut_store _ _ _ _ _).trans (State.seqNext_store _)

theorem State.askCredit_store (s : State) (dst n : Nat) : Keeps storeView s (s.askCredit dst n) :=
  .ite (.refl s) (.ite ((s.sendRouted_store _ _ _ _).trans (.of_fields rfl rfl rfl)) (s.sendRouted_store _ _ _ _))

theorem State.sendPiece_store (s : State) (dst flow type id off : Nat) (data : List Byte) (r : Bool × State)
    (h : s.sendPiece dst flow type id off data = some r) : Keeps storeView s r.2 := by
  unfold State.sendPiece at h
  dsimp only at h
  split at h
  · cases h
  · cases h
    exact (State.sendRouted_store _ _ _ _ _).after rfl rfl rfl

theorem State.xferStep_store (s : State) (x : FabXfer) (r : Option FabXfer × State)
    (h : s.xferStep x = some r) : Keeps storeView s r.2 := by
  unfold State.xferStep at h
  dsimp only at h
  split at h
  · obtain ⟨q, hq, rfl⟩ := Option.map_eq_some_iff.mp h
    exact s.sendPiece_store _ _ _ _ _ _ q hq
  · obtain ⟨q, hq, rfl⟩ := Option.map_eq_some_iff.mp h
    exact s.sendPiece_store _ _ _ _ _ _ q hq

theorem State.xferRun_store (n : Nat) (s : State) (x : FabXfer) : Keeps storeView s (State.xferRun n s x).2 := by
  induction n generalizing s x with
  | zero => exact .refl s
  | succ n ih =>
    unfold State.xferRun
    split
    · exact .refl s
    · next t h => exact s.xferStep_store x (none, t) h
    · next y t h => exact (s.xferStep_store x (some y, t) h).trans (ih t y)

theorem State.xferPump_store (s : State) (dst : Nat) : Keeps storeView s (s.xferPump dst) := by
  refine Keeps.after (.over (fun t x => ?_) _ s.fab.xfers) rfl rfl rfl
  have hr : Keeps storeView t (if x.dst = dst then State.xferRun (x.data.length / pieceMax + 2) t x else (some x, t)).2 := by
    split
    · exact State.xferRun_store _ t x
    · exact .refl t
  dsimp only
  split
  · exact hr.trans (.of_fields rfl rfl rfl)
  · exact hr

theorem State.startXfer_store (s : State) (dst req : Nat) (data entry : List Byte) :
    Keeps storeView s (s.startXfer dst req data entry) :=
  ((State.askCredit_store _ _ _).trans (State.xferPump_store _ _)).after rfl rfl rfl

/-! ## Domains that drain -/

theorem State.dmaDrained_store (s : State) (dom : Nat) : Keeps storeView s (s.dmaDrained dom) := by
  unfold State.dmaDrained
  split
  · exact .refl s
  · next n _ =>
    have hd : Keeps storeView s (({ s with dma := { s.dma with draining := Table.erase s.dma.draining dom } } : State).raise
        Ev.DMA_DRAINED 0 [(0, 1, dom), (1, 2, n)]) := (State.raise_store _ _ _ _).after rfl rfl rfl
    refine .ite (.refl s) (.ite hd (hd.trans ?_))
    refine ((State.setFlag_store _ PCI_STATUS.DRAINING (dom - 1) false rfl).trans
      (State.setFlag_store _ PCI_STATUS.LINK_UP (dom - 1) false rfl)).trans ?_
    exact .when (fun t => t.raise_store _ _ _) _ _

theorem State.dmaDrain_store (s : State) (dom : Nat) : Keeps storeView s (s.dmaDrain dom) :=
  (((State.timerSet_store _ _).trans (.when (fun t => t.setFlag_store _ _ _ rfl) _ _)).trans
    (State.dmaDrained_store _ _)).after rfl rfl rfl

end Sys2Proof.Machine
end

section
/-! PROOFS. Descriptors, completions, losses and the ring writer keep what the reset of the engine relies on (R314,
R543, R574). -/

namespace Sys2Proof.Machine

theorem State.setFld_engine (s : State) (f : Fld) (i v : Nat) (h : ladderReg f.reg = false) :
    Keeps engineView s (s.setFld f i v) := (s.setFld_store f i v h).engine

theorem State.setCel_engine (s : State) (c : CelState) : Keeps engineView s { s with cel := c } := .of_fields rfl rfl rfl

/-! ## Memory -/

theorem State.setBytes_engine (s : State) (a : Nat) (bs : List Byte) : Keeps engineView s (s.setBytes a bs) := by
  rw [s.setBytes_shape a bs]
  exact .of_fields rfl rfl rfl

theorem State.devWrite_engine (s : State) (a : Nat) (bs : List Byte) : Keeps engineView s (s.devWrite a bs) := by
  rw [s.devWrite_shape a bs]
  exact .of_fields rfl rfl rfl

theorem State.tilePut_engine (s : State) (a : Nat) (bs : List Byte) : Keeps engineView s (s.tilePut a bs) := by
  rw [s.tilePut_shape a bs]
  exact .of_fields rfl rfl rfl

theorem State.memLog_engine (s : State) (source : Nat) (write : Bool) (a n : Nat) :
    Keeps engineView s (s.memLog source write a n) := .of_fields rfl rfl rfl

theorem State.devPut_engine (s : State) (source a : Nat) (bs : List Byte) : Keeps engineView s (s.devPut source a bs) :=
  (s.devWrite_engine a bs).trans (State.memLog_engine _ _ _ _ _)

theorem State.readBy_engine (s : State) (source a n : Nat) : Keeps engineView s (s.readBy source a n) :=
  (Keeps.when (fun t => (t.addFld_store CEL_POISON.COUNT 0 1 rfl).engine) s _).trans (State.memLog_engine _ _ _ _ _)

theorem State.physPut_engine (s : State) (source a : Nat) (bs : List Byte) (t : State)
    (h : s.physPut source a bs = some t) : Keeps engineView s t := by
  unfold State.physPut at h
  split at h
  · split at h
    · cases h
    · cases h
      exact (s.setBytes_engine a bs).trans (State.memLog_engine _ _ _ _ _)
  · split at h
    · split at h
      · cases h
        exact s.tilePut_engine a bs
      · cases h
    · cases h

/-! ## Descriptors -/

theorem State.spaceRead_engine (s : State) (space a n : Nat) : Keeps engineView s (s.spaceRead space a n) :=
  .ite (.refl s) (.ite (s.readBy_engine _ _ _) (.over (fun t _ => (t.emit_store _).engine) s _))

theorem State.spaceWrite_engine (s : State) (space a : Nat) (bs : List Byte) :
    Keeps engineView s (s.spaceWrite space a bs) := .ite (s.devPut_engine _ _ _) (s.emit_store _).engine

theorem State.setDma_engine (s : State) (c : Nat) (d : Dma) : Keeps engineView s (s.setDma c d) := .of_fields rfl rfl rfl

theorem State.dmaPut_engine (d : Dma) (n : Nat) (s : State) (i : Nat) (bs : List Byte) :
    Keeps engineView s (State.dmaPut d n s i bs) := by
  induction n generalizing s i bs with
  | zero => exact .refl s
  | succ n ih =>
    cases bs with
    | nil => exact .refl s
    | cons b bs => exact (s.spaceWrite_engine _ _ _).trans (ih _ _ _)

theorem State.dmaMove_engine (s : State) (d : Dma) (ext : List Byte) (i j : Nat) :
    Keeps engineView s (s.dmaMove d ext i j).2 :=
  ((Keeps.when (fun t => .over (fun u _ => u.spaceRead_engine _ _ _) t _) s _).trans (State.dmaPut_engine _ _ _ _ _)).trans
    (.of_fields rfl rfl rfl)

theorem State.dmaLoose_engine (s : State) (d : Dma) (ext : List Byte) (base i : Nat) :
    Keeps engineView s (s.dmaLoose d ext base i) := by
  unfold State.dmaLoose
  extract_lets idx t
  have ht : Keeps engineView s t := Keeps.over (fun u _ => State.dmaPut_engine _ _ u _ _) s _
  exact ht.trans (.of_fields rfl rfl rfl)

theorem State.dmaUr_engine (s : State) (d : Dma) : Keeps engineView s (s.dmaUr d) := by
  unfold State.dmaUr
  dsimp only
  split
  · exact .refl s
  · exact (s.addFld_store _ _ _ rfl).engine

theorem State.dmaHalt_engine (s : State) (c status : Nat) (unwritten : Bool) :
    Keeps engineView s (s.dmaHalt c status unwritten) :=
  ((((s.setFld_store DMA_CH_STAT.STATE c dmHALTED rfl).trans (State.setFld_store _ _ _ _ rfl)).engine).trans
    (State.setDma_engine _ _ _)).trans (State.raise_store _ _ _ _).engine

theorem State.dmaComplete_engine (s : State) (c status done : Nat) (diff : Option Nat) :
    Keeps engineView s (s.dmaComplete c status done diff) := by
  unfold State.dmaComplete
  extract_lets d bad lost cmp written s2 s3 s4 s5
  have h2 : Keeps engineView s s2 := .ite (.refl s) ((s.spaceWrite_engine _ _ _).trans (State.spaceWrite_engine _ _ _ _))
  have h3 : Keeps engineView s2 s3 := ((s2.addFld_store _ _ _ rfl).trans (State.setFld_store _ _ _ _ rfl)).engine
  have h4 : Keeps engineView s3 s4 := .when (fun t => (t.pend_store _ _ _ _ rfl).engine) s3 _
  have h5 : Keeps engineView s4 s5 :=
    .ite ((s4.setDma_engine _ _).trans (State.setFld_engine _ _ _ _ rfl))
      (.ite (s4.dmaHalt_engine _ _ _) ((s4.setDma_engine _ _).trans (State.setFld_engine _ _ _ _ rfl)))
  exact (((h2.trans h3).trans h4).trans h5).trans (.each (fun t dom => (t.dmaDrained_store dom).engine) s5 3)

theorem State.dmaReadback_engine (s : State) (c : Nat) (ending : Option Nat) : Keeps engineView s (s.dmaReadback c ending) :=
  (s.setDma_engine _ _).trans (State.spaceRead_engine _ _ _ _)

theorem State.dmaEnd_engine (s : State) (c status done : Nat) : Keeps engineView s (s.dmaEnd c status done) :=
  (s.setDma_engine c { s.dmaCh c with done := done }).trans
    (.ite (State.dmaComplete_engine _ _ _ _ _) (State.dmaReadback_engine _ _ _))

theorem State.dmaCompareEnd_engine (s : State) (c status : Nat) (src dst : List Byte) :
    Keeps engineView s (s.dmaCompareEnd c status src dst) := (State.dmaComplete_engine _ _ _ _ _).after rfl rfl rfl

/-- The bytes that moved, and the descriptor's end where one of them could not be written or read. -/
theorem State.dmaLoose_dmaEnd_engine (s : State) (d : Dma) (ext : List Byte) (base i c status : Nat) :
    Keeps engineView s ((s.dmaLoose d ext base i).dmaEnd c status i) :=
  (s.dmaLoose_engine _ _ _ _).trans (State.dmaEnd_engine _ _ _ _)

theorem State.when_dmaUr_engine (s : State) (error : Bool) (d : Dma) : Keeps engineView s (s.when error (·.dmaUr d)) :=
  .when (fun t => t.dmaUr_engine d) s error

theorem State.dmaAcked_engine (s : State) (c n : Nat) (src : List Byte) (error : Bool) :
    Keeps engineView s (s.dmaAcked c n src error) := by
  unfold State.dmaAcked
  extract_lets d cut most upto r
  have hr : Keeps engineView s r.2 := (s.when_dmaUr_engine error d).trans (State.dmaMove_engine _ _ _ _ _)
  refine .ite (.refl s) (hr.trans ?_)
  refine .ite (State.dmaLoose_dmaEnd_engine _ _ _ _ _ _ _) (.ite (State.dmaLoose_dmaEnd_engine _ _ _ _ _ _ _) ?_)
  split
  · exact State.dmaEnd_engine _ _ _ _
  · exact (State.setDma_engine _ _ _).trans (State.dmaReadback_engine _ _ _)

theorem State.dmaReadDone_engine (s : State) (c : Nat) (src dst : List Byte) (error : Bool) :
    Keeps engineView s (s.dmaReadDone c src dst error) := by
  unfold State.dmaReadDone
  extract_lets d t bad lost
  have ht : Keeps engineView s t := s.when_dmaUr_engine error d
  refine .ite (.refl s) (ht.trans (.ite (.ite (t.dmaCompareEnd_engine _ _ _ _) ?_) ?_))
  · split
    · exact t.dmaCompareEnd_engine _ _ _ _
    · refine .ite (t.dmaCompareEnd_engine _ _ _ _) ?_
      split
      · exact t.dmaComplete_engine _ _ _ _
      · exact t.dmaComplete_engine _ _ _ _
  · split
    · exact t.dmaComplete_engine _ _ _ _
    · refine .ite (t.dmaComplete_engine _ _ _ _) (.ite (t.dmaComplete_engine _ _ _ _) ?_)
      exact (Keeps.when (fun u => u.spaceWrite_engine _ _ _) t _).trans (State.dmaComplete_engine _ _ _ _ _)

theorem State.dmaPiece_engine (s : State) (c : Nat) (src : List Byte) (error : Bool) :
    Keeps engineView s (s.dmaPiece c src error) := by
  unfold State.dmaPiece
  extract_lets d upto got r t
  have hr : Keeps engineView s r.2 := (s.when_dmaUr_engine error d).trans (State.dmaMove_engine _ _ _ _ _)
  have ht : Keeps engineView r.2 t := State.spaceRead_engine _ _ _ _
  refine .ite (.refl s) (hr.trans ?_)
  refine .ite (State.dmaLoose_dmaEnd_engine _ _ _ _ _ _ _) (.ite (State.dmaLoose_dmaEnd_engine _ _ _ _ _ _ _) ?_)
  exact ht.trans (.ite (t.dmaEnd_engine _ _ _) ((t.setDma_engine _ _).trans (State.spaceWrite_engine _ _ _ _)))

theorem State.dmaAbort_engine (s : State) (c : Nat) : Keeps engineView s (s.dmaAbort c) := by
  unfold State.dmaAbort
  extract_lets d t
  have ht : Keeps engineView s t := by
    refine .over (fun u dom => ?_) s _
    exact .of_fields rfl rfl rfl
  exact ht.trans ((t.setDma_engine _ _).trans (State.setFld_engine _ _ _ _ rfl))

theorem State.dmaDrainOut_engine (s : State) (c : Nat) : Keeps engineView s (s.dmaDrainOut c) := by
  unfold State.dmaDrainOut
  dsimp only
  refine .ite (.refl s) (.ite ?_ ?_)
  · exact ((Keeps.each (fun t _ => t.dmaPiece_engine _ _ _) s _).trans (State.dmaAcked_engine _ _ _ _ _)).trans
      (State.dmaReadDone_engine _ _ _ _ _)
  · exact ((Keeps.when (fun t => t.dmaAbort_engine c) s _).trans (State.dmaAcked_engine _ _ _ _ _)).trans
      (State.dmaReadDone_engine _ _ _ _ _)

/-! ## Completions, losses, pins, the landing buffer -/

/-- The body is taken from the function itself: unfolded at its operands, the kernel would evaluate the entry's address. -/
theorem State.putCompletion_engine (s : State) (e : List Byte) : Keeps engineView s (s.putCompletion e) := by
  obtain ⟨f, hf⟩ : ∃ f, f = State.putCompletion := ⟨_, rfl⟩
  rw [← hf]
  delta State.putCompletion at hf
  subst hf
  beta_reduce
  extract_lets +onlyGivenNames tail a
  cases h : s.physPut srcRecord a e with
  | none => exact .of_fields rfl rfl rfl
  | some t =>
    have ht : Keeps engineView s t := s.physPut_engine _ _ _ t h
    exact (ht.trans (t.setFld_engine TRG_RTC_PTR.TAIL 0 _ rfl)).trans (State.pend_store _ _ _ _ _ rfl).engine

theorem State.storeLoss_engine (s : State) (e : LossEntry) : Keeps engineView s (s.storeLoss e) := by
  unfold State.storeLoss
  split
  · exact .refl s
  · exact s.devPut_engine _ _ _

theorem State.rewriteLoss_engine (s : State) (e : LossEntry) : Keeps engineView s (s.rewriteLoss e) :=
  (s.storeLoss_engine e).trans (State.raise_store _ _ _ _).engine

theorem State.closeLoss_engine (s : State) (which : LossEntry → Bool) : Keeps engineView s (s.closeLoss which) :=
  (Keeps.over (fun t e => t.rewriteLoss_engine e) _ _).after rfl rfl rfl

theorem State.ackLoss_engine (s : State) : Keeps engineView s s.ackLoss := by
  unfold State.ackLoss
  split
  · exact .refl s
  · next e _ =>
    exact ((State.raise_store _ _ _ _).engine.trans (.when (fun t => t.rewriteLoss_engine e) _ _)).after rfl rfl rfl

theorem State.landRelief_engine (s : State) (q : Nat) : Keeps engineView s (s.landRelief q) := by
  unfold State.landRelief
  extract_lets t
  have ht : Keeps engineView s t :=
    .ite (((State.setFlag_store _ _ _ _ rfl).engine.trans (State.closeLoss_engine _ _)).after rfl rfl rfl) (.refl s)
  exact ht.trans (.when (fun u => (u.setFlag_store _ _ _ rfl).engine.trans (State.closeLoss_engine _ _)) t _)

theorem State.landRelieved_engine (s : State) : Keeps engineView s s.landRelieved :=
  (Keeps.over (fun t q => t.landRelief_engine q) s _).trans (State.landRelief_engine _ _)

theorem State.breakPin_engine (s : State) (j : Job) : Keeps engineView s (s.breakPin j) := by
  unfold State.breakPin
  dsimp only
  split
  · exact (State.stat_store _ _ _).engine.after rfl rfl rfl
  · exact (State.raise_store _ _ _ _).engine.after rfl rfl rfl

theorem State.breakPins_engine (s : State) (addr : Nat) (blk : SBlock) : Keeps engineView s (s.breakPins addr blk) :=
  (Keeps.over (fun t j => t.breakPin_engine j) s _).trans
    (.each (fun t k => .when (fun u => (u.replayEnd_store k 4).engine) t _) _ 8)

theorem State.settle_engine (s : State) (b : SBlock) : Keeps engineView s (s.settle b) := .of_fields rfl rfl rfl

/-! ## The stages of the wind-down -/

/-- The writes that stand in the landing buffer are made. -/
theorem State.flushRing_engine (s : State) : Keeps engineView s s.flushRing := by
  unfold State.flushRing
  extract_lets ws cel s1
  have h1 : Keeps engineView s s1 := .of_fields rfl rfl rfl
  refine h1.trans (Keeps.trans (.over (fun t w => ?_) s1 ws) (State.landRelieved_engine _))
  extract_lets u k
  have hu : Keeps engineView t u :=
    ((t.breakPins_engine _ _).trans (State.memLog_engine _ _ _ _ _)).trans (State.devWrite_engine _ _ _)
  exact hu.trans ((State.settle_engine _ _).after rfl rfl rfl)

theorem State.stopRing_engine (s : State) : Keeps engineView s s.stopRing :=
  ((Keeps.each (fun t _ => t.ackLoss_engine) s _).trans (State.closeLoss_engine _ _)).trans
    ((State.setFlag_store _ _ _ _ rfl).engine.after rfl rfl rfl)

/-- A job ends as a dropped record, as an item to its asker, or as a completion. -/
theorem State.drainAll_engine (s : State) : Keeps engineView s s.drainAll := by
  unfold State.drainAll
  extract_lets s1 s2 cause s3 s4 s5 trg s6
  have h1 : Keeps engineView s s1 := .each (fun t dom => .when (fun u => (u.dmaDrain_store dom).engine) t _) s 3
  have h2 : Keeps engineView s1 s2 := .each (fun t c => t.dmaDrainOut_engine c) s1 32
  have h3 : Keeps engineView s2 s3 := by
    refine .over (fun t j => ?_) s2 _
    extract_lets ended
    split
    · exact (t.recDropped_store _ _).engine
    · exact (t.startXfer_store _ _ _ _).engine
    · exact t.putCompletion_engine _
  have h4 : Keeps engineView s3 s4 := .each (fun t d => .when (fun u => (u.recDropped_store d _).engine) t _) s3 32
  have h5 : Keeps engineView s4 s5 := .over (fun t _ => (t.recDropped_store _ _).engine) s4 _
  clear_value s5
  have h6 : Keeps engineView s5 s6 := .of_fields rfl rfl rfl
  have h7 : Keeps engineView s6 (s6.each 8 (fun s k => s.replayEnd k 3)) := .each (fun t k => (t.replayEnd_store k 3).engine) s6 8
  exact ((((((h1.trans h2).trans h3).trans h4).trans h5).trans h6).trans h7).trans
    (.each (fun t n => (t.stopSet_store n).engine) _ 4)

theorem State.setReg64_store (s : State) (lo hi : Reg) (i v : Nat) (hl : ladderReg lo = false) (hh : ladderReg hi = false) :
    Keeps storeView s (s.setReg64 lo hi i v) := (s.setReg_store _ _ _ hl).trans (State.setReg_store _ _ _ _ hh)

theorem State.ringOffsets_store (s : State) : Keeps storeView s s.ringOffsets := by
  refine .each (fun t k => .ite (.refl t) ?_) s 8
  extract_lets ofs slots u v
  have hu : Keeps storeView t u :=
    ((t.setFld_store _ _ _ rfl).trans (State.setFld_store _ _ _ _ rfl)).trans (State.setFld_store _ _ _ _ rfl)
  exact (hu.trans (u.setReg64_store _ _ _ _ rfl rfl)).trans (v.setFld_store _ _ _ rfl)

theorem State.selfRefresh_engine (s : State) : Keeps engineView s s.selfRefresh := s.setCel_engine _

end Sys2Proof.Machine
end

section
/-! PROOFS. Stopping the outputs, the post-mortem record, the reset of the engine and the loss of its power (R10, R218,
R327, R537, R542, R577, R578, R580). -/

namespace Sys2Proof.Machine

/-! ## Outputs and the post-mortem record -/

theorem State.stopOutputs_store (s : State) :
    Keeps storeView { s with trg := { s.trg with tout := [] } } s.stopOutputs :=
  (Keeps.each (fun t _ => t.emit_store _) _ 8).trans (State.streamsHold_store _)

/-- The registers of one kind, written in turn. -/
theorem State.reg_each_setReg (s : State) (r : Reg) (v : Nat → Word) (n i : Nat) (h : i < n) :
    (s.each n (fun s k => s.setReg r k (v k))).reg r i = v i := by
  induction n with
  | zero => omega
  | succ n ih =>
    rw [State.each, List.range_succ, List.foldl_append]
    by_cases hi : i = n
    · subst hi
      exact State.reg_setReg_same _ r i (v i)
    · exact (State.reg_setReg_ne _ r r n i _ (by simp [hi])).trans (ih (by omega))

/-- The state but for its registers. -/
def State.sansRegs (s : State) : State := { s with regs := [] }

theorem State.eq_of_sansRegs {s t : State} (h : t.sansRegs = s.sansRegs) : t = { s with regs := t.regs } :=
  congrArg (fun v : State => { v with regs := t.regs }) h

/-- The record goes to registers of SYS_PM alone. -/
theorem State.postMortem_shape (s : State) (cause src inst : Nat) :
    s.postMortem cause src inst = { s with regs := (s.postMortem cause src inst).regs } :=
  State.eq_of_sansRegs (State.each_keeps State.sansRegs s 16 _ (fun _ _ => rfl))

/-- The first word of the record: the cause, the source's index and its number (R578). -/
theorem State.postMortem_reg (s : State) (cause src inst : Nat) : (s.postMortem cause src inst).reg .SYS_PM 0 =
    BitVec.ofNat 32 (cause % 2 ^ 8 + 2 ^ 8 * (src % 2 ^ 8) + 2 ^ 16 * (inst % 2 ^ 16)) := by
  refine (s.reg_each_setReg .SYS_PM _ 16 0 (by omega)).trans (congrArg _ ?_)
  simp only [leBytes, le, slice, List.cons_append, List.nil_append, Nat.mul_zero, List.drop_zero, List.take_succ_cons,
    List.take_zero, ofLe, BitVec.toNat_ofNat]
  omega

theorem State.postMortem_cause (s : State) (cause src inst : Nat) (h : cause < 256) :
    bits ((s.postMortem cause src inst).reg .SYS_PM 0).toNat 7 0 = cause := by
  rw [s.postMortem_reg, BitVec.toNat_ofNat]
  simp only [bits, Nat.shiftRight_zero]
  omega

/-! ## The reset of the engine -/

/-- What stands at a key after the entries of other keys are dropped by their keys. -/
theorem Table.get?_filter_key {α : Type} (q : Nat → Bool) (t : Table Nat α) (k : Nat) :
    Table.get? (t.filter (fun e => q e.1)) k = if q k then Table.get? t k else none := by
  induction t with
  | nil => simp [Table.get?]
  | cons e t ih =>
    obtain ⟨a, v⟩ := e
    by_cases hk : a = k
    · subst hk
      cases hq : q a <;> simp_all [Table.get?]
    · cases hq : q a <;> simp_all [Table.get?]

/-- The reset of the engine, before the slices' roles and the timing inputs are set up again. -/
def State.resetCore (s : State) : State :=
  { pending := s.pending, now := s.now, free := s.free, dev := s.dev, out := s.out
    regs := s.keptRegs
    mem := s.mem.filter (fun e => decide (e.1 < cellarSize))
    evq := { count := s.evq.count, attic := s.evq.attic, lastSeq := s.evq.lastSeq }
    prog := { boot := s.prog.boot }
    cel := {
      pc := s.cel.pc.map (fun e => (e.1, if e.2 = .reinit then PcState.frozen else e.2))
      diag := s.cel.diag, history := s.cel.history, freezes := s.cel.freezes, rows := s.cel.rows
      soft := s.cel.soft, softOn := s.cel.softOn, moved := s.cel.moved, asleep := s.cel.asleep, cmds := s.cel.cmds }
    trg := { recnum := s.trg.recnum }
    cal := { vol := s.cal.vol, attic := s.cal.attic, lastRun := s.cal.lastRun }
    hk := { temps := s.hk.temps, timers := s.hk.timers }
    pwr := s.pwr, pan := s.pan, rcv := s.rcv, sec := s.sec }

theorem State.setRole_slice (s : State) (u r : Nat) : s.setRole kSLICE u r = s.setFld CNV_SL_STATE.ROLE u r := rfl

/-- After that only the roles' registers, the timing inputs, the readings and the sequences in progress change. -/
theorem State.engineReset_proj {β : Type} (g : State → β) (s : State)
    (hreg : ∀ s u v, g (s.setFld CNV_SL_STATE.ROLE u v) = g s) (htin : ∀ s i d, g (s.setTin i d) = g s)
    (hend : ∀ (t : State) h w, g { t with hk := h, sec := { t.sec with osReady := false, waits := w } } = g t) :
    g s.engineReset = g s.resetCore := by
  unfold State.engineReset
  extract_lets core retired t
  have ht : g t = g core := by
    refine (State.each_keeps g _ 16 _ (fun t i => htin t i _)).trans (State.over_keeps g core retired _ (fun t u => ?_))
    rw [State.setRole_slice]
    exact hreg t u _
  exact (hend t _ _).trans ht

section
variable (s : State)

@[simp] theorem State.engineReset_now : s.engineReset.now = s.now :=
  State.engineReset_proj State.now s (fun _ _ _ => rfl) (fun _ _ _ => rfl) (fun _ _ _ => rfl)
@[simp] theorem State.engineReset_staged : s.engineReset.staged = [] :=
  State.engineReset_proj State.staged s (fun _ _ _ => rfl) (fun _ _ _ => rfl) (fun _ _ _ => rfl)
@[simp] theorem State.engineReset_mem : s.engineReset.mem = s.mem.filter (fun e => decide (e.1 < cellarSize)) :=
  State.engineReset_proj State.mem s (fun _ _ _ => rfl) (fun _ _ _ => rfl) (fun _ _ _ => rfl)
@[simp] theorem State.engineReset_evq :
    s.engineReset.evq = { count := s.evq.count, attic := s.evq.attic, lastSeq := s.evq.lastSeq } :=
  State.engineReset_proj State.evq s (fun _ _ _ => rfl) (fun _ _ _ => rfl) (fun _ _ _ => rfl)
@[simp] theorem State.engineReset_prog : s.engineReset.prog = { boot := s.prog.boot } :=
  State.engineReset_proj State.prog s (fun _ _ _ => rfl) (fun _ _ _ => rfl) (fun _ _ _ => rfl)
@[simp] theorem State.engineReset_attic : s.engineReset.cal.attic = s.cal.attic :=
  State.engineReset_proj (fun t => t.cal.attic) s (fun _ _ _ => rfl) (fun _ _ _ => rfl) (fun _ _ _ => rfl)
@[simp] theorem State.engineReset_pwr : s.engineReset.pwr = s.pwr :=
  State.engineReset_proj State.pwr s (fun _ _ _ => rfl) (fun _ _ _ => rfl) (fun _ _ _ => rfl)
@[simp] theorem State.engineReset_pan : s.engineReset.pan = s.pan :=
  State.engineReset_proj State.pan s (fun _ _ _ => rfl) (fun _ _ _ => rfl) (fun _ _ _ => rfl)
@[simp] theorem State.engineReset_rcv : s.engineReset.rcv = s.rcv :=
  State.engineReset_proj State.rcv s (fun _ _ _ => rfl) (fun _ _ _ => rfl) (fun _ _ _ => rfl)
@[simp] theorem State.engineReset_osReady : s.engineReset.sec.osReady = false := rfl

/-- Only the cellar keeps its bytes. -/
theorem State.engineReset_byte (a : Nat) : s.engineReset.byte a = if a < cellarSize then s.byte a else 0 := by
  rw [State.byte, s.engineReset_mem, Table.getD, Table.get?_filter_key (fun k => decide (k < cellarSize))]
  by_cases h : a < cellarSize
  · simp [h, State.byte, Table.getD]
  · simp [h]

end

/-! ## Registers over the reset of the engine -/

/-- What an entry of the registers becomes. -/
def keptEntry (e : RegKey × Word) : Option (RegKey × Word) :=
  if keptWord e.1.1 e.1.2 e.2 = e.1.1.reset e.1.2 then none else some (e.1, keptWord e.1.1 e.1.2 e.2)

theorem State.keptRegs_eq (s : State) : s.keptRegs = s.regs.filterMap keptEntry := rfl

theorem keptEntry_some {e d : RegKey × Word} (h : keptEntry e = some d) :
    d = (e.1, keptWord e.1.1 e.1.2 e.2) ∧ keptWord e.1.1 e.1.2 e.2 ≠ e.1.1.reset e.1.2 := by
  unfold keptEntry at h
  split at h
  · cases h
  · next hne => exact ⟨(Option.some.inj h).symm, hne⟩

/-- A register whose word the reset keeps, and whose word is not its reset value. -/
theorem get?_keptEntry_of_kept (t : Table RegKey Word) (r : Reg) (i : Nat) (v : Word) (ht : Table.get? t (r, i) = some v)
    (hk : keptWord r i v = v) (hv : v ≠ r.reset i) : Table.get? (t.filterMap keptEntry) (r, i) = some v := by
  induction t with
  | nil => cases ht
  | cons e t ih =>
    obtain ⟨k, w⟩ := e
    rw [List.filterMap_cons]
    by_cases h : k = (r, i)
    · subst h
      have hw : w = v := by simpa [Table.get?] using ht
      subst hw
      simp [keptEntry, hk, hv, Table.get?]
    · have ht' : Table.get? t (r, i) = some v := by simpa [Table.get?, h] using ht
      cases he : keptEntry (k, w) with
      | none => exact ih ht'
      | some d =>
        rw [(keptEntry_some he).1]
        simpa [Table.get?, h] using ih ht'

/-- A register of which nothing is kept. -/
theorem get?_keptEntry_of_lost (t : Table RegKey Word) (r : Reg) (i : Nat) (h : ∀ v, keptWord r i v = r.reset i) :
    Table.get? (t.filterMap keptEntry) (r, i) = none := by
  induction t with
  | nil => rfl
  | cons e t ih =>
    obtain ⟨k, w⟩ := e
    rw [List.filterMap_cons]
    cases he : keptEntry (k, w) with
    | none => exact ih
    | some d =>
      obtain ⟨hd, hne⟩ := keptEntry_some he
      have hk : k ≠ (r, i) := fun hk => hne (by subst hk; exact h w)
      rw [hd]
      simpa [Table.get?, hk] using ih

/-- SYS_PM lies in the always-on island. -/
theorem keptWord_pm (i : Nat) (v : Word) : keptWord .SYS_PM i v = v := by
  apply BitVec.eq_of_toNat_eq
  show (BitVec.ofNat 32 (withBits (Reg.reset .SYS_PM i).toNat 31 0 (bits v.toNat 31 0))).toNat = _
  have hv := v.isLt
  rw [withBits_eq _ _ _ _ (by omega), BitVec.toNat_ofNat]
  simp only [bits, Nat.shiftRight_zero]
  omega

theorem State.engineReset_reg (s : State) (q : Reg) (i : Nat) (h : q ≠ .CNV_SL_STATE) :
    s.engineReset.reg q i = Table.getD s.keptRegs (q, i) (q.reset i) :=
  State.engineReset_proj (fun t => t.reg q i) s
    (fun t u v => t.reg_setFld_ne CNV_SL_STATE.ROLE q u i v (fun e => h (congrArg Prod.fst e)))
    (fun _ _ _ => rfl) (fun _ _ _ => rfl)

/-- The post-mortem record stands over the reset (R578). -/
theorem State.engineReset_reg_pm (s : State) (h : s.reg .SYS_PM 0 ≠ 0) : s.engineReset.reg .SYS_PM 0 = s.reg .SYS_PM 0 := by
  have hr : Reg.reset .SYS_PM 0 = 0 := by decide
  have hg : Table.get? s.regs (Reg.SYS_PM, 0) = some (s.reg .SYS_PM 0) := by
    cases hg : Table.get? s.regs (Reg.SYS_PM, 0) with
    | none => exact absurd (by simp [State.reg, Table.getD, hg, hr]) h
    | some v => simp [State.reg, Table.getD, hg]
  rw [s.engineReset_reg _ _ (by decide), s.keptRegs_eq, Table.getD,
    get?_keptEntry_of_kept s.regs _ _ _ hg (keptWord_pm _ _) (hr ▸ h)]
  rfl

/-- HAS_RUN is lost (R10). -/
theorem State.engineReset_reg_prg (s : State) : s.engineReset.reg .SYS_PRG_STATUS 0 = Reg.reset .SYS_PRG_STATUS 0 := by
  rw [s.engineReset_reg _ _ (by decide), s.keptRegs_eq, Table.getD, get?_keptEntry_of_lost s.regs _ _ (fun v => rfl)]
  rfl

/-! ## The loss of power -/

/-- The engine without power, but for the registers that its loss resets. -/
def State.unpowered (s : State) (c : CelState) : State :=
  { s with
    mem := [], trg := {}, cel := c, dev := .standby
    pwr := { s.pwr with rail := 0, move := none, lowWaits := [], retFrom := none, down := none } }

theorem State.unpowered_eq (s : State) (c : CelState) : ({ s with
    mem := [], trg := {}, cel := c, dev := .standby
    pwr := { s.pwr with rail := 0, move := none, lowWaits := [], retFrom := none, down := none } } : State) =
    s.unpowered c := rfl

/-- PWR_STATUS names no source (R537). -/
def State.offStatus (s : State) : State :=
  (((s.setFld PWR_STATUS.SOURCE 0 3).setFld PWR_STATUS.PHASES_B 0 0).setFlag PWR_STATUS.FORCED_B 0 false).setFlag
    PWR_STATUS.PWRGD 0 false

/-- The loss of power, after the reset of the engine. -/
theorem State.engineOff_shape (s : State) : ∃ (t : State) (c : CelState),
    t.sansRegs = (s.engineReset.unpowered c).sansRegs ∧ s.engineOff = t.offStatus.emit (.pin .pwrgd false) := by
  unfold State.engineOff
  extract_lets t0 pwr t1 t2 t3 t4 t5
  have h1 : ∃ c, t1 = s.engineReset.unpowered c := ⟨_, t0.unpowered_eq _⟩
  have h2 : t2.sansRegs = t1.sansRegs :=
    State.over_keeps State.sansRegs t1 _ _ (fun t r => State.each_keeps State.sansRegs t _ _ (fun _ _ => rfl))
  have h3 : t3.sansRegs = t2.sansRegs := State.over_keeps State.sansRegs t2 _ _ (fun _ _ => rfl)
  obtain ⟨c, h1⟩ := h1
  exact ⟨t3, c, h3.trans (h2.trans (congrArg State.sansRegs h1)), rfl⟩

theorem State.offStatus_source (s : State) : s.offStatus.source = 3 := by
  unfold State.source State.offStatus State.setFlag
  rw [State.fld_setFld_ne _ _ _ _ _ _ (by decide) (by decide) (by decide),
    State.fld_setFld_ne _ _ _ _ _ _ (by decide) (by decide) (by decide),
    State.fld_setFld_ne _ _ _ _ _ _ (by decide) (by decide) (by decide), State.fld_setFld_same _ _ _ _ (by decide) (by decide)]
  rfl

theorem State.offStatus_phases (s : State) : s.offStatus.fld PWR_STATUS.PHASES_B 0 = 0 := by
  unfold State.offStatus State.setFlag
  rw [State.fld_setFld_ne _ _ _ _ _ _ (by decide) (by decide) (by decide),
    State.fld_setFld_ne _ _ _ _ _ _ (by decide) (by decide) (by decide), State.fld_setFld_same _ _ _ _ (by decide) (by decide)]
  rfl

theorem State.offStatus_pwrgd (s : State) : s.offStatus.flag PWR_STATUS.PWRGD 0 = false :=
  State.flag_setFlag_same _ _ _ _ (by decide) (by decide)

theorem State.sansRegs_setFld (s : State) (f : Fld) (i v : Nat) : (s.setFld f i v).sansRegs = s.sansRegs := rfl

theorem State.offStatus_sansRegs (s : State) : s.offStatus.sansRegs = s.sansRegs := by
  simp only [State.offStatus, State.setFlag, State.sansRegs_setFld]

/-- What the loss of power leaves (R537, R542). -/
structure Unpowered (s t : State) : Prop where
  off : engineIsOff t
  now : t.now = s.now
  count : t.evq.count = s.evq.count
  resetLow : t.pwr.resetLow = s.pwr.resetLow

theorem State.offStatus_unpowered (t r : State) (c : CelState) (h : t.sansRegs = (r.unpowered c).sansRegs)
    (hos : r.sec.osReady = false) : Unpowered r (t.offStatus.emit (.pin .pwrgd false)) := by
  have hs := t.offStatus_source
  have hp := t.offStatus_phases
  have hg := t.offStatus_pwrgd
  have hu : ∃ regs, t.offStatus = { r.unpowered c with regs := regs } :=
    ⟨_, State.eq_of_sansRegs (t.offStatus_sansRegs.trans h)⟩
  generalize t.offStatus = u at hs hp hg hu ⊢
  obtain ⟨regs, rfl⟩ := hu
  exact ⟨⟨rfl, rfl, hs, hp, hg, List.mem_cons_self, rfl, rfl, rfl, hos⟩, rfl, rfl, rfl⟩

theorem State.engineOff_unpowered (s : State) : Unpowered s s.engineOff := by
  obtain ⟨t, c, ht, h⟩ := s.engineOff_shape
  obtain ⟨hoff, hnow, hcount, hlow⟩ := State.offStatus_unpowered t _ c ht s.engineReset_osReady
  rw [h]
  exact ⟨hoff, hnow.trans s.engineReset_now, hcount.trans (by rw [s.engineReset_evq]), hlow.trans (by rw [s.engineReset_pwr])⟩

/-- FAULT_N is as asked for, and what tells it goes out. -/
theorem State.driveFault_shape (s : State) (low : Bool) :
    ∃ l, s.driveFault low = { s with pwr := { s.pwr with faultN := low }, out := l ++ s.out } := by
  unfold State.driveFault
  split
  · next h =>
    have hp : { s.pwr with faultN := low } = s.pwr := by rw [← h]
    exact ⟨[], by rw [hp, List.nil_append]⟩
  · exact ⟨[.pin .faultN (!low)], rfl⟩

/-! ## The power cycle (R580) -/

/-- What a power cycle leaves. -/
structure PowerCycled (s t : State) : Prop where
  off : engineIsOff t
  faultN : t.pwr.faultN = true
  hold : t.pwr.hold = true
  resetLow : t.pwr.resetLow = s.pwr.resetLow
  cycleAt : t.rcv.cycleAt = some s.now
  warmAt : t.rcv.warmAt = none
  step : t.fld SYS_RCV_STAT.STEP 0 = 3
  asked : Out.pin .pwrCycleReq true ∈ t.out
  count : t.evq.count = s.evq.count + 1

/-- The flags of a power cycle. -/
def State.askFlags (s : State) : State :=
  { s with rcv := { s.rcv with cycleAt := some s.now, warmAt := none, waitPin := false, safeAt := none }
           pwr := { s.pwr with hold := true } }

/-- The request of a power cycle, by an engine that has stopped. -/
def State.askCycle (s : State) : State := (s.askFlags.setFld SYS_RCV_STAT.STEP 0 3).emit (.pin .pwrCycleReq true)

theorem State.stopEngine_unpowered (s : State) : Unpowered s s.stopEngine ∧ s.stopEngine.pwr.faultN = true := by
  obtain ⟨⟨hdev, hmem, hsource, hphases, hgood, hpin, hoff⟩, hnow, hcount, hlow⟩ := s.engineOff_unpowered
  unfold State.stopEngine
  generalize s.engineOff = t at *
  obtain ⟨l, h⟩ := t.driveFault_shape true
  rw [h]
  exact ⟨⟨⟨hdev, hmem, hsource, hphases, hgood, List.mem_cons_of_mem _ (List.mem_append_right _ hpin), hoff⟩, hnow, hcount,
    hlow⟩, rfl⟩

theorem State.askCycle_fld (s : State) (f : Fld) (i : Nat) (h : f.reg ≠ .SYS_RCV_STAT) : s.askCycle.fld f i = s.fld f i :=
  State.fld_setFld_ne s.askFlags SYS_RCV_STAT.STEP f 0 i 3 (by decide) (by decide) (.inl (fun e => h (congrArg Prod.fst e)))

theorem State.askCycle_isOff (t : State) (h : engineIsOff t) : engineIsOff t.askCycle := by
  obtain ⟨hdev, hmem, hsource, hphases, hgood, hpin, hoff⟩ := h
  have hg : t.askCycle.flag PWR_STATUS.PWRGD 0 = false := by
    rw [State.flag, t.askCycle_fld _ _ (by decide)]
    exact hgood
  have hp : Out.pin .pwrgd false ∈ t.askCycle.out := List.mem_cons_of_mem _ hpin
  exact ⟨hdev, hmem, (t.askCycle_fld _ _ (by decide)).trans hsource, (t.askCycle_fld _ _ (by decide)).trans hphases, hg, hp,
    hoff⟩

theorem State.askCycle_cycled (s t : State) (hoff : engineIsOff t) (hf : t.pwr.faultN = true) (hnow : t.now = s.now)
    (hcount : t.evq.count = s.evq.count + 1) (hlow : t.pwr.resetLow = s.pwr.resetLow) : PowerCycled s t.askCycle where
  off := t.askCycle_isOff hoff
  faultN := hf
  hold := rfl
  resetLow := hlow
  cycleAt := congrArg some hnow
  warmAt := rfl
  step := t.askFlags.fld_setFld_same SYS_RCV_STAT.STEP 0 3 (by decide) (by decide)
  asked := List.mem_cons_self
  count := hcount

theorem State.powerCycle_cycled (s : State) (cause : Nat) : PowerCycled s (s.powerCycle cause) := by
  obtain ⟨⟨hoff, hnow, hcount, hlow⟩, hf⟩ := (s.raise Ev.PWR_CYCLE 0 [(0, 1, cause)]).stopEngine_unpowered
  exact State.askCycle_cycled s _ hoff hf (hnow.trans (s.raise_now _ _ _)) (hcount.trans (s.raise_count _ _ _))
    (hlow.trans (congrArg PwrState.resetLow (s.raise_pwr _ _ _)))

end Sys2Proof.Machine
end

section
/-! PROOFS. Bringing the engine up keeps what the ladder has recorded, and writes nothing below the tiles (R498, R541,
R553). -/

namespace Sys2Proof.Machine

/-! ## What bringing up keeps -/

/-- What a reset has set up and BOOT relies on. -/
def bootView (s : State) : State :=
  { now := s.now, dev := s.dev, prog := s.prog, rcv := s.rcv, pwr := s.pwr, staged := s.staged
    cal := { attic := s.cal.attic }, pan := { history := s.pan.history }, sec := { bootAt := s.sec.bootAt } }

/-- Beside that memory, which only the vendor microcode is written to. -/
def loadView (s : State) : State := { bootView s with mem := s.mem }

section
variable {s t : State}

theorem Keeps.boot (h : Keeps loadView s t) : Keeps bootView s t := ⟨h.eq bootView, h.count, h.attic, h.reg⟩

theorem Keeps.byte (h : Keeps loadView s t) (a : Nat) : t.byte a = s.byte a :=
  congrArg (fun m => Table.getD m a 0) (h.eq State.mem)

end

theorem State.setReg_load (s : State) (r : Reg) (i : Nat) (v : Word) (h : ladderReg r = false) :
    Keeps loadView s (s.setReg r i v) := ⟨rfl, Nat.le_refl _, List.prefix_refl _, (s.setReg_store r i v h).reg⟩

theorem State.setFld_load (s : State) (f : Fld) (i v : Nat) (h : ladderReg f.reg = false) :
    Keeps loadView s (s.setFld f i v) := s.setReg_load _ _ _ h

theorem State.setCel_load (s : State) (c : CelState) : Keeps loadView s { s with cel := c } := .of_fields rfl rfl rfl

theorem State.setTile_load (s : State) (n : Nat) (d : Tile) : Keeps loadView s (s.setTile n d) := .of_fields rfl rfl rfl

theorem State.setOplMap_load (s : State) (m : Table Nat Nat) (w : Option OplSwap) :
    Keeps loadView s { s with oplMap := m, oplSwap := w } := .of_fields rfl rfl rfl

theorem State.setRole_load (s : State) (kind u r : Nat) : Keeps loadView s (s.setRole kind u r) :=
  .ite (s.setFld_load _ _ _ rfl) (.of_fields rfl rfl rfl)

theorem State.loadRecords_load (s : State) : Keeps loadView s s.loadRecords := by
  unfold State.loadRecords
  extract_lets p s1 s2 s3
  have h1 : Keeps loadView s s1 := s.setReg_load _ _ _ rfl
  have h2 : Keeps loadView s1 s2 := .each (fun t _ => t.setReg_load _ _ _ rfl) s1 6
  have h3 : Keeps loadView s2 s3 := s2.setFld_load _ _ _ rfl
  have key (req auto : Nat) : Keeps loadView s3 ((s3.setFld SYS_PRG_POLICY.SIG_REQ 0 req).setFld SYS_PRG_POLICY.AUTO 0 auto) :=
    (s3.setFld_load _ _ _ rfl).trans (State.setFld_load _ _ _ _ rfl)
  exact ((h1.trans h2).trans h3).trans (key _ _)

/-- The body is taken from the function itself, and the search made opaque: the kernel would run the whole rebuild to find
what the last search finds. -/
theorem State.pantryRebuild_load (s : State) : Keeps loadView s s.pantryRebuild := by
  obtain ⟨f, hf⟩ : ∃ f, f = State.pantryRebuild := ⟨_, rfl⟩
  rw [← hf]
  delta State.pantryRebuild at hf
  subst hf
  beta_reduce
  obtain ⟨find, hfind⟩ : ∃ f, f = @List.find? Nat := ⟨_, rfl⟩
  rw [← hfind]
  clear hfind
  extract_lets retired pan s0 s1 s2 s3 s4 s5 s6 s7 s8
  have h0 : Keeps loadView s s0 := .of_fields rfl rfl rfl
  have h1 : Keeps loadView s0 s1 := .each (fun t u => .ite (.refl t) (t.setRole_load _ _ _)) s0 272
  have h2 : Keeps loadView s1 s2 := .each (fun t c => t.setFld_load _ _ _ rfl) s1 256
  have h3 : Keeps loadView s2 s3 := by
    refine .each (fun t k => .each (fun u i => .ite ?_ (.refl u)) t 32) s2 8
    split
    · exact (u.setRole_load _ _ _).trans (State.setFld_load _ _ _ _ rfl)
    · exact .refl u
  have h4 : Keeps loadView s3 s4 := .each (fun t n => t.setTile_load n _) s3 68
  have h5 : Keeps loadView s4 s5 := by
    refine .each (fun t n => ?_) s4 68
    split
    · split
      · exact (t.setRole_load _ _ _).trans (State.setTile_load _ _ _)
      · exact .refl t
    · exact .refl t
  have h6 : Keeps loadView s5 s6 := s5.setOplMap_load [] none
  have h7 : Keeps loadView s6 s7 := by
    refine .each (fun t l => .ite ?_ (.refl t)) s6 16
    exact (t.setRole_load kOPAL 16 roSPARE).trans (State.setOplMap_load _ _ _)
  have h8 : Keeps loadView s7 s8 := by
    refine .each (fun t p => ?_) s7 6
    split
    · exact (t.setFld_load _ _ _ rfl).trans (State.setRole_load _ _ _ _)
    · exact t.setFld_load _ _ _ rfl
  have h := ((((((h0.trans h1).trans h2).trans h3).trans h4).trans h5).trans h6).trans (h7.trans h8)
  split
  · exact h.trans (s8.setRole_load _ _ _)
  · exact h

theorem State.softAgain_load (s : State) : Keeps loadView s s.softAgain :=
  .ite (.refl s) ((s.setCel_load _).trans (.over (fun t _ => t.setCel_load _) _ _))

theorem State.setCalDie_load (s : State) (k : Nat) (x : CalDie) : Keeps loadView s (s.setCalDie k x) := .of_fields rfl rfl rfl

theorem State.calQueue_load (s : State) (k sl : Nat) (task : CalTask) (host : Bool) :
    Keeps loadView s (s.calQueue k sl task host) :=
  .ite (.refl s) (.ite (s.setCalDie_load _ _) (s.setCalDie_load _ _))

theorem State.calBoot_load (s : State) : Keeps loadView s s.calBoot :=
  .ite (.each (fun t k => .each (fun u sl => u.calQueue_load k sl .run false) t 34) s 8) (.refl s)

theorem State.setAddr_load (s : State) (addr st : Nat) : Keeps loadView s (s.setAddr addr st) :=
  (s.setFld_load _ _ _ rfl).trans (State.setFld_load _ _ _ _ rfl)

theorem State.fabStart_load (s : State) : Keeps loadView s s.fabStart := by
  unfold State.fabStart
  extract_lets inc trg t
  have ht : Keeps loadView s t := .of_fields rfl rfl rfl
  refine ht.trans ?_
  split
  · exact t.setAddr_load _ _
  · exact t.setAddr_load _ _
  · exact t.setAddr_load _ _

/-! ## The vendor microcode -/

theorem State.tilePut_boot (s : State) (a : Nat) (bs : List Byte) : Keeps bootView s (s.tilePut a bs) := by
  rw [s.tilePut_shape a bs]
  exact .of_fields rfl rfl rfl

theorem State.loadVendor_boot (s : State) (slot : Nat) : Keeps bootView s (s.loadVendor slot) :=
  .each (fun t _ => t.tilePut_boot _ _) s 68

theorem State.byte_tilePut_below (s : State) (a x : Nat) (bs : List Byte) (h : x < a) : (s.tilePut a bs).byte x = s.byte x := by
  induction bs generalizing s a with
  | nil => rfl
  | cons b bs ih =>
    rw [State.tilePut, ih _ (a + 1) (by omega)]
    split
    · rfl
    · exact State.byte_setByte_ne s a x b (by omega)

theorem State.byte_loadVendor (s : State) (slot a : Nat) (h : a < tileBase 0) : (s.loadVendor slot).byte a = s.byte a :=
  State.each_keeps (fun t => t.byte a) s 68 _ (fun t _ => t.byte_tilePut_below _ a _ (by
    unfold csBase
    unfold tileBase at *
    omega))

/-! ## The engine comes up -/

/-- From s to t the engine comes up: what the reset has set up stands, and so does memory below the tiles. -/
structure Boots (s t : State) : Prop where
  keeps : Keeps bootView s t
  byte : ∀ a, a < tileBase 0 → t.byte a = s.byte a

section
variable {s t u : State}

theorem Boots.refl (s : State) : Boots s s := ⟨.refl s, fun _ _ => rfl⟩

theorem Boots.trans (h : Boots s t) (k : Boots t u) : Boots s u :=
  ⟨h.keeps.trans k.keeps, fun a ha => (k.byte a ha).trans (h.byte a ha)⟩

theorem Keeps.boots (h : Keeps loadView s t) : Boots s t := ⟨h.boot, fun a _ => h.byte a⟩

end

theorem State.loadVendor_boots (s : State) (slot : Nat) : Boots s (s.loadVendor slot) :=
  ⟨s.loadVendor_boot slot, s.byte_loadVendor slot⟩

theorem State.setSec_boots (s : State) (c : SecState) (h : c.bootAt = s.sec.bootAt) : Boots s { s with sec := c } :=
  ⟨.of_fields (by simp only [bootView, h]) rfl rfl, fun _ _ => rfl⟩

/-- What BOOT starts from. -/
def State.bootStart (s : State) : State :=
  { s with dev := .boot, time := { running := true, calAt := s.now }, sec := { s.sec with bootAt := s.now } }

/-- The rebuild of the pantry's map is made opaque, so that the kernel does not run it. -/
theorem State.bringUp_boots (s : State) : Boots s.bootStart s.bringUp := by
  obtain ⟨f, hf⟩ : ∃ f, f = State.bringUp := ⟨_, rfl⟩
  rw [← hf]
  delta State.bringUp at hf
  subst hf
  beta_reduce
  have hk : ∀ s, Keeps loadView s s.pantryRebuild := State.pantryRebuild_load
  obtain ⟨rebuild, hr⟩ : ∃ f, f = State.pantryRebuild := ⟨_, rfl⟩
  rw [← hr] at hk ⊢
  clear hr
  extract_lets sec s0 s1 s2 s3 sec3
  have h1 : Boots s0 s1 := ((s0.loadRecords_load.trans (hk _)).trans (State.softAgain_load _)).boots
  have h2 : Boots s1 s2 := by
    unfold s2
    split
    · split
      · exact s1.loadVendor_boots _
      · exact .refl s1
    · exact .refl s1
  have h3 : Boots s2 s3 := s2.calBoot_load.boots
  have h := (h1.trans h2).trans h3
  split
  · exact h.trans s3.fabStart_load.boots
  · exact h.trans (s3.setSec_boots _ rfl)

end Sys2Proof.Machine
end

section
/-! PROOFS. The device warm reset (R10, R576 to R578, R580). -/

namespace Sys2Proof.Machine

/-! ## The mark: outputs stop, the record is saved, the reset is reported -/

/-- What the mark of a warm reset leaves. -/
structure Marked (s t : State) (cause : Nat) : Prop where
  same : storeView t = storeView { s with trg := { s.trg with tout := [] } }
  cause : bits (t.reg .SYS_PM 0).toNat 7 0 = cause
  count : s.evq.count + 1 ≤ t.evq.count

theorem State.warmMark_marked (s : State) (cause src inst n : Nat) (h : cause < 256) :
    Marked s ((s.stopOutputs.postMortem cause src inst).raise Ev.WARM_RESET 0 [(0, 1, cause), (1, 4, n)]) cause := by
  have hstop := s.stopOutputs_store
  have hshape := s.stopOutputs.postMortem_shape cause src inst
  have hcause := s.stopOutputs.postMortem_cause cause src inst h
  generalize s.stopOutputs.postMortem cause src inst = u at hshape hcause
  have hraise := u.raise_store Ev.WARM_RESET 0 [(0, 1, cause), (1, 4, n)]
  refine ⟨hraise.same.trans ((congrArg storeView hshape).trans hstop.same), ?_, ?_⟩
  · rw [hraise.reg .SYS_PM 0 rfl]
    exact hcause
  · rw [u.raise_count, congrArg (fun v : State => v.evq.count) hshape]
    exact Nat.succ_le_succ hstop.count

/-! ## What is in progress ends -/

theorem State.windDown_engine (s : State) :
    Keeps engineView s s.drainAll.flushRing.stopRing.ringOffsets.selfRefresh :=
  (((s.drainAll_engine.trans (State.flushRing_engine _)).trans (State.stopRing_engine _)).trans
    (State.ringOffsets_store _).engine).trans (State.selfRefresh_engine _)

/-! ## The reset, as a running engine takes it -/

/-- The engine is reset; the numbers of its logs go on. -/
def State.warmCore (s : State) (c : CelState) (g : TrgState) : State := { s with dev := .boot, cel := c, trg := g }

theorem State.warmCore_eq (s : State) (c : CelState) (g : TrgState) :
    ({ s with dev := .boot, cel := c, trg := g } : State) = s.warmCore c g := rfl

/-- The reset is counted in SYS_RCV_STAT. -/
def State.warmStatus (s : State) (n : Nat) : State :=
  (s.setFld SYS_RCV_STAT.STEP 0 2).setFld SYS_RCV_STAT.WARM_COUNT 0 (min n 255)

theorem State.warmStatus_step (s : State) (n : Nat) : (s.warmStatus n).fld SYS_RCV_STAT.STEP 0 = 2 := by
  rw [State.warmStatus, State.fld_setFld_ne _ _ _ _ _ _ (by decide) (by decide) (by decide),
    State.fld_setFld_same _ _ _ _ (by decide) (by decide)]
  rfl

theorem State.warmStatus_count (s : State) (n : Nat) : (s.warmStatus n).fld SYS_RCV_STAT.WARM_COUNT 0 = min n 255 := by
  rw [State.warmStatus, State.fld_setFld_same _ _ _ _ (by decide) (by decide)]
  show min n 255 % 256 = _
  omega

theorem State.warmStatus_reg (s : State) (n : Nat) (q : Reg) (i : Nat) (h : q ≠ .SYS_RCV_STAT) :
    (s.warmStatus n).reg q i = s.reg q i :=
  (State.reg_setFld_ne _ _ _ _ _ _ (fun e => h (congrArg Prod.fst e))).trans
    (State.reg_setFld_ne _ _ _ _ _ _ (fun e => h (congrArg Prod.fst e)))

/-- What the reset of the engine keeps and loses (R10), as far as the ladder relies on it. -/
structure EngineReset (s r : State) : Prop where
  now : r.now = s.now
  pwr : r.pwr = s.pwr
  rcv : r.rcv = s.rcv
  prog : r.prog = { boot := s.prog.boot }
  staged : r.staged = []
  attic : r.cal.attic = s.cal.attic
  pan : r.pan = s.pan
  count : r.evq.count = s.evq.count
  record : s.reg .SYS_PM 0 ≠ 0 → r.reg .SYS_PM 0 = s.reg .SYS_PM 0
  hasRun : r.flag SYS_PRG_STATUS.HAS_RUN 0 = false
  system : ∀ a, inSystem a 1 = true → r.byte a = 0
  cellar : ∀ a, a < cellarSize → r.byte a = s.byte a

theorem State.engineReset_flag_hasRun (s : State) : s.engineReset.flag SYS_PRG_STATUS.HAS_RUN 0 = false := by
  show (bits (s.engineReset.reg .SYS_PRG_STATUS 0).toNat _ _ == 1) = false
  rw [s.engineReset_reg_prg]
  decide

theorem State.engineReset_system (s : State) (a : Nat) (h : inSystem a 1 = true) : s.engineReset.byte a = 0 := by
  have ha : sysBase ≤ a := by
    simp only [inSystem, Bool.and_eq_true, decide_eq_true_eq] at h
    exact h.1
  rw [s.engineReset_byte a, if_neg]
  unfold sysBase at ha
  unfold cellarSize
  omega

theorem State.engineReset_spec (s : State) : EngineReset s s.engineReset where
  now := s.engineReset_now
  pwr := s.engineReset_pwr
  rcv := s.engineReset_rcv
  prog := s.engineReset_prog
  staged := s.engineReset_staged
  attic := s.engineReset_attic
  pan := s.engineReset_pan
  count := by rw [s.engineReset_evq]
  record := s.engineReset_reg_pm
  hasRun := s.engineReset_flag_hasRun
  system := s.engineReset_system
  cellar a h := by rw [s.engineReset_byte a, if_pos h]

/-- What the warm reset of s, wound down to t and reset to r, has left before step 5. -/
theorem State.warmCore_left (s t r : State) (c : CelState) (g : TrgState) (cause : Nat) (hr : EngineReset t r)
    (hc : 0 < cause) (hcount : t.rcv.warmCount = s.rcv.warmCount + 1) (hat : t.rcv.warmAt = some s.now)
    (hsafe : t.rcv.safeAt = none) (hpm : bits (t.reg .SYS_PM 0).toNat 7 0 = cause) (hboot : t.prog.boot = s.prog.boot)
    (hattic : t.cal.attic = s.cal.attic) (hpan : t.pan.history = s.pan.history) (hev : s.evq.count + 1 ≤ t.evq.count) :
    warmLeft s ((r.warmCore c g).warmStatus (s.rcv.warmCount + 1)) cause := by
  have hne : t.reg .SYS_PM 0 ≠ 0 := by
    intro h
    rw [h] at hpm
    exact absurd hpm (by simpa [bits] using Nat.ne_of_lt hc)
  refine ⟨rfl, ?_, ?_, ?_, State.warmStatus_step _ _, State.warmStatus_count _ _, ?_, ?_, ?_, ?_, hr.staged,
    hr.attic.trans hattic, ?_, hr.system, ?_⟩
  · exact (congrArg RcvState.warmCount hr.rcv).trans hcount
  · exact (congrArg RcvState.warmAt hr.rcv).trans hat
  · exact (congrArg RcvState.safeAt hr.rcv).trans hsafe
  · rw [State.warmStatus_reg _ _ _ _ (by decide)]
    exact (congrArg (fun w : Word => bits w.toNat 7 0) (hr.record hne)).trans hpm
  · exact (congrArg (fun w : Word => bits w.toNat _ _ == 1) (State.warmStatus_reg _ _ _ _ (by decide))).trans hr.hasRun
  · exact congrArg ProgState.force hr.prog
  · exact (congrArg ProgState.boot hr.prog).trans hboot
  · exact (congrArg PanState.history hr.pan).trans hpan
  · exact hev.trans (Nat.le_of_eq hr.count.symm)

/-! ## Until the engine is up -/

theorem Keeps.fld {view : State → State} {s t : State} (h : Keeps view s t) (f : Fld) (i : Nat) (hf : ladderReg f.reg = true) :
    t.fld f i = s.fld f i := by
  simp only [State.fld, h.reg f.reg i hf]

theorem inSystem_below_tiles (a : Nat) (h : inSystem a 1 = true) : a < tileBase 0 := by
  simp only [inSystem, Bool.and_eq_true, decide_eq_true_eq] at h
  unfold sysBase sysSize at h
  unfold tileBase
  omega

/-- What the reset has left stands while the engine comes up. -/
theorem warmLeft_boots {s u t : State} {cause : Nat} (h : warmLeft s u cause) (k : Boots u t) : warmLeft s t cause := by
  obtain ⟨hdev, hcount, hat, hsafe, hstep, hwc, hpm, hrun, hforce, hboot, hstaged, hattic, hhist, hsys, hev⟩ := h
  have hrcv : t.rcv = u.rcv := k.keeps.eq State.rcv
  have hprog : t.prog = u.prog := k.keeps.eq State.prog
  refine ⟨(k.keeps.eq State.dev).trans hdev, hrcv ▸ hcount, hrcv ▸ hat, hrcv ▸ hsafe, (k.keeps.fld _ 0 rfl).trans hstep,
    (k.keeps.fld _ 0 rfl).trans hwc, ?_, ?_, hprog ▸ hforce, hprog ▸ hboot, (k.keeps.eq State.staged).trans hstaged,
    (k.keeps.eq (fun v => v.cal.attic)).trans hattic, (k.keeps.eq (fun v => v.pan.history)).trans hhist,
    fun a ha => (k.byte a (inSystem_below_tiles a ha)).trans (hsys a ha), hev.trans k.keeps.count⟩
  · rw [k.keeps.reg _ 0 rfl]
    exact hpm
  · rw [State.flag, k.keeps.fld _ 0 rfl]
    exact hrun

theorem State.raise_boots (s : State) (k : EventKind) (inst : Nat) (fs : List (Nat × Nat × Nat)) :
    Boots s (s.raise k inst fs) :=
  ⟨⟨(congrArg bootView (s.raise_raised k inst fs).1).trans rfl, (s.raise_store k inst fs).count, s.raise_attic k inst fs,
    (s.raise_store k inst fs).reg⟩, fun a _ => s.raise_byte k inst fs a⟩

theorem State.warmFirmware_boots (s : State) : Boots s s.warmFirmware := by
  unfold State.warmFirmware
  split
  · split
    · extract_lets svn sec t
      have ht : Boots s t := s.setSec_boots _ rfl
      exact ht.trans (t.raise_boots _ _ _)
    · exact .refl s
  · exact .refl s

theorem State.setTrg_store (s : State) (g : TrgState) (ht : g.tout = s.trg.tout) (hj : g.jobs = s.trg.jobs) :
    Keeps storeView s { s with trg := g } := .of_fields (by simp only [storeView, engineView, ht, hj]) rfl rfl

/-! ## A quiet engine winds down without writing memory -/

theorem State.over_eq_self {α : Type} (s : State) (l : List α) (f : State → α → State) (h : ∀ a, f s a = s) :
    s.over l f = s := by
  induction l with
  | nil => rfl
  | cons a l ih => exact (congrArg (fun t => State.over t l f) (h a)).trans ih

theorem State.dmaDrainOut_idle (s : State) (c : Nat) (h : s.dma.chans = []) : s.dmaDrainOut c = s := by
  have hc : s.dmaCh c = {} := by simp [State.dmaCh, h, Table.getD, Table.get?]
  unfold State.dmaDrainOut
  rw [hc]
  rfl

/-- With no descriptor and no job in progress a drain writes nothing. -/
theorem State.drainAll_store (s : State) (hd : s.dma.chans = []) (hj : s.trg.jobs = []) : Keeps storeView s s.drainAll := by
  unfold State.drainAll
  extract_lets s1 s2 cause s3 s4 s5 trg s6
  have h1 : Keeps storeView s s1 := .each (fun t dom => .when (fun u => u.dmaDrain_store dom) t _) s 3
  have h2 : s2 = s1 := s1.over_eq_self _ _ (fun c => s1.dmaDrainOut_idle c (h1.dmaChans.trans hd))
  have hj2 : s2.trg.jobs = [] := by rw [h2, h1.jobs, hj]
  have h3 : s3 = s2 := (congrArg (fun l => State.over s2 l _) hj2).trans (State.over_nil _ _)
  have h4 : Keeps storeView s3 s4 := .each (fun t d => .when (fun u => u.recDropped_store d _) t _) s3 32
  have h5 : Keeps storeView s4 s5 := .over (fun t _ => t.recDropped_store _ _) s4 _
  have h25 : Keeps storeView s2 s5 := ((Keeps.of_eq h3).trans h4).trans h5
  clear_value s5
  have h6 : Keeps storeView s5 s6 := s5.setTrg_store _ rfl (h25.jobs.trans hj2).symm
  exact ((((h1.trans (.of_eq h2)).trans h25).trans h6).trans (.each (fun t k => t.replayEnd_store k 3) s6 8)).trans
    (.each (fun t n => t.stopSet_store n) _ 4)

/-- Memory is as it was, and no loss stands unclosed. -/
def Still (m : Table Nat Byte) (s : State) : Prop := s.mem = m ∧ s.cel.losses = []

theorem State.closeLoss_still {m : Table Nat Byte} (s : State) (which : LossEntry → Bool) (h : Still m s) :
    Still m (s.closeLoss which) := by
  obtain ⟨hm, hl⟩ := h
  unfold State.closeLoss
  rw [hl]
  exact ⟨hm, rfl⟩

theorem State.landRelief_still {m : Table Nat Byte} (s : State) (q : Nat) (h : Still m s) : Still m (s.landRelief q) := by
  unfold State.landRelief
  extract_lets t
  have ht : Still m t := by
    unfold t State.when
    split
    · exact State.closeLoss_still _ _ h
    · exact h
  unfold State.when
  split
  · exact State.closeLoss_still _ _ ht
  · exact ht

theorem State.landRelieved_still {m : Table Nat Byte} (s : State) (h : Still m s) : Still m s.landRelieved := by
  have key : ∀ (l : List Nat) (s : State), Still m s → Still m (s.over l State.landRelief) := by
    intro l
    induction l with
    | nil => exact fun _ h => h
    | cons q l ih => exact fun s h => ih _ (s.landRelief_still q h)
  exact State.landRelief_still _ 0 (key _ s h)

theorem State.flushRing_still (s : State) (h : s.cel.issued = [] ∧ s.cel.cross = [] ∧ s.cel.queues = [] ∧ s.cel.losses = []) :
    Still s.mem s.flushRing := by
  obtain ⟨hi, hc, hq, hl⟩ := h
  unfold State.flushRing
  extract_lets ws cel s1
  have hw : ws = [] := by simp [ws, hi, hc, hq]
  rw [hw]
  exact State.landRelieved_still s1 ⟨rfl, hl⟩

theorem State.stopRing_still {m : Table Nat Byte} (s : State) (h : Still m s) : Still m s.stopRing := by
  unfold State.stopRing
  rw [h.2]
  exact s.closeLoss_still _ h

theorem State.setCel_mem (s : State) (c : CelState) : ({ s with cel := c } : State).mem = s.mem := rfl

theorem State.selfRefresh_mem (s : State) : s.selfRefresh.mem = s.mem := s.setCel_mem _

theorem State.windDown_mem (s : State) (hd : s.dma.chans = []) (hj : s.trg.jobs = [])
    (hc : s.cel.issued = [] ∧ s.cel.cross = [] ∧ s.cel.queues = [] ∧ s.cel.losses = []) :
    s.drainAll.flushRing.stopRing.ringOffsets.selfRefresh.mem = s.mem := by
  have h := s.drainAll_store hd hj
  have hs := (s.drainAll.flushRing_still (h.cel ▸ hc))
  rw [State.selfRefresh_mem, (State.ringOffsets_store _).mem, (State.stopRing_still _ hs).1, h.mem]

/-! ## The warm reset -/

theorem Marked.eq {s t : State} {cause : Nat} (h : Marked s t cause) {α : Type} (p : State → α) :
    p (storeView t) = p (storeView { s with trg := { s.trg with tout := [] } }) := congrArg p h.same

section
variable {s t : State} {cause : Nat} (h : Marked s t cause)
include h

theorem Marked.rcv : t.rcv = s.rcv := h.eq State.rcv
theorem Marked.prog : t.prog = s.prog := h.eq State.prog
theorem Marked.cal : t.cal = s.cal := h.eq State.cal
theorem Marked.pan : t.pan = s.pan := h.eq State.pan
theorem Marked.pwr : t.pwr = s.pwr := h.eq State.pwr
theorem Marked.mem : t.mem = s.mem := h.eq State.mem
theorem Marked.cel : t.cel = s.cel := h.eq State.cel
theorem Marked.jobs : t.trg.jobs = s.trg.jobs := h.eq (fun v => v.trg.jobs)
theorem Marked.dmaChans : t.dma.chans = s.dma.chans := h.eq (fun v => v.dma.chans)

end

/-- What a warm reset that runs leaves. -/
structure WarmReset (s t : State) (cause : Nat) : Prop where
  left : warmLeft s t cause
  resetLow : t.pwr.resetLow = s.pwr.resetLow
  waits : s.pwr.rail = 0 → s.pwr.resetLow = true → t.rcv.waitPin = true
  cellar : quiet s → ∀ a, a < cellarSize → t.byte a = s.byte a

/-- What holds before step 5 of the ladder's step 3. -/
structure WarmBody (s t : State) (cause : Nat) : Prop where
  left : warmLeft s t cause
  pwr : t.pwr = s.pwr
  cellar : quiet s → ∀ a, a < cellarSize → t.byte a = s.byte a

theorem State.warmCore_body (s t r : State) (c : CelState) (g : TrgState) (n cause : Nat) (hr : EngineReset t r)
    (hpwr : t.pwr = s.pwr) (hmem : quiet s → t.mem = s.mem)
    (hleft : warmLeft s ((r.warmCore c g).warmStatus n) cause) : WarmBody s ((r.warmCore c g).warmStatus n) cause :=
  ⟨hleft, hr.pwr.trans hpwr, fun hq a ha => (hr.cellar a ha).trans (congrArg (fun m => Table.getD m a 0) (hmem hq))⟩

theorem cellar_below_tiles (a : Nat) (h : a < cellarSize) : a < tileBase 0 := by
  unfold cellarSize at h
  unfold tileBase
  omega

theorem WarmBody.boots {s u t : State} {cause : Nat} (h : WarmBody s u cause) (k : Boots u t) : WarmBody s t cause :=
  ⟨warmLeft_boots h.left k, (k.keeps.eq State.pwr).trans h.pwr,
    fun hq a ha => (k.byte a (cellar_below_tiles a ha)).trans (h.cellar hq a ha)⟩

/-- Step 5 of R553 waits, or the engine comes up. -/
theorem WarmBody.reset_waits {s u : State} {cause : Nat} (h : WarmBody s u cause) :
    WarmReset s { u with rcv := { u.rcv with waitPin := true } } cause :=
  ⟨h.left, congrArg PwrState.resetLow h.pwr, fun _ _ => rfl, h.cellar⟩

theorem WarmBody.bootStart {s u : State} {cause : Nat} (h : WarmBody s u cause) : WarmBody s u.bootStart cause :=
  ⟨⟨rfl, h.left.2⟩, h.pwr, h.cellar⟩

theorem WarmBody.reset_rises {s u : State} {cause : Nat} (h : WarmBody s u cause) (hr : (u.pwr.rail != 0) = true) :
    WarmReset s u cause :=
  ⟨h.left, congrArg PwrState.resetLow h.pwr, fun h0 => absurd (h.pwr ▸ h0) (by simpa using hr), h.cellar⟩

theorem WarmBody.reset_up {s u : State} {cause : Nat} (h : WarmBody s u cause) (hl : u.pwr.resetLow = false) :
    WarmReset s u.bringUp cause := by
  obtain ⟨hleft, hpwr, hcellar⟩ := h.bootStart.boots u.bringUp_boots
  refine ⟨hleft, congrArg PwrState.resetLow hpwr, fun _ h1 => ?_, hcellar⟩
  rw [h.pwr, h1] at hl
  cases hl

theorem State.warmReset_off (s : State) (cause src inst : Nat) (ladder : Bool) (h : s.dev = .off ∨ s.dev = .standby) :
    s.warmReset cause src inst ladder = s := by
  have hd : (s.dev == .off || s.dev == .standby) = true := by rcases h with h | h <;> rw [h] <;> rfl
  unfold State.warmReset
  exact if_pos hd

/-- The third warm reset within the window is a power cycle (R580). -/
theorem State.warmReset_cycles (s : State) (cause src inst : Nat) (ladder : Bool) (ho : s.dev ≠ .off) (hs : s.dev ≠ .standby)
    (hw : 2 ≤ warmRecent s) : s.warmReset cause src inst ladder = s.powerCycle 1 := by
  have hd : ¬ (s.dev == .off || s.dev == .standby) = true := by simp [ho, hs]
  unfold State.warmReset
  exact (if_neg hd).trans (if_pos hw)

theorem State.warmReset_runs (s : State) (cause src inst : Nat) (ladder : Bool) (ho : s.dev ≠ .off) (hs : s.dev ≠ .standby)
    (hw : warmRecent s < 2) (h0 : 0 < cause) (hc : cause < 256) : WarmReset s (s.warmReset cause src inst ladder) cause := by
  unfold State.warmReset
  extract_lets window recent n rcv s0 s1 s2 anchors losses idx s3 cel trg s4 s5
  have hd : ¬ (s.dev == .off || s.dev == .standby) = true := by simp [ho, hs]
  rw [if_neg hd, if_neg (show ¬ 2 ≤ recent.length from Nat.not_le.mpr hw)]
  have h1 : Marked s0 s1 cause := s0.warmMark_marked cause src inst n hc
  have h2 : Keeps engineView s1 s2 := s1.windDown_engine
  have hr : EngineReset s2 s3 := s2.engineReset_spec
  have hrcv : s2.rcv = s0.rcv := h2.rcv.trans (h1.rcv)
  have hprog : s2.prog = s.prog := h2.prog.trans (h1.prog)
  have hcal : s2.cal = s.cal := h2.cal.trans (h1.cal)
  have hpan : s2.pan = s.pan := h2.pan.trans (h1.pan)
  have hpwr : s2.pwr = s.pwr := h2.pwr.trans (h1.pwr)
  have hpm : bits (s2.reg .SYS_PM 0).toNat 7 0 = cause := by
    rw [h2.reg .SYS_PM 0 rfl]
    exact h1.cause
  have hmem : quiet s → s2.mem = s.mem := by
    rintro ⟨hi, hx, hq, hl, hdma, hj, -, -⟩
    have hcel : s1.cel = s.cel := h1.cel
    refine (s1.windDown_mem ?_ (h1.jobs.trans hj) ?_).trans (h1.mem)
    · exact h1.dmaChans.trans (congrArg DmaState.chans hdma)
    · rw [hcel]
      exact ⟨hi, hx, hq, hl⟩
  obtain ⟨c, g, h4⟩ : ∃ c g, s4 = s3.warmCore c g := ⟨_, _, s3.warmCore_eq _ _⟩
  have hbody : WarmBody s (s4.warmStatus n) cause := by
    rw [h4]
    exact State.warmCore_body s s2 s3 c g n cause hr hpwr hmem (State.warmCore_left s s2 s3 c g cause hr h0
      (congrArg RcvState.warmCount hrcv) (congrArg RcvState.warmAt hrcv) (congrArg RcvState.safeAt hrcv) hpm
      (congrArg ProgState.boot hprog) (congrArg CalState.attic hcal) (congrArg PanState.history hpan)
      (h1.count.trans h2.count))
  have h5 : WarmBody s s5 cause := hbody.boots (State.warmFirmware_boots _)
  clear_value s5
  split
  · next hrail => exact h5.reset_rises hrail
  · split
    · exact h5.reset_waits
    · next hlow => exact h5.reset_up (by simpa using hlow)

/-- A warm reset from a running engine (R576, R580). -/
theorem State.warmReset_from (s : State) (cause src inst : Nat) (ladder : Bool) (ho : s.dev ≠ .off) (hs : s.dev ≠ .standby)
    (h0 : 0 < cause) (hc : cause < 256) : warmFrom s (s.warmReset cause src inst ladder) cause := by
  refine ⟨fun hw => (s.warmReset_runs cause src inst ladder ho hs hw h0 hc).left, fun hw => ?_⟩
  rw [s.warmReset_cycles cause src inst ladder ho hs hw]
  have h := s.powerCycle_cycled 1
  exact ⟨h.off, h.cycleAt, h.step⟩

end Sys2Proof.Machine
end

section
/-! PROOFS. The fault freeze (R574, R578). -/

namespace Sys2Proof.Machine

/-! ## Tiles that halt -/

/-- The clock. -/
def clockView (s : State) : State := { now := s.now }

theorem Keeps.clock {s t : State} (h : Keeps engineView s t) : Keeps clockView s t :=
  ⟨h.eq clockView, h.count, h.attic, h.reg⟩

theorem State.setTile_clock (s : State) (n : Nat) (d : Tile) : Keeps clockView s (s.setTile n d) := .of_fields rfl rfl rfl

theorem State.haltTile_clock (s : State) (n cause : Nat) : Keeps clockView s (s.haltTile n cause) :=
  .ite ((s.setTile_clock _ _).trans (State.raise_store _ _ _ _).engine.clock) (.refl s)

theorem State.tileEvent_clock (s : State) (n b : Nat) : Keeps clockView s (s.tileEvent n b) :=
  (s.setTile_clock _ _).trans (.when (fun t => t.haltTile_clock n 2) _ _)

theorem State.haltTile_tile_ne (s : State) (n m cause : Nat) (h : m ≠ n) : (s.haltTile n cause).tile m = s.tile m := by
  unfold State.haltTile
  extract_lets t
  split
  · have hr := State.raise_tiles (s.setTile n { t with state := gtHALTED, haltCause := cause }) Ev.TILE_HALTED n [(0, 1, cause)]
    rw [State.tile, hr]
    exact s.tile_setTile_ne n m _ h
  · rfl

theorem State.haltTile_runs (s : State) (n cause : Nat) : ((s.haltTile n cause).tile n).runs = false := by
  unfold State.haltTile
  extract_lets t
  split
  · have hr := State.raise_tiles (s.setTile n { t with state := gtHALTED, haltCause := cause }) Ev.TILE_HALTED n [(0, 1, cause)]
    rw [State.tile, hr]
    show ((s.setTile n _).tile n).runs = false
    rw [s.tile_setTile_same]
    rfl
  · next h => simpa using h

theorem State.tileEvent_tile_ne (s : State) (n m b : Nat) (h : m ≠ n) : (s.tileEvent n b).tile m = s.tile m := by
  unfold State.tileEvent State.when
  extract_lets t
  split
  · exact (State.haltTile_tile_ne _ n m 2 h).trans (s.tile_setTile_ne n m _ h)
  · exact s.tile_setTile_ne n m _ h

/-- HALT stops the tile. -/
theorem State.tileEvent_halts (s : State) (n : Nat) : ((s.tileEvent n evHALT).tile n).runs = false :=
  State.haltTile_runs _ n 2

/-- Every tile takes FAULT and halts (R574). -/
def State.haltTiles (s : State) (k : Nat) : State := s.each k (fun s n => (s.tileEvent n evFAULT).tileEvent n evHALT)

theorem State.haltTiles_clock (s : State) (k : Nat) : Keeps clockView s (s.haltTiles k) :=
  .each (fun t n => (t.tileEvent_clock n evFAULT).trans (State.tileEvent_clock _ n evHALT)) s k

theorem State.haltTiles_runs (s : State) (k n : Nat) (h : n < k) : ((s.haltTiles k).tile n).runs = false := by
  induction k with
  | zero => omega
  | succ k ih =>
    have hs : s.haltTiles (k + 1) = ((s.haltTiles k).tileEvent k evFAULT).tileEvent k evHALT := by
      simp only [State.haltTiles, State.each, List.range_succ, List.foldl_append, List.foldl_cons, List.foldl_nil]
    rw [hs]
    by_cases hn : n = k
    · subst hn
      exact State.tileEvent_halts _ n
    · rw [State.tileEvent_tile_ne _ _ _ _ hn, State.tileEvent_tile_ne _ _ _ _ hn]
      exact ih (by omega)

/-! ## SAFE -/

/-- What a fault freeze leaves. -/
structure Frozen (s t : State) (src inst : Nat) : Prop where
  dev : t.dev = .safe
  safeAt : t.rcv.safeAt = some s.now
  step : t.fld SYS_RCV_STAT.STEP 0 = 1
  ring : t.cel.running = false
  tiles : ∀ n, n < 68 → (t.tile n).runs = false
  count : s.evq.count + 1 ≤ t.evq.count
  record : t.reg .SYS_PM 0 = BitVec.ofNat 32 (1 + 2 ^ 8 * (src % 2 ^ 8) + 2 ^ 16 * (inst % 2 ^ 16))
  tout : t.trg.tout = []

theorem State.faultFreeze_off (s : State) (src inst : Nat) (h : s.dev = .safe ∨ s.dev = .off ∨ s.dev = .standby) :
    s.faultFreeze src inst = s := by
  have hd : (s.dev == .safe || s.dev == .off || s.dev == .standby) = true := by rcases h with h | h | h <;> rw [h] <;> rfl
  unfold State.faultFreeze
  exact if_pos hd

theorem State.stopRing_running (s : State) : s.stopRing.cel.running = false := rfl

/-- The report of the freeze and its record, in SAFE. -/
def State.safeMark (s : State) (src inst : Nat) : State :=
  ((s.raise Ev.FAULT_FREEZE 0 [(0, 1, src), (1, 2, inst)]).postMortem 1 src inst).setFld SYS_RCV_STAT.STEP 0 1

theorem State.postMortem_sansRegs (s : State) (cause src inst : Nat) :
    (s.postMortem cause src inst).sansRegs = s.sansRegs := State.each_keeps State.sansRegs s 16 _ (fun _ _ => rfl)

theorem State.safeMark_sansRegs (s : State) (src inst : Nat) :
    (s.safeMark src inst).sansRegs = (s.raise Ev.FAULT_FREEZE 0 [(0, 1, src), (1, 2, inst)]).sansRegs := by
  unfold State.safeMark
  rw [State.sansRegs_setFld, State.postMortem_sansRegs]

theorem State.safeMark_record (s : State) (src inst : Nat) : (s.safeMark src inst).reg .SYS_PM 0 =
    BitVec.ofNat 32 (1 + 2 ^ 8 * (src % 2 ^ 8) + 2 ^ 16 * (inst % 2 ^ 16)) := by
  unfold State.safeMark
  rw [State.reg_setFld_ne _ _ _ _ _ _ (by decide), State.postMortem_reg, Nat.one_mod_two_pow_eq_one.mpr (by decide)]

theorem State.safeMark_step (s : State) (src inst : Nat) : (s.safeMark src inst).fld SYS_RCV_STAT.STEP 0 = 1 := by
  unfold State.safeMark
  rw [State.fld_setFld_same _ _ _ _ (by decide) (by decide)]
  rfl

theorem State.safeMark_frozen (s t : State) (src inst : Nat) (hdev : t.dev = .safe) (hsafe : t.rcv.safeAt = some s.now)
    (hring : t.cel.running = false) (htiles : ∀ n, n < 68 → (t.tile n).runs = false) (hcount : s.evq.count ≤ t.evq.count)
    (htout : t.trg.tout = []) : Frozen s (t.safeMark src inst) src inst := by
  have hrec := t.safeMark_record src inst
  have hstep := t.safeMark_step src inst
  have heq := State.eq_of_sansRegs (t.safeMark_sansRegs src inst)
  have hr := t.raise_raised Ev.FAULT_FREEZE 0 [(0, 1, src), (1, 2, inst)]
  have hc := t.raise_count Ev.FAULT_FREEZE 0 [(0, 1, src), (1, 2, inst)]
  generalize t.raise Ev.FAULT_FREEZE 0 [(0, 1, src), (1, 2, inst)] = u at *
  generalize (t.safeMark src inst) = v at *
  have hdev' : v.dev = u.dev := by rw [heq]
  have hrcv' : v.rcv = u.rcv := by rw [heq]
  have hcel' : v.cel = u.cel := by rw [heq]
  have htiles' : v.tiles = u.tiles := by rw [heq]
  have hevq' : v.evq = u.evq := by rw [heq]
  have htrg' : v.trg = u.trg := by rw [heq]
  refine ⟨by rw [hdev', hr.dev, hdev], by rw [hrcv', hr.rcv, hsafe], hstep, by rw [hcel', hr.cel, hring], fun n hn => ?_, ?_,
    hrec, by rw [htrg', hr.trg, htout]⟩
  · rw [State.tile, htiles', hr.tiles]
    exact htiles n hn
  · rw [hevq', hc]
    exact Nat.succ_le_succ hcount

/-- SAFE begins at the device time that stands. -/
def State.enterSafe (s : State) : State := { s with dev := .safe, rcv := { s.rcv with safeAt := some s.now } }

/-- A running device stops, and reports what stopped it (R574, R578). -/
theorem State.faultFreeze_runs (s : State) (src inst : Nat) (hs : s.dev ≠ .safe) (ho : s.dev ≠ .off)
    (hb : s.dev ≠ .standby) : Frozen s (s.faultFreeze src inst) src inst := by
  have hd : ¬ (s.dev == .safe || s.dev == .off || s.dev == .standby) = true := by simp [hs, ho, hb]
  have heq : s.faultFreeze src inst = ((s.haltTiles 68).stopOutputs.flushRing.stopRing.enterSafe).safeMark src inst := by
    unfold State.faultFreeze
    exact if_neg hd
  rw [heq]
  have hc := s.haltTiles_clock 68
  have hr := s.haltTiles_runs 68
  generalize s.haltTiles 68 = t at *
  have hk : Keeps engineView { t with trg := { t.trg with tout := [] } } t.stopOutputs.flushRing.stopRing :=
    (t.stopOutputs_store.engine.trans (State.flushRing_engine _)).trans (State.stopRing_engine _)
  have hring := t.stopOutputs.flushRing.stopRing_running
  generalize t.stopOutputs.flushRing.stopRing = u at *
  refine State.safeMark_frozen s u.enterSafe src inst rfl ?_ hring (fun n hn => ?_) (hc.count.trans hk.count) hk.tout
  · exact congrArg some (hk.now.trans (hc.eq State.now))
  · exact (congrArg (fun l => (Table.getD l n {} : Tile).runs) hk.tiles).trans (hr n hn)

/-- The record's word, for a source and a number as FAULT_FREEZE names them. -/
theorem freezeRecord_toNat (src : Fin 22) (i : BitVec 10) :
    (BitVec.ofNat 32 (1 + 2 ^ 8 * (src.val % 2 ^ 8) + 2 ^ 16 * (i.toNat % 2 ^ 16))).toNat =
      1 + 2 ^ 8 * src.val + 2 ^ 16 * i.toNat := by
  have hs := src.isLt
  have hi := i.isLt
  rw [BitVec.toNat_ofNat]
  omega

end Sys2Proof.Machine
end

section
/-! PROOFS. The commands and events of the recovery ladder that freeze, warm reset or power cycle the device (R97, R574 to
R581, R593). -/

namespace Sys2Proof.Machine

/-! ## The freeze and its hold -/

theorem exec_faultFreeze (s : State) (src : Fin 22) (i : BitVec 10) :
    exec (.faultFreeze src i) s = .next (s.faultFreeze src.val i.toNat) := rfl

theorem exec_faultFreeze_off (s : State) (src : Fin 22) (i : BitVec 10) (h : s.dev = .safe ∨ s.dev = .off ∨ s.dev = .standby) :
    exec (.faultFreeze src i) s = .next s := by
  rw [exec_faultFreeze, s.faultFreeze_off _ _ h]

theorem exec_faultFreeze_runs (s : State) (src : Fin 22) (i : BitVec 10) (hs : s.dev ≠ .safe) (ho : s.dev ≠ .off)
    (hb : s.dev ≠ .standby) : ∃ t, exec (.faultFreeze src i) s = .next t ∧ t.dev = .safe ∧ t.rcv.safeAt = some s.now ∧
      t.fld SYS_RCV_STAT.STEP 0 = 1 ∧ t.cel.running = false ∧ (∀ n, n < 68 → (t.tile n).runs = false) ∧
      s.evq.count + 1 ≤ t.evq.count ∧ (t.reg .SYS_PM 0).toNat = 1 + 2 ^ 8 * src.val + 2 ^ 16 * i.toNat ∧ t.trg.tout = [] := by
  obtain ⟨hdev, hsafe, hstep, hring, htiles, hcount, hrec, htout⟩ := s.faultFreeze_runs src.val i.toNat hs ho hb
  exact ⟨_, exec_faultFreeze s src i, hdev, hsafe, hstep, hring, htiles, hcount, hrec ▸ freezeRecord_toNat src i, htout⟩

/-- The count of SAFE has ended with SAFE_AUTO (R575). -/
def State.safeDue (s : State) (a : Nat) : Bool :=
  s.dev == .safe && s.flag SYS_RCV_CFG.SAFE_AUTO 0 && decide (a + s.fld SYS_RCV_CFG.SAFE_HOLD_S 0 * sCycles ≤ s.now)

theorem exec_safeHoldExpire_none (s : State) (h : s.rcv.safeAt = none) : exec .safeHoldExpire s = .next s := by
  show execSafeHoldExpire s = .next s
  unfold execSafeHoldExpire
  rw [h]

theorem exec_safeHoldExpire_some (s : State) (a : Nat) (h : s.rcv.safeAt = some a) : ∃ src inst,
    exec .safeHoldExpire s = .next (if s.safeDue a = true then s.warmReset 1 src inst true else s) := by
  refine ⟨le (leBytes 4 (s.reg .SYS_PM 0).toNat) 1 1, le (leBytes 4 (s.reg .SYS_PM 0).toNat) 2 2, ?_⟩
  show execSafeHoldExpire s = _
  unfold execSafeHoldExpire
  rw [h]
  rfl

theorem exec_safeHoldExpire_wait (s : State) (a : Nat) (h : s.rcv.safeAt = some a) (hd : s.safeDue a = false) :
    exec .safeHoldExpire s = .next s := by
  obtain ⟨src, inst, he⟩ := exec_safeHoldExpire_some s a h
  rw [he, hd, if_neg Bool.false_ne_true]

theorem exec_safeHoldExpire_idle (s : State)
    (h : s.rcv.safeAt = none ∨ s.dev ≠ .safe ∨ s.flag SYS_RCV_CFG.SAFE_AUTO 0 = false) : exec .safeHoldExpire s = .next s := by
  cases ha : s.rcv.safeAt with
  | none => exact exec_safeHoldExpire_none s ha
  | some a =>
    refine exec_safeHoldExpire_wait s a ha ?_
    rcases h with h | h | h
    · cases ha.symm.trans h
    · simp [State.safeDue, h]
    · simp [State.safeDue, h]

theorem exec_safeHoldExpire_due (s : State) (a : Nat) (ha : s.rcv.safeAt = some a) (hd : s.dev = .safe)
    (hf : s.flag SYS_RCV_CFG.SAFE_AUTO 0 = true) :
    (s.now < a + s.fld SYS_RCV_CFG.SAFE_HOLD_S 0 * sCycles → exec .safeHoldExpire s = .next s) ∧
    (a + s.fld SYS_RCV_CFG.SAFE_HOLD_S 0 * sCycles ≤ s.now → ∃ t, exec .safeHoldExpire s = .next t ∧ warmFrom s t 1) := by
  refine ⟨fun h => exec_safeHoldExpire_wait s a ha ?_, fun h => ?_⟩
  · simp [State.safeDue, h]
  · obtain ⟨src, inst, he⟩ := exec_safeHoldExpire_some s a ha
    have hdue : s.safeDue a = true := by simp [State.safeDue, hd, hf, h]
    rw [if_pos hdue] at he
    exact ⟨_, he, s.warmReset_from 1 src inst true (by simp [hd]) (by simp [hd]) (by decide) (by decide)⟩

theorem exec_rcvHold (s : State) (path : Path) : (s.dev = .safe → exec (.rcvHold path) s =
      .next (({ s with rcv := { s.rcv with safeAt := none } } : State).wrote path .SYS_RCV_CMD 0)) ∧
    (s.dev ≠ .safe → exec (.rcvHold path) s = .next (s.wrote path .SYS_RCV_CMD 0)) := by
  have he : exec (.rcvHold path) s = .next (s.rcvHold.wrote path .SYS_RCV_CMD 0) := rfl
  rw [he, State.rcvHold]
  exact ⟨fun h => by rw [if_pos (by simp [h])], fun h => by rw [if_neg (by simp [h])]⟩

/-! ## WARM and PWR_CYCLE -/

theorem engineIsOff_wrote (t : State) (path : Path) (r : Reg) (i : Nat) (h : engineIsOff t) : engineIsOff (t.wrote path r i) := by
  obtain ⟨hdev, hmem, hsource, hphases, hgood, hpin, hoff⟩ := h
  exact ⟨hdev, hmem, hsource, hphases, hgood, List.mem_cons_of_mem _ hpin, hoff⟩

theorem warmFrom_wrote (s t : State) (cause : Nat) (path : Path) (r : Reg) (i : Nat) (h : warmFrom s t cause) :
    warmFrom s (t.wrote path r i) cause := by
  obtain ⟨hwarm, hcycle⟩ := h
  refine ⟨fun hw => hwarm hw, fun hw => ?_⟩
  obtain ⟨hoff, hat, hstep⟩ := hcycle hw
  exact ⟨engineIsOff_wrote t path r i hoff, hat, hstep⟩

theorem exec_rcvWarm (s : State) (path : Path) :
    (s.dev = .off ∨ s.dev = .standby → exec (.rcvWarm path) s = .next (s.wrote path .SYS_RCV_CMD 0)) ∧
    (s.dev ≠ .off → s.dev ≠ .standby → ∃ t, exec (.rcvWarm path) s = .next t ∧ warmFrom s t 2 ∧
      (warmRecent s < 2 → quiet s → ∀ a, a < cellarSize → t.byte a = s.byte a)) := by
  have he : exec (.rcvWarm path) s = .next ((s.warmReset 2 Block.SYS.index 0 false).wrote path .SYS_RCV_CMD 0) := rfl
  refine ⟨fun h => by rw [he, s.warmReset_off _ _ _ _ h], fun ho hs => ⟨_, he, ?_, fun hw hq => ?_⟩⟩
  · exact warmFrom_wrote _ _ _ _ _ _ (s.warmReset_from 2 _ _ _ ho hs (by decide) (by decide))
  · exact (s.warmReset_runs 2 _ _ _ ho hs hw (by decide) (by decide)).cellar hq

theorem exec_rcvPwrCycle_off (s : State) (path : Path) (h : s.dev = .off) :
    exec (.rcvPwrCycle path) s = .next (s.wrote path .SYS_RCV_CMD 0) := by
  show Host.Outcome.next _ = _
  rw [if_pos (by simp [h])]

theorem PowerCycled.wrote {s t : State} (h : PowerCycled s t) (path : Path) (r : Reg) (i : Nat) :
    PowerCycled s (t.wrote path r i) :=
  ⟨engineIsOff_wrote t path r i h.off, h.faultN, h.hold, h.resetLow, h.cycleAt, h.warmAt, h.step,
    List.mem_cons_of_mem _ h.asked, h.count⟩

theorem exec_rcvPwrCycle_runs (s : State) (path : Path) (h : s.dev ≠ .off) : ∃ t, exec (.rcvPwrCycle path) s = .next t ∧
    engineIsOff t ∧ t.pwr.faultN = true ∧ t.pwr.hold = true ∧ t.rcv.cycleAt = some s.now ∧ t.fld SYS_RCV_STAT.STEP 0 = 3 ∧
    Out.pin .pwrCycleReq true ∈ t.out := by
  have he : exec (.rcvPwrCycle path) s = .next ((s.powerCycle 3).wrote path .SYS_RCV_CMD 0) := by
    show Host.Outcome.next _ = _
    rw [if_neg (by simp [h])]
  obtain ⟨hoff, hfault, hhold, -, hat, -, hstep, hpin, -⟩ := (s.powerCycle_cycled 3).wrote path .SYS_RCV_CMD 0
  exact ⟨_, he, hoff, hfault, hhold, hat, hstep, hpin⟩

/-! ## RESET_N -/

/-- RESET_N low, as the device sees it. -/
def State.resetSeen (s : State) (low : Bool) : State := { s with pwr := { s.pwr with resetLow := low } }

theorem exec_resetNLow_falls (s : State) (h : s.pwr.resetLow = false) :
    exec .resetNLow s = .next ((s.resetSeen true).warmReset 3 Block.SYS.index 0 false) := by
  show Host.Outcome.next (if s.pwr.resetLow then s else (s.resetSeen true).warmReset 3 Block.SYS.index 0 false) = _
  rw [if_neg (by simp [h])]

/-- A warm reset does not depend on RESET_N up to its step 5. -/
theorem warmFrom_resetSeen {s t : State} {low : Bool} {cause : Nat} (h : warmFrom (s.resetSeen low) t cause) :
    warmFrom s t cause := h

theorem exec_resetNLow_runs (s : State) (h : s.pwr.resetLow = false) (ho : s.dev ≠ .off) (hs : s.dev ≠ .standby) :
    ∃ t, exec .resetNLow s = .next t ∧ warmFrom s t 3 ∧ t.pwr.resetLow = true ∧
      (warmRecent s < 2 → s.pwr.rail = 0 → t.rcv.waitPin = true) := by
  refine ⟨_, exec_resetNLow_falls s h, ?_, ?_, fun hw hr => ?_⟩
  · exact warmFrom_resetSeen ((s.resetSeen true).warmReset_from 3 _ _ _ ho hs (by decide) (by decide))
  · by_cases hw : warmRecent (s.resetSeen true) < 2
    · exact ((s.resetSeen true).warmReset_runs 3 _ _ _ ho hs hw (by decide) (by decide)).resetLow
    · rw [(s.resetSeen true).warmReset_cycles 3 _ _ _ ho hs (Nat.not_lt.mp hw)]
      exact ((s.resetSeen true).powerCycle_cycled 1).resetLow
  · exact ((s.resetSeen true).warmReset_runs 3 _ _ _ ho hs hw (by decide) (by decide)).waits hr rfl

theorem exec_resetNLow (s : State) : (s.pwr.resetLow = true → exec .resetNLow s = .next s) ∧
    (s.pwr.resetLow = false → (s.dev = .off ∨ s.dev = .standby) →
      exec .resetNLow s = .next { s with pwr := { s.pwr with resetLow := true } }) ∧
    (s.pwr.resetLow = false → s.dev ≠ .off → s.dev ≠ .standby → ∃ t, exec .resetNLow s = .next t ∧ warmFrom s t 3 ∧
      t.pwr.resetLow = true ∧ (warmRecent s < 2 → s.pwr.rail = 0 → t.rcv.waitPin = true)) := by
  refine ⟨fun h => ?_, fun h ho => ?_, exec_resetNLow_runs s⟩
  · show Host.Outcome.next _ = _
    rw [h]
    rfl
  · rw [exec_resetNLow_falls s h, (s.resetSeen true).warmReset_off _ _ _ _ ho]
    rfl

theorem State.standbyStart_waits (s : State) (h : s.dev ≠ .standby) : s.standbyStart = s := by
  have hd : (s.dev != .standby) = true := by simp [h]
  unfold State.standbyStart
  rw [hd]
  rfl

/-- BOOT begins, on standby power. -/
def State.wakeUp (s : State) : State :=
  { s with dev := .boot
           pwr := { s.pwr with rail := 2, wake := false, hold := false }
           sec := { s.sec with bootAt := s.now } }

/-- The engine runs from the input named (R532). -/
def State.sourceStart (s : State) (y : Nat) : State :=
  (s.setFld PWR_STATUS.SOURCE 0 y).setFld PWR_STATUS.PHASES_B 0 (96 * y)

theorem State.sourceStart_source (s : State) (y : Nat) (h : y < 4) : (s.sourceStart y).source = y := by
  rw [State.source, State.sourceStart, State.fld_setFld_ne _ _ _ _ _ _ (by decide) (by decide) (by decide),
    State.fld_setFld_same _ _ _ _ (by decide) (by decide)]
  exact Nat.mod_eq_of_lt h

theorem State.selectSource_lt (s : State) (y : Nat) (h : s.selectSource = some y) : y < 4 := by
  unfold State.selectSource at h
  split at h
  · cases h
    decide
  · split at h
    · cases h
    · split at h <;> cases h
      decide

theorem State.standbyStart_eq (s : State) (y : Nat) (ha : autoStarts s) (hy : s.selectSource = some y) :
    s.standbyStart = (s.wakeUp.sourceStart y).driveFault false := by
  obtain ⟨hdev, hauto, hhold, hlow, hrun⟩ := ha
  have hc : ¬ (s.dev != .standby || s.sec.running.isNone || s.pwr.resetLow ||
      !(s.pwr.wake || (s.flag PWR_SW_CFG.AUTO_START 0 && !s.pwr.hold))) = true := by
    simp [hdev, hauto, hhold, hlow, Option.isSome_iff_ne_none.mp hrun]
  unfold State.standbyStart
  dsimp only
  rw [if_neg hc, hy]
  rfl

theorem State.standbyStart_starts (s : State) (y : Nat) (ha : autoStarts s) (hy : s.selectSource = some y) :
    s.standbyStart.dev = .boot ∧ s.standbyStart.source = y ∧ s.standbyStart.pwr.rail = 2 := by
  have hsrc := s.wakeUp.sourceStart_source y (s.selectSource_lt y hy)
  obtain ⟨l, h⟩ := (s.wakeUp.sourceStart y).driveFault_shape false
  rw [s.standbyStart_eq y ha hy, h]
  exact ⟨rfl, hsrc, rfl⟩

theorem exec_resetNRise_high (s : State) (h : s.pwr.resetLow = true) : exec .resetNRise s = .next
    (if s.rcv.waitPin then ({ s.resetSeen false with rcv := { s.rcv with waitPin := false } } : State).bringUp
      else (s.resetSeen false).standbyStart) := by
  show execResetNRise s = _
  unfold execResetNRise
  rw [if_neg (by simp [h])]
  rfl

theorem exec_resetNRise_rises (s : State) (h : s.pwr.resetLow = true) (hw : s.rcv.waitPin = false) :
    exec .resetNRise s = .next (s.resetSeen false).standbyStart := by
  rw [exec_resetNRise_high s h, if_neg (by simp [hw])]

theorem exec_resetNRise_up (s : State) (h : s.pwr.resetLow = true) (hw : s.rcv.waitPin = true) : exec .resetNRise s =
    .next ({ s.resetSeen false with rcv := { s.rcv with waitPin := false } } : State).bringUp := by
  rw [exec_resetNRise_high s h, if_pos hw]

/-- BOOT has begun. -/
theorem Boots.begun {s t : State} (h : Boots s.bootStart t) :
    t.dev = .boot ∧ t.pwr = s.pwr ∧ t.rcv = s.rcv ∧ t.sec.bootAt = s.now :=
  ⟨h.keeps.eq State.dev, h.keeps.eq State.pwr, h.keeps.eq State.rcv, h.keeps.eq (fun v => v.sec.bootAt)⟩

theorem exec_resetNRise (s : State) : (s.pwr.resetLow = false → exec .resetNRise s = .next s) ∧
    (s.pwr.resetLow = true → s.rcv.waitPin = false → s.dev ≠ .standby →
      exec .resetNRise s = .next { s with pwr := { s.pwr with resetLow := false } }) ∧
    (s.pwr.resetLow = true → s.rcv.waitPin = true → ∃ t, exec .resetNRise s = .next t ∧ t.dev = .boot ∧
      t.pwr.resetLow = false ∧ t.rcv.waitPin = false ∧ t.sec.bootAt = s.now) ∧
    (∀ y, s.pwr.resetLow = true → s.rcv.waitPin = false → autoStarts { s with pwr := { s.pwr with resetLow := false } } →
      s.selectSource = some y → ∃ t, exec .resetNRise s = .next t ∧ t.dev = .boot ∧ t.source = y ∧ t.pwr.rail = 2) := by
  refine ⟨fun h => ?_, fun h hw hs => ?_, fun h hw => ⟨_, exec_resetNRise_up s h hw, ?_⟩, fun y h hw ha hy =>
    ⟨_, exec_resetNRise_rises s h hw, (s.resetSeen false).standbyStart_starts y ha hy⟩⟩
  · show execResetNRise s = _
    unfold execResetNRise
    rw [if_pos (by simp [h])]
  · rw [exec_resetNRise_rises s h hw, (s.resetSeen false).standbyStart_waits hs]
    rfl
  · obtain ⟨hdev, hpwr, hrcv, hat⟩ :=
      (State.bringUp_boots { s.resetSeen false with rcv := { s.rcv with waitPin := false } }).begun
    exact ⟨hdev, congrArg PwrState.resetLow hpwr, congrArg RcvState.waitPin hrcv, hat⟩

/-! ## Step 4 -/

theorem State.bypPersists_iff (s : State) : s.bypPersists = true ↔ s.dev = .boot ∧ s.pwr.rail = 0 ∧ s.rcv.waitPin = false ∧
    s.clk.bypDone = false ∧ s.sec.bootAt + 20 * msCycles ≤ s.now := by
  simp [State.bypPersists, and_assoc]

theorem exec_warmResetTimeout_idle (s : State) (h : s.rcv.warmAt = none) : exec .warmResetTimeout s = .next s := by
  show execWarmResetTimeout s = .next s
  unfold execWarmResetTimeout
  rw [h]

theorem exec_warmResetTimeout_some (s : State) (a : Nat) (h : s.rcv.warmAt = some a) : exec .warmResetTimeout s = .next
    (if s.bypPersists = true then s.powerCycle 2 else if s.now < a + 15 * sCycles then s else s.powerCycle 0) := by
  show execWarmResetTimeout s = _
  unfold execWarmResetTimeout
  rw [h]

theorem exec_warmResetTimeout (s : State) (a : Nat) (ha : s.rcv.warmAt = some a) :
    (s.bypPersists = false → s.now < a + 15 * sCycles → exec .warmResetTimeout s = .next s) ∧
    (s.bypPersists = true ∨ a + 15 * sCycles ≤ s.now → ∃ t, exec .warmResetTimeout s = .next t ∧ engineIsOff t ∧ t.rcv.warmAt = none ∧
      t.rcv.cycleAt = some s.now ∧ t.pwr.faultN = true ∧ t.evq.count = s.evq.count + 1) := by
  have he := exec_warmResetTimeout_some s a ha
  refine ⟨fun hp hn => by rw [he, if_neg (by simp [hp]), if_pos hn], fun h => ?_⟩
  have hcycle : ∃ c, exec .warmResetTimeout s = .next (s.powerCycle c) := by
    by_cases hp : s.bypPersists = true
    · exact ⟨2, he.trans (by rw [if_pos hp])⟩
    · exact ⟨0, he.trans (by rw [if_neg hp, if_neg (Nat.not_lt.mpr (h.resolve_left hp))])⟩
  obtain ⟨c, hc⟩ := hcycle
  obtain ⟨hoff, hfault, -, -, hat, hwarm, -, -, hcount⟩ := s.powerCycle_cycled c
  exact ⟨_, hc, hoff, hwarm, hat, hfault, hcount⟩

theorem exec_pwrCycleIgnored_idle (s : State) (h : s.rcv.cycleAt = none) : exec .pwrCycleIgnored s = .next s := by
  show execPwrCycleIgnored s = .next s
  unfold execPwrCycleIgnored
  rw [h]

/-- The request is released, and the Attic logs that it was ignored. -/
def State.releaseCycle (s : State) : State :=
  ({ s with evq := { s.evq with attic := s.evq.attic ++ [.pwrCycleIgnored] }
            rcv := { s.rcv with cycleAt := none } } : State).emit (.pin .pwrCycleReq false)

theorem exec_pwrCycleIgnored_some (s : State) (a : Nat) (h : s.rcv.cycleAt = some a) : exec .pwrCycleIgnored s = .next
    (if s.now < a + 2100 * msCycles then s else s.releaseCycle.driveFault true) := by
  show execPwrCycleIgnored s = _
  unfold execPwrCycleIgnored
  rw [h]
  rfl

theorem exec_pwrCycleIgnored (s : State) (a : Nat) (ha : s.rcv.cycleAt = some a) :
    (s.now < a + 2100 * msCycles → exec .pwrCycleIgnored s = .next s) ∧
    (a + 2100 * msCycles ≤ s.now → ∃ t, exec .pwrCycleIgnored s = .next t ∧ t.evq.attic = s.evq.attic ++ [.pwrCycleIgnored] ∧
      t.rcv.cycleAt = none ∧ t.pwr.faultN = true ∧ t.dev = s.dev ∧ Out.pin .pwrCycleReq false ∈ t.out) := by
  have he := exec_pwrCycleIgnored_some s a ha
  refine ⟨fun h => by rw [he, if_pos h], fun h => ?_⟩
  rw [if_neg (Nat.not_lt.mpr h)] at he
  obtain ⟨l, hl⟩ := s.releaseCycle.driveFault_shape true
  rw [hl] at he
  exact ⟨_, he, rfl, rfl, rfl, rfl, List.mem_append_right _ List.mem_cons_self⟩

/-! ## Timeouts of step 2 that start a warm reset -/

theorem exec_reinitTimeout (s : State) (u : ReinitUnit) : exec (.reinitTimeout u) s = execReinitTimeout u s := rfl

theorem exec_reinitTimeout_die (s : State) (k : Fin 8) :
    ((s.die k).down = false ∨ s.now < (s.die k).downSince + 10 * msCycles → exec (.reinitTimeout (.die k)) s = .next s) ∧
    ((s.die k).down = true → (s.die k).downSince + 10 * msCycles ≤ s.now → s.dev ≠ .off → s.dev ≠ .standby →
      ∃ t, exec (.reinitTimeout (.die k)) s = .next t ∧ warmFrom s t 4) := by
  have he : exec (.reinitTimeout (.die k)) s = .next (if ((s.die k).down && decide ((s.die k).downSince + 10 * msCycles ≤ s.now)) = true
      then s.warmReset 4 Block.CNV.index (0x200 + k.val) true else s) := rfl
  rw [he]
  refine ⟨fun h => by rw [if_neg (by rcases h with h | h <;> simp [h])], fun hd hn ho hs => ?_⟩
  rw [if_pos (by simp [hd, hn])]
  exact ⟨_, rfl, s.warmReset_from 4 _ _ _ ho hs (by decide) (by decide)⟩

theorem exec_reinitTimeout_relock (s : State) (a : Nat) (ha : s.clk.failSince = some a) :
    (s.now < a + s.fld SYS_RCV_CFG.RELOCK_S 0 * sCycles → exec (.reinitTimeout .relock) s = .next s) ∧
    (a + s.fld SYS_RCV_CFG.RELOCK_S 0 * sCycles ≤ s.now → s.dev ≠ .off → s.dev ≠ .standby →
      ∃ t, exec (.reinitTimeout .relock) s = .next t ∧ warmFrom s t 5) := by
  have he : exec (.reinitTimeout .relock) s = .next (if a + s.fld SYS_RCV_CFG.RELOCK_S 0 * sCycles ≤ s.now
      then s.warmReset 5 Block.CLK.index 0 true else s) := by
    rw [exec_reinitTimeout]
    unfold execReinitTimeout
    dsimp only
    rw [ha]
  rw [he]
  refine ⟨fun h => by rw [if_neg (Nat.not_le.mpr h)], fun h ho hs => ?_⟩
  rw [if_pos h]
  exact ⟨_, rfl, s.warmReset_from 5 _ _ _ ho hs (by decide) (by decide)⟩

/-- RELOCK_S has passed over a cleaner that stays unlocked. -/
def State.cleanerDue (s : State) (k a : Nat) : Bool :=
  decide (s.clk.relock = 0) && !bit (s.fld CLK_STATUS.JC_LOCK 0) k && decide (a + s.fld SYS_RCV_CFG.RELOCK_S 0 * sCycles ≤ s.now)

theorem exec_reinitTimeout_cleaner_some (s : State) (k : Fin 8) (a : Nat) (h : (s.die k).bypSince = some a) :
    exec (.reinitTimeout (.cleaner k)) s =
      .next (if s.cleanerDue k a = true then s.warmReset 5 Block.CLK.index k.val true else s) := by
  rw [exec_reinitTimeout]
  unfold execReinitTimeout
  dsimp only
  rw [h]
  rfl

theorem exec_reinitTimeout_cleaner_due (s : State) (k : Fin 8) (a : Nat) (h : (s.die k).bypSince = some a)
    (hr : s.clk.relock = 0) (hb : bit (s.fld CLK_STATUS.JC_LOCK 0) k = false)
    (hn : a + s.fld SYS_RCV_CFG.RELOCK_S 0 * sCycles ≤ s.now) (ho : s.dev ≠ .off) (hs : s.dev ≠ .standby) :
    ∃ t, exec (.reinitTimeout (.cleaner k)) s = .next t ∧ warmFrom s t 5 := by
  rw [exec_reinitTimeout_cleaner_some s k a h, if_pos (by simp [State.cleanerDue, hr, hb, hn])]
  exact ⟨_, rfl, s.warmReset_from 5 _ _ _ ho hs (by decide) (by decide)⟩

theorem exec_reinitTimeout_cleaner_idle (s : State) (k : Fin 8) (h : (s.die k).bypSince = none ∨ s.clk.relock ≠ 0 ∨
    bit (s.fld CLK_STATUS.JC_LOCK 0) k = true ∨
    ∃ a, (s.die k).bypSince = some a ∧ s.now < a + s.fld SYS_RCV_CFG.RELOCK_S 0 * sCycles) :
    exec (.reinitTimeout (.cleaner k)) s = .next s := by
  cases hb : (s.die k).bypSince with
  | none =>
    rw [exec_reinitTimeout]
    unfold execReinitTimeout
    dsimp only
    rw [hb]
  | some a =>
    have hdue : ¬ s.cleanerDue k a = true := by
      rcases h with h | h | h | ⟨b, h, hn⟩
      · cases hb.symm.trans h
      · simp [State.cleanerDue, h]
      · simp [State.cleanerDue, h]
      · cases hb.symm.trans h
        simp [State.cleanerDue, hn]
    rw [exec_reinitTimeout_cleaner_some s k a hb, if_neg hdue]

end Sys2Proof.Machine
end

section
/-! PROOFS. Step 2 of the ladder for the pseudo-channels of the cellar (R354, R355, R572, R573). -/

namespace Sys2Proof.Machine

/-! ## Commands of the memory controllers leave the pseudo-channels' states -/

theorem CelState.foldl_pc {α : Type} (f : CelState → α → CelState) (hf : ∀ c a, (f c a).pc = c.pc) (l : List α) (c : CelState) :
    (l.foldl f c).pc = c.pc := by
  induction l generalizing c with
  | nil => rfl
  | cons a l ih => exact (ih (f c a)).trans (hf c a)

theorem CelState.hist_pc (c : CelState) (now h source : Nat) (cs : List (Nat × Nat × Nat × Nat × Nat)) :
    (c.hist now h source cs).pc = c.pc := by
  unfold CelState.hist
  split <;> rfl

theorem CelState.wake_pc (c : CelState) (now m : Nat) : (c.wake now m).pc = c.pc := by
  unfold CelState.wake
  split
  · exact CelState.foldl_pc _ (fun c _ => c.hist_pc _ _ _ _) _ _
  · rfl

theorem CelState.access_pc (c : CelState) (now source : Nat) (write : Bool) (a n : Nat) :
    (c.access now source write a n).pc = c.pc := by
  unfold CelState.access
  split
  · rfl
  · next h _ =>
    extract_lets w
    split
    · rfl
    · have hw : w.pc = c.pc := by
        unfold w
        split
        · rfl
        · exact c.wake_pc _ _
      exact (CelState.hist_pc _ _ _ _ _).trans hw

theorem CelState.log_pc (c : CelState) (now source : Nat) (write : Bool) (a n : Nat) : (c.log now source write a n).pc = c.pc := by
  unfold CelState.log
  split
  · rfl
  · exact CelState.foldl_pc _ (fun c _ => c.access_pc _ _ _ _ _) _ _

theorem CelState.mirror_pc (c : CelState) (now h r a n : Nat) : (c.mirror now h r a n).pc = c.pc := by
  unfold CelState.mirror
  split
  · rfl
  · refine Eq.trans (b := (List.foldl _ { c with moved := Table.insert natLt c.moved h r } _).pc) rfl ?_
    refine CelState.foldl_pc _ (fun c i => ?_) _ _
    dsimp only
    split
    · exact c.access_pc _ _ _ _ _
    · rfl

/-! ## The loss log leaves them too -/

/-- The clock and the pseudo-channels' states. -/
def pcView (s : State) : State := { now := s.now, cel := { pc := s.cel.pc } }

section
variable {s t : State}

theorem Keeps.pcs (h : Keeps storeView s t) : Keeps pcView s t := ⟨h.eq pcView, h.count, h.attic, h.reg⟩

theorem Keeps.pcClock (h : Keeps pcView s t) : Keeps clockView s t := ⟨h.eq clockView, h.count, h.attic, h.reg⟩

theorem Keeps.pc (h : Keeps pcView s t) (k : Nat) : t.pc k = s.pc k := h.eq (fun v => v.pc k)

end

theorem State.setCel_pcs (s : State) (c : CelState) (h : c.pc = s.cel.pc) : Keeps pcView s { s with cel := c } :=
  .of_fields (by simp only [pcView, h]) rfl rfl

theorem State.memLog_pcs (s : State) (source : Nat) (write : Bool) (a n : Nat) : Keeps pcView s (s.memLog source write a n) := by
  have hl := s.cel.log_pc s.now source write a n
  refine s.setCel_pcs _ ?_
  split
  · split
    · exact (CelState.mirror_pc _ _ _ _ _ _).trans hl
    · exact hl
  · exact hl

theorem State.devPut_pcs (s : State) (source a : Nat) (bs : List Byte) : Keeps pcView s (s.devPut source a bs) := by
  have hw : Keeps pcView s (s.devWrite a bs) := by
    rw [s.devWrite_shape a bs]
    exact .of_fields rfl rfl rfl
  exact hw.trans (State.memLog_pcs _ _ _ _ _)

theorem State.storeLoss_pcs (s : State) (e : LossEntry) : Keeps pcView s (s.storeLoss e) := by
  unfold State.storeLoss
  split
  · exact .refl s
  · exact s.devPut_pcs _ _ _

theorem State.closeLoss_pcs (s : State) (which : LossEntry → Bool) : Keeps pcView s (s.closeLoss which) :=
  (Keeps.over (fun t e => (t.storeLoss_pcs e).trans (State.raise_store _ _ _ _).pcs) _ _).after rfl rfl rfl

theorem State.openLoss_pcs (s : State) (cause h : Nat) (lost : List SBlock) : Keeps pcView s (s.openLoss cause h lost) :=
  .ite (.refl s) ((State.storeLoss_pcs _ _).after rfl rfl rfl)

theorem State.lossSync_pcs (s : State) (before : List (Nat × Nat)) : Keeps pcView s (s.lossSync before) :=
  (Keeps.over (fun t _ => t.closeLoss_pcs _) s _).trans (.over (fun t _ => t.openLoss_pcs _ _ _) _ _)

/-! ## The pantry replaces a pseudo-channel -/

theorem State.setPan_pcs (s : State) (p : PanState) : Keeps pcView s { s with pan := p } := .of_fields rfl rfl rfl

/-- The swap of a pseudo-channel is noted in the pantry, or not begun. -/
theorem State.trySwap_pcs (s : State) (w : PanSwap) (h : w.kind = kMEM) : Keeps pcView s (s.trySwap w).2 := by
  unfold State.trySwap
  extract_lets u
  rw [h]
  split
  · exact .refl s
  · change Keeps pcView s (if _ then (_, s) else _).2
    split
    · exact .refl s
    · split
      · exact .refl s
      · split
        · exact .refl s
        · exact s.setPan_pcs _

theorem State.swapAnswer_pcs (s : State) (kind u : Nat) (c : SwapCause) (r : Nat) :
    Keeps pcView s (s.swapAnswer kind u c r) := by
  unfold State.swapAnswer
  extract_lets mine pan t
  have ht : Keeps pcView s t := .ite (s.setPan_pcs _) (.refl s)
  exact ht.trans (.when (fun v => ((v.setFld_store PAN_CMD_STAT.RESULT 0 r rfl).trans
    (State.setFlag_store _ PAN_CMD_STAT.BUSY 0 false rfl)).pcs) t _)

theorem State.autoSwap_pcs (s : State) (w : PanSwap) (h : w.kind = kMEM) : Keeps pcView s (s.autoSwap w) := by
  have hk := s.trySwap_pcs w h
  unfold State.autoSwap
  generalize s.trySwap w = r at *
  obtain ⟨res, t⟩ := r
  cases res with
  | started => exact hk
  | wait => exact hk.trans (t.setPan_pcs _)
  | noSpare => exact (hk.trans (State.raise_store _ _ _ _).pcs).trans (State.swapAnswer_pcs _ _ _ _ _)
  | failed => exact hk.trans (State.swapAnswer_pcs _ _ _ _ _)

theorem State.unitFailed_pcs (s : State) (h : Nat) : Keeps pcView s (s.unitFailed kMEM h) := by
  unfold State.unitFailed
  extract_lets t
  have ht : Keeps pcView s t := s.setPan_pcs _
  exact ht.trans (.ite (State.raise_store _ _ _ _).pcs (t.autoSwap_pcs _ rfl))

/-! ## Retirement and release -/

theorem State.pc_setPc (s : State) (h : Nat) (x : PcState) : (s.setPc h x).pc h = x := Table.getD_set_same _ _ _ _

theorem State.setPc_clock (s : State) (h : Nat) (x : PcState) : Keeps clockView s (s.setPc h x) := .of_fields rfl rfl rfl

theorem State.pcRetired_pc (s : State) (h : Nat) (hf : s.pc h = .frozen) : (s.pcRetired h).pc h = .retired := by
  unfold State.pcRetired State.retirePc
  rw [if_pos (by simp [hf]), if_pos (by simp [hf]), (State.unitFailed_pcs _ h).pc, State.pc_setPc]

theorem State.retirePc_clock (s : State) (h : Nat) : Keeps clockView s (s.retirePc h) := .ite (s.setPc_clock h _) (.refl s)

theorem State.pcRetired_clock (s : State) (h : Nat) : Keeps clockView s (s.pcRetired h) :=
  .ite ((s.retirePc_clock h).trans (State.unitFailed_pcs _ h).pcClock) (.refl s)

/-- Step 2 records the time and reports. -/
theorem State.step2_pcs (s : State) (src inst : Nat) : Keeps pcView s (s.step2 src inst).2 :=
  (State.raise_store _ _ _ _).pcs.after rfl rfl rfl

/-- The first time within the hour. -/
theorem State.step2_first (s : State) (src inst : Nat) (h : Table.getD s.rcv.steps (1024 * src + inst) [] = []) :
    (s.step2 src inst).1 = 1 := by
  unfold State.step2
  dsimp only
  rw [h]
  rfl

theorem State.release_clock (s : State) (h : Nat) : Keeps clockView s (s.release h) :=
  .ite (.refl s) (((s.setPc_clock h .reinit).trans (State.timerSet_store _ _).pcs.pcClock).trans
    (State.lossSync_pcs _ _).pcClock)

theorem State.release_pc (s : State) (h : Nat) (hf : s.pc h = .frozen) : (s.release h).pc h = .reinit := by
  unfold State.release
  rw [if_neg (by simp [hf]), (State.lossSync_pcs _ _).pc]
  exact s.pc_setPc h .reinit

theorem State.pcReleased_clock (s : State) (h : Nat) : Keeps clockView s (s.pcReleased h) := by
  unfold State.pcReleased
  refine .ite (.refl s) ((s.step2_pcs Block.CEL.index h).pcClock.trans (.ite ?_ (State.release_clock _ h)))
  exact (State.pcRetired_clock _ h).trans (State.raise_store _ _ _ _).pcs.pcClock

theorem State.pcReleased_pc (s : State) (h : Nat) (hf : s.pc h = .frozen)
    (hs : Table.getD s.rcv.steps (1024 * Block.CEL.index + h) [] = []) : (s.pcReleased h).pc h = .reinit := by
  have h1 := s.step2_first Block.CEL.index h hs
  have h2 := ((s.step2_pcs Block.CEL.index h).pc h).trans hf
  unfold State.pcReleased
  rw [if_neg (by simp [hf])]
  dsimp only
  rw [if_neg (by omega)]
  exact State.release_pc _ h h2

/-! ## The end of a hold -/

/-- The diagnosis of h is kept in the Attic (R573). -/
def State.diagnose (s : State) (h d y : Nat) : State :=
  { s with evq := { s.evq with attic := s.evq.attic ++ [.diagnosis h d y (Table.getD s.cel.history h [])] } }

/-- The last freeze came within 24 h of an earlier one. -/
def frozeAgain (times : List Nat) : Bool :=
  decide (2 ≤ (times.filter (fun t => decide (times.getLastD 0 < t + 24 * 3600 * sCycles))).length)

theorem frozeAgain_iff (old : List Nat) (a : Nat) :
    frozeAgain (old ++ [a]) = true ↔ ∃ o ∈ old, a < o + 24 * 3600 * sCycles := by
  have hs : 0 < sCycles := by decide
  have hlast : (old ++ [a]).getLastD 0 = a := by simp
  have hself : decide (a < a + 24 * 3600 * sCycles) = true := by
    rw [decide_eq_true_eq]
    omega
  unfold frozeAgain
  rw [hlast, List.filter_append, List.length_append, List.filter_singleton, hself]
  simp only [decide_eq_true_eq, cond_true, List.length_singleton, Nat.add_le_add_iff_right (n := 1)]
  refine List.length_pos_iff_exists_mem.trans ?_
  simp only [List.mem_filter, decide_eq_true_eq]

/-- h has been frozen for PC_HOLD_S. -/
def State.holdOver (s : State) (times : List Nat) : Bool :=
  times.getLast?.any (fun t => decide (t + s.fld SYS_RCV_CFG.PC_HOLD_S 0 * sCycles ≤ s.now))

/-- h is retired, or released. -/
def State.holdEnds (s : State) (h : Nat) (again : Bool) : State := if again then s.pcRetired h else s.pcReleased h

theorem State.holdEnds_attic (s : State) (h : Nat) (again : Bool) : s.evq.attic <+: (s.holdEnds h again).evq.attic :=
  (Keeps.ite (s.pcRetired_clock h) (s.pcReleased_clock h) : Keeps clockView s (s.holdEnds h again)).attic

theorem State.diagnose_holdEnds_attic (s : State) (h d y : Nat) (again : Bool) :
    .diagnosis h d y (Table.getD s.cel.history h []) ∈ ((s.diagnose h d y).holdEnds h again).evq.attic :=
  ((s.diagnose h d y).holdEnds_attic h again).subset (List.mem_append_right _ List.mem_cons_self)

theorem State.diagnose_holdEnds_retired (s : State) (h d y : Nat) (hf : s.pc h = .frozen) :
    ((s.diagnose h d y).holdEnds h true).pc h = .retired := (s.diagnose h d y).pcRetired_pc h hf

theorem State.diagnose_holdEnds_released (s : State) (h d y : Nat) (hf : s.pc h = .frozen)
    (hs : Table.getD s.rcv.steps (1024 * Block.CEL.index + h) [] = []) :
    ((s.diagnose h d y).holdEnds h false).pc h = .reinit := (s.diagnose h d y).pcReleased_pc h hf hs

theorem exec_pcHoldExpire (s : State) (h : Fin 128) : exec (.pcHoldExpire h) s = .next
    (if s.pc h.val != .frozen || !s.flag SYS_RCV_CFG.PC_AUTO 0 || !s.holdOver (Table.getD s.cel.freezes h.val []) then s
    else
      (s.diagnose h.val (Table.getD s.cel.diag h.val (0, 0)).1 (Table.getD s.cel.diag h.val (0, 0)).2).holdEnds h.val
        (frozeAgain (Table.getD s.cel.freezes h.val []))) := rfl

theorem exec_pcHoldExpire_idle (s : State) (h : Fin 128) (hi : s.pc h ≠ .frozen ∨ s.flag SYS_RCV_CFG.PC_AUTO 0 = false) :
    exec (.pcHoldExpire h) s = .next s := by
  rw [exec_pcHoldExpire, if_pos]
  rcases hi with hi | hi <;> simp [hi]

theorem exec_pcHoldExpire_due (s : State) (h : Fin 128) (old : List Nat) (a : Nat) (hf : s.pc h = .frozen)
    (hauto : s.flag SYS_RCV_CFG.PC_AUTO 0 = true) (ht : Table.getD s.cel.freezes h.val [] = old ++ [a]) :
    (s.now < a + s.fld SYS_RCV_CFG.PC_HOLD_S 0 * sCycles → exec (.pcHoldExpire h) s = .next s) ∧
    (a + s.fld SYS_RCV_CFG.PC_HOLD_S 0 * sCycles ≤ s.now → ∃ t d y w, exec (.pcHoldExpire h) s = .next t ∧
      (d, y) = Table.getD s.cel.diag h.val (0, 0) ∧ w = Table.getD s.cel.history h.val [] ∧ .diagnosis h.val d y w ∈ t.evq.attic ∧
      ((∃ o ∈ old, a < o + 24 * 3600 * sCycles) → t.pc h = .retired) ∧
      ((∀ o ∈ old, o + 24 * 3600 * sCycles ≤ a) → Table.getD s.rcv.steps (1024 * Block.CEL.index + h.val) [] = [] →
        t.pc h = .reinit)) := by
  have hover : s.holdOver (old ++ [a]) = decide (a + s.fld SYS_RCV_CFG.PC_HOLD_S 0 * sCycles ≤ s.now) := by
    rw [State.holdOver, List.getLast?_concat, Option.any_some]
  have he := exec_pcHoldExpire s h
  rw [ht] at he
  refine ⟨fun hn => he.trans (by rw [if_pos (by simp [hover, hn])]), fun hn => ?_⟩
  rw [if_neg (by simp [hf, hauto, hover, hn])] at he
  refine ⟨_, _, _, _, he, rfl, rfl, s.diagnose_holdEnds_attic _ _ _ _, fun ho => ?_, fun ho hs => ?_⟩
  · rw [(frozeAgain_iff old a).mpr ho]
    exact s.diagnose_holdEnds_retired h _ _ hf
  · have hagain : frozeAgain (old ++ [a]) = false := by
      rw [← Bool.not_eq_true, frozeAgain_iff]
      rintro ⟨o, hmem, hlt⟩
      exact absurd (ho o hmem) (Nat.not_le.mpr hlt)
    rw [hagain]
    exact s.diagnose_holdEnds_released h _ _ hf hs

/-! ## The timeout of a re-initialisation -/

theorem exec_reinitTimeout_pc (s : State) (h : Fin 128) :
    (s.pc h ≠ .reinit ∨ s.timerDue (tmPc h) (50 * msCycles) = false → exec (.reinitTimeout (.pc h)) s = .next s) ∧
    (s.pc h = .reinit → s.timerDue (tmPc h) (50 * msCycles) = true →
      ∃ t, exec (.reinitTimeout (.pc h)) s = .next t ∧ t.pc h = .retired) := by
  have he : exec (.reinitTimeout (.pc h)) s = .next (if s.pc h.val == .reinit && s.timerDue (tmPc h.val) (50 * msCycles) then
      ((s.setPc h.val .retired).lossSync s.downPcs).unitFailed kMEM h.val else s) := rfl
  rw [he]
  refine ⟨fun hi => by rw [if_neg (by rcases hi with hi | hi <;> simp [hi])], fun hr hd => ?_⟩
  rw [if_pos (by simp [hr, hd])]
  refine ⟨_, rfl, ?_⟩
  rw [(State.unitFailed_pcs _ _).pc, (State.lossSync_pcs _ _).pc]
  exact s.pc_setPc h .retired

end Sys2Proof.Machine
end

section
/-! PROOFS. Step 2 of the ladder for a tile, a port and a renderer that miss its timeout (R572). -/

namespace Sys2Proof.Machine

/-! ## A tile is retired -/

/-- The tiles, and the pantry's roles. -/
def tileView (s : State) : State := { tiles := s.tiles, pan := { roles := s.pan.roles } }

theorem Keeps.stored {s t : State} (h : Keeps storeView s t) : Keeps tileView s t :=
  ⟨h.eq tileView, h.count, h.attic, h.reg⟩

theorem State.setPan_tiles (s : State) (p : PanState) (h : p.roles = s.pan.roles) : Keeps tileView s { s with pan := p } :=
  .of_fields (by simp only [tileView, h]) rfl rfl

theorem State.panResult_tiles (s : State) (r : Nat) : Keeps tileView s (s.panResult r) :=
  ((s.setFld_store _ _ _ rfl).trans (State.setFlag_store _ _ _ _ rfl)).stored

theorem State.swapAnswer_tiles (s : State) (kind u : Nat) (c : SwapCause) (r : Nat) :
    Keeps tileView s (s.swapAnswer kind u c r) := by
  unfold State.swapAnswer
  extract_lets mine pan t
  have ht : Keeps tileView s t := .ite (s.setPan_tiles _ rfl) (.refl s)
  exact ht.trans (.when (fun v => v.panResult_tiles r) t _)

theorem State.swapUsed_wear_tiles (s : State) (kind out inn row : Nat) : Keeps tileView s (s.swapUsed kind out inn row .wear) :=
  ((s.stat_store _ 1).trans (State.raise_store _ _ _ _)).stored.trans (State.swapAnswer_tiles _ _ _ _ _)

theorem State.csRepair_tiles (s : State) (n : Nat) : Keeps tileView s (s.csRepair n) := by
  unfold State.csRepair
  extract_lets rows pan t
  have ht : Keeps tileView s t := s.setPan_tiles _ rfl
  refine ht.trans (.over (fun v _ => ?_) t rows)
  extract_lets used pan' w
  have hw : Keeps tileView v w := v.setPan_tiles _ rfl
  exact .ite (hw.trans (w.swapUsed_wear_tiles _ _ _ _)) (v.raise_store _ _ _).stored

theorem State.switchDone_tiles (s : State) : Keeps tileView s s.switchDone := by
  unfold State.switchDone
  extract_lets busy d t ns prog u
  have ht : Keeps tileView s t := .each (fun v _ => (v.setReg_store _ _ _ rfl).stored) s 8
  have hu : Keeps tileView t u := .of_fields rfl rfl rfl
  exact .ite (.refl s) ((ht.trans hu).trans (u.raise_store _ _ _).stored)

theorem State.tilesEmpty_tiles (s : State) (d : Nat) : Keeps tileView s (s.tilesEmpty d) :=
  .when (fun t => (t.raise_store _ _ _).stored) s _

/-- A tile that serves no group, and is retired. -/
structure Retired (s : State) (n : Nat) : Prop where
  role : s.role kTILE n = roRETIRED
  group : s.groupOf n = none

theorem Retired.keeps {s t : State} {n : Nat} (h : Retired s n) (k : Keeps tileView s t) : Retired t n :=
  ⟨(k.eq (fun v => v.role kTILE n)).trans h.role, (k.eq (fun v => v.groupOf n)).trans h.group⟩

theorem State.groupOf_none (s : State) (n : Nat) (h : (s.tile n).assign = .none) : s.groupOf n = none := by
  unfold State.groupOf
  rw [h]

theorem State.role_setRole_tile (s : State) (n r : Nat) : (s.setRole kTILE n r).role kTILE n = r :=
  Table.getD_put_same _ _ _ _ _

theorem State.retired_setRole (s : State) (n : Nat) (t : Tile) (h : t.assign = .none) :
    Retired ((s.setTile n t).setRole kTILE n roRETIRED) n := by
  refine ⟨State.role_setRole_tile _ _ _, State.groupOf_none _ _ ?_⟩
  show ((s.setTile n t).tile n).assign = _
  rw [s.tile_setTile_same, h]

theorem State.askWithdraw_evq (s : State) (kind u : Nat) : (s.askWithdraw kind u).evq = s.evq := rfl

theorem State.tileLeaves_retired (s : State) (n : Nat) : Retired (s.tileLeaves n true) n ∧
    s.evq.count ≤ (s.tileLeaves n true).evq.count := by
  unfold State.tileLeaves
  extract_lets t u
  have hu : Retired (u.setRole kTILE n roRETIRED) n := s.retired_setRole n _ rfl
  have hk : Keeps tileView (u.setRole kTILE n roRETIRED) ((u.setRole kTILE n roRETIRED).csRepair n).switchDone :=
    (State.csRepair_tiles _ n).trans (State.switchDone_tiles _)
  exact ⟨hu.keeps hk, hk.count⟩

/-- What the retirement of a tile leaves, but for its group. -/
theorem State.tileLeaves_reported (s : State) (n src d : Nat) :
    Retired (((s.tileLeaves n true).funcRetired src n).tilesEmpty d) n ∧
      s.evq.count + 1 ≤ (((s.tileLeaves n true).funcRetired src n).tilesEmpty d).evq.count := by
  obtain ⟨hr, hc⟩ := s.tileLeaves_retired n
  generalize s.tileLeaves n true = t at *
  have hf : Keeps tileView t (t.funcRetired src n) := (t.raise_store _ _ _).stored
  have hk := (t.funcRetired src n).tilesEmpty_tiles d
  refine ⟨hr.keeps (hf.trans hk), ((Nat.succ_le_succ hc).trans (Nat.le_of_eq ?_)).trans hk.count⟩
  exact (t.raise_count _ _ _).symm

/-- The group of a retired tile waits for another. -/
def State.lateGroup (s : State) (g : Option Nat) : State :=
  match g with
  | some g => { s with prog := { s.prog with late := s.prog.late ++ [g] } }
  | none => s

theorem State.lateGroup_tiles (s : State) (g : Option Nat) : Keeps tileView s (s.lateGroup g) := by
  cases g with
  | none => exact .refl s
  | some g => exact .of_fields rfl rfl rfl

theorem State.lateGroup_late (s : State) (g : Nat) : g ∈ (s.lateGroup (some g)).prog.late :=
  List.mem_append_right _ List.mem_cons_self

/-- The setup of the group is kept apart from its tile. -/
def State.keepSetup (s : State) (n : Nat) (g : Option Nat) : State :=
  match g with
  | some g => s.setupCopy n (groupSlot g)
  | none => s

theorem State.keepSetup_evq (s : State) (n : Nat) (g : Option Nat) : (s.keepSetup n g).evq = s.evq := by
  cases g <;> rfl

theorem State.tileRetire_eq (s : State) (n : Nat) : s.tileRetire n =
    (((((s.keepSetup n (s.groupOf n)).askWithdraw kTILE n).tileLeaves n true).funcRetired Block.GT.index n).tilesEmpty
      (dieOf n)).lateGroup (s.groupOf n) := by
  unfold State.tileRetire State.keepSetup State.lateGroup
  generalize s.groupOf n = g
  cases g <;> rfl

theorem State.tileRetire_retired (s : State) (n : Nat) : Retired (s.tileRetire n) n ∧
    s.evq.count + 1 ≤ (s.tileRetire n).evq.count ∧ ∀ g, s.groupOf n = some g → g ∈ (s.tileRetire n).prog.late := by
  rw [s.tileRetire_eq n]
  obtain ⟨hr, hc⟩ := State.tileLeaves_reported ((s.keepSetup n (s.groupOf n)).askWithdraw kTILE n) n Block.GT.index (dieOf n)
  rw [State.askWithdraw_evq, State.keepSetup_evq] at hc
  generalize ((((s.keepSetup n (s.groupOf n)).askWithdraw kTILE n).tileLeaves n true).funcRetired Block.GT.index n).tilesEmpty
    (dieOf n) = t at *
  have hk := t.lateGroup_tiles (s.groupOf n)
  refine ⟨hr.keeps hk, hc.trans hk.count, fun g hg => ?_⟩
  rw [hg]
  exact t.lateGroup_late g

/-- Step 2 of a tile has missed its timeout. -/
def State.reloadLate (s : State) (n : Nat) : Bool :=
  decide ((s.tile n).state = gtLOADING) && !(s.tile n).reload && s.timerDue (tmTile n) (2 * msCycles)

theorem exec_reinitTimeout_tile (s : State) (n : Fin 68) :
    exec (.reinitTimeout (.tile n)) s = .next (if s.reloadLate n.val = true then s.tileRetire n.val else s) := rfl

theorem exec_reinitTimeout_tile_idle (s : State) (n : Fin 68) (h : (s.tile n).state ≠ gtLOADING ∨ (s.tile n).reload = true ∨
    s.timerDue (tmTile n) (2 * msCycles) = false) : exec (.reinitTimeout (.tile n)) s = .next s := by
  rw [exec_reinitTimeout_tile, if_neg]
  rcases h with h | h | h <;> simp [State.reloadLate, h]

theorem exec_reinitTimeout_tile_due (s : State) (n : Fin 68) (hl : (s.tile n).state = gtLOADING) (hr : (s.tile n).reload = false)
    (hd : s.timerDue (tmTile n) (2 * msCycles) = true) : ∃ t,
    exec (.reinitTimeout (.tile n)) s = .next t ∧ t.role kTILE n = roRETIRED ∧ t.groupOf n = none ∧ s.evq.count + 1 ≤ t.evq.count ∧
    (∀ g, s.groupOf n = some g → g ∈ t.prog.late) := by
  obtain ⟨⟨hrole, hgroup⟩, hcount, hlate⟩ := s.tileRetire_retired n.val
  rw [exec_reinitTimeout_tile, if_pos (by simp [State.reloadLate, hl, hr, hd])]
  exact ⟨_, rfl, hrole, hgroup, hcount, hlate⟩

/-! ## A port is tried again -/

theorem State.setPort_evq (s : State) (p : Nat) (x : FabPort) : (s.setPort p x).evq = s.evq := rfl

theorem State.timerSet_evq (s : State) (k : Nat) : (s.timerSet k).evq = s.evq := rfl

theorem State.port_setPort (s : State) (p : Nat) (x : FabPort) : (s.setPort p x).port p = x := Table.getD_set_same _ _ _ _

theorem State.portState_setPort (s : State) (p : Nat) (x : FabPort) : (s.setPort p x).portState p = s.portState p := rfl

theorem State.portState_timerSet (s : State) (k p : Nat) : (s.timerSet k).portState p = s.portState p := rfl

theorem State.portState_training (s : State) (p : Nat) : (s.setFld FAB_PORT_STAT.STATE p 1).portState p = 1 := by
  rw [State.portState, State.fld_setFld_same _ _ _ _ (by decide) (by decide)]
  decide

/-- The link of a port that had not come up is dropped without a word to the fabric. -/
theorem State.linkDrop_count (s : State) (p : Nat) (h : s.portState p = 1) : (s.linkDrop p).evq = s.evq := by
  have hn : s.nbrDown p 0 = s := by
    unfold State.nbrDown
    exact if_neg (by simp [h])
  unfold State.linkDrop
  rw [hn]
  extract_lets t
  rw [State.setPort_evq, State.setFld_evq, State.setFld_evq]

/-- The link begins: training, in step 2, on the lanes named. -/
theorem State.linkBegin_begun (s : State) (p lanes : Nat) : (s.linkBegin p lanes).portState p = 1 ∧
    ((s.linkBegin p lanes).port p).step = 2 ∧ ((s.linkBegin p lanes).port p).lanes = lanes ∧
    (s.linkBegin p lanes).evq = s.evq := by
  unfold State.linkBegin
  extract_lets t
  have ht : t.portState p = 1 := (State.portState_timerSet _ _ _).trans (s.portState_training p)
  have he : t.evq = s.evq := (State.timerSet_evq _ _).trans (s.setFld_evq _ _ _)
  rw [State.portState_setPort, State.port_setPort, State.setPort_evq]
  exact ⟨ht, rfl, rfl, he⟩

theorem State.reinit_count (s : State) (src inst : Nat) : (s.reinit src inst).evq.count = s.evq.count + 1 := State.raise_count _ _ _ _

/-- Step 2 of a port has missed its timeout. -/
def State.linkLate (s : State) (p : Nat) : Bool :=
  s.fld FAB_PORT_CFG.MODE p != 0 && decide (s.portState p = 1) && s.timerDue (tmPort p) (1000 * msCycles)

theorem exec_reinitTimeout_port (s : State) (p : Fin 6) : exec (.reinitTimeout (.port p)) s = .next (if s.linkLate p.val = true
    then ((s.linkDrop p.val).reinit Block.FAB.index p.val).linkBegin p.val (s.port p.val).lanes else s) := rfl

theorem exec_reinitTimeout_port_cases (s : State) (p : Fin 6) :
    (s.fld FAB_PORT_CFG.MODE p = 0 ∨ s.portState p ≠ 1 ∨ s.timerDue (tmPort p) (1000 * msCycles) = false →
      exec (.reinitTimeout (.port p)) s = .next s) ∧
    (s.fld FAB_PORT_CFG.MODE p ≠ 0 → s.portState p = 1 → s.timerDue (tmPort p) (1000 * msCycles) = true → ∃ t,
      exec (.reinitTimeout (.port p)) s = .next t ∧ t.portState p = 1 ∧ (t.port p).step = 2 ∧
      (t.port p).lanes = (s.port p).lanes ∧ s.evq.count + 1 ≤ t.evq.count) := by
  rw [exec_reinitTimeout_port]
  refine ⟨fun h => by rw [if_neg (by rcases h with h | h | h <;> simp [State.linkLate, h])], fun hm hs hd => ?_⟩
  rw [if_pos (by simp [State.linkLate, hm, hs, hd])]
  have hdrop := s.linkDrop_count p hs
  have hre := (s.linkDrop p.val).reinit_count Block.FAB.index p
  obtain ⟨hstate, hstep, hlanes, hevq⟩ :=
    ((s.linkDrop p.val).reinit Block.FAB.index p.val).linkBegin_begun p.val (s.port p.val).lanes
  refine ⟨_, rfl, hstate, hstep, hlanes, Nat.le_of_eq ?_⟩
  rw [hevq, hre, hdrop]

/-! ## A renderer is retired -/

/-- The renderer leaves the display's map. -/
def State.oplLeave (s : State) (p : Nat) : State :=
  match s.oplLogical p with
  | some l => { s with oplMap := Table.insert natLt s.oplMap l 31 }
  | none => s

/-- The renderer is off and retired. -/
def State.oplOff (s : State) (p : Nat) : State := ((s.setOpal p {}).setFlag OPL_CFG.EN p false).setRole kOPAL p roRETIRED

theorem State.oplOff_role (s : State) (p : Nat) : (s.oplOff p).role kOPAL p = roRETIRED := Table.getD_put_same _ _ _ _ _

theorem State.oplOff_en (s : State) (p : Nat) : (s.oplOff p).flag OPL_CFG.EN p = false :=
  (s.setOpal p {}).flag_setFlag_same OPL_CFG.EN p false (by decide) (by decide)

theorem State.oplLeave_keeps (s : State) (p : Nat) : (s.oplLeave p).oplSwap = s.oplSwap ∧ (s.oplLeave p).evq = s.evq := by
  unfold State.oplLeave
  split <;> exact ⟨rfl, rfl⟩

theorem State.oplRetire_eq (s : State) (p : Nat) :
    s.oplRetire p = ((s.oplLeave p).oplOff p).funcRetired Block.OPL.index p := by
  unfold State.oplRetire State.oplLeave
  cases s.oplLogical p <;> rfl

theorem Raised.role {s t : State} (h : Raised s t) (kind u : Nat) (hk : kind ≠ kSLICE) : t.role kind u = s.role kind u := by
  rw [State.role, State.role, if_neg hk, if_neg hk, h.pan]

theorem Raised.flag {s t : State} (h : Raised s t) (f : Fld) (i : Nat) (hf : (f.reg, i) ≠ (Reg.EVQ_DROPPED, 0)) :
    t.flag f i = s.flag f i := by
  rw [State.flag, State.flag, State.fld, State.fld, h.2.1 _ _ hf]

theorem State.setOpal_evq (s : State) (p : Nat) (o : Opal) : (s.setOpal p o).evq = s.evq := rfl

theorem State.setOpal_oplSwap (s : State) (p : Nat) (o : Opal) : (s.setOpal p o).oplSwap = s.oplSwap := rfl

theorem State.setRole_oplSwap (s : State) (kind u r : Nat) : (s.setRole kind u r).oplSwap = s.oplSwap := by
  unfold State.setRole
  split <;> rfl

theorem State.setRole_evq (s : State) (kind u r : Nat) : (s.setRole kind u r).evq = s.evq := by
  unfold State.setRole
  split <;> rfl

theorem State.oplOff_keeps (s : State) (p : Nat) : (s.oplOff p).oplSwap = s.oplSwap ∧ (s.oplOff p).evq = s.evq := by
  unfold State.oplOff
  rw [State.setRole_oplSwap, State.setFlag_oplSwap, State.setOpal_oplSwap, State.setRole_evq, State.setFlag_evq,
    State.setOpal_evq]
  exact ⟨rfl, rfl⟩

/-- What the retirement of a renderer leaves. -/
theorem State.oplRetire_retired (s : State) (p : Nat) : (s.oplRetire p).oplSwap = s.oplSwap ∧
    (s.oplRetire p).role kOPAL p = roRETIRED ∧ (s.oplRetire p).flag OPL_CFG.EN p = false ∧
    (s.oplRetire p).evq.count = s.evq.count + 1 := by
  obtain ⟨hswap, hevq⟩ := s.oplLeave_keeps p
  obtain ⟨hswap', hevq'⟩ := (s.oplLeave p).oplOff_keeps p
  have hrole := (s.oplLeave p).oplOff_role p
  have hen := (s.oplLeave p).oplOff_en p
  rw [s.oplRetire_eq p]
  generalize (s.oplLeave p).oplOff p = t at *
  have hr : Raised t (t.funcRetired Block.OPL.index p) := t.raise_raised _ _ _
  have hc : (t.funcRetired Block.OPL.index p).evq.count = t.evq.count + 1 := t.raise_count _ _ _
  refine ⟨by rw [hr.oplSwap, hswap', hswap], (hr.role _ _ (by decide)).trans hrole, (hr.flag _ _ ?_).trans hen, ?_⟩
  · simp
  · rw [hc, hevq', hevq]

theorem exec_reinitTimeout_renderer (s : State) (p : Fin 17) (w : OplSwap) (h : s.oplSwap = some w) :
    exec (.reinitTimeout (.renderer p)) s =
      .next (if w.old = p.val && w.cause == .failure && s.timerDue tmRenderer msCycles then
        ({ s with oplSwap := none } : State).oplRetire p.val else s) := by
  rw [exec_reinitTimeout]
  unfold execReinitTimeout
  dsimp only
  rw [h]

theorem exec_reinitTimeout_renderer_idle (s : State) (p : Fin 17) (h : s.oplSwap = none ∨
    s.timerDue tmRenderer msCycles = false ∨ ∃ w, s.oplSwap = some w ∧ (w.old ≠ p.val ∨ w.cause ≠ .failure)) :
    exec (.reinitTimeout (.renderer p)) s = .next s := by
  cases hw : s.oplSwap with
  | none =>
    rw [exec_reinitTimeout]
    unfold execReinitTimeout
    dsimp only
    rw [hw]
  | some w =>
    rw [exec_reinitTimeout_renderer s p w hw, if_neg]
    rcases h with h | h | ⟨v, h, hv⟩
    · cases hw.symm.trans h
    · simp [h]
    · cases hw.symm.trans h
      rcases hv with hv | hv <;> simp [hv]

theorem exec_reinitTimeout_renderer_due (s : State) (p : Fin 17) (w : OplSwap) (hw : s.oplSwap = some w) (ho : w.old = p.val)
    (hc : w.cause = .failure) (hd : s.timerDue tmRenderer msCycles = true) : ∃ t,
    exec (.reinitTimeout (.renderer p)) s = .next t ∧ t.oplSwap = none ∧ t.role kOPAL p = roRETIRED ∧
      t.flag OPL_CFG.EN p = false ∧ t.evq.count = s.evq.count + 1 := by
  rw [exec_reinitTimeout_renderer s p w hw, if_pos (by simp [ho, hc, hd])]
  exact ⟨_, rfl, State.oplRetire_retired { s with oplSwap := none } p.val⟩

end Sys2Proof.Machine
end
section
/-! PROOFS. The recovery ladder (R10, R570 to R583, R593). -/

namespace Sys2Proof.Machine

/-- Settles O58: a warm reset winds the engine down, resets it and brings it up, and each of these keeps what the ladder
has recorded; every command and event of the ladder is that, a power cycle, a freeze, or the retirement of one unit. -/
theorem recoveryLadder : Obligations.RecoveryLadder :=
  ⟨exec_faultFreeze_off, exec_faultFreeze_runs, exec_safeHoldExpire_idle, exec_safeHoldExpire_due, exec_rcvHold, exec_rcvWarm,
    exec_rcvPwrCycle_off, exec_rcvPwrCycle_runs, exec_resetNLow, exec_resetNRise, State.bypPersists_iff,
    exec_warmResetTimeout_idle, exec_warmResetTimeout, exec_pwrCycleIgnored_idle, exec_pwrCycleIgnored, exec_pcHoldExpire_idle,
    exec_pcHoldExpire_due, exec_reinitTimeout_tile_idle, exec_reinitTimeout_tile_due, exec_reinitTimeout_pc,
    exec_reinitTimeout_port_cases, exec_reinitTimeout_die,
    fun s p => ⟨exec_reinitTimeout_renderer_idle s p, exec_reinitTimeout_renderer_due s p⟩, exec_reinitTimeout_relock,
    exec_reinitTimeout_cleaner_due, exec_reinitTimeout_cleaner_idle⟩

end Sys2Proof.Machine
end

section
/-! PROOFS. What every operation of the device keeps, whatever it does: the queue of waiting commands, and the canonical
form of memory (R27, R28).  The sections of this part check their lemmas one after another: so many at once would take
more threads than the memory holds. -/

namespace Sys2Proof.Machine

/-! ## The relation -/

/-- Between s and t the device has worked on: no waiting command is gone or added, and memory that was in its canonical
form still is. -/
structure Kept (s t : State) : Prop where
  queue : t.pending = s.pending
  inv : s.Inv → t.Inv

/-- The two fields, taken from the record by a match: to compare two states' projections the kernel would compare all
their fields first. -/
def State.queueAndMem : State → List Instr × Table Nat Byte
  | { pending := p, mem := m, .. } => (p, m)

/-- A meaning answers a next state, which keeps. -/
def Answers (s : State) (r : Res) : Prop := ∃ t, r = .next t ∧ Kept s t

/-- The body of a Jextan instruction answers a state that keeps, unless it faults. -/
def Runs (s : State) (r : JRes) : Prop := ∀ t, r = .ok t → Kept s t

section
set_option Elab.async false
variable {s t : State}

theorem Kept.refl (s : State) : Kept s s := ⟨rfl, id⟩

theorem Runs.error {e : JErr} : Runs s (.error e) := by
  intro t h
  cases h

theorem Runs.bind {α : Type} {e : Except JErr α} {k : α → JRes} (hk : ∀ a, Runs s (k a)) : Runs s (e >>= k) := by
  cases e with
  | error e => exact Runs.error
  | ok a => exact hk a

theorem Runs.ite {c : Prop} [Decidable c] {q r : JRes} (hq : Runs s q) (hr : Runs s r) :
    Runs s (if c then q else r) := by
  split
  · exact hq
  · exact hr

theorem Answers.ite {c : Prop} [Decidable c] {q r : Res} (hq : Answers s q) (hr : Answers s r) :
    Answers s (if c then q else r) := by
  split
  · exact hq
  · exact hr

variable (h : Kept s t)
include h

theorem Kept.next : Answers s (.next t) := ⟨t, rfl, h⟩

theorem Kept.toSnd {α : Type} {a : α} : Kept s (a, t).2 := h

theorem Kept.ok : Runs s (.ok t) := by
  intro u hu
  cases hu
  exact h

/-- An update that writes neither the queue nor memory keeps. -/
theorem Kept.update {u : State} (hu : u.queueAndMem = (t.pending, t.mem) := by rfl) : Kept s u := by
  obtain ⟨hq, hm⟩ := Prod.mk.inj hu
  exact ⟨hq.trans h.queue, fun hs => (congrArg (Memory.wf · = true) hm).mpr (h.inv hs)⟩

/-- An update of memory alone keeps if it keeps the canonical form. -/
theorem Kept.memory {u : State} (hq : u.pending = t.pending) (hm : Memory.wf t.mem = true → Memory.wf u.mem = true) :
    Kept s u :=
  ⟨hq.trans h.queue, fun hs => hm (h.inv hs)⟩

theorem Kept.ite {u : State} {c : Prop} [Decidable c] (k : Kept s u) : Kept s (if c then t else u) := by
  split
  · exact h
  · exact k

omit h in
/-- The state in an answered pair. -/
theorem Kept.pair {α : Type} {p : α × State} {a : α} (e : p = (a, t)) (k : Kept s p.2) : Kept s t := by
  rwa [e] at k

omit h in
theorem Kept.fst {α : Type} {p : State × α} {a : α} (e : p = (t, a)) (k : Kept s p.1) : Kept s t := by
  rwa [e] at k

theorem Kept.when {c : Bool} {f : State → State} (hf : ∀ u, Kept s u → Kept s (f u)) : Kept s (t.when c f) :=
  .ite (hf t h) h

theorem Kept.over {α : Type} {l : List α} {f : State → α → State} (hf : ∀ u a, Kept s u → Kept s (f u a)) :
    Kept s (t.over l f) := by
  induction l generalizing t with
  | nil => exact h
  | cons a l ih => exact ih (hf t a h)

theorem Kept.each {n : Nat} {f : State → Nat → State} (hf : ∀ u a, Kept s u → Kept s (f u a)) :
    Kept s (t.each n f) :=
  h.over hf

theorem Kept.iter {n : Nat} {f : State → State} (hf : ∀ u, Kept s u → Kept s (f u)) :
    Kept s (Machine.iter f n t) := by
  induction n generalizing t with
  | zero => exact h
  | succ n ih => exact ih (hf t h)

end

end Sys2Proof.Machine
end

section
/-! PROOFS. What the operations of Sys2Proof/Machine/Ops.lean keep. -/

namespace Sys2Proof.Machine

section
set_option Elab.async false
variable {s t : State} (h : Kept s t)
include h

theorem Kept.setReg {r : Reg} {i : Nat} {v : Word} : Kept s (t.setReg r i v) :=
  h.update

theorem Kept.setFld {f : Fld} {i v : Nat} : Kept s (t.setFld f i v) :=
  h.setReg

theorem Kept.setFlag {f : Fld} {i : Nat} {b : Bool} : Kept s (t.setFlag f i b) :=
  h.setFld

theorem Kept.addFld {f : Fld} {i n : Nat} : Kept s (t.addFld f i n) :=
  h.setFld

theorem Kept.stage {r : Reg} {i : Nat} {v : Word} : Kept s (t.stage r i v) :=
  h.update

theorem Kept.takeWord {k : RegKey} {v : Word} : Kept s (t.takeWord k v) :=
  h.setReg

theorem Kept.setReg64 {lo hi : Reg} {i v : Nat} : Kept s (t.setReg64 lo hi i v) :=
  h.setReg.setReg

theorem Kept.setDie {k : Nat} {d : Die} : Kept s (t.setDie k d) :=
  h.update

theorem Kept.setChan {c : Nat} {d : Chan} : Kept s (t.setChan c d) :=
  h.update

theorem Kept.setCmp {x : Nat} {d : CmpOut} : Kept s (t.setCmp x d) :=
  h.update

theorem Kept.cmpSince {x : Nat} : Kept s (t.cmpSince x) :=
  h.setCmp

theorem Kept.setTin {i : Nat} {d : Tin} : Kept s (t.setTin i d) :=
  h.update

theorem Kept.setTile {n : Nat} {t' : Tile} : Kept s (t.setTile n t') :=
  h.update

theorem Kept.setProg {f : ProgState → ProgState} : Kept s (t.setProg f) :=
  h.update

theorem Kept.setDef {d : Nat} {x : Def} : Kept s (t.setDef d x) :=
  h.update

theorem Kept.setReplay {k : Nat} {x : Replay} : Kept s (t.setReplay k x) :=
  h.update

theorem Kept.emit {o : Out} : Kept s (t.emit o) :=
  h.update

theorem Kept.wrote {path : Path} {r : Reg} {i : Nat} : Kept s (t.wrote path r i) :=
  h.emit

theorem Kept.draw {kind : String} {args : List Int} : Kept s (t.draw kind args).2 :=
  h.update

theorem Kept.statIn {old : Bool} {f : Table Nat Int → Table Nat Int} : Kept s (t.statIn old f) :=
  h.update

theorem Kept.stat {off : Nat} {n : Int} : Kept s (t.stat off n) :=
  .ite h h.statIn

theorem Kept.statPrev {off : Nat} {n : Int} : Kept s (t.statPrev off n) :=
  .ite h h.statIn

theorem Kept.statMeasure {lo hi mean : Nat} {v : Int} : Kept s (t.statMeasure lo hi mean v) :=
  h.statIn.stat.stat

theorem Kept.timerSet {k : Nat} : Kept s (t.timerSet k) :=
  h.update

theorem Kept.setByte {a : Nat} {b : Byte} : Kept s (t.setByte a b) :=
  h.memory rfl (Memory.wf_setByte t a b)

theorem Kept.setBytes {a : Nat} {bs : List Byte} : Kept s (t.setBytes a bs) := by
  induction bs generalizing t a with
  | nil => exact h
  | cons b bs ih => exact ih h.setByte

theorem Kept.store {a n v : Nat} : Kept s (t.store a n v) :=
  h.setBytes

theorem Kept.devWrite {a : Nat} {bs : List Byte} : Kept s (t.devWrite a bs) := by
  induction bs generalizing t a with
  | nil => exact h
  | cons b bs ih => exact ih (.ite h h.setByte)

theorem Kept.hist {h' source : Nat} {cs : List (Nat × Nat × Nat × Nat × Nat)} : Kept s (t.hist h' source cs) :=
  h.update

theorem Kept.memLog {source : Nat} {write : Bool} {a n : Nat} : Kept s (t.memLog source write a n) :=
  h.update

theorem Kept.devPut {source a : Nat} {bs : List Byte} : Kept s (t.devPut source a bs) :=
  h.devWrite.memLog

theorem Kept.readBy {source a n : Nat} : Kept s (t.readBy source a n) :=
  .memLog (h.when (fun _ k => k.addFld))

theorem Kept.stacksWake : Kept s (t.stacksWake) :=
  h.update

theorem Kept.pciUr {p : Nat} : Kept s (t.pciUr p) :=
  h.addFld

theorem Kept.cfgResult {p result : Nat} : Kept s (t.cfgResult p result) :=
  h.setFld.when (fun _ k => k.pciUr)

theorem Kept.irq {n : Nat} : Kept s (t.irq n) := by
  unfold State.irq
  split
  · exact h.emit
  · exact h.over (fun _ _ k => k.emit)

theorem Kept.pend {pendF enF : Fld} {i n : Nat} : Kept s (t.pend pendF enF i n) :=
  h.setFlag.when (fun _ k => k.irq)

theorem Kept.evqDrop : Kept s (t.evqDrop) := by
  unfold State.evqDrop
  extract_lets +onlyGivenNames s1
  have hs1 : Kept s s1 := h.addFld.stat
  exact hs1.update

theorem Kept.evqIssue {e : Event} : Kept s (t.evqIssue e) :=
  h.update

theorem Kept.evqHold {e : Event} : Kept s (t.evqHold e) :=
  .ite h.update h.evqDrop

theorem Kept.evqFlush {n : Nat} : Kept s (State.evqFlush n t) := by
  induction n generalizing t with
  | zero => exact h
  | succ n ih =>
    unfold State.evqFlush
    split
    · exact h
    · exact .ite h (ih h.update.evqIssue)

theorem Kept.evqPut {e : Event} : Kept s (t.evqPut e) :=
  .ite (.ite h.evqFlush.evqDrop h.evqFlush.evqIssue) h.evqHold

theorem Kept.pushEvent {e : Event} : Kept s (t.pushEvent e) := by
  unfold State.pushEvent
  refine h.over (fun _ _ k => ?_)
  split
  · exact .ite k.emit k
  · exact k

theorem Kept.raiseSev {k : EventKind} {sev inst dt : Nat} : Kept s (t.raiseSev k sev inst dt) := by
  unfold State.raiseSev
  extract_lets +onlyGivenNames e _ s1
  have hs1 : Kept s s1 := h.update
  extract_lets +onlyGivenNames s2
  have hs2 : Kept s s2 := hs1.when (fun _ k => k.update)
  exact hs2.pushEvent.evqPut

theorem Kept.raise {k : EventKind} {inst : Nat} {fs : List (Nat × Nat × Nat)} : Kept s (t.raise k inst fs) :=
  h.raiseSev

theorem Kept.evqIrq {sev : Nat} : Kept s (t.evqIrq sev) :=
  h.when (fun _ k => k.pend)

theorem Kept.evqAckOk : Kept s (t.evqAckOk) := by
  unfold State.evqAckOk
  split
  · exact h
  · extract_lets +onlyGivenNames tail s1
    have hs1 : Kept s s1 := h.setBytes.memLog
    extract_lets +onlyGivenNames _ s2
    have hs2 : Kept s s2 := hs1.update
    exact hs2.setFld.evqIrq

theorem Kept.evqAckErr : Kept s (t.evqAckErr) := by
  unfold State.evqAckErr
  split
  · exact h
  · extract_lets +onlyGivenNames s1
    have hs1 : Kept s s1 := h.setFlag
    extract_lets +onlyGivenNames s2
    have hs2 : Kept s s2 := hs1.addFld.stat
    split
    · exact hs2.update
    · exact hs2.update

omit h in
theorem Kept.offHall {kind target : Nat} {item : List Byte} {u : State} (h : Kept s t)
    (e : t.offHall kind target item = some u) : Kept s u := by
  unfold State.offHall at e
  split at e
  · cases e
    exact h.update
  · cases e

theorem Kept.setSec {f : SecState → SecState} : Kept s (t.setSec f) :=
  h.update

theorem Kept.modSession {c : Nat} {f : Session → Session} : Kept s (t.modSession c f) :=
  h.setSec

theorem Kept.czAnswer {src : CzSource} {req op status : Nat} {body : List Byte} :
    Kept s (t.czAnswer src req op status body) := by
  unfold State.czAnswer
  split
  · exact h.modSession.emit
  · extract_lets +onlyGivenNames a s1
    have hs1 : Kept s s1 := h.when (fun _ k => k.devPut)
    exact hs1.setFld.setFlag
  · exact h.setSec

theorem Kept.czRequest {src : CzSource} {req op : Nat} {f : State → State} (hf : ∀ u, Kept s u → Kept s (f u)) :
    Kept s (t.czRequest src req op f) := by
  unfold State.czRequest
  split
  · split
    · exact h.emit
    · split
      · exact h.emit
      · exact .ite h.setSec (hf t h)
  · exact hf _ h.setFlag
  · exact .ite (hf t h) h.czAnswer

theorem Kept.czRun {src : CzSource} {req op : Nat} {f : State → Nat × List Byte × State}
    (hf : ∀ u, Kept s u → Kept s (f u).2.2) : Kept s (t.czRun src req op f) :=
  h.czRequest (fun u k => (hf u k).czAnswer)

end

end Sys2Proof.Machine
end

section
/-! PROOFS. What the operations of Sys2Proof/Machine/TileOps.lean keep. -/

namespace Sys2Proof.Machine

section
set_option Elab.async false
variable {s t : State} (h : Kept s t)
include h

theorem Kept.ncoTake {n x f : Nat} : Kept s (t.ncoTake n x f) := by
  unfold State.ncoTake
  extract_lets +onlyGivenNames i
  split
  · extract_lets +onlyGivenNames old t1 p s1
    have hs1 : Kept s s1 := h.setReg.setReg
    extract_lets +onlyGivenNames new p' s2
    have hs2 : Kept s s2 := hs1.setTile
    exact hs2.update
  · exact h

theorem Kept.sampleFrame {n f : Nat} : Kept s (t.sampleFrame n f) :=
  .ite (h.setTile.each (fun _ _ k => k.ncoTake)) h

theorem Kept.haltTile {n cause : Nat} : Kept s (t.haltTile n cause) :=
  .ite h.setTile.raise h

theorem Kept.tileEvent {n b : Nat} : Kept s (t.tileEvent n b) :=
  h.setTile.when (fun _ k => k.haltTile)

theorem Kept.noteCorr {n addr : Nat} : Kept s (t.noteCorr n addr) :=
  h.update

theorem Kept.tileCorr {n addr : Nat} : Kept s (t.tileCorr n addr) :=
  h.addFld.stat.tileEvent.noteCorr.raise

theorem Kept.outDrop {n : Nat} : Kept s (t.outDrop n) :=
  h.setTile.addFld.stat.tileEvent.when (fun _ k => k.raise)

theorem Kept.outPut {n : Nat} {d : ItemDest} {bs : List Byte} : Kept s (t.outPut n d bs).2 := by
  unfold State.outPut
  extract_lets +onlyGivenNames t1
  split
  · exact h.setTile
  · exact h.outDrop

theorem Kept.candPut {n code time : Nat} : Kept s (t.candPut n code time) :=
  .ite h (.ite h.setTile h.outDrop)

end

end Sys2Proof.Machine
end

section
/-! PROOFS. What the operations of Sys2Proof/Machine/Operands.lean keep. -/

namespace Sys2Proof.Machine

section
set_option Elab.async false
variable {s t : State} (h : Kept s t)
include h

theorem Kept.dmStore {n a k v : Nat} : Kept s (t.dmStore n a k v) :=
  .ite h.store h

theorem Kept.dmPut {n a : Nat} {bs : List Byte} : Kept s (t.dmPut n a bs) :=
  h.setBytes

theorem Kept.setGr {n r v : Nat} : Kept s (t.setGr n r v) :=
  h.setTile

theorem Kept.setZ {n : Nat} {b : Bool} : Kept s (t.setZ n b) :=
  h.setTile

theorem Kept.opPut {n : Nat} {o : Opnd} {a : Nat} {bs : List Byte} : Kept s (t.opPut n o a bs) := by
  induction bs generalizing t a with
  | nil => exact h
  | cons b bs ih => exact ih h.setByte

theorem Kept.postUpdate {n : Nat} {fl : JFlags} {v : JV} : Kept s (t.postUpdate n fl v) :=
  .ite h.setTile h

theorem Kept.putC32 {n a : Nat} {x : Int × Int} : Kept s (t.putC32 n a x) :=
  h.dmStore.dmStore

theorem Kept.putA48 {n a : Nat} {x : Int} : Kept s (t.putA48 n a x) :=
  h.dmStore

end

end Sys2Proof.Machine
end

section
/-! PROOFS. What the operations of Sys2Proof/Machine/Phys.lean keep. -/

namespace Sys2Proof.Machine

section
set_option Elab.async false
variable {s t : State} (h : Kept s t)
include h

theorem Kept.tilePut {a : Nat} {bs : List Byte} : Kept s (t.tilePut a bs) := by
  induction bs generalizing t a with
  | nil => exact h
  | cons b bs ih => exact ih (.ite h h.setByte)

theorem Kept.physPut {source a : Nat} {bs : List Byte} {u : State} (e : t.physPut source a bs = some u) : Kept s u := by
  unfold State.physPut at e
  split at e
  · split at e
    · cases e
    · cases e
      exact h.setBytes.memLog
  · split at e
    · split at e
      · cases e
        exact h.tilePut
      · cases e
    · cases e

theorem Kept.physUnit {a : Nat} {bs : List Byte} : Kept s (t.physUnit a bs) := by
  unfold State.physUnit
  cases e : t.physPut srcTile a bs with
  | none => exact h
  | some u => exact h.physPut e

theorem Kept.physWrite {a : Nat} {bs : List Byte} : Kept s (t.physWrite a bs) :=
  h.each (fun _ _ k => k.physUnit)

end

end Sys2Proof.Machine
end

section
/-! PROOFS. What the operations of Sys2Proof/Machine/DmaEngine.lean keep. -/

namespace Sys2Proof.Machine

section
set_option Elab.async false
variable {s t : State} (h : Kept s t)
include h

theorem Kept.setDma {c : Nat} {d : Dma} : Kept s (t.setDma c d) :=
  h.update

theorem Kept.spaceRead {space a n : Nat} : Kept s (t.spaceRead space a n) :=
  .ite h (.ite h.readBy (h.over (fun _ _ k => k.emit)))

theorem Kept.spaceWrite {space a : Nat} {bs : List Byte} : Kept s (t.spaceWrite space a bs) :=
  .ite h.devPut h.emit

theorem Kept.dmaDrained {dom : Nat} : Kept s (t.dmaDrained dom) := by
  unfold State.dmaDrained
  split
  · exact h
  · extract_lets +onlyGivenNames busy
    refine .ite h ?_
    extract_lets +onlyGivenNames _ s1
    have hs1 : Kept s s1 := h.update
    exact .ite hs1.raise (hs1.raise.setFlag.setFlag.when (fun _ k => k.raise))

theorem Kept.dmaHalt {c status : Nat} {unwritten : Bool} : Kept s (t.dmaHalt c status unwritten) :=
  h.setFld.setFld.setDma.raise

theorem Kept.dmaComplete {c status done : Nat} {diff : Option Nat} : Kept s (t.dmaComplete c status done diff) := by
  unfold State.dmaComplete
  extract_lets +onlyGivenNames d bad lost cmp s2 s1
  have hs2 : Kept s s2 := h.spaceWrite
  have hs1 : Kept s s1 := .ite h hs2.spaceWrite
  extract_lets +onlyGivenNames s3
  have hs3 : Kept s s3 := hs1.addFld.setFld
  extract_lets +onlyGivenNames s4
  have hs4 : Kept s s4 := hs3.when (fun _ k => k.pend)
  extract_lets +onlyGivenNames s5
  have hs5 : Kept s s5 := .ite hs4.setDma.setFld (.ite hs4.dmaHalt hs4.setDma.setFld)
  exact hs5.over (fun _ _ k => k.dmaDrained)

theorem Kept.dmaReadback {c : Nat} {ending : Option Nat} : Kept s (t.dmaReadback c ending) :=
  h.setDma.spaceRead

theorem Kept.dmaEnd {c status done : Nat} : Kept s (t.dmaEnd c status done) :=
  .ite h.setDma.dmaComplete h.setDma.dmaReadback

theorem Kept.dmaPut {d : Dma} {n i : Nat} {bs : List Byte} : Kept s (State.dmaPut d n t i bs) := by
  induction n generalizing t i bs with
  | zero => exact h
  | succ n ih =>
    cases bs with
    | nil => exact h
    | cons b bs => exact ih h.spaceWrite

theorem Kept.dmaMove {d : Dma} {ext : List Byte} {from_ upto : Nat} : Kept s (t.dmaMove d ext from_ upto).2 := by
  unfold State.dmaMove
  extract_lets +onlyGivenNames idx stop vals t1
  have ht1 : Kept s t1 := h.when (fun _ k => k.over (fun _ _ l => l.spaceRead))
  extract_lets +onlyGivenNames t12
  have ht12 : Kept s t12 := ht1.dmaPut
  exact ht12.update

theorem Kept.dmaLoose {d : Dma} {ext : List Byte} {base from_ : Nat} : Kept s (t.dmaLoose d ext base from_) := by
  unfold State.dmaLoose
  extract_lets +onlyGivenNames idx t1
  have ht1 : Kept s t1 := h.over (fun _ _ k => k.dmaPut)
  exact ht1.update

theorem Kept.dmaUr {d : Dma} : Kept s (t.dmaUr d) := by
  unfold State.dmaUr
  extract_lets +onlyGivenNames ps
  clear_value ps
  split
  · exact h
  · exact h.pciUr

theorem Kept.dmaCompareEnd {c status : Nat} {src dst : List Byte} : Kept s (t.dmaCompareEnd c status src dst) :=
  .dmaComplete h.update

theorem Kept.dmaStart {c : Nat} : Kept s (t.dmaStart c) :=
  .ite h.setDma.setFld.setReg64 h

theorem Kept.execDmaStart {path : Path} {c : Fin 32} : Answers s (execDmaStart path c t) :=
  h.dmaStart.wrote.next

theorem Kept.dmaStop {c : Nat} : Kept s (t.dmaStop c) := by
  unfold State.dmaStop
  extract_lets +onlyGivenNames d
  split
  · exact h
  · exact h.setDma.setFld
  · exact h.setDma.setFld
  · exact h.setDma.setFld

theorem Kept.execDmaStop {path : Path} {c : Fin 32} : Answers s (execDmaStop path c t) :=
  h.dmaStop.wrote.next

theorem Kept.dmaDoorbell {c : Nat} : Kept s (t.dmaDoorbell c) :=
  h.setFld

theorem Kept.execDmaDoorbell {path : Path} {c : Fin 32} : Answers s (execDmaDoorbell path c t) :=
  h.dmaDoorbell.wrote.next

theorem Kept.dmaRun {c : Nat} {d : Dma} : Kept s (t.dmaRun c d) :=
  .ite h.setDma.setFld (.ite h.setDma.dmaComplete (.ite h.setDma.dmaComplete (.ite h.setDma.dmaComplete
    (.ite h.setDma.dmaComplete (.ite h.setDma.dmaComplete (.ite h.setDma.setDma.spaceRead.spaceRead h.setDma))))))

theorem Kept.execDmaDescFetch {c : Fin 32} {link : BitVec 64} {desc : List Byte} {error : Bool} :
    Answers s (execDmaDescFetch c link desc error t) := by
  unfold Machine.execDmaDescFetch
  extract_lets +onlyGivenNames c d db rung taken reads fetches word down fail
  have hfail : ∀ u x2, Kept s u → Kept s (fail u x2) := fun _ _ k => k.setFld.dmaHalt
  extract_lets +onlyGivenNames fetch
  have hfetch : ∀ u x2, Kept s u → Kept s (fetch u x2) := fun _ _ k => by
    unfold fetch
    extract_lets +onlyGivenNames s1
    have hs1 : Kept s s1 := k.when (fun _ l => l.spaceRead)
    exact .ite (hfail _ _ hs1.setReg64.setFld.setDma) (.ite
      (hfail _ _ hs1.setReg64.setFld.setDma) hs1.setReg64.setFld.dmaRun)
  exact Kept.next (.ite h (.ite (hfail _ _ h) (.ite (hfail _ _ h.spaceRead.pciUr) (.ite (.ite (hfail _ _ h.spaceRead)
    (.ite h.spaceRead.setDma.setFld (hfetch _ _ h.spaceRead))) (hfetch _ _ h)))))

theorem Kept.dmaAcked {c n : Nat} {src : List Byte} {error : Bool} : Kept s (t.dmaAcked c n src error) := by
  unfold State.dmaAcked
  extract_lets +onlyGivenNames d cut most upto
  refine .ite h ?_
  extract_lets +onlyGivenNames r
  have hr : Kept s r.2 := .dmaMove (h.when (fun _ k => k.dmaUr))
  refine .ite hr.dmaLoose.dmaEnd (.ite hr.dmaLoose.dmaEnd ?_)
  split
  · exact hr.dmaEnd
  · exact hr.setDma.dmaReadback

theorem Kept.execDmaWritesAcked {c : Fin 32} {n : Nat} {src : List Byte} {error : Bool} :
    Answers s (execDmaWritesAcked c n src error t) :=
  h.dmaAcked.next

theorem Kept.dmaReadDone {c : Nat} {src dst : List Byte} {error : Bool} : Kept s (t.dmaReadDone c src dst error) := by
  unfold State.dmaReadDone
  extract_lets +onlyGivenNames d
  refine .ite h ?_
  extract_lets +onlyGivenNames s1
  have hs1 : Kept s s1 := h.when (fun _ k => k.dmaUr)
  refine .ite ?_ ?_
  · extract_lets +onlyGivenNames bad
    refine .ite hs1.dmaCompareEnd ?_
    split
    · exact hs1.dmaCompareEnd
    · refine .ite hs1.dmaCompareEnd ?_
      split
      · exact hs1.dmaComplete
      · exact hs1.dmaComplete
  · extract_lets +onlyGivenNames lost
    split
    · exact hs1.dmaComplete
    · exact .ite hs1.dmaComplete (.ite hs1.dmaComplete (.dmaComplete (hs1.when (fun _ k => k.spaceWrite))))

theorem Kept.execDmaReadbackDone {c : Fin 32} {src dst : List Byte} {error : Bool} :
    Answers s (execDmaReadbackDone c src dst error t) :=
  h.dmaReadDone.next

theorem Kept.dmaPiece {c : Nat} {src : List Byte} {error : Bool} : Kept s (t.dmaPiece c src error) := by
  unfold State.dmaPiece
  extract_lets +onlyGivenNames d upto
  refine .ite h ?_
  extract_lets +onlyGivenNames got r
  have hr : Kept s r.2 := .dmaMove (h.when (fun _ k => k.dmaUr))
  exact .ite hr.dmaLoose.dmaEnd (.ite hr.dmaLoose.dmaEnd (.ite hr.spaceRead.dmaEnd hr.spaceRead.setDma.spaceWrite))

theorem Kept.execDmaProgress {c : Fin 32} {src : List Byte} {error : Bool} :
    Answers s (execDmaProgress c src error t) :=
  h.dmaPiece.next

theorem Kept.dmaDrain {dom : Nat} : Kept s (t.dmaDrain dom) := by
  unfold State.dmaDrain
  extract_lets +onlyGivenNames _ s1
  have hs1 : Kept s s1 := h.update
  exact .dmaDrained (hs1.timerSet.when (fun _ k => k.setFlag))

theorem Kept.execDmaDrain {domain : Fin 3} : Answers s (execDmaDrain domain t) :=
  Kept.next (.ite h h.dmaDrain)

theorem Kept.dmaAbort {c : Nat} : Kept s (t.dmaAbort c) := by
  unfold State.dmaAbort
  extract_lets +onlyGivenNames d s1
  have hs1 : Kept s s1 := h.over (fun _ _ k => k.update)
  exact hs1.setDma.setFld

theorem Kept.execDmaDrainTimeout {domain : Fin 3} : Answers s (execDmaDrainTimeout domain t) :=
  Kept.next (.ite h (h.each (fun _ _ k => .ite k.dmaAbort k)))

theorem Kept.dmaDrainOut {c : Nat} : Kept s (t.dmaDrainOut c) := by
  unfold State.dmaDrainOut
  extract_lets +onlyGivenNames d
  refine .ite h (.ite ?_ (.dmaReadDone (.dmaAcked (h.when (fun _ k => k.dmaAbort)))))
  extract_lets +onlyGivenNames s1
  have hs1 : Kept s s1 := h.each (fun _ _ k => k.dmaPiece)
  exact hs1.dmaAcked.dmaReadDone

theorem Kept.dmaFail {c : Nat} : Kept s (t.dmaFail c) := by
  unfold State.dmaFail
  extract_lets +onlyGivenNames d status
  refine .ite h.dmaCompareEnd (.ite h.dmaComplete ?_)
  extract_lets +onlyGivenNames left n r
  have hr : Kept s r.2 := h.dmaMove
  exact hr.dmaLoose.dmaEnd

theorem Kept.dmaPortDown {p : Nat} : Kept s (t.dmaPortDown p) :=
  h.each (fun _ _ k => .ite k.dmaFail (.ite k.setFld.dmaHalt k))

end

end Sys2Proof.Machine
end

section
/-! PROOFS. What the operations of Sys2Proof/Machine/PanOps.lean keep. -/

namespace Sys2Proof.Machine

section
set_option Elab.async false
variable {s t : State} (h : Kept s t)
include h

theorem Kept.setRole {kind u r : Nat} : Kept s (t.setRole kind u r) :=
  .ite h.setFld h.update

theorem Kept.panResult {r : Nat} : Kept s (t.panResult r) :=
  h.setFld.setFlag

theorem Kept.spareEmpty {kind die : Nat} : Kept s (t.spareEmpty kind die) :=
  h.raise

theorem Kept.wearReport {kind u : Nat} {failure : Bool} : Kept s (t.wearReport kind u failure) :=
  h.raise

theorem Kept.swapAnswer {kind u : Nat} {c : SwapCause} {r : Nat} : Kept s (t.swapAnswer kind u c r) := by
  unfold State.swapAnswer
  extract_lets +onlyGivenNames mine _ s1
  have hs1 : Kept s s1 := .ite h.update h
  exact hs1.when (fun _ k => k.panResult)

theorem Kept.swapUsed {kind out inn row : Nat} {c : SwapCause} : Kept s (t.swapUsed kind out inn row c) := by
  unfold State.swapUsed
  extract_lets +onlyGivenNames s1
  have hs1 : Kept s s1 := h.stat
  split
  · extract_lets +onlyGivenNames s2
    have hs2 : Kept s s2 := hs1.raise
    exact .ite (.panResult hs2.update) hs2
  · exact hs1.raise.swapAnswer

theorem Kept.swapFail {kind u step row : Nat} {c : SwapCause} : Kept s (t.swapFail kind u step row c) :=
  h.raise.swapAnswer

theorem Kept.step2 {src inst : Nat} : Kept s (t.step2 src inst).2 := by
  unfold State.step2
  extract_lets +onlyGivenNames key past n _ s1
  have hs1 : Kept s s1 := h.update
  exact hs1.raise

theorem Kept.reinit {src inst : Nat} : Kept s (t.reinit src inst) :=
  h.step2

theorem Kept.funcRetired {src inst : Nat} : Kept s (t.funcRetired src inst) :=
  h.raise

end

end Sys2Proof.Machine
end

section
/-! PROOFS. What the operations of Sys2Proof/Machine/FabOps.lean keep. -/

namespace Sys2Proof.Machine

section
set_option Elab.async false
variable {s t : State} (h : Kept s t)
include h

theorem Kept.setPort {p : Nat} {x : FabPort} : Kept s (t.setPort p x) :=
  h.update

theorem Kept.fabSend {p : Nat} {args : List Nat} {bs : List Byte} : Kept s (t.fabSend p args bs) :=
  h.setPort.emit

theorem Kept.fabOut {p type : Nat} {bcast : Bool} {h' : FabHdr} {payload : List Byte} :
    Kept s (t.fabOut p type bcast h' payload) :=
  h.fabSend

theorem Kept.seqNext : Kept s (t.seqNext) :=
  h.update

theorem Kept.noRoute : Kept s (t.noRoute) :=
  h.addFld

theorem Kept.sendRouted {type dst flow : Nat} {payload : List Byte} :
    Kept s (t.sendRouted type dst flow payload).2 := by
  unfold State.sendRouted
  extract_lets +onlyGivenNames h1
  split
  · exact h.noRoute
  · exact h.fabOut.seqNext

theorem Kept.forward {type : Nat} {h' : FabHdr} {payload : List Byte} : Kept s (t.forward type h' payload) := by
  unfold State.forward
  split
  · exact h.fabOut
  · exact h.noRoute

theorem Kept.flood {type : Nat} {except : Option Nat} {h' : FabHdr} {payload : List Byte} :
    Kept s (t.flood type except h' payload) :=
  h.over (fun _ _ k => k.fabOut)

theorem Kept.newLsa : Kept s (t.newLsa) := by
  unfold State.newLsa
  extract_lets +onlyGivenNames _ s1
  have hs1 : Kept s s1 := h.update
  exact hs1.timerSet.flood.seqNext

theorem Kept.sendTrigger {id c t' : Nat} : Kept s (t.sendTrigger id c t') :=
  .ite h (.seqNext (h.over (fun _ _ k => k.over (fun _ _ l => l.fabSend))))

theorem Kept.askCredit {dst n : Nat} : Kept s (t.askCredit dst n) := by
  unfold State.askCredit
  extract_lets +onlyGivenNames have_
  refine .ite h ?_
  extract_lets +onlyGivenNames k r
  have hr : Kept s r.2 := h.sendRouted
  exact .ite hr.update hr

theorem Kept.sendPiece {dst flow type id off : Nat} {data : List Byte} {r : Bool × State}
    (e : t.sendPiece dst flow type id off data = some r) : Kept s r.2 := by
  unfold State.sendPiece at e
  dsimp only at e
  split at e
  · cases e
  · cases e
    exact h.update.sendRouted

theorem Kept.xferStep {x : FabXfer} {r : Option FabXfer × State} (e : t.xferStep x = some r) : Kept s r.2 := by
  unfold State.xferStep at e
  dsimp only at e
  split at e
  · obtain ⟨q, hq, rfl⟩ := Option.map_eq_some_iff.mp e
    exact h.sendPiece hq
  · obtain ⟨q, hq, rfl⟩ := Option.map_eq_some_iff.mp e
    exact h.sendPiece hq

theorem Kept.xferRun {n : Nat} {x : FabXfer} : Kept s (State.xferRun n t x).2 := by
  induction n generalizing t x with
  | zero => exact h
  | succ n ih =>
    unfold State.xferRun
    split
    · exact h
    · next e => exact h.xferStep e
    · next e => exact ih (h.xferStep e)

theorem Kept.xferPump {dst : Nat} : Kept s (t.xferPump dst) := by
  unfold State.xferPump
  extract_lets +onlyGivenNames xs _ s1
  have hs1 : Kept s s1 := h.update
  refine hs1.over (fun _ _ k => ?_)
  extract_lets +onlyGivenNames r
  have hr : Kept s r.2 := by
    unfold r
    split
    · exact k.xferRun
    · exact k
  split
  · exact hr.update
  · exact hr

theorem Kept.xferAsk {dst : Nat} : Kept s (t.xferAsk dst) :=
  h.askCredit

theorem Kept.startXfer {dst req : Nat} {data entry : List Byte} : Kept s (t.startXfer dst req data entry) := by
  unfold State.startXfer
  extract_lets +onlyGivenNames x _ s1
  have hs1 : Kept s s1 := h.update
  exact hs1.xferAsk.xferPump

end

end Sys2Proof.Machine
end

section
/-! PROOFS. What the operations of Sys2Proof/Machine/TimeOps.lean keep. -/

namespace Sys2Proof.Machine

section
set_option Elab.async false
variable {s t : State} (h : Kept s t)
include h

theorem Kept.anchorP {type k block time p : Nat} {jump : Int} : Kept s (t.anchorP type k block time p jump) := by
  unfold State.anchorP
  extract_lets +onlyGivenNames d residual flags bs s1
  have hs1 : Kept s s1 := h.setDie
  exact .stat hs1.update

theorem Kept.anchor {type k block time : Nat} {jump : Int} : Kept s (t.anchor type k block time jump) :=
  h.anchorP

theorem Kept.anchorPred {type k block : Nat} : Kept s (t.anchorPred type k block) :=
  h.anchor

theorem Kept.clockChange {f : State → State} (hf : ∀ u, Kept s u → Kept s (f u)) : Kept s (t.clockChange f) :=
  (hf t h).each (fun _ _ k => .ite k.setDie.statIn (.ite k.setDie.statIn k.setDie.statIn.anchorPred))

theorem Kept.storeLoss {e : LossEntry} : Kept s (t.storeLoss e) := by
  unfold State.storeLoss
  split
  · exact h
  · exact h.devPut

theorem Kept.openLoss {cause hpc : Nat} {lost : List SBlock} : Kept s (t.openLoss cause hpc lost) := by
  unfold State.openLoss
  refine .ite h ?_
  extract_lets +onlyGivenNames firsts e _ s1
  have hs1 : Kept s s1 := h.update
  exact hs1.storeLoss

theorem Kept.rewriteLoss {e : LossEntry} : Kept s (t.rewriteLoss e) :=
  h.storeLoss.raise

theorem Kept.closeLoss {which : LossEntry → Bool} : Kept s (t.closeLoss which) := by
  unfold State.closeLoss
  extract_lets +onlyGivenNames sel shut losses _ s1
  have hs1 : Kept s s1 := h.update
  exact hs1.over (fun _ _ k => k.rewriteLoss)

theorem Kept.ackLoss : Kept s (t.ackLoss) := by
  unfold State.ackLoss
  split
  · exact h
  · extract_lets +onlyGivenNames losses _ s1
    have hs1 : Kept s s1 := h.update
    exact hs1.raise.when (fun _ k => k.rewriteLoss)

theorem Kept.stopRing : Kept s (t.stopRing) := by
  unfold State.stopRing
  extract_lets +onlyGivenNames s1
  have hs1 : Kept s s1 := .closeLoss (h.each (fun _ _ k => k.ackLoss))
  exact .setFlag hs1.update

theorem Kept.startRing : Kept s (t.startRing) := by
  unfold State.startRing
  refine .ite h ?_
  extract_lets +onlyGivenNames _ s1
  have hs1 : Kept s s1 := .setFlag h.update
  exact hs1.over (fun _ _ k => k.openLoss)

end

end Sys2Proof.Machine
end

section
/-! PROOFS. What the operations of Sys2Proof/Machine/Combiner.lean keep. -/

namespace Sys2Proof.Machine

section
set_option Elab.async false
variable {s t : State} (h : Kept s t)
include h

theorem Kept.setCell {c : Nat} {x : Cell} : Kept s (t.setCell c x) :=
  h.update

theorem Kept.level {code : Nat} {v : Bool} : Kept s (t.level code v) :=
  h.update

theorem Kept.oldCells : Kept s (t.oldCells) :=
  h.update

theorem Kept.cellCounts {c : Nat} {late fits : Bool} : Kept s (t.cellCounts c late fits) := by
  unfold State.cellCounts
  extract_lets +onlyGivenNames x fresh s1
  have hs1 : Kept s s1 := h.when (fun _ k => k.addFld.stat)
  extract_lets +onlyGivenNames s2
  have hs2 : Kept s s2 := hs1.when (fun _ k => k.raise)
  extract_lets +onlyGivenNames s3
  have hs3 : Kept s s3 := hs2.when (fun _ k => k.setCell)
  exact hs3.when (fun _ k => k.addFld.stat)

theorem Kept.placeEvent {old count : Bool} {c i code t' : Nat} : Kept s (t.placeEvent old count c i code t') := by
  unfold State.placeEvent
  extract_lets +onlyGivenNames cfg
  have hcfg : Kept s cfg := .ite h.oldCells h
  extract_lets +onlyGivenNames r s1
  have hs1 : Kept s s1 := h.when (fun _ k => k.cellCounts)
  exact hs1.setCell

theorem Kept.combEvent {code t' : Nat} {among : Nat → Bool} : Kept s (t.combEvent code t' among) := by
  unfold State.combEvent
  extract_lets +onlyGivenNames before
  refine h.each (fun _ _ k => .ite (k.each (fun _ _ l => ?_)) k)
  extract_lets +onlyGivenNames new old s1
  have hs1 : Kept s s1 := l.when (fun _ m => m.placeEvent)
  exact hs1.when (fun _ m => m.placeEvent)

theorem Kept.replayEnd {k status : Nat} : Kept s (t.replayEnd k status) :=
  .ite h h.setReplay.setFld.setFlag.raise

theorem Kept.recDropped {d cause : Nat} : Kept s (t.recDropped d cause) :=
  h.addFld.stat.setDef.when (fun _ k => k.raise)

theorem Kept.defIgnored {d : Nat} : Kept s (t.defIgnored d) :=
  h.addFld.stat

theorem Kept.makeSegment {cfg : Machine.State} {d : Nat} {f : Firing} : Kept s (t.makeSegment cfg d f) := by
  unfold State.makeSegment
  extract_lets +onlyGivenNames pre post start ws j
  refine .ite h.recDropped (.ite h.recDropped ?_)
  extract_lets +onlyGivenNames _ s1
  have hs1 : Kept s s1 := h.update
  exact hs1.stat.setDef

theorem Kept.queueFiring {cfg : Machine.State} {d : Nat} {f : Firing} : Kept s (t.queueFiring cfg d f) :=
  .ite h.setDef h.recDropped

theorem Kept.retrigger {cfg : Machine.State} {d : Nat} {f : Firing} : Kept s (t.retrigger cfg d f) := by
  unfold State.retrigger
  extract_lets +onlyGivenNames other total
  split
  · exact h
  · exact .ite h.queueFiring (.ite h.defIgnored h.update)

theorem Kept.defFire {cfg : Machine.State} {d : Nat} {f : Firing} : Kept s (t.defFire cfg d f) :=
  .ite h.addFld (.ite (.ite h.defIgnored (.ite h.retrigger h.queueFiring)) (.ite
    (.ite h.defIgnored h.queueFiring) h.makeSegment))

theorem Kept.toutPulse {n : Nat} : Kept s (t.toutPulse n) := by
  unfold State.toutPulse
  extract_lets +onlyGivenNames s1
  have hs1 : Kept s s1 := .ite h h.emit
  exact hs1.update

theorem Kept.toutSync {u : Machine.State} : Kept s (State.toutSync u t) :=
  h.each (fun _ _ k => k.when (fun _ l => l.emit))

theorem Kept.fabBroadcast {id : Nat} {f : Firing} : Kept s (t.fabBroadcast id f) :=
  h.sendTrigger.when (fun _ k => k.combEvent)

theorem Kept.fireOutputs {cfg : Machine.State} {c : Nat} {f : Firing} : Kept s (t.fireOutputs cfg c f) := by
  unfold State.fireOutputs
  extract_lets +onlyGivenNames s1
  have hs1 : Kept s s1 := h.addFld.stat
  extract_lets +onlyGivenNames s2
  have hs2 : Kept s s2 := hs1.when (fun _ k => k.each (fun _ _ l => l.when (fun _ m => m.toutPulse)))
  extract_lets +onlyGivenNames s3
  have hs3 : Kept s s3 := hs2.when (fun _ k => k.fabBroadcast)
  extract_lets +onlyGivenNames groups s4
  have hs4 : Kept s s4 := hs3.each (fun _ _ k => .ite (k.over (fun _ _ l => l.tileEvent)) k)
  extract_lets +onlyGivenNames s5
  have hs5 : Kept s s5 := hs4.each (fun _ _ k => .ite k.defFire k)
  exact hs5.update

theorem Kept.linkTick : Kept s (t.linkTick) := by
  unfold State.linkTick
  extract_lets +onlyGivenNames due
  refine .ite h ?_
  extract_lets +onlyGivenNames _ s1
  have hs1 : Kept s s1 := h.update
  exact hs1.over (fun _ _ k => k.combEvent)

theorem Kept.judge {c : Nat} {u : Int} : Kept s (t.judge c u) :=
  .ite h.setCell.fireOutputs (.ite h.setCell.fireOutputs h)

theorem Kept.execCombinerEventArrival {code : BitVec 12} {t' : Nat} : Answers s (execCombinerEventArrival code t' t) :=
  h.combEvent.next

theorem Kept.execCellFire {c : Fin 64} {u : Nat} : Answers s (execCellFire c u t) :=
  h.judge.next

theorem Kept.execToutPulseEnd {n : Fin 8} : Answers s (execToutPulseEnd n t) := by
  unfold Machine.execToutPulseEnd
  refine Kept.next ?_
  split
  · exact .ite (.emit h.update) h
  · exact h

theorem Kept.execTimerFire {j : Fin 8} {t' : Nat} : Answers s (execTimerFire j t' t) :=
  Kept.next (.ite (.combEvent h.update) h)

theorem Kept.swTriggers {v : Nat} : Kept s (t.swTriggers v) :=
  h.each (fun _ _ k => k.when (fun _ l => l.combEvent))

theorem Kept.execSwTrigger {path : Path} {value : BitVec 32} : Answers s (execSwTrigger path value t) :=
  h.swTriggers.wrote.next

end

end Sys2Proof.Machine
end

section
/-! PROOFS. What the operations of Sys2Proof/Machine/Records.lean keep. -/

namespace Sys2Proof.Machine

section
set_option Elab.async false
variable {s t : State} (h : Kept s t)
include h

theorem Kept.ringFetch {source g c b : Nat} : Kept s (t.ringFetch source g c b) :=
  h.when (fun _ k => k.readBy)

theorem Kept.storeRecord {d format flags time segs : Nat} {bs : List Byte} :
    Kept s (t.storeRecord d format flags time segs bs) := by
  unfold State.storeRecord
  refine .ite h.addFld ?_
  split
  · exact h.recDropped
  · extract_lets +onlyGivenNames off size n lost
    refine .ite h.recDropped ?_
    extract_lets +onlyGivenNames s1
    have hs1 : Kept s s1 := by
      unfold s1
      refine h.over (fun _ _ k => ?_)
      split
      · exact k.devPut
      · exact k
    extract_lets +onlyGivenNames failed s2
    have hs2 : Kept s s2 := hs1.devPut
    exact hs2.update

theorem Kept.closeRecord {cfg : Machine.State} {d flags : Nat} : Kept s (t.closeRecord cfg d flags) := by
  unfold State.closeRecord
  extract_lets +onlyGivenNames x
  split
  · exact h.setDef
  · exact h.setDef.storeRecord.when (fun _ k => k.over (fun _ _ l => l.raise))

theorem Kept.closeSegments : Kept s (t.closeSegments) := by
  unfold State.closeSegments
  refine h.over (fun _ _ k => ?_)
  split
  · refine .ite ?_ k
    extract_lets +onlyGivenNames _ s1
    have hs1 : Kept s s1 := k.update
    exact hs1.setDef
  · exact k

theorem Kept.copyFetch {j : Job} : Kept s (t.copyFetch j) := by
  unfold State.copyFetch
  split
  · exact h
  · exact h.when (fun _ k => k.ringFetch)

theorem Kept.copyAll {n : Nat} {j : Job} : Kept s (State.copyAll n t j).1 := by
  induction n generalizing t j with
  | zero => exact h
  | succ n ih =>
    unfold State.copyAll
    split
    · exact ih h.copyFetch
    · exact h

theorem Kept.cfgFor {time : Nat} : Kept s (t.cfgFor time) :=
  .ite h.oldCells h

theorem Kept.closeSwitched {d : Nat} : Kept s (t.closeSwitched d) :=
  h.when (fun _ k => k.closeRecord)

theorem Kept.segmentDone {j : Job} : Kept s (t.segmentDone j) := by
  unfold State.segmentDone
  split
  · exact h
  · extract_lets +onlyGivenNames _ s1
    have hs1 : Kept s s1 := h.update
    extract_lets +onlyGivenNames s2
    have hs2 : Kept s s2 := hs1.when (fun _ k => k.setDef)
    extract_lets +onlyGivenNames s3
    have hs3 : Kept s s3 := hs2.when (fun _ k => k.closeRecord)
    exact .ite hs3.setDef.closeRecord hs3.setDef.closeSwitched

theorem Kept.breakPin {j : Job} : Kept s (t.breakPin j) := by
  unfold State.breakPin
  extract_lets +onlyGivenNames j' _ s1
  have hs1 : Kept s s1 := h.update
  split
  · exact hs1.stat
  · exact hs1.raise

theorem Kept.breakPins {addr : Nat} {blk : SBlock} : Kept s (t.breakPins addr blk) := by
  unfold State.breakPins
  extract_lets +onlyGivenNames s1
  have hs1 : Kept s s1 := h.over (fun _ _ k => k.breakPin)
  exact hs1.each (fun _ _ k => k.when (fun _ l => l.replayEnd))

theorem Kept.fromQueue {d : Nat} {l : List Firing} : Kept s (t.fromQueue d l) := by
  induction l generalizing t with
  | nil => exact h.setDef
  | cons f q ih => exact .ite h.setDef.makeSegment (ih h.setDef.makeSegment)

theorem Kept.execDefRearm {d : Fin 32} : Answers s (execDefRearm d t) :=
  Kept.next (.ite h (.ite h.setDef.addFld h.setDef.fromQueue))

theorem Kept.recordCfg {d : Nat} : Kept s (t.recordCfg d) := by
  unfold State.recordCfg
  split
  · exact h.cfgFor
  · split
    · exact h.cfgFor
    · exact h

theorem Kept.execRecordTimeout {d : Fin 32} : Answers s (execRecordTimeout d t) := by
  unfold Machine.execRecordTimeout
  extract_lets +onlyGivenNames cfg
  have hcfg : Kept s cfg := h.recordCfg
  extract_lets +onlyGivenNames ms
  refine Kept.next ?_
  split
  · exact .ite h.closeRecord h
  · exact h

theorem Kept.dropSegment {j : Job} {d : Nat} : Kept s (t.dropSegment j d) := by
  unfold State.dropSegment
  extract_lets +onlyGivenNames _ s1
  have hs1 : Kept s s1 := h.update
  exact hs1.setDef.addFld

theorem Kept.copyStep {j : Nat} {x : Job} : Kept s (t.copyStep j x) := by
  unfold State.copyStep
  split
  · exact .ite h.segmentDone h
  · extract_lets +onlyGivenNames s1
    have hs1 : Kept s s1 := h.copyFetch
    extract_lets +onlyGivenNames _ s2
    have hs2 : Kept s s2 := hs1.update
    exact .ite hs2.segmentDone hs2

theorem Kept.execRecCopyBlock {j : Nat} : Answers s (execRecCopyBlock j t) := by
  unfold Machine.execRecCopyBlock
  refine Kept.next ?_
  split
  · exact h
  · split
    · exact .ite h.copyStep h.dropSegment
    · exact h.copyStep

theorem Kept.itemRecord {d : Nat} {item : List Byte} : Kept s (t.itemRecord d item) :=
  .ite h.addFld (.ite h.recDropped h.storeRecord)

theorem Kept.execItemRecordArrival {d : Fin 32} {item : List Byte} : Answers s (execItemRecordArrival d item t) := by
  unfold Machine.execItemRecordArrival
  refine Kept.next ?_
  split
  · next s1 heq =>
      have hs1 : Kept s s1 := h.offHall heq
      exact hs1.itemRecord
  · exact h

theorem Kept.execRecordWriteAcked : Answers s (execRecordWriteAcked t) := by
  unfold Machine.execRecordWriteAcked
  refine Kept.next ?_
  split
  · exact h
  · extract_lets +onlyGivenNames _ s1
    have hs1 : Kept s s1 := h.update
    refine .ite ?_ ?_
    · extract_lets +onlyGivenNames _ s2
      have hs2 : Kept s s2 := hs1.update
      exact hs2.recDropped
    · extract_lets +onlyGivenNames s2
      have hs2 : Kept s s2 := by
        unfold s2
        split
        · exact hs1.devPut
        · exact hs1
      exact hs2.update

theorem Kept.execIndexWriteAck : Answers s (execIndexWriteAck t) := by
  unfold Machine.execIndexWriteAck
  refine Kept.next ?_
  split
  · exact h
  · exact h.update

theorem Kept.startRetrieval {r : RtvRequest} {remote : Option Nat} {u : State}
    (e : t.startRetrieval r remote = some u) :
    Kept s u := by
  unfold State.startRetrieval at e
  extract_lets st fire ws cut j at e
  split at e
  · cases e
  · cases e
    exact h.update

/-- The body is taken from the function itself: unfolded at its operands, the kernel would evaluate the entry's
address. -/
theorem Kept.putCompletion {e : List Byte} : Kept s (t.putCompletion e) := by
  obtain ⟨f, hf⟩ : ∃ f, f = State.putCompletion := ⟨_, rfl⟩
  rw [← hf]
  delta State.putCompletion at hf
  subst hf
  beta_reduce
  extract_lets +onlyGivenNames tail a
  cases r : t.physPut srcRecord a e with
  | none => exact h.update
  | some u => exact (h.physPut r).setFld.pend

theorem Kept.retryCompletion : Kept s (t.retryCompletion) := by
  unfold State.retryCompletion
  split
  · exact h
  · exact .ite (.putCompletion h.update) h

theorem Kept.rtvTail {tail : Nat} : Kept s (t.rtvTail tail) :=
  h.when (fun _ k => k.setFld)

theorem Kept.execRtvDoorbell {path : Path} {tail : BitVec 16} : Answers s (execRtvDoorbell path tail t) :=
  h.rtvTail.wrote.next

theorem Kept.startNext : Kept s (t.startNext) := by
  unfold State.startNext
  refine .ite h ?_
  extract_lets +onlyGivenNames head local_
  have hlocal_ : ∀ u, Kept s u → Kept s (local_ u) := fun _ k => by
    unfold local_
    refine .ite k ?_
    extract_lets +onlyGivenNames r s1
    have hs1 : Kept s s1 := k.readBy
    split
    · next t1 heq =>
        have ht1 : Kept s t1 := hs1.startRetrieval heq
        extract_lets +onlyGivenNames t12
        have ht12 : Kept s t12 := ht1.setFld
        exact ht12.update
    · exact hs1.raise
  split
  · refine .ite ?_ (hlocal_ _ h)
    extract_lets +onlyGivenNames r
    split
    · next t1 heq =>
        have ht1 : Kept s t1 := h.startRetrieval heq
        exact ht1.update
    · exact h.raise
  · exact hlocal_ _ h

theorem Kept.execRtvStart : Answers s (execRtvStart t) :=
  h.startNext.next

theorem Kept.execRtvComplete {j : Nat} : Answers s (execRtvComplete j t) := by
  unfold Machine.execRtvComplete
  refine Kept.next ?_
  split
  · exact h
  · split
    · exact h
    · split
      · next u x heq =>
          have hu : Kept s u := .fst heq (h.copyAll)
          refine .ite h ?_
          extract_lets +onlyGivenNames _ s1
          have hs1 : Kept s s1 := hu.update
          split
          · exact hs1.startXfer
          · extract_lets +onlyGivenNames s2
            have hs2 : Kept s s2 := hs1.when (fun _ k => k.devPut)
            exact hs2.putCompletion

end

end Sys2Proof.Machine
end

section
/-! PROOFS. What the operations of Sys2Proof/Machine/TileLoad.lean keep. -/

namespace Sys2Proof.Machine

section
set_option Elab.async false
variable {s t : State} (h : Kept s t)
include h

theorem Kept.takeStagedOf {n : Nat} {sel : Reg → Bool} : Kept s (t.takeStagedOf n sel) := by
  unfold State.takeStagedOf
  extract_lets +onlyGivenNames mine t1
  have ht1 : Kept s t1 := h.over (fun _ _ k => k.takeWord)
  exact ht1.update

theorem Kept.takeStagedGt {n : Nat} : Kept s (t.takeStagedGt n) :=
  h.takeStagedOf

theorem Kept.loadTile {n g : Nat} : Kept s (t.loadTile n g) := by
  unfold State.loadTile
  extract_lets +onlyGivenNames l s1
  have hs1 : Kept s s1 := by
    unfold s1
    split
    · exact h.setBytes.over (fun _ _ k => k.dmPut)
    · exact h
  split
  · exact hs1.each (fun _ _ k => k.setBytes)
  · exact hs1

theorem Kept.switchDone : Kept s (t.switchDone) := by
  unfold State.switchDone
  extract_lets +onlyGivenNames busy
  refine .ite h ?_
  extract_lets +onlyGivenNames d s1
  have hs1 : Kept s s1 := h.each (fun _ _ k => k.setReg)
  extract_lets +onlyGivenNames ns _ s2
  have hs2 : Kept s s2 := hs1.update
  exact hs2.raise

theorem Kept.startTile {n g state : Nat} {rp : Option Nat} : Kept s (t.startTile n g state rp) :=
  h.setTile.setTile.setFlag.setFlag

theorem Kept.gtCopy {old new : Nat} : Kept s (t.gtCopy old new) :=
  h.update

theorem Kept.setupCopy {old new : Nat} : Kept s (t.setupCopy old new) :=
  h.gtCopy.setTile

theorem Kept.slotTake {g : Nat} {staged : Table Nat Nat} {maps : Nat × Nat} : Kept s (t.slotTake g staged maps) :=
  h.takeStagedGt.setTile

theorem Kept.tilesEmpty {d : Nat} : Kept s (t.tilesEmpty d) :=
  h.when (fun _ k => k.spareEmpty)

theorem Kept.setMig {d : Nat} {m : Option Migration} : Kept s (t.setMig d m) :=
  h.update

theorem Kept.migStart {w : PanSwap} : Kept s (t.migStart w).2 := by
  unfold State.migStart
  split
  · extract_lets +onlyGivenNames old s1
    have hs1 : Kept s s1 := .setRole h.gtCopy
    extract_lets +onlyGivenNames _ t1
    exact Kept.toSnd (.setMig hs1.setTile)
  · exact Kept.toSnd h

theorem Kept.migLoaded {d : Nat} {m : Migration} : Kept s (t.migLoaded d m) := by
  unfold State.migLoaded
  extract_lets +onlyGivenNames s1
  have hs1 : Kept s s1 := .setupCopy h.loadTile
  exact hs1.setTile.setMig

theorem Kept.startSpare {n g f : Nat} : Kept s (t.startSpare n g f) := by
  unfold State.startSpare
  extract_lets +onlyGivenNames shadow s1
  have hs1 : Kept s s1 := h.startTile
  extract_lets +onlyGivenNames s2
  have hs2 : Kept s s2 := by
    unfold s2
    split
    · exact .ite (hs1.setupCopy.setTile.setTile.when (fun _ k => k.sampleFrame)) hs1
    · exact hs1
  exact hs2.setTile

theorem Kept.csRepair {n : Nat} : Kept s (t.csRepair n) := by
  unfold State.csRepair
  extract_lets +onlyGivenNames rows _ s1
  have hs1 : Kept s s1 := h.update
  refine hs1.over (fun _ _ k => ?_)
  extract_lets +onlyGivenNames used
  refine .ite ?_ k.spareEmpty
  extract_lets +onlyGivenNames _ s2
  have hs2 : Kept s s2 := k.update
  exact hs2.swapUsed

theorem Kept.tileLeaves {n : Nat} {retire : Bool} : Kept s (t.tileLeaves n retire) :=
  h.setTile.setRole.csRepair.switchDone

theorem Kept.tileServes {n g b : Nat} : Kept s (t.tileServes n g b) :=
  h.setupCopy.setTile.setRole

theorem Kept.groupTakes {g b : Nat} : Kept s (t.groupTakes g b) := by
  unfold State.groupTakes
  extract_lets +onlyGivenNames d home
  split
  · exact h.tileServes
  · exact h

theorem Kept.tileFreed {n g : Nat} : Kept s (t.tileFreed n g) :=
  h.setupCopy.setTile.setRole.csRepair

theorem Kept.migEnd {d : Nat} {m : Migration} : Kept s (t.migEnd d m) :=
  h.haltTile.setMig.setTile.setRole.tileLeaves.stat.swapUsed.tilesEmpty

theorem Kept.migDrop {d : Nat} {m : Migration} {test : Bool} : Kept s (t.migDrop d m test) :=
  h.setMig.setTile.setTile.setRole

theorem Kept.migCancel : Kept s (t.migCancel) := by
  unfold State.migCancel
  refine h.over (fun _ _ k => .ite k.migEnd ?_)
  extract_lets +onlyGivenNames s1
  have hs1 : Kept s s1 := k.migDrop
  exact hs1.update

theorem Kept.askWithdraw {kind u : Nat} : Kept s (t.askWithdraw kind u) :=
  h.update

theorem Kept.tileRetire {n : Nat} : Kept s (t.tileRetire n) := by
  unfold State.tileRetire
  extract_lets +onlyGivenNames g s1
  have hs1 : Kept s s1 := by
    unfold s1
    clear_value g
    split
    · exact h.setupCopy
    · exact h
  extract_lets +onlyGivenNames s2
  have hs2 : Kept s s2 := hs1.askWithdraw.tileLeaves.funcRetired.tilesEmpty
  clear_value g
  split
  · exact hs2.update
  · exact hs2

theorem Kept.ladderReload {n : Nat} : Kept s (t.ladderReload n) :=
  h.setTile

theorem Kept.tileReload {n : Nat} : Kept s (t.tileReload n) := by
  unfold State.tileReload
  split
  · exact h.loadTile.timerSet.setTile
  · exact h

theorem Kept.tileFailed {n : Nat} {unitFails : Bool} : Kept s (t.tileFailed n unitFails) := by
  unfold State.tileFailed
  split
  · next k s1 heq =>
      have hs1 : Kept s s1 := .pair heq (h.step2)
      extract_lets +onlyGivenNames fails manual s2
      have hs2 : Kept s s2 := hs1.when (fun _ k => k.askWithdraw)
      extract_lets +onlyGivenNames s3
      have hs3 : Kept s s3 := hs2.when (fun _ k => k.wearReport)
      refine .ite (.ite hs3.tileRetire hs3.ladderReload) ?_
      extract_lets +onlyGivenNames r
      have hr : Kept s r.2 := hs3.migStart
      refine .ite hr ?_
      extract_lets +onlyGivenNames s4
      have hs4 : Kept s s4 := hs3.when (fun _ k => k.spareEmpty)
      exact .ite hs4.tileRetire hs4.ladderReload

theorem Kept.tileFault {n code pc : Nat} : Kept s (t.tileFault n code pc) := by
  unfold State.tileFault
  extract_lets +onlyGivenNames _ s1
  have hs1 : Kept s s1 := h.setTile
  extract_lets +onlyGivenNames s2
  have hs2 : Kept s s2 := hs1.setReg
  extract_lets +onlyGivenNames s3
  have hs3 : Kept s s3 := hs2.raise
  split
  · exact .ite hs3.migDrop.swapFail (.ite hs3 hs3.tileFailed)
  · exact hs3.tileFailed
  · exact hs3

end

end Sys2Proof.Machine
end

section
/-! PROOFS. What the operations of Sys2Proof/Machine/Cellar.lean keep. -/

namespace Sys2Proof.Machine

section
set_option Elab.async false
variable {s t : State} (h : Kept s t)
include h

theorem Kept.setQueue {q : Nat} {l : List RingWrite} : Kept s (t.setQueue q l) :=
  h.update

theorem Kept.settle {b : SBlock} : Kept s (t.settle b) :=
  h.setDie

theorem Kept.landDiscard {b : SBlock} : Kept s (t.landDiscard b) :=
  h.addFld.stat.settle

theorem Kept.discardEvent {cause : Nat} : Kept s (t.discardEvent cause) := by
  unfold State.discardEvent
  extract_lets +onlyGivenNames fresh n _ s1
  have hs1 : Kept s s1 := h.update
  exact hs1.when (fun _ k => k.raise)

theorem Kept.land {b : SBlock} : Kept s (t.land b) := by
  unfold State.land
  extract_lets +onlyGivenNames g
  refine .ite h.settle (.ite h ?_)
  extract_lets +onlyGivenNames a q size
  refine .ite h.landDiscard (.ite ?_ (.ite ?_ h.setQueue.statIn.setFld))
  · extract_lets +onlyGivenNames s1
    have hs1 : Kept s s1 := h.when (fun _ k => .openLoss k.update)
    exact hs1.setFlag.landDiscard.discardEvent
  · extract_lets +onlyGivenNames s1
    have hs1 : Kept s s1 := h.when (fun _ k => k.setFlag.openLoss)
    exact hs1.landDiscard.discardEvent

theorem Kept.landRelief {q : Nat} : Kept s (t.landRelief q) := by
  unfold State.landRelief
  extract_lets +onlyGivenNames s1
  have hs1 : Kept s s1 := by
    unfold s1
    refine h.when (fun _ k => ?_)
    extract_lets +onlyGivenNames _ s1
    have hs1 : Kept s s1 := k.update
    exact hs1.setFlag.closeLoss
  exact hs1.when (fun _ k => k.setFlag.closeLoss)

theorem Kept.landRelieved : Kept s (t.landRelieved) :=
  .landRelief (h.over (fun _ _ k => k.landRelief))

theorem Kept.execBlockLand {k : Fin 8} : Answers s (execBlockLand k t) := by
  unfold Machine.execBlockLand
  refine Kept.next ?_
  split
  · exact h
  · exact h.setDie.land

theorem Kept.issueWrite {w : RingWrite} : Kept s (t.issueWrite w) := by
  unfold State.issueWrite
  extract_lets +onlyGivenNames s1
  have hs1 : Kept s s1 := h.breakPins
  exact .memLog hs1.update

theorem Kept.payRefresh {h' : Nat} : Kept s (t.payRefresh h') :=
  .ite h (.hist h.update)

theorem Kept.execRingWriteIssue {q : Fin 128} : Answers s (execRingWriteIssue q t) := by
  unfold Machine.execRingWriteIssue
  extract_lets +onlyGivenNames old
  refine Kept.next ?_
  split
  · exact h
  · split
    · exact h
    · refine .ite ?_ (.ite (.issueWrite h.update) h.setQueue.issueWrite.landRelief.payRefresh)
      split
      · exact h
      · refine .ite ?_ h
        extract_lets +onlyGivenNames s1
        have hs1 : Kept s s1 := h.setQueue
        exact .payRefresh (.landRelief hs1.update)

theorem Kept.execRingWriteAck {q : Fin 128} : Answers s (execRingWriteAck q t) := by
  unfold Machine.execRingWriteAck
  refine Kept.next ?_
  split
  · exact h
  · extract_lets +onlyGivenNames _ s1
    have hs1 : Kept s s1 := h.update
    exact hs1.devWrite.setDie.settle.closeSegments

theorem Kept.execAnchorWriteAck {error : Bool} : Answers s (execAnchorWriteAck error t) := by
  unfold Machine.execAnchorWriteAck
  refine Kept.next ?_
  split
  · extract_lets +onlyGivenNames s1
    have hs1 : Kept s s1 := .ite h h.devPut
    exact hs1.update
  · exact h

theorem Kept.execLossEntryAck : Answers s (execLossEntryAck t) :=
  h.ackLoss.next

theorem Kept.useRow {h' bank : Nat} : Kept s (t.useRow h' bank) :=
  h.update

theorem Kept.softRow {h' bank row : Nat} : Kept s (t.softRow h' bank row) := by
  unfold State.softRow
  refine .ite h ?_
  extract_lets +onlyGivenNames s1
  have hs1 : Kept s s1 := h.useRow
  exact hs1.update

theorem Kept.rowReport {h' word : Nat} : Kept s (t.rowReport h' word) := by
  unfold State.rowReport
  extract_lets +onlyGivenNames host _ s1
  have hs1 : Kept s s1 := h.update
  exact hs1.swapUsed

theorem Kept.runStall {x : Stall} : Kept s (t.runStall x) := by
  unfold State.runStall
  split
  · extract_lets +onlyGivenNames _ s1
    have hs1 : Kept s s1 := h.update
    extract_lets +onlyGivenNames s2
    have hs2 : Kept s s2 := hs1.setFlag
    exact hs2.update
  · extract_lets +onlyGivenNames s1
    have hs1 : Kept s s1 := h.softRow.hist
    extract_lets +onlyGivenNames _ s2
    have hs2 : Kept s s2 := hs1.update
    exact hs2.raise.rowReport

theorem Kept.stallDeferred {x : Stall} : Kept s (t.stallDeferred x) := by
  unfold State.stallDeferred
  extract_lets +onlyGivenNames _ s1
  have hs1 : Kept s s1 := h.update
  exact hs1.addFld.stat.raise

theorem Kept.planStall {x : Stall} : Kept s (t.planStall x) :=
  .ite h.runStall h.stallDeferred

theorem Kept.execPlannedStallRetry : Answers s (execPlannedStallRetry t) := by
  unfold Machine.execPlannedStallRetry
  refine Kept.next ?_
  split
  · exact h
  · exact .ite h (.planStall h.update)

theorem Kept.fcWrite {v : Nat} : Kept s (t.fcWrite v) := by
  unfold State.fcWrite
  extract_lets +onlyGivenNames s1
  have hs1 : Kept s s1 := h.setFld
  extract_lets +onlyGivenNames s2
  have hs2 : Kept s s2 := hs1.when (fun _ k => k.setFld)
  exact hs2.when (fun _ k => k.planStall)

theorem Kept.execFcGo {path : Path} {value : BitVec 32} : Answers s (execFcGo path value t) :=
  h.fcWrite.wrote.next

theorem Kept.execFreqChangeDone {aligned : Bool} : Answers s (execFreqChangeDone aligned t) := by
  unfold Machine.execFreqChangeDone
  refine Kept.next ?_
  split
  · extract_lets +onlyGivenNames s1
    have hs1 : Kept s s1 := h.when (fun _ k => k.setFld)
    extract_lets +onlyGivenNames s2
    have hs2 : Kept s s2 := hs1.setFlag
    extract_lets +onlyGivenNames s3
    have hs3 : Kept s s3 := hs2.update
    extract_lets +onlyGivenNames ns _ s4
    have hs4 : Kept s s4 := hs3.update
    exact hs4.raise
  · exact h

theorem Kept.execSoftRepair {h' : Fin 128} {bank : Fin 48} {row : BitVec 16} :
    Answers s (execSoftRepair h' bank row t) :=
  Kept.next (.ite h h.planStall)

theorem Kept.hardRow {h' bank row : Nat} : Kept s (t.hardRow h' bank row) := by
  unfold State.hardRow
  extract_lets +onlyGivenNames soft _ s1
  have hs1 : Kept s s1 := .ite h.update h.useRow
  exact hs1.hist.addFld.raise

theorem Kept.execHardRepair {h' : Fin 128} {bank : Fin 48} {row : BitVec 16} :
    Answers s (execHardRepair h' bank row t) :=
  Kept.next (.ite h.hardRow h)

theorem Kept.execRefreshDue {h' : Fin 128} : Answers s (execRefreshDue h' t) := by
  unfold Machine.execRefreshDue
  extract_lets +onlyGivenNames owed
  refine Kept.next (.ite h ?_)
  extract_lets +onlyGivenNames s1
  have hs1 : Kept s s1 := h.timerSet
  exact .ite hs1.update (.hist hs1.update)

theorem Kept.corrected {h' : Nat} : Kept s (t.corrected h') := by
  unfold State.corrected
  extract_lets +onlyGivenNames fresh n s1
  have hs1 : Kept s s1 := h.addFld
  extract_lets +onlyGivenNames _ s2
  have hs2 : Kept s s2 := hs1.update
  extract_lets +onlyGivenNames _ s3
  have hs3 : Kept s s3 := hs2.update
  exact hs3.when (fun _ k => k.raise)

theorem Kept.execScrubRead {h' : Fin 128} {bank : Fin 48} {row : BitVec 16} {col : Fin 32} {corrected : Bool} :
    Answers s (execScrubRead h' bank row col corrected t) := by
  unfold Machine.execScrubRead
  extract_lets +onlyGivenNames first
  refine Kept.next (.ite h ?_)
  extract_lets +onlyGivenNames s1
  have hs1 : Kept s s1 := h.when (fun _ k => k.timerSet)
  extract_lets +onlyGivenNames b r c pass _ s2
  have hs2 : Kept s s2 := hs1.update
  extract_lets +onlyGivenNames s3
  have hs3 : Kept s s3 := hs2.stat.hist
  refine .ite ?_ hs3
  extract_lets +onlyGivenNames key e _ s4
  have hs4 : Kept s s4 := .ite hs3 hs3.update
  exact hs4.corrected

theorem Kept.execStackSleep {m : Fin 4} {hearthStopped : Bool} : Answers s (execStackSleep m hearthStopped t) :=
  Kept.next (.ite h h.update)

theorem Kept.execStackWake {m : Fin 4} : Answers s (execStackWake m t) :=
  Kept.next (.ite h h.update)

theorem Kept.setPc {h' : Nat} {x : PcState} : Kept s (t.setPc h' x) :=
  h.update

theorem Kept.setFrozen {h' : Nat} {b : Bool} : Kept s (t.setFrozen h' b) :=
  h.setReg

theorem Kept.dropWrites : Kept s (t.dropWrites).1 := by
  unfold State.dropWrites
  extract_lets +onlyGivenNames bad queued lost s1
  have hs1 : Kept s s1 := h.over (fun _ _ k => k.setQueue)
  extract_lets +onlyGivenNames keep _ s2
  have hs2 : Kept s s2 := hs1.update
  extract_lets +onlyGivenNames _ s3
  have hs3 : Kept s s3 := hs2.update
  exact hs3.over (fun _ _ k => k.settle)

theorem Kept.freeze {h' cause bank row col synd retries : Nat} :
    Kept s (t.freeze h' cause bank row col synd retries) := by
  unfold State.freeze
  refine .ite h ?_
  extract_lets +onlyGivenNames before source s1
  have hs1 : Kept s s1 := h.hist
  extract_lets +onlyGivenNames s2
  have hs2 : Kept s s2 := hs1.setPc
  extract_lets +onlyGivenNames s3
  have hs3 : Kept s s3 := hs2.when (fun _ k => k.addFld)
  extract_lets +onlyGivenNames addr sy _ s4
  have hs4 : Kept s s4 := hs3.update
  extract_lets +onlyGivenNames s5
  have hs5 : Kept s s5 := hs4.setFrozen
  split
  · next s6 lost heq =>
      have hs6 : Kept s s6 := .fst heq (hs5.dropWrites)
      extract_lets +onlyGivenNames s7
      have hs7 : Kept s s7 := hs6.over (fun _ _ k => k.openLoss)
      exact hs7.landRelieved.raise.closeSegments

theorem Kept.execPcFreeze {h' : Fin 128} {cause : Fin 3} {bank : Fin 48} {row : BitVec 16} {col : Fin 32}
    {synd : BitVec 16} : Answers s (execPcFreeze h' cause bank row col synd t) :=
  h.freeze.next

theorem Kept.closePc {cause q : Nat} : Kept s (t.closePc cause q) :=
  h.closeLoss

theorem Kept.lossSync {before : List (Nat × Nat)} : Kept s (t.lossSync before) := by
  unfold State.lossSync
  extract_lets +onlyGivenNames after s1
  have hs1 : Kept s s1 := h.over (fun _ _ k => k.closePc)
  exact hs1.over (fun _ _ k => k.openLoss)

theorem Kept.release {h' : Nat} : Kept s (t.release h') :=
  .ite h h.setPc.timerSet.lossSync

theorem Kept.retirePc {h' : Nat} : Kept s (t.retirePc h') :=
  .ite h.setPc h

theorem Kept.wipePc {h' : Nat} : Kept s (t.wipePc h') :=
  h.memory rfl (Memory.wf_wipePc t h')

end

end Sys2Proof.Machine
end

section
/-! PROOFS. What the operations of Sys2Proof/Machine/Clock.lean keep. -/

namespace Sys2Proof.Machine

section
set_option Elab.async false
variable {s t : State} (h : Kept s t)
include h

theorem Kept.setTree {n : Nat} : Kept s (t.setTree n) :=
  h.setFld.when (fun _ k => k.setFld)

theorem Kept.setClk {f : ClkState → ClkState} : Kept s (t.setClk f) :=
  h.update

theorem Kept.gateCko {gate : Bool} : Kept s (t.gateCko gate) :=
  h.each (fun _ _ k => .ite k k.setFlag.setFlag)

theorem Kept.startRelock : Kept s (t.startRelock) := by
  unfold State.startRelock
  extract_lets +onlyGivenNames old s1
  have hs1 : Kept s s1 := h.setClk
  extract_lets +onlyGivenNames s2
  have hs2 : Kept s s2 := hs1.setTree.setFlag.setFlag.setFld
  extract_lets +onlyGivenNames s3
  have hs3 : Kept s s3 := hs2.setFlag
  extract_lets +onlyGivenNames s4
  have hs4 : Kept s s4 := hs3.setFlag.gateCko
  extract_lets +onlyGivenNames s5
  have hs5 : Kept s s5 := hs4.each (fun _ _ k => k.setDie)
  extract_lets +onlyGivenNames s6
  have hs6 : Kept s s6 := hs5.each (fun _ _ k => .ite k.anchorPred k)
  exact hs6.raise

theorem Kept.dropReturn : Kept s (t.dropReturn) :=
  h.setClk.setFlag

theorem Kept.restartRelock : Kept s (t.restartRelock) :=
  h.dropReturn.setClk.setFlag.setFlag.setTree

theorem Kept.relockCause : Kept s (t.relockCause) :=
  .ite h.startRelock (.ite h.restartRelock h)

theorem Kept.relockDone : Kept s (t.relockDone) := by
  unfold State.relockDone
  extract_lets +onlyGivenNames follows
  refine .ite ?_ h
  extract_lets +onlyGivenNames us s1
  have hs1 : Kept s s1 := h.clockChange (fun _ k => k.setClk.setTree.each (fun _ _ l => l.setDie))
  exact hs1.gateCko.raise

theorem Kept.firstRelock : Kept s (t.firstRelock) :=
  .ite h.startRelock h

theorem Kept.execRefinEdge : Answers s (execRefinEdge t) :=
  Kept.next (.ite h.setFld.setClk h)

theorem Kept.execRefQualifyEnd {hz : Nat} : Answers s (execRefQualifyEnd hz t) := by
  unfold Machine.execRefQualifyEnd
  extract_lets +onlyGivenNames nom dev
  refine Kept.next (.ite h ?_)
  extract_lets +onlyGivenNames s1
  have hs1 : Kept s s1 := h.setFld
  extract_lets +onlyGivenNames s2
  have hs2 : Kept s s2 := hs1.setClk.raise
  exact .ite hs2 (.ite hs2.setClk (.ite hs2 hs2.startRelock))

theorem Kept.coast {ppb : Int} : Kept s (t.coast ppb) :=
  .relockDone (.raise (h.clockChange (fun _ k => k.setClk.setTree.setFlag.setFlag)))

theorem Kept.refLost {cause : Nat} : Kept s (t.refLost cause) :=
  h.setFlag.raise

theorem Kept.returnLost : Kept s (t.returnLost) := by
  unfold State.returnLost
  exact .setClk h.setFlag.setTree

theorem Kept.sourceLost {ppb : Int} : Kept s (t.sourceLost ppb) :=
  .ite h.returnLost (.ite h.coast h)

theorem Kept.execRefMissingEdge {coastPpb : Int} : Answers s (execRefMissingEdge coastPpb t) :=
  Kept.next (.ite h (.ite h.setFld (.ite h.setFld.refLost h.setFld.refLost.sourceLost)))

theorem Kept.synUnlock {slip : Bool} : Kept s (t.synUnlock slip) :=
  h.setFlag.raise.relockCause

theorem Kept.returnLocked : Kept s (t.returnLocked) :=
  h.setClk.setTree.setFlag.setFlag

theorem Kept.slewDone : Kept s (t.slewDone) :=
  .relockDone (.raise (h.clockChange (fun _ k => k.returnLocked)))

theorem Kept.outOfRange {synHz : Nat} : Kept s (t.outOfRange synHz) :=
  h.setFld.setFlag.refLost.sourceLost

theorem Kept.countGate {good : Bool} : Kept s (t.countGate good) :=
  h.setClk

theorem Kept.execLockGateEnd {quarters synHz tclkHz : Nat} {slip : Bool} :
    Answers s (execLockGateEnd quarters synHz tclkHz slip t) := by
  unfold Machine.execLockGateEnd
  extract_lets +onlyGivenNames want got diff err good ceil s1
  have hs1 : Kept s s1 := h.setFld
  extract_lets +onlyGivenNames follows
  refine Kept.next (.ite hs1.synUnlock (.ite hs1.outOfRange (.ite hs1 ?_)))
  extract_lets +onlyGivenNames s2
  have hs2 : Kept s s2 := hs1.when (fun _ k => k.outOfRange)
  exact .ite (.ite hs2.countGate hs2.countGate.setClk.setFlag.relockDone) (.ite
    (.ite hs2.countGate.slewDone hs2.countGate) hs2.setClk)

theorem Kept.jcReturn {k : Nat} : Kept s (t.jcReturn k) :=
  .raise (h.clockChange (fun _ k => k.setDie))

theorem Kept.startCounters : Kept s (t.startCounters) :=
  h.each (fun _ _ k => .ite k (k.setDie.anchor.each (fun _ _ l => l.cmpSince)))

theorem Kept.execPllPhaseLock {loop : Loop} : Answers s (execPllPhaseLock loop t) := by
  unfold Machine.execPllPhaseLock
  refine Kept.next ?_
  split
  · exact .ite h.setFld.relockDone (.ite h.setFld.jcReturn h.setFld)
  · exact .ite h h.setFlag.relockDone
  · exact .ite (.firstRelock (.startCounters (h.setClk.clockChange (fun _ k => k.setFlag)))) h
  · exact h.setClk.firstRelock
  · exact h.setClk.firstRelock
  · exact h.setClk.firstRelock
  · exact h.setClk.firstRelock
  · exact h.setClk.firstRelock

theorem Kept.bypUnlock : Kept s (t.bypUnlock) :=
  .ite (.raise (h.clockChange (fun _ k => k.setFlag))) h

theorem Kept.jcUnlock {k : Nat} : Kept s (t.jcUnlock k) := by
  unfold State.jcUnlock
  refine .ite ?_ h
  extract_lets +onlyGivenNames s1
  have hs1 : Kept s s1 := h.setFld
  extract_lets +onlyGivenNames s2
  have hs2 : Kept s s2 := hs1.setFlag.raise
  refine .ite ?_ hs2
  extract_lets +onlyGivenNames s3
  have hs3 : Kept s s3 := hs2.setFlag
  extract_lets +onlyGivenNames s4
  have hs4 : Kept s s4 := hs3.clockChange (fun _ k => k.setDie)
  exact hs4.raise.reinit

theorem Kept.execRelockStepDone : Answers s (execRelockStepDone t) :=
  Kept.next (.ite h.setClk (.ite h.setClk h))

theorem Kept.execRelockFail : Answers s (execRelockFail t) :=
  Kept.next (.ite h h.dropReturn.setClk.setTree.setFlag.raise)

theorem Kept.execRelockRetry : Answers s (execRelockRetry t) :=
  Kept.next (.ite h.restartRelock h)

theorem Kept.offsetWrite {v : Nat} : Kept s (t.offsetWrite v) :=
  .ite h.setFlag h.setReg.setClk

theorem Kept.execOffsetWrite {path : Path} {value : BitVec 32} : Answers s (execOffsetWrite path value t) :=
  h.offsetWrite.wrote.next

theorem Kept.execOffsetSlewDone : Answers s (execOffsetSlewDone t) :=
  Kept.next (.ite h.setClk.setFlag h)

theorem Kept.delayWrite {d v : Nat} : Kept s (t.delayWrite d v) := by
  unfold State.delayWrite
  extract_lets +onlyGivenNames s1
  have hs1 : Kept s s1 := .ite h.setFld h.setFld
  exact hs1.setClk

theorem Kept.execDelayWrite {path : Path} {d : Fin 12} {value : BitVec 32} :
    Answers s (execDelayWrite path d value t) :=
  Kept.next (.wrote (h.delayWrite.when (fun _ k => k.stage)))

theorem Kept.clkFrame : Kept s (t.clkFrame) := by
  unfold State.clkFrame
  extract_lets +onlyGivenNames s1
  have hs1 : Kept s s1 := h.when (fun _ k => k.setClk.setFlag)
  exact hs1.setClk.over (fun _ _ k => k.when (fun _ l => l.setFlag))

theorem Kept.execDelayStep {d : Fin 12} : Answers s (execDelayStep d t) :=
  Kept.next (.ite h (.ite h.setClk (.ite h.setClk.setClk.setFlag
    (.ite h.setClk.setClk.setClk h.setClk.setClk.setClk.anchor))))

theorem Kept.execPhaseJumpMeasured {jumpPs : Int} {predicted : Nat} :
    Answers s (execPhaseJumpMeasured jumpPs predicted t) := by
  unfold Machine.execPhaseJumpMeasured
  refine Kept.next (.ite h ?_)
  extract_lets +onlyGivenNames s1
  have hs1 : Kept s s1 := h.setFld
  extract_lets +onlyGivenNames step s2
  have hs2 : Kept s s2 := hs1.raise
  extract_lets +onlyGivenNames timed s3
  have hs3 : Kept s s3 := .ite hs2.setClk (.raise (.setClk (hs2.each (fun _ _ k => k.setDie))))
  exact .ite hs3.setClk hs3.setClk.setFlag

theorem Kept.execReturnSlewInLockWin : Answers s (execReturnSlewInLockWin t) :=
  Kept.next (.ite h h.setClk.setFlag)

end

end Sys2Proof.Machine
end

section
/-! PROOFS. What the operations of Sys2Proof/Machine/Converter.lean keep. -/

namespace Sys2Proof.Machine

section
set_option Elab.async false
variable {s t : State} (h : Kept s t)
include h

theorem Kept.statSamples {c a : Nat} {v : List Int} : Kept s (t.statSamples c a v) := by
  unfold State.statSamples
  exact .statIn h.statIn

theorem Kept.statTag {c b tag : Nat} : Kept s (t.statTag c b tag) := by
  unfold State.statTag
  extract_lets +onlyGivenNames add
  have hadd : ∀ u off v, Kept s u → Kept s (add u off v) := by
    intro u off v k
    by_cases hc : 80 * b < t.newBound (c / 32)
    · simpa only [add, if_pos hc] using k.statPrev
    · simpa only [add, if_neg hc] using k.stat
  exact hadd _ _ _ (hadd _ _ _ (hadd _ _ _ (hadd _ _ _ h)))

theorem Kept.closeBlock {c b : Nat} {codes : List (BitVec 12)} : Kept s (t.closeBlock c b codes).2 := by
  unfold State.closeBlock
  extract_lets +onlyGivenNames a due s1
  have hs1 : Kept s s1 := h.when (fun _ k => k.setFld)
  extract_lets +onlyGivenNames ys tag x e x2 s2
  have hs2 : Kept s s2 := hs1.setChan
  extract_lets +onlyGivenNames s3
  have hs3 : Kept s s3 := hs2.when (fun _ k => k.setFlag)
  extract_lets +onlyGivenNames s4
  have hs4 : Kept s s4 := hs3.when (fun _ k => k.setFlag)
  extract_lets +onlyGivenNames s5
  have hs5 : Kept s s5 := hs4.when (fun _ k => k.setFlag)
  extract_lets +onlyGivenNames s6
  have hs6 : Kept s s6 := hs5.when (fun _ k => k.setFlag)
  exact hs6.statTag.statSamples

theorem Kept.noBlock {k n : Nat} : Kept s (t.noBlock k n) :=
  h.each (fun _ _ k => k.stat)

theorem Kept.handovers {k b : Nat} : Kept s (t.handovers k b) := by
  unfold State.handovers
  refine h.each (fun _ _ k => ?_)
  extract_lets +onlyGivenNames c
  split
  · exact k
  · exact k.setChan.setFld

theorem Kept.holdChan {c i : Nat} {changed : Bool} : Kept s (t.holdChan c i changed) :=
  h.setChan.setFlag

theorem Kept.endHold {c i : Nat} : Kept s (t.endHold c i) :=
  h.setChan.setFlag

theorem Kept.holdCal {c i : Nat} : Kept s (t.holdCal c i) :=
  h.setChan.setFlag

theorem Kept.endCalHold {c i : Nat} : Kept s (t.endCalHold c i) :=
  h.setChan.setFlag

theorem Kept.trimsFrom {c b : Nat} : Kept s (t.trimsFrom c b) :=
  h.setChan

theorem Kept.execRangeHoldEnd {ch : Fin 256} {sample : Nat} : Answers s (execRangeHoldEnd ch sample t) := by
  unfold Machine.execRangeHoldEnd
  extract_lets +onlyGivenNames c
  refine Kept.next ?_
  split
  · refine .ite h ?_
    extract_lets +onlyGivenNames s1
    have hs1 : Kept s s1 := h.endHold
    extract_lets +onlyGivenNames s2
    have hs2 : Kept s s2 := hs1.when (fun _ k => k.trimsFrom)
    exact hs2.raise
  · exact h

theorem Kept.disturb {c : Nat} {p : Span} : Kept s (t.disturb c p) :=
  h.each (fun _ _ k => k.when (fun _ l => l.setChan))

theorem Kept.calmed {c e : Nat} : Kept s (t.calmed c e) :=
  h.each (fun _ _ k => k.when (fun _ l => l.setChan))

theorem Kept.execOverRangeExcursion {ch : Fin 256} {first : Nat} {signs : List Bool} {over6 : Option Nat}
    {peak : Peak} : Answers s (execOverRangeExcursion ch first signs over6 peak t) := by
  unfold Machine.execOverRangeExcursion
  extract_lets +onlyGivenNames c k
  refine Kept.next (.ite h ?_)
  extract_lets +onlyGivenNames x goesOn peak over6 back clamped ps stop s1
  have hs1 : Kept s s1 := h.setChan
  clear_value peak
  clear_value over6
  split
  · exact hs1
  · exact hs1.disturb
  · exact hs1.disturb
  · exact hs1

theorem Kept.execClampEngage {ch : Fin 256} {sample : Nat} {neg : Bool} : Answers s (execClampEngage ch sample neg t) :=
  Kept.next (.ite h (h.setChan.addFld.stat.when (fun _ k => k.raise)))

theorem Kept.execClampDisengage {ch : Fin 256} {sample : Nat} : Answers s (execClampDisengage ch sample t) :=
  Kept.next (.ite h.setChan h)

theorem Kept.execClampRecoveryEnd {ch : Fin 256} {sample : Nat} : Answers s (execClampRecoveryEnd ch sample t) :=
  Kept.next (.ite h h.setChan.calmed)

end

end Sys2Proof.Machine
end

section
/-! PROOFS. What the operations of Sys2Proof/Machine/Calibration.lean keep. -/

namespace Sys2Proof.Machine

section
set_option Elab.async false
variable {s t : State} (h : Kept s t)
include h

theorem Kept.setCalDie {k : Nat} {x : CalDie} : Kept s (t.setCalDie k x) :=
  h.update

theorem Kept.setCalEntry {e : Nat} {x : CalEntry} : Kept s (t.setCalEntry e x) :=
  h.update

theorem Kept.trimsChanged {c : Nat} : Kept s (t.trimsChanged c) :=
  .ite h.trimsFrom h.setFld

theorem Kept.handover {c sl : Nat} : Kept s (t.handover c sl) :=
  .ite h.setChan h.setFld.setFld

theorem Kept.calReject {k sl mask : Nat} : Kept s (t.calReject k sl mask) :=
  h.setFld.raise.when (fun _ k => k.setFlag.raise)

theorem Kept.retireSlice {k sl : Nat} : Kept s (t.retireSlice k sl) :=
  h.setRole.setFlag

theorem Kept.cmpResult {k sl : Nat} {pass : Bool} : Kept s (t.cmpResult k sl pass).2 :=
  h.update

theorem Kept.spareFailed {k sl : Nat} : Kept s (t.spareFailed k sl) :=
  .ite h.wearReport (h.retireSlice.when (fun _ k => k.spareEmpty))

theorem Kept.calQueue {k sl : Nat} {task : CalTask} {host : Bool} : Kept s (t.calQueue k sl task host) :=
  .ite h (.ite h.setCalDie h.setCalDie)

theorem Kept.execCalTrigger {k : Fin 8} {sl : Fin 34} : Answers s (execCalTrigger k sl t) :=
  Kept.next (.ite h.calQueue h)

theorem Kept.calResult {r : Nat} : Kept s (t.calResult r) :=
  h.setFld.setFlag

theorem Kept.calRunCmd {k sl : Nat} : Kept s (t.calRunCmd k sl) :=
  h.calQueue.calResult

theorem Kept.calRunDieCmd {k : Nat} : Kept s (t.calRunDieCmd k) :=
  .calResult (h.each (fun _ _ k => k.calQueue))

theorem Kept.execCalRun {path : Path} {k : Fin 8} {sl : Fin 34} : Answers s (execCalRun path k sl t) :=
  h.calRunCmd.wrote.next

theorem Kept.execCalRunDie {path : Path} {k : Fin 8} : Answers s (execCalRunDie path k t) :=
  h.calRunDieCmd.wrote.next

theorem Kept.calBoot : Kept s (t.calBoot) :=
  .ite (h.each (fun _ _ k => k.each (fun _ _ l => l.calQueue))) h

theorem Kept.applyEntry {k sl : Nat} : Kept s (t.applyEntry k sl) :=
  h.setCalEntry.setFld

theorem Kept.applyDone : Kept s (t.applyDone) :=
  .ite h h.calResult

theorem Kept.calIdle {k : Nat} : Kept s (t.calIdle k) :=
  h.setCalDie.when (fun _ k => k.applyDone)

theorem Kept.swapIdle {k sl : Nat} {cause : SwapCause} : Kept s (t.swapIdle k sl cause) :=
  .ite h.calIdle.spareFailed h.calIdle.swapAnswer

theorem Kept.calStartJob {k : Nat} {j : CalJob} : Kept s (t.calStartJob k j) := by
  unfold State.calStartJob
  extract_lets +onlyGivenNames d u way chan cur s1
  have hs1 : Kept s s1 := h.setCalDie
  clear_value chan
  clear_value way
  split
  · split
    · extract_lets +onlyGivenNames s2
      have hs2 : Kept s s2 := hs1.applyEntry
      refine .calIdle ?_
      split
      · exact hs2.trimsChanged
      · exact hs2
    · exact hs1.swapIdle
    · exact hs1
  · exact hs1.setCalDie.setRole.setFld
  · extract_lets +onlyGivenNames s2
    have hs2 : Kept s s2 := hs1.holdCal.addFld
    extract_lets +onlyGivenNames _ s3
    have hs3 : Kept s s3 := hs2.setCalDie
    extract_lets +onlyGivenNames s5 _ s4
    have hs5 : Kept s s5 := hs3.applyEntry
    have hs4 : Kept s s4 := .ite hs5.setCalDie hs3
    exact .ite hs4.setCalDie.raise hs4
  · exact hs1

theorem Kept.calNoSpare {k : Nat} : Kept s (t.calNoSpare k) := by
  unfold State.calNoSpare
  extract_lets +onlyGivenNames d
  refine .ite h (h.setCalDie.over (fun _ _ k => ?_))
  split
  · exact k.spareEmpty.swapAnswer
  · exact k

theorem Kept.calStart {k : Nat} {forced : Bool} : Kept s (t.calStart k forced) := by
  unfold State.calStart
  extract_lets +onlyGivenNames d s1
  have hs1 : Kept s s1 := h.when (fun _ k => k.setCalDie)
  extract_lets +onlyGivenNames d2 force
  refine .ite hs1 ?_
  extract_lets +onlyGivenNames s2
  have hs2 : Kept s s2 := hs1.calNoSpare
  extract_lets +onlyGivenNames d3
  split
  · exact hs2.calStartJob
  · split
    · exact hs2
    · exact hs2.setCalDie.raise

theorem Kept.execCalRunStart {k : Fin 8} : Answers s (execCalRunStart k t) :=
  h.calStart.next

theorem Kept.execCalQuietOpen {k : Fin 8} : Answers s (execCalQuietOpen k t) :=
  h.calStart.next

theorem Kept.execCalForce {k : Fin 8} : Answers s (execCalForce k t) :=
  h.calStart.next

theorem Kept.sliceSwapped {k sl p : Nat} {cause : SwapCause} : Kept s (t.sliceSwapped k sl p cause) :=
  h.retireSlice.swapUsed.when (fun _ k => k.spareEmpty)

theorem Kept.calStep4 {k : Nat} {cur : CalCur} {c p : Nat} : Kept s (t.calStep4 k cur c p) := by
  unfold State.calStep4
  extract_lets +onlyGivenNames sl s1
  have hs1 : Kept s s1 := h.setFld
  split
  · exact hs1.setCalDie
  · exact hs1.applyEntry.setCalDie
  · exact hs1.calIdle.sliceSwapped

theorem Kept.calBoundary {k : Nat} : Kept s (t.calBoundary k) := by
  unfold State.calBoundary
  split
  · exact h
  · split
    · exact .ite h (.ite h.calStep4 h.setRole.calIdle)
    · exact h

theorem Kept.calHand {k : Nat} {cur : CalCur} {c sl : Nat} : Kept s (t.calHand k cur c sl) := by
  unfold State.calHand
  extract_lets +onlyGivenNames _ s1
  have hs1 : Kept s s1 := h.handover.setCalDie
  exact .ite hs1 hs1.calBoundary

theorem Kept.calStep2 {k : Nat} {cur : CalCur} {c p : Nat} {pass : Bool} : Kept s (t.calStep2 k cur c p pass) := by
  unfold State.calStep2
  extract_lets +onlyGivenNames sl r
  have hr : Kept s r.2 := h.cmpResult
  extract_lets +onlyGivenNames s1
  have hs1 : Kept s s1 := hr
  refine .ite hs1.calHand ?_
  extract_lets +onlyGivenNames s2
  have hs2 : Kept s s2 := hs1.setFld.setRole
  extract_lets +onlyGivenNames s3
  have hs3 : Kept s s3 := hs2.raise.calReject
  extract_lets +onlyGivenNames s4
  have hs4 : Kept s s4 := hs3.calIdle
  extract_lets +onlyGivenNames s5
  have hs5 : Kept s s5 := hs4.when (fun _ k => k.spareFailed)
  split
  · exact .ite hs5.setCalDie hs5.swapFail
  · exact hs5

theorem Kept.calUndo {k : Nat} {cur : CalCur} : Kept s (t.calUndo k cur) := by
  unfold State.calUndo
  extract_lets +onlyGivenNames u
  split
  · exact h
  · extract_lets +onlyGivenNames s1
    have hs1 : Kept s s1 := h.setCalEntry.setFld
    extract_lets +onlyGivenNames s2
    have hs2 : Kept s s2 := hs1.setFld
    exact hs2.update

theorem Kept.calStep6 {k : Nat} {cur : CalCur} {c p : Nat} {pass : Bool} : Kept s (t.calStep6 k cur c p pass) := by
  unfold State.calStep6
  extract_lets +onlyGivenNames sl u r
  have hr : Kept s r.2 := h.cmpResult
  extract_lets +onlyGivenNames s1
  have hs1 : Kept s s1 := hr
  refine .ite hs1.calHand (.ite hs1.calUndo.calReject.setCalDie ?_)
  extract_lets +onlyGivenNames s2
  have hs2 : Kept s s2 := hs1.calReject.calIdle
  exact .ite hs2.wearReport hs2.sliceSwapped

theorem Kept.execCalCompare {k : Fin 8} {pass : Bool} : Answers s (execCalCompare k pass t) := by
  unfold Machine.execCalCompare
  extract_lets +onlyGivenNames k
  refine Kept.next ?_
  split
  · exact h
  · split
    · exact .ite h (.ite h.calStep2 (.ite h.calStep6 h))
    · exact h

theorem Kept.execCalRunDone {k : Fin 8} {offs gain skew : List Int} {term : Int} :
    Answers s (execCalRunDone k offs gain skew term t) := by
  unfold Machine.execCalRunDone
  extract_lets +onlyGivenNames k
  refine Kept.next ?_
  split
  · exact h
  · extract_lets +onlyGivenNames sl u e
    refine .ite h ?_
    extract_lets +onlyGivenNames full mask hold s1
    have hs1 : Kept s s1 := h.when (fun _ k => k.addFld.stat)
    extract_lets +onlyGivenNames s2
    have hs2 : Kept s s2 := hs1.when (fun _ k => k.stat)
    extract_lets +onlyGivenNames new undo s4 _ s5 s3
    have hs4 : Kept s s4 := hs2.setCalEntry.setFld.setFld
    have hs5 : Kept s s5 := hs4.update
    have hs3 : Kept s s3 := by
      unfold s3
      refine .ite ?_ hs2.calReject
      split
      · exact hs5.when (fun _ k => k.trimsChanged)
      · exact hs5
    extract_lets +onlyGivenNames changed
    split
    · exact hs3.calIdle
    · exact hs3.setCalDie
    · exact hs3.setCalDie

theorem Kept.execCalHoldEnd {k : Fin 8} : Answers s (execCalHoldEnd k t) := by
  unfold Machine.execCalHoldEnd
  extract_lets +onlyGivenNames k
  refine Kept.next ?_
  split
  · exact h
  · split
    · refine .ite h ?_
      extract_lets +onlyGivenNames s1
      have hs1 : Kept s s1 := h.endCalHold
      extract_lets +onlyGivenNames s2
      have hs2 : Kept s s2 := hs1.when (fun _ k => k.trimsFrom)
      exact hs2.calIdle
    · exact h

theorem Kept.calAbandon {c i : Nat} : Kept s (t.calAbandon c i) := by
  unfold State.calAbandon
  extract_lets +onlyGivenNames k
  split
  · exact h
  · split
    · exact .ite h (.ite h.setChan.setFld.setRole.calIdle (.ite h h.calHand))
    · exact .ite h h.endCalHold.calIdle
    · exact h

theorem Kept.calApply {k sl : Nat} {whole : Bool} : Kept s (t.calApply k sl whole) :=
  .applyDone (h.setFld.setFlag.over (fun _ _ k => k.calQueue))

theorem Kept.execCalApply {path : Path} {k : Fin 8} {sl : Fin 34} {whole : Bool} :
    Answers s (execCalApply path k sl whole t) :=
  h.calApply.wrote.next

theorem Kept.calExport {attic : Bool} : Kept s (t.calExport attic) :=
  .ite h.devPut.calResult h.calResult

theorem Kept.execCalExport {path : Path} {attic : Bool} : Answers s (execCalExport path attic t) :=
  h.calExport.wrote.next

theorem Kept.calImport : Kept s (t.calImport) := by
  unfold State.calImport
  extract_lets +onlyGivenNames a b bad s1
  have hs1 : Kept s s1 := h.when (fun _ k => k.readBy)
  exact .ite (.calResult hs1.update) hs1.calResult

theorem Kept.execCalImport {path : Path} : Answers s (execCalImport path t) :=
  h.calImport.wrote.next

theorem Kept.calArm {key : BitVec 32} : Kept s (t.calArm key) :=
  .ite h.update h

theorem Kept.execCalCommitArm {path : Path} {key : BitVec 32} : Answers s (execCalCommitArm path key t) :=
  h.calArm.wrote.next

theorem Kept.calCommit : Kept s (t.calCommit) := by
  unfold State.calCommit
  extract_lets +onlyGivenNames armed busy
  refine .ite h.calResult (.ite h.calResult ?_)
  extract_lets +onlyGivenNames _ s1
  have hs1 : Kept s s1 := h.update
  exact hs1.setFld.setFlag

theorem Kept.execCalCommit {path : Path} : Answers s (execCalCommit path t) :=
  h.calCommit.wrote.next

theorem Kept.execCalCommitted {ok : Bool} : Answers s (execCalCommitted ok t) := by
  unfold Machine.execCalCommitted
  refine Kept.next ?_
  split
  · exact h
  · extract_lets +onlyGivenNames _ s1
    have hs1 : Kept s s1 := h.update
    refine .ite hs1.calResult ?_
    extract_lets +onlyGivenNames _ s2
    have hs2 : Kept s s2 := hs1.update
    extract_lets +onlyGivenNames n s3
    have hs3 : Kept s s3 := hs2.setFld.setFlag
    extract_lets +onlyGivenNames dig s4
    have hs4 : Kept s s4 := hs3.each (fun _ _ k => k.setReg)
    exact hs4.raise.calResult

theorem Kept.calClearSuspect {k sl : Nat} : Kept s (t.calClearSuspect k sl) :=
  h.setFlag.calResult

theorem Kept.execCalClearSuspect {path : Path} {k : Fin 8} {sl : Fin 34} :
    Answers s (execCalClearSuspect path k sl t) :=
  h.calClearSuspect.wrote.next

theorem Kept.calCopy {k sl : Nat} {whole : Bool} : Kept s (t.calCopy k sl whole) :=
  .calResult (h.over (fun _ _ k => k.update))

theorem Kept.execCalCopy {path : Path} {k : Fin 8} {sl : Fin 34} {whole : Bool} :
    Answers s (execCalCopy path k sl whole t) :=
  h.calCopy.wrote.next

end

end Sys2Proof.Machine
end

section
/-! PROOFS. What the operations of Sys2Proof/Machine/Block.lean keep. -/

namespace Sys2Proof.Machine

section
set_option Elab.async false
variable {s t : State} (h : Kept s t)
include h

theorem Kept.nextBlock {k : Nat} : Kept s (t.nextBlock k) :=
  h.handovers.calBoundary

theorem Kept.closeBlocks {k : Nat} {codes : List (List (BitVec 12))} : Kept s (t.closeBlocks k codes) := by
  unfold State.closeBlocks
  extract_lets +onlyGivenNames d b hub ana s1
  have hs1 : Kept s s1 := by
    unfold s1
    refine .ite (h.over (fun _ _ k => ?_)) h.noBlock
    split
    · next bs s1 heq =>
        have hs1 : Kept s s1 := .pair heq (k.closeBlock)
        exact hs1.setDie
  extract_lets +onlyGivenNames _ s2
  have hs2 : Kept s s2 := hs1.setDie.nextBlock
  exact .ite hs2.setClk.clkFrame hs2

theorem Kept.execBlockClose {k : Fin 8} {codes : List (List (BitVec 12))} : Answers s (execBlockClose k codes t) :=
  Kept.next (.ite h.closeBlocks h)

theorem Kept.dieDown {k : Nat} : Kept s (t.dieDown k) := by
  unfold State.dieDown
  extract_lets +onlyGivenNames d
  refine .ite h ?_
  extract_lets +onlyGivenNames lost s1
  have hs1 : Kept s s1 := h.reinit
  extract_lets +onlyGivenNames s2
  have hs2 : Kept s s2 := hs1.setDie
  extract_lets +onlyGivenNames s3
  have hs3 : Kept s s3 := .nextBlock (hs2.over (fun _ _ k => k.settle))
  exact hs3.noBlock.each (fun _ _ k => k.setFlag.setCmp.setFlag.setFlag.when (fun _ l => l.level))

theorem Kept.execDieLinkCrc {k : Fin 8} {hub : Bool} : Answers s (execDieLinkCrc k hub t) :=
  Kept.next (.ite h (.ite h.dieDown h.setDie))

theorem Kept.execDieResumed {k : Fin 8} : Answers s (execDieResumed k t) :=
  Kept.next (.ite h (.raise (h.setDie.noBlock.anchorPred.each (fun _ _ k => k.cmpSince))))

end

end Sys2Proof.Machine
end

section
/-! PROOFS. What the operations of Sys2Proof/Machine/Turn.lean keep. -/

namespace Sys2Proof.Machine

section
set_option Elab.async false
variable {s t : State} (h : Kept s t)
include h

theorem Kept.turnAlign {t0 : Nat} : Kept s (t.turnAlign t0) := by
  unfold State.turnAlign
  extract_lets +onlyGivenNames base b0 s1
  have hs1 : Kept s s1 := h.update
  exact hs1.setReg64.setFld

theorem Kept.turnEdge {t' : Nat} : Kept s (t.turnEdge t') := by
  unfold State.turnEdge
  split
  · exact h
  · refine .ite h ?_
    extract_lets +onlyGivenNames t0
    refine .ite h.turnAlign.raise ?_
    extract_lets +onlyGivenNames base spt u e ps
    refine .ite ?_ ?_
    · extract_lets +onlyGivenNames _ s1
      have hs1 : Kept s s1 := h.update
      exact hs1.setFld.setFld
    · extract_lets +onlyGivenNames s1
      have hs1 : Kept s s1 := h.addFld
      exact .ite hs1.addFld.turnAlign.raise hs1.update

theorem Kept.execTurnLost : Answers s (execTurnLost t) :=
  Kept.next (.ite (.raise (.setFld h.update)) h)

end

end Sys2Proof.Machine
end

section
/-! PROOFS. What the operations of Sys2Proof/Machine/Timing.lean keep. -/

namespace Sys2Proof.Machine

section
set_option Elab.async false
variable {s t : State} (h : Kept s t)
include h

theorem Kept.jasperDrop : Kept s (t.jasperDrop) := by
  unfold State.jasperDrop
  extract_lets +onlyGivenNames s1
  have hs1 : Kept s s1 := h.addFld.stat
  exact hs1.update

theorem Kept.jasperPut {type i flags : Nat} {body : List Byte} : Kept s (t.jasperPut type i flags body) := by
  unfold State.jasperPut
  extract_lets +onlyGivenNames t1 n s1
  have hs1 : Kept s s1 := h.setTin
  refine .ite hs1 (.ite hs1.jasperDrop ?_)
  split
  · next d s2 heq =>
      have hs2 : Kept s s2 := by
        refine .pair heq ?_
        split
        · exact hs1.draw
        · exact hs1
      exact .ite hs2.jasperDrop hs2.update

theorem Kept.jasperAck {error : Bool} : Kept s (t.jasperAck error) := by
  unfold State.jasperAck
  split
  · exact h
  · extract_lets +onlyGivenNames tail _ s1
    have hs1 : Kept s s1 := h.update
    split
    · split
      · exact hs1.jasperDrop
      · extract_lets +onlyGivenNames s2
        have hs2 : Kept s s2 := hs1.addFld.stat
        exact hs2.update
    · next u e =>
      have hu : Kept s u := by
        split at e
        · cases e
        · exact hs1.physPut e
      exact hu.setFld.pend

theorem Kept.execTdcRingWriteAck {error : Bool} : Answers s (execTdcRingWriteAck error t) :=
  h.jasperAck.next

theorem Kept.orderError {i : Nat} : Kept s (t.orderError i) :=
  h.addFld.stat

theorem Kept.unpaired {i : Nat} : Kept s (t.unpaired i) :=
  h.addFld.stat

theorem Kept.interval {i : Nat} {start : Option Stamp} {steps : Int} {rising : Bool} :
    Kept s (t.interval i start steps rising) := by
  unfold State.interval
  extract_lets +onlyGivenNames unres fs
  refine .ite (.ite h h.setTin) ?_
  extract_lets +onlyGivenNames flags
  split
  · exact h.jasperPut
  · split
    · next v s1 heq =>
        have hs1 : Kept s s1 := .pair heq (h.draw)
        exact hs1.jasperPut

theorem Kept.orderStop {i : Nat} : Kept s (t.orderStop i) := by
  unfold State.orderStop
  split
  · exact h
  · exact h.setTin.orderError.interval

theorem Kept.startEdge {i : Nat} {x : Stamp} : Kept s (t.startEdge i x) := by
  unfold State.startEdge
  extract_lets +onlyGivenNames t1
  refine .ite h.setTin ?_
  split
  · exact .ite h.setTin.interval h.orderStop.setTin
  · extract_lets +onlyGivenNames s1
    have hs1 : Kept s s1 := h.when (fun _ k => k.unpaired)
    exact hs1.setTin

theorem Kept.stopEdge {i : Nat} {x : Stamp} : Kept s (t.stopEdge i x) := by
  unfold State.stopEdge
  extract_lets +onlyGivenNames t1
  refine .ite h.setTin ?_
  split
  · exact .ite h.setTin.unpaired.orderStop.setTin h.setTin.interval
  · exact h.orderStop.setTin

theorem Kept.intervalEdges {e : Nat} {x : Stamp} : Kept s (t.intervalEdges e x) := by
  unfold State.intervalEdges
  refine h.each (fun _ _ k => .ite ?_ k)
  extract_lets +onlyGivenNames p
  refine .ite (.ite ?_ k) (.ite k.startEdge (.ite k.stopEdge k))
  extract_lets +onlyGivenNames s1
  have hs1 : Kept s s1 := by
    unfold s1
    split
    · exact k.interval
    · exact k
  exact hs1.setTin

theorem Kept.pairStop {i win : Nat} : Kept s (t.pairStop i win) := by
  unfold State.pairStop
  extract_lets +onlyGivenNames t1
  split
  · exact h
  · refine .ite h ?_
    split
    · exact h.setTin.interval
    · exact h.setTin.unpaired

theorem Kept.dropStarts {i win : Nat} : Kept s (t.dropStarts i win) :=
  .setTin (h.over (fun _ _ k => k.unpaired))

theorem Kept.execPairWinExpire {i : Fin 16} : Answers s (execPairWinExpire i t) := by
  unfold Machine.execPairWinExpire
  extract_lets +onlyGivenNames i t1 win
  refine Kept.next (.ite h (.ite h.pairStop.dropStarts ?_))
  split
  · exact .ite h h.setTin.unpaired
  · exact h

theorem Kept.execFreqGateEnd {i : Fin 16} : Answers s (execFreqGateEnd i t) :=
  Kept.next (.ite h (.ite h.setTin h.setTin.jasperPut))

theorem Kept.execStatsComplete {i : Fin 16} : Answers s (execStatsComplete i t) :=
  Kept.next (.ite h h.setTin.jasperPut)

theorem Kept.otStep {step : Int} {t' : Nat} {host : Bool} : Kept s (t.otStep step t' host) := by
  unfold State.otStep
  extract_lets +onlyGivenNames s1
  have hs1 : Kept s s1 := h.when (fun _ k => k.setFlag)
  extract_lets +onlyGivenNames fs s2
  have hs2 : Kept s s2 := hs1.each (fun _ _ k => .ite k.anchor k)
  extract_lets +onlyGivenNames _ _ s3
  have hs3 : Kept s s3 := hs2.update
  exact hs3.raise

theorem Kept.applySet {t' : Nat} : Kept s (t.applySet t') :=
  h.setFlag.otStep

theorem Kept.holdRate : Kept s (t.holdRate) :=
  h.update

theorem Kept.undisciplined : Kept s (t.undisciplined) := by
  unfold State.undisciplined
  refine .setFlag ?_
  extract_lets +onlyGivenNames s1
  have hs1 : Kept s s1 := h.holdRate
  exact hs1.update

theorem Kept.discipline {e : Int} : Kept s (t.discipline e) := by
  unfold State.discipline
  extract_lets +onlyGivenNames s1
  have hs1 : Kept s s1 := h.setFlag
  exact .ite hs1.update hs1.update

theorem Kept.execTimeSrcError {errorFs : Int} : Answers s (execTimeSrcError errorFs t) :=
  Kept.next (.ite h h.discipline)

theorem Kept.timeSrcLost : Kept s (t.timeSrcLost) :=
  .ite h h.holdRate.setFlag.raise

theorem Kept.execTimeSrcLost : Answers s (execTimeSrcLost t) :=
  h.timeSrcLost.next

theorem Kept.ppsEdge {t' : Nat} : Kept s (t.ppsEdge t') :=
  .ite h.applySet h.discipline

theorem Kept.execBoundaryMarkerStamp {k : Fin 8} {block ot : Nat} :
    Answers s (execBoundaryMarkerStamp k block ot t) := by
  unfold Machine.execBoundaryMarkerStamp
  extract_lets +onlyGivenNames pred d
  refine Kept.next (.ite h ?_)
  split
  · exact h.anchorP
  · exact h.anchor

theorem Kept.epochEdge {i t' : Nat} : Kept s (t.epochEdge i t') :=
  .ite h (.ite h.update h.update)

theorem Kept.stampEdge {i inst : Nat} : Kept s (t.stampEdge i inst) :=
  h.setTin

theorem Kept.measureEdge {i n : Nat} {x : Stamp} : Kept s (t.measureEdge i n x) := by
  unfold State.measureEdge
  extract_lets +onlyGivenNames s1
  have hs1 : Kept s s1 := h.stampEdge
  extract_lets +onlyGivenNames s2
  have hs2 : Kept s s2 := hs1.when (fun _ k => k.jasperPut)
  exact hs2.intervalEdges.when (fun _ k => k.setTin)

theorem Kept.keepEdge {i : Nat} {x : Stamp} : Kept s (t.keepEdge i x) := by
  unfold State.keepEdge
  extract_lets +onlyGivenNames t1 n s1
  have hs1 : Kept s s1 := h.setTin.stat
  extract_lets +onlyGivenNames fast time s2
  have hs2 : Kept s s2 := hs1.combEvent
  extract_lets +onlyGivenNames s3
  have hs3 : Kept s s3 := hs2.when (fun _ k => k.measureEdge)
  extract_lets +onlyGivenNames s4
  have hs4 : Kept s s4 := hs3.when (fun _ k => k.turnEdge)
  extract_lets +onlyGivenNames s5
  have hs5 : Kept s s5 := hs4.when (fun _ k => k.ppsEdge)
  exact hs5.epochEdge

theorem Kept.innerEdge {i : Nat} {rising : Bool} {inst : Nat} : Kept s (t.innerEdge i rising inst) :=
  h.setTin.when (fun _ k => k.stampEdge)

theorem Kept.execTinEdge {i : Fin 25} {rising : Bool} {inst : Nat} : Answers s (execTinEdge i rising inst t) := by
  unfold Machine.execTinEdge
  extract_lets +onlyGivenNames i t1
  refine Kept.next (.ite h.innerEdge ?_)
  extract_lets +onlyGivenNames s1
  have hs1 : Kept s s1 := h.setTin
  refine .ite hs1 ?_
  extract_lets +onlyGivenNames s2
  have hs2 : Kept s s2 := hs1.setFlag.setFlag
  extract_lets +onlyGivenNames s3
  have hs3 : Kept s s3 := .ite hs2 hs2.setFlag.level
  exact .ite hs3 (.ite hs3.addFld.stat.setTin hs3.keepEdge)

theorem Kept.tinTake {i : Nat} {v : Bool} : Kept s (t.tinTake i v) :=
  .ite h h.setFlag.level

theorem Kept.tinStart : Kept s (t.tinStart) :=
  h.each (fun _ _ k => k.setTin)

theorem Kept.tinFollow {i : Nat} {raw : Bool} : Kept s (t.tinFollow i raw) :=
  .tinTake (h.setTin.when (fun _ k => k.setFlag.setFlag))

theorem Kept.execTinSettleEnd {i : Fin 16} {inBand raw : Bool} : Answers s (execTinSettleEnd i inBand raw t) := by
  unfold Machine.execTinSettleEnd
  extract_lets +onlyGivenNames i t1
  refine Kept.next (.ite (.ite h h.tinFollow) (.ite h ?_))
  extract_lets +onlyGivenNames s1
  have hs1 : Kept s s1 := h.setTin.setFlag
  exact .ite hs1.setFlag.raise hs1.tinTake

theorem Kept.execLoopUnlock : Answers s (execLoopUnlock t) :=
  Kept.next (.ite h.setFlag.raise h)

theorem Kept.execVernierLoopLock : Answers s (execVernierLoopLock t) :=
  h.setFlag.next

theorem Kept.execTdcCalInterval : Answers s (execTdcCalInterval t) := by
  unfold Machine.execTdcCalInterval
  refine Kept.next (.ite h ?_)
  extract_lets +onlyGivenNames _ s1
  have hs1 : Kept s s1 := h.update
  exact hs1.each (fun _ _ k => .ite k.setTin k)

theorem Kept.calNow : Kept s (t.calNow) :=
  h.setFlag.each (fun _ _ k => k.setTin)

theorem Kept.execCalNow {path : Path} : Answers s (execCalNow path t) :=
  h.calNow.wrote.next

theorem Kept.execTdcCalDone {i : Fin 16} {conv : Bool} {deviation : Nat} :
    Answers s (execTdcCalDone i conv deviation t) := by
  unfold Machine.execTdcCalDone
  extract_lets +onlyGivenNames i t1
  refine Kept.next (.ite h ?_)
  extract_lets +onlyGivenNames left good t12 s1
  have hs1 : Kept s s1 := h.setTin
  extract_lets +onlyGivenNames s2
  have hs2 : Kept s s2 := hs1.when (fun _ k => k.raise)
  extract_lets +onlyGivenNames s3
  have hs3 : Kept s s3 := hs2.when (fun _ k => k.setFlag)
  exact hs3.when (fun _ k => k.setFlag)

theorem Kept.dropCandidate {t' : Nat} : Kept s (t.dropCandidate t') :=
  h.update

theorem Kept.execEpochAnnounce : Answers s (execEpochAnnounce t) := by
  unfold Machine.execEpochAnnounce
  refine Kept.next ?_
  split
  · exact h
  · split
    · exact .ite h.dropCandidate.addFld h
    · refine .ite h.dropCandidate.addFld ?_
      extract_lets +onlyGivenNames s1
      have hs1 : Kept s s1 := h.dropCandidate
      exact hs1.update

theorem Kept.execEpochTimeout : Answers s (execEpochTimeout t) := by
  unfold Machine.execEpochTimeout
  refine Kept.next (.ite h ?_)
  extract_lets +onlyGivenNames s1
  have hs1 : Kept s s1 := h.when (fun _ k => k.addFld)
  extract_lets +onlyGivenNames _ s2
  have hs2 : Kept s s2 := hs1.update
  exact hs2.raise

end

end Sys2Proof.Machine
end

section
/-! PROOFS. What the operations of Sys2Proof/Machine/Fabric.lean keep. -/

namespace Sys2Proof.Machine

section
set_option Elab.async false
variable {s t : State} (h : Kept s t)
include h

theorem Kept.fabTimeOk : Kept s (t.fabTimeOk) :=
  .ite h (.ite h.setFlag h.timeSrcLost)

theorem Kept.nbrDown {p cause : Nat} : Kept s (t.nbrDown p cause) :=
  .ite h.setFld.raise.newLsa.fabTimeOk h

theorem Kept.linkDrop {p : Nat} : Kept s (t.linkDrop p) :=
  h.nbrDown.setFld.setFld.setPort

theorem Kept.linkRetrain {p cause : Nat} : Kept s (t.linkRetrain p cause) :=
  h.linkDrop.addFld.raise

theorem Kept.linkBegin {p lanes : Nat} : Kept s (t.linkBegin p lanes) :=
  h.setFld.timerSet.setPort

theorem Kept.execLinkSignalDetect {p : Fin 6} {lanes : BitVec 5} : Answers s (execLinkSignalDetect p lanes t) := by
  unfold Machine.execLinkSignalDetect
  extract_lets +onlyGivenNames p spare mode good inUse missing mask
  refine Kept.next (.ite h (.ite h.linkBegin (.ite h ?_)))
  extract_lets +onlyGivenNames m free
  refine .ite h.setRole.setRole.setFld.swapUsed.linkBegin ?_
  extract_lets +onlyGivenNames s1
  have hs1 : Kept s s1 := .ite h.wearReport h.spareEmpty
  exact hs1.addFld.raise.linkBegin

theorem Kept.sendHello {p : Nat} : Kept s (t.sendHello p) :=
  h.fabOut

theorem Kept.execLinkBringupStepDone {p : Fin 6} {uid : BitVec 64} {rport : Fin 6} {mode : Fin 4}
    {asymPs : Int} : Answers s (execLinkBringupStepDone p uid rport mode asymPs t) := by
  unfold Machine.execLinkBringupStepDone
  extract_lets +onlyGivenNames p x own n up
  have hup : ∀ u, Kept s u → Kept s (up u) := fun _ k => k.setPort.setFld.setFld
  refine Kept.next (.ite h ?_)
  split
  · exact h.setPort
  · exact .ite (hup _ h) h.setPort
  · exact .ite h.setPort h.setPort.raise
  · exact h.setPort
  · exact .sendHello (hup _ h)
  · exact h

theorem Kept.execLinkSignalLoss {p : Fin 6} {lane : Fin 5} : Answers s (execLinkSignalLoss p lane t) :=
  Kept.next (.ite h.linkDrop.reinit h)

theorem Kept.fabAgain {p : Nat} {m : Option (List Nat × List Byte)} : Kept s (t.fabAgain p m) := by
  unfold State.fabAgain
  split
  · exact h.emit
  · exact h

theorem Kept.execFlitCrcFail {p : Fin 6} {retry : Bool} : Answers s (execFlitCrcFail p retry t) := by
  unfold Machine.execFlitCrcFail
  extract_lets +onlyGivenNames p x n
  refine Kept.next (.ite h (.ite h.linkRetrain.reinit.linkBegin ?_))
  extract_lets +onlyGivenNames r
  have hr : Kept s r.2 := h.draw
  exact hr.setPort.addFld.fabAgain

theorem Kept.setAddr {addr st : Nat} : Kept s (t.setAddr addr st) :=
  h.setFld.setFld

theorem Kept.resolveAddr : Kept s (t.resolveAddr) := by
  unfold State.resolveAddr
  extract_lets +onlyGivenNames a auto
  split
  · exact h.setAddr.newLsa
  · refine .ite ?_ h
    split
    · exact h.setAddr.raise.newLsa
    · exact h.setAddr.newLsa
  · exact .ite h.setAddr.raise.newLsa h
  · exact h

theorem Kept.fabStart : Kept s (t.fabStart) := by
  unfold State.fabStart
  extract_lets +onlyGivenNames inc _ s1
  have hs1 : Kept s s1 := h.update
  split
  · exact hs1.setAddr
  · exact hs1.setAddr
  · exact hs1.setAddr

theorem Kept.fabStrap {gpio : Nat} : Kept s (t.fabStrap gpio) := by
  unfold State.fabStrap
  extract_lets +onlyGivenNames _ s1
  have hs1 : Kept s s1 := h.update
  exact .ite hs1.setAddr.newLsa.resolveAddr hs1

theorem Kept.fabReaddress : Kept s (t.fabReaddress) := by
  unfold State.fabReaddress
  extract_lets +onlyGivenNames s1
  have hs1 : Kept s s1 := by
    unfold s1
    split
    · exact h.setAddr
    · exact h.setAddr
    · exact .ite h h.setAddr
  extract_lets +onlyGivenNames _ s2
  have hs2 : Kept s s2 := hs1.update
  exact hs2.newLsa.resolveAddr

theorem Kept.execAddrClaimTimer : Answers s (execAddrClaimTimer t) := by
  unfold Machine.execAddrClaimTimer
  extract_lets +onlyGivenNames due
  refine Kept.next (.ite h ?_)
  split
  · exact h.setAddr.newLsa.raise
  · exact h.setAddr.newLsa

/-- The distance between the sequence numbers is named before the cases on it: the kernel would evaluate it. -/
theorem Kept.fabFilter {h' : FabHdr} : Kept s (t.fabFilter h').2 := by
  generalize e : t.fabFilter h' = p
  unfold State.fabFilter at e
  extract_lets +onlyGivenNames src inc q put at e
  have hput : ∀ u x2, Kept s u → Kept s (put u x2) := fun _ _ k => k.update
  clear_value put
  split at e
  · cases e
    exact hput _ _ h
  · split at e
    · cases e
      exact hput _ _ h
    · split at e
      · cases e
        exact h.addFld
      · generalize (q + 2 ^ 32 - FabFilter.high _) % 2 ^ 32 = d at e
        extract_lets +onlyGivenNames ahead at e
        split at e
        · cases e
          exact hput _ _ h
        · split at e
          · cases e
            exact hput _ _ h
          · cases e
            exact h.addFld

theorem Kept.electGm : Kept s (t.electGm) := by
  unfold State.electGm
  extract_lets +onlyGivenNames own heard best before addr _ s1
  have hs1 : Kept s s1 := h.update
  exact hs1.setFlag.setFld.setFld.setFlag.setFld.when (fun _ k => k.raise)

theorem Kept.hearGm {g : FabGm} : Kept s (t.hearGm g) :=
  .ite h (.electGm h.update)

theorem Kept.execGmAnnounce : Answers s (execGmAnnounce t) := by
  unfold Machine.execGmAnnounce
  refine Kept.next (.ite h ?_)
  extract_lets +onlyGivenNames s1
  have hs1 : Kept s s1 := h.timerSet.electGm
  exact .ite hs1.flood.seqNext hs1

theorem Kept.execAnnounceRx {p : Fin 6} {h' : FabHdr} {gm : FabGm} : Answers s (execAnnounceRx p h' gm t) := by
  unfold Machine.execAnnounceRx
  extract_lets +onlyGivenNames r
  have hr : Kept s r.2 := h.fabFilter
  refine Kept.next (.ite h (.ite hr ?_))
  extract_lets +onlyGivenNames s1
  have hs1 : Kept s s1 := by
    unfold s1
    split
    · exact hr.flood
    · exact hr.noRoute
  exact hs1.hearGm

theorem Kept.execGmTimeout : Answers s (execGmTimeout t) :=
  Kept.next (.ite h.electGm h)

theorem Kept.execHelloSend {p : Fin 6} : Answers s (execHelloSend p t) :=
  Kept.next (.ite h.timerSet.sendHello h)

theorem Kept.execHelloRx {p : Fin 6} {h' : FabHello} : Answers s (execHelloRx p h' t) := by
  unfold Machine.execHelloRx
  extract_lets +onlyGivenNames p
  refine Kept.next (.ite h ?_)
  extract_lets +onlyGivenNames x fresh changed s1
  have hs1 : Kept s s1 := h.setPort
  extract_lets +onlyGivenNames s2
  have hs2 : Kept s s2 := hs1.setFld.setFld
  extract_lets +onlyGivenNames _ s3
  have hs3 : Kept s s3 := hs2.update
  extract_lets +onlyGivenNames s4
  have hs4 : Kept s s4 := hs3.when (fun _ k => k.raise)
  extract_lets +onlyGivenNames s5
  have hs5 : Kept s s5 := .when (hs4.when (fun _ k => k.newLsa)) (fun _ k => k.fabTimeOk)
  exact hs5.when (fun _ k => k.hearGm)

theorem Kept.execNbrTimeout {p : Fin 6} : Answers s (execNbrTimeout p t) := by
  unfold Machine.execNbrTimeout
  refine Kept.next ?_
  split
  · exact .ite h.nbrDown h
  · exact h

theorem Kept.execLsaRx {p : Fin 6} {h' : FabHdr} {l : FabLsa} : Answers s (execLsaRx p h' l t) := by
  unfold Machine.execLsaRx
  extract_lets +onlyGivenNames r
  have hr : Kept s r.2 := h.fabFilter
  extract_lets +onlyGivenNames newer
  refine Kept.next (.ite h (.ite hr (.ite hr ?_)))
  extract_lets +onlyGivenNames s1
  have hs1 : Kept s s1 := hr
  extract_lets +onlyGivenNames rest _ s2
  have hs2 : Kept s s2 := hs1.update
  extract_lets +onlyGivenNames s3
  have hs3 : Kept s s3 := by
    unfold s3
    split
    · exact hs2.flood
    · exact hs2.noRoute
  exact hs3.resolveAddr

theorem Kept.execLsaRefresh : Answers s (execLsaRefresh t) :=
  Kept.next (.ite h.newLsa h)

theorem Kept.execLsaExpire {uid : BitVec 64} : Answers s (execLsaExpire uid t) :=
  Kept.next (.ite (.resolveAddr h.update) h)

theorem Kept.dropUnreachable : Kept s (t.dropUnreachable) := by
  unfold State.dropUnreachable
  extract_lets +onlyGivenNames gone remote n s1
  have hs1 : Kept s s1 := h.addFld
  exact hs1.update

theorem Kept.execRouteInstall : Answers s (execRouteInstall t) := by
  unfold Machine.execRouteInstall
  refine Kept.next (.ite h ?_)
  extract_lets +onlyGivenNames g _ s1
  have hs1 : Kept s s1 := h.update
  exact hs1.setFld.dropUnreachable.electGm.fabTimeOk

theorem Kept.execTimeExchange {p : Fin 6} {t1 : BitVec 96} : Answers s (execTimeExchange p t1 t) :=
  Kept.next (.ite h.timerSet.fabOut h)

theorem Kept.execTimeRx {p : Fin 6} {m : FabTime} : Answers s (execTimeRx p m t) := by
  unfold Machine.execTimeRx
  extract_lets +onlyGivenNames p
  refine Kept.next (.ite h ?_)
  split
  · exact h.fabOut
  · exact h.setPort.setReg

theorem Kept.execFabTimeServo : Answers s (execFabTimeServo t) := by
  unfold Machine.execFabTimeServo
  refine Kept.next (.ite h ?_)
  extract_lets +onlyGivenNames s1
  have hs1 : Kept s s1 := h.timerSet
  refine .ite hs1.undisciplined ?_
  split
  · exact hs1.timeSrcLost
  · exact .ite (.setFlag hs1.update) (.ite hs1 hs1.discipline)

theorem Kept.execFabTriggerRx {h' : FabHdr} {tree : Fin 2} {id : Fin 64} {cell : BitVec 8} {t' : BitVec 96}
    {tseq : BitVec 32} : Answers s (execFabTriggerRx h' tree id cell t' tseq t) := by
  unfold Machine.execFabTriggerRx
  extract_lets +onlyGivenNames r
  have hr : Kept s r.2 := h.fabFilter
  refine Kept.next (.ite h (.ite hr ?_))
  extract_lets +onlyGivenNames s1
  have hs1 : Kept s s1 := hr
  extract_lets +onlyGivenNames time s2
  have hs2 : Kept s s2 := hs1.when (fun _ k => k.combEvent)
  split
  · exact hs2.over (fun _ _ k => k.fabSend)
  · exact hs2.noRoute

theorem Kept.grant {n : Nat} : Kept s (State.grant n t) := by
  induction n generalizing t with
  | zero => exact h
  | succ n ih =>
    unfold State.grant
    split
    · exact h
    · exact .ite h (ih h.update.sendRouted)

theorem Kept.grantAll : Kept s (t.grantAll) :=
  h.grant

theorem Kept.routedRx {type : Nat} {hd : FabHdr} {payload : List Byte} {f : State → State}
    (hf : ∀ u, Kept s u → Kept s (f u)) : Kept s (t.routedRx type hd payload f) :=
  .ite h (.ite h.noRoute (.ite h.forward (.ite (hf _ h.fabFilter) h.fabFilter)))

omit h in
/-- The units of an entry, written one after another until one is refused. -/
theorem Kept.physPuts {α : Type} {l : List α} {source : Nat} {place : α → Nat}
    {part : α → List Byte} {o : Option State} {u : State} (ho : ∀ v, o = some v → Kept s v)
    (e : l.foldl (fun (t : Option State) i => t.bind (·.physPut source (place i) (part i))) o = some u) :
    Kept s u := by
  induction l generalizing o with
  | nil => exact ho u e
  | cons i l ih =>
    refine ih (fun v hv => ?_) e
    obtain ⟨w, hw, hv⟩ := Option.bind_eq_some_iff.mp hv
    exact (ho w hw).physPut hv

theorem Kept.rxPump {n : Nat} : Kept s (State.rxPump n t) := by
  induction n generalizing t with
  | zero => exact h
  | succ n ih =>
    unfold State.rxPump
    split
    · exact h
    · extract_lets +onlyGivenNames wp put
      cases e : put with
      | none => exact h.update
      | some u =>
        have hu : Kept s u := .physPuts (fun v hv => by cases hv; exact h) e
        exact ih hu.update.setReg

theorem Kept.rxPut {bs : List Byte} : Kept s (t.rxPut bs) := by
  unfold State.rxPut
  extract_lets +onlyGivenNames _ t1
  have ht1 : Kept s t1 := h.update
  exact .ite ht1.rxPump ht1

theorem Kept.retryItems : Kept s (t.retryItems) :=
  h.when (fun _ k => k.rxPump)

theorem Kept.execFabItemRx {h' : FabHdr} {entry : List Byte} : Answers s (execFabItemRx h' entry t) := by
  unfold Machine.execFabItemRx
  extract_lets +onlyGivenNames size
  refine Kept.next (h.routedRx (fun _ k => ?_))
  extract_lets +onlyGivenNames _ s1
  have hs1 : Kept s s1 := k.update
  exact .ite hs1 hs1.rxPut

theorem Kept.execFabRtvReqRx {h' : FabHdr} {entry : List Byte} : Answers s (execFabRtvReqRx h' entry t) :=
  Kept.next (h.routedRx (fun _ k => .startNext k.update))

theorem Kept.execFabCreditRx {h' : FabHdr} {grant : Bool} {n : BitVec 32} : Answers s (execFabCreditRx h' grant n t) :=
  Kept.next (h.routedRx (fun _ k => .ite (.xferAsk (.xferPump k.update)) (.grantAll k.update)))

theorem Kept.writeRxRd {v : BitVec 32} : Kept s (t.writeRxRd v) :=
  .ite h.setReg.grantAll h

theorem Kept.execFabRxRdWrite {path : Path} {value : BitVec 32} : Answers s (execFabRxRdWrite path value t) :=
  h.writeRxRd.wrote.next

end

end Sys2Proof.Machine
end

section
/-! PROOFS. What the operations of Sys2Proof/Machine/Flags.lean keep. -/

namespace Sys2Proof.Machine

section
set_option Elab.async false
variable {s t : State} (h : Kept s t)
include h

theorem Kept.setFlags {n r : Nat} {cv : Option (Bool × Bool)} : Kept s (t.setFlags n r cv) := by
  unfold State.setFlags
  split
  · next cv s1 heq =>
      have hs1 : Kept s s1 := by
        refine .pair heq ?_
        split
        · exact h
        · split
          · next f s2 heq =>
              have hs2 : Kept s s2 := .pair heq (h.draw)
              exact hs2
      exact hs1.setTile

theorem Kept.seqFrom {n p : Nat} : Kept s (t.seqFrom n p) := by
  unfold State.seqFrom
  extract_lets +onlyGivenNames t1 q
  refine .ite h.setTile ?_
  split
  · next f s1 heq =>
      have hs1 : Kept s s1 := .pair heq (h.draw)
      exact hs1.tileFault

theorem Kept.goto {n p : Nat} : Kept s (t.goto n p) :=
  h.setTile

theorem Kept.partly {n : Nat} {l : List Nat} : Kept s (t.partly n l) := by
  unfold State.partly
  refine h.over (fun _ _ k => ?_)
  split
  · next f s1 heq =>
      have hs1 : Kept s s1 := .pair heq (k.draw)
      exact hs1.dmStore

theorem Kept.jrun {n : Nat} {fl : JFlags} {mem : Bool} {body : State → JRes} {next : State → State}
    (hb : ∀ u, Kept s u → Runs s (body u)) (hn : ∀ u, Kept s u → Kept s (next u)) :
    Kept s (t.jrun n fl mem body next) := by
  unfold State.jrun
  extract_lets +onlyGivenNames tile s1
  have hs1 : Kept s s1 := by
    unfold s1
    split
    · exact h.tileCorr
    · exact h
  refine .ite h (.ite hs1.tileFault (.ite hs1.seqFrom (.ite ?_ ?_)))
  · split
    · exact hs1.partly.tileFault
    · exact hs1.partly.tileFault
  · split
    · next u e => exact hn u (hb s1 hs1 u e)
    · exact hs1.partly.tileFault

theorem Kept.jseq {n : Nat} {fl : JFlags} {mem : Bool} {body : State → JRes}
    (hb : ∀ u, Kept s u → Runs s (body u)) :
    Kept s (t.jseq n fl mem body) :=
  h.jrun hb (fun _ k => k.seqFrom)

end

end Sys2Proof.Machine
end

section
/-! PROOFS. What the operations of Sys2Proof/Machine/JScalar.lean keep. -/

namespace Sys2Proof.Machine

section
set_option Elab.async false
variable {s t : State} (h : Kept s t)
include h

theorem Kept.execJNop {tile : Fin 68} {fl : JFlags} : Answers s (execJNop tile fl t) :=
  Kept.next (h.jseq (fun _ k => k.ok))

theorem Kept.execJHalt {tile : Fin 68} {fl : JFlags} : Answers s (execJHalt tile fl t) :=
  Kept.next (h.jrun (fun _ k => k.ok) (fun _ k => k.setTile.haltTile))

theorem Kept.execJB {tile : Fin 68} {fl : JFlags} {_g : BitVec 5} {_imm : BitVec 16} {target : BitVec 14} :
    Answers s (execJB tile fl _g _imm target t) := by
  unfold Machine.execJB
  extract_lets +onlyGivenNames n
  refine Kept.next (h.jrun (fun _ k => ?_) (fun _ k => k.goto))
  split
  · exact .ite k.ok .error
  · exact k.ok

theorem Kept.execJCall {tile : Fin 68} {fl : JFlags} {_g : BitVec 5} {_imm : BitVec 16} {target : BitVec 14} :
    Answers s (execJCall tile fl _g _imm target t) :=
  Kept.next (h.jrun (fun _ k => .ite .error k.setTile.ok) (fun _ k => k.goto))

theorem Kept.execJRet {tile : Fin 68} {fl : JFlags} : Answers s (execJRet tile fl t) := by
  unfold Machine.execJRet
  extract_lets +onlyGivenNames n
  refine Kept.next (h.jrun (fun _ k => ?_) (fun _ k => k.seqFrom))
  extract_lets +onlyGivenNames t1
  split
  · exact .error
  · exact k.setTile.ok

theorem Kept.execJRep {tile : Fin 68} {fl : JFlags} {g : BitVec 5} {imm : BitVec 16} {target : BitVec 14} :
    Answers s (execJRep tile fl g imm target t) := by
  unfold Machine.execJRep
  extract_lets +onlyGivenNames n t1 count
  refine Kept.next (h.jrun (fun _ k => .bind (fun _ => ?_)) (fun _ k => .ite k.seqFrom k.goto))
  dsimp only
  split
  · exact .bind (fun _ => .ite k.ok (.ite .error k.setTile.ok))
  · exact .ite k.ok (.ite .error k.setTile.ok)

theorem Kept.execJBrk {tile : Fin 68} {fl : JFlags} {_g : BitVec 5} {imm : BitVec 16} {target : BitVec 14} :
    Answers s (execJBrk tile fl _g imm target t) :=
  Kept.next (h.jrun (fun _ k => .bind (fun _ => .ite .error k.setTile.ok)) (fun _ k => k.goto))

theorem Kept.execJWaitev {tile : Fin 68} {fl : JFlags} {d : BitVec 5} {mask : BitVec 6} :
    Answers s (execJWaitev tile fl d mask t) :=
  Kept.next (h.jseq (fun _ k => k.setGr.setZ.ok))

theorem Kept.execJEvclr {tile : Fin 68} {fl : JFlags} {_d : BitVec 5} {mask : BitVec 6} :
    Answers s (execJEvclr tile fl _d mask t) :=
  Kept.next (h.jseq (fun _ k => k.setTile.ok))

theorem Kept.execJFence {tile : Fin 68} {fl : JFlags} : Answers s (execJFence tile fl t) :=
  Kept.next (h.jseq (fun _ k => k.setZ.ok))

theorem Kept.execJWaitin {tile : Fin 68} {fl : JFlags} {v : JV} : Answers s (execJWaitin tile fl v t) :=
  Kept.next (h.jseq (fun _ k => k.setZ.ok))

theorem Kept.execJInadv {tile : Fin 68} {fl : JFlags} {v : JV} : Answers s (execJInadv tile fl v t) :=
  Kept.next (h.jseq (fun _ k => k.setTile.ok))

theorem Kept.execJWaitx {tile : Fin 68} {fl : JFlags} {v : JV} : Answers s (execJWaitx tile fl v t) := by
  unfold Machine.execJWaitx
  extract_lets +onlyGivenNames n
  refine Kept.next (h.jseq (fun _ k => ?_))
  extract_lets +onlyGivenNames t1
  split
  · exact .error
  · exact k.setTile.setZ.ok

theorem Kept.alu {n : Nat} {fl : JFlags} {d : BitVec 5} {r : Int} {cv : Option (Bool × Bool)} :
    Kept s (t.alu n fl d r cv) :=
  h.setGr.when (fun _ k => k.setFlags)

theorem Kept.aluOp {n : Nat} {fl : JFlags} {d : BitVec 5} {a b : Int} {f : Int → Int → Int × Option
    (Bool × Bool)} : Kept s (t.aluOp n fl d a b f) :=
  h.jseq (fun _ k => k.alu.ok)

theorem Kept.execJAdd {tile : Fin 68} {fl : JFlags} {d s' t' : BitVec 5} : Answers s (execJAdd tile fl d s' t' t) :=
  h.aluOp.next

theorem Kept.execJSub {tile : Fin 68} {fl : JFlags} {d s' t' : BitVec 5} : Answers s (execJSub tile fl d s' t' t) :=
  h.aluOp.next

theorem Kept.execJAnd {tile : Fin 68} {fl : JFlags} {d s' t' : BitVec 5} : Answers s (execJAnd tile fl d s' t' t) :=
  h.aluOp.next

theorem Kept.execJOr {tile : Fin 68} {fl : JFlags} {d s' t' : BitVec 5} : Answers s (execJOr tile fl d s' t' t) :=
  h.aluOp.next

theorem Kept.execJXor {tile : Fin 68} {fl : JFlags} {d s' t' : BitVec 5} : Answers s (execJXor tile fl d s' t' t) :=
  h.aluOp.next

theorem Kept.execJShl {tile : Fin 68} {fl : JFlags} {d s' t' : BitVec 5} : Answers s (execJShl tile fl d s' t' t) :=
  h.aluOp.next

theorem Kept.execJShr {tile : Fin 68} {fl : JFlags} {d s' t' : BitVec 5} : Answers s (execJShr tile fl d s' t' t) :=
  h.aluOp.next

theorem Kept.execJSar {tile : Fin 68} {fl : JFlags} {d s' t' : BitVec 5} : Answers s (execJSar tile fl d s' t' t) :=
  h.aluOp.next

theorem Kept.execJMul {tile : Fin 68} {fl : JFlags} {d s' t' : BitVec 5} : Answers s (execJMul tile fl d s' t' t) :=
  h.aluOp.next

theorem Kept.execJMulh {tile : Fin 68} {fl : JFlags} {d s' t' : BitVec 5} : Answers s (execJMulh tile fl d s' t' t) :=
  h.aluOp.next

theorem Kept.execJMin {tile : Fin 68} {fl : JFlags} {d s' t' : BitVec 5} : Answers s (execJMin tile fl d s' t' t) :=
  h.aluOp.next

theorem Kept.execJMax {tile : Fin 68} {fl : JFlags} {d s' t' : BitVec 5} : Answers s (execJMax tile fl d s' t' t) :=
  h.aluOp.next

theorem Kept.execJClz {tile : Fin 68} {fl : JFlags} {d s' _t : BitVec 5} : Answers s (execJClz tile fl d s' _t t) :=
  h.aluOp.next

theorem Kept.execJMov {tile : Fin 68} {fl : JFlags} {d s' _t : BitVec 5} : Answers s (execJMov tile fl d s' _t t) :=
  h.aluOp.next

theorem Kept.compare {n : Nat} {fl : JFlags} {a b : Int} : Kept s (t.compare n fl a b) :=
  h.jseq (fun _ k => k.setFlags.ok)

theorem Kept.execJCmp {tile : Fin 68} {fl : JFlags} {_d s' t' : BitVec 5} : Answers s (execJCmp tile fl _d s' t' t) :=
  h.compare.next

theorem Kept.execJAddi {tile : Fin 68} {fl : JFlags} {d s' : BitVec 5} {imm : BitVec 32} :
    Answers s (execJAddi tile fl d s' imm t) :=
  h.aluOp.next

theorem Kept.execJAndi {tile : Fin 68} {fl : JFlags} {d s' : BitVec 5} {imm : BitVec 32} :
    Answers s (execJAndi tile fl d s' imm t) :=
  h.aluOp.next

theorem Kept.execJOri {tile : Fin 68} {fl : JFlags} {d s' : BitVec 5} {imm : BitVec 32} :
    Answers s (execJOri tile fl d s' imm t) :=
  h.aluOp.next

theorem Kept.execJXori {tile : Fin 68} {fl : JFlags} {d s' : BitVec 5} {imm : BitVec 32} :
    Answers s (execJXori tile fl d s' imm t) :=
  h.aluOp.next

theorem Kept.execJShli {tile : Fin 68} {fl : JFlags} {d s' : BitVec 5} {imm : BitVec 32} :
    Answers s (execJShli tile fl d s' imm t) :=
  h.aluOp.next

theorem Kept.execJShri {tile : Fin 68} {fl : JFlags} {d s' : BitVec 5} {imm : BitVec 32} :
    Answers s (execJShri tile fl d s' imm t) :=
  h.aluOp.next

theorem Kept.execJSari {tile : Fin 68} {fl : JFlags} {d s' : BitVec 5} {imm : BitVec 32} :
    Answers s (execJSari tile fl d s' imm t) :=
  h.aluOp.next

theorem Kept.execJCmpi {tile : Fin 68} {fl : JFlags} {_d s' : BitVec 5} {imm : BitVec 32} :
    Answers s (execJCmpi tile fl _d s' imm t) :=
  h.compare.next

theorem Kept.execJLi {tile : Fin 68} {fl : JFlags} {d _s : BitVec 5} {imm : BitVec 32} :
    Answers s (execJLi tile fl d _s imm t) :=
  Kept.next (h.jseq (fun _ k => k.setGr.ok))

theorem Kept.mPost {n : Nat} {fl : JFlags} {a : BitVec 3} : Kept s (t.mPost n fl a) :=
  .ite h.setTile h

theorem Kept.mLoad {n : Nat} {fl : JFlags} {g : BitVec 5} {a : BitVec 3} {off : BitVec 32} {k : Nat} :
    Kept s (t.mLoad n fl g a off k) :=
  h.jseq (fun _ k => .bind (fun _ => k.setGr.mPost.ok))

theorem Kept.mStore {n : Nat} {fl : JFlags} {g : BitVec 5} {a : BitVec 3} {off : BitVec 32} {k : Nat} :
    Kept s (t.mStore n fl g a off k) :=
  h.jseq (fun _ k => .bind (fun _ => k.dmStore.mPost.ok))

theorem Kept.execJLdw {tile : Fin 68} {fl : JFlags} {g : BitVec 5} {a : BitVec 3} {off : BitVec 32} :
    Answers s (execJLdw tile fl g a off t) :=
  h.mLoad.next

theorem Kept.execJStw {tile : Fin 68} {fl : JFlags} {g : BitVec 5} {a : BitVec 3} {off : BitVec 32} :
    Answers s (execJStw tile fl g a off t) :=
  h.mStore.next

theorem Kept.execJLdh {tile : Fin 68} {fl : JFlags} {g : BitVec 5} {a : BitVec 3} {off : BitVec 32} :
    Answers s (execJLdh tile fl g a off t) :=
  h.mLoad.next

theorem Kept.execJSth {tile : Fin 68} {fl : JFlags} {g : BitVec 5} {a : BitVec 3} {off : BitVec 32} :
    Answers s (execJSth tile fl g a off t) :=
  h.mStore.next

theorem Kept.execJLdp {tile : Fin 68} {fl : JFlags} {d _s : BitVec 5} {imm : BitVec 32} :
    Answers s (execJLdp tile fl d _s imm t) :=
  Kept.next (h.jseq (fun _ k => k.setGr.ok))

theorem Kept.execJRds {tile : Fin 68} {fl : JFlags} {d _s : BitVec 5} {imm : BitVec 32} :
    Answers s (execJRds tile fl d _s imm t) := by
  unfold Machine.execJRds
  extract_lets +onlyGivenNames n i
  refine Kept.next (h.jseq (fun _ k => ?_))
  split
  · exact k.setGr.ok
  · exact k.setTile.setGr.ok
  · exact .ite k.setGr.ok .error

theorem Kept.execJWrs {tile : Fin 68} {fl : JFlags} {_d s' : BitVec 5} {imm : BitVec 32} :
    Answers s (execJWrs tile fl _d s' imm t) :=
  Kept.next (h.jseq (fun _ k => .bind (fun _ => k.setTile.ok)))

theorem Kept.execJAcfg {tile : Fin 68} {fl : JFlags} {a : BitVec 3} {g : BitVec 5} {imm : BitVec 32} :
    Answers s (execJAcfg tile fl a g imm t) :=
  Kept.next (h.jseq (fun _ k => .bind (fun _ => k.setTile.ok)))

theorem Kept.execJAadd {tile : Fin 68} {fl : JFlags} {a : BitVec 3} {g : BitVec 5} {imm : BitVec 32} :
    Answers s (execJAadd tile fl a g imm t) :=
  Kept.next (h.jseq (fun _ k => k.setTile.ok))

theorem Kept.execJMova {tile : Fin 68} {fl : JFlags} {a : BitVec 3} {g : BitVec 5} {_imm : BitVec 32} :
    Answers s (execJMova tile fl a g _imm t) :=
  Kept.next (h.jseq (fun _ k => k.setTile.ok))

theorem Kept.execJMovg {tile : Fin 68} {fl : JFlags} {a : BitVec 3} {g : BitVec 5} {_imm : BitVec 32} :
    Answers s (execJMovg tile fl a g _imm t) :=
  Kept.next (h.jseq (fun _ k => k.setGr.ok))

end

end Sys2Proof.Machine
end

section
/-! PROOFS. What the operations of Sys2Proof/Machine/JVector.lean keep. -/

namespace Sys2Proof.Machine

section
set_option Elab.async false
variable {s t : State} (h : Kept s t)
include h

theorem Kept.vrun {n : Nat} {fl : JFlags} {v : JV} {body : State → JRes} (hb : ∀ u, Kept s u → Runs s (body u)) :
    Kept s (t.vrun n fl v body) := by
  refine h.jseq (fun u k => ?_)
  cases e : body u with
  | error x => exact Runs.error
  | ok w => exact (hb u k w e).postUpdate.ok

theorem Kept.vec2 {n : Nat} {fl : JFlags} {v : JV} {extra : Nat} {f : Int → Int → Int} :
    Kept s (t.vec2 n fl v extra f) :=
  h.vrun (fun _ k => .bind (fun _ => .bind (fun _ => Kept.ok (k.over (fun _ _ l => l.dmStore)))))

theorem Kept.execJVadd {tile : Fin 68} {fl : JFlags} {v : JV} : Answers s (execJVadd tile fl v t) :=
  h.vec2.next

theorem Kept.execJVsub {tile : Fin 68} {fl : JFlags} {v : JV} : Answers s (execJVsub tile fl v t) :=
  h.vec2.next

theorem Kept.execJVmul {tile : Fin 68} {fl : JFlags} {v : JV} : Answers s (execJVmul tile fl v t) :=
  h.vec2.next

theorem Kept.execJVcmul {tile : Fin 68} {fl : JFlags} {v : JV} : Answers s (execJVcmul tile fl v t) :=
  Kept.next (h.vrun (fun _ k => .bind (fun _ => .bind (fun _ => Kept.ok (k.over (fun _ _ l => l.putC32))))))

theorem Kept.execJVscale {tile : Fin 68} {fl : JFlags} {v : JV} : Answers s (execJVscale tile fl v t) :=
  Kept.next (h.vrun (fun _ k => .bind (fun _ => .bind (fun _ => Kept.ok (k.over (fun _ _ l => l.dmStore))))))

theorem Kept.fmtStore {n a f : Nat} {x : Int × Int} : Kept s (t.fmtStore n a f x) := by
  unfold State.fmtStore
  split
  · exact h.putC32
  · exact h.putA48
  · exact h.putA48.putA48
  · exact h.dmStore

theorem Kept.execJVconv {tile : Fin 68} {fl : JFlags} {v : JV} : Answers s (execJVconv tile fl v t) := by
  unfold Machine.execJVconv
  extract_lets +onlyGivenNames n p from_ into
  refine Kept.next (h.vrun (fun _ k => ?_))
  extract_lets +onlyGivenNames t1 c
  refine .bind (fun _ => ?_)
  extract_lets +onlyGivenNames x z
  refine .bind (fun _ => ?_)
  extract_lets +onlyGivenNames rs
  refine Kept.ok (k.over (fun _ _ l => .ite l.fmtStore ?_))
  split
  · next a s1 heq =>
      have hs1 : Kept s s1 := .pair heq (l.draw)
      split
      · next b s2 heq =>
          have hs2 : Kept s s2 := .pair heq (hs1.draw)
          exact hs2.fmtStore

theorem Kept.execJCdot {tile : Fin 68} {fl : JFlags} {v : JV} : Answers s (execJCdot tile fl v t) := by
  unfold Machine.execJCdot
  extract_lets +onlyGivenNames n
  refine Kept.next (h.jseq (fun _ k => ?_))
  extract_lets +onlyGivenNames t1 c
  refine .bind (fun _ => ?_)
  extract_lets +onlyGivenNames x y z
  refine .bind (fun _ => ?_)
  extract_lets +onlyGivenNames ps put
  have hput : ∀ u x2 x3, Kept s u → Kept s (put u x2 x3) := fun _ _ _ l => by
    unfold put
    refine .ite l.opPut ?_
    split
    · next f s1 heq =>
        have hs1 : Kept s s1 := .pair heq (l.draw)
        exact hs1.opPut
  exact Kept.ok (hput _ _ _ (hput _ _ _ k))

theorem Kept.execJBcopy {tile : Fin 68} {fl : JFlags} {v : JV} : Answers s (execJBcopy tile fl v t) :=
  Kept.next (h.vrun (fun _ k => .bind (fun _ => .bind (fun _ => Kept.ok (k.over (fun _ _ l => l.dmStore))))))

theorem Kept.execJFill {tile : Fin 68} {fl : JFlags} {v : JV} : Answers s (execJFill tile fl v t) :=
  Kept.next (h.jseq (fun _ k => .bind (fun _ => .bind (fun _ => Kept.ok (.postUpdate (k.over
    (fun _ _ l => l.dmStore)))))))

theorem Kept.queueItem {n : Nat} {d : ItemDest} {bs : List Byte} : Kept s (t.queueItem n d bs) := by
  unfold State.queueItem
  split
  · next ok s1 heq =>
      have hs1 : Kept s s1 := .pair heq (h.outPut)
      exact hs1.setZ

theorem Kept.execJSpout {tile : Fin 68} {fl : JFlags} {v : JV} : Answers s (execJSpout tile fl v t) :=
  Kept.next (h.vrun (fun _ k => .bind (fun _ => .bind (fun _ => k.queueItem.ok))))

theorem Kept.execJXmit {tile : Fin 68} {fl : JFlags} {v : JV} : Answers s (execJXmit tile fl v t) :=
  Kept.next (h.vrun (fun _ k => .bind (fun _ => .bind (fun _ => .bind (fun _ => k.queueItem.ok)))))

theorem Kept.execJXch {tile : Fin 68} {fl : JFlags} {v : JV} : Answers s (execJXch tile fl v t) :=
  Kept.next (h.vrun (fun _ k => .bind (fun _ => .bind (fun _ => k.queueItem.ok))))

theorem Kept.execJXld {tile : Fin 68} {fl : JFlags} {v : JV} : Answers s (execJXld tile fl v t) :=
  Kept.next (h.jseq (fun _ k => .bind (fun _ => .bind (fun _ => k.setTile.ok))))

theorem Kept.execJTrgc {tile : Fin 68} {fl : JFlags} {v : JV} : Answers s (execJTrgc tile fl v t) :=
  Kept.next (h.jseq (fun _ k => k.candPut.ok))

end

end Sys2Proof.Machine
end

section
/-! PROOFS. What the operations of Sys2Proof/Machine/JSpectral.lean keep. -/

namespace Sys2Proof.Machine

section
set_option Elab.async false
variable {s t : State} (h : Kept s t)
include h

theorem Kept.transform {inv real : Bool} {e0 : Int} {xs : List (Int × Int)} :
    Kept s (t.transform inv real e0 xs).2 := by
  unfold State.transform
  extract_lets +onlyGivenNames m p l0 s0
  split
  · next f s1 heq =>
      have hs1 : Kept s s1 := .pair heq (h.draw)
      split
      · exact hs1
      · exact hs1

theorem Kept.fft {n : Nat} {fl : JFlags} {v : JV} {real inv : Bool} : Kept s (t.fft n fl v real inv) := by
  unfold State.fft
  refine h.vrun (fun _ k => ?_)
  extract_lets +onlyGivenNames t1 l lg
  refine .bind (fun _ => ?_)
  extract_lets +onlyGivenNames len bt
  refine .bind (fun _ => .bind (fun _ => ?_))
  extract_lets +onlyGivenNames m
  refine .bind (fun _ => ?_)
  extract_lets +onlyGivenNames hop
  refine .bind (fun _ => ?_)
  extract_lets +onlyGivenNames es ax az x w win slots scratch
  refine .bind (fun _ => .bind (fun _ => .bind (fun _ => ?_)))
  extract_lets +onlyGivenNames first src e0 data s1
  have hs1 : Kept s s1 := by
    unfold s1
    refine k.over (fun _ _ l => ?_)
    split
    · next r s1 heq =>
        have hs1 : Kept s s1 := .pair heq (l.transform)
        extract_lets +onlyGivenNames a s2
        have hs2 : Kept s s2 := hs1.over (fun _ _ m => m.putC32)
        exact hs2.opPut.setTile
  exact hs1.partly.ok

theorem Kept.execJFftr {tile : Fin 68} {fl : JFlags} {v : JV} : Answers s (execJFftr tile fl v t) :=
  h.fft.next

theorem Kept.execJFftc {tile : Fin 68} {fl : JFlags} {v : JV} : Answers s (execJFftc tile fl v t) :=
  h.fft.next

theorem Kept.execJIfftc {tile : Fin 68} {fl : JFlags} {v : JV} : Answers s (execJIfftc tile fl v t) :=
  h.fft.next

theorem Kept.execJDet {tile : Fin 68} {fl : JFlags} {v : JV} : Answers s (execJDet tile fl v t) := by
  unfold Machine.execJDet
  extract_lets +onlyGivenNames n
  refine Kept.next (h.vrun (fun _ k => ?_))
  extract_lets +onlyGivenNames t1 m
  refine .bind (fun _ => ?_)
  extract_lets +onlyGivenNames mode es x z
  refine .bind (fun _ => ?_)
  extract_lets +onlyGivenNames e hdr ea count power ps at_ write
  have hwrite : ∀ u x2, Kept s u → Kept s (write u x2) := fun _ _ l => l.over (fun _ _ m => m.dmStore)
  clear_value mode
  split
  · exact Kept.ok (.opPut (hwrite _ _ k))
  · exact Kept.ok (.opPut (hwrite _ _ k))
  · exact .ite (Kept.ok (.opPut (hwrite _ _ k))) (Kept.ok (.opPut (hwrite _ _ k)))
  · exact .ite (Kept.ok (.opPut (hwrite _ _ k))) (Kept.ok (.opPut (hwrite _ _ k)))

theorem Kept.execJXspec {tile : Fin 68} {fl : JFlags} {v : JV} : Answers s (execJXspec tile fl v t) := by
  unfold Machine.execJXspec
  extract_lets +onlyGivenNames n
  refine Kept.next (h.vrun (fun _ k => ?_))
  extract_lets +onlyGivenNames t1 m
  refine .bind (fun _ => ?_)
  extract_lets +onlyGivenNames x y z
  refine .bind (fun _ => ?_)
  extract_lets +onlyGivenNames e hdr ea _ sums s'
  have hs' : Kept s s' := k.over (fun _ _ l => l.putA48.putA48)
  exact hs'.opPut.ok

theorem Kept.execJNco {tile : Fin 68} {fl : JFlags} {v : JV} : Answers s (execJNco tile fl v t) := by
  unfold Machine.execJNco
  extract_lets +onlyGivenNames n l
  refine Kept.next (h.vrun (fun _ k => ?_))
  extract_lets +onlyGivenNames t1 c
  refine .bind (fun _ => .bind (fun _ => ?_))
  extract_lets +onlyGivenNames x z
  refine .bind (fun _ => ?_)
  split
  · exact .error
  · exact Kept.ok (k.over (fun _ _ l => l.putC32))

theorem Kept.execJDecim {tile : Fin 68} {fl : JFlags} {v : JV} : Answers s (execJDecim tile fl v t) := by
  unfold Machine.execJDecim
  extract_lets +onlyGivenNames n p f key
  refine Kept.next (h.vrun (fun _ k => ?_))
  extract_lets +onlyGivenNames t1 c
  refine .bind (fun _ => .bind (fun _ => ?_))
  extract_lets +onlyGivenNames x z
  refine .bind (fun _ => ?_)
  extract_lets +onlyGivenNames old ins u taps sum outs lim sats s1
  have hs1 : Kept s s1 := k.over (fun _ _ l => l.putC32)
  exact hs1.addFld.setTile.ok

end

end Sys2Proof.Machine
end

section
/-! PROOFS. What the operations of Sys2Proof/Machine/JPulse.lean keep. -/

namespace Sys2Proof.Machine

section
set_option Elab.async false
variable {s t : State} (h : Kept s t)
include h

theorem Kept.execJMaskc {tile : Fin 68} {fl : JFlags} {v : JV} : Answers s (execJMaskc tile fl v t) := by
  unfold Machine.execJMaskc
  extract_lets +onlyGivenNames n
  refine Kept.next (h.vrun (fun _ k => ?_))
  extract_lets +onlyGivenNames t1 c
  refine .bind (fun _ => .bind (fun _ => ?_))
  extract_lets +onlyGivenNames x y
  refine .bind (fun _ => ?_)
  extract_lets +onlyGivenNames ed ref sc qual hyst ofs
  refine .bind (fun _ => ?_)
  extract_lets +onlyGivenNames clr rs s1
  have hs1 : Kept s s1 := .over k.update (fun _ _ l => l.dmStore.dmStore)
  exact hs1.setGr.setGr.ok

theorem Kept.execJThr {tile : Fin 68} {fl : JFlags} {v : JV} : Answers s (execJThr tile fl v t) := by
  unfold Machine.execJThr
  extract_lets +onlyGivenNames n l
  refine Kept.next (h.vrun (fun _ k => ?_))
  extract_lets +onlyGivenNames t1 c
  refine .bind (fun _ => .bind (fun _ => ?_))
  extract_lets +onlyGivenNames g cap x
  split
  · exact .error
  · exact .bind (fun _ => k.opPut.setTile.setGr.ok)

theorem Kept.execJFeat {tile : Fin 68} {fl : JFlags} {v : JV} : Answers s (execJFeat tile fl v t) := by
  unfold Machine.execJFeat
  extract_lets +onlyGivenNames n l
  refine Kept.next (h.vrun (fun _ k => ?_))
  extract_lets +onlyGivenNames t1 c
  refine .bind (fun _ => .bind (fun _ => ?_))
  extract_lets +onlyGivenNames x z ca
  refine .bind (fun _ => ?_)
  extract_lets +onlyGivenNames cfgOp
  refine .bind (fun _ => .bind (fun _ => ?_))
  split
  · exact .error
  · exact k.opPut.ok

end

end Sys2Proof.Machine
end

section
/-! PROOFS. What the operations of Sys2Proof/Machine/Microcode.lean keep. -/

namespace Sys2Proof.Machine

section
variable {s : State} {m : Mic} {n : Nat} {o : MicOps}

theorem Mic.scalar_s (w uimm : Nat) : (m.scalar n o w uimm).s = m.s := by
  unfold Mic.scalar
  extract_lets +onlyGivenNames sop a b r m1
  have hm1 : m1.s = m.s := by
    unfold m1
    split <;> rfl
  split
  · exact hm1
  · split
    · exact hm1
    · exact hm1

theorem Mic.mac_s (w : Nat) : (m.mac w).s = m.s := by
  unfold Mic.mac
  extract_lets +onlyGivenNames k op set cells m1
  have hm1 : m1.s = m.s := by
    unfold m1
    split <;> rfl
  split
  · exact hm1
  · extract_lets +onlyGivenNames pick va vb m2 seen vs r q lim acc clip rs beyond m3 m4
    split
    · exact hm1
    · split
      · exact hm1
      · have hm3 : m3.s = m.s := by
          unfold m3
          split <;> exact hm1
        have hm4 : m4.s = m.s := by
          unfold m4
          split <;> exact hm3
        split <;> exact hm4

theorem Mic.blockExp_s (w sa : Nat) : (m.blockExp w sa).2.s = m.s := by
  unfold Mic.blockExp
  extract_lets +onlyGivenNames v
  split <;> rfl

theorem Mic.writeOut_s {u : Mic} {w sa : Nat} {v : Cells} {wp0 : Nat}
    (e : m.writeOut o w sa v wp0 = .ok u) : u.s = m.s := by
  unfold Mic.writeOut at e
  extract_lets +onlyGivenNames byWp size byAg ag0 ag1 all at e
  split at e
  · cases e
  · cases e
    rfl

theorem Kept.micSettle {k : Nat} (h : Kept s m.s) : Kept s (m.settle n k).s :=
  h.over (fun _ _ k => k.dmStore)

theorem Kept.micSignal {u : Mic} {w uimm sa : Nat} (h : Kept s m.s)
    (e : m.signal n o w uimm sa = .ok u) : Kept s u.s := by
  unfold Mic.signal at e
  split at e
  · cases e
    split
    · exact h
    · exact h.outDrop
  · extract_lets +onlyGivenNames t a bad bs used at e
    split at e
    · cases e
    · split at e
      · cases e
      · split at e
        · cases e
        · cases e
          split
          · exact h
          · exact h.outDrop
  · cases e
    exact h

/-- The routine that a word leads to. -/
def MicNext.mic : MicNext → Mic
  | .run m => m
  | .done m => m
  | .fault _ m => m

theorem Kept.micRelease (h : Kept s m.s) : Kept s (m.release n) := by
  unfold Mic.release
  extract_lets +onlyGivenNames t s1
  have hs1 : Kept s s1 := h.setTile
  exact hs1.over (fun _ _ k => k.candPut)

theorem Kept.micFinish (h : Kept s m.s) : Kept s (m.finish n o) := by
  unfold Mic.finish
  extract_lets +onlyGivenNames m1 uv s1 s2 s3
  have hm1 : Kept s m1.s := h.micSettle
  have hs1 : Kept s s1 := hm1.micRelease
  have hs2 : Kept s s2 := by
    refine hs1.over (fun _ _ k => ?_)
    split
    · exact k.setGr
    · exact .ite k.setGr k
    · exact k.setZ
    · exact k.setZ
    · exact k
  have hs3 : Kept s s3 := hs2.over (fun _ _ k => k.setTile)
  exact hs3.setTile

theorem Kept.micFault {pc : Nat} {code : Nat} (h : Kept s m.s) :
    Kept s (m.fault n pc o code) := by
  unfold Mic.fault
  extract_lets +onlyGivenNames m1 s1 s2
  have hm1 : Kept s m1.s := h.micSettle
  have hs1 : Kept s s1 := hm1.micRelease
  have hs2 : Kept s s2 := hs1.setReg
  exact hs2.tileFault

theorem Kept.micStart {t : State} {start : Nat} (h : Kept s t) : Kept s (t.micStart n o start).1.s := by
  unfold State.micStart
  exact h.draw (kind := "micro-pipeline at dispatch") (args := [])

theorem Kept.micStep {bound wp0 : Nat} (h : Kept s m.s) :
    Kept s (m.step n o bound wp0).mic.s := by
  unfold Mic.step
  extract_lets +onlyGivenNames w uimm m1 kind m2 lc m3 sa go f0 f1 ag a0 a1
  have hm1 : Kept s m1.s := h.micSettle
  have hm2 : Kept s m2.s := by
    unfold m2
    split
    · exact hm1
    · split
      · exact hm1
      · split
        · exact hm1
        · exact hm1
  have hm3 : Kept s m3.s := hm2
  split
  · exact hm3
  · extract_lets +onlyGivenNames m4 r cells stalls
    have hr : Kept s r.2.s := by
      rw [Mic.blockExp_s]
      exact hm3
    split
    · exact hm3
    · next m5 e5 =>
      have hm5 : Kept s ((m5.mac w).scalar n o w uimm).s := by
        rw [Mic.scalar_s, Mic.mac_s, Mic.writeOut_s e5]
        exact hr
      split
      · exact hm3
      · next m6 e6 =>
        have hm6 : Kept s m6.s := hm5.micSignal e6
        extract_lets +onlyGivenNames k read m7 m8 one m9 m10 b0 b1 m11 next
        have hm7 : Kept s m7.s := by
          unfold m7
          split
          · exact hm6
          · exact hm6
        have hm8 : Kept s m8.s := by
          unfold m8
          split
          · exact hm7
          · exact hm7
        have hm9 : Kept s m9.s := by
          unfold m9
          split
          · exact hm8
          · exact hm8
        have hm10 : Kept s m10.s := by
          unfold m10
          split
          · exact hm9
          · exact hm9
        have hm11 : Kept s m11.s := hm10
        split
        · exact hm11
        · exact hm11
        · exact hm11
        · exact hm11
        · split
          · exact hm11
          · exact hm11
        · exact hm11

theorem Kept.micRun {bound wp0 fuel : Nat} (h : Kept s m.s) :
    Kept s (Mic.run n o bound wp0 fuel m).mic.s := by
  induction fuel generalizing m with
  | zero => exact h
  | succ fuel ih =>
    unfold Mic.run
    split
    · exact h
    · have hstep : Kept s (m.step n o bound wp0).mic.s := h.micStep
      cases e : m.step n o bound wp0 with
      | run u =>
        rw [e] at hstep
        dsimp only
        split
        · exact h
        · exact ih hstep
      | done u =>
        rw [e] at hstep
        dsimp only
        split
        · exact h
        · exact hstep
      | fault c u =>
        rw [e] at hstep
        exact hstep

end

section
set_option Elab.async false
variable {s t : State} (h : Kept s t)
include h

theorem Kept.execCustomerInstr {tile : Fin 68} {word : BitVec 64} {ecc : MicEcc} :
    Answers s (execCustomerInstr tile word ecc t) := by
  unfold Machine.execCustomerInstr
  extract_lets +onlyGivenNames n w op t1 fl e
  refine Kept.next (.ite h (.ite (.ite h h.tileFault) (.ite h.tileFault (.ite (h.jrun (fun _ k => k.ok) (fun _ k => k))
    (.ite h.tileFault ?_)))))
  extract_lets +onlyGivenNames _ o bound s1
  have hs1 : Kept s s1 := by
    unfold s1
    split
    · exact h.tileCorr
    · exact h
  refine .ite hs1.tileFault ?_
  extract_lets +onlyGivenNames st
  have hst : Kept s st.1.s := hs1.micStart
  have hrun := hst.micRun (n := n) (o := o) (bound := bound) (wp0 := st.2) (fuel := 8193)
  split
  · next m e =>
    rw [e] at hrun
    exact (Kept.micFinish hrun).seqFrom
  · next c m e =>
    rw [e] at hrun
    exact Kept.micFault hrun
  · next m e =>
    rw [e] at hrun
    exact Kept.micFault hrun

theorem Kept.execTileUwd {tile : Fin 68} {opcode : BitVec 8} {upc : BitVec 12} :
    Answers s (execTileUwd tile opcode upc t) :=
  Kept.next (.ite h.setReg.tileFault h)

end

end Sys2Proof.Machine
end

section
/-! PROOFS. What the operations of Sys2Proof/Machine/Opal.lean keep. -/

namespace Sys2Proof.Machine

section
set_option Elab.async false
variable {s t : State} (h : Kept s t)
include h

theorem Kept.setOpal {p : Nat} {o : Opal} : Kept s (t.setOpal p o) :=
  h.update

theorem Kept.setScan {d : Nat} {x : Scan} : Kept s (t.setScan d x) :=
  h.update

theorem Kept.oplDrop {p n : Nat} : Kept s (t.oplDrop p n) :=
  .ite h (h.setOpal.addFld.when (fun _ k => k.raise))

theorem Kept.oplArrive {p : Nat} {item : List Byte} : Kept s (t.oplArrive p item) := by
  unfold State.oplArrive
  refine .ite h (.ite h.oplDrop ?_)
  extract_lets +onlyGivenNames seq gap _ s1
  have hs1 : Kept s s1 := h.setOpal.oplDrop
  exact .ite hs1.addFld (.ite hs1.oplDrop hs1.setOpal)

theorem Kept.oplRecord {l : Nat} {item : List Byte} : Kept s (t.oplRecord l item) := by
  unfold State.oplRecord
  extract_lets +onlyGivenNames s1
  have hs1 : Kept s s1 := h.oplArrive
  split
  · exact .ite hs1.oplArrive hs1
  · exact hs1

theorem Kept.execOplRecordArrival {l : Fin 16} {item : List Byte} : Answers s (execOplRecordArrival l item t) := by
  unfold Machine.execOplRecordArrival
  refine Kept.next ?_
  split
  · next s1 heq =>
      have hs1 : Kept s s1 := h.offHall heq
      exact hs1.oplRecord
  · exact h

theorem Kept.oplRequest {p : Nat} : Kept s (t.oplRequest p) := by
  unfold State.oplRequest
  extract_lets +onlyGivenNames o
  split
  · exact h.addFld
  · exact h.setOpal

theorem Kept.oplPlot {p : Nat} {item : List Byte} : Kept s (t.oplPlot p item) := by
  unfold State.oplPlot
  extract_lets +onlyGivenNames f w win s1 ref
  have hs1 : Kept s s1.2 := h.draw
  have href : Kept s ref.2 := by
    unfold ref
    split
    · exact h
    · split
      · exact h
      · exact hs1
  exact href.setOpal

theorem Kept.oplCount {p : Nat} : Kept s (t.oplCount p) :=
  h.setOpal.when (fun _ k => k.oplRequest)

theorem Kept.execOplPlot {p : Fin 17} : Answers s (execOplPlot p t) := by
  unfold Machine.execOplPlot
  extract_lets +onlyGivenNames p o
  refine Kept.next ?_
  split
  · exact h
  · exact .ite h (.ite h.setOpal.oplDrop (.ite h.setOpal.addFld h.setOpal.oplPlot.addFld.oplCount))

theorem Kept.execOplDecayStep {p : Fin 17} : Answers s (execOplDecayStep p t) := by
  unfold Machine.execOplDecayStep
  extract_lets +onlyGivenNames p o d
  refine Kept.next (.ite h ?_)
  extract_lets +onlyGivenNames cells s1
  have hs1 : Kept s s1 := h.setOpal
  split
  · exact .ite hs1.update hs1
  · exact hs1

theorem Kept.oplPick {p : Nat} {l : List Nat} : Kept s (t.oplPick p l) := by
  induction l generalizing t with
  | nil => exact h.addFld
  | cons i rest ih =>
    exact .ite (ih h) (.ite (ih (h.setOpal.addFld.when (fun _ k => k.raise))) h.setOpal)

theorem Kept.oplSetup {p n : Nat} : Kept s (t.oplSetup p n) :=
  h.update

theorem Kept.oplSwapEnd {w : OplSwap} : Kept s (t.oplSwapEnd w) := by
  unfold State.oplSwapEnd
  extract_lets +onlyGivenNames s1
  have hs1 : Kept s s1 := h.update
  exact hs1.oplSetup.setOpal.setOpal.setFlag.setRole.setRole.swapUsed

theorem Kept.oplServe {p t' : Nat} : Kept s (t.oplServe p t') := by
  unfold State.oplServe
  extract_lets +onlyGivenNames _ s1
  have hs1 : Kept s s1 := h.setOpal
  extract_lets +onlyGivenNames s2
  have hs2 : Kept s s2 := by
    unfold s2
    split
    · extract_lets +onlyGivenNames changed s2
      have hs2 : Kept s s2 := hs1.setReg.setReg
      extract_lets +onlyGivenNames s3
      have hs3 : Kept s s3 := hs2.update
      exact hs3.when (fun _ k => k.setOpal)
    · exact hs1
  exact .ite hs2.addFld hs2.setOpal.oplPick

theorem Kept.execOplFrameRequest {p : Fin 17} : Answers s (execOplFrameRequest p t) := by
  unfold Machine.execOplFrameRequest
  extract_lets +onlyGivenNames p
  refine Kept.next ?_
  split
  · exact h
  · split
    · exact .ite h.oplSwapEnd.oplServe h.oplServe
    · exact h.oplServe

theorem Kept.execOplFlip {p : Fin 17} : Answers s (execOplFlip p t) := by
  unfold Machine.execOplFlip
  extract_lets +onlyGivenNames p
  refine Kept.next ?_
  split
  · exact h
  · extract_lets +onlyGivenNames s'
    have hs' : Kept s s' := h.update
    exact hs'.devPut.setOpal

theorem Kept.oplSwapStart {l : Nat} {c : SwapCause} : Kept s (t.oplSwapStart l c).2 := by
  unfold State.oplSwapStart
  split
  · exact h
  · split
    · exact h
    · extract_lets +onlyGivenNames p s1
      have hs1 : Kept s s1 := h.oplSetup.setOpal
      extract_lets +onlyGivenNames s2
      have hs2 : Kept s s2 := hs1.timerSet
      extract_lets +onlyGivenNames s3
      have hs3 : Kept s s3 := hs2.setRole
      exact hs3.update

theorem Kept.execOpalCopyDone : Answers s (execOpalCopyDone t) := by
  unfold Machine.execOpalCopyDone
  refine Kept.next ?_
  split
  · refine .ite h ?_
    extract_lets +onlyGivenNames o n s1
    have hs1 : Kept s s1 := h.setOpal
    exact hs1.update
  · exact h

theorem Kept.oplRetire {p : Nat} : Kept s (t.oplRetire p) := by
  unfold State.oplRetire
  extract_lets +onlyGivenNames s1
  have hs1 : Kept s s1 := by
    unfold s1
    split
    · exact h.update
    · exact h
  exact hs1.setOpal.setFlag.setRole.funcRetired

theorem Kept.execOpalRendererError {p : Fin 17} : Answers s (execOpalRendererError p t) := by
  unfold Machine.execOpalRendererError
  extract_lets +onlyGivenNames p
  refine Kept.next ?_
  split
  · exact h
  · split
    · next k s1 heq =>
        have hs1 : Kept s s1 := .pair heq (h.step2)
        extract_lets +onlyGivenNames r
        have hr : Kept s r.2 := hs1.oplSwapStart
        exact .ite hr.update (.ite hs1.oplRetire hs1.setOpal)

end

end Sys2Proof.Machine
end

section
/-! PROOFS. What the operations of Sys2Proof/Machine/Tile.lean keep. -/

namespace Sys2Proof.Machine

section
set_option Elab.async false
variable {s t : State} (h : Kept s t)
include h

theorem Kept.reloadGt {n : Nat} : Kept s (t.reloadGt n) :=
  .ite h.setTile.takeStagedOf h

theorem Kept.tileSwitch {n w : Nat} : Kept s (t.tileSwitch n w) := by
  unfold State.tileSwitch
  extract_lets +onlyGivenNames t1 s1
  have hs1 : Kept s s1 := h.setTile.tileEvent
  exact .ite hs1.setTile.reloadGt hs1.takeStagedGt.setTile.switchDone

theorem Kept.execTileReloadDone {tile : Fin 68} : Answers s (execTileReloadDone tile t) := by
  unfold Machine.execTileReloadDone
  extract_lets +onlyGivenNames n t1
  refine Kept.next (.ite h ?_)
  split
  · exact h
  · exact h.loadTile.takeStagedGt.setTile.startTile.switchDone

theorem Kept.execGroupLate {g : Fin 64} {tile : Fin 68} : Answers s (execGroupLate g tile t) :=
  Kept.next (.ite h h.tileServes.loadTile.startTile.setProg.raise)

theorem Kept.ringSlotPut {n l b : Nat} {bs : List Byte} : Kept s (t.ringSlotPut n l b bs) :=
  h.dmPut.dmPut

theorem Kept.laneZero {n old new : Nat} : Kept s (t.laneZero n old new) := by
  unfold State.laneZero
  extract_lets +onlyGivenNames t1 s1
  have hs1 : Kept s s1 := by
    unfold s1
    split
    · exact .ite h.tileSwitch h
    · exact h
  extract_lets +onlyGivenNames t12 s2
  have hs2 : Kept s s2 := by
    unfold s2
    split
    · exact .ite hs1.setTile.tileEvent hs1
    · exact hs1
  extract_lets +onlyGivenNames _ _ frame _ s3
  have hs3 : Kept s s3 := by
    unfold s3
    clear_value frame
    split
    · exact hs2.setTile.tileEvent.sampleFrame
    · exact hs2
  clear_value frame
  split
  · exact .ite hs3.startSpare hs3
  · exact hs3

theorem Kept.laneArrive {n l b : Nat} {bs : List Byte} : Kept s (t.laneArrive n l b bs) := by
  unfold State.laneArrive
  extract_lets +onlyGivenNames t1 wi
  refine .ite h ?_
  extract_lets +onlyGivenNames s1
  have hs1 : Kept s s1 := by
    unfold s1
    split
    · exact .ite h.reloadGt h
    · exact h
  extract_lets +onlyGivenNames en bb _ s3 s2
  have hs3 : Kept s s3 := hs1.over (fun _ _ k => k.ringSlotPut)
  have hs2 : Kept s s2 := .ite hs3.ringSlotPut hs1
  extract_lets +onlyGivenNames new _ s4
  have hs4 : Kept s s4 := hs2.setTile
  extract_lets +onlyGivenNames rp _ _ s6 s7 s5
  have hs6 : Kept s s6 := hs4.setTile
  have hs7 : Kept s s7 := hs6.addFld.stat.tileEvent
  have hs5 : Kept s s5 := .ite hs7.raise hs4
  exact .ite hs5.laneZero hs5

theorem Kept.blockToTiles {c b : Nat} {bs : List Byte} : Kept s (t.blockToTiles c b bs) :=
  h.over (fun _ _ k => k.laneArrive)

theorem Kept.execBlockTileArrival {k : Fin 8} : Answers s (execBlockTileArrival k t) := by
  unfold Machine.execBlockTileArrival
  extract_lets +onlyGivenNames d
  refine Kept.next ?_
  split
  · exact h
  · exact h.setDie.blockToTiles

theorem Kept.xchArrive {n r : Nat} {item : List Byte} : Kept s (t.xchArrive n r item) := by
  unfold State.xchArrive
  split
  · exact h
  · extract_lets +onlyGivenNames t1 x x2 size units
    refine .ite (h.setTile.addFld.stat.when (fun _ k => k.raise)) ?_
    extract_lets +onlyGivenNames base s1
    have hs1 : Kept s s1 := h.over (fun _ _ k => k.dmPut)
    exact hs1.setTile

theorem Kept.xchLand {g sender : Nat} : Kept s (t.xchLand g sender) := by
  unfold State.xchLand
  extract_lets +onlyGivenNames t1
  split
  · exact h
  · exact h.setTile.over (fun _ _ k => k.xchArrive)

theorem Kept.execXchArrival {g : Fin 64} {sender : Fin 68} {items : Nat} :
    Answers s (execXchArrival g sender items t) :=
  Kept.next (h.over (fun _ _ k => k.xchLand))

theorem Kept.execXldLand {tile : Fin 68} : Answers s (execXldLand tile t) := by
  unfold Machine.execXldLand
  extract_lets +onlyGivenNames n t1
  refine Kept.next ?_
  split
  · exact h
  · extract_lets +onlyGivenNames o
    refine h.setTile.over (fun _ _ k => ?_)
    extract_lets +onlyGivenNames a t12
    have ht12 : Kept s t12 := k.readBy
    exact .ite ht12.opPut (.opPut ht12.update)

theorem Kept.sendRoute {n r : Nat} {x : OutItem} : Kept s (t.sendRoute n r x) := by
  unfold State.sendRoute
  split
  · exact h
  · refine .ite h.addFld ?_
    extract_lets +onlyGivenNames s1
    have hs1 : Kept s s1 := h.emit
    extract_lets +onlyGivenNames s2
    have hs2 : Kept s s2 := .ite hs1.update hs1
    exact hs2.when (fun _ k => k.setTile)

theorem Kept.sendItem {n : Nat} {x : OutItem} : Kept s (t.sendItem n x) := by
  unfold State.sendItem
  extract_lets +onlyGivenNames due _ s1
  have hs1 : Kept s s1 := h.setTile
  split
  · exact hs1.sendRoute
  · exact hs1.sendRoute
  · exact hs1.emit.physWrite

theorem Kept.tileSend {n : Nat} : Kept s (t.tileSend n) := by
  unfold State.tileSend
  extract_lets +onlyGivenNames t1 s1
  have hs1 : Kept s s1 := by
    unfold s1
    split
    · exact h
    · exact h.setTile.combEvent
  extract_lets +onlyGivenNames t12 s2
  have hs2 : Kept s s2 := .ite hs1 hs1.setTile
  extract_lets +onlyGivenNames t13
  split
  · exact hs2
  · exact .ite hs2 (.ite hs2.setTile hs2.setTile.sendItem)

end

end Sys2Proof.Machine
end

section
/-! PROOFS. What the operations of Sys2Proof/Machine/Pantry.lean keep. -/

namespace Sys2Proof.Machine

section
set_option Elab.async false
variable {s t : State} (h : Kept s t)
include h

theorem Kept.lanesEmpty : Kept s (t.lanesEmpty) :=
  h.when (fun _ k => k.spareEmpty)

theorem Kept.postOffline {core : Nat} : Kept s (t.postOffline core) :=
  h.emit

theorem Kept.trySwap {w : PanSwap} : Kept s (t.trySwap w).2 := by
  unfold State.trySwap
  extract_lets +onlyGivenNames u
  split
  · exact h
  · split
    · split
      · exact h
      · split
        · exact h
        · exact h.calQueue
    · split
      · exact h
      · split
        · exact h
        · split
          · next s1 heq =>
              have hs1 : Kept s s1 := .pair heq (h.migStart)
              exact hs1
          · next s1 heq =>
              have hs1 : Kept s s1 := .pair heq (h.migStart)
              exact hs1
    · split
      · exact h
      · split
        · exact h
        · split
          · next s1 heq =>
              have hs1 : Kept s s1 := .pair heq (h.oplSwapStart)
              exact hs1.update
          · next s1 heq =>
              have hs1 : Kept s s1 := .pair heq (h.oplSwapStart)
              exact hs1
    · split
      · exact h
      · split
        · exact h
        · split
          · exact h
          · exact h.update
    · extract_lets +onlyGivenNames p
      split
      · exact h
      · split
        · exact h
        · split
          · exact h
          · exact h.update
    · split
      · exact h
      · split
        · exact h
        · split
          · exact h
          · exact .postOffline h.update
    · split
      · exact h
      · split
        · exact h
        · extract_lets +onlyGivenNames s1
          have hs1 : Kept s s1 := h.when (fun _ k => k.update)
          exact hs1.planStall
    · exact h

theorem Kept.swapWaits {w : PanSwap} : Kept s (t.swapWaits w) :=
  h.update

theorem Kept.autoSwap {w : PanSwap} : Kept s (t.autoSwap w) := by
  unfold State.autoSwap
  split
  · next s1 heq =>
      have hs1 : Kept s s1 := .pair heq (h.trySwap)
      exact hs1
  · next s1 heq =>
      have hs1 : Kept s s1 := .pair heq (h.trySwap)
      exact hs1.swapWaits
  · next s1 heq =>
      have hs1 : Kept s s1 := .pair heq (h.trySwap)
      exact hs1.spareEmpty.swapAnswer
  · next s1 heq =>
      have hs1 : Kept s s1 := .pair heq (h.trySwap)
      exact hs1.swapAnswer

theorem Kept.panNext : Kept s (t.panNext) :=
  .ite h (.over h.update (fun _ _ k => k.autoSwap))

theorem Kept.unitFailed {kind u : Nat} : Kept s (t.unitFailed kind u) :=
  .ite h.askWithdraw.wearReport h.askWithdraw.autoSwap

theorem Kept.wearCandidate {kind u thr : Nat} : Kept s (t.wearCandidate kind u thr) := by
  unfold State.wearCandidate
  extract_lets +onlyGivenNames old held known _ s1
  have hs1 : Kept s s1 := .ite h h.update
  extract_lets +onlyGivenNames cannot
  refine .ite hs1 ?_
  split
  · exact .ite hs1.wearReport (.ite hs1.swapWaits hs1.autoSwap)
  · exact .ite hs1 (.raise hs1.update)
  · exact hs1.wearReport

theorem Kept.wearClear {kind u thr : Nat} : Kept s (t.wearClear kind u thr) :=
  h.update

theorem Kept.wearJudge {kind u thr : Nat} {above : Bool} : Kept s (t.wearJudge kind u thr above) :=
  .ite h.wearCandidate (.ite h h.wearClear)

theorem Kept.wearMonitors {x : PanSample} : Kept s (t.wearMonitors x) := by
  unfold State.wearMonitors
  extract_lets +onlyGivenNames s1
  have hs1 : Kept s s1 := h.each (fun _ _ k => .ite k k.wearJudge.wearJudge)
  extract_lets +onlyGivenNames s2
  have hs2 : Kept s s2 := hs1.each (fun _ _ k => .ite k k.wearJudge)
  extract_lets +onlyGivenNames s3
  have hs3 : Kept s s3 := hs2.each (fun _ _ k => .ite k k.wearJudge.wearJudge)
  extract_lets +onlyGivenNames s4
  have hs4 : Kept s s4 := by
    unfold s4
    refine hs3.each (fun _ _ k => ?_)
    split
    · exact k
    · exact .ite k k.wearJudge.wearJudge
  refine hs4.each (fun _ _ k => ?_)
  split
  · exact k
  · exact .ite k k.wearJudge

theorem Kept.coreFailures {x : PanSample} : Kept s (t.coreFailures x) :=
  h.each (fun _ _ k => .ite k.unitFailed k)

theorem Kept.ageing {x : PanSample} : Kept s (t.ageing x) := by
  unfold State.ageing
  refine h.each (fun _ _ k => ?_)
  extract_lets +onlyGivenNames v s1
  have hs1 : Kept s s1 := k.setFld
  exact .ite (.raise hs1.update) hs1

theorem Kept.rowRepairs : Kept s (t.rowRepairs) := by
  unfold State.rowRepairs
  extract_lets +onlyGivenNames s1
  have hs1 : Kept s s1 := h.over (fun _ _ k => .ite k.autoSwap k)
  exact .ite (hs1.over (fun _ _ k => k.hardRow)) hs1

theorem Kept.pcRetired {h' : Nat} : Kept s (t.pcRetired h') :=
  .ite h.retirePc.unitFailed h

theorem Kept.pcReleased {h' : Nat} : Kept s (t.pcReleased h') := by
  unfold State.pcReleased
  refine .ite h ?_
  split
  · next k s1 heq =>
      have hs1 : Kept s s1 := .pair heq (h.step2)
      exact .ite hs1.pcRetired.funcRetired hs1.release

theorem Kept.execPcRelease {h' : Fin 128} : Answers s (execPcRelease h' t) :=
  h.pcReleased.next

theorem Kept.execPcRetire {h' : Fin 128} : Answers s (execPcRetire h' t) :=
  h.pcRetired.next

theorem Kept.execPcReinitDone {h' : Fin 128} {passed : Bool} {rows : List (Fin 48 × BitVec 16)} :
    Answers s (execPcReinitDone h' passed rows t) := by
  unfold Machine.execPcReinitDone
  refine Kept.next (.ite h ?_)
  extract_lets +onlyGivenNames before
  refine .ite ?_ h.setPc.lossSync.unitFailed
  extract_lets +onlyGivenNames s1
  have hs1 : Kept s s1 := h.wipePc
  extract_lets +onlyGivenNames s2
  have hs2 : Kept s s2 := hs1.over (fun _ _ k => k.softRow)
  extract_lets +onlyGivenNames _ s3
  have hs3 : Kept s s3 := hs2.update
  exact hs3.setPc.setFrozen.lossSync.raise

/-- The body is taken from the function itself: unfolded at its operands, the kernel would evaluate the record's
address. -/
theorem Kept.putTelemetry {bs : List Byte} : Kept s (t.putTelemetry bs) := by
  obtain ⟨f, hf⟩ : ∃ f, f = State.putTelemetry := ⟨_, rfl⟩
  rw [← hf]
  delta State.putTelemetry at hf
  subst hf
  beta_reduce
  extract_lets +onlyGivenNames tail a
  cases r : t.physPut t.srcOther a bs with
  | none => exact h.update
  | some u => exact (h.physPut r).setFld

theorem Kept.retryTelemetry : Kept s (t.retryTelemetry) := by
  unfold State.retryTelemetry
  split
  · exact h
  · exact .ite (.putTelemetry h.update) h

theorem Kept.execPanMonitorSample {sample : PanSample} : Answers s (execPanMonitorSample sample t) := by
  unfold Machine.execPanMonitorSample
  refine Kept.next (.ite h ?_)
  extract_lets +onlyGivenNames quiet s1
  have hs1 : Kept s s1 := .ite h h.coreFailures.wearMonitors
  extract_lets +onlyGivenNames s2
  have hs2 : Kept s s2 := hs1.ageing
  extract_lets +onlyGivenNames s3
  have hs3 : Kept s s3 := .ite hs2 hs2.rowRepairs.panNext
  extract_lets +onlyGivenNames _ s4
  have hs4 : Kept s s4 := hs3.update
  refine .ite hs4 ?_
  extract_lets +onlyGivenNames s5
  have hs5 : Kept s s5 := hs4.timerSet
  extract_lets +onlyGivenNames bs _ s6
  have hs6 : Kept s s6 := hs5.update
  exact .ite hs6 hs6.putTelemetry

theorem Kept.execPanHistoryHour : Answers s (execPanHistoryHour t) :=
  Kept.next (.ite h (.stat (.timerSet h.update)))

theorem Kept.panBegin : Kept s (t.panBegin) :=
  h.setFld.setFlag

theorem Kept.hostSwap {w : PanSwap} : Kept s (t.hostSwap w) := by
  unfold State.hostSwap
  refine .ite h.panResult ?_
  extract_lets +onlyGivenNames b
  have hb : Kept s b := h.panBegin
  split
  · next s1 heq =>
      have hs1 : Kept s s1 := .pair heq (hb.trySwap)
      exact hs1
  · next s1 heq =>
      have hs1 : Kept s s1 := .pair heq (hb.trySwap)
      exact hs1.swapWaits
  · next s1 heq =>
      have hs1 : Kept s s1 := .pair heq (hb.trySwap)
      exact hs1.spareEmpty.panResult
  · next s1 heq =>
      have hs1 : Kept s s1 := .pair heq (hb.trySwap)
      exact hs1.panResult

theorem Kept.panApprove {kind u : Nat} : Kept s (t.panApprove kind u) := by
  unfold State.panApprove
  split
  · exact h.panResult
  · refine .ite h.panResult (.ite h.panResult ?_)
    extract_lets +onlyGivenNames _ s1
    have hs1 : Kept s s1 := h.update
    extract_lets +onlyGivenNames w run
    have hrun : ∀ u, Kept s u → Kept s (run u) := fun _ k => .panBegin k.update
    split
    · next s2 heq =>
        have hs2 : Kept s s2 := .pair heq (hs1.trySwap)
        exact hrun _ hs2
    · next s2 heq =>
        have hs2 : Kept s s2 := .pair heq (hs1.trySwap)
        exact hrun _ hs2.swapWaits
    · next s2 heq =>
        have hs2 : Kept s s2 := .pair heq (hs1.trySwap)
        exact hs2.spareEmpty.panResult
    · next s2 heq =>
        have hs2 : Kept s s2 := .pair heq (hs1.trySwap)
        exact hs2.panResult

theorem Kept.panDecline {kind u : Nat} : Kept s (t.panDecline kind u) := by
  unfold State.panDecline
  split
  · exact h.panResult
  · exact .ite h.panResult (.panResult h.update)

theorem Kept.panSwap {kind u : Nat} : Kept s (t.panSwap kind u) :=
  h.hostSwap

theorem Kept.retireFree {kind u : Nat} : Kept s (t.retireFree kind u) := by
  unfold State.retireFree
  extract_lets +onlyGivenNames s1
  have hs1 : Kept s s1 := h.askWithdraw.setRole.panResult
  split
  · exact hs1.setFlag.when (fun _ k => k.spareEmpty)
  · exact hs1.tilesEmpty
  · exact hs1.lanesEmpty
  · exact hs1.spareEmpty

theorem Kept.panRetire {kind u : Nat} : Kept s (t.panRetire kind u) :=
  .ite h.panResult (.ite (.ite h.panResult (.ite h.panResult h.hardRow.swapUsed)) (.ite (.hostSwap (h.when
    (fun _ k => k.retirePc))) (.ite h.retireFree h.hostSwap)))

theorem Kept.rotate {d : Nat} : Kept s (t.rotate d).2 := by
  unfold State.rotate
  split
  · exact h
  · extract_lets +onlyGivenNames r
    have hr : Kept s r.2 := h.migStart
    split
    · exact hr.update
    · exact h

theorem Kept.execRotationStep {d : Fin 2} : Answers s (execRotationStep d t) := by
  unfold Machine.execRotationStep
  refine Kept.next (.ite h ?_)
  split
  · next s1 heq =>
      have hs1 : Kept s s1 := .pair heq (h.timerSet.rotate)
      exact hs1
  · next s1 heq =>
      have hs1 : Kept s s1 := .pair heq (h.timerSet.rotate)
      exact hs1.stat

theorem Kept.oplRotate : Kept s (t.oplRotate).2 := by
  unfold State.oplRotate
  extract_lets +onlyGivenNames next
  split
  · exact h
  · extract_lets +onlyGivenNames r
    have hr : Kept s r.2 := h.oplSwapStart
    split
    · exact hr.update
    · exact h

theorem Kept.execOpalRotation : Answers s (execOpalRotation t) :=
  Kept.next (.ite h h.timerSet.oplRotate)

theorem Kept.panRotate {kind u : Nat} : Kept s (t.panRotate kind u) := by
  unfold State.panRotate
  extract_lets +onlyGivenNames s1
  have hs1 : Kept s s1 := h.panBegin
  extract_lets +onlyGivenNames run
  have hrun : ∀ u, Kept s u.2 → Kept s (run u) := fun _ k => .ite k.update k.panResult
  exact .ite hs1.panResult (.ite hs1.panResult (.ite (hrun _ hs1.rotate) (.ite (hrun _ hs1.oplRotate) hs1.panResult)))

theorem Kept.execPanApprove {path : Path} {kind : BitVec 4} {unit : BitVec 16} :
    Answers s (execPanApprove path kind unit t) :=
  h.panApprove.wrote.next

theorem Kept.execPanDecline {path : Path} {kind : BitVec 4} {unit : BitVec 16} :
    Answers s (execPanDecline path kind unit t) :=
  h.panDecline.wrote.next

theorem Kept.execPanSwap {path : Path} {kind : BitVec 4} {unit : BitVec 16} :
    Answers s (execPanSwap path kind unit t) :=
  h.panSwap.wrote.next

theorem Kept.execPanRotateNow {path : Path} {kind : BitVec 4} {unit : BitVec 16} :
    Answers s (execPanRotateNow path kind unit t) :=
  h.panRotate.wrote.next

theorem Kept.execPanRetire {path : Path} {kind : BitVec 4} {unit : BitVec 16} :
    Answers s (execPanRetire path kind unit t) :=
  h.panRetire.wrote.next

theorem Kept.execMigrationLoadDone {d : Fin 2} : Answers s (execMigrationLoadDone d t) := by
  unfold Machine.execMigrationLoadDone
  refine Kept.next ?_
  split
  · exact .ite h h.migLoaded
  · exact h

theorem Kept.execHaltEvent {tile : Fin 68} : Answers s (execHaltEvent tile t) := by
  unfold Machine.execHaltEvent
  extract_lets +onlyGivenNames n s1
  have hs1 : Kept s s1 := h.tileEvent
  refine Kept.next ?_
  split
  · exact .ite hs1.migEnd.panNext hs1
  · exact hs1

theorem Kept.execSelftestDone {renderer : Bool} {unit : Fin 68} {fail : Option (Fin 4)} {rows : Option
    (Fin 33)} : Answers s (execSelftestDone renderer unit fail rows t) := by
  unfold Machine.execSelftestDone
  extract_lets +onlyGivenNames u kind
  refine Kept.next (.ite h ?_)
  extract_lets +onlyGivenNames used pass code t1 t' _ s1
  have hs1 : Kept s s1 := .ite h h.update
  refine .ite ?_ ?_
  · extract_lets +onlyGivenNames s2
    have hs2 : Kept s s2 := hs1.stat.setRole
    exact .panNext (.ite hs2 hs2.setTile)
  · extract_lets +onlyGivenNames s2
    have hs2 : Kept s s2 := hs1.stat.setRole.raise
    exact .ite hs2.spareEmpty hs2.tilesEmpty

/-- The new contents are named before memory is compared: the kernel would evaluate the tags' addresses. -/
theorem Kept.zeroPc {h' : Nat} : Kept s (t.zeroPc h') := by
  have hm := Memory.wf_zeroPc t h'
  unfold State.zeroPc at hm ⊢
  extract_lets at hm ⊢
  generalize mergeMem _ _ _ = m at hm ⊢
  exact h.memory rfl hm

theorem Kept.moveLog {m : MemMove} : Kept s (t.moveLog m) := by
  unfold State.moveLog
  extract_lets +onlyGivenNames unit s1
  have hs1 : Kept s s1 := h.each (fun _ _ k => k.memLog)
  exact hs1.update

theorem Kept.execMemMoveCopyDone : Answers s (execMemMoveCopyDone t) := by
  unfold Machine.execMemMoveCopyDone
  refine Kept.next ?_
  split
  · exact h
  · refine .ite h ?_
    extract_lets +onlyGivenNames before _ s1
    have hs1 : Kept s s1 := h.update
    extract_lets +onlyGivenNames s2
    have hs2 : Kept s s2 := hs1.moveLog
    extract_lets +onlyGivenNames s3
    have hs3 : Kept s s3 := .ite hs2.zeroPc hs2.stat
    extract_lets +onlyGivenNames _ s4
    have hs4 : Kept s s4 := hs3.update
    extract_lets +onlyGivenNames s5
    have hs5 : Kept s s5 := hs4.lossSync
    extract_lets +onlyGivenNames s6
    have hs6 : Kept s s6 := hs5.when (fun _ k => k.raise)
    extract_lets +onlyGivenNames s7
    have hs7 : Kept s s7 := hs6.swapUsed
    extract_lets +onlyGivenNames s8
    have hs8 : Kept s s8 := hs7.when (fun _ k => k.spareEmpty)
    exact hs8.panNext

theorem Kept.execLaneSwap {p : Fin 6} {ok : Bool} : Answers s (execLaneSwap p ok t) := by
  unfold Machine.execLaneSwap
  extract_lets +onlyGivenNames p
  refine Kept.next ?_
  split
  · exact h
  · refine .ite h ?_
    extract_lets +onlyGivenNames _ s1
    have hs1 : Kept s s1 := h.update
    split
    · exact .ite hs1.swapFail.panNext hs1.setPort.setFld.setRole.setRole.swapUsed.lanesEmpty.panNext
    · exact hs1.swapFail.panNext

theorem Kept.execCoreOfflineAck : Answers s (execCoreOfflineAck t) := by
  unfold Machine.execCoreOfflineAck
  refine Kept.next ?_
  split
  · exact h
  · refine .ite h ?_
    extract_lets +onlyGivenNames _ s1
    have hs1 : Kept s s1 := h.update
    exact hs1.setRole.setRole.swapUsed.spareEmpty.panNext

theorem Kept.execCoreSwapTimeout : Answers s (execCoreSwapTimeout t) := by
  unfold Machine.execCoreSwapTimeout
  refine Kept.next ?_
  split
  · exact h
  · exact .ite h (.panNext (.swapFail h.update))

/-- The body is taken from the function itself and its first state named: the kernel would compare its fields at every
later step. -/
theorem Kept.pantryRebuild : Kept s (t.pantryRebuild) := by
  obtain ⟨f, hf⟩ : ∃ f, f = State.pantryRebuild := ⟨_, rfl⟩
  rw [← hf]
  delta State.pantryRebuild at hf
  subst hf
  beta_reduce
  extract_lets +onlyGivenNames retired
  generalize hu : ({ t with pan := { t.pan with
    roles := retired, asks := [], waiting := [], migs := [], move := none, lane := none, core := none, rotNow := false,
    approved := none } } : State) = u
  have hk : Kept s u := by
    subst hu
    exact h.update
  clear hu
  extract_lets +onlyGivenNames s1
  have hs1 : Kept s s1 := hk
  extract_lets +onlyGivenNames s2
  have hs2 : Kept s s2 := hs1.each (fun _ _ k => .ite k k.setRole)
  extract_lets +onlyGivenNames s3
  have hs3 : Kept s s3 := hs2.each (fun _ _ k => k.setFld)
  extract_lets +onlyGivenNames s4
  have hs4 : Kept s s4 := by
    unfold s4
    refine hs3.each (fun _ _ k => k.each (fun _ _ l => .ite ?_ l))
    split
    · exact l.setRole.setFld
    · exact l
  extract_lets +onlyGivenNames s5
  have hs5 : Kept s s5 := hs4.each (fun _ _ k => k.setTile)
  extract_lets +onlyGivenNames s6
  have hs6 : Kept s s6 := by
    unfold s6
    refine hs5.each (fun _ _ k => ?_)
    split
    · split
      · exact k.setRole.setTile
      · exact k
    · exact k
  extract_lets +onlyGivenNames s7
  have hs7 : Kept s s7 := hs6.update
  extract_lets +onlyGivenNames s8
  have hs8 : Kept s s8 := by
    unfold s8
    refine hs7.each (fun _ _ k => .ite ?_ k)
    extract_lets +onlyGivenNames s8
    have hs8 : Kept s s8 := k.setRole
    exact hs8.update
  extract_lets +onlyGivenNames s9
  have hs9 : Kept s s9 := by
    unfold s9
    refine hs8.each (fun _ _ k => ?_)
    split
    · exact k.setFld.setRole
    · exact k.setFld
  split
  · exact hs9.setRole
  · exact hs9

end

end Sys2Proof.Machine
end

section
/-! PROOFS. What the operations of Sys2Proof/Machine/Nvme.lean keep. -/

namespace Sys2Proof.Machine

section
set_option Elab.async false
variable {s t : State} (h : Kept s t)
include h

theorem Kept.setDrive {d : Nat} {x : NvmDrive} : Kept s (t.setDrive d x) :=
  h.update

theorem Kept.setLogSet {n : Nat} {x : NvmSet} : Kept s (t.setLogSet n x) :=
  h.update

theorem Kept.setSub {i : Nat} {x : Machine.Sub} : Kept s (t.setSub i x) :=
  h.update

theorem Kept.subDrop {i n : Nat} : Kept s (t.subDrop i n) :=
  .ite h (h.addFld.stat.setSub.when (fun _ k => k.raise))

theorem Kept.nvmSend {d : Nat} {io : Bool} {op : Nat} {args : List Nat} {bs : List Byte} :
    Kept s (t.nvmSend d io op args bs) :=
  .ite h.emit h

theorem Kept.nvmOut {d : Nat} {o : NvmOp} : Kept s (t.nvmOut d o) := by
  unfold State.nvmOut
  extract_lets +onlyGivenNames ns
  split
  · exact h.nvmSend
  · exact h.nvmSend
  · exact h.nvmSend
  · exact h.nvmSend

theorem Kept.nvmSetup {d : Nat} : Kept s (t.nvmSetup d) :=
  h.nvmSend.nvmSend.nvmSend.each (fun _ _ k => k.nvmSend.nvmSend)

theorem Kept.nvmRelease {d : Nat} : Kept s (t.nvmRelease d) :=
  h.each (fun _ _ k => k.nvmSend.nvmSend)

theorem Kept.nvmIssue {d : Nat} : Kept s (t.nvmIssue d) := by
  unfold State.nvmIssue
  extract_lets +onlyGivenNames l k s1
  have hs1 : Kept s s1 := h.over (fun _ _ k => k.nvmOut)
  exact hs1.setDrive

theorem Kept.nvmPush {d : Nat} {o : NvmOp} : Kept s (t.nvmPush d o) :=
  h.setDrive.nvmIssue

theorem Kept.nvmFlow {n d : Nat} : Kept s (State.nvmFlow n t d) := by
  induction n generalizing t with
  | zero => exact h
  | succ n ih => exact .ite h (ih h.setDrive.nvmPush)

theorem Kept.nvmBytes {d : Nat} {bs : List Byte} : Kept s (t.nvmBytes d bs) :=
  h.setDrive.nvmFlow

theorem Kept.nvmFlushBuf {d : Nat} : Kept s (t.nvmFlushBuf d) :=
  .ite h h.setDrive.nvmPush

theorem Kept.segHeader {n d : Nat} : Kept s (t.segHeader n d) := by
  unfold State.segHeader
  extract_lets +onlyGivenNames x
  split
  · exact h.setDrive.nvmBytes
  · exact h

theorem Kept.putRecord {n d type flags stream drops item arr : Nat} {payload : List Byte} :
    Kept s (t.putRecord n d type flags stream drops item arr payload) :=
  h.segHeader.setLogSet.setDrive.nvmBytes

theorem Kept.checkpoint {n d : Nat} : Kept s (t.checkpoint n d) :=
  .ite h.setDrive.putRecord h

theorem Kept.writeSuper {n d : Nat} : Kept s (t.writeSuper n d) :=
  h.nvmPush

theorem Kept.closeSeg {n d : Nat} : Kept s (t.closeSeg n d) := by
  unfold State.closeSeg
  split
  · exact h
  · extract_lets +onlyGivenNames rest s1
    have hs1 : Kept s s1 := .ite h h.putRecord
    exact hs1.putRecord.nvmFlushBuf.nvmPush.setDrive.writeSuper

theorem Kept.openSeg {d : Nat} : Kept s (t.openSeg d) := by
  unfold State.openSeg
  extract_lets +onlyGivenNames x a s1
  have hs1 : Kept s s1 := .ite h h.nvmPush
  exact hs1.setDrive

theorem Kept.logItem {k n i stream drops seq arr : Nat} {item : List Byte} :
    Kept s (State.logItem k t n i stream drops seq arr item).2 := by
  induction k generalizing t with
  | zero => exact h
  | succ k ih =>
    unfold State.logItem
    extract_lets +onlyGivenNames size ds best
    clear_value best
    split
    · exact h
    · split
      · exact h
      · split
        · exact h.setFld.raise
        · extract_lets +onlyGivenNames x
          split
          · exact h
          · split
            · exact ih h.openSeg
            · split
              · exact ih h.closeSeg
              · exact (h.putRecord.setDrive.iter (fun _ k => k.checkpoint)).toSnd

theorem Kept.nvmFail {d status : Nat} : Kept s (t.nvmFail d status) := by
  unfold State.nvmFail
  extract_lets +onlyGivenNames n idx recs s1
  have hs1 : Kept s s1 := h.setFld
  extract_lets +onlyGivenNames s2
  have hs2 : Kept s s2 := hs1.setDrive.raise
  extract_lets +onlyGivenNames s3
  have hs3 : Kept s s3 := hs2.over (fun _ _ k => k.subDrop)
  exact hs3.when (fun _ k => k.setFld)

theorem Kept.nvmPortDown {p : Nat} : Kept s (t.nvmPortDown p) := by
  unfold State.nvmPortDown
  refine h.each (fun _ _ k => ?_)
  extract_lets +onlyGivenNames n
  refine k.when (fun _ l => ?_)
  extract_lets +onlyGivenNames r
  have hr : Kept s r.2 := l.draw
  exact hr.nvmFail

theorem Kept.execNvmeCmdComplete {d : Fin 32} {j : Nat} {status : BitVec 16} :
    Answers s (execNvmeCmdComplete d j status t) := by
  unfold Machine.execNvmeCmdComplete
  extract_lets +onlyGivenNames d x
  refine Kept.next (.ite h ?_)
  split
  · exact h
  · exact .ite h.setDrive.nvmIssue (.ite h.setDrive.nvmOut h.nvmFail)

theorem Kept.execNvmeCmdTimeout {d : Fin 32} {j : Nat} : Answers s (execNvmeCmdTimeout d j t) := by
  unfold Machine.execNvmeCmdTimeout
  extract_lets +onlyGivenNames d
  refine Kept.next ?_
  split
  · split
    · refine .ite ?_ h
      extract_lets +onlyGivenNames r
      have hr : Kept s r.2 := h.draw
      exact hr.nvmFail
    · exact h
  · exact h

theorem Kept.execNvmFlushTimer {d : Fin 32} : Answers s (execNvmFlushTimer d t) :=
  Kept.next (.ite h.timerSet.nvmPush h)

theorem Kept.stopSet {n : Nat} : Kept s (t.stopSet n) := by
  unfold State.stopSet
  extract_lets +onlyGivenNames used
  refine .setFld (h.over (fun _ _ k => ?_))
  extract_lets +onlyGivenNames s1
  have hs1 : Kept s s1 := k.over (fun _ _ l => l.subDrop)
  exact .setDrive (hs1.when (fun _ l => l.nvmRelease))

theorem Kept.beginSet {n : Nat} : Kept s (t.beginSet n) :=
  h.stopSet.setFld.setFld.over (fun _ _ k => k.nvmSetup.nvmOut.nvmOut)

theorem Kept.scanSeg {d a xfer : Nat} : Kept s (t.scanSeg d a xfer) :=
  .ite h (h.each (fun _ _ k => k.nvmOut))

theorem Kept.execNvmSetStart {n : Fin 4} {probes : List NvmProbe} : Answers s (execNvmSetStart n probes t) := by
  unfold Machine.execNvmSetStart
  extract_lets +onlyGivenNames n ds found bad supers first differs
  refine Kept.next (.ite h ?_)
  clear_value first
  clear_value differs
  clear_value bad
  split
  · extract_lets +onlyGivenNames r
    have hr : Kept s r.2 := h.draw
    exact hr.setFld.raise.stopSet
  · exact h.raise.stopSet
  · exact h.stopSet
  · extract_lets +onlyGivenNames next uid s1
    have hs1 : Kept s s1 := h.setLogSet
    extract_lets +onlyGivenNames s2
    have hs2 : Kept s s2 := by
      unfold s2
      refine hs1.over (fun _ _ k => ?_)
      split
      · extract_lets +onlyGivenNames d x s2
        have hs2 : Kept s s2 := k.setDrive.raise
        extract_lets +onlyGivenNames s3
        have hs3 : Kept s s3 := hs2.when (fun _ l => l.scanSeg)
        exact hs3.when (fun _ l => l.openSeg)
      · exact k
    exact hs2.setFld

theorem Kept.nvmFormat {n : Nat} {capacities : List (Fin 32 × Nat)} : Kept s (t.nvmFormat n capacities) := by
  unfold State.nvmFormat
  refine .ite h ?_
  extract_lets +onlyGivenNames id s1
  have hs1 : Kept s s1 := h.update
  exact hs1.setLogSet.over (fun _ _ k => k.nvmSetup.setDrive.writeSuper.setDrive.writeSuper.nvmPush)

theorem Kept.nvmFormatCmd {n : Nat} {capacities : List (Fin 32 × Nat)} : Kept s (t.nvmFormatCmd n capacities) :=
  .ite h.nvmFormat h.update

theorem Kept.execNvmFormat {path : Path} {n : Fin 4} {capacities : List (Fin 32 × Nat)} :
    Answers s (execNvmFormat path n capacities t) :=
  h.nvmFormatCmd.wrote.next

end

end Sys2Proof.Machine
end

section
/-! PROOFS. What the operations of Sys2Proof/Machine/PciPort.lean keep. -/

namespace Sys2Proof.Machine

section
set_option Elab.async false
variable {s t : State} (h : Kept s t)
include h

theorem Kept.execPciInbound {p : Fin 2} {addr : BitVec 64} {len : Nat} {write : Option (List Byte)} :
    Answers s (execPciInbound p addr len write t) := by
  unfold Machine.execPciInbound
  extract_lets +onlyGivenNames p a
  refine Kept.next (.ite h ?_)
  split
  · exact .ite h.devPut h.pciUr
  · extract_lets +onlyGivenNames t1
    have ht1 : Kept s t1 := h
    extract_lets +onlyGivenNames s1
    have hs1 : Kept s s1 := h.when (fun _ k => k.readBy)
    exact .ite hs1.emit (.ite hs1.pciUr.emit hs1.pciUr.emit)

theorem Kept.execPciCfgAccess {path : Path} {p : Fin 2} {write : Option (BitVec 32)} {result : Fin 4}
    {data : BitVec 32} : Answers s (execPciCfgAccess path p write result data t) := by
  unfold Machine.execPciCfgAccess
  extract_lets +onlyGivenNames p root
  refine Kept.next ?_
  split
  · extract_lets +onlyGivenNames s1
    have hs1 : Kept s s1 := h.setReg
    extract_lets +onlyGivenNames s2
    have hs2 : Kept s s2 := .ite hs1.cfgResult.emit hs1
    exact hs2.wrote
  · extract_lets +onlyGivenNames v s1
    have hs1 : Kept s s1 := .ite h.setReg.cfgResult h
    exact hs1.emit

theorem Kept.pciCtrlWrite {p v : Nat} : Kept s (t.pciCtrlWrite p v) := by
  unfold State.pciCtrlWrite
  extract_lets +onlyGivenNames en s1
  have hs1 : Kept s s1 := h.when (fun _ k => k.setFld)
  extract_lets +onlyGivenNames s2
  have hs2 : Kept s s2 := hs1.when (fun _ k => k.setFld)
  exact hs2.setFld.setFlag.when (fun _ k => k.nvmPortDown.dmaDrain)

theorem Kept.execPciDisable {path : Path} {p : Fin 2} {value : BitVec 32} : Answers s (execPciDisable path p value t) :=
  h.pciCtrlWrite.wrote.next

theorem Kept.execPciLinkUp {p : Fin 2} {speed : Fin 6} {width : Fin 4} : Answers s (execPciLinkUp p speed width t) :=
  Kept.next (.ite h h.setFlag.setFld.setFld.setFlag.raise)

theorem Kept.execPciLinkDown {p : Fin 2} : Answers s (execPciLinkDown p t) :=
  Kept.next (.ite h h.setFlag.dmaPortDown.raise.reinit)

theorem Kept.execPciAer {p : Fin 2} {status requester : BitVec 32} : Answers s (execPciAer p status requester t) :=
  h.raise.next

theorem Kept.execPciCplTimeout {p : Fin 2} {chan : Option (Fin 32)} : Answers s (execPciCplTimeout p chan t) := by
  unfold Machine.execPciCplTimeout
  extract_lets +onlyGivenNames s1
  have hs1 : Kept s s1 := h.addFld
  refine Kept.next ?_
  split
  · exact .ite hs1.dmaFail (.ite hs1.setFld.dmaHalt hs1)
  · exact hs1

end

end Sys2Proof.Machine
end

section
/-! PROOFS. What the operations of Sys2Proof/Machine/Streams.lean keep. -/

namespace Sys2Proof.Machine

section
set_option Elab.async false
variable {s t : State} (h : Kept s t)
include h

theorem Kept.setEntry {i : Nat} {e : List Byte} : Kept s (t.setEntry i e) :=
  h.each (fun _ _ k => k.setReg)

theorem Kept.setStream {k : Nat} {x : Machine.Stream} : Kept s (t.setStream k x) :=
  h.update

theorem Kept.subJoin {i : Nat} {e : List Byte} {seed : Bool} : Kept s (t.subJoin i e seed) :=
  h.setEntry.setSub.raise

theorem Kept.subLeave {i cause : Nat} : Kept s (t.subLeave i cause) := by
  unfold State.subLeave
  extract_lets +onlyGivenNames gen s1
  have hs1 : Kept s s1 := h.setEntry
  extract_lets +onlyGivenNames s2
  have hs2 : Kept s s2 := hs1.when (fun _ k => k.setFlag)
  exact hs2.setSub.raise

theorem Kept.joinEntry {e : List Byte} : Kept s (t.joinEntry e).2.2.2.2 := by
  unfold State.joinEntry
  extract_lets +onlyGivenNames es
  split
  · exact h
  · split
    · exact h
    · split
      · exact h
      · split
        · exact h
        · split
          · exact h
          · exact h.subJoin

theorem Kept.leaveEntry {i gen : Nat} : Kept s (t.leaveEntry i gen).2 := by
  unfold State.leaveEntry
  extract_lets +onlyGivenNames e
  split
  · exact h
  · split
    · exact h.setSub
    · exact h.subLeave

/-- The state that a join answers. -/
theorem Kept.joined {e : List Byte} {r i gen first : Nat} {u : State} (hj : t.joinEntry e = (r, i, gen, first, u)) :
    Kept s u := by
  have hu := h.joinEntry (e := e)
  rwa [hj] at hu

theorem Kept.stmJoin : Kept s (t.stmJoin) := by
  unfold State.stmJoin
  extract_lets +onlyGivenNames e
  split
  · next r i gen first s1 heq =>
      have hs1 : Kept s s1 := h.joined heq
      extract_lets +onlyGivenNames s2
      have hs2 : Kept s s2 := hs1.setFld.setFlag
      exact .ite hs2.setFld.setFld.setReg64 hs2

theorem Kept.stmLeave {i gen : Nat} : Kept s (t.stmLeave i gen) := by
  unfold State.stmLeave
  extract_lets +onlyGivenNames r
  have hr : Kept s r.2 := h.leaveEntry
  exact .ite hr.setFld.setFld.setFld.setFlag hr.setFld

theorem Kept.czJoin {e : List Byte} : Kept s (t.czJoin e).2.2 := by
  unfold State.czJoin
  split
  · exact h
  · split
    · next r i gen first s1 heq =>
        have hs1 : Kept s s1 := h.joined heq
        split
        · exact hs1
        · exact hs1

theorem Kept.czLeave {i gen : Nat} : Kept s (t.czLeave i gen).2.2 := by
  unfold State.czLeave
  extract_lets +onlyGivenNames r
  have hr : Kept s r.2 := h.leaveEntry
  split
  · exact hr
  · exact hr

theorem Kept.execJoin {via : JoinVia} : Answers s (execJoin via t) := by
  unfold Machine.execJoin
  refine Kept.next ?_
  split
  · exact h.stmJoin.wrote
  · exact h.czRun (fun _ k => k.czJoin)

theorem Kept.execLeave {via : Via} {gen : BitVec 16} {i : Fin 256} : Answers s (execLeave via gen i t) := by
  unfold Machine.execLeave
  refine Kept.next ?_
  split
  · exact h.stmLeave.wrote
  · exact h.czRun (fun _ k => k.czLeave)

theorem Kept.ringPut {r : Region} {pos : Nat} {bs : List Byte} : Kept s (t.ringPut r pos bs) :=
  h.devPut.devPut

theorem Kept.skipTo {i pos : Nat} : Kept s (t.skipTo i pos) := by
  unfold State.skipTo
  split
  · exact h
  · extract_lets +onlyGivenNames x lost rd
    refine .ite ?_ h
    extract_lets +onlyGivenNames s1
    have hs1 : Kept s s1 := h.setSub.subDrop
    split
    · exact hs1.subLeave
    · exact hs1

theorem Kept.streamItem {k : Nat} {item : List Byte} : Kept s (t.streamItem k item) := by
  unfold State.streamItem
  split
  · extract_lets +onlyGivenNames n size
    refine .ite (.setStream (h.over (fun _ _ k => k.subDrop))) ?_
    extract_lets +onlyGivenNames s1
    have hs1 : Kept s s1 := h.over (fun _ _ k => k.skipTo)
    exact hs1.ringPut.setStream
  · exact h

theorem Kept.execStreamItem {stream : Fin 64} {item : List Byte} : Answers s (execStreamItem stream item t) := by
  unfold Machine.execStreamItem
  refine Kept.next ?_
  split
  · next s1 heq =>
      have hs1 : Kept s s1 := h.offHall heq
      exact .ite hs1.streamItem hs1.addFld
  · exact h

theorem Kept.streamsHold : Kept s (t.streamsHold) := by
  unfold State.streamsHold
  extract_lets +onlyGivenNames s1
  have hs1 : Kept s s1 := by
    unfold s1
    refine h.over (fun _ _ k => ?_)
    extract_lets +onlyGivenNames x wp cut s1
    have hs1 : Kept s s1 := k.setSub
    extract_lets +onlyGivenNames s2
    have hs2 : Kept s s2 := hs1.when (fun _ l => l.subDrop)
    exact hs2.when (fun _ l => l.subLeave)
  exact hs1.update

theorem Kept.ethOut {p vlan : Nat} {args : List Nat} {bs : List Byte} : Kept s (t.ethOut p vlan args bs) :=
  .ite h.emit h

theorem Kept.ethReply {p : Nat} {args : List Nat} {bs : List Byte} : Kept s (t.ethReply p args bs) :=
  h.ethOut

theorem Kept.askHop {i : Nat} : Kept s (t.askHop i) := by
  unfold State.askHop
  extract_lets +onlyGivenNames e
  split
  · exact h.setSub.ethOut

theorem Kept.execNextHopRetry {i : Fin 256} : Answers s (execNextHopRetry i t) := by
  unfold Machine.execNextHopRetry
  extract_lets +onlyGivenNames x e
  refine Kept.next ?_
  split
  · refine .ite ?_ h
    extract_lets +onlyGivenNames s1
    have hs1 : Kept s s1 := h.when (fun _ k => k.raise)
    exact hs1.setSub.askHop
  · exact h

theorem Kept.refill {i : Nat} : Kept s (t.refill i) :=
  h.setSub

theorem Kept.pay {i n : Nat} : Kept s (t.pay i n) := by
  unfold State.pay
  extract_lets +onlyGivenNames _ s1
  have hs1 : Kept s s1 := h.setSub
  exact hs1.update

theorem Kept.itemDone {i : Nat} {t' : StmItem} {sent : Bool} : Kept s (t.itemDone i t' sent) := by
  unfold State.itemDone
  extract_lets +onlyGivenNames x s1
  have hs1 : Kept s s1 := h.setSub
  extract_lets +onlyGivenNames s2
  have hs2 : Kept s s2 := .ite hs1.stat hs1.subDrop
  split
  · exact hs2.subLeave
  · exact hs2

theorem Kept.itemRead {k : Nat} {t' : StmItem} {off n : Nat} : Kept s (t.itemRead k t' off n) := by
  unfold State.itemRead
  split
  · exact h.readBy.when (fun _ k => k.readBy)
  · exact h

theorem Kept.sendEth {i : Nat} {e : List Byte} {t' : StmItem} : Kept s (t.sendEth i e t') := by
  unfold State.sendEth
  split
  · exact h.itemDone.when (fun _ k => .ite k k.askHop)
  · extract_lets +onlyGivenNames _ s1
    have hs1 : Kept s s1 := h.setSub
    extract_lets +onlyGivenNames off data n
    refine .ite hs1 ?_
    extract_lets +onlyGivenNames last drops flags h1
    split
    · extract_lets +onlyGivenNames s2
      have hs2 : Kept s s2 := hs1.itemRead.pay.ethOut
      exact .ite hs2.itemDone hs2.setSub

theorem Kept.ringEnd {i : Nat} {e : List Byte} {t' : StmItem} {ctrl : Nat} : Kept s (t.ringEnd i e t' ctrl) :=
  h.emit.setSub.itemDone

theorem Kept.sendRing {i : Nat} {e : List Byte} {t' : StmItem} {entry : List Byte} :
    Kept s (t.sendRing i e t' entry) := by
  unfold State.sendRing
  extract_lets +onlyGivenNames p bs
  refine .ite h ?_
  split
  · exact h.ringEnd
  · refine .ite h.setSub.timerSet (.ite h.setSub ?_)
    extract_lets +onlyGivenNames len n ctrl s1
    have hs1 : Kept s s1 := h.itemRead.pay
    exact .ite hs1.ringEnd hs1.emit.emit.setSub

theorem Kept.sendLog {i : Nat} {e : List Byte} {t' : StmItem} : Kept s (t.sendLog i e t') := by
  unfold State.sendLog
  extract_lets +onlyGivenNames item
  refine .ite h ?_
  extract_lets +onlyGivenNames r
  have hr : Kept s r.2 := h.logItem
  split
  · exact h
  · exact hr.itemDone
  · exact hr.itemRead.pay.itemDone

theorem Kept.sendFab {i : Nat} {e : List Byte} {t' : StmItem} : Kept s (t.sendFab i e t') := by
  unfold State.sendFab
  extract_lets +onlyGivenNames bs off piece dst
  refine .ite h ?_
  split
  · exact .ite h.askCredit.itemDone h.askCredit
  · next s1 heq =>
      have hs1 : Kept s s1 := h.sendPiece heq
      exact hs1.itemDone
  · next s1 heq =>
      have hs1 : Kept s s1 := h.sendPiece heq
      extract_lets +onlyGivenNames s2
      have hs2 : Kept s s2 := hs1.itemRead.pay.xferAsk
      exact .ite hs2.itemDone hs2.setSub

theorem Kept.subSend {i : Nat} {entry : List Byte} : Kept s (t.subSend i entry) := by
  unfold State.subSend
  extract_lets +onlyGivenNames e s1
  have hs1 : Kept s s1 := h.refill
  refine .ite hs1 ?_
  split
  · exact hs1
  · exact .ite hs1.sendEth (.ite hs1.sendRing (.ite hs1.sendLog (.ite hs1.sendFab hs1)))

theorem Kept.execSubSend {i : Fin 256} {entry : List Byte} : Answers s (execSubSend i entry t) :=
  Kept.next (.ite h h.subSend)

theorem Kept.execPcieRingPoll {i : Fin 256} {entry : List Byte} : Answers s (execPcieRingPoll i entry t) :=
  Kept.next (.ite h.subSend h)

theorem Kept.ringDoorbell {i : Nat} {entry : List Byte} : Kept s (t.ringDoorbell i entry) :=
  .ite h.subSend h

theorem Kept.execStmRingDb {path : Path} {i : Fin 256} {entry : List Byte} : Answers s (execStmRingDb path i entry t) :=
  h.ringDoorbell.wrote.next

theorem Kept.learnHop {p : Nat} {v6 : Bool} {ip mac : Nat} : Kept s (t.learnHop p v6 ip mac) := by
  unfold State.learnHop
  extract_lets +onlyGivenNames rest _ s1
  have hs1 : Kept s s1 := h.update
  exact hs1.over (fun _ _ k => k.when (fun _ l => l.setSub))

theorem Kept.execEthRxFrame {p : Fin 6} {frame : EthFrame} : Answers s (execEthRxFrame p frame t) := by
  unfold Machine.execEthRxFrame
  extract_lets +onlyGivenNames p
  refine Kept.next (.ite h ?_)
  split
  · exact .ite h.ethReply h
  · exact h.learnHop
  · exact .ite h.ethReply h
  · exact h.learnHop
  · exact .ite h.ethReply h
  · exact .ite h.ethReply h
  · exact h
  · exact h.addFld

theorem Kept.ptpAnnounce {p : Nat} {m : PtpMaster} : Kept s (t.ptpAnnounce p m) := by
  unfold State.ptpAnnounce
  extract_lets +onlyGivenNames rest best new _ s1
  have hs1 : Kept s s1 := h.update
  exact hs1.when (fun _ k => k.raise)

theorem Kept.delayReq {p : Nat} : Kept s (t.delayReq p) :=
  h.ethReply

theorem Kept.execPtpMessageRx {p : Fin 6} {domain : BitVec 8} {transport : Fin 3} {m : PtpMsg} :
    Answers s (execPtpMessageRx p domain transport m t) := by
  unfold Machine.execPtpMessageRx
  extract_lets +onlyGivenNames p
  refine Kept.next (.ite h ?_)
  split
  · exact h.ptpAnnounce
  · refine .ite h ?_
    extract_lets +onlyGivenNames _ s1
    have hs1 : Kept s s1 := h.update
    exact hs1.delayReq
  · split
    · exact .ite h (.discipline h.update)
    · exact h

theorem Kept.execPtpAnnounceTimeout : Answers s (execPtpAnnounceTimeout t) := by
  unfold Machine.execPtpAnnounceTimeout
  refine Kept.next ?_
  split
  · exact .ite (.timeSrcLost h.update) h
  · exact h

end

end Sys2Proof.Machine
end

section
/-! PROOFS. What the operations of Sys2Proof/Machine/Lifecycle.lean keep. -/

namespace Sys2Proof.Machine

section
set_option Elab.async false
variable {s t : State} (h : Kept s t)
include h

theorem Kept.stopOutputs : Kept s (t.stopOutputs) := by
  unfold State.stopOutputs
  extract_lets +onlyGivenNames _ s1
  have hs1 : Kept s s1 := h.update
  exact .streamsHold (hs1.each (fun _ _ k => k.emit))

theorem Kept.drainAll : Kept s (t.drainAll) := by
  unfold State.drainAll
  extract_lets +onlyGivenNames s1
  have hs1 : Kept s s1 := h.each (fun _ _ k => k.when (fun _ l => l.dmaDrain))
  extract_lets +onlyGivenNames s2
  have hs2 : Kept s s2 := hs1.each (fun _ _ k => k.dmaDrainOut)
  extract_lets +onlyGivenNames cause s3
  have hs3 : Kept s s3 := by
    unfold s3
    refine hs2.over (fun _ _ k => ?_)
    extract_lets +onlyGivenNames ended
    split
    · exact k.recDropped
    · exact k.startXfer
    · exact k.putCompletion
  extract_lets +onlyGivenNames s4
  have hs4 : Kept s s4 := hs3.each (fun _ _ k => k.when (fun _ l => l.recDropped))
  extract_lets +onlyGivenNames s5
  have hs5 : Kept s s5 := hs4.over (fun _ _ k => k.recDropped)
  extract_lets +onlyGivenNames _ s6
  have hs6 : Kept s s6 := hs5.update
  exact .each (hs6.each (fun _ _ k => k.replayEnd)) (fun _ _ k => k.stopSet)

theorem Kept.flushRing : Kept s (t.flushRing) := by
  unfold State.flushRing
  extract_lets +onlyGivenNames ws _ s1
  have hs1 : Kept s s1 := h.update
  exact .landRelieved (hs1.over (fun _ _ k => k.breakPins.memLog.devWrite.setDie.settle))

theorem Kept.postMortem {cause src inst : Nat} : Kept s (t.postMortem cause src inst) :=
  h.each (fun _ _ k => k.setReg)

theorem Kept.ringOffsets : Kept s (t.ringOffsets) :=
  h.each (fun _ _ k => .ite k k.setFld.setFld.setFld.setReg64.setFld)

theorem Kept.engineReset : Kept s t.engineReset := by
  unfold State.engineReset
  extract_lets +onlyGivenNames s1 retired s2
  have hs1 : Kept s s1 := h.memory rfl (Memory.wf_filter t.mem _)
  have hs2 : Kept s s2 := .tinStart (hs1.over (fun _ _ k => k.setRole))
  exact hs2.update

/-- Empty memory is in canonical form. -/
theorem Kept.emptied {u : State} (hu : u.queueAndMem = (t.pending, []) := by rfl) : Kept s u := by
  obtain ⟨hq, hm⟩ := Prod.mk.inj hu
  exact h.memory hq (fun _ => (congrArg (Memory.wf · = true) hm).mpr Memory.wf_empty)

theorem Kept.engineOff : Kept s t.engineOff := by
  unfold State.engineOff
  extract_lets +onlyGivenNames s1 _ s2 s3 s4
  have hs2 : Kept s s2 := h.engineReset.emptied
  have hs3 : Kept s s3 := hs2.over (fun _ _ k => k.each (fun _ _ l => l.setReg))
  have hs4 : Kept s s4 := hs3.over (fun _ _ k => k.setFrozen)
  exact hs4.setFld.setFld.setFlag.setFlag.emit

theorem Kept.driveFault {low : Bool} : Kept s (t.driveFault low) :=
  .ite h (.emit h.update)

theorem Kept.loadRecords : Kept s (t.loadRecords) := by
  unfold State.loadRecords
  extract_lets +onlyGivenNames p s1
  have hs1 : Kept s s1 := h.setReg
  extract_lets +onlyGivenNames s2
  have hs2 : Kept s s2 := hs1.each (fun _ _ k => k.setReg)
  extract_lets +onlyGivenNames s3
  have hs3 : Kept s s3 := hs2.setFlag
  split
  · exact hs3.setFld.setFld

theorem Kept.loadPci : Kept s (t.loadPci) :=
  h.each (fun _ _ k => k.setFld.setFld.setFlag.setFlag)

theorem Kept.loadVendor {slot : Nat} : Kept s (t.loadVendor slot) :=
  h.each (fun _ _ k => k.tilePut)

theorem Kept.selfRefresh : Kept s (t.selfRefresh) :=
  h.update

theorem Kept.softAgain : Kept s (t.softAgain) :=
  .ite h (.over h.update (fun _ _ k => k.hist))

/-- The body is taken from the function itself and its first state named: the kernel would compare its fields at every
later step. -/
theorem Kept.bringUp : Kept s (t.bringUp) := by
  obtain ⟨f, hf⟩ : ∃ f, f = State.bringUp := ⟨_, rfl⟩
  rw [← hf]
  delta State.bringUp at hf
  subst hf
  beta_reduce
  generalize hu : ({ t with
    dev := .boot, time := { running := true, calAt := t.now }, sec := { t.sec with bootAt := t.now } } : State) = u
  have hk : Kept s u := by
    subst hu
    exact h.update
  clear hu
  extract_lets +onlyGivenNames s1
  have hs1 : Kept s s1 := hk
  extract_lets +onlyGivenNames s2
  have hs2 : Kept s s2 := hs1.loadRecords.pantryRebuild.softAgain
  extract_lets +onlyGivenNames s3
  have hs3 : Kept s s3 := by
    unfold s3
    split
    · exact .ite hs2.loadVendor hs2
    · exact hs2
  extract_lets +onlyGivenNames s4
  have hs4 : Kept s s4 := hs3.calBoot
  exact .ite hs4.fabStart hs4.update

theorem Kept.stopEngine : Kept s (t.stopEngine) :=
  h.engineOff.driveFault.emit

theorem Kept.powerCycle {cause : Nat} : Kept s (t.powerCycle cause) := by
  unfold State.powerCycle
  extract_lets +onlyGivenNames s1
  have hs1 : Kept s s1 := h.raise.stopEngine
  extract_lets +onlyGivenNames _ _ s2
  have hs2 : Kept s s2 := hs1.update
  exact hs2.setFld.emit

theorem Kept.faultFreeze {src inst : Nat} : Kept s (t.faultFreeze src inst) := by
  unfold State.faultFreeze
  refine .ite h ?_
  extract_lets +onlyGivenNames s1
  have hs1 : Kept s s1 := .stopOutputs (h.each (fun _ _ k => k.tileEvent.tileEvent))
  extract_lets +onlyGivenNames s2
  have hs2 : Kept s s2 := hs1.flushRing.stopRing
  extract_lets +onlyGivenNames _ s3
  have hs3 : Kept s s3 := hs2.update
  exact hs3.raise.postMortem.setFld

theorem Kept.warmFirmware : Kept s (t.warmFirmware) := by
  unfold State.warmFirmware
  split
  · refine .ite ?_ h
    extract_lets +onlyGivenNames svn _ s1
    have hs1 : Kept s s1 := h.update
    exact hs1.raise
  · exact h

theorem Kept.warmReset {cause src inst : Nat} {ladder : Bool} : Kept s (t.warmReset cause src inst ladder) := by
  unfold State.warmReset
  extract_lets +onlyGivenNames window recent
  refine .ite h (.ite h.powerCycle ?_)
  extract_lets +onlyGivenNames n _ s1
  have hs1 : Kept s s1 := h.update
  extract_lets +onlyGivenNames s2
  have hs2 : Kept s s2 := hs1.stopOutputs.postMortem.raise
  extract_lets +onlyGivenNames s3
  have hs3 : Kept s s3 := hs2.drainAll.flushRing.stopRing.ringOffsets.selfRefresh
  extract_lets +onlyGivenNames anchors losses idx s4
  have hs4 : Kept s s4 := hs3.engineReset
  extract_lets +onlyGivenNames _ _ s5
  have hs5 : Kept s s5 := hs4.update
  extract_lets +onlyGivenNames s6
  have hs6 : Kept s s6 := hs5.setFld.setFld.warmFirmware
  exact .ite hs6 (.ite hs6.update hs6.bringUp)

end

end Sys2Proof.Machine
end

section
/-! PROOFS. What the operations of Sys2Proof/Machine/Power.lean keep. -/

namespace Sys2Proof.Machine

section
set_option Elab.async false
variable {s t : State} (h : Kept s t)
include h

theorem Kept.urgent {i : Nat} : Kept s (t.urgent i) := by
  unfold State.urgent
  refine .ite h.addFld (.ite h.update ?_)
  extract_lets +onlyGivenNames s1
  have hs1 : Kept s s1 := h.when (fun _ k => k.setFld)
  extract_lets +onlyGivenNames _ s2
  have hs2 : Kept s s2 := hs1.update
  exact hs2.setFlag.setFld.timerSet

theorem Kept.setBit {f : Fld} {y : Nat} {b : Bool} : Kept s (t.setBit f y b) :=
  h.setFld

theorem Kept.standbyStart : Kept s (t.standbyStart) := by
  unfold State.standbyStart
  extract_lets +onlyGivenNames asked
  refine .ite h ?_
  split
  · exact h
  · extract_lets +onlyGivenNames _ _ s1
    have hs1 : Kept s s1 := h.update
    exact hs1.setFld.setFld.driveFault

theorem Kept.returnCount : Kept s (t.returnCount) :=
  .ite h.update h

theorem Kept.noReturn : Kept s (t.noReturn) :=
  h.update

theorem Kept.startMove {dest cause : Nat} : Kept s (t.startMove dest cause) := by
  unfold State.startMove
  extract_lets +onlyGivenNames s1
  have hs1 : Kept s s1 := h.noReturn
  extract_lets +onlyGivenNames _ s2
  have hs2 : Kept s s2 := hs1.update
  extract_lets +onlyGivenNames s3
  have hs3 : Kept s s3 := hs2.setFld.when (fun _ k => k.setFlag)
  exact hs3.urgent.urgent

theorem Kept.raiseAfter {t' : TimeState} {k : EventKind} {sev : Nat} {fs : List (Nat × Nat × Nat)} :
    Kept s (t.raiseAfter t' k sev fs) := by
  unfold State.raiseAfter
  extract_lets +onlyGivenNames s1
  have hs1 : Kept s s1 := .raiseSev h.update
  exact hs1.update

theorem Kept.bothFail : Kept s (t.bothFail) :=
  h.stopEngine.setFlag.raiseAfter

theorem Kept.inputLow {y : Nat} : Kept s (t.inputLow y) :=
  .ite h (.ite h.startMove h.bothFail)

theorem Kept.supplyIs {y : Nat} {good : Bool} : Kept s (t.supplyIs y good) := by
  unfold State.supplyIs
  extract_lets +onlyGivenNames s1
  have hs1 : Kept s s1 := h.setBit.setBit.setBit
  extract_lets +onlyGivenNames s2
  have hs2 : Kept s s2 := hs1.when (fun _ k => k.timerSet)
  extract_lets +onlyGivenNames s3
  have hs3 : Kept s s3 := .ite (.ite hs2.returnCount hs2.noReturn) hs2
  exact hs3.standbyStart

theorem Kept.execSupplyCmpCrossing {y : Fin 3} {good : Bool} : Answers s (execSupplyCmpCrossing y good t) :=
  Kept.next (.ite h h.supplyIs)

theorem Kept.execSupplySettleEnd {y state : Fin 3} : Answers s (execSupplySettleEnd y state t) :=
  Kept.next (.ite h (.ite h.setBit.setBit.setFlag.raise.standbyStart h.supplyIs))

theorem Kept.execSupplyQualifiedLow {y : Fin 2} : Answers s (execSupplyQualifiedLow y t) :=
  Kept.next (.ite h (.ite h.update h.inputLow))

theorem Kept.execSwitchMoveDone {ns : BitVec 32} : Answers s (execSwitchMoveDone ns t) := by
  unfold Machine.execSwitchMoveDone
  refine Kept.next ?_
  split
  · exact h
  · refine .ite h ?_
    extract_lets +onlyGivenNames ws _ s1
    have hs1 : Kept s s1 := h.update
    extract_lets +onlyGivenNames s2
    have hs2 : Kept s s2 := hs1.setFld.setFld
    extract_lets +onlyGivenNames s3
    have hs3 : Kept s s3 := hs2.addFld.stat
    extract_lets +onlyGivenNames s4
    have hs4 : Kept s s4 := hs3.setFlag.setReg
    extract_lets +onlyGivenNames fs s5
    have hs5 : Kept s s5 := .ite hs4.raise hs4.raise
    exact hs5.returnCount.over (fun _ _ k => k.inputLow)

theorem Kept.execReturnCountExpire : Answers s (execReturnCountExpire t) := by
  unfold Machine.execReturnCountExpire
  refine Kept.next ?_
  split
  · exact h
  · exact .ite h.startMove h

theorem Kept.pwrReturnA : Kept s (t.pwrReturnA) :=
  .ite h.startMove h

theorem Kept.execReturnA {path : Path} : Answers s (execReturnA path t) :=
  h.pwrReturnA.wrote.next

theorem Kept.pwrForceB : Kept s (t.pwrForceB) :=
  .ite h (h.setFlag.when (fun _ k => k.startMove))

theorem Kept.execForceB {path : Path} : Answers s (execForceB path t) :=
  h.pwrForceB.wrote.next

theorem Kept.powerDown : Kept s (t.powerDown) :=
  h.stopOutputs.drainAll.stopRing.engineOff

theorem Kept.pwrStandby {forced : Bool} : Kept s (t.pwrStandby forced) :=
  .ite h (.ite h.powerDown (.ite h (.emit h.update)))

theorem Kept.execPwrStandby {path : Path} {forced : Bool} : Answers s (execPwrStandby path forced t) :=
  h.pwrStandby.wrote.next

theorem Kept.execOsShutdownDone {reported : Bool} : Answers s (execOsShutdownDone reported t) := by
  unfold Machine.execOsShutdownDone
  refine Kept.next ?_
  split
  · exact h
  · exact .ite h.powerDown h

theorem Kept.pwrWake : Kept s (t.pwrWake) := by
  unfold State.pwrWake
  extract_lets +onlyGivenNames cool
  refine .ite h ?_
  extract_lets +onlyGivenNames _ _ s1
  have hs1 : Kept s s1 := h.update
  exact hs1.standbyStart

theorem Kept.execWake {path : Path} : Answers s (execWake path t) :=
  h.pwrWake.wrote.next

theorem Kept.execPwrCycle {path : Path} : Answers s (execPwrCycle path t) :=
  Kept.next (.wrote (.ite h h.powerCycle))

theorem Kept.execVhkLow {reading : BitVec 16} : Answers s (execVhkLow reading t) :=
  Kept.next (.ite h h.setBit.setFlag.raise.urgent)

theorem Kept.islandReset : Kept s t.islandReset := by
  unfold State.islandReset
  extract_lets +onlyGivenNames x s1 retired s2
  have hs1 : Kept s s1 := h.memory rfl (fun _ => Memory.wf_empty)
  have hs2 : Kept s s2 := hs1.over (fun _ _ k => k.setRole)
  exact hs2.when (fun _ k => k.emit)

theorem Kept.execVhkPowerLoss : Answers s (execVhkPowerLoss t) := by
  unfold Machine.execVhkPowerLoss
  refine Kept.next ?_
  extract_lets +onlyGivenNames s1
  have hs1 : Kept s s1 := h.islandReset
  exact hs1.update

theorem Kept.execVhkPowerOn : Answers s (execVhkPowerOn t) := by
  unfold Machine.execVhkPowerOn
  refine Kept.next (.ite ?_ h)
  extract_lets +onlyGivenNames s1
  have hs1 : Kept s s1 := .setFlag (.tinStart h.update)
  exact hs1.each (fun _ _ k => k.timerSet)

theorem Kept.railStop : Kept s (t.railStop) := by
  unfold State.railStop
  extract_lets +onlyGivenNames s1
  have hs1 : Kept s s1 := h.engineOff.driveFault
  exact hs1.update

theorem Kept.execRailStepDone : Answers s (execRailStepDone t) := by
  unfold Machine.execRailStepDone
  refine Kept.next (.ite h (.ite h.update ?_))
  extract_lets +onlyGivenNames _ s1
  have hs1 : Kept s s1 := h.update
  extract_lets +onlyGivenNames s2
  have hs2 : Kept s s2 := hs1.setFlag.emit
  exact .ite hs2.update hs2.bringUp

theorem Kept.execRailFail {rail : Fin 8} : Answers s (execRailFail rail t) :=
  Kept.next (.ite h h.railStop.raise)

theorem Kept.overtemp {t' : TimeState} {site sev : Nat} : Kept s (t.overtemp t' site sev) :=
  h.setFlag.raiseAfter

theorem Kept.execOvertempStop {site : Fin 40} : Answers s (execOvertempStop site t) := by
  unfold Machine.execOvertempStop
  refine Kept.next (.ite h ?_)
  extract_lets +onlyGivenNames s1
  have hs1 : Kept s s1 := h.powerDown.driveFault.overtemp
  exact hs1.update

theorem Kept.adcEffect {i v : Nat} : Kept s (t.adcEffect i v) := by
  unfold State.adcEffect
  refine .ite ?_ (.ite h.statMeasure (.ite h.statIn.stat.stat h))
  extract_lets +onlyGivenNames x t1 stop s1
  have hs1 : Kept s s1 := h.when (fun _ k => k.timerSet)
  extract_lets +onlyGivenNames _ s2
  have hs2 : Kept s s2 := hs1.update
  extract_lets +onlyGivenNames s3
  have hs3 : Kept s s3 := hs2.statIn
  extract_lets +onlyGivenNames m _ s4
  have hs4 : Kept s s4 := .ite hs3.setFld hs3
  exact .ite hs4.railStop.overtemp (.ite hs4.update (.ite hs4 (.overtemp hs4.update)))

theorem Kept.adcNext : Kept s (t.adcNext) := by
  unfold State.adcNext
  split
  · exact .ite h.setFld (.setFlag h.update)
  · exact h

theorem Kept.adcTick : Kept s (t.adcTick) := by
  unfold State.adcTick
  refine .ite (.ite h ?_) ?_
  · extract_lets +onlyGivenNames s1
    have hs1 : Kept s s1 := h.addFld
    split
    · exact .when hs1.update (fun _ k => k.raise)
  · extract_lets +onlyGivenNames _ s1
    have hs1 : Kept s s1 := h.update
    exact hs1.setFlag.when (fun _ k => k.adcNext.timerSet)

theorem Kept.execAdcPassTick : Answers s (execAdcPassTick t) :=
  Kept.next (.ite h h.timerSet.adcTick)

theorem Kept.adcDone {value : BitVec 16} : Kept s (t.adcDone value) := by
  unfold State.adcDone
  extract_lets +onlyGivenNames conv
  split
  · extract_lets +onlyGivenNames v _ s1
    have hs1 : Kept s s1 := h.update
    extract_lets +onlyGivenNames s2
    have hs2 : Kept s s2 := hs1.setFld.setFld.setFld
    extract_lets +onlyGivenNames s3
    have hs3 : Kept s s3 := by
      unfold s3
      split
      · exact hs2.setFld
      · exact hs2.setFlag.adcNext
    exact hs3.when (fun _ k => k.adcEffect)
  · extract_lets +onlyGivenNames i v s1
    have hs1 : Kept s s1 := h.setFld
    extract_lets +onlyGivenNames s2
    have hs2 : Kept s s2 := hs1.when (fun _ k => k.setFld)
    extract_lets +onlyGivenNames _ s3
    have hs3 : Kept s s3 := .adcNext hs2.update
    exact hs3.when (fun _ k => k.adcEffect)
  · exact h

theorem Kept.execAdcConversionDone {value : BitVec 16} : Answers s (execAdcConversionDone value t) :=
  Kept.next (.ite h.timerSet.adcDone h)

theorem Kept.execAdcUrgent {path : Path} {input : BitVec 6} : Answers s (execAdcUrgent path input t) :=
  h.urgent.wrote.next

end

end Sys2Proof.Machine
end

section
/-! PROOFS. What the operations of Sys2Proof/Machine/Security.lean keep. -/

namespace Sys2Proof.Machine

section
set_option Elab.async false
variable {s t : State} (h : Kept s t)
include h

theorem Kept.runFirmware {slot : Nat} : Kept s (t.runFirmware slot) :=
  h.setSec.raise.loadRecords.standbyStart

theorem Kept.romChoose {failed : Option Nat} : Kept s (t.romChoose failed) := by
  unfold State.romChoose
  refine .ite h.setSec ?_
  extract_lets +onlyGivenNames cs
  split
  · extract_lets +onlyGivenNames _ s1
    have hs1 : Kept s s1 := h.update
    exact hs1.driveFault.setSec
  · extract_lets +onlyGivenNames first pending s1
    have hs1 : Kept s s1 := h.when (fun _ k => k.setSec)
    extract_lets +onlyGivenNames s2
    have hs2 : Kept s s2 := by
      unfold s2
      split
      · exact .ite hs1 hs1.raise
      · exact hs1
    extract_lets +onlyGivenNames s3
    have hs3 : Kept s s3 := hs2.when (fun _ k => k.raise)
    exact hs3.runFirmware

theorem Kept.execRomBoot {bootsel : BitVec 3} : Answers s (execRomBoot bootsel t) :=
  Kept.next (.ite h h.setSec.romChoose)

theorem Kept.execBootWatchdog {bootsel : BitVec 3} : Answers s (execBootWatchdog bootsel t) :=
  Kept.next (.ite h h.islandReset.setSec.romChoose)

theorem Kept.execUartRecoveryImage {image : List Byte} : Answers s (execUartRecoveryImage image t) :=
  Kept.next (.ite h (.ite h.setSec.runFirmware h))

theorem Kept.bootEnded : Kept s (t.bootEnded) := by
  unfold State.bootEnded
  extract_lets +onlyGivenNames s1
  have hs1 : Kept s s1 := h.stacksWake
  split
  · exact .ite hs1.setSec hs1
  · exact hs1

theorem Kept.execOsReady : Answers s (execOsReady t) :=
  Kept.next (.ite h h.setSec)

theorem Kept.authFail {what : Nat} : Kept s (t.authFail what) :=
  h.raise

theorem Kept.platformWrite {b : List Byte} : Kept s (t.platformWrite b).2.2 := by
  unfold State.platformWrite
  split
  · split
    · exact Kept.toSnd h
    · exact Kept.toSnd h.setSec
  · split
    · exact Kept.toSnd h
    · split
      · exact Kept.toSnd h.authFail
      · exact Kept.toSnd h.setSec

theorem Kept.setOwner {o : Option Owner} {seq how : Nat} : Kept s (t.setOwner o seq how) := by
  unfold State.setOwner
  extract_lets +onlyGivenNames s1
  have hs1 : Kept s s1 := h.setSec
  split
  · exact hs1.setFld.setFld.raise

theorem Kept.ownerInstall {b : List Byte} : Kept s (t.ownerInstall b).2.2 := by
  unfold State.ownerInstall
  split
  · exact h
  · split
    · exact h.authFail
    · exact h.setOwner

theorem Kept.ownerUpdate {b : List Byte} : Kept s (t.ownerUpdate b).2.2 := by
  unfold State.ownerUpdate
  split
  · exact h
  · exact h.authFail
  · split
    · exact h.setOwner
    · exact h.authFail

theorem Kept.ownerClear {b : List Byte} : Kept s (t.ownerClear b).2.2 := by
  unfold State.ownerClear
  split
  · exact h
  · split
    · exact h.setOwner
    · split
      · exact h.setOwner
      · exact h.authFail

theorem Kept.fwWrite {b : List Byte} : Kept s (t.fwWrite b).2.2 := by
  unfold State.fwWrite
  extract_lets +onlyGivenNames slot off data
  split
  · exact Kept.toSnd h
  · split
    · exact Kept.toSnd h
    · extract_lets +onlyGivenNames at_ put
      exact Kept.toSnd h.setSec

theorem Kept.fwActivate {b : List Byte} : Kept s (t.fwActivate b).2.2 := by
  unfold State.fwActivate
  split
  · exact Kept.toSnd h
  · exact Kept.toSnd h.setSec

theorem Kept.fuse {counter old v : Nat} {ok : Bool} {set : SecState → SecState} :
    Kept s (t.fuse counter old v ok set).2.2 := by
  unfold State.fuse
  split
  · exact h
  · split
    · exact h.setSec.raise
    · exact h.raise

theorem Kept.lockFw {ok : Bool} : Kept s (t.lockFw ok).2.2 :=
  h.fuse

theorem Kept.lockOwner {ok : Bool} : Kept s (t.lockOwner ok).2.2 := by
  unfold State.lockOwner
  split
  · exact h
  · exact h.fuse

theorem Kept.attest {b : List Byte} : Kept s (t.attest b).2.2 := by
  unfold State.attest
  split
  · exact h
  · exact h

theorem Kept.czCalExport {b : List Byte} : Kept s (t.czCalExport b).2.2 := by
  unfold State.czCalExport
  split
  · exact h
  · exact h

theorem Kept.drawChal : Kept s (t.drawChal).2 := by
  unfold State.drawChal
  extract_lets +onlyGivenNames c s1
  have hs1 : Kept s s1 := h.update
  exact hs1.setSec.each (fun _ _ k => k.setReg)

theorem Kept.chalCmd : Kept s (t.chalCmd) :=
  .ite h.drawChal h.setSec

theorem Kept.debugChal {src : CzSource} {req : Nat} : Kept s (t.debugChal src req) := by
  unfold State.debugChal
  refine .ite ?_ h.setSec
  extract_lets +onlyGivenNames r
  have hr : Kept s r.2 := h.drawChal
  exact hr.czAnswer

theorem Kept.debugToken {b : List Byte} : Kept s (t.debugToken b).2.2 := by
  unfold State.debugToken
  split
  · exact h.setSec.raise
  · exact h.setSec.authFail

theorem Kept.debugClose : Kept s (t.debugClose) :=
  h.setSec

theorem Kept.execDebugClose {path : Path} : Answers s (execDebugClose path t) :=
  h.debugClose.wrote.next

theorem Kept.execDebugLifeExpire : Answers s (execDebugLifeExpire t) :=
  Kept.next (.ite h.debugClose h)

theorem Kept.execDebugChalExpire : Answers s (execDebugChalExpire t) := by
  unfold Machine.execDebugChalExpire
  refine Kept.next ?_
  split
  · exact .ite h.setSec h
  · exact h

theorem Kept.execTrngFail {adaptive : Bool} : Answers s (execTrngFail adaptive t) :=
  Kept.next (.ite h h.setSec.raise)

theorem Kept.trngServe {a : TrngAsk} : Kept s (t.trngServe a) := by
  unfold State.trngServe
  split
  · exact h.debugChal
  · split
    · exact h.emit
    · exact h
  · exact h.drawChal
  · exact h.fabStart
  · exact h.nvmFormat

theorem Kept.execTrngRecovered : Answers s (execTrngRecovered t) :=
  Kept.next (.ite h (h.setSec.over (fun _ _ k => k.trngServe)))

theorem Kept.execAttest {src : CzSource} {req : BitVec 64} {body : List Byte} : Answers s (execAttest src req body t) :=
  Kept.next (h.czRun (fun _ k => k.attest))

theorem Kept.execGetCert {src : CzSource} {req : BitVec 64} : Answers s (execGetCert src req t) :=
  Kept.next (h.czRun (fun _ k => k))

theorem Kept.execCzCalExport {src : CzSource} {req : BitVec 64} {body : List Byte} :
    Answers s (execCzCalExport src req body t) :=
  Kept.next (h.czRun (fun _ k => k.czCalExport))

theorem Kept.execFwWrite {src : CzSource} {req : BitVec 64} {body : List Byte} :
    Answers s (execFwWrite src req body t) :=
  Kept.next (h.czRun (fun _ k => k.fwWrite))

theorem Kept.execFwActivate {src : CzSource} {req : BitVec 64} {body : List Byte} :
    Answers s (execFwActivate src req body t) :=
  Kept.next (h.czRun (fun _ k => k.fwActivate))

theorem Kept.execLockFw {src : CzSource} {req : BitVec 64} {ok : Bool} : Answers s (execLockFw src req ok t) :=
  Kept.next (h.czRun (fun _ k => k.lockFw))

theorem Kept.execLockOwner {src : CzSource} {req : BitVec 64} {ok : Bool} : Answers s (execLockOwner src req ok t) :=
  Kept.next (h.czRun (fun _ k => k.lockOwner))

theorem Kept.execPlatformWrite {src : CzSource} {req : BitVec 64} {body : List Byte} :
    Answers s (execPlatformWrite src req body t) :=
  Kept.next (h.czRun (fun _ k => k.platformWrite))

theorem Kept.execOwnerInstall {src : CzSource} {req : BitVec 64} {body : List Byte} :
    Answers s (execOwnerInstall src req body t) :=
  Kept.next (h.czRun (fun _ k => k.ownerInstall))

theorem Kept.execOwnerUpdate {src : CzSource} {req : BitVec 64} {body : List Byte} :
    Answers s (execOwnerUpdate src req body t) :=
  Kept.next (h.czRun (fun _ k => k.ownerUpdate))

theorem Kept.execOwnerClear {src : CzSource} {req : BitVec 64} {body : List Byte} :
    Answers s (execOwnerClear src req body t) :=
  Kept.next (h.czRun (fun _ k => k.ownerClear))

theorem Kept.execDebugChal {src : CzSource} {req : BitVec 64} : Answers s (execDebugChal src req t) :=
  Kept.next (h.czRequest (fun _ k => k.debugChal))

theorem Kept.execDebugToken {src : CzSource} {req : BitVec 64} {body : List Byte} :
    Answers s (execDebugToken src req body t) :=
  Kept.next (h.czRun (fun _ k => k.debugToken))

theorem Kept.secCommand {op len : Nat} : Kept s (t.secCommand op len) := by
  unfold State.secCommand
  extract_lets +onlyGivenNames a b s1
  have hs1 : Kept s s1 := h.when (fun _ k => k.readBy)
  split
  next d s2 e =>
  have hs2 : Kept s s2 := .pair e hs1.draw
  extract_lets +onlyGivenNames ok run
  have hrun : ∀ {α : Type} (f : State → α → Nat × List Byte × State) (x : α),
      (∀ u, Kept s u → Kept s (f u x).2.2) → Kept s (run (f · x)) := fun _ _ hf => hs2.czRun hf
  refine .ite (hrun State.attest b fun _ k => k.attest) ?_
  refine .ite (hrun (fun u (_ : Unit) => (czOK, Config.certificate, u)) () fun _ k => k) ?_
  refine .ite (hrun State.czCalExport b fun _ k => k.czCalExport) ?_
  refine .ite (hrun State.fwWrite b fun _ k => k.fwWrite) ?_
  refine .ite (hrun State.fwActivate b fun _ k => k.fwActivate) ?_
  refine .ite (hrun State.lockFw ok fun _ k => k.lockFw) ?_
  refine .ite (hrun State.lockOwner ok fun _ k => k.lockOwner) ?_
  refine .ite (hrun State.platformWrite b fun _ k => k.platformWrite) ?_
  refine .ite (hrun State.ownerInstall b fun _ k => k.ownerInstall) ?_
  refine .ite (hrun State.ownerUpdate b fun _ k => k.ownerUpdate) ?_
  refine .ite (hrun State.ownerClear b fun _ k => k.ownerClear) ?_
  refine .ite (hs2.czRequest (fun _ k => k.debugChal)) ?_
  exact .ite (hrun State.debugToken b fun _ k => k.debugToken) hs2

theorem Kept.execCzSessionConnect {conn : Nat} {key issuer : List Byte} :
    Answers s (execCzSessionConnect conn key issuer t) :=
  Kept.next (.ite h (.ite h.setSec h.authFail))

theorem Kept.execCzOpen {conn : Nat} {req : BitVec 64} : Answers s (execCzOpen conn req t) := by
  unfold Machine.execCzOpen
  refine Kept.next (.ite h ?_)
  split
  · next d s1 heq =>
      have hs1 : Kept s s1 := .pair heq (h.draw)
      exact hs1.setSec.czAnswer

theorem Kept.execSessionResume {conn : Nat} {req sid : BitVec 64} : Answers s (execSessionResume conn req sid t) := by
  unfold Machine.execSessionResume
  extract_lets +onlyGivenNames fits
  refine Kept.next (.ite h ?_)
  split
  · exact h.emit
  · exact h.setSec.czAnswer

theorem Kept.execCzSessionEnd {conn : Nat} : Answers s (execCzSessionEnd conn t) :=
  h.modSession.setSec.next

theorem Kept.execEvqSubscribe {conn : Nat} {req : BitVec 64} {floor : BitVec 8} :
    Answers s (execEvqSubscribe conn req floor t) :=
  Kept.next (h.czRun (fun _ k => k.modSession))

theorem Kept.mboxRun {b : List Byte} : Kept s (t.mboxRun b) :=
  .ite h.czAnswer (.ite (h.czRequest (fun _ k => k.debugChal)) (h.czRun (fun _ k => k.debugToken)))

theorem Kept.execMboxWord {valid last : Bool} {word : BitVec 32} : Answers s (execMboxWord valid last word t) := by
  unfold Machine.execMboxWord
  refine Kept.next (.ite h ?_)
  extract_lets +onlyGivenNames s1
  have hs1 : Kept s s1 := by
    unfold s1
    split
    · exact h.emit
    · exact h.emit.setSec
  exact .ite hs1 (.ite hs1.setSec hs1.setSec.setSec.mboxRun)

end

end Sys2Proof.Machine
end

section
/-! PROOFS. What the operations of Sys2Proof/Machine/Video.lean keep. -/

namespace Sys2Proof.Machine

section
set_option Elab.async false
variable {s t : State} (h : Kept s t)
include h

theorem Kept.fetchEnd {d : Nat} : Kept s (t.fetchEnd d) :=
  h.setScan.over (fun _ _ k => k.readBy)

theorem Kept.fetchLines {d upto : Nat} : Kept s (t.fetchLines d upto) :=
  h.setScan

theorem Kept.fetchTick {d : Nat} : Kept s (t.fetchTick d) :=
  .ite h (.ite h.setScan h.fetchEnd.fetchLines)

theorem Kept.latchCrc {d err : Nat} : Kept s (t.latchCrc d err) := by
  unfold State.latchCrc
  extract_lets +onlyGivenNames x s1 _ src
  have hs1 : Kept s s1.2 := h.draw
  have hsrc : Kept s src.2.2.2 := by
    unfold src
    split
    · exact hs1
    · exact h
  extract_lets +onlyGivenNames s2
  have hs2 : Kept s s2 := hsrc
  extract_lets +onlyGivenNames rg s3
  have hs3 : Kept s s3 := hs2.setReg.setReg
  exact .ite (.ite hs3.setReg.setReg.setFlag hs3.setReg.setReg.setFlag.addFld.raise) hs3.setFlag

theorem Kept.flipRetired {d addr frame : Nat} {skipped : Bool} : Kept s (t.flipRetired d addr frame skipped) :=
  h.setFld.raise

theorem Kept.baseSkipped {d : Nat} {l : List (Nat × Nat)} : Kept s (t.baseSkipped d l) := by
  unfold State.baseSkipped
  refine h.over (fun _ _ k => ?_)
  extract_lets +onlyGivenNames v
  have hv : Kept s v.2 := k.draw
  exact hv.flipRetired

theorem Kept.baseCommit {d addr : Nat} : Kept s (t.baseCommit d addr) :=
  h.setFld.setScan.setFlag.baseSkipped

theorem Kept.baseTick {d : Nat} : Kept s (t.baseTick d) :=
  .ite h h.setScan.baseSkipped

theorem Kept.execVidBaseCommit {path : Path} {d : Fin 2} {value : BitVec 32} :
    Answers s (execVidBaseCommit path d value t) :=
  h.baseCommit.wrote.next

theorem Kept.latchOverlays {d : Nat} : Kept s (t.latchOverlays d) :=
  h.each (fun _ _ k => k.setOpal)

theorem Kept.vidLatch {d err : Nat} : Kept s (t.vidLatch d err) := by
  unfold State.vidLatch
  extract_lets +onlyGivenNames s1 s2 s3 start f
  have hs1 : Kept s s1 := h.fetchEnd
  have hs2 : Kept s s2 := hs1.when (fun _ k => k.fetchLines.fetchEnd)
  have hs3 : Kept s s3 := hs2.latchCrc
  extract_lets +onlyGivenNames s4
  have hs4 : Kept s s4 := by
    unfold s4
    split
    · exact hs3.setReg.setReg.update
    · exact hs3
  extract_lets +onlyGivenNames s5 x
  have hs5 : Kept s s5 := hs4.setReg64
  extract_lets +onlyGivenNames old rest u put s6
  have hput : ∀ {v : State} {n m : Nat}, Kept s v → Kept s (put v n m) := fun k => k.setReg
  have hs6 : Kept s s6 := by
    unfold s6
    split
    · extract_lets +onlyGivenNames s7 s8
      have hs7 : Kept s s7 := hs5.setScan
      have hs8 : Kept s s8 := hs7.setFlag.setFld.setFld
      exact hput (hput (hput (hput hs8)))
    · exact hs5
  extract_lets +onlyGivenNames _ s7 s8 _ s9
  have hs7 : Kept s s7 := hs6.setScan
  have hs8 : Kept s s8 := hs7.latchOverlays
  have hs9 : Kept s s9 := hs8.setScan
  exact hs9.each (fun _ _ k => k.when (fun _ l => l.oplRequest))

theorem Kept.execVidLatch {d : Fin 2} {pinError : BitVec 48} : Answers s (execVidLatch d pinError t) :=
  Kept.next (.ite h.vidLatch h)

theorem Kept.execFlipRetired {d : Fin 2} {rend : Option (Fin 16)} : Answers s (execFlipRetired d rend t) := by
  unfold Machine.execFlipRetired
  extract_lets +onlyGivenNames d
  refine Kept.next ?_
  split
  · extract_lets +onlyGivenNames x
    split
    · exact h
    · exact h.setScan.flipRetired
  · exact h.setOpal

theorem Kept.execHpdChange {d : Fin 2} {hpd : Hpd} : Answers s (execHpdChange d hpd t) := by
  unfold Machine.execHpdChange
  extract_lets +onlyGivenNames d x level
  have hlevel : ∀ x1, Kept s (level x1) := fun _ => h.setFlag.raise
  refine Kept.next ?_
  split
  · exact .ite h (.setScan (hlevel _))
  · exact .ite h (.setFlag (.setScan (hlevel _)))
  · exact .ite h h.setScan.setFlag

theorem Kept.execLinkTrainDone {d : Fin 2} {sinkRate : Fin 4} {sinkLanes : Fin 3} {passed : Bool} :
    Answers s (execLinkTrainDone d sinkRate sinkLanes passed t) := by
  unfold Machine.execLinkTrainDone
  extract_lets +onlyGivenNames d x
  refine Kept.next (.ite h ?_)
  extract_lets +onlyGivenNames s1
  have hs1 : Kept s s1 := h.setScan
  split
  · exact hs1.raise
  · exact .ite hs1.raise hs1.setFlag.setFld.setFld.raise

theorem Kept.execUnderrun {d : Fin 2} {line x : Nat} : Answers s (execUnderrun d line x t) :=
  Kept.next (.ite h (h.setScan.addFld.when (fun _ k => k.raise)))

end

end Sys2Proof.Machine
end

section
/-! PROOFS. What the operations of Sys2Proof/Machine/Staging.lean keep. -/

namespace Sys2Proof.Machine

section
set_option Elab.async false
variable {s t : State} (h : Kept s t)
include h

theorem Kept.stageBits {k : RegKey} {mask v : Nat} {from_ : Option (Nat × Nat)} :
    Kept s (t.stageBits k mask v from_) := by
  unfold State.stageBits
  extract_lets +onlyGivenNames old s1
  have hs1 : Kept s s1 := h.stage
  exact hs1.update

theorem Kept.stageWord {k : RegKey} {v : Option (Nat × Nat × Nat)} : Kept s (t.stageWord k v) := by
  unfold State.stageWord
  extract_lets +onlyGivenNames m
  split
  · exact h.stageBits
  · exact h.stageBits

theorem Kept.resetSettings {l : List Section} : Kept s (t.resetSettings l) :=
  .ite h (h.over (fun _ _ k => .ite k (k.each (fun _ _ l => l.stageBits))))

theorem Kept.stageSettings {l : List Section} : Kept s (t.stageSettings l) := by
  unfold State.stageSettings
  split
  · exact h
  · refine h.each (fun _ _ k => ?_)
    split
    · exact k.stageBits
    · exact k

theorem Kept.stageModes {l : List Section} : Kept s (t.stageModes l) := by
  unfold State.stageModes
  split
  · exact h
  · exact h.each (fun _ _ k => k.stageBits)

theorem Kept.stageGroup {x : Option (Section × Nat)} {base : Nat} {keys : List RegKey} :
    Kept s (t.stageGroup x base keys) :=
  h.over (fun _ _ k => k.stageWord)

theorem Kept.stageCombiner {l : List Section} : Kept s (t.stageCombiner l) := by
  unfold State.stageCombiner
  extract_lets +onlyGivenNames x mask cells defs s1
  have hs1 : Kept s s1 := h.each (fun _ _ k => k.stageGroup)
  exact hs1.each (fun _ _ k => k.stageGroup)

theorem Kept.stageDisplay {l : List Section} : Kept s (t.stageDisplay l) := by
  unfold State.stageDisplay
  extract_lets +onlyGivenNames x
  split
  · extract_lets +onlyGivenNames s1
    have hs1 : Kept s s1 := by
      unfold s1
      refine h.each (fun _ _ k => ?_)
      extract_lets +onlyGivenNames p y
      refine .ite k ?_
      extract_lets +onlyGivenNames s1
      have hs1 : Kept s s1 := k.stageGroup
      extract_lets +onlyGivenNames noStep s2
      have hs2 : Kept s s2 := .ite hs1.update hs1
      exact hs2.each (fun _ _ l => l.stageWord)
    exact hs1.each (fun _ _ k => k.stageGroup)

theorem Kept.stagePantry {l : List Section} : Kept s (t.stagePantry l) :=
  h.stageGroup

theorem Kept.stageGt {k : RegKey} {v : Option (Nat × Nat × Nat)} : Kept s (t.stageGt k v) :=
  .ite h h.stageBits

theorem Kept.stageGroupProgram {l : List Section} {g : Nat} : Kept s (t.stageGroupProgram l g) := by
  unfold State.stageGroupProgram
  extract_lets +onlyGivenNames n word prog uc s1
  have hs1 : Kept s s1 := h.stageGt.each (fun _ _ k => k.stageGt)
  extract_lets +onlyGivenNames s2
  have hs2 : Kept s s2 := hs1.each (fun _ _ k => k.stageGt.stageGt)
  exact hs2.update

theorem Kept.stageImage {b : List Byte} : Kept s (t.stageImage b) := by
  unfold State.stageImage
  extract_lets +onlyGivenNames l _ s1
  have hs1 : Kept s s1 := h.update
  exact hs1.resetSettings.stageModes.stageCombiner.stageDisplay.stagePantry.stageSettings.each
    (fun _ _ k => k.stageGroupProgram)

theorem Kept.takeStaged : Kept s (t.takeStaged) := by
  unfold State.takeStaged
  extract_lets +onlyGivenNames gt t1
  have ht1 : Kept s t1 := h.over (fun _ _ k => k.takeWord)
  extract_lets +onlyGivenNames t12
  have ht12 : Kept s t12 := ht1.update
  extract_lets +onlyGivenNames t13
  have ht13 : Kept s t13 := ht12.each (fun _ _ k => k.setFld.setFld)
  split
  · extract_lets +onlyGivenNames _ t14
    have ht14 : Kept s t14 := ht13.update
    exact ht14.setFld
  · exact ht13

end

end Sys2Proof.Machine
end

section
/-! PROOFS. What the operations of Sys2Proof/Machine/Validate.lean keep. -/

namespace Sys2Proof.Machine

section
set_option Elab.async false
variable {s t : State} (h : Kept s t)
include h

theorem Kept.validateImage {b : List Byte} {len : Nat} : Kept s (t.validateImage b len).2 :=
  h.stageImage

end

end Sys2Proof.Machine
end

section
/-! PROOFS. What the operations of Sys2Proof/Machine/Program.lean keep. -/

namespace Sys2Proof.Machine

section
set_option Elab.async false
variable {s t : State} (h : Kept s t)
include h

theorem Kept.enterHeld {cause : Nat} : Kept s (t.enterHeld cause) := by
  unfold State.enterHeld
  refine .ite (.raise ?_) h
  extract_lets +onlyGivenNames s1
  have hs1 : Kept s s1 := h.stopOutputs
  exact hs1.update

theorem Kept.refuse {fs : List Failure} : Kept s (t.refuse fs) := by
  unfold State.refuse
  extract_lets +onlyGivenNames bs s1
  have hs1 : Kept s s1 := .ite h.devPut h
  exact hs1.setFld.setReg.raise

theorem Kept.reject : Kept s (t.reject) :=
  h.setFlag

theorem Kept.prgLoad : Kept s (t.prgLoad) := by
  unfold State.prgLoad
  extract_lets +onlyGivenNames a n ok t1
  have ht1 : Kept s t1 := h.when (fun _ k => k.readBy)
  exact .ite h.reject ht1.setProg

theorem Kept.prgVia {via : Via} {f : State → State} (hf : ∀ u, Kept s u → Kept s (f u)) :
    Kept s (t.prgVia via f) := by
  unfold State.prgVia
  split
  · exact (hf t h).wrote
  · exact h.czRun (fun u k => hf u k)

theorem Kept.execPrgLoad {via : Via} : Answers s (execPrgLoad via t) :=
  Kept.next (h.prgVia (fun _ k => k.prgLoad))

theorem Kept.loaded {b : List Byte} : Kept s (t.loaded b) :=
  h.setFld.setReg.raise

theorem Kept.execPrgValidationEnd : Answers s (execPrgValidationEnd t) := by
  unfold Machine.execPrgValidationEnd
  refine Kept.next ?_
  split
  · exact h
  · extract_lets +onlyGivenNames s1
    have hs1 : Kept s s1 := h.setProg
    split
    · next fs t1 heq =>
        have ht1 : Kept s t1 := .pair heq (hs1.validateImage)
        exact .ite ht1.loaded hs1.refuse

theorem Kept.prgCommit {epoch : Option Nat} : Kept s (t.prgCommit epoch) :=
  .ite h.reject h.setProg

theorem Kept.execPrgCommit {via : Via} {atEpoch : Bool} : Answers s (execPrgCommit via atEpoch t) :=
  Kept.next (h.prgVia (fun _ k => k.prgCommit))

theorem Kept.switchNumber {after : Nat} : Kept s (t.switchNumber after).2 := by
  unfold State.switchNumber
  extract_lets +onlyGivenNames p
  split
  · exact h
  · extract_lets +onlyGivenNames r
    have hr : Kept s r.2 := h.draw
    exact hr

theorem Kept.accept {epoch : Option Nat} {boot : Bool} : Kept s (t.accept epoch boot) := by
  unfold State.accept
  extract_lets +onlyGivenNames after s1
  have hs1 : Kept s s1 := h.setProg
  extract_lets +onlyGivenNames s2
  have hs2 : Kept s s2 := hs1.setFld.setReg
  split
  · next n s3 heq =>
      have hs3 : Kept s s3 := by
        refine .pair heq ?_
        split
        · exact hs2
        · exact hs2.switchNumber
      exact hs3.raise.migCancel

theorem Kept.execCommitValidationEnd : Answers s (execCommitValidationEnd t) := by
  unfold Machine.execCommitValidationEnd
  refine Kept.next ?_
  split
  · exact h
  · exact .ite h (.ite h.accept h.setProg.refuse.enterHeld)

theorem Kept.prgAbort : Kept s (t.prgAbort) := by
  unfold State.prgAbort
  refine .ite h.reject ?_
  extract_lets +onlyGivenNames s1
  have hs1 : Kept s s1 := h.setProg
  exact hs1.update

theorem Kept.execPrgAbort {via : Via} : Answers s (execPrgAbort via t) :=
  Kept.next (h.prgVia (fun _ k => k.prgAbort))

theorem Kept.prgResume : Kept s (t.prgResume) :=
  .ite h.setProg h.reject

theorem Kept.execPrgResume {via : Via} : Answers s (execPrgResume via t) :=
  Kept.next (h.prgVia (fun _ k => k.prgResume))

theorem Kept.prgHold : Kept s (t.prgHold) :=
  .ite h h.enterHeld

theorem Kept.execPrgHold {via : Via} : Answers s (execPrgHold via t) :=
  Kept.next (h.prgVia (fun _ k => k.prgHold))

theorem Kept.prgStore : Kept s (t.prgStore) := by
  unfold State.prgStore
  split
  · exact .ite h.setProg h.reject
  · exact h.reject

theorem Kept.execStoreBoot {via : Via} : Answers s (execStoreBoot via t) :=
  Kept.next (h.prgVia (fun _ k => k.prgStore))

theorem Kept.execBootStoreDone {ok : Bool} : Answers s (execBootStoreDone ok t) := by
  unfold Machine.execBootStoreDone
  refine Kept.next ?_
  split
  · exact h.setProg
  · exact h

theorem Kept.prgCmd {v : Nat} : Kept s (t.prgCmd v) := by
  unfold State.prgCmd
  split
  · exact h.prgLoad
  · exact h.prgCommit
  · exact h.prgAbort
  · exact h.prgResume
  · exact h.prgHold
  · exact h.prgStore
  · exact h

theorem Kept.bootProgram {auto : Nat} : Kept s (t.bootProgram auto) := by
  unfold State.bootProgram
  extract_lets +onlyGivenNames b
  refine .ite h.enterHeld.bootEnded ?_
  split
  · next fs t1 heq =>
      have ht1 : Kept s t1 := .pair heq (h.validateImage)
      exact .ite h.refuse.enterHeld.bootEnded (.ite h.enterHeld.bootEnded ht1.loaded.accept)

theorem Kept.pairFirst {a : RegKey} {v : Nat} : Kept s (t.pairFirst a v) :=
  h.update

theorem Kept.pairSecond {a b : RegKey} {v : Nat} : Kept s (t.pairSecond a b v) :=
  h.update

theorem Kept.pairFirstReg {a : RegKey} {v : Nat} : Kept s (t.pairFirstReg a v) :=
  .ite (h.over (fun _ _ k => k.pairFirst)) h.pairFirst

theorem Kept.pairSecondReg {a b : RegKey} {v : Nat} : Kept s (t.pairSecondReg a b v) :=
  .ite (h.over (fun _ _ k => k.pairSecond)) (.ite h h.pairSecond)

theorem Kept.paramWrite {n p v : Nat} : Kept s (t.paramWrite n p v) := by
  unfold State.paramWrite
  extract_lets +onlyGivenNames t1 even
  refine .ite ?_ (h.over (fun _ _ k => .ite k.setTile (.ite k.setTile k.setTile)))
  split
  · exact h.setProg
  · exact h.setTile

theorem Kept.execParamWrite {path : Path} {tile : Fin 68} {p : BitVec 8} {value : BitVec 32} :
    Answers s (execParamWrite path tile p value t) :=
  h.paramWrite.emit.next

theorem Kept.pairWrite {path : Path} {pair : LvPair} {second : Bool} {v : Nat} :
    Kept s (t.pairWrite path pair second v) := by
  unfold State.pairWrite
  split
  · exact h.paramWrite.emit
  · exact .ite h.pairSecondReg.wrote h.pairFirstReg.wrote
  · exact h

theorem Kept.execPairFirstWrite {path : Path} {pair : LvPair} {value : BitVec 32} :
    Answers s (execPairFirstWrite path pair value t) :=
  h.pairWrite.next

theorem Kept.execPairSecondWrite {path : Path} {pair : LvPair} {value : BitVec 32} :
    Answers s (execPairSecondWrite path pair value t) :=
  h.pairWrite.next

end

end Sys2Proof.Machine
end

section
/-! PROOFS. What the operations of Sys2Proof/Machine/Recovery.lean keep. -/

namespace Sys2Proof.Machine

section
set_option Elab.async false
variable {s t : State} (h : Kept s t)
include h

theorem Kept.bypLost : Kept s (t.bypLost) := by
  unfold State.bypLost
  exact .when h.bypUnlock (fun _ k => k.faultFreeze)

theorem Kept.execPllPhaseUnlock {loop : Loop} : Answers s (execPllPhaseUnlock loop t) := by
  unfold Machine.execPllPhaseUnlock
  refine Kept.next ?_
  split
  · exact h.jcUnlock
  · exact .ite (.relockCause h.setFlag) h
  · exact h.bypLost
  · exact h.setClk
  · exact h.setClk
  · exact h.setClk
  · exact h.setClk
  · exact h.setClk

theorem Kept.execBypUnlock : Answers s (execBypUnlock t) := by
  unfold Machine.execBypUnlock
  exact h.bypLost.next

theorem Kept.execFaultFreeze {source : Fin 22} {inst : BitVec 10} : Answers s (execFaultFreeze source inst t) :=
  h.faultFreeze.next

theorem Kept.execSafeHoldExpire : Answers s (execSafeHoldExpire t) := by
  unfold Machine.execSafeHoldExpire
  refine Kept.next ?_
  split
  · exact h
  · exact .ite h.warmReset h

theorem Kept.rcvHold : Kept s (t.rcvHold) :=
  .ite h.update h

theorem Kept.execRcvHold {path : Path} : Answers s (execRcvHold path t) :=
  h.rcvHold.wrote.next

theorem Kept.rcvWarm : Kept s (t.rcvWarm) :=
  h.warmReset

theorem Kept.execRcvWarm {path : Path} : Answers s (execRcvWarm path t) :=
  h.rcvWarm.wrote.next

theorem Kept.execRcvPwrCycle {path : Path} : Answers s (execRcvPwrCycle path t) :=
  Kept.next (.wrote (.ite h h.powerCycle))

theorem Kept.execResetNLow : Answers s (execResetNLow t) :=
  Kept.next (.ite h (.warmReset h.update))

theorem Kept.execResetNRise : Answers s (execResetNRise t) := by
  unfold Machine.execResetNRise
  refine Kept.next (.ite h ?_)
  extract_lets +onlyGivenNames _ s1
  have hs1 : Kept s s1 := h.update
  exact .ite (.bringUp hs1.update) hs1.standbyStart

theorem Kept.execWarmResetTimeout : Answers s (execWarmResetTimeout t) := by
  unfold Machine.execWarmResetTimeout
  refine Kept.next ?_
  split
  · exact h
  · exact .ite h.powerCycle (.ite h h.powerCycle)

theorem Kept.execPwrCycleIgnored : Answers s (execPwrCycleIgnored t) := by
  unfold Machine.execPwrCycleIgnored
  refine Kept.next ?_
  split
  · exact h
  · refine .ite h ?_
    extract_lets +onlyGivenNames _ _ s1
    have hs1 : Kept s s1 := h.update
    exact hs1.emit.driveFault

theorem Kept.execPcHoldExpire {h' : Fin 128} : Answers s (execPcHoldExpire h' t) := by
  unfold Machine.execPcHoldExpire
  extract_lets +onlyGivenNames h1 times due
  refine Kept.next (.ite h ?_)
  split
  · extract_lets +onlyGivenNames _ s1
    have hs1 : Kept s s1 := h.update
    exact .ite hs1.pcRetired hs1.pcReleased

theorem Kept.execReinitTimeout {unit : ReinitUnit} : Answers s (execReinitTimeout unit t) := by
  unfold Machine.execReinitTimeout
  extract_lets +onlyGivenNames relock
  refine Kept.next ?_
  split
  · exact .ite h.tileRetire h
  · exact .ite h.setPc.lossSync.unitFailed h
  · exact .ite h.linkDrop.reinit.linkBegin h
  · exact .ite h.warmReset h
  · split
    · exact .ite (.oplRetire h.update) h
    · exact h
  · split
    · exact .ite h.warmReset h
    · exact h
  · split
    · exact .ite h.warmReset h
    · exact h

end

end Sys2Proof.Machine
end

section
/-! PROOFS. What the operations of Sys2Proof/Machine/Boot.lean keep. -/

namespace Sys2Proof.Machine

section
set_option Elab.async false
variable {s t : State} (h : Kept s t)
include h

theorem Kept.execBootEnd {gpio : BitVec 12} : Answers s (execBootEnd gpio t) := by
  unfold Machine.execBootEnd
  refine Kept.next (.ite h ?_)
  extract_lets +onlyGivenNames s1
  have hs1 : Kept s s1 := h.loadPci.fabStrap
  extract_lets +onlyGivenNames _ s2
  have hs2 : Kept s s2 := hs1.update
  exact hs2.setFld.bootProgram

end

end Sys2Proof.Machine
end

section
/-! PROOFS. What the operations of Sys2Proof/Machine/Comparator.lean keep. -/

namespace Sys2Proof.Machine

section
set_option Elab.async false
variable {s t : State} (h : Kept s t)
include h

theorem Kept.cmpTake {c : Nat} {above v : Bool} : Kept s (t.cmpTake c above v) :=
  .ite h h.setFlag.level.stat

theorem Kept.execComparatorCrossing {ch : Fin 256} {above raw : Bool} :
    Answers s (execComparatorCrossing ch above raw t) :=
  Kept.next (.ite h.setCmp h.setCmp.setFlag.setFlag)

theorem Kept.execComparatorAccept {ch : Fin 256} {above : Bool} {samples : BitVec 5} :
    Answers s (execComparatorAccept ch above samples t) :=
  Kept.next (.ite h h.cmpTake.setCmp)

theorem Kept.execComparatorBlankEnd {ch : Fin 256} {above : Bool} : Answers s (execComparatorBlankEnd ch above t) :=
  Kept.next (.ite h.setCmp h)

theorem Kept.execCmpSettleEnd {ch : Fin 256} {above inBand : Bool} : Answers s (execCmpSettleEnd ch above inBand t) :=
  Kept.next (.ite h (.ite h.setFlag.setFlag.raise h.setFlag.cmpTake))

theorem Kept.cmpResettle {c : Nat} : Kept s (t.cmpResettle c) :=
  h.over (fun _ _ k => k.setCmp)

theorem Kept.execCmpResettleEnd {ch : Fin 256} : Answers s (execCmpResettleEnd ch t) :=
  Kept.next (.ite h (h.over (fun _ _ k => k.setCmp.when (fun _ l => l.setFlag.setFlag))))

theorem Kept.cmpRestart {k : Nat} : Kept s (t.cmpRestart k) := by
  unfold State.cmpRestart
  refine h.each (fun _ _ k => k.over (fun _ _ l => ?_))
  extract_lets +onlyGivenNames c s1
  have hs1 : Kept s s1 := l.when (fun _ m => m.level)
  exact hs1.setFlag.setFlag.setFlag.setCmp

end

end Sys2Proof.Machine
end

section
/-! PROOFS. What the operations of Sys2Proof/Machine/Pages.lean keep. -/

namespace Sys2Proof.Machine

section
set_option Elab.async false
variable {s t : State} (h : Kept s t)
include h

theorem Kept.pageWrite {a : Nat} {bs : List Byte} : Kept s (t.pageWrite a bs) :=
  .ite h.devPut h

theorem Kept.pageMissed {e : Nat} : Kept s (t.pageMissed e) := by
  unfold State.pageMissed
  split
  · exact h.addFld.raise
  · exact h

theorem Kept.pageSkip {e : Nat} : Kept s (t.pageSkip e) := by
  unfold State.pageSkip
  extract_lets +onlyGivenNames fresh _ s1
  have hs1 : Kept s s1 := h.update
  exact hs1.addFld.when (fun _ k => k.raise)

theorem Kept.pageStart {e tB : Nat} : Kept s (t.pageStart e tB) := by
  unfold State.pageStart
  extract_lets +onlyGivenNames s1
  have hs1 : Kept s s1 := h.pageMissed
  extract_lets +onlyGivenNames p prev _ s2
  have hs2 : Kept s s2 := hs1.update
  exact hs2.pageWrite

theorem Kept.epochLatch {tB : Nat} : Kept s (t.epochLatch tB) :=
  .ite h.pageStart h.pageSkip

theorem Kept.execEpoPageComplete : Answers s (execEpoPageComplete t) := by
  unfold Machine.execEpoPageComplete
  refine Kept.next (.ite h ?_)
  extract_lets +onlyGivenNames p a s1
  have hs1 : Kept s s1 := h.over (fun _ _ k => k.pageWrite)
  extract_lets +onlyGivenNames s2
  have hs2 : Kept s s2 := hs1.pageWrite
  extract_lets +onlyGivenNames _ s3
  have hs3 : Kept s s3 := hs2.update
  exact hs3.raise

theorem Kept.epoAck {v : Nat} : Kept s (t.epoAck v) :=
  h.update

theorem Kept.execEpoAck {path : Path} {value : BitVec 32} : Answers s (execEpoAck path value t) :=
  h.epoAck.wrote.next

end

end Sys2Proof.Machine
end

section
/-! PROOFS. What the operations of Sys2Proof/Machine/Replay.lean keep. -/

namespace Sys2Proof.Machine

section
set_option Elab.async false
variable {s t : State} (h : Kept s t)
include h

theorem Kept.tileRestart {n w : Nat} : Kept s (t.tileRestart n w) :=
  h.takeStagedGt.setTile

theorem Kept.rplGo {k : Nat} : Kept s (t.rplGo k) :=
  .ite (h.setFld.when (fun _ k => k.setFld)) (h.setReplay.setReg.setFlag.over (fun _ _ k => k.over
    (fun _ _ l => l.tileRestart)))

theorem Kept.rplCtrl {k v : Nat} : Kept s (t.rplCtrl k v) := by
  unfold State.rplCtrl
  extract_lets +onlyGivenNames s1
  have hs1 : Kept s s1 := h.setFld.setFld
  extract_lets +onlyGivenNames s2
  have hs2 : Kept s s2 := hs1.when (fun _ k => k.rplGo)
  exact hs2.when (fun _ k => k.setReplay)

theorem Kept.execRplGo {path : Path} {k src rate : Fin 8} : Answers s (execRplGo path k src rate t) :=
  h.rplCtrl.wrote.next

theorem Kept.execRplStop {path : Path} {k src rate : Fin 8} : Answers s (execRplStop path k src rate t) :=
  h.rplCtrl.wrote.next

theorem Kept.execRplBlockFeed {k : Fin 8} {stall : Nat} : Answers s (execRplBlockFeed k stall t) := by
  unfold Machine.execRplBlockFeed
  extract_lets +onlyGivenNames r
  refine Kept.next (.ite h.replayEnd (.ite h ?_))
  extract_lets +onlyGivenNames s1
  have hs1 : Kept s s1 := h.over (fun _ _ k => k.ringFetch.over (fun _ _ l => l.laneArrive))
  exact hs1.setReplay.setFld.when (fun _ k => k.replayEnd)

end

end Sys2Proof.Machine
end

section
/-! PROOFS. What the operations of Sys2Proof/Machine/Switch.lean keep. -/

namespace Sys2Proof.Machine

section
set_option Elab.async false
variable {s t : State} (h : Kept s t)
include h

theorem Kept.switchChan {u : Machine.State} {c i : Nat} : Kept s (State.switchChan u t c i) := by
  unfold State.switchChan
  extract_lets +onlyGivenNames range s1
  have hs1 : Kept s s1 := h.when (fun _ k => k.calAbandon)
  extract_lets +onlyGivenNames s2
  have hs2 : Kept s s2 := hs1.when (fun _ k => k.holdChan)
  extract_lets +onlyGivenNames s3
  have hs3 : Kept s s3 := hs2.when (fun _ k => k.setChan)
  exact hs3.when (fun _ k => k.cmpResettle)

theorem Kept.switchDie {u : Machine.State} {k i : Nat} : Kept s (State.switchDie u t k i) := by
  unfold State.switchDie
  extract_lets +onlyGivenNames was is d s1
  have hs1 : Kept s s1 := h.setDie
  extract_lets +onlyGivenNames s2
  have hs2 : Kept s s2 := hs1.when (fun _ k => k.cmpRestart)
  extract_lets +onlyGivenNames s3
  have hs3 : Kept s s3 := hs2.when (fun _ k => k.anchorPred)
  exact hs3.each (fun _ _ k => k.switchChan)

theorem Kept.switchRing {u : Machine.State} {bound : Nat → Nat} : Kept s (State.switchRing u t bound) := by
  unfold State.switchRing
  refine .ite h ?_
  extract_lets +onlyGivenNames _ s1
  have hs1 : Kept s s1 := h.update
  exact hs1.each (fun _ _ k => k.setDie)

theorem Kept.switchStore {u : Machine.State} : Kept s (State.switchStore u t) :=
  .ite h h.update

theorem Kept.ckoSync {n : Nat} : Kept s (t.ckoSync n) :=
  h.setFlag.setFlag

theorem Kept.ckoStretch {u : Machine.State} {n : Nat} : Kept s (State.ckoStretch u t n) :=
  .ite h h.setClk

theorem Kept.switchSlew {u : Machine.State} : Kept s (State.switchSlew u t) := by
  unfold State.switchSlew
  extract_lets +onlyGivenNames s1
  have hs1 : Kept s s1 := .ite h.setClk h
  exact .ite hs1.setClk hs1

theorem Kept.switchClk {u : Machine.State} : Kept s (State.switchClk u t) := by
  unfold State.switchClk
  extract_lets +onlyGivenNames s1
  have hs1 : Kept s s1 := h.switchSlew
  extract_lets +onlyGivenNames s2
  have hs2 : Kept s s2 := .ite hs1.relockCause hs1
  exact hs2.each (fun _ _ k => k.when (fun _ l => l.ckoStretch.ckoSync))

theorem Kept.switchTin {u : Machine.State} {i : Nat} : Kept s (State.switchTin u t i) := by
  unfold State.switchTin
  extract_lets +onlyGivenNames s1
  have hs1 : Kept s s1 := h.when (fun _ k => k.setTin)
  exact hs1.when (fun _ k => k.setTin)

theorem Kept.switchTime {u : Machine.State} : Kept s (State.switchTime u t) := by
  unfold State.switchTime
  extract_lets +onlyGivenNames rate _ s1
  have hs1 : Kept s s1 := h.update
  exact hs1.when (fun _ k => k.undisciplined)

theorem Kept.turnJoin {u : Machine.State} {tB : Nat} : Kept s (State.turnJoin u t tB) := by
  unfold State.turnJoin
  split
  · exact h
  · exact h.update

theorem Kept.switchTurn {u : Machine.State} {tB : Nat} : Kept s (State.switchTurn u t tB) :=
  .ite (.setFld h.update) h.turnJoin

theorem Kept.switchEpo {u : Machine.State} : Kept s (State.switchEpo u t) :=
  .ite h.update h

theorem Kept.switchCells {u : Machine.State} {tB : Nat} : Kept s (State.switchCells u t tB) := by
  unfold State.switchCells
  extract_lets +onlyGivenNames _ s1
  have hs1 : Kept s s1 := h.update
  exact hs1.each (fun _ _ k => k.setDef)

theorem Kept.switchStreams {u : Machine.State} : Kept s (State.switchStreams u t) := by
  unfold State.switchStreams
  extract_lets +onlyGivenNames new seeds s1
  have hs1 : Kept s s1 := h.over (fun _ _ k => .ite (.ite k k.subLeave) (.ite k k.subLeave))
  extract_lets +onlyGivenNames gone _ s2
  have hs2 : Kept s s2 := hs1.update
  extract_lets +onlyGivenNames s3
  have hs3 : Kept s s3 := hs2.over (fun _ _ k => k.when (fun _ l => l.setStream))
  refine hs3.over (fun _ _ k => .ite k ?_)
  split
  · exact k.subJoin
  · exact k

theorem Kept.switchOpal {u : Machine.State} {p : Nat} : Kept s (State.switchOpal u t p) :=
  .ite h.setOpal h

theorem Kept.switchScan {u : Machine.State} {d : Nat} : Kept s (State.switchScan u t d) :=
  h.when (fun _ k => k.baseCommit)

theorem Kept.fabRtvAbort {p : Nat} : Kept s (t.fabRtvAbort p) := by
  unfold State.fabRtvAbort
  extract_lets +onlyGivenNames out ended js _ _ s1
  have hs1 : Kept s s1 := h.update
  refine hs1.over (fun _ _ k => ?_)
  extract_lets +onlyGivenNames j
  split
  · exact k.startXfer
  · exact k

theorem Kept.switchPort {u : Machine.State} {p : Nat} : Kept s (State.switchPort u t p) := by
  unfold State.switchPort
  refine .ite h ?_
  extract_lets +onlyGivenNames s1
  have hs1 : Kept s s1 := h.over (fun _ _ k => .ite k.skipTo k)
  extract_lets +onlyGivenNames s2
  have hs2 : Kept s s2 := hs1.when (fun _ k => k.fabRtvAbort)
  exact .ite hs2.linkDrop hs2.linkRetrain

theorem Kept.switchCosts {u : Machine.State} : Kept s (State.switchCosts u t) :=
  h.when (fun _ k => k.newLsa)

theorem Kept.switchSet {u : Machine.State} {n : Nat} : Kept s (State.switchSet u t n) :=
  .ite h (.ite h.beginSet h.stopSet)

theorem Kept.switchTile {u : Machine.State} {n g w : Nat} {reload : Bool} :
    Kept s (State.switchTile u t n g w reload) :=
  h.setTile.when (fun _ k => k.tileSwitch)

theorem Kept.switchIdle {u : Machine.State} {g : Nat} : Kept s (State.switchIdle u t g) := by
  unfold State.switchIdle
  extract_lets +onlyGivenNames d mine s1
  have hs1 : Kept s s1 := .over (h.when (fun _ k => k.setMig)) (fun _ _ k => k.tileFreed)
  exact hs1.setProg.slotTake

theorem Kept.switchLive {u : Machine.State} {g w : Nat} : Kept s (State.switchLive u t g w) := by
  unfold State.switchLive
  extract_lets +onlyGivenNames new s1
  have hs1 : Kept s s1 := h.when (fun _ k => k.groupTakes)
  extract_lets +onlyGivenNames tiles s2
  have hs2 : Kept s s2 := hs1.over (fun _ _ k => k.switchTile)
  exact .ite hs2.setProg hs2.slotTake.setProg

theorem Kept.switchGroups {u : Machine.State} {w : Nat → Nat} : Kept s (State.switchGroups u t w) := by
  unfold State.switchGroups
  extract_lets +onlyGivenNames s1
  have hs1 : Kept s s1 := h.each (fun _ _ k => k.when (fun _ l => l.switchIdle))
  exact hs1.each (fun _ _ k => .ite k.switchLive k)

theorem Kept.enterRun {u : Machine.State} {resume : Bool} {bound : Nat → Nat} :
    Kept s (State.enterRun u t resume bound) := by
  unfold State.enterRun
  extract_lets +onlyGivenNames held _ t1
  have ht1 : Kept s t1 := h.update
  extract_lets +onlyGivenNames restart _ t12
  have ht12 : Kept s t12 := ht1.update
  extract_lets +onlyGivenNames t13
  have ht13 : Kept s t13 := .ite ht12.toutSync (ht12.when (fun _ k => k.stopOutputs))
  exact ht13.when (fun _ k => k.raise)

theorem Kept.takeBank : Kept s (t.takeBank) := by
  unfold State.takeBank
  extract_lets +onlyGivenNames s1
  have hs1 : Kept s s1 := h.takeStaged
  exact hs1.update

theorem Kept.switchPoint {tB e : Nat} {bound : Nat → Nat} {boot : Bool} : Kept s (t.switchPoint tB e bound boot) := by
  unfold State.switchPoint
  extract_lets +onlyGivenNames s1
  have hs1 : Kept s s1 := h.takeBank
  extract_lets +onlyGivenNames s2
  have hs2 : Kept s s2 := hs1.each (fun _ _ k => k.when (fun _ l => l.replayEnd))
  extract_lets +onlyGivenNames s3
  have hs3 : Kept s s3 := hs2.switchCells
  extract_lets +onlyGivenNames s4
  have hs4 : Kept s s4 := hs3.each (fun _ _ k => k.switchDie)
  extract_lets +onlyGivenNames s5
  have hs5 : Kept s s5 := hs4.switchRing.switchStore
  extract_lets +onlyGivenNames s6
  have hs6 : Kept s s6 := hs5.switchClk.switchTime
  extract_lets +onlyGivenNames s7
  have hs7 : Kept s s7 := hs6.each (fun _ _ k => k.switchTin)
  extract_lets +onlyGivenNames s8
  have hs8 : Kept s s8 := hs7.switchTurn.switchEpo
  extract_lets +onlyGivenNames s9
  have hs9 : Kept s s9 := hs8.switchStreams
  extract_lets +onlyGivenNames s10
  have hs10 : Kept s s10 := hs9.each (fun _ _ k => k.switchOpal)
  extract_lets +onlyGivenNames s11
  have hs11 : Kept s s11 := hs10.each (fun _ _ k => k.switchScan)
  extract_lets +onlyGivenNames s12
  have hs12 : Kept s s12 := hs11.each (fun _ _ k => k.switchPort)
  extract_lets +onlyGivenNames s13
  have hs13 : Kept s s13 := hs12.switchCosts.when (fun _ k => k.fabReaddress)
  extract_lets +onlyGivenNames s14
  have hs14 : Kept s s14 := hs13.each (fun _ _ k => k.switchSet)
  extract_lets +onlyGivenNames _ s15
  have hs15 : Kept s s15 := hs14.update
  extract_lets +onlyGivenNames s16
  have hs16 : Kept s s16 := hs15.switchGroups
  extract_lets +onlyGivenNames s17
  have hs17 : Kept s s17 := hs16.each (fun _ _ k => k.when (fun _ l => l.takeStagedGt))
  extract_lets +onlyGivenNames s18
  have hs18 : Kept s s18 := hs17.setFlag.enterRun
  extract_lets +onlyGivenNames s19
  have hs19 : Kept s s19 := .panNext (hs18.when (fun _ k => k.startRing))
  exact .switchDone (hs19.when (fun _ k => k.bootEnded))

end

end Sys2Proof.Machine
end

section
/-! PROOFS. What the operations of Sys2Proof/Machine/Epoch.lean keep. -/

namespace Sys2Proof.Machine

section
set_option Elab.async false
variable {s t : State} (h : Kept s t)
include h

theorem Kept.epochAnchors {marks : List Nat} : Kept s (t.epochAnchors marks) :=
  h.each (fun _ _ k => .ite k.anchor k)

theorem Kept.quartzStep {tB : Nat} : Kept s (t.quartzStep tB) := by
  unfold State.quartzStep
  refine .ite h ?_
  extract_lets +onlyGivenNames jump s1
  have hs1 : Kept s s1 := h.clockChange (fun _ k => k.returnLocked)
  extract_lets +onlyGivenNames first s2
  have hs2 : Kept s s2 := hs1.each (fun _ _ k => .ite k.anchor k)
  exact hs2.raise.relockDone

theorem Kept.boundaryStep {tB : Nat} : Kept s (t.boundaryStep tB) := by
  unfold State.boundaryStep
  refine .ite h.applySet ?_
  split
  · extract_lets +onlyGivenNames s1
    have hs1 : Kept s s1 := h.when (fun _ k => k.setFlag)
    exact hs1.otStep
  · exact h

theorem Kept.lateCommit {tB e : Nat} : Kept s (t.lateCommit tB e) := by
  unfold State.lateCommit
  split
  · split
    · exact .ite h.setProg.refuse.enterHeld h
    · exact h
  · exact h

theorem Kept.epochTiles : Kept s (t.epochTiles) := by
  unfold State.epochTiles
  refine h.each (fun _ _ k => ?_)
  split
  · exact .ite k.setTile k
  · exact k

theorem Kept.boundary {tB : Nat} {marks : List Nat} : Kept s (t.boundary tB marks) := by
  unfold State.boundary
  extract_lets +onlyGivenNames s1
  have hs1 : Kept s s1 := h.epochLatch
  extract_lets +onlyGivenNames e bounds _ s2
  have hs2 : Kept s s2 := hs1.update
  extract_lets +onlyGivenNames s3
  have hs3 : Kept s s3 := hs2.epochAnchors.quartzStep
  extract_lets +onlyGivenNames before s4
  have hs4 : Kept s s4 := hs3.boundaryStep
  extract_lets +onlyGivenNames label _ s5
  have hs5 : Kept s s5 := hs4.update
  extract_lets +onlyGivenNames s6
  have hs6 : Kept s s6 := hs5.lateCommit
  extract_lets +onlyGivenNames s7
  have hs7 : Kept s s7 := by
    unfold s7
    split
    · exact hs6.switchPoint
    · exact .ite hs6.enterRun hs6
  extract_lets +onlyGivenNames _ s8
  have hs8 : Kept s s8 := hs7.update
  exact hs8.combEvent.epochTiles

theorem Kept.execEpochBoundary {marks : List Nat} : Answers s (execEpochBoundary marks t) := by
  unfold Machine.execEpochBoundary
  refine Kept.next ?_
  split
  · exact .ite h.boundary h
  · exact h

end

end Sys2Proof.Machine
end

section
/-! PROOFS. What the operations of Sys2Proof/Machine/Views.lean keep. -/

namespace Sys2Proof.Machine

section
set_option Elab.async false
variable {s t : State} (h : Kept s t)
include h

theorem Kept.readReg {r : Reg} {i : Nat} : Kept s (t.readReg r i).2 := by
  unfold State.readReg
  split
  · split
    · next x s1 heq =>
        have hs1 : Kept s s1 := .pair heq (h.draw)
        split
        · next d s2 heq =>
            have hs2 : Kept s s2 := .pair heq (hs1.draw)
            exact hs2.setReg.cfgResult
  · extract_lets +onlyGivenNames v s'
    have hs' : Kept s s' := h.over (fun _ _ k => k.update)
    extract_lets +onlyGivenNames rc t1
    have ht1 : Kept s t1 := hs'.when (fun _ k => k.setReg)
    exact ht1.when (fun _ k => k.setFld)

end

end Sys2Proof.Machine
end

section
/-! PROOFS. What the operations of Sys2Proof/Machine/HostAccess.lean keep. -/

namespace Sys2Proof.Machine

section
set_option Elab.async false
variable {s t : State} (h : Kept s t)
include h

theorem Kept.evqComplete {n : Nat} : Kept s (State.evqComplete n t) := by
  induction n generalizing t with
  | zero => exact h
  | succ n ih => exact .ite h (ih (.ite h.evqAckErr h.evqAckOk))

theorem Kept.evqOff : Kept s (t.evqOff) :=
  h.evqComplete.setFlag.setFld.setFld

theorem Kept.evqOn : Kept s (t.evqOn) :=
  .ite h.setFlag.evqFlush h

theorem Kept.evqCtrl {v : Nat} : Kept s (t.evqCtrl v) := by
  unfold State.evqCtrl
  extract_lets +onlyGivenNames was s1
  have hs1 : Kept s s1 := h.setFld.setFlag
  exact .ite hs1.evqOff (.ite hs1.evqOn hs1)

theorem Kept.evqHead {v : Nat} : Kept s (t.evqHead v) :=
  .ite (h.setFld.when (fun _ k => k.evqFlush)) h

theorem Kept.ringHead {head tail : Fld} {n v : Nat} : Kept s (t.ringHead head tail n v) :=
  .ite h.setFld h

theorem Kept.ringSetup {en size base : Fld} {v : Nat} : Kept s (t.ringSetup en size base v).2 := by
  unfold State.ringSetup
  extract_lets +onlyGivenNames was s1
  have hs1 : Kept s s1 := h.setFld
  extract_lets +onlyGivenNames s2
  have hs2 : Kept s s2 := hs1.when (fun _ k => k.setFld)
  exact hs2.setFlag

theorem Kept.jasperOff : Kept s (t.jasperOff) := by
  unfold State.jasperOff
  extract_lets +onlyGivenNames s1
  have hs1 : Kept s s1 := h.each (fun _ _ k => k.jasperAck)
  exact hs1.setReg

theorem Kept.stageHost {k : RegKey} {v : Nat} : Kept s (t.stageHost k v) := by
  unfold State.stageHost
  extract_lets +onlyGivenNames s1
  have hs1 : Kept s s1 := h.stage
  exact hs1.update

theorem Kept.writeFields {r : Reg} {i v : Nat} : Kept s (t.writeFields r i v) := by
  unfold State.writeFields
  extract_lets +onlyGivenNames rw w1c old s1
  have hs1 : Kept s s1 := h.when (fun _ k => k.setReg)
  exact hs1.when (fun _ k => k.stageHost)

theorem Kept.calCmd {v : Nat} : Kept s (t.calCmd v) := by
  unfold State.calCmd
  extract_lets +onlyGivenNames k sl named whole
  split
  · exact h.when (fun _ k => k.calRunCmd)
  · exact h.when (fun _ k => k.calRunDieCmd)
  · exact h.when (fun _ k => k.calApply)
  · exact h.calExport
  · exact h.calImport
  · exact h.calCommit
  · exact h.when (fun _ k => k.calClearSuspect)
  · exact h.when (fun _ k => k.calCopy)
  · exact h

theorem Kept.panCmd {v : Nat} : Kept s (t.panCmd v) := by
  unfold State.panCmd
  extract_lets +onlyGivenNames kind unit
  split
  · exact h.panApprove
  · exact h.panDecline
  · exact h.panSwap
  · exact h.panRotate
  · exact h.panRetire
  · exact h

theorem Kept.pwrCmd {v : Nat} : Kept s (t.pwrCmd v) := by
  unfold State.pwrCmd
  split
  · exact h.pwrReturnA
  · exact h.pwrForceB
  · exact h.pwrStandby
  · exact h.pwrWake
  · exact h.powerCycle
  · exact h

theorem Kept.rcvCmd {v : Nat} : Kept s (t.rcvCmd v) := by
  unfold State.rcvCmd
  split
  · exact h.rcvHold
  · exact h.rcvWarm
  · exact h.powerCycle
  · exact h

theorem Kept.freezeCmd {v : Nat} : Kept s (t.freezeCmd v) := by
  unfold State.freezeCmd
  split
  · exact h.pcReleased
  · exact h.pcRetired
  · exact h

theorem Kept.stmCmd {v : Nat} : Kept s (t.stmCmd v) := by
  unfold State.stmCmd
  split
  · exact h.stmJoin
  · exact h.stmLeave
  · exact h

theorem Kept.dmaCtrl {c v : Nat} : Kept s (t.dmaCtrl c v) := by
  unfold State.dmaCtrl
  extract_lets +onlyGivenNames st s1
  have hs1 : Kept s s1 := h.when (fun _ k => k.setFld)
  exact .when (hs1.setFlag.when (fun _ k => k.dmaStart)) (fun _ k => k.dmaStop)

theorem Kept.cfgWrite {p v : Nat} : Kept s (t.cfgWrite p v) := by
  unfold State.cfgWrite
  extract_lets +onlyGivenNames s1
  have hs1 : Kept s s1 := h.setReg
  refine .ite ?_ hs1
  split
  · next x s2 heq =>
      have hs2 : Kept s s2 := .pair heq (hs1.draw)
      exact hs2.cfgResult.emit

theorem Kept.rxBaseWrite {v : Nat} : Kept s (t.rxBaseWrite v) := by
  unfold State.rxBaseWrite
  split
  · next off s1 heq =>
      have hs1 : Kept s s1 := .pair heq (h.ringSetup)
      refine .ite ?_ hs1.grantAll
      extract_lets +onlyGivenNames _ s2
      have hs2 : Kept s s2 := hs1.update
      exact hs2.setReg.setReg

theorem Kept.writeReg {r : Reg} {i v : Nat} : Kept s (t.writeReg r i v) := by
  unfold State.writeReg
  split
  · exact h.when (fun _ k => k.writeFields)
  · exact h.when (fun _ k => k.writeFields)
  · exact h.when (fun _ k => k.writeFields)
  · exact h.evqCtrl
  · exact h.evqHead
  · exact h.writeFields.when (fun _ k => k.setFlag)
  · exact h.writeFields.when (fun _ k => k.calNow)
  · extract_lets +onlyGivenNames s1
    have hs1 : Kept s s1 := h.when (fun _ k => k.setFlag)
    split
    · next off t1 heq =>
        have ht1 : Kept s t1 := .pair heq (hs1.ringSetup)
        exact .setFlag (ht1.when (fun _ k => k.jasperOff))
  · exact h.ringHead
  · split
    · next off t1 heq =>
        have ht1 : Kept s t1 := .pair heq (h.ringSetup)
        refine ht1.when (fun _ k => ?_)
        extract_lets +onlyGivenNames t12
        have ht12 : Kept s t12 := k.setReg
        exact ht12.update
  · split
    · next off t1 heq =>
        have ht1 : Kept s t1 := .pair heq (h.ringSetup)
        extract_lets +onlyGivenNames t12
        have ht12 : Kept s t12 := ht1.when (fun _ k => k.setReg)
        exact ht12.setFlag.when (fun _ k => k.setFlag)
  · exact h.rtvTail
  · exact h.ringHead
  · exact h.swTriggers
  · exact h.epoAck
  · exact h.prgCmd
  · exact h.rplCtrl
  · exact h.rcvCmd
  · exact h.offsetWrite
  · exact h.delayWrite.stageHost
  · exact h.delayWrite
  · exact h.pairFirstReg
  · exact h.pairFirstReg
  · exact h.pairFirstReg
  · exact h.pairSecondReg
  · exact h.pairSecondReg
  · exact h.pairSecondReg
  · exact h.baseCommit
  · exact h.fcWrite
  · exact h.freezeCmd
  · exact h.when (fun _ k => k.writeFields)
  · exact h.dmaCtrl
  · exact h.dmaDoorbell
  · exact h.pciCtrlWrite
  · exact h.cfgWrite
  · exact h.stmCmd
  · exact .ringDoorbell h.update
  · exact h.when (fun _ k => k.nvmFormatCmd)
  · exact h.rxBaseWrite
  · exact h.writeRxRd
  · exact h.calCmd
  · exact h.calArm
  · exact h.panCmd
  · split
    · next off t1 heq =>
        have ht1 : Kept s t1 := .pair heq (h.ringSetup)
        exact ht1.when (fun _ k => k.setReg)
  · exact h.ringHead
  · exact h.pwrCmd
  · exact h.when (fun _ k => k.urgent)
  · exact h.secCommand
  · exact .when (h.when (fun _ k => k.chalCmd)) (fun _ k => k.debugClose)
  · exact h.writeFields

theorem Kept.readAt {path : Path} {a len : Nat} : Kept s (t.readAt path a len).2 := by
  unfold State.readAt
  split
  · exact h
  · split
    · next v s1 heq =>
        have hs1 : Kept s s1 := .pair heq (h.readReg)
        exact hs1
  · exact h
  · exact h
  · exact h
  · exact h
  · exact h.readBy
  · exact h.update
  · exact h

theorem Kept.writeAt {path : Path} {a : Nat} {bs : List Byte} : Kept s (t.writeAt path a bs).2 := by
  unfold State.writeAt
  split
  · exact h
  · split
    · exact h.raise
    · exact h.writeReg
  · exact h
  · exact h.paramWrite
  · exact h
  · exact h.update
  · exact h.devPut
  · exact h
  · split
    · exact h
    · exact h.tilePut

theorem Kept.hostRead {path : Path} {a len : Nat} : Kept s (t.hostRead path a len) := by
  unfold State.hostRead
  split
  · next bs s1 heq =>
      have hs1 : Kept s s1 := .pair heq (h.readAt)
      exact hs1.emit
  · next s1 heq =>
      have hs1 : Kept s s1 := .pair heq (h.readAt)
      split
      · exact hs1.pciUr.emit
      · exact hs1.emit

theorem Kept.hostWrite {path : Path} {a : Nat} {bs : List Byte} : Kept s (t.hostWrite path a bs) := by
  unfold State.hostWrite
  split
  · next s1 heq =>
      have hs1 : Kept s s1 := .pair heq (h.writeAt)
      exact hs1.emit
  · next s1 heq =>
      have hs1 : Kept s s1 := .pair heq (h.writeAt)
      split
      · exact hs1.pciUr
      · exact hs1.emit

theorem Kept.hostWriteReg {path : Path} {r : Reg} {i v : Nat} : Kept s (t.hostWriteReg path r i v) :=
  h.hostWrite

theorem Kept.execRegWrite {path : Path} {addr : BitVec 48} {bytes : List Byte} :
    Answers s (execRegWrite path addr bytes t) :=
  h.hostWrite.next

theorem Kept.execRcRead {path : Path} {addr : BitVec 48} {len : Nat} : Answers s (execRcRead path addr len t) :=
  h.hostRead.next

theorem Kept.execCaptureRead {path : Path} {addr : BitVec 48} {len : Nat} :
    Answers s (execCaptureRead path addr len t) :=
  h.hostRead.next

theorem Kept.execEvqWriteAck {error : Bool} : Answers s (execEvqWriteAck error t) :=
  Kept.next (.ite h.evqAckErr h.evqAckOk)

theorem Kept.execRingRewriteRetry {ring : RewriteRing} : Answers s (execRingRewriteRetry ring t) := by
  unfold Machine.execRingRewriteRetry
  refine Kept.next ?_
  split
  · exact h.when (fun _ k => k.retryCompletion)
  · exact h.when (fun _ k => k.retryTelemetry)
  · exact h.when (fun _ k => k.retryItems)

theorem Kept.execEvqEnable {path : Path} {value : BitVec 32} : Answers s (execEvqEnable path value t) :=
  h.hostWriteReg.next

theorem Kept.execEvqDisable {path : Path} {value : BitVec 32} : Answers s (execEvqDisable path value t) :=
  h.hostWriteReg.next

theorem Kept.execEvqHeadWrite {path : Path} {value : BitVec 32} : Answers s (execEvqHeadWrite path value t) :=
  h.hostWriteReg.next

theorem Kept.execRingHeadWrite {path : Path} {ring : HeadRing} {value : BitVec 16} :
    Answers s (execRingHeadWrite path ring value t) :=
  h.hostWriteReg.next

theorem Kept.execSetArm {path : Path} {value : BitVec 32} : Answers s (execSetArm path value t) :=
  h.hostWriteReg.next

theorem Kept.barRead {p : Nat} {bar2 : Bool} {x len : Nat} : Kept s (t.barRead p bar2 x len).2 := by
  unfold State.barRead
  split
  · extract_lets +onlyGivenNames a
    split
    · exact h.readAt
    · exact h
  · split
    · exact h
    · split
      · exact h.readAt
      · split
        · exact h
        · split
          · exact h
          · exact h

theorem Kept.barWrite {p : Nat} {bar2 : Bool} {x : Nat} {bs : List Byte} : Kept s (t.barWrite p bar2 x bs).2 := by
  unfold State.barWrite
  split
  · extract_lets +onlyGivenNames a
    split
    · exact h.writeAt
    · exact h
  · split
    · exact h
    · split
      · exact h.writeAt
      · split
        · exact h.update
        · exact h

theorem Kept.execBarAccess {port : Fin 2} {bar2 : Bool} {offset : BitVec 64} {len : Nat} {write : Option
    (List Byte)} : Answers s (execBarAccess port bar2 offset len write t) := by
  unfold Machine.execBarAccess
  extract_lets +onlyGivenNames p x n
  refine Kept.next (.ite h ?_)
  split
  · split
    · next bs s1 heq =>
        have hs1 : Kept s s1 := .pair heq (h.barRead)
        exact hs1.emit
    · next t1 heq =>
        have ht1 : Kept s t1 := .pair heq (h.barRead)
        exact ht1.pciUr.emit
  · split
    · next s1 heq =>
        have hs1 : Kept s s1 := .pair heq (h.barWrite)
        exact hs1.emit
    · next s1 heq =>
        have hs1 : Kept s s1 := .pair heq (h.barWrite)
        exact hs1.pciUr

theorem Kept.czReadRegs {n : Nat} {b : List Byte} : Kept s (State.czReadRegs n t b).2 := by
  induction n generalizing t b with
  | zero => exact h
  | succ n ih =>
    unfold State.czReadRegs
    split
    · exact h
    · split
      · next u e => exact .pair e h.readAt
      · next v u e =>
        have hu : Kept s u := .pair e h.readAt
        split
        · next w e => exact .pair e (ih hu)
        · next l w e => exact .pair e (ih hu)

theorem Kept.czWriteRegs {n : Nat} {b : List Byte} : Kept s (State.czWriteRegs n t b).2 := by
  induction n generalizing t b with
  | zero => exact h
  | succ n ih =>
    unfold State.czWriteRegs
    split
    · exact h
    · extract_lets +onlyGivenNames a w
      split
      · next u e => exact .pair e h.writeAt
      · next u e => exact ih (.pair e h.writeAt)

theorem Kept.execReadReg {conn : Nat} {req : BitVec 64} {body : List Byte} :
    Answers s (execReadReg conn req body t) := by
  unfold Machine.execReadReg
  refine Kept.next (h.czRun (fun _ k => ?_))
  split
  · exact k
  · split
    · next l s1 heq =>
        have hs1 : Kept s s1 := .pair heq (k.czReadRegs)
        exact hs1
    · next s1 heq =>
        have hs1 : Kept s s1 := .pair heq (k.czReadRegs)
        exact hs1

theorem Kept.execWriteReg {conn : Nat} {req : BitVec 64} {body : List Byte} :
    Answers s (execWriteReg conn req body t) := by
  unfold Machine.execWriteReg
  refine Kept.next (h.czRun (fun _ k => ?_))
  split
  · exact k
  · split
    · next s1 heq =>
        have hs1 : Kept s s1 := .pair heq (k.czWriteRegs)
        exact hs1
    · next s1 heq =>
        have hs1 : Kept s s1 := .pair heq (k.czWriteRegs)
        exact hs1

theorem Kept.execReadMem {conn : Nat} {req : BitVec 64} {body : List Byte} :
    Answers s (execReadMem conn req body t) := by
  unfold Machine.execReadMem
  refine Kept.next (h.czRun (fun _ k => ?_))
  split
  · exact k
  · split
    · next l s1 heq =>
        have hs1 : Kept s s1 := .pair heq (k.readAt)
        exact hs1
    · next s1 heq =>
        have hs1 : Kept s s1 := .pair heq (k.readAt)
        exact hs1

theorem Kept.execWriteMem {conn : Nat} {req : BitVec 64} {body : List Byte} :
    Answers s (execWriteMem conn req body t) := by
  unfold Machine.execWriteMem
  refine Kept.next (h.czRun (fun _ k => ?_))
  split
  · exact k
  · split
    · next s1 heq =>
        have hs1 : Kept s s1 := .pair heq (k.writeAt)
        exact hs1
    · next s1 heq =>
        have hs1 : Kept s s1 := .pair heq (k.writeAt)
        exact hs1

theorem Kept.loadImage {image : List Byte} : Kept s (t.loadImage image).2.2 := by
  unfold State.loadImage
  split
  · exact h.reject
  · split
    · next x s1 heq =>
        have hs1 : Kept s s1 := .pair heq (h.draw)
        exact hs1.devPut.setReg.setReg.setReg.prgLoad

theorem Kept.execLoadImage {conn : Nat} {req : BitVec 64} {body : List Byte} :
    Answers s (execLoadImage conn req body t) := by
  unfold Machine.execLoadImage
  refine Kept.next (h.czRun (fun _ k => ?_))
  split
  · exact k
  · exact k.loadImage

end

end Sys2Proof.Machine
end

section
/-! PROOFS. What the operations of Sys2Proof/Machine/Dispatch.lean keep. -/

namespace Sys2Proof.Machine

section
set_option Elab.async false
variable {s t : State} (h : Kept s t)
include h

theorem Kept.exec {i : Instr} : Answers s (exec i t) :=
  match i with
  | .regWrite .. => h.execRegWrite
  | .rcRead .. => h.execRcRead
  | .captureRead .. => h.execCaptureRead
  | .evqWriteAck .. => h.execEvqWriteAck
  | .ringRewriteRetry .. => h.execRingRewriteRetry
  | .evqEnable .. => h.execEvqEnable
  | .evqDisable .. => h.execEvqDisable
  | .evqHeadWrite .. => h.execEvqHeadWrite
  | .ringHeadWrite .. => h.execRingHeadWrite
  | .blockClose .. => h.execBlockClose
  | .blockLand .. => h.execBlockLand
  | .ringWriteIssue .. => h.execRingWriteIssue
  | .ringWriteAck .. => h.execRingWriteAck
  | .blockTileArrival .. => h.execBlockTileArrival
  | .dieLinkCrc .. => h.execDieLinkCrc
  | .rangeHoldEnd .. => h.execRangeHoldEnd
  | .overRangeExcursion .. => h.execOverRangeExcursion
  | .clampEngage .. => h.execClampEngage
  | .clampDisengage .. => h.execClampDisengage
  | .clampRecoveryEnd .. => h.execClampRecoveryEnd
  | .comparatorCrossing .. => h.execComparatorCrossing
  | .comparatorAccept .. => h.execComparatorAccept
  | .comparatorBlankEnd .. => h.execComparatorBlankEnd
  | .cmpSettleEnd .. => h.execCmpSettleEnd
  | .cmpResettleEnd .. => h.execCmpResettleEnd
  | .refinEdge .. => h.execRefinEdge
  | .refQualifyEnd .. => h.execRefQualifyEnd
  | .refMissingEdge .. => h.execRefMissingEdge
  | .lockGateEnd .. => h.execLockGateEnd
  | .pllPhaseLock .. => h.execPllPhaseLock
  | .pllPhaseUnlock .. => h.execPllPhaseUnlock
  | .relockStepDone .. => h.execRelockStepDone
  | .relockFail .. => h.execRelockFail
  | .relockRetry .. => h.execRelockRetry
  | .bypUnlock .. => h.execBypUnlock
  | .offsetWrite .. => h.execOffsetWrite
  | .offsetSlewDone .. => h.execOffsetSlewDone
  | .delayWrite .. => h.execDelayWrite
  | .delayStep .. => h.execDelayStep
  | .phaseJumpMeasured .. => h.execPhaseJumpMeasured
  | .tinEdge .. => h.execTinEdge
  | .turnLost .. => h.execTurnLost
  | .tinSettleEnd .. => h.execTinSettleEnd
  | .loopUnlock .. => h.execLoopUnlock
  | .tdcCalInterval .. => h.execTdcCalInterval
  | .tdcCalDone .. => h.execTdcCalDone
  | .calNow .. => h.execCalNow
  | .pairWinExpire .. => h.execPairWinExpire
  | .freqGateEnd .. => h.execFreqGateEnd
  | .statsComplete .. => h.execStatsComplete
  | .tdcRingWriteAck .. => h.execTdcRingWriteAck
  | .timeSrcError .. => h.execTimeSrcError
  | .timeSrcLost .. => h.execTimeSrcLost
  | .setArm .. => h.execSetArm
  | .boundaryMarkerStamp .. => h.execBoundaryMarkerStamp
  | .anchorWriteAck .. => h.execAnchorWriteAck
  | .epochAnnounce .. => h.execEpochAnnounce
  | .epochBoundary .. => h.execEpochBoundary
  | .epochTimeout .. => h.execEpochTimeout
  | .epoPageComplete .. => h.execEpoPageComplete
  | .epoAck .. => h.execEpoAck
  | .jNop .. => h.execJNop
  | .jHalt .. => h.execJHalt
  | .jB .. => h.execJB (_g := 0) (_imm := 0)
  | .jCall .. => h.execJCall (_g := 0) (_imm := 0)
  | .jRet .. => h.execJRet
  | .jRep .. => h.execJRep
  | .jBrk .. => h.execJBrk (_g := 0)
  | .jWaitev .. => h.execJWaitev
  | .jEvclr .. => h.execJEvclr (_d := 0)
  | .jFence .. => h.execJFence
  | .jAdd .. => h.execJAdd
  | .jSub .. => h.execJSub
  | .jAnd .. => h.execJAnd
  | .jOr .. => h.execJOr
  | .jXor .. => h.execJXor
  | .jShl .. => h.execJShl
  | .jShr .. => h.execJShr
  | .jSar .. => h.execJSar
  | .jMul .. => h.execJMul
  | .jMulh .. => h.execJMulh
  | .jMin .. => h.execJMin
  | .jMax .. => h.execJMax
  | .jClz .. => h.execJClz (_t := 0)
  | .jCmp .. => h.execJCmp (_d := 0)
  | .jMov .. => h.execJMov (_t := 0)
  | .jAddi .. => h.execJAddi
  | .jAndi .. => h.execJAndi
  | .jOri .. => h.execJOri
  | .jXori .. => h.execJXori
  | .jShli .. => h.execJShli
  | .jShri .. => h.execJShri
  | .jSari .. => h.execJSari
  | .jCmpi .. => h.execJCmpi (_d := 0)
  | .jLi .. => h.execJLi (_s := 0)
  | .jLdw .. => h.execJLdw
  | .jStw .. => h.execJStw
  | .jLdh .. => h.execJLdh
  | .jSth .. => h.execJSth
  | .jLdp .. => h.execJLdp (_s := 0)
  | .jRds .. => h.execJRds (_s := 0)
  | .jWrs .. => h.execJWrs (_d := 0)
  | .jAcfg .. => h.execJAcfg
  | .jAadd .. => h.execJAadd
  | .jMova .. => h.execJMova (_imm := 0)
  | .jMovg .. => h.execJMovg (_imm := 0)
  | .jWaitin .. => h.execJWaitin
  | .jInadv .. => h.execJInadv
  | .jWaitx .. => h.execJWaitx
  | .jFftr .. => h.execJFftr
  | .jFftc .. => h.execJFftc
  | .jIfftc .. => h.execJIfftc
  | .jDet .. => h.execJDet
  | .jXspec .. => h.execJXspec
  | .jMaskc .. => h.execJMaskc
  | .jNco .. => h.execJNco
  | .jDecim .. => h.execJDecim
  | .jThr .. => h.execJThr
  | .jFeat .. => h.execJFeat
  | .jVadd .. => h.execJVadd
  | .jVsub .. => h.execJVsub
  | .jVmul .. => h.execJVmul
  | .jVcmul .. => h.execJVcmul
  | .jVscale .. => h.execJVscale
  | .jVconv .. => h.execJVconv
  | .jCdot .. => h.execJCdot
  | .jBcopy .. => h.execJBcopy
  | .jFill .. => h.execJFill
  | .jSpout .. => h.execJSpout
  | .jTrgc .. => h.execJTrgc
  | .jXmit .. => h.execJXmit
  | .jXld .. => h.execJXld
  | .jXch .. => h.execJXch
  | .customerInstr .. => h.execCustomerInstr
  | .tileUwd .. => h.execTileUwd
  | .xldLand .. => h.execXldLand
  | .xchArrival .. => h.execXchArrival
  | .paramWrite .. => h.execParamWrite
  | .pairFirstWrite .. => h.execPairFirstWrite
  | .pairSecondWrite .. => h.execPairSecondWrite
  | .prgLoad .. => h.execPrgLoad
  | .prgValidationEnd .. => h.execPrgValidationEnd
  | .prgCommit .. => h.execPrgCommit
  | .commitValidationEnd .. => h.execCommitValidationEnd
  | .prgAbort .. => h.execPrgAbort
  | .prgResume .. => h.execPrgResume
  | .prgHold .. => h.execPrgHold
  | .storeBoot .. => h.execStoreBoot
  | .bootStoreDone .. => h.execBootStoreDone
  | .tileReloadDone .. => h.execTileReloadDone
  | .groupLate .. => h.execGroupLate
  | .rplGo .. => h.execRplGo
  | .rplBlockFeed .. => h.execRplBlockFeed
  | .rplStop .. => h.execRplStop
  | .combinerEventArrival .. => h.execCombinerEventArrival
  | .cellFire .. => h.execCellFire
  | .toutPulseEnd .. => h.execToutPulseEnd
  | .timerFire .. => h.execTimerFire
  | .swTrigger .. => h.execSwTrigger
  | .defRearm .. => h.execDefRearm
  | .recordTimeout .. => h.execRecordTimeout
  | .recCopyBlock .. => h.execRecCopyBlock
  | .itemRecordArrival .. => h.execItemRecordArrival
  | .recordWriteAcked .. => h.execRecordWriteAcked
  | .indexWriteAck .. => h.execIndexWriteAck
  | .rtvDoorbell .. => h.execRtvDoorbell
  | .rtvStart .. => h.execRtvStart
  | .rtvComplete .. => h.execRtvComplete
  | .plannedStallRetry .. => h.execPlannedStallRetry
  | .fcGo .. => h.execFcGo
  | .freqChangeDone .. => h.execFreqChangeDone
  | .refreshDue .. => h.execRefreshDue
  | .scrubRead .. => h.execScrubRead
  | .pcFreeze .. => h.execPcFreeze
  | .lossEntryAck .. => h.execLossEntryAck
  | .pcRelease .. => h.execPcRelease
  | .pcReinitDone .. => h.execPcReinitDone
  | .pcRetire .. => h.execPcRetire
  | .softRepair .. => h.execSoftRepair
  | .hardRepair .. => h.execHardRepair
  | .oplRecordArrival .. => h.execOplRecordArrival
  | .oplPlot .. => h.execOplPlot
  | .oplDecayStep .. => h.execOplDecayStep
  | .oplFrameRequest .. => h.execOplFrameRequest
  | .oplFlip .. => h.execOplFlip
  | .vidBaseCommit .. => h.execVidBaseCommit
  | .vidLatch .. => h.execVidLatch
  | .flipRetired .. => h.execFlipRetired
  | .hpdChange .. => h.execHpdChange
  | .linkTrainDone .. => h.execLinkTrainDone
  | .underrun .. => h.execUnderrun
  | .dmaStart .. => h.execDmaStart
  | .dmaStop .. => h.execDmaStop
  | .dmaDoorbell .. => h.execDmaDoorbell
  | .dmaDescFetch .. => h.execDmaDescFetch
  | .dmaWritesAcked .. => h.execDmaWritesAcked
  | .dmaReadbackDone .. => h.execDmaReadbackDone
  | .dmaProgress .. => h.execDmaProgress
  | .dmaDrain .. => h.execDmaDrain
  | .dmaDrainTimeout .. => h.execDmaDrainTimeout
  | .barAccess .. => h.execBarAccess
  | .pciInbound .. => h.execPciInbound
  | .pciCfgAccess .. => h.execPciCfgAccess
  | .pciDisable .. => h.execPciDisable
  | .pciLinkUp .. => h.execPciLinkUp
  | .pciLinkDown .. => h.execPciLinkDown
  | .pciAer .. => h.execPciAer
  | .streamItem .. => h.execStreamItem
  | .subSend .. => h.execSubSend
  | .join .. => h.execJoin
  | .leave .. => h.execLeave
  | .stmRingDb .. => h.execStmRingDb
  | .pcieRingPoll .. => h.execPcieRingPoll
  | .nextHopRetry .. => h.execNextHopRetry
  | .ethRxFrame .. => h.execEthRxFrame
  | .ptpMessageRx .. => h.execPtpMessageRx
  | .ptpAnnounceTimeout .. => h.execPtpAnnounceTimeout
  | .nvmeCmdComplete .. => h.execNvmeCmdComplete
  | .nvmeCmdTimeout .. => h.execNvmeCmdTimeout
  | .nvmFlushTimer .. => h.execNvmFlushTimer
  | .nvmSetStart .. => h.execNvmSetStart
  | .nvmFormat .. => h.execNvmFormat
  | .linkSignalDetect .. => h.execLinkSignalDetect
  | .linkBringupStepDone .. => h.execLinkBringupStepDone
  | .linkSignalLoss .. => h.execLinkSignalLoss
  | .flitCrcFail .. => h.execFlitCrcFail
  | .helloSend .. => h.execHelloSend
  | .helloRx .. => h.execHelloRx
  | .nbrTimeout .. => h.execNbrTimeout
  | .lsaRx .. => h.execLsaRx
  | .lsaRefresh .. => h.execLsaRefresh
  | .lsaExpire .. => h.execLsaExpire
  | .routeInstall .. => h.execRouteInstall
  | .addrClaimTimer .. => h.execAddrClaimTimer
  | .timeExchange .. => h.execTimeExchange
  | .timeRx .. => h.execTimeRx
  | .fabTimeServo .. => h.execFabTimeServo
  | .gmAnnounce .. => h.execGmAnnounce
  | .gmTimeout .. => h.execGmTimeout
  | .fabTriggerRx .. => h.execFabTriggerRx
  | .fabItemRx .. => h.execFabItemRx
  | .fabRtvReqRx .. => h.execFabRtvReqRx
  | .fabCreditRx .. => h.execFabCreditRx
  | .fabRxRdWrite .. => h.execFabRxRdWrite
  | .calTrigger .. => h.execCalTrigger
  | .calRun .. => h.execCalRun
  | .calRunDie .. => h.execCalRunDie
  | .calRunStart .. => h.execCalRunStart
  | .calCompare .. => h.execCalCompare
  | .calRunDone .. => h.execCalRunDone
  | .calHoldEnd .. => h.execCalHoldEnd
  | .calQuietOpen .. => h.execCalQuietOpen
  | .calForce .. => h.execCalForce
  | .calApply .. => h.execCalApply
  | .calExport .. => h.execCalExport
  | .calImport .. => h.execCalImport
  | .calCommitArm .. => h.execCalCommitArm
  | .calCommit .. => h.execCalCommit
  | .calClearSuspect .. => h.execCalClearSuspect
  | .calCopy .. => h.execCalCopy
  | .panMonitorSample .. => h.execPanMonitorSample
  | .panHistoryHour .. => h.execPanHistoryHour
  | .panApprove .. => h.execPanApprove
  | .panDecline .. => h.execPanDecline
  | .panSwap .. => h.execPanSwap
  | .panRotateNow .. => h.execPanRotateNow
  | .panRetire .. => h.execPanRetire
  | .rotationStep .. => h.execRotationStep
  | .migrationLoadDone .. => h.execMigrationLoadDone
  | .haltEvent .. => h.execHaltEvent
  | .selftestDone .. => h.execSelftestDone
  | .opalRotation .. => h.execOpalRotation
  | .opalCopyDone .. => h.execOpalCopyDone
  | .memMoveCopyDone .. => h.execMemMoveCopyDone
  | .laneSwap .. => h.execLaneSwap
  | .coreOfflineAck .. => h.execCoreOfflineAck
  | .coreSwapTimeout .. => h.execCoreSwapTimeout
  | .supplyCmpCrossing .. => h.execSupplyCmpCrossing
  | .supplyQualifiedLow .. => h.execSupplyQualifiedLow
  | .switchMoveDone .. => h.execSwitchMoveDone
  | .returnCountExpire .. => h.execReturnCountExpire
  | .returnA .. => h.execReturnA
  | .forceB .. => h.execForceB
  | .pwrStandby .. => h.execPwrStandby
  | .osShutdownDone .. => h.execOsShutdownDone
  | .wake .. => h.execWake
  | .pwrCycle .. => h.execPwrCycle
  | .vhkLow .. => h.execVhkLow
  | .vhkPowerLoss .. => h.execVhkPowerLoss
  | .vhkPowerOn .. => h.execVhkPowerOn
  | .railStepDone .. => h.execRailStepDone
  | .railFail .. => h.execRailFail
  | .overtempStop .. => h.execOvertempStop
  | .adcPassTick .. => h.execAdcPassTick
  | .adcConversionDone .. => h.execAdcConversionDone
  | .adcUrgent .. => h.execAdcUrgent
  | .romBoot .. => h.execRomBoot
  | .bootWatchdog .. => h.execBootWatchdog
  | .bootEnd .. => h.execBootEnd
  | .osReady .. => h.execOsReady
  | .trngFail .. => h.execTrngFail
  | .czSessionConnect .. => h.execCzSessionConnect
  | .czOpen .. => h.execCzOpen
  | .sessionResume .. => h.execSessionResume
  | .readReg .. => h.execReadReg
  | .writeReg .. => h.execWriteReg
  | .readMem .. => h.execReadMem
  | .writeMem .. => h.execWriteMem
  | .loadImage .. => h.execLoadImage
  | .attest .. => h.execAttest
  | .getCert .. => h.execGetCert
  | .czCalExport .. => h.execCzCalExport
  | .fwWrite .. => h.execFwWrite
  | .fwActivate .. => h.execFwActivate
  | .lockFw .. => h.execLockFw
  | .lockOwner .. => h.execLockOwner
  | .platformWrite .. => h.execPlatformWrite
  | .ownerInstall .. => h.execOwnerInstall
  | .ownerUpdate .. => h.execOwnerUpdate
  | .ownerClear .. => h.execOwnerClear
  | .debugChal .. => h.execDebugChal
  | .debugToken .. => h.execDebugToken
  | .debugClose .. => h.execDebugClose
  | .debugLifeExpire .. => h.execDebugLifeExpire
  | .debugChalExpire .. => h.execDebugChalExpire
  | .mboxWord .. => h.execMboxWord
  | .evqSubscribe .. => h.execEvqSubscribe
  | .faultFreeze .. => h.execFaultFreeze
  | .safeHoldExpire .. => h.execSafeHoldExpire
  | .rcvHold .. => h.execRcvHold
  | .rcvWarm .. => h.execRcvWarm
  | .rcvPwrCycle .. => h.execRcvPwrCycle
  | .resetNLow .. => h.execResetNLow
  | .warmResetTimeout .. => h.execWarmResetTimeout
  | .pcHoldExpire .. => h.execPcHoldExpire
  | .reinitTimeout .. => h.execReinitTimeout
  | .pwrCycleIgnored .. => h.execPwrCycleIgnored
  | .supplySettleEnd .. => h.execSupplySettleEnd
  | .resetNRise .. => h.execResetNRise
  | .dieResumed .. => h.execDieResumed
  | .uartRecoveryImage .. => h.execUartRecoveryImage
  | .announceRx .. => h.execAnnounceRx
  | .czSessionEnd .. => h.execCzSessionEnd
  | .pciCplTimeout .. => h.execPciCplTimeout
  | .vernierLoopLock .. => h.execVernierLoopLock
  | .trngRecovered .. => h.execTrngRecovered
  | .returnSlewInLockWin .. => h.execReturnSlewInLockWin
  | .stackSleep .. => h.execStackSleep
  | .stackWake .. => h.execStackWake
  | .calCommitted .. => h.execCalCommitted
  | .opalRendererError .. => h.execOpalRendererError

end

end Sys2Proof.Machine
end

section
/-! PROOFS. What the operations of Sys2Proof/Machine/Tick.lean keep. -/

namespace Sys2Proof.Machine

section
set_option Elab.async false
variable {s t : State} (h : Kept s t)
include h

theorem Kept.timeTick : Kept s (t.timeTick) :=
  .ite h.update h

theorem Kept.turnTick {s0 : Machine.State} : Kept s (State.turnTick s0 t) := by
  unfold State.turnTick
  split
  · exact h
  · split
    · exact h.combEvent
    · exact h

theorem Kept.frameTick : Kept s (t.frameTick) :=
  .ite h.setClk.clkFrame h

theorem Kept.stopTick : Kept s (t.stopTick) :=
  .ite (h.each (fun _ _ k => k.orderStop)) h

theorem Kept.swapTick : Kept s (t.swapTick) :=
  .ite (h.each (fun _ _ k => k.when (fun _ l => l.setTin))) h

theorem Kept.switchedTick : Kept s (t.switchedTick) :=
  .ite (h.each (fun _ _ k => k.closeSwitched)) h

theorem Kept.corrTick : Kept s (t.corrTick) :=
  .ite h (.over h.update (fun _ _ k => k.corrected))

theorem Kept.videoTick : Kept s (t.videoTick) :=
  .ite h (h.each (fun _ _ k => k.baseTick.fetchTick))

theorem Kept.tileTick {n : Nat} : Kept s (t.tileTick n) :=
  h.tileReload.tileSend

theorem Kept.tick : Kept s (t.tick) := by
  unfold State.tick
  extract_lets +onlyGivenNames s1
  have hs1 : Kept s s1 := h.update
  exact hs1.timeTick.turnTick.stopTick.corrTick.swapTick.linkTick.switchedTick.frameTick.videoTick.each
    (fun _ _ k => k.tileTick)

end

end Sys2Proof.Machine
end

section
/-! PROOFS. Every step keeps the canonical form of memory. -/

namespace Sys2Proof.Machine

/-- A step keeps the state without the command that it takes. -/
theorem Kept.step {s t : State} (hs : Steps s t) : Kept { s with pending := s.pending.tail } t := by
  obtain ⟨q, hq⟩ : ∃ q, q = s.pending := ⟨_, rfl⟩
  unfold Steps Machine.step at hs
  rw [← hq] at hs ⊢
  cases q with
  | nil =>
    have hk : Kept { s with pending := [] } s := ⟨hq.symm, id⟩
    exact Host.Outcome.next.inj hs ▸ hk.tick
  | cons c rest =>
    obtain ⟨u, hu, hk⟩ := (Kept.refl { s with pending := rest }).exec (i := c)
    exact Host.Outcome.next.inj (hu.symm.trans hs) ▸ hk

/-- Settles O4: whatever a step runs keeps the canonical form. -/
theorem memoryStaysCanonical : Obligations.MemoryStaysCanonical := by
  unfold Obligations.MemoryStaysCanonical
  intro s t hs hstep
  exact (Kept.step hstep).inv hs

end Sys2Proof.Machine
end

section
/-! PROOFS. The event queue: what a raised event does to it, and what enabling the queue lets through (R30, R35, R608). -/

namespace Sys2Proof.Machine

/-! ## Host writes of registers -/

/-- A word written by a host at a register of a hub takes effect there and is answered. -/
theorem State.hostWriteReg_eq (s : State) (path : Path) (r : Reg) (i v : Nat) (hv : v < 2 ^ 32)
    (ht : targetOf (r.addr i) 4 = some (.reg (r, i))) (hb : r.desc.block ≠ .GT) :
    s.hostWriteReg path r i v = (s.writeReg r i v).emit (.writeDone path (r.addr i)) := by
  have he : ofLe (leBytes 4 v) = v := (ofLe_leBytes 4 v).trans (Nat.mod_eq_of_lt hv)
  rw [State.hostWriteReg, s.hostWrite_reg path _ _ (r, i) (by rwa [leBytes_length]) (s.refusedByTile_of_block _ hb), he]

/-! ## A raised event -/

/-- The subscribers of an event are sent it; nothing else happens. -/
theorem State.pushEvent_sent (s : State) (e : Event) : ∃ l, s.pushEvent e = { s with out := l } := by
  unfold State.pushEvent
  generalize s.sec.sessions = l
  induction l generalizing s with
  | nil => exact ⟨s.out, rfl⟩
  | cons x l ih =>
    rw [State.over_cons]
    split
    · split
      · exact ih (s.emit _)
      · exact ih s
    · exact ih s

/-- s with an event counted, and logged by the Attic if it is an error; `l` is what has been sent then. -/
def State.logged (s : State) (k : EventKind) (inst : Nat) (fs : List (Nat × Nat × Nat)) (l : List Out) : State :=
  { s with
    evq := { s.evq with
      count := s.evq.count + 1
      attic := if 3 ≤ k.severity then s.evq.attic ++ [.event (raisedEvent s k inst fs)] else s.evq.attic }
    out := l }

/-- An event that is raised is counted, logged, sent to its subscribers, and queued. -/
theorem State.raise_queued (s : State) (k : EventKind) (inst : Nat) (fs : List (Nat × Nat × Nat)) :
    ∃ l, s.raise k inst fs = (s.logged k inst fs l).evqPut (raisedEvent s k inst fs) := by
  have hlog : (({ s with evq := { s.evq with count := s.evq.count + 1 } } : State).when (3 ≤ k.severity) (fun s' =>
      { s' with evq := { s'.evq with attic := s'.evq.attic ++ [.event (raisedEvent s k inst fs)] } })) =
      s.logged k inst fs s.out := by
    unfold State.when State.logged
    simp only [decide_eq_true_eq]
    split <;> rfl
  obtain ⟨l, hl⟩ := (s.logged k inst fs s.out).pushEvent_sent (raisedEvent s k inst fs)
  have hraise : s.raise k inst fs = ((s.logged k inst fs s.out).pushEvent (raisedEvent s k inst fs)).evqPut
      (raisedEvent s k inst fs) := congrArg (fun u : State => (u.pushEvent _).evqPut _) hlog
  exact ⟨l, hraise.trans (congrArg (State.evqPut · (raisedEvent s k inst fs)) hl)⟩

/-- While the queue is off an event joins the hold buffer, which has room. -/
theorem State.evqPut_held (s : State) (e : Event) (hoff : s.flag EVQ_CTRL.ENABLE 0 = false)
    (hroom : s.evq.hold.length < 256) :
    s.evqPut e = { s with evq := { s.evq with hold := s.evq.hold ++ [e] } } := by
  rw [State.evqPut, hoff, if_neg Bool.false_ne_true, State.evqHold, if_pos hroom]

/-- While the queue is off and the hold buffer is full an event is dropped. -/
theorem State.evqPut_holdFull (s : State) (e : Event) (hoff : s.flag EVQ_CTRL.ENABLE 0 = false)
    (hfull : 256 ≤ s.evq.hold.length) : s.evqPut e = s.evqDrop := by
  rw [State.evqPut, hoff, if_neg Bool.false_ne_true, State.evqHold, if_neg (Nat.not_lt.mpr hfull)]

/-- A dropped event is counted and leaves the queue's entries as they were. -/
theorem State.evqDrop_evq (s : State) : s.evqDrop.evq = { s.evq with ovf := true } := by
  unfold State.evqDrop
  simp only [State.stat_evq, State.addFld_evq]

theorem State.stat_reg (s : State) (off : Nat) (n : Int) (r : Reg) (i : Nat) : (s.stat off n).reg r i = s.reg r i := by
  unfold State.stat
  split <;> rfl

/-- A counter field that was added to stands at the sum, or at its limit. -/
theorem State.fld_addFld_same (s : State) (f : Fld) (i n : Nat) (h : f.lo ≤ f.hi) (h32 : f.hi < 32) :
    (s.addFld f i n).fld f i = satU (f.hi + 1 - f.lo) (s.fld f i + n) := by
  rw [State.addFld, State.fld_setFld_same s f i _ h h32, Nat.mod_eq_of_lt]
  unfold satU
  have hpos : 0 < 2 ^ (f.hi + 1 - f.lo) := Nat.two_pow_pos _
  split <;> omega

theorem State.evqDrop_dropped (s : State) :
    s.evqDrop.fld EVQ_DROPPED.DROPPED 0 = satU 32 (s.fld EVQ_DROPPED.DROPPED 0 + 1) := by
  refine Eq.trans ?_ (s.fld_addFld_same EVQ_DROPPED.DROPPED 0 1 (by decide) (by decide))
  exact congrArg (fun w : Word => bits w.toNat _ _) (State.stat_reg _ _ _ _ _)

/-- A raised event joins the hold buffer while that has room. -/
theorem State.raise_joinsHold (s : State) (k : EventKind) (inst : Nat) (fs : List (Nat × Nat × Nat))
    (hoff : s.flag EVQ_CTRL.ENABLE 0 = false) (hroom : s.evq.hold.length < 256) :
    (s.raise k inst fs).evq.hold = s.evq.hold ++ [raisedEvent s k inst fs] ∧
      (s.raise k inst fs).fld EVQ_DROPPED.DROPPED 0 = s.fld EVQ_DROPPED.DROPPED 0 := by
  obtain ⟨l, hl⟩ := s.raise_queued k inst fs
  rw [hl, (s.logged k inst fs l).evqPut_held _ hoff hroom]
  exact ⟨rfl, rfl⟩

/-- A raised event is dropped when the hold buffer is full. -/
theorem State.raise_holdFull (s : State) (k : EventKind) (inst : Nat) (fs : List (Nat × Nat × Nat))
    (hoff : s.flag EVQ_CTRL.ENABLE 0 = false) (hfull : 256 ≤ s.evq.hold.length) :
    (s.raise k inst fs).evq.hold = s.evq.hold ∧ (s.raise k inst fs).evq.inFlight = s.evq.inFlight ∧
      (s.raise k inst fs).fld EVQ_DROPPED.DROPPED 0 = satU 32 (s.fld EVQ_DROPPED.DROPPED 0 + 1) := by
  obtain ⟨l, hl⟩ := s.raise_queued k inst fs
  rw [hl, (s.logged k inst fs l).evqPut_holdFull _ hoff hfull, State.evqDrop_evq]
  exact ⟨rfl, rfl, (s.logged k inst fs l).evqDrop_dropped⟩

/-- Exactly the events of severity error and fatal go to the Attic's log. -/
theorem State.raise_attic_eq (s : State) (k : EventKind) (inst : Nat) (fs : List (Nat × Nat × Nat)) :
    (s.raise k inst fs).evq.attic =
      if 3 ≤ k.severity then s.evq.attic ++ [.event (raisedEvent s k inst fs)] else s.evq.attic := by
  obtain ⟨l, hl⟩ := s.raise_queued k inst fs
  rw [hl]
  exact congrArg Prod.snd (State.evqPut_eventLog _ _)

/-! ## Held events follow into the queue -/

/-- From s to t the first held events were issued, in order, as many as the queue had room for. -/
structure Flushed (s t : State) : Prop where
  only : t = { s with evq := t.evq }
  moved : ∃ n, t.evq.inFlight.map EvqWrite.ev = s.evq.inFlight.map EvqWrite.ev ++ s.evq.hold.take n ∧
    t.evq.hold = s.evq.hold.drop n ∧ (n < s.evq.hold.length → t.evqFull = true)

/-- Held events are issued until none is left or the queue is full. -/
theorem State.evqFlush_flushed (n : Nat) (s : State) (hn : s.evq.hold.length ≤ n) : Flushed s (State.evqFlush n s) := by
  induction n generalizing s with
  | zero =>
    have hnil : s.evq.hold = [] := List.length_eq_zero_iff.mp (Nat.le_zero.mp hn)
    exact ⟨rfl, 0, by simp [State.evqFlush], rfl, by simp [hnil]⟩
  | succ n ih =>
    unfold State.evqFlush
    split
    · next hnil => exact ⟨rfl, 0, by simp, rfl, by simp [hnil]⟩
    · next e rest hcons =>
      split
      · next hfull => exact ⟨rfl, 0, by simp, rfl, fun _ => hfull⟩
      · rw [hcons, List.length_cons] at hn
        obtain ⟨honly, k, hev, hhold, hfull⟩ :=
          ih (({ s with evq := { s.evq with hold := rest } } : State).evqIssue e) (Nat.le_of_succ_le_succ hn)
        refine ⟨honly.trans rfl, k + 1, ?_, ?_, ?_⟩
        · rw [hev, hcons]
          simp [State.evqIssue]
        · rw [hhold, hcons]
          rfl
        · rw [hcons, List.length_cons]
          exact fun hk => hfull (Nat.lt_of_succ_lt_succ hk)

/-- A field reads as before if its register does. -/
theorem State.fld_of_reg {s t : State} {f : Fld} {i : Nat} (h : t.reg f.reg i = s.reg f.reg i) : t.fld f i = s.fld f i :=
  congrArg (fun w : Word => bits w.toNat f.hi f.lo) h

theorem State.flag_of_reg {s t : State} {f : Fld} {i : Nat} (h : t.reg f.reg i = s.reg f.reg i) :
    t.flag f i = s.flag f i :=
  congrArg (· == 1) (State.fld_of_reg h)

section
variable {s t : State} (h : Flushed s t)
include h

theorem Flushed.reg (r : Reg) (i : Nat) : t.reg r i = s.reg r i := by
  rw [h.only]
  rfl

/-- What stands between s and the flush wrote registers alone: so does the whole, beside the queue. -/
theorem Flushed.shape {r : State} (hs : s = { r with regs := s.regs }) :
    t = { r with evq := t.evq, regs := t.regs } := by
  have hregs : t.regs = s.regs := by rw [h.only]
  rw [hregs]
  refine h.only.trans ?_
  generalize t.evq = q
  rw [hs]

theorem Flushed.fld (f : Fld) (i : Nat) : t.fld f i = s.fld f i := State.fld_of_reg (h.reg f.reg i)

theorem Flushed.flag (f : Fld) (i : Nat) : t.flag f i = s.flag f i := State.flag_of_reg (h.reg f.reg i)

end

/-! ## Enabling the queue -/

/-- A bit of a word reads as it was written. -/
theorem bit_withBits_same (n i : Nat) (b : Bool) : bit (withBits n i i (b2n b)) i = b := by
  have h := bits_withBits_same n i i (b2n b) (Nat.le_refl i)
  rw [Nat.add_sub_cancel_left, Nat.pow_one] at h
  have hbit : bit (withBits n i i (b2n b)) i = decide (bits (withBits n i i (b2n b)) i i = 1) := by
    rw [bit, bits, Nat.add_sub_cancel_left, Nat.pow_one, Nat.testBit_eq_decide_div_mod_eq, Nat.shiftRight_eq_div_pow]
  rw [hbit, h]
  cases b <;> rfl

/-- The queue lies where it lay while its registers read as they did. -/
theorem State.evqInSystem_of_regs {s t : State} (hlo : t.reg .EVQ_BASE_LO 0 = s.reg .EVQ_BASE_LO 0)
    (hhi : t.reg .EVQ_BASE_HI 0 = s.reg .EVQ_BASE_HI 0) (hsize : t.reg .EVQ_SIZE 0 = s.reg .EVQ_SIZE 0) :
    t.evqInSystem = s.evqInSystem := by
  have h1 : t.fld EVQ_BASE_LO.BASE_LO 0 = s.fld EVQ_BASE_LO.BASE_LO 0 := State.fld_of_reg hlo
  have h2 : t.fld EVQ_BASE_HI.BASE_HI 0 = s.fld EVQ_BASE_HI.BASE_HI 0 := State.fld_of_reg hhi
  have h3 : t.fld EVQ_SIZE.SIZE_LOG2 0 = s.fld EVQ_SIZE.SIZE_LOG2 0 := State.fld_of_reg hsize
  rw [State.evqInSystem, State.evqInSystem, State.evqBase, State.evqBase, State.evqEntries, State.evqEntries, h1, h2, h3]

/-- The RW fields of EVQ_CTRL beside ENABLE, written. -/
def State.evqFields (s : State) (v : Nat) : State :=
  (s.setFld EVQ_CTRL.IRQ_THRESHOLD 0 (bits v 15 8)).setFlag EVQ_CTRL.IRQ_EN 0 (bit v 1)

theorem State.evqFields_reg (s : State) (v : Nat) (r : Reg) (i : Nat) (h : (r, i) ≠ (Reg.EVQ_CTRL, 0)) :
    (s.evqFields v).reg r i = s.reg r i :=
  (State.reg_setFld_ne _ _ _ _ _ _ h).trans (State.reg_setFld_ne _ _ _ _ _ _ h)

theorem State.evqFields_enable (s : State) (v : Nat) :
    (s.evqFields v).flag EVQ_CTRL.ENABLE 0 = s.flag EVQ_CTRL.ENABLE 0 :=
  congrArg (· == 1) ((State.fld_setFld_ne _ _ _ _ _ _ (by decide) (by decide) (by decide)).trans
    (State.fld_setFld_ne _ _ _ _ _ _ (by decide) (by decide) (by decide)))

theorem State.evqFields_irqEn (s : State) (v : Nat) : (s.evqFields v).flag EVQ_CTRL.IRQ_EN 0 = bit v 1 :=
  State.flag_setFlag_same _ _ _ _ rfl (by decide)

theorem State.evqFields_threshold (s : State) (v : Nat) :
    (s.evqFields v).fld EVQ_CTRL.IRQ_THRESHOLD 0 = bits v 15 8 := by
  refine (State.fld_setFld_ne _ _ _ _ _ _ (by decide) (by decide) (by decide)).trans
    ((State.fld_setFld_same _ _ _ _ (by decide) (by decide)).trans ?_)
  exact Nat.mod_mod _ _

theorem State.evqCtrl_eq (s : State) (v : Nat) : s.evqCtrl v =
    if s.flag EVQ_CTRL.ENABLE 0 && !bit v 0 then (s.evqFields v).evqOff
    else if !s.flag EVQ_CTRL.ENABLE 0 && bit v 0 then (s.evqFields v).evqOn
    else s.evqFields v := rfl

/-- A write of EVQ_CTRL that raises ENABLE of a queue in system memory: the fields are written, and held events follow. -/
theorem State.evqCtrl_on (s : State) (v : Nat) (hoff : s.flag EVQ_CTRL.ENABLE 0 = false) (hsys : s.evqInSystem = true)
    (hv : bit v 0 = true) :
    s.evqCtrl v = State.evqFlush 256 ((s.evqFields v).setFlag EVQ_CTRL.ENABLE 0 true) := by
  have hin : (s.evqFields v).evqInSystem = true :=
    (State.evqInSystem_of_regs (s.evqFields_reg v _ _ (by decide)) (s.evqFields_reg v _ _ (by decide))
      (s.evqFields_reg v _ _ (by decide))).trans hsys
  rw [State.evqCtrl_eq, hoff, hv, if_neg (by decide), if_pos (by decide), State.evqOn, if_pos hin]

/-- What such a write makes of the registers and of the queue. -/
theorem State.evqCtrl_on_effect (s : State) (v : Nat) (hoff : s.flag EVQ_CTRL.ENABLE 0 = false)
    (hsys : s.evqInSystem = true) (hv : bit v 0 = true) (hlen : s.evq.hold.length ≤ 256) :
    ∃ n t, s.evqCtrl v = t ∧ t = { s with evq := t.evq, regs := t.regs } ∧
      t.flag EVQ_CTRL.ENABLE 0 = true ∧ t.fld EVQ_CTRL.IRQ_THRESHOLD 0 = bits v 15 8 ∧ t.flag EVQ_CTRL.IRQ_EN 0 = bit v 1 ∧
      t.evq.inFlight.map EvqWrite.ev = s.evq.inFlight.map EvqWrite.ev ++ s.evq.hold.take n ∧
      t.evq.hold = s.evq.hold.drop n ∧ (n < s.evq.hold.length → t.evqFull = true) ∧
      ∀ r i, (r, i) ≠ (Reg.EVQ_CTRL, 0) → t.reg r i = s.reg r i := by
  have hf := State.evqFlush_flushed 256 ((s.evqFields v).setFlag EVQ_CTRL.ENABLE 0 true) hlen
  rw [← s.evqCtrl_on v hoff hsys hv] at hf
  generalize s.evqCtrl v = t at hf
  obtain ⟨n, hev, hhold, hfull⟩ := hf.moved
  refine ⟨n, t, rfl, hf.shape rfl, ?_, ?_, ?_, hev, hhold, hfull, fun r i h => ?_⟩
  · rw [hf.flag]
    exact State.flag_setFlag_same _ _ _ _ rfl (by decide)
  · rw [hf.fld, State.setFlag, State.fld_setFld_ne _ _ _ _ _ _ (by decide) (by decide) (by decide)]
    exact s.evqFields_threshold v
  · rw [hf.flag, State.flag, State.setFlag, State.fld_setFld_ne _ _ _ _ _ _ (by decide) (by decide) (by decide)]
    exact s.evqFields_irqEn v
  · rw [hf.reg, State.setFlag, State.reg_setFld_ne _ _ _ _ _ _ h]
    exact s.evqFields_reg v r i h

/-- Settles O8, from what a raised event does to a queue that is off and from the flush of held events. -/
theorem eventsAreHeldAndWrittenFirst : Obligations.EventsAreHeldAndWrittenFirst := by
  refine ⟨State.raise_joinsHold, State.raise_holdFull, fun s path v hoff hsys hlen => ?_, State.raise_attic_eq⟩
  have hv : withBits v.toNat 0 0 1 < 2 ^ 32 := withBits_lt _ _ _ _ (Nat.le_refl 0) (by decide) v.isLt
  obtain ⟨n, t, ht, honly, hen, hthr, hirq, hev, hhold, hfull, hreg⟩ :=
    s.evqCtrl_on_effect _ hoff hsys (bit_withBits_same v.toNat 0 true) hlen
  have hw : s.hostWriteReg path .EVQ_CTRL 0 (withBits v.toNat 0 0 1) = t.emit (.writeDone path (Reg.EVQ_CTRL.addr 0)) :=
    ht ▸ s.hostWriteReg_eq path .EVQ_CTRL 0 _ hv rfl (by decide)
  refine ⟨_, n, congrArg Host.Outcome.next hw, hen, ?_, ?_, hev, hhold, hfull, ?_, hreg⟩
  · exact hthr.trans (bits_withBits_ne _ _ _ _ _ _ (Nat.le_refl 0) (Or.inr (by decide)))
  · exact hirq.trans (testBit_withBits _ _ _ _ _ (Nat.le_refl 0) (Or.inr (by decide)))
  · rw [honly]
    rfl

end Sys2Proof.Machine
end

section
/-! PROOFS. The acknowledgement of an event entry (R33, R34, R609). -/

namespace Sys2Proof.Machine

/-! ## Bytes written and read -/

theorem Event.bytes_length (e : Event) (ovf : Bool) : (e.bytes ovf).length = 32 := by
  simp only [Event.bytes, List.length_append, leBytes_length]

/-- Memory reads back the bytes written to it. -/
theorem State.bytes_setBytes (s : State) (a : Nat) (l : List Byte) : (s.setBytes a l).bytes a l.length = l := by
  apply List.ext_getElem
  · rw [State.bytes, List.length_map, List.length_range]
  · intro i _ hi
    simp only [State.bytes, List.getElem_map, List.getElem_range]
    rw [State.byte_setBytes_in s a i l hi, nth, List.getD_eq_getElem l 0 hi]

theorem State.byte_of_mem {s t : State} (h : t.mem = s.mem) (a : Nat) : t.byte a = s.byte a :=
  congrArg (Table.getD · a 0) h

theorem State.bytes_of_mem {s t : State} (h : t.mem = s.mem) (a n : Nat) : t.bytes a n = s.bytes a n :=
  List.map_congr_left fun i _ => State.byte_of_mem h (a + i)

/-! ## The acknowledgement without error -/

/-- Judging the interrupt condition writes EVQ_STATUS at most, and may send an interrupt. -/
theorem State.evqIrq_shape (s : State) (sev : Nat) : ∃ g l, s.evqIrq sev = { s with regs := g, out := l } ∧
    ∀ r i, (r, i) ≠ (Reg.EVQ_STATUS, 0) → (s.evqIrq sev).reg r i = s.reg r i := by
  unfold State.evqIrq
  extract_lets thr n
  generalize (thr != 0 && decide (thr ≤ n) || decide (3 ≤ sev)) = c
  cases c with
  | false => exact ⟨s.regs, s.out, rfl, fun _ _ _ => rfl⟩
  | true =>
    obtain ⟨l, hl⟩ := s.pend_shape EVQ_STATUS.IRQ_PEND EVQ_CTRL.IRQ_EN 0 0
    refine ⟨_, l, hl, fun r i h => ?_⟩
    rw [State.when, if_pos rfl, hl]
    exact State.reg_setFld_ne s EVQ_STATUS.IRQ_PEND r 0 i _ h

/-- The oldest entry is written, with the accesses of its write, TAIL advances, and the interrupt condition is judged. -/
theorem State.evqAckOk_cons (s : State) (w : EvqWrite) (rest : List EvqWrite) (h : s.evq.inFlight = w :: rest) :
    ∃ m c, m = (s.setBytes (s.evqBase + 32 * s.fld EVQ_TAIL.TAIL 0) (w.ev.bytes w.ovf)).mem ∧
      s.evqAckOk = (({ s with mem := m, cel := c, evq := { s.evq with inFlight := rest, lastSeq := w.ev.seq } }
        : State).setFld EVQ_TAIL.TAIL 0 ((s.fld EVQ_TAIL.TAIL 0 + 1) % s.evqEntries)).evqIrq w.ev.severity := by
  obtain ⟨m, hm⟩ : ∃ m, s.setBytes (s.evqBase + 32 * s.fld EVQ_TAIL.TAIL 0) (w.ev.bytes w.ovf) = { s with mem := m } :=
    ⟨_, s.setBytes_shape _ _⟩
  refine ⟨m, (({ s with mem := m } : State).memLog s.srcOther true (s.evqBase + 32 * s.fld EVQ_TAIL.TAIL 0) 32).cel,
    (congrArg State.mem hm).symm, ?_⟩
  unfold State.evqAckOk
  rw [h]
  dsimp only
  rw [hm]
  rfl

/-- What a good acknowledgement changes, and where TAIL stands after it. -/
theorem State.evqAckOk_effect (s : State) (w : EvqWrite) (rest : List EvqWrite) (h : s.evq.inFlight = w :: rest) :
    ∃ t, s.evqAckOk = t ∧ t.evq = { s.evq with inFlight := rest, lastSeq := w.ev.seq } ∧
      t.mem = (s.setBytes (s.evqBase + 32 * s.fld EVQ_TAIL.TAIL 0) (w.ev.bytes w.ovf)).mem ∧
      t.fld EVQ_TAIL.TAIL 0 = (s.fld EVQ_TAIL.TAIL 0 + 1) % s.evqEntries % 65536 ∧
      (∀ r i, (r, i) ≠ (Reg.EVQ_TAIL, 0) → (r, i) ≠ (Reg.EVQ_STATUS, 0) → t.reg r i = s.reg r i) ∧
      t = { s with evq := t.evq, regs := t.regs, mem := t.mem, cel := t.cel, out := t.out } := by
  obtain ⟨m, c, hm, hack⟩ := s.evqAckOk_cons w rest h
  rw [← hm]
  obtain ⟨g, l, hirq, hreg⟩ := State.evqIrq_shape (({ s with
    mem := m, cel := c, evq := { s.evq with inFlight := rest, lastSeq := w.ev.seq } } : State).setFld EVQ_TAIL.TAIL 0
      ((s.fld EVQ_TAIL.TAIL 0 + 1) % s.evqEntries)) w.ev.severity
  rw [← hack] at hirq hreg
  generalize s.evqAckOk = t at hirq hreg
  have htail := State.fld_of_reg (f := EVQ_TAIL.TAIL) (hreg .EVQ_TAIL 0 (by decide))
  rw [State.fld_setFld_same _ EVQ_TAIL.TAIL 0 _ (by decide) (by decide)] at htail
  refine ⟨t, rfl, ?_, ?_, htail, fun r i ht hstatus => ?_, ?_⟩
  · rw [hirq]
    rfl
  · rw [hirq]
    rfl
  · exact (hreg r i hstatus).trans (State.reg_setFld_ne _ _ _ _ _ _ ht)
  · rw [hirq]
    rfl

/-! ## The acknowledgement with error -/

theorem State.stat_shape (s : State) (off : Nat) (n : Int) : ∃ e, s.stat off n = { s with epoch := e } := by
  unfold State.stat
  split
  · exact ⟨s.epoch, rfl⟩
  · exact ⟨_, rfl⟩

/-- The registers that an acknowledgement with error writes, and the epoch's counter of dropped events. -/
def State.evqRefused (s : State) : State :=
  ((s.setFlag EVQ_STATUS.WR_ERR 0 true).addFld EVQ_DROPPED.DROPPED 0 1).stat 0xD6 1

theorem State.evqRefused_shape (s : State) : ∃ g e, s.evqRefused = { s with regs := g, epoch := e } := by
  obtain ⟨e, he⟩ := ((s.setFlag EVQ_STATUS.WR_ERR 0 true).addFld EVQ_DROPPED.DROPPED 0 1).stat_shape 0xD6 1
  obtain ⟨g, hg⟩ : ∃ g, (s.setFlag EVQ_STATUS.WR_ERR 0 true).addFld EVQ_DROPPED.DROPPED 0 1 = { s with regs := g } :=
    ⟨_, rfl⟩
  rw [hg] at he
  exact ⟨g, e, by rw [State.evqRefused, hg, he]⟩

theorem State.evqRefused_wrErr (s : State) : s.evqRefused.flag EVQ_STATUS.WR_ERR 0 = true := by
  have hstat : s.evqRefused.flag EVQ_STATUS.WR_ERR 0 =
      ((s.setFlag EVQ_STATUS.WR_ERR 0 true).addFld EVQ_DROPPED.DROPPED 0 1).flag EVQ_STATUS.WR_ERR 0 :=
    State.flag_of_reg (State.stat_reg _ _ _ _ _)
  have hadd := State.reg_setFld_ne (s.setFlag EVQ_STATUS.WR_ERR 0 true) EVQ_DROPPED.DROPPED .EVQ_STATUS 0 0
  exact hstat.trans ((State.flag_of_reg (hadd _ (by decide))).trans (State.flag_setFlag_same _ _ _ _ rfl (by decide)))

theorem State.evqRefused_dropped (s : State) :
    s.evqRefused.fld EVQ_DROPPED.DROPPED 0 = satU 32 (s.fld EVQ_DROPPED.DROPPED 0 + 1) := by
  have hstat : s.evqRefused.fld EVQ_DROPPED.DROPPED 0 =
      ((s.setFlag EVQ_STATUS.WR_ERR 0 true).addFld EVQ_DROPPED.DROPPED 0 1).fld EVQ_DROPPED.DROPPED 0 :=
    State.fld_of_reg (State.stat_reg _ _ _ _ _)
  have hflag : (s.setFlag EVQ_STATUS.WR_ERR 0 true).fld EVQ_DROPPED.DROPPED 0 = s.fld EVQ_DROPPED.DROPPED 0 :=
    State.fld_setFld_ne _ _ _ _ _ _ (by decide) (by decide) (by decide)
  rw [hstat, State.fld_addFld_same _ _ _ _ (by decide) (by decide), hflag]
  rfl

theorem State.evqRefused_reg (s : State) (r : Reg) (i : Nat) (hdropped : (r, i) ≠ (Reg.EVQ_DROPPED, 0))
    (hstatus : (r, i) ≠ (Reg.EVQ_STATUS, 0)) : s.evqRefused.reg r i = s.reg r i :=
  (State.stat_reg _ _ _ _ _).trans
    ((State.reg_setFld_ne _ _ _ _ _ _ hdropped).trans (State.reg_setFld_ne _ _ _ _ _ _ hstatus))

theorem State.reg_of_regs {s t : State} (h : t.regs = s.regs) (r : Reg) (i : Nat) : t.reg r i = s.reg r i :=
  congrArg (Table.getD · (r, i) (r.reset i)) h

/-- The entry is dropped, and the next one carries OVF_BEFORE. -/
theorem State.evqAckErr_effect (s : State) (w : EvqWrite) (rest : List EvqWrite) (h : s.evq.inFlight = w :: rest) :
    ∃ o t, s.evqAckErr = t ∧ t.evq = { s.evq with
        inFlight := (rest.take 1).map (fun x => { x with ovf := true }) ++ rest.drop 1, ovf := o } ∧
      (rest = [] → o = true) ∧ t.regs = s.evqRefused.regs ∧
      t = { s with evq := t.evq, regs := t.regs, epoch := t.epoch } := by
  obtain ⟨g, e, hshape⟩ := s.evqRefused_shape
  have hq : s.evqRefused.evq = s.evq := State.stat_evq _ _ _
  cases rest with
  | nil =>
    have hack : s.evqAckErr = { s.evqRefused with evq := { s.evqRefused.evq with inFlight := [], ovf := true } } := by
      rw [State.evqAckErr, h]
      rfl
    refine ⟨true, _, hack, ?_, fun _ => rfl, rfl, ?_⟩
    · rw [hq]
      rfl
    · rw [hshape]
  | cons x rest =>
    have hack : s.evqAckErr =
        { s.evqRefused with evq := { s.evqRefused.evq with inFlight := { x with ovf := true } :: rest } } := by
      rw [State.evqAckErr, h]
      rfl
    refine ⟨s.evq.ovf, _, hack, ?_, nofun, rfl, ?_⟩
    · rw [hq]
      rfl
    · rw [hshape]

/-- Settles O9, from what the two acknowledgements of the oldest entry do. -/
theorem eventEntryAcknowledged : Obligations.EventEntryAcknowledged := by
  refine ⟨fun s w rest h => ?_, fun s w rest h => ?_⟩
  · obtain ⟨t, hack, hevq, hmem, htail, hreg, ht⟩ := s.evqAckOk_effect w rest h
    have hlen := w.ev.bytes_length w.ovf
    refine ⟨t, congrArg Host.Outcome.next hack, hevq, htail, ?_, fun a ha => ?_, hreg, ht⟩
    · rw [State.bytes_of_mem hmem, ← hlen, State.bytes_setBytes]
    · rw [State.byte_of_mem hmem, State.byte_setBytes_out]
      rwa [hlen]
  · obtain ⟨o, t, hack, hevq, hovf, hregs, ht⟩ := s.evqAckErr_effect w rest h
    have hreg := State.reg_of_regs hregs
    refine ⟨t, congrArg Host.Outcome.next hack, by rw [hevq], fun hr => ?_, ?_, ?_, ?_, fun r i hd hs => ?_, ht⟩
    · rw [hevq]
      exact hovf hr
    · exact (State.flag_of_reg (hreg _ _)).trans s.evqRefused_wrErr
    · exact (State.fld_of_reg (hreg _ _)).trans s.evqRefused_dropped
    · exact State.fld_of_reg ((hreg _ _).trans (s.evqRefused_reg _ _ (by decide) (by decide)))
    · exact (hreg r i).trans (s.evqRefused_reg r i hd hs)

end Sys2Proof.Machine
end

section
/-! PROOFS. The event queue and the device-written rings under the host's control, and SET_ARM (R33, R34, R118, R608). -/

namespace Sys2Proof.Machine

/-! ## Disabling the event queue -/

/-- Acknowledging the oldest entry, either way, takes one write from those in flight and leaves held events and the Attic's
log as they were. -/
theorem State.evqAck_front (s : State) (error : Bool) (w : EvqWrite) (rest : List EvqWrite)
    (h : s.evq.inFlight = w :: rest) :
    ∃ t, (if error then s.evqAckErr else s.evqAckOk) = t ∧ t.evq.inFlight.length = rest.length ∧
      t.evq.hold = s.evq.hold ∧ t.evq.attic = s.evq.attic := by
  cases error with
  | false =>
    obtain ⟨t, hack, hevq, -⟩ := s.evqAckOk_effect w rest h
    refine ⟨t, hack, ?_, ?_, ?_⟩ <;> rw [hevq]
  | true =>
    obtain ⟨o, t, hack, hevq, -⟩ := s.evqAckErr_effect w rest h
    refine ⟨t, hack, ?_, ?_, ?_⟩ <;> rw [hevq]
    rw [List.length_append, List.length_map, ← List.length_append, List.take_append_drop]

/-- Completing the writes in flight leaves none, and held events and the Attic's log as they were. -/
theorem State.evqComplete_done (n : Nat) (s : State) (hn : s.evq.inFlight.length ≤ n) :
    (State.evqComplete n s).evq.inFlight = [] ∧ (State.evqComplete n s).evq.hold = s.evq.hold ∧
      (State.evqComplete n s).evq.attic = s.evq.attic := by
  induction n generalizing s with
  | zero => exact ⟨List.length_eq_zero_iff.mp (Nat.le_zero.mp hn), rfl, rfl⟩
  | succ n ih =>
    cases h : s.evq.inFlight with
    | nil =>
      rw [State.evqComplete, h, if_pos (by decide)]
      exact ⟨h, rfl, rfl⟩
    | cons w rest =>
      obtain ⟨t, hack, hlen, hhold, hattic⟩ :=
        s.evqAck_front (s.poisonedRange (s.evqBase + 32 * s.fld EVQ_TAIL.TAIL 0) 32) w rest h
      rw [h, List.length_cons] at hn
      rw [State.evqComplete, h, hack, if_neg nofun, ← hhold, ← hattic]
      exact ih t (hlen ▸ Nat.le_of_succ_le_succ hn)

/-- ENABLE cleared, TAIL and HEAD at 0. -/
def State.evqClosed (s : State) : State :=
  ((s.setFlag EVQ_CTRL.ENABLE 0 false).setFld EVQ_TAIL.TAIL 0 0).setFld EVQ_HEAD.HEAD 0 0

theorem State.evqClosed_fields (s : State) : s.evqClosed.flag EVQ_CTRL.ENABLE 0 = false ∧
    s.evqClosed.fld EVQ_TAIL.TAIL 0 = 0 ∧ s.evqClosed.fld EVQ_HEAD.HEAD 0 = 0 := by
  have htail := State.fld_setFld_same (s.setFlag EVQ_CTRL.ENABLE 0 false) EVQ_TAIL.TAIL 0 0 (by decide) (by decide)
  have hhead := State.fld_setFld_same ((s.setFlag EVQ_CTRL.ENABLE 0 false).setFld EVQ_TAIL.TAIL 0 0) EVQ_HEAD.HEAD 0 0
    (by decide) (by decide)
  have hflag := s.flag_setFlag_same EVQ_CTRL.ENABLE 0 false rfl (by decide)
  refine ⟨?_, ?_, hhead⟩
  · exact (State.flag_of_reg ((State.reg_setFld_ne _ _ _ _ _ _ (by decide)).trans
      (State.reg_setFld_ne _ _ _ _ _ _ (by decide)))).trans hflag
  · exact (State.fld_of_reg (State.reg_setFld_ne _ _ _ _ _ _ (by decide))).trans htail

theorem State.evqClosed_reg (s : State) (r : Reg) (i : Nat)
    (h : (r, i) ∉ [(Reg.EVQ_CTRL, 0), (Reg.EVQ_TAIL, 0), (Reg.EVQ_HEAD, 0)]) : s.evqClosed.reg r i = s.reg r i := by
  simp only [List.mem_cons, List.not_mem_nil, or_false, not_or] at h
  obtain ⟨hctrl, htail, hhead⟩ := h
  exact (State.reg_setFld_ne _ _ _ _ _ _ hhead).trans
    ((State.reg_setFld_ne _ _ _ _ _ _ htail).trans (State.reg_setFld_ne _ _ _ _ _ _ hctrl))

theorem State.evqClosed_evq (s : State) : s.evqClosed.evq = s.evq := by
  rw [State.evqClosed, State.setFld_evq, State.setFld_evq, State.setFlag_evq]

theorem State.evqClosed_mem (s : State) : s.evqClosed.mem = s.mem := by
  rw [State.evqClosed, State.setFld_mem, State.setFld_mem, State.setFlag_mem]

/-- EVQ_DISABLE of a queue that is on: its writes complete, then it is closed. -/
theorem State.exec_evqDisable (s : State) (path : Path) (v : BitVec 32) (hon : s.flag EVQ_CTRL.ENABLE 0 = true) :
    ∃ w, exec (.evqDisable path v) s = .next ((State.evqComplete s.evq.inFlight.length
      (s.evqFields w)).evqClosed.emit (.writeDone path (Reg.EVQ_CTRL.addr 0))) := by
  have hv : withBits v.toNat 0 0 0 < 2 ^ 32 := withBits_lt _ _ _ _ (Nat.le_refl 0) (by decide) v.isLt
  have hbit : bit (withBits v.toNat 0 0 0) 0 = false := bit_withBits_same v.toNat 0 false
  have hctrl : s.evqCtrl (withBits v.toNat 0 0 0) = (s.evqFields (withBits v.toNat 0 0 0)).evqOff := by
    rw [State.evqCtrl_eq, hon, hbit, if_pos (by decide)]
  have hw : s.hostWriteReg path .EVQ_CTRL 0 (withBits v.toNat 0 0 0) =
      (s.evqCtrl (withBits v.toNat 0 0 0)).emit (.writeDone path (Reg.EVQ_CTRL.addr 0)) :=
    s.hostWriteReg_eq path .EVQ_CTRL 0 _ hv rfl (by decide)
  rw [hctrl] at hw
  exact ⟨_, congrArg Host.Outcome.next hw⟩

/-! ## HEAD of the event queue -/

theorem State.evqFlush_of_nil (n : Nat) (s : State) (h : s.evq.hold = []) : State.evqFlush n s = s := by
  cases n with
  | zero => rfl
  | succ n => rw [State.evqFlush, h]

theorem State.exec_evqHeadWrite (s : State) (path : Path) (v : BitVec 32) : exec (.evqHeadWrite path v) s =
    .next ((s.evqHead (bits v.toNat 15 0)).emit (.writeDone path (Reg.EVQ_HEAD.addr 0))) :=
  congrArg Host.Outcome.next (s.hostWriteReg_eq path .EVQ_HEAD 0 v.toNat v.isLt rfl (by decide))

/-- With nothing held a write of HEAD is taken or ignored, and no entry follows. -/
theorem State.evqHead_of_nil (s : State) (v : Nat) (h : s.evq.hold = []) : s.evqHead v =
    if headOk s.evqEntries (s.fld EVQ_HEAD.HEAD 0) (s.fld EVQ_TAIL.TAIL 0) v then s.setFld EVQ_HEAD.HEAD 0 v else s := by
  have hflush : (s.setFld EVQ_HEAD.HEAD 0 v).when ((s.setFld EVQ_HEAD.HEAD 0 v).flag EVQ_CTRL.ENABLE 0)
      (·.evqFlush 256) = s.setFld EVQ_HEAD.HEAD 0 v := by
    unfold State.when
    split
    · exact State.evqFlush_of_nil 256 _ h
    · rfl
  unfold State.evqHead
  split
  · exact hflush
  · rfl

/-- A HEAD that is taken makes room, into which held events follow. -/
theorem State.evqHead_taken (s : State) (v : Nat) (hon : s.flag EVQ_CTRL.ENABLE 0 = true)
    (hok : headOk s.evqEntries (s.fld EVQ_HEAD.HEAD 0) (s.fld EVQ_TAIL.TAIL 0) v = true) :
    s.evqHead v = State.evqFlush 256 (s.setFld EVQ_HEAD.HEAD 0 v) := by
  have hflag : (s.setFld EVQ_HEAD.HEAD 0 v).flag EVQ_CTRL.ENABLE 0 = true :=
    (State.flag_of_reg (s.reg_setFld_ne EVQ_HEAD.HEAD .EVQ_CTRL 0 0 v (by decide))).trans hon
  rw [State.evqHead, if_pos hok]
  exact congrArg (fun c => State.when (s.setFld EVQ_HEAD.HEAD 0 v) c (·.evqFlush 256)) hflag

/-! ## HEAD of the device-written rings -/

theorem bits_high (v : BitVec 16) : bits (v.toNat * 2 ^ 16) 31 16 = v.toNat := by
  have hv := v.isLt
  rw [bits, Nat.shiftRight_eq_div_pow]
  omega

/-- A write of HEAD in the upper half of a ring's pointer register. -/
theorem State.hostWriteReg_ringHead (s : State) (path : Path) (r : Reg) (head tail : Fld) (n : Nat) (v : BitVec 16)
    (ht : targetOf (r.addr 0) 4 = some (.reg (r, 0))) (hb : r.desc.block ≠ .GT)
    (hw : ∀ w, s.writeReg r 0 w = s.ringHead head tail n (bits w 31 16)) :
    s.hostWriteReg path r 0 (v.toNat * 2 ^ 16) =
      (if headOk n (s.fld head 0) (s.fld tail 0) v.toNat then s.setFld head 0 v.toNat else s).emit
        (.writeDone path (r.addr 0)) := by
  have hv : v.toNat * 2 ^ 16 < 2 ^ 32 := by
    have := v.isLt
    omega
  rw [s.hostWriteReg_eq path r 0 _ hv ht hb, hw, bits_high]
  rfl

/-! ## Rewriting what was acknowledged with error -/

theorem State.retryCompletion_failed (s : State) (e : List Byte) (rest : List (List Byte))
    (h : s.completion.inFlight = e :: rest) (hf : s.completion.failed = true) :
    s.retryCompletion = if s.completion.lastTry + msCycles ≤ s.now
      then ({ s with completion := { s.completion with inFlight := [], failed := false } } : State).putCompletion e
      else s := by
  rw [State.retryCompletion, h, hf]
  simp only [Bool.true_and, decide_eq_true_eq]

theorem State.retryTelemetry_failed (s : State) (e : List Byte) (rest : List (List Byte))
    (h : s.telemetry.inFlight = e :: rest) (hf : s.telemetry.failed = true) :
    s.retryTelemetry = if s.telemetry.lastTry + msCycles ≤ s.now
      then ({ s with telemetry := { s.telemetry with inFlight := [], failed := false } } : State).putTelemetry e
      else s := by
  rw [State.retryTelemetry, h, hf]
  simp only [Bool.true_and, decide_eq_true_eq]

/-! ## SET_ARM -/

/-- SET_ARM is set; the word's ST fields are staged. -/
theorem State.exec_setArm (s : State) (path : Path) (v : BitVec 32) : ∃ w, exec (.setArm path v) s =
    .next (((s.stageHost (.TDC_TIME_CFG, 0) w).setFlag TDC_TIME_CFG.SET_ARM 0 true).emit
      (.writeDone path (Reg.TDC_TIME_CFG.addr 0))) := by
  have hv : withBits v.toNat 31 31 1 < 2 ^ 32 := withBits_lt _ _ _ _ (Nat.le_refl 31) (by decide) v.isLt
  have hbit : bit (withBits v.toNat 31 31 1) 31 = true := bit_withBits_same v.toNat 31 true
  have hfields : s.writeFields .TDC_TIME_CFG 0 (withBits v.toNat 31 31 1) =
      s.stageHost (.TDC_TIME_CFG, 0) (withBits v.toNat 31 31 1) := s.writeFields_staged _ _ _ (by decide) (by decide)
  have hw : s.hostWriteReg path .TDC_TIME_CFG 0 (withBits v.toNat 31 31 1) =
      (((s.writeFields .TDC_TIME_CFG 0 (withBits v.toNat 31 31 1)).when (bit (withBits v.toNat 31 31 1) 31)
        (·.setFlag TDC_TIME_CFG.SET_ARM 0 true))).emit (.writeDone path (Reg.TDC_TIME_CFG.addr 0)) :=
    s.hostWriteReg_eq path .TDC_TIME_CFG 0 _ hv rfl (by decide)
  rw [hbit, hfields] at hw
  exact ⟨_, congrArg Host.Outcome.next hw⟩

theorem State.stageHost_reg (s : State) (k : RegKey) (v : Nat) (r : Reg) (i : Nat) :
    (s.stageHost k v).reg r i = s.reg r i := rfl

/-! ## The receive ring of the fabric -/

theorem CelState.foldl_moved {α : Type} (f : CelState → α → CelState) (hf : ∀ c a, (f c a).moved = c.moved) (l : List α)
    (c : CelState) : (l.foldl f c).moved = c.moved := by
  induction l generalizing c with
  | nil => rfl
  | cons a l ih => exact (ih (f c a)).trans (hf c a)

theorem CelState.hist_moved (c : CelState) (now h source : Nat) (cs : List (Nat × Nat × Nat × Nat × Nat)) :
    (c.hist now h source cs).moved = c.moved := by
  unfold CelState.hist
  split <;> rfl

theorem CelState.wake_moved (c : CelState) (now m : Nat) : (c.wake now m).moved = c.moved := by
  unfold CelState.wake
  split
  · exact CelState.foldl_moved _ (fun c _ => c.hist_moved _ _ _ _) _ _
  · rfl

theorem CelState.access_moved (c : CelState) (now source : Nat) (write : Bool) (a n : Nat) :
    (c.access now source write a n).moved = c.moved := by
  unfold CelState.access
  split
  · rfl
  · extract_lets w
    split
    · rfl
    · refine (CelState.hist_moved _ _ _ _ _).trans ?_
      unfold w
      split
      · rfl
      · exact c.wake_moved _ _

theorem CelState.log_moved (c : CelState) (now source : Nat) (write : Bool) (a n : Nat) :
    (c.log now source write a n).moved = c.moved := by
  unfold CelState.log
  split
  · rfl
  · exact CelState.foldl_moved _ (fun c _ => c.access_moved _ _ _ _ _) _ _

theorem CelState.mirror_moved (c : CelState) (now h r a n : Nat) : (c.mirror now h r a n).moved = c.moved := by
  unfold CelState.mirror
  split <;> rfl

theorem State.memLog_moved (s : State) (source : Nat) (write : Bool) (a n : Nat) :
    (s.memLog source write a n).cel.moved = s.cel.moved := by
  have hl := s.cel.log_moved s.now source write a n
  unfold State.memLog
  dsimp only
  split
  · split
    · exact (CelState.mirror_moved _ _ _ _ _ _).trans hl
    · exact hl
  · exact hl

/-- From s to t memory was written, and the commands of the writes were noted: which addresses serve is as it was. -/
structure Written (s t : State) : Prop where
  only : t = { s with mem := t.mem, cel := t.cel }
  moved : t.cel.moved = s.cel.moved
  pc : t.cel.pc = s.cel.pc

theorem Written.refl (s : State) : Written s s := ⟨rfl, rfl, rfl⟩

theorem Written.trans {s t u : State} (h : Written s t) (k : Written t u) : Written s u := by
  refine ⟨?_, k.moved.trans h.moved, k.pc.trans h.pc⟩
  have hu := k.only
  rw [h.only] at hu
  exact hu

theorem Written.poisoned {s t : State} (h : Written s t) (a : Nat) : t.poisoned a = s.poisoned a := by
  unfold State.poisoned State.hpcOf State.pcDown State.pc CelState.hpcOf CelState.pcOf
  rw [h.moved, h.pc]

/-- A write of memory that serves. -/
theorem State.setBytes_memLog_written (s : State) (source a : Nat) (bs : List Byte) :
    Written s ((s.setBytes a bs).memLog source true a bs.length) := by
  obtain ⟨m, hm⟩ : ∃ m, s.setBytes a bs = { s with mem := m } := ⟨_, s.setBytes_shape a bs⟩
  rw [hm]
  exact ⟨rfl, State.memLog_moved _ _ _ _ _,
    congrArg (fun v => v.cel.pc) (State.memLog_pcs ({ s with mem := m } : State) source true a bs.length).same⟩

/-- All bytes of a 128-byte unit lie on one pseudo-channel. -/
theorem CelState.hpcOf_unit (c : CelState) (a : Nat) : c.hpcOf (a / 128 * 128) = c.hpcOf a := by
  have hcellar : (a / 128 * 128 < cellarSize) = (a < cellarSize) := by
    unfold cellarSize
    exact propext (by omega)
  have hsystem : (sysBase ≤ a / 128 * 128 && a / 128 * 128 < sysBase + sysSize) =
      (sysBase ≤ a && a < sysBase + sysSize) := by
    unfold sysBase sysSize
    rw [Bool.eq_iff_iff]
    simp only [Bool.and_eq_true, decide_eq_true_eq]
    omega
  have hcopy : a / 128 * 128 / 16384 = a / 16384 := by omega
  unfold CelState.hpcOf
  simp only [hcellar, hsystem, hcopy, Nat.mul_div_cancel _ (by decide : 0 < 128)]
  by_cases hs : (sysBase ≤ a && a < sysBase + sysSize) = true
  · have hle : sysBase ≤ a := of_decide_eq_true (Bool.and_eq_true_iff.mp hs).1
    have hpart : (a / 128 * 128 - sysBase) / 2 ^ 30 = (a - sysBase) / 2 ^ 30 := by
      unfold sysBase at hle ⊢
      omega
    have hunit : (a / 128 * 128 - sysBase) % 2 ^ 30 / 128 = (a - sysBase) % 2 ^ 30 / 128 := by
      unfold sysBase at hle ⊢
      omega
    rw [hpart, hunit]
  · simp only [hs, if_false, Bool.false_eq_true]

/-- A 64-byte unit lies on one pseudo-channel, the one of its address. -/
theorem State.poisonedRange_unit (s : State) (a : Nat) (ha : a % 64 = 0) : s.poisonedRange a 64 = s.poisoned a := by
  have hone : (a + 64 - 1) / 128 - a / 128 + 1 = 1 := by omega
  have hpc : s.hpcOf (a / 128 * 128) = s.hpcOf a := s.cel.hpcOf_unit a
  unfold State.poisonedRange State.poisoned
  rw [hone]
  simp [hpc]

/-- A 64-byte unit of memory is written, or refused where its pseudo-channel does not serve. -/
theorem State.physPut_unit (s : State) (source a : Nat) (bs : List Byte) (hlen : bs.length = 64) (ha : a % 64 = 0)
    (hmem : (inCellar a 64 || inSystem a 64) = true) :
    s.physPut source a bs = if s.poisoned a then none else some ((s.setBytes a bs).memLog source true a bs.length) := by
  rw [State.physPut, hlen, if_pos hmem, s.poisonedRange_unit a ha]

/-- Units of memory written one after another: all of them, or none if a pseudo-channel of theirs does not serve. -/
theorem State.physPut_units {α : Type} (l : List α) (source : Nat) (place : α → Nat) (part : α → List Byte) (s : State)
    (hunit : ∀ i ∈ l, (part i).length = 64 ∧ place i % 64 = 0 ∧ (inCellar (place i) 64 || inSystem (place i) 64) = true) :
    (l.any (fun i => s.poisoned (place i)) = true →
      l.foldl (fun (t : Option State) i => t.bind (·.physPut source (place i) (part i))) (some s) = none) ∧
    (l.any (fun i => s.poisoned (place i)) = false →
      ∃ u, l.foldl (fun (t : Option State) i => t.bind (·.physPut source (place i) (part i))) (some s) = some u ∧
        Written s u) := by
  induction l generalizing s with
  | nil => exact ⟨nofun, fun _ => ⟨s, rfl, .refl s⟩⟩
  | cons i l ih =>
    obtain ⟨⟨hlen, ha, hmem⟩, hrest⟩ := List.forall_mem_cons.mp hunit
    have hput := s.physPut_unit source (place i) (part i) hlen ha hmem
    have hnone : ∀ l : List α,
        l.foldl (fun (t : Option State) i => t.bind (·.physPut source (place i) (part i))) none = none := by
      intro l
      induction l with
      | nil => rfl
      | cons _ _ ih => exact ih
    rw [List.any_cons, List.foldl_cons, Option.bind_some, hput]
    cases hp : s.poisoned (place i) with
    | true => exact ⟨fun _ => hnone l, nofun⟩
    | false =>
      have hw := s.setBytes_memLog_written source (place i) (part i)
      have hsame : l.any (fun j => s.poisoned (place j)) =
          l.any (fun j => ((s.setBytes (place i) (part i)).memLog source true (place i) (part i).length).poisoned (place j)) := by
        simp only [hw.poisoned]
      obtain ⟨hfail, hdone⟩ := ih _ hrest
      rw [Bool.false_or, hsame, if_neg Bool.false_ne_true]
      exact ⟨hfail, fun h => (hdone h).imp fun u hu => ⟨hu.1, hw.trans hu.2⟩⟩

/-- The units of an entry at the write pointer of the receive ring, written one after another. -/
def State.rxWrite (s : State) (e : List Byte) : Option State :=
  (List.range (e.length / 64)).foldl (fun (t : Option State) i => t.bind
    (·.physPut s.srcOther (s.rxBase + 64 * (((s.reg .FAB_RX_WP 0).toNat + i) % s.rxUnits)) (slice e (64 * i) 64))) (some s)

/-- An entry that is refused waits for its next try. -/
theorem State.rxPump_refused (s : State) (e : List Byte) (h : s.fab.rxHeld = [e]) (hw : s.rxWrite e = none) :
    State.rxPump 1 s = { s with fab := { s.fab with rxTry := s.now } } := by
  unfold State.rxWrite at hw
  unfold State.rxPump
  rw [h]
  dsimp only
  rw [hw]

/-- An entry that is written moves the write pointer. -/
theorem State.rxPump_written (s u : State) (e : List Byte) (h : s.fab.rxHeld = [e]) (hw : s.rxWrite e = some u) :
    State.rxPump 1 s = ({ u with fab := { u.fab with rxHeld := [] } } : State).setReg .FAB_RX_WP 0
      (BitVec.ofNat 32 ((s.reg .FAB_RX_WP 0).toNat + e.length / 64)) := by
  unfold State.rxWrite at hw
  unfold State.rxPump
  rw [h]
  dsimp only
  rw [hw]
  rfl

/-- The units of a receive ring in memory are aligned units of memory. -/
theorem State.rxUnit_inMemory (s : State) (k : Nat) (hk : k < s.rxUnits)
    (h : (inCellar s.rxBase (64 * s.rxUnits) || inSystem s.rxBase (64 * s.rxUnits)) = true) :
    (s.rxBase + 64 * k) % 64 = 0 ∧ (inCellar (s.rxBase + 64 * k) 64 || inSystem (s.rxBase + 64 * k) 64) = true := by
  have hbase : s.rxBase % 64 = 0 := by
    unfold State.rxBase
    omega
  refine ⟨by omega, ?_⟩
  simp only [inCellar, inSystem, Bool.or_eq_true, Bool.and_eq_true, decide_eq_true_eq] at h ⊢
  omega

/-- Whether the units of an entry are refused or written. -/
theorem State.rxWrite_cases (s : State) (e : List Byte)
    (hring : (inCellar s.rxBase (64 * s.rxUnits) || inSystem s.rxBase (64 * s.rxUnits)) = true) :
    ((List.range (e.length / 64)).any
        (fun i => s.poisoned (s.rxBase + 64 * (((s.reg .FAB_RX_WP 0).toNat + i) % s.rxUnits))) = true →
      s.rxWrite e = none) ∧
    ((List.range (e.length / 64)).any
        (fun i => s.poisoned (s.rxBase + 64 * (((s.reg .FAB_RX_WP 0).toNat + i) % s.rxUnits))) = false →
      ∃ u, s.rxWrite e = some u ∧ Written s u) := by
  refine State.physPut_units _ _ _ _ s (fun i hi => ⟨?_, s.rxUnit_inMemory _ (Nat.mod_lt _ (Nat.two_pow_pos _)) hring⟩)
  have hi := List.mem_range.mp hi
  rw [slice, List.length_take, List.length_drop]
  omega

theorem State.retryItems_early (s : State) (h : s.now < s.fab.rxTry + msCycles) : s.retryItems = s := by
  rw [State.retryItems, decide_eq_false (Nat.not_le.mpr h)]
  rfl

theorem State.retryItems_due (s : State) (e : List Byte) (h : s.fab.rxTry + msCycles ≤ s.now) (he : s.fab.rxHeld = [e]) :
    s.retryItems = State.rxPump 1 s := by
  rw [State.retryItems, decide_eq_true h, State.when, if_pos rfl, he]
  rfl

theorem State.exec_rewrite_on (s : State) (h : s.flag FAB_RX_BASE_HI.ENABLE 0 = true) :
    exec (.ringRewriteRetry .fabric) s = .next s.retryItems := by
  have hexec : exec (.ringRewriteRetry .fabric) s =
      .next (s.when (s.flag FAB_RX_BASE_HI.ENABLE 0) (·.retryItems)) := rfl
  rw [hexec, h, State.when, if_pos rfl]

/-- A rewrite of the receive ring. -/
theorem State.exec_rewrite_fabric (s : State) (hon : s.flag FAB_RX_BASE_HI.ENABLE 0 = true) :
    (s.now < s.fab.rxTry + msCycles → exec (.ringRewriteRetry .fabric) s = .next s) ∧
    (∀ (e : List Byte), s.fab.rxHeld = [e] → s.fab.rxTry + msCycles ≤ s.now →
      (inCellar s.rxBase (64 * s.rxUnits) || inSystem s.rxBase (64 * s.rxUnits)) = true →
      let wp := (s.reg .FAB_RX_WP 0).toNat
      ((List.range (e.length / 64)).any (fun i => s.poisoned (s.rxBase + 64 * ((wp + i) % s.rxUnits))) = false →
        ∃ t, exec (.ringRewriteRetry .fabric) s = .next t ∧ t.fab = { s.fab with rxHeld := [] } ∧
          t.reg .FAB_RX_WP 0 = BitVec.ofNat 32 (wp + e.length / 64) ∧ t.evq = s.evq) ∧
      ((List.range (e.length / 64)).any (fun i => s.poisoned (s.rxBase + 64 * ((wp + i) % s.rxUnits))) = true →
        exec (.ringRewriteRetry .fabric) s = .next { s with fab := { s.fab with rxTry := s.now } })) := by
  rw [s.exec_rewrite_on hon]
  refine ⟨fun h => congrArg _ (s.retryItems_early h), fun e he hdue hring => ?_⟩
  rw [s.retryItems_due e hdue he]
  obtain ⟨hrefused, hwritten⟩ := s.rxWrite_cases e hring
  refine ⟨fun h => ?_, fun h => congrArg _ (s.rxPump_refused e he (hrefused h))⟩
  obtain ⟨u, hput, hu⟩ := hwritten h
  refine ⟨_, congrArg _ (s.rxPump_written u e he hput), ?_, State.reg_setReg_same _ _ _ _, ?_⟩
  · rw [hu.only]
    rfl
  · rw [hu.only]
    rfl

theorem State.exec_rewrite_off (s : State) :
    (s.flag FAB_RX_BASE_HI.ENABLE 0 = false → exec (.ringRewriteRetry .fabric) s = .next s) ∧
    (s.flag TRG_RTC_BASE_HI.ENABLE 0 = false → exec (.ringRewriteRetry .completion) s = .next s) ∧
    (s.flag PAN_TEL_BASE_HI.ENABLE 0 = false → exec (.ringRewriteRetry .telemetry) s = .next s) :=
  ⟨congrArg (fun c => Host.Outcome.next (s.when c (·.retryItems))),
    congrArg (fun c => Host.Outcome.next (s.when c (·.retryCompletion))),
    congrArg (fun c => Host.Outcome.next (s.when c (·.retryTelemetry)))⟩

/-! ## The obligation -/

/-- EVQ_DISABLE of a queue that is on. -/
theorem State.exec_evqDisable_effect (s : State) (path : Path) (v : BitVec 32) (hon : s.flag EVQ_CTRL.ENABLE 0 = true) :
    ∃ t, exec (.evqDisable path v) s = .next t ∧ t.flag EVQ_CTRL.ENABLE 0 = false ∧ t.fld EVQ_TAIL.TAIL 0 = 0 ∧
      t.fld EVQ_HEAD.HEAD 0 = 0 ∧ t.evq.inFlight = [] ∧ t.evq.hold = s.evq.hold ∧ t.evq.attic = s.evq.attic := by
  obtain ⟨w, hexec⟩ := s.exec_evqDisable path v hon
  obtain ⟨hempty, hhold, hattic⟩ := State.evqComplete_done s.evq.inFlight.length (s.evqFields w) (Nat.le_refl _)
  generalize State.evqComplete s.evq.inFlight.length (s.evqFields w) = u at hexec hempty hhold hattic
  obtain ⟨hflag, htail, hhead⟩ := u.evqClosed_fields
  exact ⟨_, hexec, (State.emit_flag _ _ _ _).trans hflag, (State.emit_fld _ _ _ _).trans htail,
    (State.emit_fld _ _ _ _).trans hhead, hempty, hhold, hattic⟩

/-- EVQ_DISABLE of a queue that is on, with no write in flight. -/
theorem State.exec_evqDisable_idle (s : State) (path : Path) (v : BitVec 32) (hon : s.flag EVQ_CTRL.ENABLE 0 = true)
    (hidle : s.evq.inFlight = []) :
    ∃ t, exec (.evqDisable path v) s = .next t ∧ t.flag EVQ_CTRL.ENABLE 0 = false ∧ t.fld EVQ_TAIL.TAIL 0 = 0 ∧
      t.fld EVQ_HEAD.HEAD 0 = 0 ∧ t.evq = s.evq ∧ t.mem = s.mem ∧
      ∀ r i, (r, i) ∉ [(Reg.EVQ_CTRL, 0), (.EVQ_TAIL, 0), (.EVQ_HEAD, 0)] → t.reg r i = s.reg r i := by
  obtain ⟨w, hexec⟩ := s.exec_evqDisable path v hon
  rw [hidle, List.length_nil, State.evqComplete] at hexec
  have hreg := s.evqFields_reg w
  have hevq : (s.evqFields w).evq = s.evq := by rw [State.evqFields, State.setFlag_evq, State.setFld_evq]
  have hmem : (s.evqFields w).mem = s.mem := by rw [State.evqFields, State.setFlag_mem, State.setFld_mem]
  generalize s.evqFields w = u at hexec hreg hevq hmem
  obtain ⟨hflag, htail, hhead⟩ := u.evqClosed_fields
  refine ⟨_, hexec, (State.emit_flag _ _ _ _).trans hflag, (State.emit_fld _ _ _ _).trans htail,
    (State.emit_fld _ _ _ _).trans hhead, (State.emit_evq _ _).trans (u.evqClosed_evq.trans hevq),
    (State.emit_mem _ _).trans (u.evqClosed_mem.trans hmem), fun r i h => (State.emit_reg _ _ _ _).trans ?_⟩
  exact (State.evqClosed_reg _ r i h).trans (hreg r i fun hr => h (hr ▸ List.mem_cons_self))

/-- A HEAD that is taken: held events follow into the room that it makes. -/
theorem State.exec_evqHeadWrite_taken (s : State) (path : Path) (v : BitVec 32) (hon : s.flag EVQ_CTRL.ENABLE 0 = true)
    (hlen : s.evq.hold.length ≤ 256)
    (hok : headOk s.evqEntries (s.fld EVQ_HEAD.HEAD 0) (s.fld EVQ_TAIL.TAIL 0) (bits v.toNat 15 0) = true) :
    ∃ t n, exec (.evqHeadWrite path v) s = .next t ∧ t.fld EVQ_HEAD.HEAD 0 = bits v.toNat 15 0 ∧
      t.evq.inFlight.map EvqWrite.ev = s.evq.inFlight.map EvqWrite.ev ++ s.evq.hold.take n ∧
      t.evq.hold = s.evq.hold.drop n ∧ (n < s.evq.hold.length → t.evqFull = true) ∧
      t = { s with evq := t.evq, regs := t.regs, out := .writeDone path (Reg.EVQ_HEAD.addr 0) :: s.out } ∧
      ∀ r i, (r, i) ≠ (Reg.EVQ_HEAD, 0) → t.reg r i = s.reg r i := by
  have hf := State.evqFlush_flushed 256 (s.setFld EVQ_HEAD.HEAD 0 (bits v.toNat 15 0)) hlen
  have hexec := s.exec_evqHeadWrite path v
  rw [s.evqHead_taken _ hon hok] at hexec
  generalize State.evqFlush 256 (s.setFld EVQ_HEAD.HEAD 0 (bits v.toNat 15 0)) = t at hf hexec
  obtain ⟨n, hev, hhold, hfull⟩ := hf.moved
  have hhead : t.fld EVQ_HEAD.HEAD 0 = bits v.toNat 15 0 := by
    rw [hf.fld, State.fld_setFld_same _ _ _ _ (by decide) (by decide)]
    exact Nat.mod_mod _ _
  have hshape : t = { s with evq := t.evq, regs := t.regs } := hf.shape rfl
  refine ⟨_, n, hexec, hhead, hev, hhold, hfull, ?_, fun r i h => ?_⟩
  · rw [hshape]
    rfl
  · exact (hf.reg r i).trans (State.reg_setFld_ne _ _ _ _ _ _ h)

/-- Settles O10, from what each write of the host does to its queue or ring, and from the rewrites. -/
theorem ringsUnderHostControl : Obligations.RingsUnderHostControl := by
  refine ⟨State.exec_evqDisable_idle, fun s path v hnil => ?_, State.exec_evqDisable_effect, State.exec_evqHeadWrite_taken,
    fun s path v => ?_, fun s path v => ?_, fun s path v => ?_, fun s e hon he hf => ?_, fun s e hon he hf => ?_,
    State.exec_rewrite_fabric, State.exec_rewrite_off, fun s path v => ?_⟩
  · rw [s.exec_evqHeadWrite, s.evqHead_of_nil _ hnil]
  · exact congrArg _ (s.hostWriteReg_ringHead path .TDC_RING_PTR _ _ _ v rfl (by decide) fun _ => rfl)
  · exact congrArg _ (s.hostWriteReg_ringHead path .TRG_RTC_PTR _ _ _ v rfl (by decide) fun _ => rfl)
  · exact congrArg _ (s.hostWriteReg_ringHead path .PAN_TEL_PTR _ _ _ v rfl (by decide) fun _ => rfl)
  · rw [← s.retryCompletion_failed e [] he hf]
    exact congrArg (fun c => Host.Outcome.next (s.when c (·.retryCompletion))) hon
  · rw [← s.retryTelemetry_failed e [] he hf]
    exact congrArg (fun c => Host.Outcome.next (s.when c (·.retryTelemetry))) hon
  · obtain ⟨w, hexec⟩ := s.exec_setArm path v
    have hreg := s.stageHost_reg (.TDC_TIME_CFG, 0) w
    have hmem : (s.stageHost (.TDC_TIME_CFG, 0) w).mem = s.mem := rfl
    generalize s.stageHost (.TDC_TIME_CFG, 0) w = u at hexec hreg hmem
    have harm := u.flag_setFlag_same TDC_TIME_CFG.SET_ARM 0 true rfl (by decide)
    refine ⟨_, hexec, (State.emit_flag _ _ _ _).trans harm,
      (State.emit_mem _ _).trans ((State.setFlag_mem _ _ _ _).trans hmem), fun r i h => (State.emit_reg _ _ _ _).trans ?_⟩
    exact (State.reg_setFld_ne _ _ _ _ _ _ h).trans (hreg r i)

end Sys2Proof.Machine
end

section
/-! PROOFS. The measurement functions of Jasper and the ring of their results (R33, R34, R109, R110, R112 to R114). -/

namespace Sys2Proof.Machine

/-! ## What results and errors leave alone -/

theorem State.stat_tins (s : State) (off : Nat) (n : Int) : (s.stat off n).tins = s.tins := by
  obtain ⟨e, h⟩ := s.stat_shape off n
  rw [h]

theorem State.stat_mem (s : State) (off : Nat) (n : Int) : (s.stat off n).mem = s.mem := by
  obtain ⟨e, h⟩ := s.stat_shape off n
  rw [h]

theorem State.stat_jasper (s : State) (off : Nat) (n : Int) : (s.stat off n).jasper = s.jasper := by
  obtain ⟨e, h⟩ := s.stat_shape off n
  rw [h]

/-- An UNPAIRED error counts in its register and in the epoch's statistics: the inputs, the ring and memory are as they
were, and the count does not fall. -/
structure Unpaired (i : Nat) (s t : State) : Prop where
  tins : t.tins = s.tins
  jasper : t.jasper = s.jasper
  mem : t.mem = s.mem
  count : s.fld TDC_IN_ERR.UNPAIRED i ≤ t.fld TDC_IN_ERR.UNPAIRED i

theorem Unpaired.refl (i : Nat) (s : State) : Unpaired i s s := ⟨rfl, rfl, rfl, Nat.le_refl _⟩

theorem Unpaired.trans {i : Nat} {s t u : State} (h : Unpaired i s t) (k : Unpaired i t u) : Unpaired i s u :=
  ⟨k.tins.trans h.tins, k.jasper.trans h.jasper, k.mem.trans h.mem, h.count.trans k.count⟩

theorem le_satU (w a n : Nat) (h : a < 2 ^ w) : a ≤ satU w (a + n) := by
  unfold satU
  split <;> omega

theorem State.unpaired_unpaired (s : State) (i : Nat) : Unpaired i s (s.unpaired i) := by
  have hfld : (s.unpaired i).fld TDC_IN_ERR.UNPAIRED i =
      (s.addFld TDC_IN_ERR.UNPAIRED i 1).fld TDC_IN_ERR.UNPAIRED i := State.fld_of_reg (State.stat_reg _ _ _ _ _)
  refine ⟨State.stat_tins _ _ _, State.stat_jasper _ _ _, State.stat_mem _ _ _, ?_⟩
  rw [hfld, State.fld_addFld_same _ _ _ _ (by decide) (by decide)]
  exact le_satU _ _ _ (Nat.mod_lt _ (Nat.two_pow_pos _))

theorem State.over_unpaired {α : Type} (l : List α) (s : State) (i : Nat) :
    Unpaired i s (s.over l (fun s _ => s.unpaired i)) := by
  induction l generalizing s with
  | nil => exact .refl i s
  | cons a l ih => exact (s.unpaired_unpaired i).trans (ih _)

/-! ## Starts that find no stop -/

/-- A start is older than PAIR_WIN and in the window of no stop that waits. -/
def State.startOld (s : State) (i win : Nat) (a : Stamp) : Bool :=
  decide (a.inst + win < 160 * s.now) && !(s.tin i).stops.any (Machine.inWindow win a)

theorem State.dropStarts_eq (s : State) (i win : Nat) : s.dropStarts i win =
    (s.over ((s.tin i).starts.filter (s.startOld i win)) (fun s _ => s.unpaired i)).setTin i
      { s.tin i with starts := (s.tin i).starts.filter (fun a => !s.startOld i win a) } := rfl

theorem State.dropStarts_tin (s : State) (i win : Nat) : (s.dropStarts i win).tin i =
    { s.tin i with starts := (s.tin i).starts.filter (fun a => !s.startOld i win a) } := by
  rw [State.dropStarts_eq, State.tin_setTin_same]

/-- What dropping the old starts leaves, beside the input's own state. -/
theorem State.dropStarts_rest (s : State) (i win : Nat) : (s.dropStarts i win).jasper = s.jasper ∧
    (s.dropStarts i win).mem = s.mem ∧
    s.fld TDC_IN_ERR.UNPAIRED i ≤ (s.dropStarts i win).fld TDC_IN_ERR.UNPAIRED i := by
  have h := State.over_unpaired ((s.tin i).starts.filter (s.startOld i win)) s i
  rw [State.dropStarts_eq, State.setTin_jasper, State.setTin_mem, State.setTin_fld]
  exact ⟨h.jasper, h.mem, h.count⟩

theorem State.mem_dropStarts (s : State) (i win : Nat) (a : Stamp) : a ∈ ((s.dropStarts i win).tin i).starts ↔
    a ∈ (s.tin i).starts ∧ (160 * s.now ≤ a.inst + win ∨ ∃ x ∈ (s.tin i).stops, Machine.inWindow win a x = true) := by
  rw [State.dropStarts_tin, List.mem_filter]
  simp only [State.startOld, Bool.not_and, Bool.not_not, Bool.or_eq_true, Bool.not_eq_true', decide_eq_false_iff_not,
    Nat.not_lt, List.any_eq_true]

/-! ## Results -/

/-- A result numbers itself; the ring aside, nothing else changes. -/
theorem State.jasperPut_tins (s : State) (type i flags : Nat) (body : List Byte) :
    (s.jasperPut type i flags body).tins = (s.setTin i { s.tin i with results := (s.tin i).results + 1 }).tins ∧
    (s.jasperPut type i flags body).mem = s.mem := by
  have hdrop : ∀ u : State, u.jasperDrop.tins = u.tins ∧ u.jasperDrop.mem = u.mem := fun u =>
    ⟨State.stat_tins _ _ _, State.stat_mem _ _ _⟩
  unfold State.jasperPut
  extract_lets t n s1
  split
  · exact ⟨rfl, rfl⟩
  · split
    · exact hdrop s1
    · split
      next d s2 hdraw =>
      have hs2 : s2.tins = s1.tins ∧ s2.mem = s1.mem := by
        split at hdraw
        · cases hdraw
          exact ⟨rfl, rfl⟩
        · cases hdraw
          exact ⟨rfl, rfl⟩
      split
      · exact ⟨(hdrop s2).1.trans hs2.1, (hdrop s2).2.trans hs2.2⟩
      · exact hs2

/-- An interval of an input of function INTERVAL is a result: it numbers itself, and memory is as it was. -/
theorem State.interval_tins (s : State) (i : Nat) (a : Stamp) (steps : Int) (rising : Bool) (h : s.func i = 1) :
    (s.interval i (some a) steps rising).tins =
      (s.setTin i { s.tin i with results := (s.tin i).results + 1 }).tins ∧
    (s.interval i (some a) steps rising).mem = s.mem := by
  unfold State.interval
  rw [h]
  exact s.jasperPut_tins _ _ _ _

theorem State.tin_of_tins {s t : State} (h : t.tins = s.tins) (i : Nat) : t.tin i = s.tin i :=
  congrArg (Table.getD · i ({} : Tin)) h

/-! ## PAIR_WIN_EXPIRE -/

theorem State.pairWin_interval (s : State) (i : Nat) (h : s.func i = 1) : s.pairWin i = 160 * s.param i := by
  rw [State.pairWin, h, if_neg (by decide)]

theorem State.exec_pairWinExpire_ordered (s : State) (n : Fin 16) (a : Stamp) (hf : s.func n = 1)
    (hs : s.flag TDC_IN_FUNC.SIGNED n = false) (ha : (s.tin n).armed = some a)
    (hp : s.fld TDC_IN_FUNC.PARTNER n ≠ n.val) : exec (.pairWinExpire n) s =
      .next (if 160 * s.now ≤ a.inst + 160 * s.param n then s
        else (s.setTin n { s.tin n with armed := none }).unpaired n) := by
  have hwin := s.pairWin_interval n hf
  show execPairWinExpire n s = _
  unfold execPairWinExpire
  simp [hf, hs, ha, hp, hwin]

/-- The oldest stop takes its start, or none, and old starts are dropped. -/
theorem State.exec_pairWinExpire_signed (s : State) (n : Fin 16) (hf : s.func n = 1)
    (hs : s.flag TDC_IN_FUNC.SIGNED n = true) : exec (.pairWinExpire n) s =
      .next ((s.pairStop n (160 * s.param n)).dropStarts n (160 * s.param n)) := by
  have hwin := s.pairWin_interval n hf
  show execPairWinExpire n s = _
  unfold execPairWinExpire
  simp [hf, hs, hwin]

theorem State.pairStop_early (s : State) (i win : Nat) (x : Stamp) (rest : List Stamp) (h : (s.tin i).stops = x :: rest)
    (hx : 160 * s.now < x.inst + win) : s.pairStop i win = s := by
  rw [State.pairStop, h]
  exact if_pos hx

theorem State.pairStop_alone (s : State) (i win : Nat) (x : Stamp) (rest : List Stamp) (h : (s.tin i).stops = x :: rest)
    (hx : x.inst + win ≤ 160 * s.now) (hn : nearestStart (s.tin i).starts x win = none) :
    s.pairStop i win = (s.setTin i { s.tin i with stops := rest }).unpaired i := by
  rw [State.pairStop, h]
  dsimp only
  rw [if_neg (Nat.not_lt.mpr hx), hn]

theorem State.pairStop_paired (s : State) (i win : Nat) (x a : Stamp) (rest : List Stamp)
    (h : (s.tin i).stops = x :: rest) (hx : x.inst + win ≤ 160 * s.now)
    (hn : nearestStart (s.tin i).starts x win = some a) :
    s.pairStop i win = (s.setTin i { s.tin i with stops := rest, starts := (s.tin i).starts.filter (· != a) }).interval i
      (some a) ((x.inst : Int) - a.inst) x.rising := by
  rw [State.pairStop, h]
  dsimp only
  rw [if_neg (Nat.not_lt.mpr hx), hn]

theorem State.exec_pairWinExpire_early (s : State) (n : Fin 16) (x : Stamp) (rest : List Stamp) (hf : s.func n = 1)
    (hs : s.flag TDC_IN_FUNC.SIGNED n = true) (hstops : (s.tin n).stops = x :: rest)
    (hx : 160 * s.now < x.inst + 160 * s.param n) :
    exec (.pairWinExpire n) s = .next (s.dropStarts n (160 * s.param n)) := by
  rw [s.exec_pairWinExpire_signed n hf hs, s.pairStop_early n _ x rest hstops hx]

theorem State.exec_pairWinExpire_idle (s : State) (n : Fin 16) (h1 : s.func n ≠ 1) (h3 : s.func n ≠ 3) :
    exec (.pairWinExpire n) s = .next s := by
  show execPairWinExpire n s = _
  unfold execPairWinExpire
  simp [h1, h3]

theorem State.exec_pairWinExpire_alone (s : State) (n : Fin 16) (x : Stamp) (rest : List Stamp) (hf : s.func n = 1)
    (hs : s.flag TDC_IN_FUNC.SIGNED n = true) (hstops : (s.tin n).stops = x :: rest)
    (hx : x.inst + 160 * s.param n ≤ 160 * s.now) (hn : nearestStart (s.tin n).starts x (160 * s.param n) = none) :
    ∃ t, exec (.pairWinExpire n) s = .next t ∧ (t.tin n).stops = rest ∧ t.jasper = s.jasper ∧ t.mem = s.mem ∧
      s.fld TDC_IN_ERR.UNPAIRED n ≤ t.fld TDC_IN_ERR.UNPAIRED n := by
  have hexec := s.exec_pairWinExpire_signed n hf hs
  rw [s.pairStop_alone n _ x rest hstops hx hn] at hexec
  have hu := (s.setTin n { s.tin n with stops := rest }).unpaired_unpaired n
  obtain ⟨hjasper, hmem, hcount⟩ :=
    ((s.setTin n { s.tin n with stops := rest }).unpaired n).dropStarts_rest n (160 * s.param n)
  refine ⟨_, hexec, ?_, hjasper.trans hu.jasper, hmem.trans hu.mem, hu.count.trans hcount⟩
  rw [State.dropStarts_tin, State.tin_of_tins hu.tins, State.tin_setTin_same]

theorem State.exec_pairWinExpire_paired (s : State) (n : Fin 16) (x a : Stamp) (rest : List Stamp) (hf : s.func n = 1)
    (hs : s.flag TDC_IN_FUNC.SIGNED n = true) (hstops : (s.tin n).stops = x :: rest)
    (hx : x.inst + 160 * s.param n ≤ 160 * s.now) (hn : nearestStart (s.tin n).starts x (160 * s.param n) = some a) :
    ∃ t, exec (.pairWinExpire n) s = .next t ∧ (t.tin n).stops = rest ∧ a ∉ (t.tin n).starts ∧
      (t.tin n).results = (s.tin n).results + 1 ∧ t.mem = s.mem := by
  have hexec := s.exec_pairWinExpire_signed n hf hs
  rw [s.pairStop_paired n _ x a rest hstops hx hn] at hexec
  obtain ⟨htins, hmem⟩ := (s.setTin n { s.tin n with
    stops := rest, starts := (s.tin n).starts.filter (· != a) }).interval_tins n a ((x.inst : Int) - a.inst) x.rising hf
  generalize (s.setTin n { s.tin n with
    stops := rest, starts := (s.tin n).starts.filter (· != a) }).interval n (some a) ((x.inst : Int) - a.inst) x.rising = u
    at hexec htins hmem
  have htin := State.tin_of_tins htins n
  rw [State.tin_setTin_same, State.tin_setTin_same] at htin
  refine ⟨_, hexec, ?_, ?_, ?_, (u.dropStarts_rest n _).2.1.trans hmem⟩
  · rw [State.dropStarts_tin, htin]
  · rw [State.dropStarts_tin, htin]
    simp
  · rw [State.dropStarts_tin, htin]

/-! ## FREQ_GATE_END -/

theorem State.exec_freqGateEnd_few (s : State) (n : Fin 16) (hf : s.func n = 2) (hend : s.gateEnd n ≤ 160 * s.now)
    (hfew : (s.tin n).gate.length < 3) : exec (.freqGateEnd n) s = .next (s.setTin n { s.tin n with
      gate := (s.tin n).gate.filter (fun e => decide (s.gateEnd n ≤ e.2))
      gateDrops := (s.tin n).gateDrops.filter (fun x => decide (s.gateEnd n ≤ x)), gateAt := s.gateEnd n }) := by
  have hg : ((s.tin n).gate.filter (fun e => decide (e.2 < s.gateEnd n))).length < 3 :=
    Nat.lt_of_le_of_lt (List.length_filter_le _ _) hfew
  show execFreqGateEnd n s = _
  unfold execFreqGateEnd
  extract_lets i t stop g m k0 t0 ks ts sx sy sxx syy sxy drop s1
  have hrun : ¬((s.func i != 2 || decide (160 * s.now < stop)) = true) := by
    simpa [i, stop, hf] using hend
  have hshort : (decide (g.length < 3) || decide (sxy ≤ 0)) = true := by
    rw [decide_eq_true hg, Bool.true_or]
  rw [if_neg hrun, if_pos hshort]

theorem isqrt_zero : isqrt 0 = 0 := by
  simp [isqrt]

/-- Three stamps at equal distances give the frequency with no residue. -/
theorem State.exec_freqGateEnd_three (s : State) (n : Fin 16) (k d t0 : Nat) (hf : s.func n = 2) (hd : 0 < d)
    (hend : s.gateEnd n ≤ 160 * s.now) (hlast : t0 + 2 * d < s.gateEnd n) (hdrops : (s.tin n).gateDrops = [])
    (hgate : (s.tin n).gate = [(k, t0), (k + 1, t0 + d), (k + 2, t0 + 2 * d)])
    (hsmall : 2 ^ 32 * 256000000000 / d < 2 ^ 64) :
    exec (.freqGateEnd n) s = .next ((s.setTin n { s.tin n with gate := [], gateAt := s.gateEnd n }).jasperPut 3 n s.uncal
      (leBytes 8 (2 ^ 32 * 256000000000 / d) ++ leBytes 4 3 ++ leBytes 4 0)) := by
  show execFreqGateEnd n s = _
  unfold execFreqGateEnd
  extract_lets i t stop g m k0 t1 ks ts sx sy sxx syy sxy drop s1 f res sat
  have hrun : ¬((s.func i != 2 || decide (160 * s.now < stop)) = true) := by
    simpa [i, stop, hf] using hend
  have h0 : t0 < s.gateEnd n := by omega
  have h1 : t0 + d < s.gateEnd n := by omega
  have hg : g = [(k, t0), (k + 1, t0 + d), (k + 2, t0 + 2 * d)] := by
    simp [g, t, i, stop, hgate, h0, h1, hlast]
  have hk0 : k0 = k := by simp [k0, hg]
  have ht1 : t1 = t0 := by simp [t1, hg]
  have hks : ks = [0, 1, 2] := by simp [ks, hg, hk0]
  have hts : ts = [0, (d : Int), 2 * d] := by simp [ts, hg, ht1]
  have hm : m = 3 := by simp [m, hg]
  have hsx : sx = 3 := by simp [sx, hks, isum]
  have hsy : sy = 3 * d := by
    simp only [sy, hts, isum, List.foldl]
    ring
  have hsxx : sxx = 6 := by simp [sxx, hks, hm, hsx, isum]
  have hsyy : syy = 6 * d * d := by
    simp only [syy, hts, hm, hsy, isum, List.map, List.foldl]
    ring
  have hsxy : sxy = 6 * d := by
    simp only [sxy, hks, hts, hm, hsx, hsy, isum, List.zip, List.zipWith, List.map, List.foldl]
    ring
  have hf' : f = 2 ^ 32 * 256000000000 / d := by
    have h6 : f = 6 * (2 ^ 32 * 256000000000) / (6 * d) := by
      simp only [f, hsxx, hsxy]
      congr 1
    rw [h6, Nat.mul_div_mul_left _ _ (by decide)]
  have hres : res = 0 := by
    have hz : syy * sxx - sxy * sxy = 0 := by
      rw [hsyy, hsxx, hsxy]
      ring
    simp only [res, hz]
    simp [isqrt_zero]
  have hlong : ¬((decide (g.length < 3) || decide (sxy ≤ 0)) = true) := by
    simp [hg, hsxy, hd]
  have hs1 : s1 = s.setTin n { s.tin n with gate := [], gateAt := s.gateEnd n } := by
    simp [s1, t, i, stop, hgate, hdrops, h0, h1, hlast]
  rw [if_neg hrun, if_neg hlong, hs1]
  have hsat : sat = false := by
    rw [show sat = (decide (2 ^ 64 ≤ f) || decide (2 ^ 32 ≤ res)) from rfl, hf', hres, decide_eq_false (by omega)]
    decide
  have hdrop : drop = false := by simp [drop, t, i, hdrops]
  rw [hsat, hdrop, hf', hres, satU, if_pos hsmall, hg]
  rfl

theorem State.exec_freqGateEnd_idle (s : State) (n : Fin 16) (h : s.func n ≠ 2 ∨ 160 * s.now < s.gateEnd n) :
    exec (.freqGateEnd n) s = .next s := by
  have hidle : (s.func n != 2 || decide (160 * s.now < s.gateEnd n)) = true := by
    simpa using h
  exact congrArg Host.Outcome.next (if_pos hidle)

/-! ## STATS_COMPLETE -/

theorem State.exec_statsComplete_idle (s : State) (n : Fin 16)
    (h : s.func n ≠ 3 ∨ (s.tin n).stats.n < 2 ∨ (s.tin n).stats.n < s.param n) :
    exec (.statsComplete n) s = .next s := by
  have hidle : (s.func n != 3 || decide ((s.tin n).stats.n < 2) || decide ((s.tin n).stats.n < s.param n)) = true := by
    simpa [or_assoc] using h
  exact congrArg Host.Outcome.next (if_pos hidle)

theorem satS_of_natAbs_lt (w : Nat) (v : Int) (h : v.natAbs < 2 ^ (w - 1)) : satS w v = v := by
  unfold satS
  rw [if_neg (by omega), if_neg (by omega)]

/-- Equal intervals have their common value as mean, least and greatest, and no deviation. -/
theorem State.exec_statsComplete_equal (s : State) (n : Fin 16) (v : Int) (c : Nat) (hf : s.func n = 3)
    (hp : s.param n ≤ c) (hc : 2 ≤ c) (hv : v.natAbs < 2 ^ 47)
    (hstats : (s.tin n).stats = { n := c, sum := c * v, sumSq := c * (v.natAbs * v.natAbs), min := v, max := v }) :
    exec (.statsComplete n) s = .next ((s.setTin n { s.tin n with stats := {} }).jasperPut 4 n s.uncal
      (leBytes 6 (toU 48 v) ++ leBytes 6 (toU 48 v) ++ leBytes 6 (toU 48 v) ++ leBytes 4 0)) := by
  show execStatsComplete n s = _
  unfold execStatsComplete
  extract_lets i a t s1 mean var sd sat
  have ha : a = { n := c, sum := c * v, sumSq := c * (v.natAbs * v.natAbs), min := v, max := v } := hstats
  have hbusy : ¬((s.func i != 3 || decide (a.n < 2) || decide (a.n < s.param i)) = true) := by
    simp [ha, i, hf, hp, Nat.lt_of_lt_of_le Nat.one_lt_two hc]
  have hmean : mean = v := by
    simp only [mean, ha, tdiv]
    exact Int.mul_tdiv_cancel_left v (by omega)
  have hsq : (((c * (c * (v.natAbs * v.natAbs)) : Nat) : Int) - c * v * (c * v)) = 0 := by
    push_cast
    rw [← Int.natCast_natAbs, ← Int.natCast_mul, Int.natAbs_mul_self]
    ring
  have hsd : sd = 0 := by
    simp only [sd, var, ha, hsq]
    simp [isqrt_zero]
  have hsatS : satS 48 v = v := satS_of_natAbs_lt 48 v hv
  have hsat : sat = false := by
    simp [sat, hmean, ha, hsatS, hsd]
  rw [if_neg hbusy, hsat, hmean, hsd, ha]
  dsimp only
  rw [hsatS]
  rfl

/-! ## TDC_RING_WRITE_ACK -/

/-- What an acknowledgement leaves of the ring whose entries in flight are now those of `u`: `put` is the state after the
entry's write, none when the write failed. -/
def State.ackDone (s u : State) (rest : List (List Byte)) (put : Option State) : State :=
  match put with
  | none => { (u.addFld TDC_RING_DROPPED.DROPPED 0 1).stat 0xDA 1 with
      jasper := match rest with
        | [] => { u.jasper with ovf := true }
        | w :: r => { u.jasper with inFlight := ovfBefore w :: r } }
  | some v => (v.setFld TDC_RING_PTR.TAIL 0 ((s.fld TDC_RING_PTR.TAIL 0 + 1) % v.jasperEntries)).pend
      TDC_RING_BASE_HI.IRQ_PEND TDC_RING_BASE_HI.IRQ_EN 0 33

theorem State.jasperAck_nil (s : State) (error : Bool) (hq : s.jasper.inFlight = []) : s.jasperAck error = s := by
  rw [State.jasperAck, hq]

theorem State.jasperAck_cons (s u : State) (error : Bool) (e : List Byte) (rest : List (List Byte))
    (hq : s.jasper.inFlight = e :: rest) (hu : { s with jasper := { s.jasper with inFlight := rest } } = u) :
    s.jasperAck error = s.ackDone u rest
      (if error then none else u.physPut u.srcOther (s.jasperBase + 32 * s.fld TDC_RING_PTR.TAIL 0) e) := by
  have hstat : ((u.addFld TDC_RING_DROPPED.DROPPED 0 1).stat 0xDA 1).jasper = u.jasper := State.stat_jasper _ _ _
  have hbase : u.jasperBase = s.jasperBase := by
    rw [← hu]
    rfl
  rw [State.jasperAck, hq]
  dsimp only
  rw [hu, hbase]
  cases (if error then none else u.physPut u.srcOther (s.jasperBase + 32 * s.fld TDC_RING_PTR.TAIL 0) e) with
  | some v => rfl
  | none =>
    cases rest with
    | nil =>
      dsimp only [State.ackDone, State.jasperDrop]
      rw [hstat]
    | cons w r =>
      dsimp only [State.ackDone]
      rw [hstat]

theorem State.physPut_inSystem (s : State) (src a : Nat) (bs : List Byte) (hin : inSystem a bs.length = true)
    (hp : s.poisonedRange a bs.length = false) :
    s.physPut src a bs = some ((s.setBytes a bs).memLog src true a bs.length) := by
  rw [State.physPut, if_pos (by rw [hin, Bool.or_true]), if_neg (by rw [hp]; exact Bool.false_ne_true)]

/-! ## The obligation -/

/-- Settles O24: PAIR_WIN, gate, statistics and ring, each clause by the rule of its command. -/
theorem jasperResults : Obligations.JasperResults := by
  refine ⟨fun s n a => s.exec_pairWinExpire_ordered n a, fun s n x rest hf hs hstops => ⟨?_, ?_, ?_⟩,
    fun s n win a => s.mem_dropStarts n win a, fun s n => s.exec_pairWinExpire_idle n,
    fun s n h => s.exec_freqGateEnd_idle n (.inl h), fun s n h => s.exec_freqGateEnd_idle n (.inr h),
    fun s n => s.exec_freqGateEnd_few n, ?_, fun s n => s.exec_statsComplete_idle n, ?_,
    fun s error => congrArg Host.Outcome.next ?_, State.physPut_inSystem⟩
  · exact s.exec_pairWinExpire_early n x rest hf hs hstops
  · exact s.exec_pairWinExpire_alone n x rest hf hs hstops
  · exact fun a => s.exec_pairWinExpire_paired n x a rest hf hs hstops
  · intro s n k d t0 hf hd hend hlast hdrops hgate
    exact s.exec_freqGateEnd_three n k d t0 hf hd hend hlast hdrops hgate
  · intro s n v c hf hp hc hv
    exact s.exec_statsComplete_equal n v c hf hp hc hv
  · cases hq : s.jasper.inFlight with
    | nil => exact s.jasperAck_nil error hq
    | cons e rest => exact s.jasperAck_cons _ error e rest hq rfl

end Sys2Proof.Machine
end

section
/-! PROOFS. Over-range excursions and the protection clamp (R50 to R54). -/

namespace Sys2Proof.Machine

/-! ## Excursions -/

/-- A low excursion that continues no other marks itself and its recovery, and no neighbour (R50, R51, R54). -/
theorem State.exec_overRangeExcursion_low (s : State) (c : Fin 256) (first : Nat) (signs : List Bool) (o : Option Nat)
    (hs : signs ≠ []) (hp : (s.chan c).excPeak = none)
    (hc : (s.chan c).prot = [] ∨ ∃ n, n < first + signs.length ∧ (s.chan c).prot = [⟨n, none⟩]) :
    exec (.overRangeExcursion c first signs o .upTo6) s =
      .next (s.setChan c { s.chan c with
        excs := (s.chan c).excs ++ [(first, signs)], excEnd := first + signs.length, excPeak := some .upTo6
        excOver6 := o.map (first + ·), excClamped := decide ((s.chan c).prot ≠ [])
        dirty := (s.chan c).dirty ++
          [⟨first, some (first + signs.length +
            s.samplesWithin (c.val / 32) (if (s.chan c).prot = [] then 3000 else 12000))⟩] }) := by
  refine congrArg Host.Outcome.next ((if_neg hs).trans ?_)
  obtain hoff | ⟨n, hn, hon⟩ := hc
  · simp [hp, hoff]
  · simp [hp, hon, hn]

/-! ## The clamp -/

/-- The state of a channel that has no recovery in progress once its clamp engages before sample n. -/
def Chan.engaged (x : Chan) (n : Nat) (neg : Bool) : Chan :=
  { x with
    clamp := true, recovering := false, clampNeg := neg, prot := x.prot ++ [⟨n, none⟩]
    excClamped := x.excClamped || decide (n ≤ x.excEnd) }

/-- A millisecond has passed since the last recovery of the channel, if it had one. -/
def Chan.clean (x : Chan) (now : Nat) : Bool :=
  match x.recovered with
  | some t => decide (t + msCycles ≤ now)
  | none => true

/-- An engagement that no recovery precedes is counted, and reported after a clean millisecond (R54). -/
theorem State.exec_clampEngage (s : State) (c : Fin 256) (n : Nat) (neg : Bool) (hoff : (s.chan c).clamp = false)
    (hrec : (s.chan c).recovering = false) :
    exec (.clampEngage c n neg) s = .next ((((s.setChan c ((s.chan c).engaged n neg)).addFld
      CNV_CH_PROT_COUNT.COUNT c 1).stat (0x400 + 32 * c.val + 24) 1).when ((s.chan c).clean s.now)
      (·.raise Ev.PROT_ENGAGED c [(0, 5, n / 80), (5, 1, b2n neg)])) := by
  refine congrArg Host.Outcome.next ((if_neg (by rw [hoff]; exact Bool.false_ne_true)).trans ?_)
  rw [hrec]
  rfl

theorem State.exec_clampDisengage_on (s : State) (c : Fin 256) (n : Nat) (h : (s.chan c).clamp = true) :
    exec (.clampDisengage c n) s =
      .next (s.setChan c { s.chan c with clamp := false, recovering := true, clampOff := n }) :=
  congrArg Host.Outcome.next (if_pos h)

/-! ## The end of a recovery -/

/-- A recovery ends only within its bounds of 200 ns. -/
theorem State.exec_clampRecoveryEnd (s : State) (c : Fin 256) (n : Nat) (hoff : (s.chan c).clamp = false)
    (hrec : (s.chan c).recovering = true) : exec (.clampRecoveryEnd c n) s =
      .next (if s.recoveredAt (c.val / 32) (s.chan c).clampOff n = false then s
        else (s.setChan c { s.chan c with
          recovering := false, recovered := some s.now, prot := (s.chan c).prot.map (Span.shut n) }).calmed c
            (max n (((s.chan c).dirty.filterMap (·.stop)).foldl max 0) + s.samplesWithin (c / 32) 10000)) := by
  refine congrArg Host.Outcome.next ?_
  simp only [hoff, hrec, Bool.not_true, Bool.false_or, Bool.not_eq_true']
  rfl

theorem Span.stop_shut_ne_none (e : Nat) (p : Span) : (p.shut e).stop ≠ none := by
  unfold Span.shut
  split
  · exact Option.some_ne_none e
  · next x h => exact h ▸ Option.some_ne_none x

/-- What the calming of the neighbours changes: intervals of `nbr` alone, and those in no channel that has none open of
channel c's runs. -/
structure Calmed (c : Nat) (s t : State) : Prop where
  rest : t = { s with chans := t.chans }
  chan : ∀ d, ∃ l, t.chan d = { s.chan d with nbr := l }
  other : ∀ d, (∀ q ∈ (s.chan d).nbr, q.1 ≠ c ∨ q.2.stop ≠ none) → t.chan d = s.chan d

theorem Calmed.refl (c : Nat) (s : State) : Calmed c s s := ⟨rfl, fun _ => ⟨_, rfl⟩, fun _ _ => rfl⟩

theorem Calmed.trans {c : Nat} {s t u : State} (h : Calmed c s t) (k : Calmed c t u) : Calmed c s u := by
  refine ⟨?_, fun d => ?_, fun d hd => ?_⟩
  · have hk := k.rest
    rw [h.rest] at hk
    exact hk
  · obtain ⟨l, hl⟩ := h.chan d
    obtain ⟨m, hm⟩ := k.chan d
    exact ⟨m, by rw [hm, hl]⟩
  · have ht := h.other d hd
    exact (k.other d (ht ▸ hd)).trans ht

/-- One channel is calmed. -/
theorem Calmed.setNbr (c v : Nat) (s : State) (f : Nat × Span → Nat × Span) :
    Calmed c s (s.when ((s.chan v).nbr.any (fun q => q.1 == c && q.2.stop.isNone)) (fun s =>
      s.setChan v { s.chan v with nbr := (s.chan v).nbr.map f })) := by
  cases hany : (s.chan v).nbr.any (fun q => q.1 == c && q.2.stop.isNone) with
  | false => exact .refl c s
  | true =>
    refine ⟨rfl, fun d => ?_, fun d hd => ?_⟩
    · by_cases h : d = v
      · subst h
        exact ⟨_, State.chan_setChan_same _ _ _⟩
      · exact ⟨_, State.chan_setChan_ne _ _ _ _ h⟩
    · refine State.chan_setChan_ne _ _ _ _ ?_
      rintro rfl
      obtain ⟨q, hq, hopen⟩ := List.any_eq_true.mp hany
      obtain ⟨hc, hstop⟩ := Bool.and_eq_true_iff.mp hopen
      exact (hd q hq).elim (fun h => h (eq_of_beq hc)) (fun h => h (Option.isNone_iff_eq_none.mp hstop))

theorem State.over_calmed {α : Type} (c : Nat) (l : List α) (s : State) (f : State → α → State)
    (h : ∀ s a, Calmed c s (f s a)) : Calmed c s (s.over l f) := by
  induction l generalizing s with
  | nil => exact .refl c s
  | cons a l ih => exact (h s a).trans (ih (f s a))

theorem State.calmed_calmed (s : State) (c e : Nat) : Calmed c s (s.calmed c e) :=
  State.over_calmed c _ s _ (fun t j => Calmed.setNbr c (32 * (c / 32) + j) t _)

/-- The recovery of a channel ends: it is remembered, its spans of protection are shut, and only channels that it
disturbs change (R52, R54). -/
theorem State.exec_clampRecoveryEnd_due (s : State) (c : Fin 256) (n : Nat) (hoff : (s.chan c).clamp = false)
    (hrec : (s.chan c).recovering = true) (hdue : s.recoveredAt (c.val / 32) (s.chan c).clampOff n = true) :
    ∃ t, exec (.clampRecoveryEnd c n) s = .next t ∧ t = { s with chans := t.chans } ∧
    (t.chan c).recovering = false ∧ (t.chan c).recovered = some s.now ∧
    (∀ p ∈ (t.chan c).prot, p.stop ≠ none) ∧
    ∀ d, d ≠ c.val → (∀ q ∈ (s.chan d).nbr, q.1 ≠ c.val ∨ q.2.stop ≠ none) → t.chan d = s.chan d := by
  have hexec := s.exec_clampRecoveryEnd c n hoff hrec
  rw [if_neg (by rw [hdue]; exact nofun)] at hexec
  have hcalm := State.calmed_calmed (s.setChan c { s.chan c with
    recovering := false, recovered := some s.now, prot := (s.chan c).prot.map (Span.shut n) }) c
    (max n (((s.chan c).dirty.filterMap (·.stop)).foldl max 0) + s.samplesWithin (c / 32) 10000)
  obtain ⟨l, hchan⟩ := hcalm.chan c
  rw [State.chan_setChan_same] at hchan
  refine ⟨_, hexec, hcalm.rest, ?_, ?_, ?_, fun d hd hq => ?_⟩
  · rw [hchan]
  · rw [hchan]
  · rw [hchan]
    intro p hp
    obtain ⟨q, -, rfl⟩ := List.mem_map.mp hp
    exact q.stop_shut_ne_none n
  · have hsame := State.chan_setChan_ne s c d { s.chan c with
      recovering := false, recovered := some s.now, prot := (s.chan c).prot.map (Span.shut n) } hd
    exact (hcalm.other d (hsame.symm ▸ hq)).trans hsame

/-! ## The obligation -/

/-- Settles O13: each clause by the rule of its command. -/
theorem overRangeAndClamp : Obligations.OverRangeAndClamp := by
  refine ⟨State.exec_overRangeExcursion_low, fun s c n neg hoff hrec hnone => ?_,
    fun s c n t neg hoff hrec hlast hsoon => ?_, State.exec_clampDisengage_on, fun s c n hoff hrec hearly => ?_,
    State.exec_clampRecoveryEnd_due⟩
  · have hclean : (s.chan c).clean s.now = true := by rw [Chan.clean, hnone]
    exact (s.exec_clampEngage c n neg hoff hrec).trans (by rw [hclean]; rfl)
  · have hclean : (s.chan c).clean s.now = false := by
      rw [Chan.clean, hlast]
      exact decide_eq_false (Nat.not_le.mpr hsoon)
    exact (s.exec_clampEngage c n neg hoff hrec).trans (by rw [hclean]; rfl)
  · rw [s.exec_clampRecoveryEnd c n hoff hrec, if_pos hearly]

end Sys2Proof.Machine
end

section
/-! PROOFS. The window comparators (R59, R61, R63, R64). -/

namespace Sys2Proof.Machine

theorem State.exec_comparatorCrossing (s : State) (c : Fin 256) (above raw : Bool) (hheld : s.cmpHeld c = false) :
    exec (.comparatorCrossing c above raw) s =
      .next (let u := s.setCmp (cmpIdx c above) { s.cmp (cmpIdx c above) with raw := raw }
        if (s.cmp (cmpIdx c above)).settling then u
        else (u.setFlag (cmpUnsettled above) c false).setFlag (cmpInband above) c false) := by
  refine congrArg Host.Outcome.next ?_
  have hset : (s.setCmp (cmpIdx c above) { s.cmp (cmpIdx c above) with raw := raw }).cmpHeld c = false := hheld
  rw [State.cmp_setCmp_same, hset, Bool.false_or]

theorem State.exec_comparatorAccept (s : State) (c : Fin 256) (above : Bool) (w : BitVec 5) (hheld : s.cmpHeld c = false)
    (hblank : (s.cmp (cmpIdx c above)).blanking = false) (hsettle : (s.cmp (cmpIdx c above)).settling = false)
    (hset : s.flag (cmpUnsettled above) c = false) :
    exec (.comparatorAccept c above w) s = .next (
      if 3 ≤ ((List.range 5).filter (fun i => bit w.toNat i == !s.flag (cmpState above) c)).length then
        (s.cmpTake c above (!s.flag (cmpState above) c)).setCmp (cmpIdx c above)
          { s.cmp (cmpIdx c above) with blanking := true, blankAt := s.now }
      else s) := by
  refine congrArg Host.Outcome.next ?_
  rw [hheld, hblank, hsettle, hset]
  simp only [Bool.false_or, decide_eq_true_eq, ← Nat.not_le, ite_not, hsettle]

theorem State.exec_cmpSettleEnd (s : State) (c : Fin 256) (above inBand : Bool) (hheld : s.cmpHeld c = false)
    (hset : s.flag (cmpUnsettled above) c = true)
    (hdue : (s.cmp (cmpIdx c above)).since + s.fld CNV_CH_CMP_CFG.SETTLE c * usCycles ≤ s.now) :
    exec (.cmpSettleEnd c above inBand) s = .next (
      if inBand then ((s.setFlag (cmpUnsettled above) c false).setFlag (cmpInband above) c true).raise Ev.CMP_INBAND c
        [(0, 1, b2n (!above))]
      else (s.setFlag (cmpUnsettled above) c false).cmpTake c above (s.cmp (cmpIdx c above)).raw) := by
  refine congrArg Host.Outcome.next (if_neg ?_)
  rw [hheld, hset]
  simpa using hdue

/-! ## The end of resettling -/

/-- One output of a channel resumes from its held state (R64). -/
def State.cmpResume (s : State) (c : Nat) (above : Bool) : State :=
  (s.setCmp (cmpIdx c above) { s.cmp (cmpIdx c above) with settling := false }).when
    ((s.cmp (cmpIdx c above)).settling && (s.cmp (cmpIdx c above)).raw !=
      (s.setCmp (cmpIdx c above) { s.cmp (cmpIdx c above) with settling := false }).flag (cmpState above) c &&
      !(s.setCmp (cmpIdx c above) { s.cmp (cmpIdx c above) with settling := false }).cmpHeld c)
    (fun s => (s.setFlag (cmpUnsettled above) c false).setFlag (cmpInband above) c false)

theorem State.exec_cmpResettleEnd (s : State) (c : Fin 256)
    (hdue : (s.cmp (cmpIdx c true)).settleAt + s.settleCycles c ≤ s.now) :
    exec (.cmpResettleEnd c) s = .next ((s.cmpResume c true).cmpResume c false) :=
  congrArg Host.Outcome.next (if_neg (Nat.not_lt.mpr hdue))

theorem cmpIdx_true_ne_false (c : Nat) : cmpIdx c true ≠ cmpIdx c false := by
  simp [cmpIdx]

/-- A field of CNV_CH_CMP_STAT other than the two states is set: the states and the other registers are as they were. -/
theorem State.setFlag_cmpStat (s : State) (f : Fld) (c : Nat) (b : Bool) (hreg : f.reg = .CNV_CH_CMP_STAT)
    (hlo : f.lo ≤ f.hi) (h32 : f.hi < 32)
    (hf : ∀ above, (cmpState above).hi < f.lo ∨ f.hi < (cmpState above).lo) :
    (∀ above, (s.setFlag f c b).flag (cmpState above) c = s.flag (cmpState above) c) ∧
    ∀ r i, (r, i) ≠ (Reg.CNV_CH_CMP_STAT, c) → (s.setFlag f c b).reg r i = s.reg r i :=
  ⟨fun above => congrArg (· == 1) (s.fld_setFld_ne f (cmpState above) c c (b2n b) hlo h32 (.inr (hf above))),
    fun _ _ h => s.reg_setReg_ne _ _ _ _ _ (hreg ▸ h)⟩

theorem State.setFlag_cmpUnsettled (s : State) (above b : Bool) (c : Nat) :
    (∀ a, (s.setFlag (cmpUnsettled above) c b).flag (cmpState a) c = s.flag (cmpState a) c) ∧
    ∀ r i, (r, i) ≠ (Reg.CNV_CH_CMP_STAT, c) → (s.setFlag (cmpUnsettled above) c b).reg r i = s.reg r i := by
  cases above <;> exact s.setFlag_cmpStat _ c b rfl (by decide) (by decide) (by decide)

theorem State.setFlag_cmpInband (s : State) (above b : Bool) (c : Nat) :
    (∀ a, (s.setFlag (cmpInband above) c b).flag (cmpState a) c = s.flag (cmpState a) c) ∧
    ∀ r i, (r, i) ≠ (Reg.CNV_CH_CMP_STAT, c) → (s.setFlag (cmpInband above) c b).reg r i = s.reg r i := by
  cases above <;> exact s.setFlag_cmpStat _ c b rfl (by decide) (by decide) (by decide)

/-- An output that resumes changes its own settling, and of the registers CNV_CH_CMP_STAT of its channel alone, where the
accepted states stay. -/
structure Resumed (c : Nat) (above : Bool) (s t : State) : Prop where
  rest : t = { s with cmps := t.cmps, regs := t.regs }
  own : t.cmp (cmpIdx c above) = { s.cmp (cmpIdx c above) with settling := false }
  other : ∀ x, x ≠ cmpIdx c above → t.cmp x = s.cmp x
  state : ∀ a, t.flag (cmpState a) c = s.flag (cmpState a) c
  reg : ∀ r i, (r, i) ≠ (Reg.CNV_CH_CMP_STAT, c) → t.reg r i = s.reg r i

theorem withCmpsRegs_trans {s t u : State} (h : t = { s with cmps := t.cmps, regs := t.regs })
    (k : u = { t with cmps := u.cmps, regs := u.regs }) : u = { s with cmps := u.cmps, regs := u.regs } := by
  rw [h] at k
  exact k

theorem State.cmpResume_resumed (s : State) (c : Nat) (above : Bool) : Resumed c above s (s.cmpResume c above) := by
  have hset : Resumed c above s (s.setCmp (cmpIdx c above) { s.cmp (cmpIdx c above) with settling := false }) :=
    ⟨rfl, State.cmp_setCmp_same _ _ _, fun x hx => State.cmp_setCmp_ne _ _ _ _ hx, fun _ => rfl, fun _ _ _ => rfl⟩
  unfold State.cmpResume State.when
  split
  · generalize s.setCmp (cmpIdx c above) { s.cmp (cmpIdx c above) with settling := false } = u at hset
    obtain ⟨hstate, hreg⟩ := u.setFlag_cmpUnsettled above false c
    obtain ⟨hstate', hreg'⟩ := (u.setFlag (cmpUnsettled above) c false).setFlag_cmpInband above false c
    refine ⟨withCmpsRegs_trans hset.rest rfl, hset.own, hset.other, fun a => (hstate' a).trans ((hstate a).trans (hset.state a)),
      fun r i h => (hreg' r i h).trans ((hreg r i h).trans (hset.reg r i h))⟩
  · exact hset

theorem State.exec_cmpResettleEnd_due (s : State) (c : Fin 256)
    (hdue : (s.cmp (cmpIdx c true)).settleAt + s.settleCycles c ≤ s.now) : ∃ t,
    exec (.cmpResettleEnd c) s = .next t ∧ t = { s with cmps := t.cmps, regs := t.regs } ∧
    (∀ above, t.cmp (cmpIdx c above) = { s.cmp (cmpIdx c above) with settling := false } ∧
      t.flag (cmpState above) c = s.flag (cmpState above) c) ∧
    (∀ r i, (r, i) ≠ (Reg.CNV_CH_CMP_STAT, c.val) → t.reg r i = s.reg r i) := by
  have hhi := s.cmpResume_resumed c true
  have hlo := (s.cmpResume c true).cmpResume_resumed c false
  refine ⟨_, s.exec_cmpResettleEnd c hdue, withCmpsRegs_trans hhi.rest hlo.rest,
    fun above => ⟨?_, (hlo.state above).trans (hhi.state above)⟩, fun r i h => (hlo.reg r i h).trans (hhi.reg r i h)⟩
  cases above with
  | true => exact (hlo.other _ (cmpIdx_true_ne_false c)).trans hhi.own
  | false => rw [hlo.own, hhi.other _ (cmpIdx_true_ne_false c).symm]

/-! ## The obligation -/

/-- Settles O15: each clause by the rule of its command. -/
theorem comparatorOutputs : Obligations.ComparatorOutputs := by
  refine ⟨fun s c above raw hheld hsettling => ?_, fun s c above raw hheld hsettling => ?_, State.exec_comparatorAccept,
    fun s c above => rfl, fun s c above hheld hset hdue => ?_, State.exec_cmpResettleEnd_due⟩
  · rw [s.exec_comparatorCrossing c above raw hheld, hsettling]
    rfl
  · rw [s.exec_comparatorCrossing c above raw hheld, hsettling]
    rfl
  · exact ⟨s.exec_cmpSettleEnd c above true hheld hset hdue, s.exec_cmpSettleEnd c above false hheld hset hdue⟩

end Sys2Proof.Machine
end

section
/-! PROOFS. What a block boundary of a converter die leaves of the dies (R44, R48, R478). -/

namespace Sys2Proof.Machine

theorem State.die_of_dies {s t : State} (h : t.dies = s.dies) (k : Nat) : t.die k = s.die k :=
  congrArg (Table.getD · k ({} : Die)) h

/-! ## Counters, handovers and calibration -/

theorem State.stat_dies (s : State) (off : Nat) (n : Int) : (s.stat off n).dies = s.dies := by
  obtain ⟨e, h⟩ := s.stat_shape off n
  rw [h]

theorem State.noBlock_dies (s : State) (k n : Nat) : (s.noBlock k n).dies = s.dies :=
  State.each_keeps State.dies s 32 _ fun _ _ => State.stat_dies _ _ _

theorem State.handovers_dies (s : State) (k b : Nat) : (s.handovers k b).dies = s.dies := by
  refine State.each_keeps State.dies s 32 _ fun t j => ?_
  dsimp only
  split <;> rfl

theorem State.setRole_dies (s : State) (kind u r : Nat) : (s.setRole kind u r).dies = s.dies := by
  unfold State.setRole
  split <;> rfl

theorem State.calIdle_dies (s : State) (k : Nat) : (s.calIdle k).dies = s.dies := by
  refine State.when_keeps State.dies _ _ _ fun t => ?_
  unfold State.applyDone
  extract_lets busy
  split <;> rfl

theorem State.swapAnswer_dies (s : State) (kind u : Nat) (c : SwapCause) (r : Nat) :
    (s.swapAnswer kind u c r).dies = s.dies := by
  refine (State.when_keeps State.dies _ _ (·.panResult r) fun _ => rfl).trans ?_
  split <;> rfl

theorem State.swapUsed_dies (s : State) (kind out inn row : Nat) (c : SwapCause) :
    (s.swapUsed kind out inn row c).dies = s.dies := by
  have hraise : ∀ (e : EventKind) fs, ((s.stat (0xA0 + 2 * kind) 1).raise e 0 fs).dies = s.dies := fun e fs =>
    (State.raise_dies _ e 0 fs).trans (s.stat_dies _ 1)
  unfold State.swapUsed
  split
  · have hrot := hraise Ev.ROTATED [(0, 1, kind), (1, 2, out), (3, 2, inn)]
    dsimp only
    generalize (s.stat (0xA0 + 2 * kind) 1).raise Ev.ROTATED 0 [(0, 1, kind), (1, 2, out), (3, 2, inn)] = u at hrot ⊢
    split
    · exact hrot
    · exact hrot
  · exact (State.swapAnswer_dies _ _ _ _ _).trans (hraise _ _)

theorem State.sliceSwapped_dies (s : State) (k sl p : Nat) (cause : SwapCause) :
    (s.sliceSwapped k sl p cause).dies = s.dies :=
  (State.when_keeps State.dies _ _ _ fun t => t.raise_dies _ _ _).trans
    ((State.swapUsed_dies _ _ _ _ _ _).trans (s.setRole_dies _ _ _))

theorem State.calStep4_dies (s : State) (k : Nat) (cur : CalCur) (c p : Nat) :
    (s.calStep4 k cur c p).dies = s.dies := by
  unfold State.calStep4
  extract_lets sl t
  split
  · rfl
  · rfl
  · exact (State.sliceSwapped_dies _ _ _ _ _).trans (t.calIdle_dies k)

theorem State.calBoundary_dies (s : State) (k : Nat) : (s.calBoundary k).dies = s.dies := by
  unfold State.calBoundary
  split
  · rfl
  · split
    · split
      · rfl
      · split
        · exact s.calStep4_dies _ _ _ _
        · exact (State.calIdle_dies _ k).trans (s.setRole_dies _ _ _)
    · rfl

/-- A block boundary hands slices over and lets a calibration go on: the dies stay as they are. -/
theorem State.nextBlock_dies (s : State) (k : Nat) : (s.nextBlock k).dies = s.dies :=
  (State.calBoundary_dies _ k).trans (s.handovers_dies k _)

/-- Nor does a frame boundary of the clocks change them. -/
theorem State.clkFrame_dies (s : State) : s.clkFrame.dies = s.dies := by
  unfold State.clkFrame
  extract_lets t ds fresh u
  have ht : t.dies = s.dies := by
    refine State.when_keeps State.dies s _ _ fun v => ?_
    rw [State.setFlag_dies, State.setClk]
  have hu : u.dies = t.dies := rfl
  have hover : (u.over ds fun s d => s.when (decide (8 ≤ d)) (·.setFlag CLK_CKO_STAT.SLEWING (d - 8) true)).dies = u.dies := by
    refine State.over_keeps State.dies u ds _ fun v d => ?_
    refine State.when_keeps State.dies v _ _ fun w => ?_
    rw [State.setFlag_dies]
  exact hover.trans (hu.trans ht)

end Sys2Proof.Machine
end

section
/-! PROOFS. The links of a converter die, its re-initialisation and resumption, and the end of a range hold (R40, R48, R49,
R571, R572). -/

namespace Sys2Proof.Machine

/-! ## Failed checks of a link -/

theorem State.exec_dieLinkCrc (s : State) (k : Fin 8) (hub : Bool) (hup : (s.die k).down = false) :
    exec (.dieLinkCrc k hub) s = .next (
      if 3 ≤ (if hub then (s.die k).hubFails else (s.die k).anaFails) then s.dieDown k
      else s.setDie k (if hub then { s.die k with hubFails := (s.die k).hubFails + 1 }
        else { s.die k with anaFails := (s.die k).anaFails + 1 })) := by
  refine congrArg Host.Outcome.next ((if_neg (by rw [hup]; exact Bool.false_ne_true)).trans ?_)
  cases hub <;> simp only [Nat.lt_succ_iff, if_true, if_false, Bool.false_eq_true]

/-! ## Re-initialisation -/

/-- A die is down and since when. -/
def dieDowntime (k : Nat) (s : State) : Bool × Nat := ((s.die k).down, (s.die k).downSince)

theorem State.settle_downtime (s : State) (k : Nat) (b : SBlock) : dieDowntime k (s.settle b) = dieDowntime k s := by
  unfold State.settle
  extract_lets d d'
  unfold dieDowntime
  by_cases h : k = b.ch / 32
  · subst h
    rw [State.die_setDie_same]
  · rw [State.die_setDie_ne _ _ _ _ h]

theorem State.downtime_of_dies {s t : State} (h : t.dies = s.dies) (k : Nat) : dieDowntime k t = dieDowntime k s := by
  unfold dieDowntime
  rw [State.die_of_dies h]

theorem State.level_dies (s : State) (code : Nat) (v : Bool) : (s.level code v).dies = s.dies := rfl

theorem State.reinit_now (s : State) (src inst : Nat) : (s.reinit src inst).now = s.now := State.raise_now _ _ _ _

/-- A die that runs is down from now on once it is re-initialised (R572). -/
theorem State.dieDown_downtime (s : State) (k : Nat) (hup : (s.die k).down = false) :
    dieDowntime k (s.dieDown k) = (true, s.now) := by
  unfold State.dieDown
  rw [if_neg (by rw [hup]; exact Bool.false_ne_true)]
  extract_lets lost u v w
  have hv : dieDowntime k v = (true, s.now) := by
    unfold dieDowntime
    rw [State.die_setDie_same, State.reinit_now]
  have hover : dieDowntime k (v.over lost State.settle) = dieDowntime k v :=
    State.over_keeps (dieDowntime k) v lost _ fun t b => t.settle_downtime k b
  have hw : dieDowntime k w = dieDowntime k (v.over lost State.settle) := State.downtime_of_dies (State.nextBlock_dies _ k) k
  refine (State.downtime_of_dies ?_ k).trans (hw.trans (hover.trans hv))
  refine (State.each_keeps State.dies _ 64 _ fun t i => ?_).trans (w.noBlock_dies k 0)
  dsimp only
  refine (State.when_keeps State.dies _ _ _ fun u => u.level_dies _ _).trans ?_
  rw [State.setFlag_dies, State.setFlag_dies, State.setCmp_dies, State.setFlag_dies]

theorem State.hubCopy_down (s : State) (k : Nat) (h : (s.die k).down = true) : s.hubCopy k = false := by
  simp [State.hubCopy, h]

/-! ## Resumption -/

/-- What the resumption of die k sets in it, the events and memory. -/
def resumeView (k : Nat) (s : State) : Bool × Nat × EvqState × Table Nat Byte :=
  ((s.die k).down, (s.die k).count, s.evq, s.mem)

theorem State.stat_resumeView (s : State) (k off : Nat) (n : Int) : resumeView k (s.stat off n) = resumeView k s := by
  obtain ⟨e, h⟩ := s.stat_shape off n
  rw [h]
  rfl

theorem State.setDie_resumeView (s : State) (k : Nat) (d : Die) :
    resumeView k (s.setDie k d) = (d.down, d.count, s.evq, s.mem) :=
  congrArg (fun x : Die => (x.down, x.count, s.evq, s.mem)) (s.die_setDie_same k d)

theorem State.cmpSince_resumeView (s : State) (k x : Nat) : resumeView k (s.cmpSince x) = resumeView k s := rfl

theorem State.anchorPred_resumeView (s : State) (k type block : Nat) :
    resumeView k (s.anchorPred type k block) = resumeView k s := by
  exact (State.stat_resumeView _ k _ _).trans (s.setDie_resumeView k _)

theorem State.exec_dieResumed_down (s : State) (k : Fin 8) (hdown : (s.die k).down = true) : ∃ t,
    exec (.dieResumed k) s = .next t ∧ (t.die k).down = false ∧
    (t.die k).count = max (s.die k).count (s.countNow k) ∧ t.evq.count = s.evq.count + 1 ∧ t.mem = s.mem := by
  refine ⟨_, congrArg Host.Outcome.next (if_neg (by rw [hdown]; exact Bool.false_ne_true)), ?_⟩
  extract_lets b missed u v
  have hu : resumeView k u = (false, b, s.evq, s.mem) := s.setDie_resumeView k _
  have hnone : resumeView k (u.noBlock k missed) = resumeView k u :=
    State.each_keeps (resumeView k) u 32 _ fun t _ => t.stat_resumeView k _ _
  have hv : resumeView k v = (false, b, s.evq, s.mem) := (State.anchorPred_resumeView _ k _ _).trans (hnone.trans hu)
  have hw : resumeView k (v.each 64 fun s i => s.cmpSince (64 * k + i)) = (false, b, s.evq, s.mem) :=
    (State.each_keeps (resumeView k) v 64 _ fun t _ => t.cmpSince_resumeView k _).trans hv
  obtain ⟨hd, hc, he, hm⟩ : _ ∧ _ ∧ _ ∧ _ := by simpa only [resumeView, Prod.mk.injEq] using hw
  refine ⟨?_, ?_, ?_, ?_⟩
  · rw [State.die_of_dies (State.raise_dies _ _ _ _), hd]
  · rw [State.die_of_dies (State.raise_dies _ _ _ _), hc]
  · rw [State.raise_count, he]
  · rw [State.raise_mem, hm]

/-! ## The end of a range hold -/

theorem State.trimsFrom_fld (s : State) (c b : Nat) (f : Fld) (i : Nat) : (s.trimsFrom c b).fld f i = s.fld f i := rfl

theorem State.endHold_range (s : State) (c n : Nat) :
    (s.endHold c n).fld CNV_CH_CFG.RANGE c = s.fld CNV_CH_CFG.RANGE c := by
  have hreg : (CNV_CH_CFG.RANGE.reg, c) ≠ (CNV_CH_ROUTE.STALE_NOW.reg, c) :=
    fun h => absurd (congrArg Prod.fst h) (show Reg.CNV_CH_CFG ≠ .CNV_CH_ROUTE by decide)
  rw [State.endHold, State.setFlag, State.fld_setFld_ne _ _ _ _ _ _ (by decide) (by decide) (.inl hreg),
    State.setChan_fld]

theorem State.exec_rangeHoldEnd (s : State) (c : Fin 256) (n : Nat) (changed : Bool)
    (h : (s.chan c).hold = some changed) : exec (.rangeHoldEnd c n) s = .next (
      if n ≠ s.sampleAfter (c.val / 32) (s.chan c).holdAt 2000000 then s
      else (if changed then (s.endHold c n).trimsFrom c (n / 80) else s.endHold c n).raise
        Ev.RANGE_SETTLED c [(0, 1, s.fld CNV_CH_CFG.RANGE c), (1, 5, n / 80), (6, 1, b2n (!changed))]) := by
  have hrange : ((s.endHold c n).when changed (·.trimsFrom c (n / 80))).fld CNV_CH_CFG.RANGE c =
      s.fld CNV_CH_CFG.RANGE c :=
    (State.when_keeps (State.fld · CNV_CH_CFG.RANGE c) _ _ _ fun t => t.trimsFrom_fld c _ _ _).trans (s.endHold_range c n)
  refine congrArg Host.Outcome.next ?_
  rw [h]
  dsimp only
  rw [hrange]
  simp only [bne_iff_ne, ne_eq]
  rfl

/-- A hold that ends shuts the open spans, and STALE_NOW shows a calibration's hold alone (R40). -/
theorem State.endHold_chan (s : State) (c : Fin 256) (n : Nat) : ((s.endHold c n).chan c).hold = none ∧
    (∀ p ∈ ((s.endHold c n).chan c).stale, p.stop ≠ none) ∧
    (s.endHold c n).flag CNV_CH_ROUTE.STALE_NOW c = (s.chan c).calHold := by
  have hchan : (s.endHold c n).chan c =
      { s.chan c with hold := none, stale := (s.chan c).stale.map (Span.shut n) } := State.chan_setChan_same _ _ _
  refine ⟨by rw [hchan], ?_, State.flag_setFlag_same _ _ _ _ (by decide) (by decide)⟩
  rw [hchan]
  intro p hp
  obtain ⟨q, -, rfl⟩ := List.mem_map.mp hp
  exact q.stop_shut_ne_none n

/-! ## The obligation -/

/-- Settles O14: each clause by the rule of its command. -/
theorem dieLinksAndHolds : Obligations.DieLinksAndHolds := by
  refine ⟨fun s k hup => ⟨fun hfew => ?_, fun hfew => ?_, fun hmany => ?_⟩, fun s k hup => ?_, State.exec_dieResumed_down,
    fun s c n changed hhold => ⟨fun hearly => ?_, fun hdue => ?_, s.endHold_chan c n⟩⟩
  · exact (s.exec_dieLinkCrc k true hup).trans (congrArg Host.Outcome.next (if_neg (Nat.not_le.mpr hfew)))
  · exact (s.exec_dieLinkCrc k false hup).trans (congrArg Host.Outcome.next (if_neg (Nat.not_le.mpr hfew)))
  · exact (s.exec_dieLinkCrc k true hup).trans (congrArg Host.Outcome.next (if_pos hmany))
  · obtain ⟨hdown, hsince⟩ := Prod.mk.inj (s.dieDown_downtime k hup)
    exact ⟨hdown, hsince, State.hubCopy_down _ k hdown⟩
  · exact (s.exec_rangeHoldEnd c n changed hhold).trans (congrArg Host.Outcome.next (if_pos hearly))
  · exact (s.exec_rangeHoldEnd c n changed hhold).trans (congrArg Host.Outcome.next (if_neg (not_not_intro hdue)))

end Sys2Proof.Machine
end

section
/-! PROOFS. The 32 blocks that a running die closes together (R45, R46, R48, R55). -/

namespace Sys2Proof.Machine

/-! ## Samples of an undisturbed channel -/

/-- A channel whose block carries its codes as they are: no hold, no excursion, no correction that waits, and a neutral
correction in force. -/
structure PlainChan (s : State) (c : Nat) : Prop where
  stale : (s.chan c).stale = []
  calStale : (s.chan c).calStale = []
  excs : (s.chan c).excs = []
  corr : (s.chan c).corr = none
  uoffs : s.fld CNV_CH_UOFFS.UOFFS c = 0
  ugain : s.fld CNV_CH_UGAIN.UGAIN c = 32768

theorem rdiv_mul_cancel (x : Int) (b : Nat) (h : 0 < b) : rdiv (x * b) b = x := by
  unfold rdiv
  split
  · next hneg =>
    have hx : x < 0 := by
      by_contra hx
      exact absurd hneg (Int.not_lt.mpr (Int.mul_nonneg (Int.not_lt.mp hx) (Int.natCast_nonneg b)))
    have hn : (-(x * b)).toNat = (-x).toNat * b := by
      rw [← Int.neg_mul, Int.toNat_mul (by omega) (Int.natCast_nonneg b), Int.toNat_natCast]
    have hd : (((-x).toNat * b) * 2 + b) / (2 * b) = (-x).toNat := by
      rw [show ((-x).toNat * b) * 2 + b = b + (2 * b) * (-x).toNat by ring,
        Nat.add_mul_div_left _ _ (by omega), Nat.div_eq_of_lt (by omega), Nat.zero_add]
    rw [hn, hd]
    omega
  · next hpos =>
    have hx : 0 ≤ x := by
      by_contra hx
      exact hpos (Int.mul_neg_of_neg_of_pos (Int.not_le.mp hx) (by omega))
    have hn : (x * b).toNat = x.toNat * b := by
      rw [Int.toNat_mul hx (Int.natCast_nonneg b), Int.toNat_natCast]
    have hd : ((x.toNat * b) * 2 + b) / (2 * b) = x.toNat := by
      rw [show (x.toNat * b) * 2 + b = b + (2 * b) * x.toNat by ring,
        Nat.add_mul_div_left _ _ (by omega), Nat.div_eq_of_lt (by omega), Nat.zero_add]
    rw [hn, hd]
    omega

/-- The neutral correction leaves a code as it is (R55). -/
theorem correctSample_neutral (x : BitVec 12) : correctSample 0 32768 x.toInt = (x.toInt, false) := by
  have hlo : -2048 ≤ x.toInt := BitVec.le_toInt x
  have hhi : x.toInt < 2048 := BitVec.toInt_lt
  have hy : rdiv ((16 * x.toInt + 0) * (32768 : Nat)) 524288 = x.toInt := by
    rw [show (16 * x.toInt + 0) * ((32768 : Nat) : Int) = x.toInt * ((524288 : Nat) : Int) by push_cast; ring]
    exact rdiv_mul_cancel _ _ (by decide)
  unfold correctSample
  rw [hy]
  simp only [clampI, Prod.mk.injEq, Bool.or_eq_false_iff, decide_eq_false_iff_not]
  refine ⟨?_, by omega, by omega⟩
  rw [if_neg (by omega), if_neg (by omega)]

theorem State.sampleOut_plain (s : State) (c i : Nat) (x : BitVec 12) (last : Int) (h : PlainChan s c) :
    s.sampleOut c i x.toInt last = (x.toInt, false) := by
  have hbeyond : (s.chan c).beyond i = none := by
    rw [Chan.beyond, h.excs]
    rfl
  unfold State.sampleOut
  dsimp only
  rw [h.stale, h.calStale, h.corr, hbeyond, h.uoffs, h.ugain]
  exact correctSample_neutral x

/-- A fold that lists a value for each element, whatever it carries along, lists them newest first. -/
theorem foldl_cons_fst {α β γ : Type} (g : α → β) (carry : β → γ) (f : α → γ → β) (hf : ∀ a x, f a x = g a)
    (l : List α) (acc : List β) (x : γ) :
    (l.foldl (fun (p : List β × γ) a => (f a p.2 :: p.1, carry (f a p.2))) (acc, x)).1 = (l.map g).reverse ++ acc := by
  induction l generalizing acc x with
  | nil => rfl
  | cons a l ih =>
    refine (ih _ _).trans ?_
    rw [hf, List.map_cons, List.reverse_cons, List.append_assoc]
    rfl

theorem State.blockSamples_plain (s : State) (c a : Nat) (codes : List (BitVec 12)) (h : PlainChan s c) :
    s.blockSamples c a codes = (List.range 80).map (fun i => ((nth codes i 0).toInt, false)) := by
  unfold State.blockSamples
  rw [foldl_cons_fst (fun i => ((nth codes i 0).toInt, false)) Prod.fst
    (fun j x => s.sampleOut c (a + j) (nth codes j 0).toInt x) (fun j x => s.sampleOut_plain c _ _ x h),
    List.append_nil, List.reverse_reverse]

theorem packSamples_length (v : List Int) : (packSamples v).length = 120 := by
  simp [packSamples, Function.comp_def]

/-! ## One channel's block -/

/-- What the samples of channel c's block are made from. -/
def blockView (c : Nat) (s : State) : Chan × Word × Word := (s.chan c, s.reg .CNV_CH_UOFFS c, s.reg .CNV_CH_UGAIN c)

theorem PlainChan.of_view {s t : State} {c : Nat} (hv : blockView c t = blockView c s) (h : PlainChan s c) :
    PlainChan t c := by
  obtain ⟨hchan, hoffs, hgain⟩ : _ ∧ _ ∧ _ := by simpa only [blockView, Prod.mk.injEq] using hv
  exact ⟨hchan ▸ h.stale, hchan ▸ h.calStale, hchan ▸ h.excs, hchan ▸ h.corr, (State.fld_of_reg hoffs).trans h.uoffs,
    (State.fld_of_reg hgain).trans h.ugain⟩

/-- The views of every channel but c, and the dies. -/
structure BlockFrame (c : Nat) (s t : State) : Prop where
  dies : t.dies = s.dies
  view : ∀ d, d ≠ c → blockView d t = blockView d s

theorem BlockFrame.trans {c : Nat} {s t u : State} (h : BlockFrame c s t) (k : BlockFrame c t u) : BlockFrame c s u :=
  ⟨k.dies.trans h.dies, fun d hd => (k.view d hd).trans (h.view d hd)⟩

theorem BlockFrame.when {c : Nat} (s : State) (p : Bool) (f : State → State) (h : BlockFrame c s (f s)) :
    BlockFrame c s (s.when p f) := by
  cases p
  · exact ⟨rfl, fun _ _ => rfl⟩
  · exact h

theorem State.setFld_blockView (s : State) (f : Fld) (i v d : Nat) (ho : Reg.CNV_CH_UOFFS ≠ f.reg)
    (hg : Reg.CNV_CH_UGAIN ≠ f.reg) : blockView d (s.setFld f i v) = blockView d s := by
  have hreg : ∀ r, r ≠ f.reg → (s.setFld f i v).reg r d = s.reg r d := fun r hr =>
    s.reg_setFld_ne f r i d v fun h => hr (congrArg Prod.fst h)
  unfold blockView
  rw [hreg _ ho, hreg _ hg]
  rfl

theorem State.setFld_blockFrame (s : State) (f : Fld) (i v c : Nat) (ho : Reg.CNV_CH_UOFFS ≠ f.reg)
    (hg : Reg.CNV_CH_UGAIN ≠ f.reg) : BlockFrame c s (s.setFld f i v) :=
  ⟨rfl, fun d _ => s.setFld_blockView f i v d ho hg⟩

theorem State.seen_blockFrame (s : State) (f : Fld) (c : Nat) (p : Bool) (hf : f.reg = .CNV_CH_FLAGS) :
    BlockFrame c s (s.when p (·.setFlag f c true)) :=
  .when s p _ (s.setFld_blockFrame f c _ c (by rw [hf]; decide) (by rw [hf]; decide))

theorem State.setDie_blockView (s : State) (k d : Nat) (x : Die) : blockView d (s.setDie k x) = blockView d s := rfl

theorem State.setChan_blockFrame (s : State) (c : Nat) (x : Chan) : BlockFrame c s (s.setChan c x) :=
  ⟨rfl, fun d hd => congrArg (fun y => (y, s.reg .CNV_CH_UOFFS d, s.reg .CNV_CH_UGAIN d)) (s.chan_setChan_ne c d x hd)⟩

theorem State.statIn_blockFrame (s : State) (c : Nat) (old : Bool) (f : Table Nat Int → Table Nat Int) :
    BlockFrame c s (s.statIn old f) := ⟨rfl, fun _ _ => rfl⟩

theorem State.stat_blockFrame (s : State) (c off : Nat) (n : Int) (p : Bool) :
    BlockFrame c s ((if p then State.statPrev else State.stat) s off n) := by
  cases p <;> simp only [State.stat, State.statPrev, if_true, if_false, Bool.false_eq_true] <;> split
  all_goals exact ⟨rfl, fun _ _ => rfl⟩

theorem State.statTag_blockFrame (s : State) (c b tag : Nat) : BlockFrame c s (s.statTag c b tag) := by
  have h : ∀ (t : State) off n, BlockFrame c t ((if 80 * b < s.newBound (c / 32) then State.statPrev else State.stat) t off n) := by
    intro t off n
    have := t.stat_blockFrame c off n (decide (80 * b < s.newBound (c / 32)))
    simpa only [decide_eq_true_eq] using this
  exact (((h s _ _).trans (h _ _ _)).trans (h _ _ _)).trans (h _ _ _)

theorem State.statSamples_blockFrame (s : State) (c a : Nat) (v : List Int) : BlockFrame c s (s.statSamples c a v) := by
  unfold State.statSamples
  exact (s.statIn_blockFrame c false _).trans (State.statIn_blockFrame _ c true _)

/-- The state in which the samples of a block are taken: CALGEN has advanced where the trims changed with it (R49). -/
def State.trimmed (s : State) (c b : Nat) : State :=
  s.when ((s.chan c).newTrims.any (fun n => decide (n ≤ b)))
    (fun s => s.setFld CNV_CH_ROUTE.CALGEN c (s.fld CNV_CH_ROUTE.CALGEN c + 1))

theorem State.trimmed_blockView (s : State) (c b d : Nat) : blockView d (s.trimmed c b) = blockView d s :=
  State.when_keeps (blockView d) s _ _ fun t => t.setFld_blockView _ c _ d (by decide) (by decide)

theorem State.closeBlock_bytes (s : State) (c b : Nat) (codes : List (BitVec 12)) : ∃ tag, (s.closeBlock c b codes).1 =
    packSamples (((s.trimmed c b).blockSamples c (80 * b) codes).map (·.1)) ++ leBytes 8 tag := ⟨_, rfl⟩

theorem State.closeBlock_length (s : State) (c b : Nat) (codes : List (BitVec 12)) :
    (s.closeBlock c b codes).1.length = 128 := by
  obtain ⟨tag, h⟩ := s.closeBlock_bytes c b codes
  rw [h, List.length_append, packSamples_length, leBytes_length]

/-- The first 120 bytes of an undisturbed channel's block are its codes (R46). -/
theorem State.closeBlock_plain (s : State) (c b : Nat) (codes : List (BitVec 12)) (hp : PlainChan s c) :
    (s.closeBlock c b codes).1.take 120 = packSamples ((List.range 80).map (fun i => (nth codes i 0).toInt)) := by
  obtain ⟨tag, h⟩ := s.closeBlock_bytes c b codes
  rw [h, List.take_left' (packSamples_length _),
    State.blockSamples_plain _ _ _ _ (hp.of_view (s.trimmed_blockView c b c)), List.map_map]
  rfl

theorem State.closeBlock_blockFrame (s : State) (c b : Nat) (codes : List (BitVec 12)) :
    BlockFrame c s (s.closeBlock c b codes).2 := by
  unfold State.closeBlock
  extract_lets a due t ys tag x e y u v w z p
  have ht : BlockFrame c s t := .when s _ _ (s.setFld_blockFrame _ c _ c (by decide) (by decide))
  have hu : BlockFrame c s u := ht.trans (t.setChan_blockFrame c _)
  have hv : BlockFrame c s v := hu.trans (u.seen_blockFrame _ c _ rfl)
  have hw : BlockFrame c s w := hv.trans (v.seen_blockFrame _ c _ rfl)
  have hz : BlockFrame c s z := hw.trans (w.seen_blockFrame _ c _ rfl)
  have hp : BlockFrame c s p := hz.trans (z.seen_blockFrame _ c _ rfl)
  exact hp.trans ((p.statTag_blockFrame c b tag).trans (State.statSamples_blockFrame _ c a _))

/-! ## The 32 blocks -/

/-- Channel 32 k + j closes its block and sends it, on the link to the analysis die too if `ana`. -/
def State.sendBlock (k b : Nat) (codes : List (List (BitVec 12))) (ana : Bool) (s : State) (j : Nat) : State :=
  let r := s.closeBlock (32 * k + j) b (nth codes j [])
  let blk : SBlock := ⟨32 * k + j, b, r.1⟩
  let d := r.2.die k
  r.2.setDie k { d with
    hubLink := d.hubLink ++ [blk], unsettled := d.unsettled ++ [(32 * k + j, b)],
    anaLink := if ana then d.anaLink ++ [blk] else d.anaLink }

/-- The block of channel j of die k, closed from state s. -/
structure BlockOf (s : State) (k b : Nat) (codes : List (List (BitVec 12))) (j : Nat) (blk : SBlock) : Prop where
  ch : blk.ch = 32 * k + j
  count : blk.count = b
  length : blk.bytes.length = 128
  plain : PlainChan s (32 * k + j) →
    blk.bytes.take 120 = packSamples ((List.range 80).map (fun i => (nth (nth codes j []) i 0).toInt))

/-- After n channels have closed their blocks the hub link has n more, and the other channels are as they were. -/
structure BlocksSent (s : State) (k b : Nat) (codes : List (List (BitVec 12))) (n : Nat) (t : State) : Prop where
  link : ∃ blks, (t.die k).hubLink = (s.die k).hubLink ++ blks ∧ blks.length = n ∧
    ∀ j, j < n → ∃ blk, blks[j]? = some blk ∧ BlockOf s k b codes j blk
  view : ∀ j, n ≤ j → blockView (32 * k + j) t = blockView (32 * k + j) s

theorem State.sendBlock_blocksSent (s t : State) (k b n : Nat) (codes : List (List (BitVec 12))) (ana : Bool)
    (h : BlocksSent s k b codes n t) : BlocksSent s k b codes (n + 1) (t.sendBlock k b codes ana n) := by
  have hf := t.closeBlock_blockFrame (32 * k + n) b (nth codes n [])
  have hdie := State.die_of_dies hf.dies k
  obtain ⟨blks, hlink, hlen, hblk⟩ := h.link
  have hnew : BlockOf s k b codes n ⟨32 * k + n, b, (t.closeBlock (32 * k + n) b (nth codes n [])).1⟩ :=
    ⟨rfl, rfl, State.closeBlock_length _ _ _ _, fun hp => State.closeBlock_plain _ _ _ _ (hp.of_view (h.view n (Nat.le_refl n)))⟩
  refine ⟨⟨blks ++ [⟨32 * k + n, b, (t.closeBlock (32 * k + n) b (nth codes n [])).1⟩], ?_, by simp [hlen], fun j hj => ?_⟩,
    fun j hj => ?_⟩
  · unfold State.sendBlock
    rw [State.die_setDie_same, hdie, ← List.append_assoc, ← hlink]
  · by_cases hjn : j < n
    · obtain ⟨blk, hget, hof⟩ := hblk j hjn
      exact ⟨blk, by rw [List.getElem?_append_left (hlen.symm ▸ hjn), hget], hof⟩
    · obtain rfl : j = n := by omega
      exact ⟨_, by rw [← hlen, List.getElem?_concat_length], hnew⟩
  · exact (State.setDie_blockView _ _ _ _).trans ((hf.view _ (by omega)).trans (h.view j (by omega)))

theorem State.sendBlocks_blocksSent (s : State) (k b n : Nat) (codes : List (List (BitVec 12))) (ana : Bool) :
    BlocksSent s k b codes n ((List.range n).foldl (State.sendBlock k b codes ana) s) := by
  induction n with
  | zero => exact ⟨⟨[], (List.append_nil _).symm, rfl, fun j hj => absurd hj (Nat.not_lt_zero j)⟩, fun _ _ => rfl⟩
  | succ n ih =>
    rw [List.range_succ, List.foldl_append]
    exact s.sendBlock_blocksSent _ k b n codes ana ih

/-! ## The die -/

/-- The clocks have a frame boundary where die 0 has a block boundary; the dies stay as they are. -/
theorem State.frame_die (s : State) (k j : Nat) (f : ClkState → ClkState) :
    (if k = 0 then (s.setClk f).clkFrame else s).die j = s.die j := by
  split
  · exact (State.die_of_dies (s.setClk f).clkFrame_dies j).trans rfl
  · rfl

/-- Die k when its blocks have left, at the boundary before the next ones. -/
theorem State.closeBlocks_die (s : State) (k : Nat) (codes : List (List (BitVec 12))) (hhub : s.hubCopy k = true) :
    ((s.closeBlocks k codes).die k).count = (s.die k).count + 1 ∧
    ((s.closeBlocks k codes).die k).hubLink =
      (((List.range 32).foldl (State.sendBlock k (s.die k).count codes (s.anaCopy k)) s).die k).hubLink := by
  unfold State.closeBlocks
  extract_lets d b hub ana t x u
  have ht : t = (List.range 32).foldl (State.sendBlock k (s.die k).count codes (s.anaCopy k)) s := if_pos hhub
  have hu : u.die k = { t.die k with count := b + 1, worst := t.clkq k } :=
    (State.die_of_dies (State.nextBlock_dies _ k) k).trans (State.die_setDie_same _ _ _)
  rw [State.frame_die, hu, ← ht]
  exact ⟨rfl, rfl⟩

theorem State.exec_blockClose (s : State) (k : Fin 8) (codes : List (List (BitVec 12))) : exec (.blockClose k codes) s =
    .next (if (s.die k).started && !(s.die k).down then s.closeBlocks k codes else s) := rfl

theorem State.runs_of_hubCopy (s : State) (k : Nat) (h : s.hubCopy k = true) :
    ((s.die k).started && !(s.die k).down) = true := by
  simp only [State.hubCopy, Bool.and_eq_true] at h
  simp only [h, Bool.and_self]

/-- Settles O12: a running die closes the blocks of its channels one after the other, and none of these disturbs another. -/
theorem dieClosesItsBlocks : Obligations.DieClosesItsBlocks := by
  refine ⟨fun s k codes hhub => ?_, fun s k codes hoff => ?_⟩
  · obtain ⟨hcount, hlink⟩ := s.closeBlocks_die k codes hhub
    obtain ⟨blks, hblks, hlen, hall⟩ := (s.sendBlocks_blocksSent k (s.die k).count 32 codes (s.anaCopy k)).link
    refine ⟨_, blks, (s.exec_blockClose k codes).trans (congrArg Host.Outcome.next (if_pos (s.runs_of_hubCopy k hhub))),
      hcount, hlink.trans hblks, hlen, fun j hj => ?_⟩
    obtain ⟨blk, hget, hof⟩ := hall j hj
    exact ⟨blk, hget, hof.ch, hof.count, hof.length, fun hst hcal hexc hcorr hoffs hgain =>
      hof.plain ⟨hst, hcal, hexc, hcorr, hoffs, hgain⟩⟩
  · rw [State.exec_blockClose, if_neg]
    obtain h | h := hoff <;> simp [h]

end Sys2Proof.Machine
end

section
/-! PROOFS. What an edge that Jasper keeps leaves of its timing input, whatever else it sets off: the combiner, the
measurement functions, the turn tracker and OT96 (R101, R107 to R118, R258, R285). -/

namespace Sys2Proof.Machine

/-! ## The view of an input -/

/-- What an input shows of its edges: the raw output, the edges kept, the last one stamped, and the registers of its level
and of its dead time. -/
structure EdgeView where
  raw : Bool
  edges : Nat
  lastKept : Option Nat
  stat : Word
  dead : Word

def State.edgeView (s : State) (i : Nat) : EdgeView :=
  ⟨(s.tin i).raw, (s.tin i).edges, (s.tin i).lastKept, s.reg .TDC_IN_STAT i, s.reg .TDC_IN_DEAD i⟩

/-- Registers beside the two that an input shows. -/
def beside (r : Reg) : Bool := decide (r ≠ .TDC_IN_STAT) && decide (r ≠ .TDC_IN_DEAD)

theorem State.edgeView_of (s t : State) (i : Nat) (htin : t.tin i = s.tin i)
    (hreg : ∀ r, beside r = false → t.reg r i = s.reg r i) : t.edgeView i = s.edgeView i := by
  unfold State.edgeView
  rw [htin, hreg _ (by decide), hreg _ (by decide)]

theorem State.setReg_edgeView (s : State) (r : Reg) (j : Nat) (v : Word) (i : Nat) (h : beside r = true) :
    (s.setReg r j v).edgeView i = s.edgeView i :=
  s.edgeView_of _ i rfl fun q hq => s.reg_setReg_ne r q j i v fun e =>
    Bool.false_ne_true (hq.symm.trans ((congrArg (fun x => beside x.1) e).trans h))

theorem State.setFld_edgeView (s : State) (f : Fld) (j v i : Nat) (h : beside f.reg = true) :
    (s.setFld f j v).edgeView i = s.edgeView i := s.setReg_edgeView _ _ _ i h

theorem State.addFld_edgeView (s : State) (f : Fld) (j n i : Nat) (h : beside f.reg = true) :
    (s.addFld f j n).edgeView i = s.edgeView i := s.setReg_edgeView _ _ _ i h

theorem State.stat_edgeView (s : State) (off : Nat) (n : Int) (i : Nat) : (s.stat off n).edgeView i = s.edgeView i := by
  obtain ⟨e, h⟩ := s.stat_shape off n
  rw [h]
  rfl

theorem State.raise_edgeView (s : State) (k : EventKind) (inst : Nat) (fs : List (Nat × Nat × Nat)) (i : Nat) :
    (s.raise k inst fs).edgeView i = s.edgeView i :=
  s.edgeView_of _ i (State.tin_of_tins (s.raise_tins k inst fs) i) fun r hr => s.raise_reg k inst fs r i fun e =>
    Bool.false_ne_true (hr.symm.trans ((congrArg (fun x => beside x.1) e).trans (by decide)))

/-- The state of an input changes, but not what it shows. -/
theorem State.setTin_edgeView {s u : State} {j i : Nat} {t : Tin} (h : s.edgeView i = u.edgeView i)
    (hraw : t.raw = (s.tin j).raw) (hedges : t.edges = (s.tin j).edges) (hlast : t.lastKept = (s.tin j).lastKept) :
    (s.setTin j t).edgeView i = u.edgeView i := by
  refine Eq.trans ?_ h
  unfold State.edgeView
  rw [State.setTin_reg, State.setTin_reg]
  by_cases hij : i = j
  · rw [hij, State.tin_setTin_same, hraw, hedges, hlast]
  · rw [State.tin_setTin_ne _ _ _ _ hij]

/-! ## Results and intervals -/

theorem State.jasperDrop_edgeView (s : State) (i : Nat) : s.jasperDrop.edgeView i = s.edgeView i :=
  (State.stat_edgeView (s.addFld TDC_RING_DROPPED.DROPPED 0 1) 0xDA 1 i).trans (s.addFld_edgeView _ 0 1 i (by decide))

theorem State.jasperPut_edgeView (s : State) (type j flags : Nat) (body : List Byte) (i : Nat) :
    (s.jasperPut type j flags body).edgeView i = s.edgeView i := by
  unfold State.jasperPut
  extract_lets t n u
  have hu : u.edgeView i = s.edgeView i := State.setTin_edgeView rfl rfl rfl rfl
  split
  · exact hu
  · split
    · exact (u.jasperDrop_edgeView i).trans hu
    · split
      next d v hdraw =>
      have hv : v.edgeView i = u.edgeView i := by
        split at hdraw
        · cases hdraw
          rfl
        · cases hdraw
          rfl
      split
      · exact (v.jasperDrop_edgeView i).trans (hv.trans hu)
      · exact hv.trans hu

theorem State.unpaired_edgeView (s : State) (j i : Nat) : (s.unpaired j).edgeView i = s.edgeView i :=
  (State.stat_edgeView _ _ 1 i).trans (s.addFld_edgeView _ j 1 i (by decide))

theorem State.orderError_edgeView (s : State) (j i : Nat) : (s.orderError j).edgeView i = s.edgeView i :=
  (State.stat_edgeView _ _ 1 i).trans (s.addFld_edgeView _ j 1 i (by decide))

theorem State.interval_edgeView (s : State) (j : Nat) (start : Option Stamp) (steps : Int) (rising : Bool) (i : Nat) :
    (s.interval j start steps rising).edgeView i = s.edgeView i := by
  unfold State.interval
  dsimp only
  split
  · split
    · rfl
    · exact State.setTin_edgeView rfl rfl rfl rfl
  · split
    · exact s.jasperPut_edgeView _ j _ _ i
    · exact (State.jasperPut_edgeView _ _ j _ _ i).trans rfl

theorem State.orderStop_edgeView (s : State) (j i : Nat) : (s.orderStop j).edgeView i = s.edgeView i := by
  unfold State.orderStop
  split
  · rfl
  · refine (State.interval_edgeView _ j none 0 _ i).trans ((State.orderError_edgeView _ j i).trans ?_)
    exact State.setTin_edgeView rfl rfl rfl rfl

theorem State.startEdge_edgeView (s : State) (j : Nat) (x : Stamp) (i : Nat) :
    (s.startEdge j x).edgeView i = s.edgeView i := by
  unfold State.startEdge
  dsimp only
  split
  · exact State.setTin_edgeView rfl rfl rfl rfl
  · split
    · split
      · refine (State.interval_edgeView _ j _ _ _ i).trans ?_
        exact State.setTin_edgeView rfl rfl rfl rfl
      · exact State.setTin_edgeView (s.orderStop_edgeView j i) rfl rfl rfl
    · have hold := State.when_keeps (State.edgeView · i) s (s.tin j).armed.isSome (·.unpaired j)
        fun v => v.unpaired_edgeView j i
      exact State.setTin_edgeView hold rfl rfl rfl

theorem State.stopEdge_edgeView (s : State) (j : Nat) (x : Stamp) (i : Nat) :
    (s.stopEdge j x).edgeView i = s.edgeView i := by
  unfold State.stopEdge
  dsimp only
  split
  · exact State.setTin_edgeView rfl rfl rfl rfl
  · split
    · have hfree : (s.setTin j { s.tin j with armed := none }).edgeView i = s.edgeView i :=
        State.setTin_edgeView rfl rfl rfl rfl
      split
      · exact State.setTin_edgeView ((State.orderStop_edgeView _ j i).trans
          ((State.unpaired_edgeView _ j i).trans hfree)) rfl rfl rfl
      · exact (State.interval_edgeView _ j _ _ _ i).trans hfree
    · exact State.setTin_edgeView (s.orderStop_edgeView j i) rfl rfl rfl

theorem State.intervalEdges_edgeView (s : State) (e : Nat) (x : Stamp) (i : Nat) :
    (s.intervalEdges e x).edgeView i = s.edgeView i := by
  refine State.each_keeps (State.edgeView · i) s 16 _ fun t j => ?_
  dsimp only
  split
  · split
    · split
      · refine State.setTin_edgeView ?_ rfl rfl rfl
        split
        · exact t.interval_edgeView j _ _ _ i
        · rfl
      · rfl
    · split
      · exact t.startEdge_edgeView j x i
      · split
        · exact t.stopEdge_edgeView j x i
        · rfl
  · rfl

/-- A stamp starts the dead time (R107). -/
theorem State.stampEdge_edgeView (s : State) (i inst : Nat) :
    (s.stampEdge i inst).edgeView i = { s.edgeView i with lastKept := some inst } := by
  unfold State.stampEdge State.edgeView
  rw [State.setTin_reg, State.setTin_reg, State.tin_setTin_same]
  unfold Tin.exchange
  split <;> rfl

theorem State.measureEdge_edgeView (s : State) (i n : Nat) (x : Stamp) :
    (s.measureEdge i n x).edgeView i = { s.edgeView i with lastKept := some x.inst } := by
  unfold State.measureEdge
  extract_lets t u v
  have hu : u.edgeView i = t.edgeView i :=
    State.when_keeps (State.edgeView · i) t _ (fun s => s.jasperPut 1 i (b2n x.rising + s.uncal) (otBytes x.ot ++ leBytes 4 n))
      fun w => w.jasperPut_edgeView _ i _ _ i
  have hv : v.edgeView i = u.edgeView i := u.intervalEdges_edgeView i x i
  refine (State.when_keeps (State.edgeView · i) v _ _ fun w => ?_).trans (hv.trans (hu.trans (s.stampEdge_edgeView i x.inst)))
  exact State.setTin_edgeView rfl rfl rfl rfl

/-! ## The combiner -/

theorem State.setCell_edgeView (s : State) (c : Nat) (x : Cell) (i : Nat) : (s.setCell c x).edgeView i = s.edgeView i := rfl

theorem State.cellCounts_edgeView (s : State) (c : Nat) (late fits : Bool) (i : Nat) :
    (s.cellCounts c late fits).edgeView i = s.edgeView i := by
  unfold State.cellCounts
  extract_lets x fresh t u v
  have hadd : ∀ (w : State) (f : Fld) off, beside f.reg = true → ((w.addFld f c 1).stat off 1).edgeView i = w.edgeView i :=
    fun w f off hf => (State.stat_edgeView _ off 1 i).trans (w.addFld_edgeView f c 1 i hf)
  have ht : t.edgeView i = s.edgeView i :=
    State.when_keeps (State.edgeView · i) s _ (fun s => (s.addFld TRG_CELL_LATE.LATE c 1).stat (0x2404 + 16 * c) 1)
      fun w => hadd w _ _ (by decide)
  have hu : u.edgeView i = t.edgeView i :=
    State.when_keeps (State.edgeView · i) t _ (·.raise Ev.CELL_LATE c [(0, 4, x.lateCount + 1)])
      fun w => w.raise_edgeView _ _ _ i
  have hv : v.edgeView i = u.edgeView i :=
    State.when_keeps (State.edgeView · i) u _ (·.setCell c
      { x with lastLate := some u.now, lateCount := if fresh then 0 else x.lateCount + 1 })
      fun w => w.setCell_edgeView _ _ i
  exact (State.when_keeps (State.edgeView · i) v _ _ fun w => hadd w _ _ (by decide)).trans (hv.trans (hu.trans ht))

theorem State.placeEvent_edgeView (s : State) (old count : Bool) (c j code t i : Nat) :
    (s.placeEvent old count c j code t).edgeView i = s.edgeView i := by
  unfold State.placeEvent
  extract_lets cfg r u x
  have hu : u.edgeView i = s.edgeView i :=
    State.when_keeps (State.edgeView · i) s _ (·.cellCounts c r.2.1 r.2.2) fun w => w.cellCounts_edgeView c _ _ i
  exact (u.setCell_edgeView c _ i).trans hu

theorem State.combEvent_edgeView (s : State) (code t : Nat) (among : Nat → Bool) (i : Nat) :
    (s.combEvent code t among).edgeView i = s.edgeView i := by
  unfold State.combEvent
  extract_lets before
  refine State.each_keeps (State.edgeView · i) s 64 _ fun u c => ?_
  dsimp only
  split
  · refine State.each_keeps (State.edgeView · i) u 16 _ fun v j => ?_
    refine (State.when_keeps (State.edgeView · i) _ _ _ fun w => w.placeEvent_edgeView _ _ c j code t i).trans ?_
    exact State.when_keeps (State.edgeView · i) v _ _ fun w => w.placeEvent_edgeView _ _ c j code t i
  · rfl

/-! ## The turn tracker -/

theorem State.turnAlign_edgeView (s : State) (t0 i : Nat) : (s.turnAlign t0).edgeView i = s.edgeView i := by
  unfold State.turnAlign State.setReg64
  extract_lets base b0 u
  exact (State.setFld_edgeView _ _ 0 1 i (by decide)).trans ((State.setReg_edgeView _ _ 0 _ i (by decide)).trans
    ((u.setReg_edgeView _ 0 _ i (by decide)).trans rfl))

theorem State.turnEdge_edgeView (s : State) (t i : Nat) : (s.turnEdge t).edgeView i = s.edgeView i := by
  unfold State.turnEdge
  split
  · rfl
  · split
    · rfl
    · dsimp only
      have hout : (s.addFld EPO_TURN_STAT.OUTLIERS 0 1).edgeView i = s.edgeView i := s.addFld_edgeView _ 0 1 i (by decide)
      split
      · exact (State.raise_edgeView _ _ _ _ i).trans (s.turnAlign_edgeView _ i)
      · split
        · refine (State.setFld_edgeView _ _ 0 1 i (by decide)).trans ?_
          exact (State.setFld_edgeView _ _ 0 _ i (by decide)).trans rfl
        · split
          · refine (State.raise_edgeView _ _ _ _ i).trans ((State.turnAlign_edgeView _ _ i).trans ?_)
            exact (State.addFld_edgeView _ _ 0 1 i (by decide)).trans hout
          · exact hout

/-! ## OT96 and the epoch source -/

theorem State.anchor_edgeView (s : State) (type k block time : Nat) (jump : Int) (i : Nat) :
    (s.anchor type k block time jump).edgeView i = s.edgeView i := State.stat_edgeView _ _ _ i

theorem State.otStep_edgeView (s : State) (step : Int) (t : Nat) (host : Bool) (i : Nat) :
    (s.otStep step t host).edgeView i = s.edgeView i := by
  unfold State.otStep
  extract_lets u fs v
  have hu : u.edgeView i = s.edgeView i :=
    State.when_keeps (State.edgeView · i) s _ (·.setFlag TDC_STATUS.TIME_VALID 0 true)
      fun x => x.setFld_edgeView _ 0 _ i (by decide)
  have hv : v.edgeView i = u.edgeView i := by
    refine State.each_keeps (State.edgeView · i) u 8 _ fun x k => ?_
    dsimp only
    split
    · exact x.anchor_edgeView _ k _ _ _ i
    · rfl
  clear_value v
  exact (State.raise_edgeView _ _ _ _ i).trans (hv.trans hu)

theorem State.discipline_edgeView (s : State) (e : Int) (i : Nat) : (s.discipline e).edgeView i = s.edgeView i := by
  unfold State.discipline
  extract_lets t
  have ht : t.edgeView i = s.edgeView i := s.setFld_edgeView _ 0 _ i (by decide)
  split
  · exact ht
  · exact ht

theorem State.ppsEdge_edgeView (s : State) (t i : Nat) : (s.ppsEdge t).edgeView i = s.edgeView i := by
  unfold State.ppsEdge State.applySet
  split
  · exact (State.otStep_edgeView _ _ t true i).trans (s.setFld_edgeView _ 0 _ i (by decide))
  · exact s.discipline_edgeView _ i

theorem State.epochEdge_edgeView (s : State) (j t i : Nat) : (s.epochEdge j t).edgeView i = s.edgeView i := by
  unfold State.epochEdge
  dsimp only
  split
  · rfl
  · split
    · rfl
    · rfl

/-! ## An edge that Jasper keeps -/

theorem State.whenMeasured_edgeView (s : State) (i n : Nat) (x : Stamp) (fast : Bool) :
    (s.when fast (·.measureEdge i n x)).edgeView i =
      { s.edgeView i with lastKept := if fast then some x.inst else (s.edgeView i).lastKept } := by
  cases fast
  · rfl
  · exact s.measureEdge_edgeView i n x

theorem State.counted_edgeView (s : State) (i off : Nat) : ((s.setTin i { s.tin i with edges := (s.tin i).edges + 1 }).stat
    off 1).edgeView i = { s.edgeView i with edges := (s.tin i).edges + 1 } := by
  refine (State.stat_edgeView _ off 1 i).trans ?_
  unfold State.edgeView
  rw [State.setTin_reg, State.setTin_reg, State.tin_setTin_same]

/-- What an edge kept sets off beside the measurement leaves the input's view. -/
theorem State.afterEdge_edgeView (s : State) (i time : Nat) (turn pps : State → Bool) :
    (((s.when (turn s) (·.turnEdge time)).when (pps (s.when (turn s) (·.turnEdge time))) (·.ppsEdge time)).epochEdge i
      time).edgeView i = s.edgeView i := by
  rw [State.epochEdge_edgeView,
    State.when_keeps (State.edgeView · i) _ _ (·.ppsEdge time) fun q => q.ppsEdge_edgeView time i,
    State.when_keeps (State.edgeView · i) _ _ (·.turnEdge time) fun q => q.turnEdge_edgeView time i]

/-- It is counted, and stamped in mode F alone (R101, R107). -/
theorem State.keepEdge_edgeView (s : State) (i : Nat) (x : Stamp) : (s.keepEdge i x).edgeView i =
    { s.edgeView i with
      edges := (s.tin i).edges + 1
      lastKept := if s.fld TDC_IN_CFG.MODE i = 0 then some x.inst else (s.tin i).lastKept } := by
  unfold State.keepEdge
  extract_lets t n u fast time v w
  have hmode : u.fld TDC_IN_CFG.MODE i = s.fld TDC_IN_CFG.MODE i :=
    (State.fld_of_reg (State.stat_reg _ _ _ _ _)).trans (State.setTin_fld _ _ _ _ _)
  have hu : u.edgeView i = { s.edgeView i with edges := (s.tin i).edges + 1 } := s.counted_edgeView i _
  have hv : v.edgeView i = u.edgeView i := u.combEvent_edgeView _ time _ i
  have hw := v.whenMeasured_edgeView i n x fast
  refine (State.afterEdge_edgeView _ i time (fun s => s.flag EPO_TURN_CFG.EN 0 && s.fld EPO_TURN_CFG.TURN_TIN 0 == i)
    (fun s => s.fld TDC_TIME_CFG.TIME_SRC 0 == 1 && s.fld TDC_TIME_CFG.SRC_IDX 0 == i)).trans (hw.trans ?_)
  simp only [hv, hu, fast, hmode, decide_eq_true_eq]
  rfl

end Sys2Proof.Machine
end

section
/-! PROOFS. TIN_EDGE and TIN_SETTLE_END (R63, R64, R100 to R102, R107). -/

namespace Sys2Proof.Machine

/-! ## REFIN and the block markers -/

theorem Tin.exchange_idle (t : Tin) (now : Nat) (h : t.swap = false) : t.exchange now = t :=
  if_neg (by rw [h]; exact Bool.false_ne_true)

theorem State.stampEdge_tin (s : State) (i inst : Nat) (h : (s.tin i).swap = false) :
    (s.stampEdge i inst).tin i = { s.tin i with lastKept := some inst, stampOt := s.otOf inst } := by
  rw [State.stampEdge, State.tin_setTin_same, Tin.exchange_idle _ _ h]

/-- An edge of an inner input: `stamped` says that the divider and the dead time let it through (R102, R107). -/
theorem State.innerEdge_tin (s : State) (i : Nat) (rising : Bool) (inst : Nat) (counts stamped : Bool)
    (hswap : (s.tin i).swap = false) (hcounts : (i != 16 || rising) = counts)
    (hstamped : (counts && !s.deadAt i inst && (i != 16 ||
      decide (((s.tin i).edges + b2n counts) % 16 ^ s.fld TDC_TIME_CFG.REF_PRESCALE 0 = 0))) = stamped) :
    s.innerEdge i rising inst = { s with tins := (s.innerEdge i rising inst).tins } ∧
    (s.innerEdge i rising inst).tin i =
      if stamped then { s.tin i with
        raw := rising, edges := (s.tin i).edges + b2n counts, lastKept := some inst, stampOt := s.otOf inst }
      else { s.tin i with raw := rising, edges := (s.tin i).edges + b2n counts } := by
  have hedge : s.innerEdge i rising inst = (s.setTin i { s.tin i with
      raw := rising, edges := (s.tin i).edges + b2n counts }).when stamped (·.stampEdge i inst) := by
    rw [← hstamped, ← hcounts]
    rfl
  have htin := s.tin_setTin_same i { s.tin i with raw := rising, edges := (s.tin i).edges + b2n counts }
  rw [hedge]
  cases stamped
  · exact ⟨rfl, htin⟩
  · refine ⟨rfl, (State.stampEdge_tin _ i inst (by rw [htin]; exact hswap)).trans ?_⟩
    rw [htin]
    rfl

theorem State.exec_tinEdge_inner (s : State) (n : Fin 25) (rising : Bool) (inst : Nat) (h : 16 ≤ n.val) :
    exec (.tinEdge n rising inst) s = .next (s.innerEdge n rising inst) := congrArg Host.Outcome.next (if_pos h)

/-- Each edge of a block marker is stamped outside the dead time (R102). -/
theorem State.exec_tinEdge_marker (s : State) (n : Fin 25) (rising : Bool) (inst : Nat) (hn : 17 ≤ n.val)
    (hswap : (s.tin n).swap = false) : ∃ t, exec (.tinEdge n rising inst) s = .next t ∧ t = { s with tins := t.tins } ∧
      t.tin n = (if s.deadAt n inst then { s.tin n with raw := rising, edges := (s.tin n).edges + 1 }
        else { s.tin n with raw := rising, edges := (s.tin n).edges + 1, lastKept := some inst, stampOt := s.otOf inst }) := by
  have hne : (n.val != 16) = true := bne_iff_ne.mpr (by omega)
  obtain ⟨hrest, htin⟩ := s.innerEdge_tin n rising inst true (!s.deadAt n inst) hswap (by rw [hne]; rfl)
    (by rw [hne, Bool.true_and, Bool.true_or, Bool.and_true])
  refine ⟨_, s.exec_tinEdge_inner n rising inst (by omega), hrest, htin.trans ?_⟩
  cases s.deadAt n inst <;> rfl

/-- REFIN is stamped at each rising edge that its divider passes (R102). -/
theorem State.exec_tinEdge_refin (s : State) (rising : Bool) (inst : Nat) (hswap : (s.tin 16).swap = false) :
    ∃ t, exec (.tinEdge 16 rising inst) s = .next t ∧ t = { s with tins := t.tins } ∧
      t.tin 16 = (if rising && !s.deadAt 16 inst &&
          decide (((s.tin 16).edges + 1) % 16 ^ s.fld TDC_TIME_CFG.REF_PRESCALE 0 = 0) then
        { s.tin 16 with raw := rising, edges := (s.tin 16).edges + 1, lastKept := some inst, stampOt := s.otOf inst }
        else { s.tin 16 with raw := rising, edges := (s.tin 16).edges + b2n rising }) := by
  obtain ⟨hrest, htin⟩ := s.innerEdge_tin 16 rising inst rising _ hswap rfl rfl
  refine ⟨_, s.exec_tinEdge_inner 16 rising inst (Nat.le_refl 16), hrest, htin.trans ?_⟩
  cases rising <;> rfl

/-! ## Levels without an edge -/

theorem State.tinTake_same (s : State) (i : Nat) (v : Bool) (h : s.flag TDC_IN_STAT.LEVEL i = v) : s.tinTake i v = s :=
  if_pos (by rw [h]; exact beq_self_eq_true v)

theorem State.tinTake_ne (s : State) (i : Nat) (v : Bool) (h : s.flag TDC_IN_STAT.LEVEL i ≠ v) :
    s.tinTake i v = (s.setFlag TDC_IN_STAT.LEVEL i v).level (0x810 + i) v := if_neg fun e => h (eq_of_beq e)

/-- A field of TDC_IN_STAT is set: another field of the input that does not overlap it keeps its value. -/
theorem State.flag_setFlag_tinStat (s : State) (f g : Fld) (i : Nat) (b : Bool) (hlo : f.lo ≤ f.hi) (h32 : f.hi < 32)
    (h : g.hi < f.lo ∨ f.hi < g.lo) : (s.setFlag f i b).flag g i = s.flag g i :=
  congrArg (· == 1) (s.fld_setFld_ne f g i i (b2n b) hlo h32 (.inr h))

/-- The other registers, memory, the state of the inputs and the events stay as they are. -/
structure LevelOnly (s t : State) : Prop where
  tins : t.tins = s.tins
  mem : t.mem = s.mem
  evq : t.evq = s.evq
  reg : ∀ r i, r ≠ Reg.TDC_IN_STAT → t.reg r i = s.reg r i

theorem LevelOnly.trans {s t u : State} (h : LevelOnly s t) (k : LevelOnly t u) : LevelOnly s u :=
  ⟨k.tins.trans h.tins, k.mem.trans h.mem, k.evq.trans h.evq, fun r i hr => (k.reg r i hr).trans (h.reg r i hr)⟩

theorem LevelOnly.fld {s t : State} (h : LevelOnly s t) (f : Fld) (i : Nat) (hf : f.reg ≠ .TDC_IN_STAT) :
    t.fld f i = s.fld f i := State.fld_of_reg (h.reg f.reg i hf)

theorem LevelOnly.tin {s t : State} (h : LevelOnly s t) (i : Nat) : t.tin i = s.tin i := State.tin_of_tins h.tins i

theorem State.setFlag_levelOnly (s : State) (f : Fld) (i : Nat) (b : Bool) (hf : f.reg = .TDC_IN_STAT) :
    LevelOnly s (s.setFlag f i b) :=
  ⟨rfl, rfl, rfl, fun r j hr => s.reg_setReg_ne _ r i j _ fun e => hr ((congrArg Prod.fst e).trans hf)⟩

theorem State.level_levelOnly (s : State) (code : Nat) (v : Bool) : LevelOnly s (s.level code v) :=
  ⟨rfl, rfl, rfl, fun _ _ _ => rfl⟩

theorem State.level_flag (s : State) (code : Nat) (v : Bool) (f : Fld) (i : Nat) :
    (s.level code v).flag f i = s.flag f i := rfl

/-- An input that takes a level shows it; nothing else of its status changes (R63). -/
theorem State.tinTake_level (s : State) (i : Nat) (v : Bool) : LevelOnly s (s.tinTake i v) ∧
    (s.tinTake i v).flag TDC_IN_STAT.LEVEL i = v ∧
    (s.tinTake i v).flag TDC_IN_STAT.UNSETTLED i = s.flag TDC_IN_STAT.UNSETTLED i ∧
    (s.tinTake i v).flag TDC_IN_STAT.INBAND i = s.flag TDC_IN_STAT.INBAND i := by
  by_cases h : s.flag TDC_IN_STAT.LEVEL i = v
  · rw [s.tinTake_same i v h]
    exact ⟨⟨rfl, rfl, rfl, fun _ _ _ => rfl⟩, h, rfl, rfl⟩
  · rw [s.tinTake_ne i v h]
    simp only [State.level_flag]
    exact ⟨(s.setFlag_levelOnly _ i v rfl).trans (State.level_levelOnly _ _ v),
      State.flag_setFlag_same _ _ _ _ (by decide) (by decide),
      s.flag_setFlag_tinStat _ TDC_IN_STAT.UNSETTLED i v (by decide) (by decide) (by decide),
      s.flag_setFlag_tinStat _ TDC_IN_STAT.INBAND i v (by decide) (by decide) (by decide)⟩

/-- An input leaves its band. -/
def State.tinLeave (s : State) (i : Nat) : State :=
  (s.setFlag TDC_IN_STAT.UNSETTLED i false).setFlag TDC_IN_STAT.INBAND i false

theorem State.tinLeave_flags (s : State) (i : Nat) : LevelOnly s (s.tinLeave i) ∧
    (s.tinLeave i).flag TDC_IN_STAT.LEVEL i = s.flag TDC_IN_STAT.LEVEL i ∧
    (s.tinLeave i).flag TDC_IN_STAT.UNSETTLED i = false ∧ (s.tinLeave i).flag TDC_IN_STAT.INBAND i = false := by
  unfold State.tinLeave
  refine ⟨(s.setFlag_levelOnly _ i false rfl).trans (State.setFlag_levelOnly _ _ i false rfl), ?_, ?_,
    State.flag_setFlag_same _ _ _ _ (by decide) (by decide)⟩
  · rw [State.flag_setFlag_tinStat _ _ TDC_IN_STAT.LEVEL _ _ (by decide) (by decide) (by decide),
      State.flag_setFlag_tinStat _ _ TDC_IN_STAT.LEVEL _ _ (by decide) (by decide) (by decide)]
  · rw [State.flag_setFlag_tinStat _ _ TDC_IN_STAT.UNSETTLED _ _ (by decide) (by decide) (by decide),
      State.flag_setFlag_same _ _ _ _ (by decide) (by decide)]

/-! ## Edges of a settled input -/

/-- SLOPE selects rising edges (0), falling ones (1) or both (2) (R100). -/
def slopeTakes (slope : Nat) (rising : Bool) : Bool :=
  decide (slope = 2) || decide (slope = 0) && rising || decide (slope = 1) && !rising

theorem slopeTakes_iff (slope : Nat) (rising : Bool) :
    slopeTakes slope rising = true ↔ slope = 2 ∨ (slope = 0 ∧ rising = true) ∨ (slope = 1 ∧ rising = false) := by
  simp [slopeTakes, or_assoc]

/-- The accepted level follows the edge (R101). -/
def State.tinCross (s : State) (i : Nat) (rising : Bool) : State :=
  ((s.setTin i { s.tin i with raw := rising }).tinLeave i).tinTake i rising

/-- An edge in the dead time is counted and dropped (R107). -/
def State.tinDrop (s : State) (i inst : Nat) : State :=
  let s := (s.addFld TDC_IN_DEAD.DEAD i 1).stat (0x204 + 8 * i) 1
  s.setTin i { s.tin i with gateDrops := if s.func i = 2 then (s.tin i).gateDrops ++ [inst] else [] }

theorem State.exec_tinEdge_settled (s : State) (n : Fin 25) (rising : Bool) (inst : Nat) (hn : n.val < 16)
    (hset : (s.tin n).settling = false) : exec (.tinEdge n rising inst) s = .next (
      let u := s.tinCross n rising
      if slopeTakes (u.fld TDC_IN_CFG.SLOPE n) rising = false then u
      else if (u.fld TDC_IN_CFG.MODE n = 0 && u.deadAt n inst) = true then u.tinDrop n inst
      else u.keepEdge n ⟨inst, rising, u.otOf inst⟩) := by
  refine congrArg Host.Outcome.next ((if_neg (Nat.not_le.mpr hn)).trans ((if_neg ?_).trans ?_))
  · rw [hset]
    exact Bool.false_ne_true
  · simp only [← Bool.not_eq_true']
    rfl

/-- What a crossing shows before the edge itself is judged: the new level, outside the band. -/
theorem State.tinCross_level (s : State) (i : Nat) (rising : Bool) :
    LevelOnly (s.setTin i { s.tin i with raw := rising }) (s.tinCross i rising) ∧
    (s.tinCross i rising).flag TDC_IN_STAT.LEVEL i = rising ∧
    (s.tinCross i rising).flag TDC_IN_STAT.UNSETTLED i = false ∧
    (s.tinCross i rising).flag TDC_IN_STAT.INBAND i = false := by
  obtain ⟨hleave, -, hunset, hinband⟩ := (s.setTin i { s.tin i with raw := rising }).tinLeave_flags i
  obtain ⟨htake, hlevel, hunset', hinband'⟩ := ((s.setTin i { s.tin i with raw := rising }).tinLeave i).tinTake_level i rising
  exact ⟨hleave.trans htake, hlevel, hunset'.trans hunset, hinband'.trans hinband⟩

theorem State.tinCross_edgeView (s : State) (i : Nat) (rising : Bool) : (s.tinCross i rising).edgeView i =
    { s.edgeView i with raw := rising, stat := (s.tinCross i rising).reg .TDC_IN_STAT i } := by
  have h := (s.tinCross_level i rising).1
  unfold State.edgeView
  rw [h.tin, State.tin_setTin_same, h.reg .TDC_IN_DEAD i (by decide)]
  rfl

theorem State.tinDrop_edgeView (s : State) (i inst : Nat) : (s.tinDrop i inst).edgeView i =
    { s.edgeView i with dead := (s.tinDrop i inst).reg .TDC_IN_DEAD i } ∧
    (s.tinDrop i inst).fld TDC_IN_DEAD.DEAD i = satU 32 (s.fld TDC_IN_DEAD.DEAD i + 1) := by
  have htins : ((s.addFld TDC_IN_DEAD.DEAD i 1).stat (0x204 + 8 * i) 1).tin i = s.tin i :=
    State.tin_of_tins (State.stat_tins _ _ _) i
  have hreg : ∀ r, (s.tinDrop i inst).reg r i = (s.addFld TDC_IN_DEAD.DEAD i 1).reg r i := fun r => State.stat_reg _ _ _ _ _
  refine ⟨?_, (State.fld_of_reg (hreg _)).trans (State.fld_addFld_same _ _ _ _ (by decide) (by decide))⟩
  have hstat : (s.tinDrop i inst).reg .TDC_IN_STAT i = s.reg .TDC_IN_STAT i :=
    (hreg _).trans (State.reg_setFld_ne _ _ _ _ _ _ fun e =>
      absurd (congrArg Prod.fst e) (show Reg.TDC_IN_STAT ≠ .TDC_IN_DEAD by decide))
  unfold State.edgeView
  rw [hstat]
  unfold State.tinDrop
  dsimp only
  rw [State.tin_setTin_same, htins]

theorem State.deadAt_iff (s : State) (i inst : Nat) :
    s.deadAt i inst = true ↔ ∃ l, (s.tin i).lastKept = some l ∧ inst < l + 512 := by
  unfold State.deadAt
  split
  · next l h => simp [h]
  · next h => simp [h]

/-- What an edge that neither the slope nor the dead time drops changes: it counts, and in mode F it is the last stamped. -/
def EdgeView.keep (v : EdgeView) (stamped : Bool) (inst : Nat) : EdgeView :=
  { v with edges := v.edges + 1, lastKept := if stamped then some inst else v.lastKept }

/-- What an input shows after an edge from state s, in which it was settled: `v` is what the crossing alone would show. -/
structure EdgeTaken (s t : State) (i inst : Nat) (rising : Bool) (v : EdgeView) : Prop where
  skipped : slopeTakes (s.fld TDC_IN_CFG.SLOPE i) rising = false → t.edgeView i = v
  dropped : slopeTakes (s.fld TDC_IN_CFG.SLOPE i) rising = true → s.fld TDC_IN_CFG.MODE i = 0 → s.deadAt i inst = true →
    t.edgeView i = { v with dead := t.reg .TDC_IN_DEAD i } ∧
    t.fld TDC_IN_DEAD.DEAD i = satU 32 (s.fld TDC_IN_DEAD.DEAD i + 1)
  kept : slopeTakes (s.fld TDC_IN_CFG.SLOPE i) rising = true →
    (s.fld TDC_IN_CFG.MODE i = 0 → s.deadAt i inst = false) →
    t.edgeView i = v.keep (decide (s.fld TDC_IN_CFG.MODE i = 0)) inst
  stat : (t.edgeView i).stat = v.stat
  raw : (t.edgeView i).raw = v.raw

theorem State.exec_tinEdge_taken (s : State) (n : Fin 25) (rising : Bool) (inst : Nat) (hn : n.val < 16)
    (hset : (s.tin n).settling = false) : ∃ t, exec (.tinEdge n rising inst) s = .next t ∧
      EdgeTaken s t n inst rising ((s.tinCross n rising).edgeView n) := by
  obtain ⟨hlevel, -⟩ := s.tinCross_level n rising
  have hslope := hlevel.fld TDC_IN_CFG.SLOPE n (by decide)
  have hmode := hlevel.fld TDC_IN_CFG.MODE n (by decide)
  have hcount := hlevel.fld TDC_IN_DEAD.DEAD n (by decide)
  have htin := (hlevel.tin n).trans (State.tin_setTin_same _ _ _)
  have hdead : (s.tinCross n rising).deadAt n inst = s.deadAt n inst := by
    unfold State.deadAt
    rw [htin]
  rw [State.setTin_fld] at hslope hmode hcount
  refine ⟨_, s.exec_tinEdge_settled n rising inst hn hset, ?_⟩
  dsimp only
  rw [hslope, hmode, hdead]
  generalize s.tinCross n rising = u at *
  cases htakes : slopeTakes (s.fld TDC_IN_CFG.SLOPE n) rising with
  | false =>
    have hskip : slopeTakes (s.fld TDC_IN_CFG.SLOPE n) rising ≠ true := Bool.eq_false_iff.mp htakes
    rw [if_pos rfl]
    exact ⟨fun _ => rfl, fun h => absurd h hskip, fun h => absurd h hskip, rfl, rfl⟩
  | true =>
    have hnoskip : slopeTakes (s.fld TDC_IN_CFG.SLOPE n) rising ≠ false := fun h => Bool.false_ne_true (h.symm.trans htakes)
    rw [if_neg (Ne.symm Bool.false_ne_true)]
    by_cases hdrop : (decide (s.fld TDC_IN_CFG.MODE n = 0) && s.deadAt n inst) = true
    · obtain ⟨hview, hfld⟩ := u.tinDrop_edgeView n inst
      obtain ⟨hfast, hlate⟩ := Bool.and_eq_true_iff.mp hdrop
      rw [if_pos hdrop]
      refine ⟨fun h => absurd h hnoskip, fun _ _ _ => ⟨hview, hfld.trans (by rw [hcount])⟩, fun _ h => ?_, by rw [hview],
        by rw [hview]⟩
      exact absurd hlate (Bool.eq_false_iff.mp (h (of_decide_eq_true hfast)))
    · have hview := u.keepEdge_edgeView n ⟨inst, rising, u.otOf inst⟩
      rw [if_neg hdrop]
      refine ⟨fun h => absurd h hnoskip, fun _ hfast hlate => absurd ?_ hdrop, fun _ _ => ?_, by rw [hview], by rw [hview]⟩
      · rw [decide_eq_true hfast, hlate]
        rfl
      · rw [hview, hmode]
        simp only [EdgeView.keep, decide_eq_true_eq]
        rfl

/-- What TIN_EDGE does to a settled input of the combiner (R100, R101, R107). -/
theorem State.exec_tinEdge_combiner (s : State) (n : Fin 25) (rising : Bool) (inst : Nat) (hn : n.val < 16)
    (hset : (s.tin n).settling = false) :
    let slope := s.fld TDC_IN_CFG.SLOPE n
    let taken := slope = 2 ∨ (slope = 0 ∧ rising = true) ∨ (slope = 1 ∧ rising = false)
    ∃ t, exec (.tinEdge n rising inst) s = .next t ∧ (t.tin n).raw = rising ∧
      t.flag TDC_IN_STAT.LEVEL n = rising ∧ t.flag TDC_IN_STAT.UNSETTLED n = false ∧ t.flag TDC_IN_STAT.INBAND n = false ∧
      (¬ taken → (t.tin n).edges = (s.tin n).edges ∧ (t.tin n).lastKept = (s.tin n).lastKept ∧
        t.reg .TDC_IN_DEAD n = s.reg .TDC_IN_DEAD n) ∧
      (∀ l, taken → s.fld TDC_IN_CFG.MODE n = 0 → (s.tin n).lastKept = some l → inst < l + 512 →
        (t.tin n).edges = (s.tin n).edges ∧
        (t.tin n).lastKept = some l ∧ t.fld TDC_IN_DEAD.DEAD n = satU 32 (s.fld TDC_IN_DEAD.DEAD n + 1)) ∧
      (taken → s.fld TDC_IN_CFG.MODE n = 0 → (∀ l, (s.tin n).lastKept = some l → l + 512 ≤ inst) →
        (t.tin n).edges = (s.tin n).edges + 1 ∧
        (t.tin n).lastKept = some inst ∧ t.reg .TDC_IN_DEAD n = s.reg .TDC_IN_DEAD n) ∧
      (taken → s.fld TDC_IN_CFG.MODE n ≠ 0 → (t.tin n).edges = (s.tin n).edges + 1 ∧
        (t.tin n).lastKept = (s.tin n).lastKept ∧ t.reg .TDC_IN_DEAD n = s.reg .TDC_IN_DEAD n) := by
  intro slope taken
  have htaken : slopeTakes slope rising = true ↔ taken := slopeTakes_iff slope rising
  obtain ⟨t, hexec, hedge⟩ := s.exec_tinEdge_taken n rising inst hn hset
  obtain ⟨-, hlevel, hunset, hinband⟩ := s.tinCross_level n rising
  have hcross := s.tinCross_edgeView n rising
  have hstat : t.reg .TDC_IN_STAT n = (s.tinCross n rising).reg .TDC_IN_STAT n := hedge.stat
  refine ⟨t, hexec, hedge.raw.trans (congrArg EdgeView.raw hcross), (State.flag_of_reg hstat).trans hlevel,
    (State.flag_of_reg hstat).trans hunset, (State.flag_of_reg hstat).trans hinband, fun hno => ?_,
    fun l htake hfast hlast hsoon => ?_, fun htake hfast hlate => ?_, fun htake hslow => ?_⟩
  · have hview := (hedge.skipped (Bool.eq_false_iff.mpr fun h => hno (htaken.mp h))).trans hcross
    exact ⟨congrArg EdgeView.edges hview, congrArg EdgeView.lastKept hview, congrArg EdgeView.dead hview⟩
  · obtain ⟨hview, hcount⟩ := hedge.dropped (htaken.mpr htake) hfast ((s.deadAt_iff n inst).mpr ⟨l, hlast, hsoon⟩)
    rw [hcross] at hview
    exact ⟨congrArg EdgeView.edges hview, (congrArg EdgeView.lastKept hview).trans hlast, hcount⟩
  · have hlive : s.deadAt n inst = false := Bool.eq_false_iff.mpr fun h => by
      obtain ⟨l, hlast, hsoon⟩ := (s.deadAt_iff n inst).mp h
      exact absurd (hlate l hlast) (Nat.not_le.mpr hsoon)
    have hview := hedge.kept (htaken.mpr htake) fun _ => hlive
    rw [hcross, decide_eq_true hfast] at hview
    exact ⟨congrArg EdgeView.edges hview, congrArg EdgeView.lastKept hview, congrArg EdgeView.dead hview⟩
  · have hview := hedge.kept (htaken.mpr htake) fun h => absurd h hslow
    rw [hcross, decide_eq_false hslow] at hview
    exact ⟨congrArg EdgeView.edges hview, congrArg EdgeView.lastKept hview, congrArg EdgeView.dead hview⟩

theorem State.exec_tinEdge_settling (s : State) (n : Fin 25) (rising : Bool) (inst : Nat) (hn : n.val < 16)
    (hset : (s.tin n).settling = true) :
    exec (.tinEdge n rising inst) s = .next (s.setTin n { s.tin n with raw := rising }) :=
  congrArg Host.Outcome.next ((if_neg (Nat.not_le.mpr hn)).trans (if_pos hset))

/-! ## The end of a settle interval -/

theorem State.exec_tinSettleEnd_change (s : State) (n : Fin 16) (inBand raw : Bool) (h : (s.tin n).settling = true) :
    exec (.tinSettleEnd n inBand raw) s = .next (
      if s.now < (s.tin n).settleAt + settleTime (s.fld TDC_IN_CFG.MODE n) then s else s.tinFollow n raw) :=
  congrArg Host.Outcome.next (if_pos h)

theorem State.exec_tinSettleEnd_start (s : State) (n : Fin 16) (inBand raw : Bool) (h : (s.tin n).settling = false) :
    exec (.tinSettleEnd n inBand raw) s = .next (
      if (!s.flag TDC_IN_STAT.UNSETTLED n || decide (s.now < (s.tin n).since + s.fld TDC_IN_CFG.SETTLE n * usCycles)) = true
      then s
      else
        let u := (s.setTin n { s.tin n with raw := raw }).setFlag TDC_IN_STAT.UNSETTLED n false
        if inBand then (u.setFlag TDC_IN_STAT.INBAND n true).raise Ev.TIN_INBAND n [] else u.tinTake n raw) :=
  congrArg Host.Outcome.next (if_neg (by rw [h]; exact Bool.false_ne_true))

/-- The settling after a change ends: the input follows its raw output, and one beyond the held level has left its band
(R64). -/
theorem State.tinFollow_level (s : State) (i : Nat) (raw : Bool) :
    ((s.tinFollow i raw).tin i).settling = false ∧ ((s.tinFollow i raw).tin i).raw = raw ∧
    (s.tinFollow i raw).flag TDC_IN_STAT.LEVEL i = raw ∧ (s.tinFollow i raw).mem = s.mem ∧
    (s.tinFollow i raw).flag TDC_IN_STAT.UNSETTLED i =
      (s.flag TDC_IN_STAT.UNSETTLED i && s.flag TDC_IN_STAT.LEVEL i == raw) := by
  have htin := s.tin_setTin_same i { s.tin i with settling := false, raw := raw }
  have hlevel : (s.setTin i { s.tin i with settling := false, raw := raw }).flag TDC_IN_STAT.LEVEL i =
    s.flag TDC_IN_STAT.LEVEL i := State.setTin_flag _ _ _ _ _
  have hfollow : s.tinFollow i raw = ((s.setTin i { s.tin i with settling := false, raw := raw }).when
      (raw != s.flag TDC_IN_STAT.LEVEL i) (·.tinLeave i)).tinTake i raw := rfl
  have hunset : (s.setTin i { s.tin i with settling := false, raw := raw }).flag TDC_IN_STAT.UNSETTLED i =
    s.flag TDC_IN_STAT.UNSETTLED i := State.setTin_flag _ _ _ _ _
  have hmem : (s.setTin i { s.tin i with settling := false, raw := raw }).mem = s.mem := rfl
  rw [hfollow]
  generalize s.setTin i { s.tin i with settling := false, raw := raw } = u at *
  by_cases h : s.flag TDC_IN_STAT.LEVEL i = raw
  · obtain ⟨htake, hl, hu, -⟩ := u.tinTake_level i raw
    rw [h, bne_self_eq_false, State.when_false, beq_self_eq_true, Bool.and_true, htake.tin, htin]
    exact ⟨rfl, rfl, hl, htake.mem.trans hmem, hu.trans hunset⟩
  · obtain ⟨hleave, -, hu, -⟩ := u.tinLeave_flags i
    obtain ⟨htake, hl, hu', -⟩ := (u.tinLeave i).tinTake_level i raw
    rw [bne_iff_ne.mpr (Ne.symm h), State.when_true, beq_eq_false_iff_ne.mpr h, Bool.and_false, htake.tin, hleave.tin, htin]
    exact ⟨rfl, rfl, hl, htake.mem.trans (hleave.mem.trans hmem), hu'.trans hu⟩

/-- The settle interval ends inside the band: INBAND, an event, and the level as it was (R63). -/
theorem State.settledInBand (s : State) (i : Nat) (t : Tin) :
    let u := (((s.setTin i t).setFlag TDC_IN_STAT.UNSETTLED i false).setFlag TDC_IN_STAT.INBAND i true).raise
      Ev.TIN_INBAND i []
    u.flag TDC_IN_STAT.INBAND i = true ∧ u.flag TDC_IN_STAT.UNSETTLED i = false ∧
    u.flag TDC_IN_STAT.LEVEL i = s.flag TDC_IN_STAT.LEVEL i ∧ u.evq.count = s.evq.count + 1 ∧ u.mem = s.mem := by
  have hraise : ∀ (v : State) (f : Fld), f.reg = .TDC_IN_STAT →
      (v.raise Ev.TIN_INBAND i []).flag f i = v.flag f i := fun v f hf =>
    State.flag_of_reg (v.raise_reg _ _ _ _ _ fun e =>
      absurd (hf.symm.trans (congrArg Prod.fst e)) (show Reg.TDC_IN_STAT ≠ .EVQ_DROPPED by decide))
  intro u
  refine ⟨?_, ?_, ?_, ?_, ?_⟩
  · rw [hraise _ _ rfl, State.flag_setFlag_same _ _ _ _ (by decide) (by decide)]
  · rw [hraise _ _ rfl, State.flag_setFlag_tinStat _ _ TDC_IN_STAT.UNSETTLED _ _ (by decide) (by decide) (by decide),
      State.flag_setFlag_same _ _ _ _ (by decide) (by decide)]
  · rw [hraise _ _ rfl, State.flag_setFlag_tinStat _ _ TDC_IN_STAT.LEVEL _ _ (by decide) (by decide) (by decide),
      State.flag_setFlag_tinStat _ _ TDC_IN_STAT.LEVEL _ _ (by decide) (by decide) (by decide), State.setTin_flag]
  · rw [State.raise_count, State.setFlag_evq, State.setFlag_evq, State.setTin_evq]
  · rw [State.raise_mem, State.setFlag_mem, State.setFlag_mem, State.setTin_mem]

/-! ## The obligation -/

/-- Settles O23: each clause by the rule of its command for the inner inputs, for an input that settles, and for a settled
one. -/
theorem timingInputEdges : Obligations.TimingInputEdges := by
  refine ⟨State.exec_tinEdge_marker, State.exec_tinEdge_refin, State.exec_tinEdge_settling, State.exec_tinEdge_combiner,
    fun s n inBand raw => ⟨fun hset hearly => ?_, fun hset hdue => ?_, fun hset hearly => ?_, fun hset hdone => ?_,
      fun hset hunset hdue hin => ?_, fun hset hunset hdue hout => ?_⟩, fun s i v => ⟨s.tinTake_same i v, s.tinTake_ne i v⟩⟩
  · rw [s.exec_tinSettleEnd_change n inBand raw hset, if_pos hearly]
  · refine ⟨_, (s.exec_tinSettleEnd_change n inBand raw hset).trans (congrArg Host.Outcome.next (if_neg ?_)),
      s.tinFollow_level n raw⟩
    exact Nat.not_lt.mpr hdue
  · rw [s.exec_tinSettleEnd_start n inBand raw hset, decide_eq_true hearly, Bool.or_true, if_pos rfl]
  · rw [s.exec_tinSettleEnd_start n inBand raw hset, hdone, Bool.not_false, Bool.true_or, if_pos rfl]
  · refine ⟨_, ?_, s.settledInBand n { s.tin n with raw := raw }⟩
    rw [s.exec_tinSettleEnd_start n inBand raw hset, hunset, decide_eq_false (Nat.not_lt.mpr hdue), hin]
    rfl
  · rw [s.exec_tinSettleEnd_start n inBand raw hset, hunset, decide_eq_false (Nat.not_lt.mpr hdue), hout]
    rfl

end Sys2Proof.Machine
end

section
/-! PROOFS. What the clock unit shows, and that anchors and events leave it alone (R86, R91, R96, R121). -/

namespace Sys2Proof.Machine

/-! ## Fields of the clock registers -/

theorem State.flag_setFld_ne (s : State) (f g : Fld) (i j v : Nat) (h : f.lo ≤ f.hi) (h32 : f.hi < 32)
    (hd : (g.reg, j) ≠ (f.reg, i) ∨ g.hi < f.lo ∨ f.hi < g.lo) : (s.setFld f i v).flag g j = s.flag g j := by
  simp only [State.flag, State.fld_setFld_ne s f g i j v h h32 hd]

theorem State.flag_setFlag_ne (s : State) (f g : Fld) (i j : Nat) (b : Bool) (h : f.lo ≤ f.hi) (h32 : f.hi < 32)
    (hd : (g.reg, j) ≠ (f.reg, i) ∨ g.hi < f.lo ∨ f.hi < g.lo) : (s.setFlag f i b).flag g j = s.flag g j :=
  s.flag_setFld_ne f g i j _ h h32 hd

theorem State.fld_setFlag_ne (s : State) (f g : Fld) (i j : Nat) (b : Bool) (h : f.lo ≤ f.hi) (h32 : f.hi < 32)
    (hd : (g.reg, j) ≠ (f.reg, i) ∨ g.hi < f.lo ∨ f.hi < g.lo) : (s.setFlag f i b).fld g j = s.fld g j :=
  s.fld_setFld_ne f g i j _ h h32 hd

theorem State.raise_flag (s : State) (k : EventKind) (inst : Nat) (fs : List (Nat × Nat × Nat)) (f : Fld) (i : Nat)
    (h : (f.reg, i) ≠ (Reg.EVQ_DROPPED, 0)) : (s.raise k inst fs).flag f i = s.flag f i :=
  State.flag_of_reg (s.raise_reg k inst fs f.reg i h)

/-- A field that fills its register is the register. -/
theorem State.reg_setFld_word (s : State) (r : Reg) (i v : Nat) :
    (s.setFld ⟨r, 31, 0⟩ i v).reg r i = BitVec.ofNat 32 v := by
  have hn := (s.reg r i).isLt
  rw [State.setFld, State.reg_setReg_same, withBits_eq _ _ _ _ (Nat.zero_le 31)]
  apply BitVec.eq_of_toNat_eq
  simp only [BitVec.toNat_ofNat]
  omega

/-! ## The hidden state of Quartz and the tree state -/

@[simp] theorem State.setClk_clk (s : State) (f : ClkState → ClkState) : (s.setClk f).clk = f s.clk := rfl
@[simp] theorem State.setClk_reg (s : State) (f : ClkState → ClkState) (r : Reg) (i : Nat) :
    (s.setClk f).reg r i = s.reg r i := rfl
@[simp] theorem State.setClk_fld (s : State) (f : ClkState → ClkState) (g : Fld) (i : Nat) :
    (s.setClk f).fld g i = s.fld g i := rfl
@[simp] theorem State.setClk_flag (s : State) (f : ClkState → ClkState) (g : Fld) (i : Nat) :
    (s.setClk f).flag g i = s.flag g i := rfl
@[simp] theorem State.setClk_evq (s : State) (f : ClkState → ClkState) : (s.setClk f).evq = s.evq := rfl
@[simp] theorem State.setClk_dies (s : State) (f : ClkState → ClkState) : (s.setClk f).dies = s.dies := rfl

/-- Setting the tree state touches registers alone: CLK_STATUS, and EPO_TURN_STAT for a tracker that was LOCKED (R259). -/
theorem State.setTree_shape (s : State) (n : Nat) :
    s.setTree n = { s with regs := (s.setTree n).regs } := by
  unfold State.setTree State.when
  split <;> rfl

@[simp] theorem State.setTree_clk (s : State) (n : Nat) : (s.setTree n).clk = s.clk := by rw [s.setTree_shape n]

theorem State.setTree_reg (s : State) (n : Nat) (r : Reg) (i : Nat) (h : (r, i) ≠ (Reg.EPO_TURN_STAT, 0)) :
    (s.setTree n).reg r i = (s.setFld CLK_STATUS.TREE 0 n).reg r i :=
  State.when_keeps (State.reg · r i) _ _ _ fun t => t.reg_setFld_ne _ _ _ _ _ h

theorem State.setTree_fld (s : State) (n : Nat) (f : Fld) (i : Nat) (h : (f.reg, i) ≠ (Reg.EPO_TURN_STAT, 0)) :
    (s.setTree n).fld f i = (s.setFld CLK_STATUS.TREE 0 n).fld f i := State.fld_of_reg (s.setTree_reg n f.reg i h)

theorem State.setTree_flag (s : State) (n : Nat) (f : Fld) (i : Nat) (h : (f.reg, i) ≠ (Reg.EPO_TURN_STAT, 0)) :
    (s.setTree n).flag f i = (s.setFld CLK_STATUS.TREE 0 n).flag f i := State.flag_of_reg (s.setTree_reg n f.reg i h)

/-- The tree state is read back at the width of its field. -/
theorem State.tree_setTree (s : State) (n : Nat) : (s.setTree n).tree = n % 4 :=
  (s.setTree_fld n _ _ (by decide)).trans (s.fld_setFld_same CLK_STATUS.TREE 0 n (by decide) (by decide))

/-- A flag beside it leaves the tree state alone. -/
theorem State.tree_setFlag (s : State) (f : Fld) (i : Nat) (b : Bool) (h : f.lo ≤ f.hi) (h32 : f.hi < 32)
    (hd : (Reg.CLK_STATUS, 0) ≠ (f.reg, i) ∨ 7 < f.lo ∨ f.hi < 6) : (s.setFlag f i b).tree = s.tree :=
  s.fld_setFlag_ne f CLK_STATUS.TREE i 0 b h h32 hd

theorem State.tree_setFld (s : State) (f : Fld) (i v : Nat) (h : f.lo ≤ f.hi) (h32 : f.hi < 32)
    (hd : (Reg.CLK_STATUS, 0) ≠ (f.reg, i) ∨ 7 < f.lo ∨ f.hi < 6) : (s.setFld f i v).tree = s.tree :=
  s.fld_setFld_ne f CLK_STATUS.TREE i 0 v h h32 hd

/-! ## The clock view -/

/-- What the detectors, the relock sequence and the return work on, with memory and the device's state. -/
structure ClkView where
  clk : ClkState
  status : Word
  flags : Word
  bypass : Nat → Bool
  mem : Table Nat Byte
  dev : DevState

def State.clkView (s : State) : ClkView :=
  ⟨s.clk, s.reg .CLK_STATUS 0, s.reg .CLK_FLAGS 0, fun k => (s.die k).onBypass, s.mem, s.dev⟩

section
variable {s t : State} (h : t.clkView = s.clkView)
include h

theorem State.clkView_clk : t.clk = s.clk := congrArg ClkView.clk h

theorem State.clkView_status_fld (hi lo : Nat) :
    t.fld ⟨.CLK_STATUS, hi, lo⟩ 0 = s.fld ⟨.CLK_STATUS, hi, lo⟩ 0 :=
  State.fld_of_reg (congrArg ClkView.status h)

theorem State.clkView_tree : t.tree = s.tree := State.clkView_status_fld h 7 6

theorem State.clkView_status_flag (hi lo : Nat) :
    t.flag ⟨.CLK_STATUS, hi, lo⟩ 0 = s.flag ⟨.CLK_STATUS, hi, lo⟩ 0 :=
  State.flag_of_reg (congrArg ClkView.status h)

theorem State.clkView_flags_flag (hi lo : Nat) :
    t.flag ⟨.CLK_FLAGS, hi, lo⟩ 0 = s.flag ⟨.CLK_FLAGS, hi, lo⟩ 0 :=
  State.flag_of_reg (congrArg ClkView.flags h)

theorem State.clkView_bypass (k : Nat) : (t.die k).onBypass = (s.die k).onBypass :=
  congrFun (congrArg ClkView.bypass h) k

theorem State.clkView_mem : t.mem = s.mem := congrArg ClkView.mem h

theorem State.clkView_dev : t.dev = s.dev := congrArg ClkView.dev h

end

/-- Raising events leaves the clock as it is. -/
theorem Raised.clkView {s t : State} (h : Raised s t) : t.clkView = s.clkView := by
  have ⟨_, hreg, _⟩ := h
  unfold State.clkView
  rw [h.clk, h.mem, h.dev, hreg .CLK_STATUS 0 (by decide), hreg .CLK_FLAGS 0 (by decide)]
  simp only [State.die_of_dies h.dies]

theorem State.raise_clkView (s : State) (k : EventKind) (inst : Nat) (fs : List (Nat × Nat × Nat)) :
    (s.raise k inst fs).clkView = s.clkView := (s.raise_raised k inst fs).clkView

theorem State.setDie_clkView (s : State) (k : Nat) (d : Die) (h : d.onBypass = (s.die k).onBypass) :
    (s.setDie k d).clkView = s.clkView := by
  have hdies : (fun j => ((s.setDie k d).die j).onBypass) = fun j => (s.die j).onBypass := by
    funext j
    by_cases hj : j = k
    · rw [hj, State.die_setDie_same, h]
    · rw [State.die_setDie_ne _ _ _ _ hj]
  exact congrArg (fun b => ClkView.mk s.clk (s.reg .CLK_STATUS 0) (s.reg .CLK_FLAGS 0) b s.mem s.dev) hdies

/-- A field of another register leaves the clock as it is. -/
theorem State.setFld_clkView (s : State) (f : Fld) (i v : Nat) (h : (Reg.CLK_STATUS, 0) ≠ (f.reg, i))
    (h' : (Reg.CLK_FLAGS, 0) ≠ (f.reg, i)) : (s.setFld f i v).clkView = s.clkView := by
  unfold State.clkView
  rw [State.reg_setFld_ne _ _ _ _ _ _ h, State.reg_setFld_ne _ _ _ _ _ _ h']
  rfl

/-- An anchor is written to the log of its die (R119). -/
theorem State.anchorPred_clkView (s : State) (type k block : Nat) :
    (s.anchorPred type k block).clkView = s.clkView :=
  (State.stat_raised _ _ _).clkView.trans (s.setDie_clkView k _ rfl)

/-- A change of the clock state writes anchors: the clock is as the change itself makes it (R121). -/
theorem State.clockChange_clkView (s : State) (f : State → State) : (s.clockChange f).clkView = (f s).clkView := by
  refine State.each_keeps State.clkView (f s) 8 _ fun t k => ?_
  have hworst : ∀ w f, ((t.setDie k { t.die k with worst := w }).statIn false f).clkView = t.clkView :=
    fun _ _ => t.setDie_clkView k _ rfl
  dsimp only
  split
  · exact hworst _ _
  · split
    · exact hworst _ _
    · exact (State.anchorPred_clkView _ _ _ _).trans (hworst _ _)

/-- Gating the CKO outputs shows in CLK_CKO_STAT alone. -/
theorem State.gateCko_clkView (s : State) (gate : Bool) : (s.gateCko gate).clkView = s.clkView := by
  have hcko : ∀ (t : State) (f : Fld) (n v : Nat), f.reg = .CLK_CKO_STAT → (t.setFld f n v).clkView = t.clkView :=
    fun t f n v hf => t.setFld_clkView f n v (by rw [hf]; simp) (by rw [hf]; simp)
  refine State.each_keeps State.clkView s 4 _ fun t n => ?_
  split
  · rfl
  · exact (hcko _ _ _ _ rfl).trans (hcko _ _ _ _ rfl)

/-! ## Each die in turn -/

theorem State.each_succ (s : State) (n : Nat) (f : State → Nat → State) : s.each (n + 1) f = f (s.each n f) n := by
  rw [State.each, List.range_succ, List.foldl_append]
  rfl

/-- What each die is set to have, it has. -/
theorem State.die_each_setDie (p : Die → Prop) (f : State → Nat → Die) (hf : ∀ s k, p (f s k)) (s : State) (n k : Nat)
    (hk : k < n) : p ((s.each n fun s k => s.setDie k (f s k)).die k) := by
  induction n with
  | zero => omega
  | succ n ih =>
    rw [State.each_succ]
    by_cases h : k = n
    · rw [h, State.die_setDie_same]
      exact hf _ _
    · rw [State.die_setDie_ne _ _ _ _ h]
      exact ih (by omega)

end Sys2Proof.Machine
end

section
/-! PROOFS. The presence detector of REFIN and the entry into coasting (R71, R72, R91). -/

namespace Sys2Proof.Machine

/-! ## Qualification -/

/-- A qualification that is not due, or ends with a frequency out of tolerance, changes nothing (R71). -/
theorem State.exec_refQualifyEnd_rejected (s : State) (hz : Nat)
    (h : s.now < s.clk.qualAt + s.fld CLK_REF_CFG.QUAL 0 * 10 * msCycles ∨
      s.fld CLK_REF_CFG.TOL_PPM 0 * s.fld CLK_REF_NOM.NOM_HZ 0 <
        (if s.fld CLK_REF_NOM.NOM_HZ 0 ≤ hz then hz - s.fld CLK_REF_NOM.NOM_HZ 0 else s.fld CLK_REF_NOM.NOM_HZ 0 - hz) *
          1000000) : exec (.refQualifyEnd hz) s = .next s := by
  refine congrArg Host.Outcome.next (if_pos ?_)
  rcases h with hearly | hfar
  · rw [State.qualified, decide_eq_false (Nat.not_le.mpr hearly), Bool.not_false, Bool.or_true, Bool.true_or]
  · rw [decide_eq_true hfar, Bool.or_true]

/-- The nominal frequency lies in tolerance: the reference is PRESENT, and the return of a coasting tree begins (R71,
R92). -/
theorem State.exec_refQualifyEnd_nominal (s : State) (hz : Nat) (hst : s.fld CLK_STATUS.REF_STATE 0 = refQUALIFYING)
    (hhz : hz = s.fld CLK_REF_NOM.NOM_HZ 0) (hsrc : s.flag CLK_REF_CFG.SRC_SEL 0 = false) (htree : s.tree = treeCOASTING)
    (hdue : s.clk.qualAt + s.fld CLK_REF_CFG.QUAL 0 * 10 * msCycles ≤ s.now) :
    exec (.refQualifyEnd hz) s = .next
      (((({ s with clk := { s.clk with refHz := hz } } : State).setFld CLK_STATUS.REF_STATE 0 refPRESENT).raise
        Ev.REF_QUALIFIED 0 [(0, 4, hz)]).setClk (fun c => { c with ret := some .measuring })) := by
  refine congrArg Host.Outcome.next ((if_neg ?_).trans ?_)
  · rw [hst, State.qualified, decide_eq_true hdue, if_pos (Nat.le_of_eq hhz.symm), hhz, Nat.sub_self, Nat.zero_mul]
    simp
  · extract_lets u v
    have hvsrc : v.flag CLK_REF_CFG.SRC_SEL 0 = false := by
      rw [State.raise_flag _ _ _ _ _ _ (by decide), State.setClk_flag,
        State.flag_setFld_ne _ _ _ _ _ _ (by decide) (by decide) (by decide), hsrc]
    have hvtree : v.tree = treeCOASTING := by
      rw [State.tree, State.raise_fld _ _ _ _ _ _ (by decide), State.setClk_fld,
        State.fld_setFld_ne _ _ _ _ _ _ (by decide) (by decide) (by decide)]
      exact htree
    rw [hvsrc, if_neg Bool.false_ne_true, if_pos hvtree]
    rfl

/-! ## Missing edges -/

theorem State.exec_refMissingEdge_qualifying (s : State) (w : Int) (h : s.fld CLK_STATUS.REF_STATE 0 = refQUALIFYING) :
    exec (.refMissingEdge w) s = .next (s.setFld CLK_STATUS.REF_STATE 0 refABSENT) := by
  refine congrArg Host.Outcome.next ((if_neg ?_).trans (if_pos ?_))
  · rw [h]
    decide
  · rw [h]
    rfl

/-- The relock sequence goes on only where it waits in step 7 (R86). -/
theorem State.relockDone_of_ne (s : State) (h : s.clk.relock ≠ 7) : s.relockDone = s :=
  if_neg (by rw [decide_eq_false h, Bool.false_and, Bool.false_and]; exact Bool.false_ne_true)

/-- The tree takes its coasting word and is locked no more (R91). -/
theorem State.coast_clkView (s : State) (w : Int) (h : s.clk.relock ≠ 7) : (s.coast w).clkView =
    ((((s.setClk (fun c => { c with coastPpb := some w, ret := none, goodGates := 0 })).setTree treeCOASTING).setFlag
      CLK_STATUS.SYN_LOCK 0 false).setFlag CLK_STATUS.TILE_LOCK 0 false).clkView := by
  refine Eq.trans (congrArg State.clkView (State.relockDone_of_ne _ ?_))
    ((State.raise_clkView _ _ _ _).trans (s.clockChange_clkView _))
  rw [State.raise_clk, State.clkView_clk (s.clockChange_clkView _), State.setFlag_clk, State.setFlag_clk, State.setTree_clk]
  exact h

/-- What coasting shows (R91). -/
theorem State.coast_shows (s : State) (w : Int) (h : s.clk.relock ≠ 7) :
    (s.coast w).tree = treeCOASTING ∧ (s.coast w).synLock = false ∧ (s.coast w).flag CLK_STATUS.TILE_LOCK 0 = false ∧
    (s.coast w).fld CLK_STATUS.REF_STATE 0 = s.fld CLK_STATUS.REF_STATE 0 ∧
    (s.coast w).flag CLK_FLAGS.REF_LOST_SEEN 0 = s.flag CLK_FLAGS.REF_LOST_SEEN 0 ∧
    (s.coast w).clk.coastPpb = some w ∧ (s.coast w).mem = s.mem := by
  have hview := s.coast_clkView w h
  refine ⟨(State.clkView_tree hview).trans ?_, (State.clkView_status_flag hview 9 9).trans ?_,
    (State.clkView_status_flag hview 10 10).trans ?_, (State.clkView_status_fld hview 5 4).trans ?_,
    (State.clkView_flags_flag hview 0 0).trans ?_, ?_, ?_⟩
  · simp (disch := decide) only [State.tree_setFlag, State.tree_setTree]
    rfl
  · simp (disch := decide) only [State.flag_setFlag_ne, State.flag_setFlag_same]
  · simp (disch := decide) only [State.flag_setFlag_same]
  · simp (disch := decide) only [State.fld_setFlag_ne, State.setTree_fld, State.fld_setFld_ne, State.setClk_fld]
  · simp (disch := decide) only [State.flag_setFlag_ne, State.setTree_flag, State.flag_setFld_ne, State.setClk_flag]
  · rw [State.clkView_clk hview, State.setFlag_clk, State.setFlag_clk, State.setTree_clk]
    rfl
  · rw [State.clkView_mem hview, State.setFlag_mem, State.setFlag_mem, State.setTree_shape]
    rfl

/-- A locked tree that loses the reference it follows coasts on the word given (R72, R91). -/
theorem State.exec_refMissingEdge_locked (s : State) (w : Int) (hst : s.fld CLK_STATUS.REF_STATE 0 = refPRESENT)
    (hsrc : s.flag CLK_REF_CFG.SRC_SEL 0 = false) (hret : s.clk.ret = none) (hlock : s.synLock = true)
    (hrelock : s.clk.relock = 0) :
    exec (.refMissingEdge w) s = .next (((s.setFld CLK_STATUS.REF_STATE 0 refABSENT).refLost 0).coast w) := by
  have hclk : ((s.setFld CLK_STATUS.REF_STATE 0 refABSENT).refLost 0).clk = s.clk := by
    rw [State.refLost, State.raise_clk, State.setFlag_clk, State.setFld_clk]
  have hcfg : ((s.setFld CLK_STATUS.REF_STATE 0 refABSENT).refLost 0).flag CLK_REF_CFG.SRC_SEL 0 = false := by
    simp (disch := decide) only [State.refLost, State.raise_flag, State.flag_setFlag_ne, State.flag_setFld_ne, hsrc]
  have hsyn : ((s.setFld CLK_STATUS.REF_STATE 0 refABSENT).refLost 0).synLock = true := by
    simp (disch := decide) only [State.synLock, State.refLost, State.raise_flag, State.flag_setFlag_ne,
      State.flag_setFld_ne]
    exact hlock
  refine congrArg Host.Outcome.next ((if_neg (by rw [hst]; decide)).trans ((if_neg (by rw [hst]; decide)).trans ?_))
  dsimp only
  rw [hcfg, if_neg Bool.false_ne_true, State.sourceLost, hclk, hret, hsyn, hrelock]
  rfl

/-! ## The obligation -/

/-- Settles O16: each clause by the rule of its event. -/
theorem referenceDetector : Obligations.ReferenceDetector := by
  refine ⟨fun _ => rfl, fun s hz hearly => s.exec_refQualifyEnd_rejected hz (.inl hearly),
    fun s hz hst hhz hsrc htree hdue => ⟨_, s.exec_refQualifyEnd_nominal hz hst hhz hsrc htree hdue, rfl⟩,
    fun s hz hfar => s.exec_refQualifyEnd_rejected hz (.inr ?_), State.exec_refMissingEdge_qualifying,
    fun s w hst hsrc hret hlock hrelock => ?_⟩
  · have hover : s.fld CLK_REF_NOM.NOM_HZ 0 ≤ hz := by omega
    rw [if_pos hover]
    exact hfar
  · have hstep : ((s.setFld CLK_STATUS.REF_STATE 0 refABSENT).refLost 0).clk.relock ≠ 7 := by
      rw [State.refLost, State.raise_clk, State.setFlag_clk, State.setFld_clk, hrelock]
      decide
    obtain ⟨htree, hsyn, htile, href, hseen, hword, hmem⟩ := State.coast_shows _ w hstep
    refine ⟨_, s.exec_refMissingEdge_locked w hst hsrc hret hlock hrelock, rfl, htree, hsyn, htile, href.trans ?_,
      hseen.trans ?_, hword, hmem.trans ?_⟩
    · simp (disch := decide) only [State.refLost, State.raise_fld, State.fld_setFlag_ne, State.fld_setFld_same]
      rfl
    · simp (disch := decide) only [State.refLost, State.raise_flag, State.flag_setFlag_same]
    · rw [State.refLost, State.raise_mem, State.setFlag_mem, State.setFld_mem]

end Sys2Proof.Machine
end

section
/-! PROOFS. The lock detectors and the relock sequence (R74, R75, R86, R89, R97). -/

namespace Sys2Proof.Machine

/-! ## The relock sequence -/

/-- The sequence starts: the dies are on bypass, nothing is locked, and step 4 runs (R86). -/
theorem State.startRelock_shows (s : State) :
    s.startRelock.synLock = false ∧ s.startRelock.tree = treeRELOCKING ∧ s.startRelock.clk.relock = 4 ∧
    (∀ k, k < 8 → (s.startRelock.die k).onBypass = true) ∧
    s.startRelock.flag CLK_FLAGS.SYN_UNLOCK_SEEN 0 = s.flag CLK_FLAGS.SYN_UNLOCK_SEEN 0 := by
  unfold State.startRelock
  extract_lets old s1 s2 s3 s4 s5 s6
  have hanchors : (s6.raise Ev.BYPASS_ENTER 0 [(0, 1, 255)]).clkView = s5.clkView := by
    refine (s6.raise_clkView _ _ _).trans (State.each_keeps State.clkView s5 8 _ fun t k => ?_)
    dsimp only
    split
    · exact t.anchorPred_clkView _ _ _
    · rfl
  have hbypass : ∀ k, k < 8 → (s5.die k).onBypass = true :=
    fun k => State.die_each_setDie (fun d => d.onBypass = true) _ (fun _ _ => rfl) s4 8 k
  have hclk : s5.clk = s4.clk := State.each_keeps State.clk s4 8 _ fun _ _ => rfl
  have hreg : ∀ r, s5.reg r 0 = s4.reg r 0 := fun r => State.each_keeps (State.reg · r 0) s4 8 _ fun _ _ => rfl
  have hgate : s4.clkView = (s3.setFlag CLK_FLAGS.BYP_SEEN 0 true).clkView := State.gateCko_clkView _ _
  clear_value s6 s5 s4
  refine ⟨?_, ?_, ?_, fun k hk => (State.clkView_bypass hanchors k).trans (hbypass k hk), ?_⟩
  · refine (State.clkView_status_flag hanchors 9 9).trans ((State.flag_of_reg (hreg _)).trans
      ((State.clkView_status_flag hgate 9 9).trans ?_))
    simp (disch := decide) only [s3, s2, State.flag_setFlag_ne, State.flag_setFld_ne, State.flag_setFlag_same]
  · refine (State.clkView_tree hanchors).trans ((State.fld_of_reg (hreg _)).trans ((State.clkView_tree hgate).trans ?_))
    simp (disch := decide) only [s3, s2, State.tree_setFlag, State.tree_setFld, State.tree_setTree]
    rfl
  · rw [State.clkView_clk hanchors, hclk, State.clkView_clk hgate]
    simp only [s3, s2, s1, State.setFlag_clk, State.setFld_clk, State.setTree_clk, State.setClk_clk]
  · refine (State.clkView_flags_flag hanchors 1 1).trans ((State.flag_of_reg (hreg _)).trans
      ((State.clkView_flags_flag hgate 1 1).trans ?_))
    simp (disch := decide) only [s3, s2, s1, State.flag_setFlag_ne, State.flag_setFld_ne, State.setTree_flag,
      State.setClk_flag]

/-- The sequence restarts at step 4 with one more attempt; no flag of the clock is set (R86, R89). -/
theorem State.restartRelock_shows (s : State) :
    s.restartRelock.clk.relock = 4 ∧ s.restartRelock.clk.attempts = s.clk.attempts + 1 ∧
    s.restartRelock.tree = treeRELOCKING ∧
    s.restartRelock.flag CLK_FLAGS.SYN_UNLOCK_SEEN 0 = s.flag CLK_FLAGS.SYN_UNLOCK_SEEN 0 := by
  unfold State.restartRelock State.dropReturn
  refine ⟨?_, ?_, State.tree_setTree _ _, ?_⟩
  · simp only [State.setTree_clk, State.setFlag_clk, State.setClk_clk]
  · simp only [State.setTree_clk, State.setFlag_clk, State.setClk_clk]
  · simp (disch := decide) only [State.setTree_flag, State.flag_setFld_ne, State.flag_setFlag_ne, State.setClk_flag]

/-- A cause of a relock sets no flag of an unlocked synthesiser (R86). -/
theorem State.relockCause_seen (s : State) :
    s.relockCause.flag CLK_FLAGS.SYN_UNLOCK_SEEN 0 = s.flag CLK_FLAGS.SYN_UNLOCK_SEEN 0 := by
  obtain ⟨-, -, -, -, hstart⟩ := s.startRelock_shows
  obtain ⟨-, -, -, hrestart⟩ := s.restartRelock_shows
  unfold State.relockCause
  split
  · exact hstart
  · split
    · exact hrestart
    · rfl

/-- The clock as the last condition of the sequence leaves it, its dies still to follow (R86). -/
def State.relocked (s : State) : State :=
  (s.setClk (fun c => { c with relock := 0, everLocked := true, failSince := none })).setTree treeLOCKED

section
variable {s : State} (hstep : s.clk.relock = 7) (hsyn : s.synLock = true) (htile : s.flag CLK_STATUS.TILE_LOCK 0 = true)
  (hjc : s.fld CLK_STATUS.JC_LOCK 0 = 255)
include hstep hsyn htile hjc

theorem State.relockDone_clkView : s.relockDone.clkView =
    (s.relocked.each 8 fun s k => s.setDie k { s.die k with onBypass := false }).clkView := by
  refine (congrArg State.clkView (if_pos ?_)).trans ((State.raise_clkView _ _ _ _).trans
    ((State.gateCko_clkView _ _).trans ((State.clockChange_clkView _ _).trans ?_)))
  · rw [hstep, hsyn, htile, hjc]
    rfl
  · simp only [hsyn, htile, Bool.and_self, Bool.or_true, if_true, State.relocked]

/-- The last condition ends the sequence: the tree is locked and the dies leave bypass (R86). -/
theorem State.relockDone_shows : s.relockDone.tree = treeLOCKED ∧ s.relockDone.clk.relock = 0 ∧
    s.relockDone.clk.everLocked = true ∧ ∀ k : Fin 8, (s.relockDone.die k).onBypass = false := by
  have hview := State.relockDone_clkView hstep hsyn htile hjc
  have hclk : s.relockDone.clk = s.relocked.clk :=
    (State.clkView_clk hview).trans (State.each_keeps State.clk s.relocked 8 _ fun _ _ => rfl)
  have htree : s.relockDone.tree = s.relocked.tree :=
    (State.clkView_tree hview).trans (State.each_keeps State.tree s.relocked 8 _ fun _ _ => rfl)
  rw [State.relocked, State.setTree_clk, State.setClk_clk] at hclk
  refine ⟨htree.trans (State.tree_setTree _ _), congrArg ClkState.relock hclk, congrArg ClkState.everLocked hclk,
    fun k => (State.clkView_bypass hview k).trans ?_⟩
  exact State.die_each_setDie (fun d => d.onBypass = false) _ (fun _ _ => rfl) s.relocked 8 k k.isLt

end

/-! ## Gates and phase windows -/

/-- A gate at its expected count, clear of the ceilings, in step 6: the second in a row locks the synthesiser (R74). -/
theorem State.exec_lockGateEnd_good (s : State) (q hz tc : Nat) (hsyn : s.synLock = false) (hstep : s.clk.relock = 6)
    (hq : q * 2 ^ 32 * 1000000000 = s.gateExpected) (hceil : s.nearCeiling hz s.fSyn.1 s.fSyn.2 = false)
    (htile : s.nearCeiling tc 1600000000 1 = false) :
    let u := s.setFld CLK_FREQ_ERR.ERR 0 0
    exec (.lockGateEnd q hz tc false) s = .next (if s.clk.goodGates = 0 then u.setClk (fun c => { c with goodGates := 1 })
      else ((u.setClk (fun c => { c with goodGates := 0, relock := 7 })).setFlag CLK_STATUS.SYN_LOCK 0 true).relockDone) := by
  intro u
  show execLockGateEnd q hz tc false s = _
  unfold execLockGateEnd
  extract_lets want got diff err good ceil v follows w counted closing
  have hdiff : diff = 0 := by simp only [diff, got, want, hq, Int.sub_self]
  have herr : toU 32 err = 0 := by
    simp only [err, hdiff, Int.zero_mul, tdiv, Int.zero_tdiv]
    split <;> rfl
  have hgood : good = true := by simp [good, hdiff]
  have hclear : ceil = false := by simp only [ceil, hceil, htile, Bool.or_self]
  have hv : v = u := congrArg (s.setFld CLK_FREQ_ERR.ERR 0) herr
  have husyn : u.synLock = false :=
    (s.flag_setFld_ne CLK_FREQ_ERR.ERR CLK_STATUS.SYN_LOCK 0 0 0 (by decide) (by decide) (by decide)).trans hsyn
  have hw : w = u := by
    simp only [w, hclear, hv, Bool.and_false, Bool.false_and, State.when_false]
  have hcounted : counted = u.countGate true := by
    simp only [counted, hw, hgood, hclear, Bool.not_false, Bool.and_self]
  clear_value closing counted w follows v good ceil
  rw [hgood, hclear, hv, husyn, hw, hcounted, Bool.false_and, Bool.and_false, if_neg Bool.false_ne_true,
    if_neg Bool.false_ne_true, if_neg Bool.false_ne_true, if_pos (show u.clk.relock = 6 from hstep)]
  have hgates : (u.countGate true).clk.goodGates = min 2 (s.clk.goodGates + 1) := rfl
  by_cases hfirst : s.clk.goodGates = 0
  · have hone : u.countGate true = u.setClk (fun c => { c with goodGates := 1 }) := by
      simp only [State.countGate, State.setClk, State.setFld_clk, u, hfirst]
      rfl
    rw [if_pos (by omega), if_pos hfirst, hone]
  · rw [if_neg (by omega), if_neg hfirst]
    rfl

/-- A slip at a locked synthesiser unlocks it (R74). -/
theorem State.exec_lockGateEnd_slip (s : State) (q hz tc : Nat) (hsyn : s.synLock = true) :
    ∃ e, exec (.lockGateEnd q hz tc true) s = .next ((s.setFld CLK_FREQ_ERR.ERR 0 e).synUnlock true) := by
  refine ⟨_, congrArg Host.Outcome.next (if_pos ?_)⟩
  rw [Bool.not_true, Bool.and_false, Bool.not_false, Bool.and_true, State.synLock,
    State.flag_setFld_ne _ _ _ _ _ _ (by decide) (by decide) (by decide)]
  exact hsyn

/-- An unlocked synthesiser is seen, and in relock-free operation the sequence starts (R74, R86). -/
theorem State.synUnlock_shows (s : State) (slip : Bool) :
    (s.synUnlock slip).flag CLK_FLAGS.SYN_UNLOCK_SEEN 0 = true ∧ (s.clk.relock = 0 →
      (s.synUnlock slip).synLock = false ∧ (s.synUnlock slip).tree = treeRELOCKING ∧
      (s.synUnlock slip).clk.relock = 4 ∧ ∀ k : Fin 8, ((s.synUnlock slip).die k).onBypass = true) := by
  unfold State.synUnlock
  extract_lets u
  refine ⟨?_, fun hfree => ?_⟩
  · simp (disch := decide) only [State.relockCause_seen, State.raise_flag, u, State.flag_setFlag_same]
  · rw [State.relockCause, State.raise_clk, State.setFlag_clk, if_pos hfree]
    obtain ⟨hsyn, htree, hstep, hbypass, -⟩ := State.startRelock_shows
      (u.raise Ev.SYN_UNLOCK 0 [(0, 4, u.fld CLK_FREQ_ERR.ERR 0), (4, 1, b2n slip)])
    exact ⟨hsyn, htree, hstep, fun k => hbypass k k.isLt⟩

/-- The bypass PLL unlocks in BOOT: the lock is shown no more, and nothing is frozen (R97). -/
theorem State.exec_bypUnlock_boot (s : State) (hlock : s.flag CLK_STATUS.BYP_LOCK 0 = true) (hdev : s.dev = .boot) :
    ∃ t, exec .bypUnlock s = .next t ∧ t.flag CLK_STATUS.BYP_LOCK 0 = false ∧ t.mem = s.mem ∧ t.dev = s.dev := by
  have hexec : exec .bypUnlock s = .next s.bypUnlock := by
    refine congrArg Host.Outcome.next ?_
    unfold State.bypLost
    rw [hdev]
    extract_lets engine hit
    have hhit : hit = false := by
      show (s.flag CLK_STATUS.BYP_LOCK 0 && false && _) = false
      rw [Bool.and_false, Bool.false_and]
    rw [hhit, State.when_false]
  have hview : s.bypUnlock.clkView = (s.setFlag CLK_STATUS.BYP_LOCK 0 false).clkView := by
    unfold State.bypUnlock
    rw [if_pos hlock]
    exact (State.raise_clkView _ _ _ _).trans (s.clockChange_clkView _)
  exact ⟨_, hexec, (State.clkView_status_flag hview 11 11).trans (State.flag_setFlag_same _ _ _ _ (by decide) (by decide)),
    (State.clkView_mem hview).trans (s.setFlag_mem _ _ _), (State.clkView_dev hview).trans (s.setFlag_dev _ _ _)⟩

/-! ## Failure and retry -/

/-- Step 6 has not completed within 100 ms of step 4: the tree waits on bypass (R89). -/
theorem State.exec_relockFail_step6 (s : State) (hstep : s.clk.relock = 6) : exec .relockFail s = .next (
    if s.clk.step4At + 100 * msCycles ≤ s.now then
      (((s.dropReturn.setClk (fun c => { c with
        relock := relockWAIT, failAt := s.now, failSince := some (c.failSince.getD s.now) })).setTree treeBYPASS).setFlag
          CLK_STATUS.SYN_LOCK 0 false).raise Ev.RELOCK_FAIL 0 [(0, 2, s.clk.attempts)] else s) := by
  show execRelockFail s = _
  unfold execRelockFail
  refine congrArg Host.Outcome.next ?_
  by_cases hdue : s.clk.step4At + 100 * msCycles ≤ s.now
  · rw [if_pos hdue, if_neg (by simp [hstep, relockWAIT, hdue])]
    rfl
  · rw [if_neg hdue, if_pos (by simp; omega)]

/-- RELOCK_RETRY has its effect 1 s after RELOCK_FAIL (R89). -/
theorem State.exec_relockRetry_wait (s : State) (hstep : s.clk.relock = relockWAIT) :
    exec .relockRetry s = .next (if s.clk.failAt + sCycles ≤ s.now then s.restartRelock else s) := by
  refine congrArg Host.Outcome.next ?_
  rw [hstep]
  simp

/-! ## The obligation -/

/-- Settles O17: each clause by the rule of its event. -/
theorem lockAndRelock : Obligations.LockAndRelock := by
  refine ⟨State.exec_lockGateEnd_good, fun s q hz tc hsyn => ?_, fun s k hstep => congrArg Host.Outcome.next (if_pos ?_),
    fun s hstep hsyn htile hjc => State.relockDone_shows hstep hsyn htile hjc,
    fun s htile => congrArg Host.Outcome.next (if_pos htile), fun _ _ => rfl, State.exec_bypUnlock_boot, fun _ => rfl,
    State.exec_relockFail_step6, fun s hstep hearly => ?_, fun s hstep hdue => ⟨?_, ?_⟩⟩
  · obtain ⟨e, hexec⟩ := s.exec_lockGateEnd_slip q hz tc hsyn
    exact ⟨_, hexec, State.synUnlock_shows _ true⟩
  · exact bne_iff_ne.mpr hstep
  · rw [s.exec_relockRetry_wait hstep, if_neg (Nat.not_le.mpr hearly)]
  · rw [s.exec_relockRetry_wait hstep, if_pos hdue]
  · obtain ⟨hfour, hattempts, htree, -⟩ := s.restartRelock_shows
    exact ⟨hfour, hattempts, htree⟩

end Sys2Proof.Machine
end

section
/-! PROOFS. Offset slew, fine delays and the return of the reference (R79, R83, R92, R93). -/

namespace Sys2Proof.Machine

/-! ## Offsets -/

/-- OFFSET_WRITE refuses an offset too far from the target or beyond the ceiling (R83). -/
theorem State.exec_offsetWrite (s : State) (path : Path) (v : BitVec 32) : exec (.offsetWrite path v) s = .next (State.wrote (
    if 50000 < (toS 32 v.toNat - toS 32 (s.reg .CLK_SYN_OFFSET 0).toNat).natAbs ∨
        s.fld CLK_CEIL.CEIL_PPM 0 * 1000 < (toS 32 v.toNat).natAbs then s.setFlag CLK_FLAGS.OFFSET_REFUSED 0 true
    else (s.setReg .CLK_SYN_OFFSET 0 v).setClk (fun c => { c with offsetWaits := true })) path .CLK_SYN_OFFSET 0) := by
  refine congrArg (fun t => Host.Outcome.next (State.wrote t path .CLK_SYN_OFFSET 0)) ?_
  unfold State.offsetWrite
  simp only [Bool.or_eq_true, decide_eq_true_eq, BitVec.ofNat_toNat, BitVec.setWidth_eq]

/-- The slew ends when the offset in force has reached its target (R83). -/
theorem State.exec_offsetSlewDone (s : State) (t0 : Nat) (h : s.clk.slewAt = some t0) :
    exec .offsetSlewDone s = .next (if s.offsetNow = s.clk.slewTo then
      (s.setClk (fun c => { c with offset := c.slewTo, slewAt := none })).setFlag CLK_STATUS.SLEWING 0
        (s.clk.ret == some .slew) else s) := by
  refine congrArg Host.Outcome.next ?_
  simp only [h, Option.isSome_some, Bool.true_and, beq_iff_eq]

/-! ## Fine delays -/

/-- A written fine delay of an output is its target, and waits for the frame boundary (R79). -/
theorem State.exec_delayWrite_output (s : State) (path : Path) (n : Fin 4) (v : BitVec 32) :
    ∃ t, exec (.delayWrite path ⟨8 + n, by omega⟩ v) s = .next t ∧
      t.fld CLK_CKO_DLY.FINE n = v.toNat % 1024 ∧ (8 + n.val) ∈ t.clk.delayWaits ∧
      ∀ r i, (r, i) ≠ (Reg.CLK_CKO_DLY, n.val) → t.reg r i = s.reg r i := by
  have hn : 8 + n.val - 8 = n.val := Nat.add_sub_cancel_left 8 n.val
  have hdelay : s.delayWrite (8 + n.val) (v.toNat % 1024) =
      (s.setFld CLK_CKO_DLY.FINE n (v.toNat % 1024)).setClk (fun c =>
        { c with delayWaits := (8 + n.val) :: c.delayWaits.filter (· != 8 + n.val) }) := by
    unfold State.delayWrite
    rw [if_neg (by omega), hn]
  refine ⟨(s.delayWrite (8 + n.val) (v.toNat % 1024)).wrote path .CLK_CKO_DLY n, ?_, ?_, ?_, fun r i h => ?_⟩
  · show execDelayWrite path _ v s = _
    unfold execDelayWrite
    dsimp only
    rw [decide_eq_false (by omega), State.when_false, if_neg (by omega), if_neg (by omega), hn]
  · rw [hdelay, State.wrote, State.emit_fld, State.setClk_fld, State.fld_setFld_same _ _ _ _ (by decide) (by decide)]
    exact Nat.mod_mod _ _
  · rw [hdelay, State.wrote, State.emit_clk, State.setClk_clk]
    exact List.mem_cons_self
  · rw [hdelay, State.wrote, State.emit_reg, State.setClk_reg, State.reg_setFld_ne _ _ _ _ _ _ h]

/-- No step is due (R79). -/
theorem State.exec_delayStep_early (s : State) (d : Fin 12) (h : s.stepDue d = false) : exec (.delayStep d) s = .next s :=
  congrArg Host.Outcome.next (if_pos (by rw [h, Bool.not_false, Bool.or_true]))

section
variable {s : State} {n : Fin 4} (hmoving : (8 + n.val) ∈ s.clk.moving) (hdue : s.stepDue (8 + n.val) = true)
include hmoving hdue

/-- A due step of an output's fine delay below its target: one up, and the step that arrives ends the move (R79). -/
theorem State.exec_delayStep_up (hup : Table.getD s.clk.delay (8 + n.val) 0 < Table.getD s.clk.delayTo (8 + n.val) 0) :
    let u := s.setClk (fun c => { c with
      delay := Table.set 0 c.delay (8 + n.val) (Table.getD s.clk.delay (8 + n.val) 0 + 1)
      stepAt := Table.set 0 c.stepAt (8 + n.val) s.now })
    exec (.delayStep ⟨8 + n, by omega⟩) s = .next (
      if Table.getD s.clk.delay (8 + n.val) 0 + 1 = Table.getD s.clk.delayTo (8 + n.val) 0 then
        (u.setClk (fun c => { c with moving := c.moving.filter (· != 8 + n.val) })).setFlag CLK_CKO_STAT.SLEWING n false
      else u) := by
  intro u
  have hin : s.clk.moving.contains (8 + n.val) = true := List.contains_iff_mem.mpr hmoving
  have hn : 8 + n.val - 8 = n.val := Nat.add_sub_cancel_left 8 n.val
  show execDelayStep _ s = _
  unfold execDelayStep
  dsimp only
  rw [hin, hdue, Bool.not_true, Bool.or_self, if_neg Bool.false_ne_true, if_pos hup, if_pos (Nat.le_add_right 8 n.val), hn]
  by_cases h : Table.getD s.clk.delay (8 + n.val) 0 + 1 = Table.getD s.clk.delayTo (8 + n.val) 0
  · rw [if_pos h, if_neg (by rw [h, bne_self_eq_false]; exact Bool.false_ne_true)]
  · rw [if_neg h, if_pos (bne_iff_ne.mpr h)]

end

/-! ## The return of the reference -/

/-- A number in two's complement as a word. -/
theorem ofNat_toU (w : Nat) (i : Int) : BitVec.ofNat w (toU w i) = BitVec.ofInt w i := by
  have hlt : i % (2 ^ w : Nat) < (2 ^ w : Nat) := Int.emod_lt_of_pos _ (by exact_mod_cast Nat.two_pow_pos w)
  have hlt' : toU w i < 2 ^ w := by
    unfold toU
    omega
  apply BitVec.eq_of_toNat_eq
  rw [BitVec.toNat_ofNat, Nat.mod_eq_of_lt hlt', BitVec.toNat_ofInt]
  rfl

/-- A jump that no time source resolves: every die is flagged AMBIG (R123). -/
def State.ambigJump (s : State) (jumpPs : Int) : State :=
  ((s.each 8 fun s k => s.setDie k { s.die k with ambig := true }).setClk (fun c => { c with periods := 0 })).raise
    Ev.AMBIG_JUMP 0 [(0, 4, toU 32 jumpPs)]

theorem State.ambigJump_shows (s : State) (j : Int) :
    (s.ambigJump j).clk = { s.clk with periods := 0 } ∧ (s.ambigJump j).now = s.now ∧
    (s.ambigJump j).reg .CLK_JUMP 0 = s.reg .CLK_JUMP 0 ∧ (∀ k : Fin 8, ((s.ambigJump j).die k).ambig = true) ∧
    (s.ambigJump j).evq.count = s.evq.count + 1 := by
  have hdies := State.die_each_setDie (fun d => d.ambig = true) (fun s k => { s.die k with ambig := true })
    (fun _ _ => rfl) s 8
  have hkeeps : ∀ {β : Type} (g : State → β), (∀ t k d, g (State.setDie t k d) = g t) →
      g (s.each 8 fun s k => s.setDie k { s.die k with ambig := true }) = g s :=
    fun g hg => State.each_keeps g s 8 _ fun t k => hg t k _
  unfold State.ambigJump
  generalize (s.each 8 fun s k => s.setDie k { s.die k with ambig := true }) = u at hdies hkeeps
  refine ⟨?_, ?_, ?_, fun k => ?_, ?_⟩
  · rw [State.raise_clk, State.setClk_clk, hkeeps State.clk fun _ _ _ => rfl]
  · exact (State.raise_now _ _ _ _).trans (hkeeps State.now fun _ _ _ => rfl)
  · exact (State.raise_reg _ _ _ _ _ _ (by decide)).trans (hkeeps (State.reg · .CLK_JUMP 0) fun _ _ _ => rfl)
  · rw [State.die_of_dies ((State.raise_dies _ _ _ _).trans (u.setClk_dies _)), hdies k k.isLt]
  · rw [State.raise_count, State.setClk_evq, hkeeps State.evq fun _ _ _ => rfl]

/-- The jump of a return by slew without a time source (R92, R93, R123). -/
theorem State.exec_phaseJumpMeasured_slew (s : State) (j : Int) (predicted : Nat) (hret : s.clk.ret = some .measuring)
    (hslew : s.flag CLK_POLICY.RETURN 0 = false) (hsrc : s.fld TDC_TIME_CFG.TIME_SRC 0 = 0) :
    let u := (((s.setFld CLK_JUMP.JUMP_PS 0 (toU 32 j)).raise Ev.COAST_EXIT 0 [(0, 4, toU 32 j), (4, 1, 0)]).ambigJump j)
    exec (.phaseJumpMeasured j predicted) s = .next ((u.setClk (fun c =>
      { c with ret := some .slew, retStart := u.now, retAt := u.now, retMoved := 0 })).setFlag CLK_STATUS.SLEWING 0 true) := by
  intro u
  refine congrArg Host.Outcome.next ((if_neg (by rw [hret]; decide)).trans ?_)
  extract_lets v step w timed x
  have hstep : step = false := (s.flag_setFld_ne _ _ _ _ _ (by decide) (by decide) (by decide)).trans hslew
  have htimed : timed = false := by
    simp (disch := decide) only [timed, w, v, State.raise_fld, State.fld_setFld_ne, hsrc]
    rfl
  have hx : x = u := by
    simp only [x, htimed, Bool.false_eq_true, if_false, w, hstep]
    rfl
  rw [hstep, if_neg Bool.false_ne_true, hx]

theorem State.exec_phaseJumpMeasured_shows (s : State) (j : Int) (predicted : Nat) (hret : s.clk.ret = some .measuring)
    (hslew : s.flag CLK_POLICY.RETURN 0 = false) (hsrc : s.fld TDC_TIME_CFG.TIME_SRC 0 = 0) :
    ∃ t, exec (.phaseJumpMeasured j predicted) s = .next t ∧
    t.clk = { s.clk with ret := some .slew, retStart := s.now, retAt := s.now, retMoved := 0, periods := 0 } ∧
    t.flag CLK_STATUS.SLEWING 0 = true ∧ t.reg .CLK_JUMP 0 = BitVec.ofInt 32 j ∧
    (∀ k : Fin 8, (t.die k).ambig = true) ∧ t.evq.count = s.evq.count + 2 := by
  have hexec := s.exec_phaseJumpMeasured_slew j predicted hret hslew hsrc
  obtain ⟨hclk, hnow, hjump, hambig, hcount⟩ := State.ambigJump_shows
    ((s.setFld CLK_JUMP.JUMP_PS 0 (toU 32 j)).raise Ev.COAST_EXIT 0 [(0, 4, toU 32 j), (4, 1, 0)]) j
  rw [State.raise_clk, State.setFld_clk] at hclk
  rw [State.raise_now, State.setFld_now] at hnow
  rw [State.raise_reg _ _ _ _ _ _ (by decide), State.reg_setFld_word] at hjump
  rw [State.raise_count, State.setFld_evq] at hcount
  refine ⟨_, hexec, ?_, State.flag_setFlag_same _ _ _ _ (by decide) (by decide), ?_, fun k => ?_, ?_⟩
  · rw [State.setFlag_clk, State.setClk_clk, hclk, hnow]
  · rw [State.setFlag, State.reg_setFld_ne _ _ _ _ _ _ (by decide), State.setClk_reg, hjump]
    exact ofNat_toU 32 j
  · exact (congrArg Die.ambig (State.die_of_dies ((State.setFlag_dies _ _ _ _).trans (State.setClk_dies _ _)) k)).trans
      (hambig k)
  · rw [State.setFlag_evq, State.setClk_evq, hcount]

/-- The slew has reached LOCK_WIN: the loop closes (R93). -/
theorem State.exec_returnSlewInLockWin (s : State) (h : s.clk.ret = some .slew) :
    exec .returnSlewInLockWin s = .next (if s.slewReached then
      (s.setClk (fun c => { c with ret := some .closing, retStart := s.now - c.retStart, goodGates := 0 })).setFlag
        CLK_STATUS.SLEWING 0 s.clk.slewAt.isSome else s) := by
  refine congrArg Host.Outcome.next ?_
  rw [h]
  cases s.slewReached <;> rfl

/-! ## The obligation -/

/-- Settles O18: each clause by the rule of its command or event. -/
theorem offsetsDelaysAndReturn : Obligations.OffsetsDelaysAndReturn := by
  refine ⟨State.exec_offsetWrite, fun s t0 hslew hbefore => ?_, fun s t0 hslew hreached => ?_,
    State.exec_delayWrite_output, fun s d _ hearly => s.exec_delayStep_early d hearly,
    fun s n hmoving hdue hfar => ?_, fun s n hmoving hdue hlast => ?_, State.exec_phaseJumpMeasured_shows,
    fun s hret hfar => ?_, fun s hret hreached => ?_⟩
  · rw [s.exec_offsetSlewDone t0 hslew, if_neg hbefore]
  · refine ⟨_, (s.exec_offsetSlewDone t0 hslew).trans (congrArg Host.Outcome.next (if_pos hreached)), rfl, ?_, rfl, rfl⟩
    exact State.flag_setFlag_same _ _ _ _ (by decide) (by decide)
  · exact (State.exec_delayStep_up hmoving hdue (by omega)).trans (congrArg Host.Outcome.next (if_neg (by omega)))
  · refine ⟨_, (State.exec_delayStep_up hmoving hdue (by omega)).trans (congrArg Host.Outcome.next (if_pos hlast)), ?_, ?_,
      State.flag_setFlag_same _ _ _ _ (by decide) (by decide)⟩
    · rw [State.setFlag_clk, State.setClk_clk]
      exact fun h => absurd (List.mem_filter.mp h).2 (by rw [bne_self_eq_false]; exact Bool.false_ne_true)
    · rw [State.setFlag_clk, State.setClk_clk, State.setClk_clk]
      exact (Table.getD_set_same 0 s.clk.delay _ _).trans hlast
  · rw [s.exec_returnSlewInLockWin hret, hfar, if_neg Bool.false_ne_true]
  · rw [s.exec_returnSlewInLockWin hret, hreached, if_pos rfl]

end Sys2Proof.Machine
end

section
/-! PROOFS. A TCLK cycle of a device with nothing to do (R115, R117; log entry 1). -/

namespace Sys2Proof.Machine

/-- Nothing waits that a cycle would carry on: the hypotheses of `Obligations.IdleStepIsOneCycle` beside the command
queue. -/
structure State.Idle (s : State) : Prop where
  tiles : ∀ n, n < 68 → (s.tile n).out = [] ∧ (s.tile n).cands = [] ∧ (s.tile n).acks = [] ∧ (s.tile n).ladder = false
  sync : s.syncOctants = []
  tins : ∀ e ∈ s.tins, e.2.pendStop = none ∧ e.2.swap = false
  links : s.trg.links = []
  corr : s.cel.corrPend = []
  defs : ∀ e ∈ s.trg.defs, e.2.switched = false
  scans : ∀ d, d < 2 → (s.scan d).base.length < 2 ∧ ((s.scan d).live = false ∨ s.flag VID_CTRL.EN d = false)
  up : (s.die 0).down = false
  frames : (s.die 0).started = true → (s.die 0).count ≤ s.clk.frameCount

/-- An operation that leaves a state alone for every number below n leaves it alone for all of them. -/
theorem State.each_eq_self {s : State} {n : Nat} {f : State → Nat → State} (h : ∀ k, k < n → f s k = s) :
    s.each n f = s := by
  induction n with
  | zero => rfl
  | succ n ih => rw [State.each_succ, ih fun k hk => h k (by omega), h n (by omega)]

namespace State.Idle
variable {s : State} (h : s.Idle)
include h

/-- Time passing keeps a device idle. -/
theorem at_time (now : Nat) (time : TimeState) : ({ s with now := now, time := time } : State).Idle :=
  ⟨h.tiles, h.sync, h.tins, h.links, h.corr, h.defs, h.scans, h.up, h.frames⟩

theorem turnTick (s0 : State) : s0.turnTick s = s := by
  rw [State.turnTick, h.sync]

theorem stopTick : s.stopTick = s :=
  if_neg fun hany => by
    obtain ⟨e, he, hstop⟩ := List.any_eq_true.mp hany
    rw [(h.tins e he).1] at hstop
    exact absurd hstop Bool.false_ne_true

theorem corrTick : s.corrTick = s := if_pos (List.isEmpty_iff.mpr h.corr)

theorem swapTick : s.swapTick = s :=
  if_neg fun hany => by
    obtain ⟨e, he, hswap⟩ := List.any_eq_true.mp hany
    rw [(h.tins e he).2] at hswap
    exact absurd hswap Bool.false_ne_true

theorem linkTick : s.linkTick = s := if_pos (by rw [h.links]; rfl)

theorem switchedTick : s.switchedTick = s :=
  if_neg fun hany => by
    obtain ⟨e, he, hdef⟩ := List.any_eq_true.mp hany
    rw [h.defs e he, Bool.false_and] at hdef
    exact absurd hdef Bool.false_ne_true

/-- Die 0 is up and no block boundary waits to be passed. -/
theorem frameTick : s.frameTick = s :=
  if_neg fun hpass => by
    simp only [Bool.and_eq_true, Bool.or_eq_true, decide_eq_true_eq, h.up, Bool.false_eq_true, false_or] at hpass
    have hcount := h.frames hpass.1.1
    omega

theorem videoTick : s.videoTick = s := by
  unfold State.videoTick
  split
  · rfl
  · refine State.each_eq_self fun d hd => ?_
    obtain ⟨hbase, hoff⟩ := h.scans d hd
    have hfetch : (!(s.scan d).live || !s.flag VID_CTRL.EN d) = true := by
      obtain hoff | hoff := hoff <;> simp [hoff]
    rw [State.baseTick, if_pos hbase, State.fetchTick, if_pos hfetch]

theorem tileTick (n : Nat) (hn : n < 68) : s.tileTick n = s := by
  obtain ⟨hout, hcands, hacks, hladder⟩ := h.tiles n hn
  have hreload : s.tileReload n = s := by simp only [State.tileReload, hladder]
  simp only [State.tileTick, hreload, State.tileSend, hcands, hacks, hout, if_true]

/-- A cycle of an idle device is the time base's alone. -/
theorem tick : s.tick = ({ s with now := s.now + 1 } : State).timeTick := by
  have htime : ({ s with now := s.now + 1 } : State).timeTick.Idle := by
    unfold State.timeTick
    split
    · exact h.at_time _ _
    · exact h.at_time _ _
  rw [State.tick, htime.turnTick, htime.stopTick, htime.corrTick, htime.swapTick, htime.linkTick, htime.switchedTick,
    htime.frameTick, htime.videoTick, State.each_eq_self fun n hn => htime.tileTick n hn]

end State.Idle

/-- With no error left to slew out a cycle slews nothing (R117). -/
theorem State.slewPart_zero (s : State) (h : s.time.slewLeft = 0) : s.slewPart = 0 := by
  simp only [State.slewPart, clampI, h]
  split
  · omega
  · split
    · omega
    · rfl

/-- Settles O2: every part of the cycle but the time base's leaves an idle device alone. -/
theorem idleStepIsOneCycle : Obligations.IdleStepIsOneCycle := by
  intro s hqueue htiles hsync htins hlinks hcorr hdefs hscans hup hframes
  have hidle : s.Idle := ⟨htiles, hsync, htins, hlinks, hcorr, hdefs, hscans, hup, hframes⟩
  have hstep : step s = .next ({ s with now := s.now + 1 } : State).timeTick := by
    rw [← hidle.tick]
    unfold step
    rw [hqueue]
  refine ⟨fun hrun hslew => ?_, fun hstop => ?_⟩
  · have hpart : ({ s with now := s.now + 1 } : State).slewPart = 0 := State.slewPart_zero _ hslew
    rw [hstep, State.timeTick, if_pos hrun, hpart]
    simp only [Int.add_zero, Int.sub_zero, ← Int.natCast_add, Int.toNat_natCast]
  · rw [hstep, State.timeTick, if_neg (by rw [hstop]; exact Bool.false_ne_true)]

end Sys2Proof.Machine
end

section
/-! PROOFS. What disciplines device time, and the lock of the vernier loop (R104, R116, R117, R120, R121). -/

namespace Sys2Proof.Machine

/-! ## The source of device time -/

/-- Without a selected source its error says nothing (R116). -/
theorem State.exec_timeSrcError_none (s : State) (e : Int) (h : s.fld TDC_TIME_CFG.TIME_SRC 0 = 0) :
    exec (.timeSrcError e) s = .next s := congrArg Host.Outcome.next (if_pos h)

theorem State.exec_timeSrcError_some (s : State) (e : Int) (h : s.fld TDC_TIME_CFG.TIME_SRC 0 ≠ 0) :
    exec (.timeSrcError e) s = .next (s.discipline (fsToOt e)) := congrArg Host.Outcome.next (if_neg h)

/-- The source disciplines OT96: beside TIME_SRC_OK it sets what is to be slewed or stepped (R117). -/
theorem State.discipline_eq (s : State) (e : Int) : s.discipline e =
    { s.setFlag TDC_STATUS.TIME_SRC_OK 0 true with
      time :=
        if e.natAbs * 1000000 ≤ s.fld TDC_TIME_CFG.STEP_THR 0 * 2 ^ 80 then { s.time with slewLeft := -e, step := none }
        else { s.time with slewLeft := 0, step := some (-e) } } := by
  have hthr : (s.setFlag TDC_STATUS.TIME_SRC_OK 0 true).fld TDC_TIME_CFG.STEP_THR 0 = s.fld TDC_TIME_CFG.STEP_THR 0 :=
    s.fld_setFlag_ne _ _ 0 0 true (by decide) (by decide) (.inl (by decide))
  unfold State.discipline
  dsimp only
  rw [hthr]
  split <;> rfl

/-- A lost source leaves OT96 on its last rate word, and TIME_SRC_LOST says so once (R117). -/
theorem State.exec_timeSrcLost (s : State) : exec .timeSrcLost s = .next (if s.flag TDC_STATUS.TIME_SRC_OK 0 then
      (State.raise { s.setFlag TDC_STATUS.TIME_SRC_OK 0 false with
          time := { s.time with rate := ((s.time.rate : Int) + s.slewPart).toNat, slewLeft := 0 } }
        Ev.TIME_SRC_LOST 0 [(0, 1, s.fld TDC_TIME_CFG.TIME_SRC 0)])
    else s) := by
  have hsrc : (s.holdRate.setFlag TDC_STATUS.TIME_SRC_OK 0 false).fld TDC_TIME_CFG.TIME_SRC 0 =
      s.fld TDC_TIME_CFG.TIME_SRC 0 :=
    s.holdRate.fld_setFlag_ne _ _ 0 0 false (by decide) (by decide) (.inl (by decide))
  refine congrArg Host.Outcome.next ?_
  unfold State.timeSrcLost
  cases s.flag TDC_STATUS.TIME_SRC_OK 0 with
  | false => rfl
  | true =>
    dsimp only [Bool.not_true]
    rw [hsrc]
    rfl

/-! ## Markers of block boundaries -/

/-- An anchor stands before the others of its die and waits for its place in the log; memory and device time are as they
were (R119, R350). -/
theorem State.anchorP_shows (s : State) (type k block time p : Nat) (jump : Int) :
    ((s.anchorP type k block time p jump).die k).anchors = ⟨block, time, p⟩ :: (s.die k).anchors ∧
    (s.anchorP type k block time p jump).cel.anchors.length = s.cel.anchors.length + 1 ∧
    (s.anchorP type k block time p jump).mem = s.mem ∧ (s.anchorP type k block time p jump).time = s.time := by
  unfold State.anchorP
  extract_lets d residual flags bs t
  obtain ⟨e, h⟩ := ({ t with cel := { t.cel with anchors := t.cel.anchors ++ [bs] } } : State).stat_shape 0xD2 1
  rw [h]
  refine ⟨?_, List.length_append, rfl, rfl⟩
  exact congrArg Die.anchors (s.die_setDie_same k _)

/-- A marker within 10 ps of the interpolation, or of a die that has not started, is passed over (R121). -/
theorem State.exec_boundaryMarkerStamp_near (s : State) (k : Fin 8) (block ot : Nat)
    (h : (s.die k).started = false ∨ ((ot : Int) - s.sampleTime k (80 * block)).natAbs * 10 ^ 11 ≤ 2 ^ 80) :
    exec (.boundaryMarkerStamp k block ot) s = .next s := by
  refine congrArg Host.Outcome.next (if_pos ?_)
  simpa using h

/-- One that differs by more writes a RATE anchor with the stamp (R121). -/
theorem State.exec_boundaryMarkerStamp_far (s : State) (k : Fin 8) (block ot : Nat) (h : (s.die k).started = true)
    (hfar : 2 ^ 80 < ((ot : Int) - s.sampleTime k (80 * block)).natAbs * 10 ^ 11) :
    ∃ p, exec (.boundaryMarkerStamp k block ot) s = .next (s.anchorP anRATE k block ot p 0) := by
  have hstamp : ¬((!(s.die k).started || decide (((ot : Int) - s.sampleTime k (80 * block)).natAbs * 10 ^ 11 ≤ 2 ^ 80)) =
      true) := by
    simpa [h] using hfar
  show ∃ p, execBoundaryMarkerStamp k block ot s = _
  unfold execBoundaryMarkerStamp
  extract_lets
  rw [if_neg hstamp]
  split
  · exact ⟨_, rfl⟩
  · exact ⟨_, rfl⟩

/-! ## The obligation -/

/-- Settles O25: each clause by the rule of its command. -/
theorem deviceTimeDiscipline : Obligations.DeviceTimeDiscipline := by
  refine ⟨State.exec_timeSrcError_none, fun s e hsrc => ?_, State.exec_timeSrcLost, fun s k block ot => ⟨?_, ?_⟩,
    fun s => rfl, fun s => rfl⟩
  · have hexec := s.exec_timeSrcError_some e hsrc
    rw [State.discipline_eq] at hexec
    have hok := s.flag_setFlag_same TDC_STATUS.TIME_SRC_OK 0 true (by decide) (by decide)
    have hrest : ∀ r i, (r, i) ≠ (Reg.TDC_STATUS, 0) → (s.setFlag TDC_STATUS.TIME_SRC_OK 0 true).reg r i = s.reg r i :=
      fun r i h => s.reg_setFld_ne _ _ _ _ _ h
    by_cases hsmall : (fsToOt e).natAbs * 1000000 ≤ s.fld TDC_TIME_CFG.STEP_THR 0 * 2 ^ 80
    · rw [if_pos hsmall] at hexec
      exact ⟨_, hexec, hok, rfl, rfl, rfl, rfl, fun _ => ⟨rfl, rfl⟩, fun hlarge => absurd hsmall (Nat.not_le.mpr hlarge),
        hrest⟩
    · rw [if_neg hsmall] at hexec
      exact ⟨_, hexec, hok, rfl, rfl, rfl, rfl, fun h => absurd h hsmall, fun _ => ⟨rfl, rfl⟩, hrest⟩
  · exact s.exec_boundaryMarkerStamp_near k block ot
  · intro hstarted hfar
    obtain ⟨p, hexec⟩ := s.exec_boundaryMarkerStamp_far k block ot hstarted hfar
    obtain ⟨hdie, hlog, hmem, htime⟩ := s.anchorP_shows anRATE k block ot p 0
    exact ⟨_, _, hexec, (congrArg List.head? hdie).trans rfl, rfl, rfl, hlog, hmem, htime⟩

end Sys2Proof.Machine
end

section
/-! PROOFS. The calibration of the vernier converters and their exchange of roles (R105). -/

namespace Sys2Proof.Machine

/-! ## A host write that has completed -/

section
variable (s : State) (path : Path) (r : Reg) (i : Nat)

theorem State.wrote_flag (f : Fld) (j : Nat) : (s.wrote path r i).flag f j = s.flag f j := rfl
theorem State.wrote_reg (q : Reg) (j : Nat) : (s.wrote path r i).reg q j = s.reg q j := rfl
theorem State.wrote_tin (j : Nat) : (s.wrote path r i).tin j = s.tin j := rfl
theorem State.wrote_mem : (s.wrote path r i).mem = s.mem := rfl

end

/-! ## Every input in turn -/

/-- An operation on one input after another, each as its own state and the cycle tell, does so for each of them. -/
theorem State.tin_each {s : State} {f : State → Nat → State} (g : Tin → Tin)
    (hf : ∀ u i, u.now = s.now → (f u i).now = s.now ∧ (f u i).tin i = g (u.tin i) ∧ ∀ j, j ≠ i → (f u i).tin j = u.tin j)
    (n : Nat) : (s.each n f).now = s.now ∧ (∀ j, j < n → (s.each n f).tin j = g (s.tin j)) ∧
      ∀ j, n ≤ j → (s.each n f).tin j = s.tin j := by
  induction n with
  | zero => exact ⟨rfl, fun j hj => absurd hj (Nat.not_lt_zero j), fun _ _ => rfl⟩
  | succ n ih =>
    obtain ⟨hnow, hdone, hleft⟩ := ih
    obtain ⟨hnow', hown, hothers⟩ := hf (s.each n f) n hnow
    rw [State.each_succ]
    refine ⟨hnow', fun j hj => ?_, fun j hj => ?_⟩
    · by_cases hjn : j = n
      · rw [hjn, hown, hleft n (Nat.le_refl n)]
      · rw [hothers j hjn, hdone j (by omega)]
    · rw [hothers j (by omega), hleft j (by omega)]

/-- What differs in the inputs alone is the state before with the inputs after. -/
theorem State.eq_of_tins_aside {s t : State} (h : ({ t with tins := [] } : State) = { s with tins := [] }) :
    t = { s with tins := t.tins } := congrArg (fun u : State => { u with tins := t.tins }) h

/-! ## Calibrations begin -/

/-- The spare converter of input i begins, if the input calibrates none. -/
def State.calSpare (s : State) (i : Nat) : State :=
  if (s.tin i).calRuns = [] && !(s.tin i).swap then
    s.setTin i { s.tin i with calRuns := [b2n (!(s.tin i).conv)], calFrom := s.now }
  else s

/-- Both converters of input i begin, one after the other. -/
def State.calBoth (s : State) (i : Nat) : State :=
  s.setTin i { s.tin i with
    calRuns := [b2n (!(s.tin i).conv), b2n (s.tin i).conv], swap := false, calFrom := s.now }

theorem State.exec_tdcCalInterval (s : State) : exec .tdcCalInterval s = .next
    (if s.now < s.time.calAt + s.fld TDC_CAL.INTERVAL 0 * sCycles then s
    else ({ s with time := { s.time with calAt := s.now } } : State).each 16 State.calSpare) := rfl

theorem State.exec_tdcCalInterval_early (s : State) (h : s.now < s.time.calAt + s.fld TDC_CAL.INTERVAL 0 * sCycles) :
    exec .tdcCalInterval s = .next s := by
  rw [State.exec_tdcCalInterval, if_pos h]

theorem State.each_calSpare (s : State) : s.each 16 State.calSpare = { s with tins := (s.each 16 State.calSpare).tins } ∧
    ∀ j, j < 16 → (s.each 16 State.calSpare).tin j = (if (s.tin j).calRuns = [] ∧ (s.tin j).swap = false then
      { s.tin j with calRuns := [b2n (!(s.tin j).conv)], calFrom := s.now } else s.tin j) := by
  refine ⟨State.eq_of_tins_aside (State.each_keeps (fun u => { u with tins := [] }) s 16 _ fun u i => ?_),
    (State.tin_each (fun t => if t.calRuns = [] ∧ t.swap = false then
      { t with calRuns := [b2n (!t.conv)], calFrom := s.now } else t) (fun u i hu => ?_) 16).2.1⟩
  · unfold State.calSpare
    split <;> rfl
  · simp only [State.calSpare, Bool.and_eq_true, decide_eq_true_eq, Bool.not_eq_true']
    split
    · exact ⟨hu, (u.tin_setTin_same i _).trans (by rw [hu]), fun j hj => u.tin_setTin_ne i j _ hj⟩
    · exact ⟨hu, rfl, fun _ _ => rfl⟩

/-- The spare converter of every input that calibrates none begins; beside the inputs, the interval counts anew. -/
theorem State.exec_tdcCalInterval_due (s : State) (h : s.time.calAt + s.fld TDC_CAL.INTERVAL 0 * sCycles ≤ s.now) :
    ∃ t, exec .tdcCalInterval s = .next t ∧ t = { s with tins := t.tins, time := { s.time with calAt := s.now } } ∧
    ∀ j, j < 16 → t.tin j = (if (s.tin j).calRuns = [] ∧ (s.tin j).swap = false then
      { s.tin j with calRuns := [b2n (!(s.tin j).conv)], calFrom := s.now } else s.tin j) := by
  rw [State.exec_tdcCalInterval, if_neg (Nat.not_lt.mpr h)]
  exact ⟨_, rfl, State.each_calSpare _⟩

theorem State.each_calBoth (s : State) : (s.each 16 State.calBoth).regs = s.regs ∧ (s.each 16 State.calBoth).mem = s.mem ∧
    ∀ j, j < 16 → (s.each 16 State.calBoth).tin j = { s.tin j with
      calRuns := [b2n (!(s.tin j).conv), b2n (s.tin j).conv], swap := false, calFrom := s.now } := by
  refine ⟨State.each_keeps State.regs s 16 State.calBoth fun _ _ => rfl,
    State.each_keeps State.mem s 16 State.calBoth fun _ _ => rfl,
    (State.tin_each (fun t => { t with calRuns := [b2n (!t.conv), b2n t.conv], swap := false, calFrom := s.now })
      (fun u i hu => ?_) 16).2.1⟩
  exact ⟨hu, (u.tin_setTin_same i _).trans (by rw [hu]), fun j hj => u.tin_setTin_ne i j _ hj⟩

theorem State.exec_calNow_eq (s : State) (path : Path) : exec (.calNow path) s =
    .next (((s.setFlag TDC_CAL.CAL_NOW 0 true).each 16 State.calBoth).wrote path .TDC_CAL 0) := rfl

/-- CAL_NOW begins both converters of every input and reads 1; no other register changes. -/
theorem State.exec_calNow (s : State) (path : Path) : ∃ t, exec (.calNow path) s = .next t ∧
    t.flag TDC_CAL.CAL_NOW 0 = true ∧ t.mem = s.mem ∧
    (∀ j, j < 16 → t.tin j = { s.tin j with
      calRuns := [b2n (!(s.tin j).conv), b2n (s.tin j).conv], swap := false, calFrom := s.now }) ∧
    (∀ (r : Reg) (i : Nat), (r, i) ≠ (.TDC_CAL, 0) → t.reg r i = s.reg r i) := by
  obtain ⟨hregs, hmem, htins⟩ := State.each_calBoth (s.setFlag TDC_CAL.CAL_NOW 0 true)
  refine ⟨_, s.exec_calNow_eq path, ?_, ?_, fun j hj => ?_, fun r i h => ?_⟩
  · rw [State.wrote_flag, State.flag_of_reg (State.reg_of_regs hregs _ _)]
    exact s.flag_setFlag_same _ 0 true (by decide) (by decide)
  · rw [State.wrote_mem, hmem, State.setFlag_mem]
  · rw [State.wrote_tin, htins j hj, State.setFlag_now, State.tin_of_tins (s.setFlag_tins _ _ _)]
  · rw [State.wrote_reg, State.reg_of_regs hregs]
    exact s.reg_setFld_ne _ _ _ _ _ h

/-! ## A calibration ends -/

/-- An input whose converter `conv` has been calibrated with a worst deviation of d steps. -/
def Tin.calibrated (t : Tin) (conv : Bool) (d : Nat) : Tin :=
  { t with
    calRuns := t.calRuns.drop 1, swap := decide (d ≤ 2) || t.calRuns.drop 1 != []
    table0 := t.table0 || (decide (d ≤ 2) && !conv), table1 := t.table1 || (decide (d ≤ 2) && conv) }

/-- The input's state after it, at the cycle `now`: an idle input exchanges at once. -/
def Tin.calEnd (t : Tin) (conv : Bool) (d now : Nat) (idle : Bool) : Tin :=
  if idle then (t.calibrated conv d).exchange now else t.calibrated conv d

section
variable (t : Tin) (conv : Bool) (d now : Nat) (idle : Bool)

/-- An exchange changes who serves, and nothing of the runs and tables. -/
theorem Tin.calEnd_tables : (t.calEnd conv d now idle).calRuns = t.calRuns.drop 1 ∧
    (t.calEnd conv d now idle).table0 = (t.table0 || (decide (d ≤ 2) && !conv)) ∧
    (t.calEnd conv d now idle).table1 = (t.table1 || (decide (d ≤ 2) && conv)) := by
  unfold Tin.calEnd Tin.exchange
  split
  · split <;> exact ⟨rfl, rfl, rfl⟩
  · exact ⟨rfl, rfl, rfl⟩

theorem Tin.calEnd_idle (h : d ≤ 2) :
    (t.calEnd conv d now true).conv = !t.conv ∧ (t.calEnd conv d now true).swap = false := by
  simp [Tin.calEnd, Tin.calibrated, Tin.exchange, h]

theorem Tin.calEnd_busy (h : d ≤ 2) :
    (t.calEnd conv d now false).conv = t.conv ∧ (t.calEnd conv d now false).swap = true := by
  simp [Tin.calEnd, Tin.calibrated, h]

theorem Tin.calEnd_rejected (h : 2 < d) (hlast : t.calRuns.drop 1 = []) :
    (t.calEnd conv d now idle).conv = t.conv ∧ (t.calEnd conv d now idle).swap = false := by
  have hd : ¬d ≤ 2 := Nat.not_le.mpr h
  simp [Tin.calEnd, Tin.calibrated, Tin.exchange, hd, hlast]

end

/-- What a calibration of input i that ended shows: CAL_FAIL, CAL_DONE and CAL_NOW. -/
def State.calReport (s : State) (i d : Nat) : State :=
  let s := s.when (!decide (d ≤ 2)) (·.raise Ev.CAL_FAIL 0 [(0, 1, i), (1, 1, d)])
  let s := s.when ((List.range 16).all (fun j => (s.tin j).table0 && (s.tin j).table1))
    (·.setFlag TDC_STATUS.CAL_DONE 0 true)
  s.when ((List.range 16).all (fun j => (s.tin j).calRuns == [])) (·.setFlag TDC_CAL.CAL_NOW 0 false)

theorem State.exec_tdcCalDone (s : State) (n : Fin 16) (conv : Bool) (d : Nat) : exec (.tdcCalDone n conv d) s = .next
    (if (s.tin n).calRuns.head? != some (b2n conv) || (s.tin n).swap || decide (s.now < (s.tin n).calFrom + 2 ^ 24) then s
    else (s.setTin n ((s.tin n).calEnd conv d s.now (s.tinIdle n))).calReport n d) := rfl

theorem State.exec_tdcCalDone_none (s : State) (n : Fin 16) (conv : Bool) (d : Nat)
    (h : (s.tin n).calRuns.head? ≠ some (b2n conv) ∨ (s.tin n).swap = true ∨ s.now < (s.tin n).calFrom + 2 ^ 24) :
    exec (.tdcCalDone n conv d) s = .next s := by
  rw [State.exec_tdcCalDone, if_pos]
  simpa [or_assoc] using h

theorem State.exec_tdcCalDone_due (s : State) (n : Fin 16) (conv : Bool) (d : Nat)
    (hrun : (s.tin n).calRuns.head? = some (b2n conv)) (hswap : (s.tin n).swap = false)
    (hend : (s.tin n).calFrom + 2 ^ 24 ≤ s.now) : exec (.tdcCalDone n conv d) s =
      .next ((s.setTin n ((s.tin n).calEnd conv d s.now (s.tinIdle n))).calReport n d) := by
  rw [State.exec_tdcCalDone, if_neg]
  simpa [hrun, hswap] using hend

section
variable (s : State) (i d : Nat)

/-- What neither an event nor a flag changes. -/
theorem State.calReport_keeps {β : Type} (g : State → β) (hraise : ∀ u k inst fs, g (State.raise u k inst fs) = g u)
    (hflag : ∀ u f b, g (State.setFlag u f 0 b) = g u) : g (s.calReport i d) = g s := by
  unfold State.calReport
  rw [State.when_keeps g _ _ _ fun u => hflag u _ _, State.when_keeps g _ _ _ fun u => hflag u _ _,
    State.when_keeps g _ _ _ fun u => hraise u _ _ _]

theorem State.calReport_tins : (s.calReport i d).tins = s.tins :=
  s.calReport_keeps i d State.tins State.raise_tins fun _ _ _ => rfl

theorem State.calReport_mem : (s.calReport i d).mem = s.mem :=
  s.calReport_keeps i d State.mem State.raise_mem fun _ _ _ => rfl

/-- Only a rejected table is an event. -/
theorem State.calReport_evq : (s.calReport i d).evq =
    (s.when (!decide (d ≤ 2)) (·.raise Ev.CAL_FAIL 0 [(0, 1, i), (1, 1, d)])).evq := by
  unfold State.calReport
  rw [State.when_keeps State.evq _ _ (·.setFlag _ 0 _) fun _ => rfl,
    State.when_keeps State.evq _ _ (·.setFlag _ 0 _) fun _ => rfl]

theorem State.calReport_done (h : ∀ j, j < 16 → (s.tin j).table0 = true ∧ (s.tin j).table1 = true) :
    (s.calReport i d).flag TDC_STATUS.CAL_DONE 0 = true := by
  unfold State.calReport
  extract_lets u v
  have hu : u.tins = s.tins := State.when_keeps State.tins _ _ _ fun u => u.raise_tins _ _ _
  have hall : (List.range 16).all (fun j => (u.tin j).table0 && (u.tin j).table1) = true := by
    simpa only [List.all_eq_true, List.mem_range, Bool.and_eq_true, State.tin_of_tins hu] using h
  have hv : v = u.setFlag TDC_STATUS.CAL_DONE 0 true := (congrArg (u.when · _) hall).trans rfl
  refine (State.when_keeps (State.flag · TDC_STATUS.CAL_DONE 0) v _ _ fun w => ?_).trans ?_
  · exact w.flag_setFlag_ne _ _ 0 0 false (by decide) (by decide) (.inl (by decide))
  · exact (congrArg (State.flag · TDC_STATUS.CAL_DONE 0) hv).trans
      (u.flag_setFlag_same _ 0 true (by decide) (by decide))

theorem State.calReport_over (h : ∀ j, j < 16 → (s.tin j).calRuns = []) :
    (s.calReport i d).flag TDC_CAL.CAL_NOW 0 = false := by
  unfold State.calReport
  extract_lets u v
  have hu : u.tins = s.tins := State.when_keeps State.tins _ _ _ fun u => u.raise_tins _ _ _
  have hv : v.tins = u.tins := State.when_keeps State.tins u _ _ fun _ => rfl
  have hall : (List.range 16).all (fun j => (v.tin j).calRuns == []) = true := by
    simpa only [List.all_eq_true, List.mem_range, beq_iff_eq, State.tin_of_tins (hv.trans hu)] using h
  rw [hall, State.when_true]
  exact v.flag_setFlag_same _ 0 false (by decide) (by decide)

end

/-! ## The obligation -/

/-- Settles O26: each clause by the rule of its command. -/
theorem vernierCalibration : Obligations.VernierCalibration := by
  refine ⟨State.exec_tdcCalInterval_early, State.exec_tdcCalInterval_due, State.exec_calNow,
    State.exec_tdcCalDone_none, fun s n conv d hrun hswap hend => ?_⟩
  have hexec := s.exec_tdcCalDone_due n conv d hrun hswap hend
  generalize hu : s.setTin n ((s.tin n).calEnd conv d s.now (s.tinIdle n)) = u at hexec
  have hown : (u.calReport n d).tin n = (s.tin n).calEnd conv d s.now (s.tinIdle n) :=
    (State.tin_of_tins (u.calReport_tins n d) n).trans (by rw [← hu, State.tin_setTin_same])
  have hothers : ∀ j, j ≠ n.val → (u.calReport n d).tin j = s.tin j := fun j hj =>
    (State.tin_of_tins (u.calReport_tins n d) j).trans (by rw [← hu, State.tin_setTin_ne _ _ _ _ hj])
  have hevq : u.evq = s.evq := by rw [← hu, State.setTin_evq]
  have htins := State.tin_of_tins (u.calReport_tins n d)
  obtain ⟨hruns, htable0, htable1⟩ := (s.tin n).calEnd_tables conv d s.now (s.tinIdle n)
  refine ⟨_, hexec, (u.calReport_mem n d).trans (by rw [← hu, State.setTin_mem]), ?_, ?_, ?_, fun hd hidle => ?_,
    fun hd hbusy => ?_, fun hd hlast => ?_, hothers, fun hd => ?_, fun hd => ?_, fun h => ?_, fun h => ?_⟩
  · rw [hown, hruns]
  · rw [hown, htable0]
  · rw [hown, htable1]
  · rw [hown, hidle]
    exact (s.tin n).calEnd_idle conv d s.now hd
  · rw [hown, hbusy]
    exact (s.tin n).calEnd_busy conv d s.now hd
  · rw [hown]
    exact (s.tin n).calEnd_rejected conv d s.now _ hd hlast
  · rw [State.calReport_evq, decide_eq_true hd, Bool.not_true, State.when_false, hevq]
  · rw [State.calReport_evq, decide_eq_false (Nat.not_le.mpr hd), Bool.not_false, State.when_true, State.raise_count, hevq]
  · exact u.calReport_over n d fun j hj => (htins j) ▸ h j hj
  · exact u.calReport_done n d fun j hj => (htins j) ▸ h j hj

end Sys2Proof.Machine
end

section
/-! PROOFS. What only the epoch counter's own commands change: no event, anchor, count or switch point touches the
number of the epoch, its boundaries and its page (R124 to R129).  One lemma per operation, in the order of the model;
`simp` chains them.  It is told `-implicitDefEqProofs` throughout: a side condition of `State.when_core`, `State.over_core`
or `State.each_core` that it closes by a field's `rfl` lemma has to come with that lemma as its proof. -/

namespace Sys2Proof.Machine

/-! ## The core of the epoch counter -/

/-- The counter, the boundary announced and the last one, and the page: the rest are statistics, candidates and
acknowledgements. -/
def EpochState.core (e : EpochState) : EpochState :=
  { num := e.num, lastCycle := e.lastCycle, bounds := e.bounds, announced := e.announced, forced := e.forced
    writing := e.writing, page := e.page }

theorem EpochState.of_core {d e : EpochState} (h : d.core = e) : d.num = e.num ∧ d.lastCycle = e.lastCycle ∧
    d.bounds = e.bounds ∧ d.announced = e.announced ∧ d.forced = e.forced ∧ d.writing = e.writing ∧ d.page = e.page := by
  subst h
  exact ⟨rfl, rfl, rfl, rfl, rfl, rfl, rfl⟩

theorem EpochState.announced_of_core {d e : EpochState} (h : d.core = e) : d.announced = e.announced := by
  obtain ⟨-, -, -, hannounced, -⟩ := EpochState.of_core h
  exact hannounced

@[simp] theorem State.when_core {s : State} {c : Bool} {f : State → State} (h : ∀ s, (f s).epoch.core = s.epoch.core) :
    (s.when c f).epoch.core = s.epoch.core := State.when_keeps (·.epoch.core) s c f h

@[simp] theorem State.over_core {α : Type} {s : State} {l : List α} {f : State → α → State}
    (h : ∀ s a, (f s a).epoch.core = s.epoch.core) : (s.over l f).epoch.core = s.epoch.core :=
  State.over_keeps (·.epoch.core) s l f h

@[simp] theorem State.each_core {s : State} {n : Nat} {f : State → Nat → State}
    (h : ∀ s k, (f s k).epoch.core = s.epoch.core) : (s.each n f).epoch.core = s.epoch.core :=
  State.each_keeps (·.epoch.core) s n f h

@[simp] theorem State.ite_core {c : Prop} [Decidable c] (s t : State) :
    (if c then s else t).epoch.core = if c then s.epoch.core else t.epoch.core := apply_ite (·.epoch.core) c s t

/-- Statistics and events: the epoch's counters alone change. -/
@[simp] theorem State.statIn_core (s : State) (old : Bool) (f : Table Nat Int → Table Nat Int) :
    (s.statIn old f).epoch.core = s.epoch.core := by
  simp only [State.statIn]
  split
  · split <;> rfl
  · split
    · rfl
    · split <;> rfl

@[simp] theorem State.stat_core (s : State) (off : Nat) (n : Int) : (s.stat off n).epoch.core = s.epoch.core := by
  unfold State.stat
  split
  · rfl
  · exact s.statIn_core _ _

@[simp] theorem State.raise_core (s : State) (k : EventKind) (inst : Nat) (fs : List (Nat × Nat × Nat)) :
    (s.raise k inst fs).epoch.core = s.epoch.core := by
  obtain ⟨-, -, h⟩ := s.raise_raised k inst fs
  rw [h]
  rfl

@[simp] theorem State.draw_core (s : State) (kind : String) (args : List Int) :
    (s.draw kind args).2.epoch.core = s.epoch.core := rfl

@[simp] theorem State.devWrite_core (s : State) (a : Nat) (bs : List Byte) :
    (s.devWrite a bs).epoch.core = s.epoch.core := by
  induction bs generalizing s a with
  | nil => rfl
  | cons b bs ih =>
    refine (ih _ _).trans ?_
    split <;> rfl

/-! ## Memory, timers, and the parts of the state -/

@[simp] theorem State.setProg_epoch (s : State) (f : ProgState → ProgState) : (s.setProg f).epoch = s.epoch := rfl
@[simp] theorem State.timerSet_epoch (s : State) (k : Nat) : (s.timerSet k).epoch = s.epoch := rfl

@[simp] theorem State.hist_epoch (s : State) (h source : Nat) (cs : List (Nat × Nat × Nat × Nat × Nat)) :
    (s.hist h source cs).epoch = s.epoch := rfl

@[simp] theorem State.memLog_epoch (s : State) (source : Nat) (write : Bool) (a n : Nat) :
    (s.memLog source write a n).epoch = s.epoch := rfl

@[simp] theorem State.devPut_core (s : State) (source a : Nat) (bs : List Byte) :
    (s.devPut source a bs).epoch.core = s.epoch.core := by
  simp -implicitDefEqProofs [State.devPut]

@[simp] theorem State.stacksWake_epoch (s : State) : s.stacksWake.epoch = s.epoch := rfl

@[simp] theorem State.setSec_epoch (s : State) (f : SecState → SecState) : (s.setSec f).epoch = s.epoch := rfl

/-! ## A tile's events and setup -/

@[simp] theorem State.haltTile_core (s : State) (n cause : Nat) : (s.haltTile n cause).epoch.core = s.epoch.core := by
  simp -implicitDefEqProofs [State.haltTile]

@[simp] theorem State.tileEvent_core (s : State) (n b : Nat) : (s.tileEvent n b).epoch.core = s.epoch.core := by
  simp -implicitDefEqProofs [State.tileEvent]

/-! ## Roles and reports of the pantry -/

@[simp] theorem State.setRole_core (s : State) (kind u r : Nat) : (s.setRole kind u r).epoch.core = s.epoch.core := by
  simp -implicitDefEqProofs [State.setRole]

@[simp] theorem State.panResult_epoch (s : State) (r : Nat) : (s.panResult r).epoch = s.epoch := rfl

@[simp] theorem State.spareEmpty_core (s : State) (kind die : Nat) :
    (s.spareEmpty kind die).epoch.core = s.epoch.core := by
  simp -implicitDefEqProofs [State.spareEmpty]

@[simp] theorem State.swapAnswer_core (s : State) (kind u : Nat) (c : SwapCause) (r : Nat) :
    (s.swapAnswer kind u c r).epoch.core = s.epoch.core := by
  simp -implicitDefEqProofs [State.swapAnswer]

@[simp] theorem State.swapUsed_core (s : State) (kind out inn row : Nat) (c : SwapCause) :
    (s.swapUsed kind out inn row c).epoch.core = s.epoch.core := by
  unfold State.swapUsed
  repeat' split
  all_goals simp -implicitDefEqProofs

/-! ## Messages of the fabric -/

@[simp] theorem State.setPort_epoch (s : State) (p : Nat) (x : FabPort) : (s.setPort p x).epoch = s.epoch := rfl

@[simp] theorem State.fabOut_epoch (s : State) (p type : Nat) (bcast : Bool) (h : FabHdr) (payload : List Byte) :
    (s.fabOut p type bcast h payload).epoch = s.epoch := rfl

@[simp] theorem State.seqNext_epoch (s : State) : s.seqNext.epoch = s.epoch := rfl

@[simp] theorem State.noRoute_epoch (s : State) : s.noRoute.epoch = s.epoch := rfl

@[simp] theorem State.sendRouted_core (s : State) (type dst flow : Nat) (payload : List Byte) :
    (s.sendRouted type dst flow payload).2.epoch.core = s.epoch.core := by
  simp only [State.sendRouted]
  split
  all_goals simp -implicitDefEqProofs

@[simp] theorem State.flood_core (s : State) (type : Nat) (except : Option Nat) (h : FabHdr) (payload : List Byte) :
    (s.flood type except h payload).epoch.core = s.epoch.core := by
  simp -implicitDefEqProofs [State.flood]

@[simp] theorem State.newLsa_core (s : State) : s.newLsa.epoch.core = s.epoch.core := by
  simp -implicitDefEqProofs [State.newLsa]

@[simp] theorem State.askCredit_core (s : State) (dst n : Nat) : (s.askCredit dst n).epoch.core = s.epoch.core := by
  unfold State.askCredit
  dsimp only
  split
  · rfl
  · split
    all_goals exact State.sendRouted_core _ _ _ _ _

theorem State.sendPiece_core {s : State} {dst flow type id off : Nat} {data : List Byte} {r : Bool × State}
    (h : s.sendPiece dst flow type id off data = some r) : r.2.epoch.core = s.epoch.core := by
  simp only [State.sendPiece] at h
  split at h
  · cases h
  · cases h
    simp -implicitDefEqProofs

theorem State.xferStep_core {s : State} {x : FabXfer} {r : Option FabXfer × State} (h : s.xferStep x = some r) :
    r.2.epoch.core = s.epoch.core := by
  simp only [State.xferStep] at h
  split at h
  all_goals
    obtain ⟨p, hp, rfl⟩ := Option.map_eq_some_iff.mp h
    exact State.sendPiece_core hp

@[simp] theorem State.xferRun_core (n : Nat) (s : State) (x : FabXfer) :
    (State.xferRun n s x).2.epoch.core = s.epoch.core := by
  induction n generalizing s x with
  | zero => rfl
  | succ n ih =>
    unfold State.xferRun
    split
    · rfl
    · next t h => exact State.xferStep_core h
    · next y t h => exact (ih t y).trans (State.xferStep_core h)

@[simp] theorem State.xferPump_core (s : State) (dst : Nat) : (s.xferPump dst).epoch.core = s.epoch.core := by
  refine (State.over_core fun t x => ?_).trans rfl
  have h : (if x.dst = dst then State.xferRun (x.data.length / pieceMax + 2) t x else (some x, t)).2.epoch.core =
      t.epoch.core := by
    split
    · exact State.xferRun_core _ t x
    · rfl
  dsimp only
  split
  all_goals exact h

@[simp] theorem State.xferAsk_core (s : State) (dst : Nat) : (s.xferAsk dst).epoch.core = s.epoch.core := by
  simp -implicitDefEqProofs [State.xferAsk]

@[simp] theorem State.startXfer_core (s : State) (dst req : Nat) (data entry : List Byte) :
    (s.startXfer dst req data entry).epoch.core = s.epoch.core := by
  simp -implicitDefEqProofs [State.startXfer]

/-! ## Anchors and losses -/

@[simp] theorem State.anchorP_core (s : State) (type k block time p : Nat) (jump : Int) :
    (s.anchorP type k block time p jump).epoch.core = s.epoch.core := by
  simp -implicitDefEqProofs [State.anchorP]

@[simp] theorem State.anchor_core (s : State) (type k block time : Nat) (jump : Int) :
    (s.anchor type k block time jump).epoch.core = s.epoch.core := by
  simp -implicitDefEqProofs [State.anchor]

@[simp] theorem State.anchorPred_core (s : State) (type k block : Nat) :
    (s.anchorPred type k block).epoch.core = s.epoch.core := by
  simp -implicitDefEqProofs [State.anchorPred]

@[simp] theorem State.clockChange_core {s : State} {f : State → State} (h : ∀ s, (f s).epoch.core = s.epoch.core) :
    (s.clockChange f).epoch.core = s.epoch.core := by
  simp -implicitDefEqProofs [State.clockChange, h]

@[simp] theorem State.storeLoss_core (s : State) (e : LossEntry) : (s.storeLoss e).epoch.core = s.epoch.core := by
  unfold State.storeLoss
  repeat' split
  all_goals simp -implicitDefEqProofs

@[simp] theorem State.openLoss_core (s : State) (cause hpc : Nat) (lost : List SBlock) :
    (s.openLoss cause hpc lost).epoch.core = s.epoch.core := by
  simp -implicitDefEqProofs [State.openLoss]

@[simp] theorem State.startRing_core (s : State) : s.startRing.epoch.core = s.epoch.core := by
  simp -implicitDefEqProofs [State.startRing]

/-! ## The combiner -/

@[simp] theorem State.setCell_epoch (s : State) (c : Nat) (x : Cell) : (s.setCell c x).epoch = s.epoch := rfl
@[simp] theorem State.level_epoch (s : State) (code : Nat) (v : Bool) : (s.level code v).epoch = s.epoch := rfl
@[simp] theorem State.cellCounts_core (s : State) (c : Nat) (late fits : Bool) :
    (s.cellCounts c late fits).epoch.core = s.epoch.core := by
  simp -implicitDefEqProofs [State.cellCounts]

@[simp] theorem State.placeEvent_core (s : State) (old count : Bool) (c i code t : Nat) :
    (s.placeEvent old count c i code t).epoch.core = s.epoch.core := by
  simp -implicitDefEqProofs [State.placeEvent]

@[simp] theorem State.combEvent_core (s : State) (code t : Nat) (among : Nat → Bool) :
    (s.combEvent code t among).epoch.core = s.epoch.core :=
  State.each_core fun u c => by simp -implicitDefEqProofs

@[simp] theorem State.replayEnd_core (s : State) (k status : Nat) :
    (s.replayEnd k status).epoch.core = s.epoch.core := by
  simp -implicitDefEqProofs [State.replayEnd]

@[simp] theorem State.toutSync_core (u s : State) : (u.toutSync s).epoch.core = s.epoch.core := by
  simp -implicitDefEqProofs [State.toutSync]

/-! ## A tile's load, migration and halt -/

@[simp] theorem State.takeStagedOf_core (s : State) (n : Nat) (sel : Reg → Bool) :
    (s.takeStagedOf n sel).epoch.core = s.epoch.core := by
  simp -implicitDefEqProofs [State.takeStagedOf]

@[simp] theorem State.takeStagedGt_core (s : State) (n : Nat) : (s.takeStagedGt n).epoch.core = s.epoch.core := by
  simp -implicitDefEqProofs [State.takeStagedGt]

@[simp] theorem State.switchDone_core (s : State) : s.switchDone.epoch.core = s.epoch.core := by
  simp -implicitDefEqProofs [State.switchDone]

@[simp] theorem State.gtCopy_epoch (s : State) (old new : Nat) : (s.gtCopy old new).epoch = s.epoch := rfl

@[simp] theorem State.setupCopy_epoch (s : State) (old new : Nat) : (s.setupCopy old new).epoch = s.epoch := rfl

@[simp] theorem State.slotTake_core (s : State) (g : Nat) (staged : Table Nat Nat) (maps : Nat × Nat) :
    (s.slotTake g staged maps).epoch.core = s.epoch.core := by
  simp -implicitDefEqProofs [State.slotTake]

@[simp] theorem State.setMig_epoch (s : State) (d : Nat) (m : Option Migration) : (s.setMig d m).epoch = s.epoch := rfl

@[simp] theorem State.migStart_core (s : State) (w : PanSwap) : (s.migStart w).2.epoch.core = s.epoch.core := by
  unfold State.migStart
  split
  all_goals simp -implicitDefEqProofs

@[simp] theorem State.csRepair_core (s : State) (n : Nat) : (s.csRepair n).epoch.core = s.epoch.core := by
  simp -implicitDefEqProofs [State.csRepair]

@[simp] theorem State.tileServes_epoch (s : State) (n g b : Nat) : (s.tileServes n g b).epoch = s.epoch := rfl

@[simp] theorem State.groupTakes_core (s : State) (g b : Nat) : (s.groupTakes g b).epoch.core = s.epoch.core := by
  simp only [State.groupTakes]
  split
  all_goals simp -implicitDefEqProofs

@[simp] theorem State.tileFreed_core (s : State) (n g : Nat) : (s.tileFreed n g).epoch.core = s.epoch.core := by
  simp -implicitDefEqProofs [State.tileFreed]

/-! ## Planned stalls and rows -/

@[simp] theorem State.useRow_epoch (s : State) (h bank : Nat) : (s.useRow h bank).epoch = s.epoch := rfl

@[simp] theorem State.softRow_core (s : State) (h bank row : Nat) :
    (s.softRow h bank row).epoch.core = s.epoch.core := by
  simp -implicitDefEqProofs [State.softRow]

@[simp] theorem State.rowReport_core (s : State) (h word : Nat) : (s.rowReport h word).epoch.core = s.epoch.core := by
  simp -implicitDefEqProofs [State.rowReport]

@[simp] theorem State.runStall_core (s : State) (x : Stall) : (s.runStall x).epoch.core = s.epoch.core := by
  unfold State.runStall
  repeat' split
  all_goals simp -implicitDefEqProofs

@[simp] theorem State.stallDeferred_core (s : State) (x : Stall) : (s.stallDeferred x).epoch.core = s.epoch.core := by
  simp -implicitDefEqProofs [State.stallDeferred]

@[simp] theorem State.planStall_core (s : State) (x : Stall) : (s.planStall x).epoch.core = s.epoch.core := by
  simp -implicitDefEqProofs [State.planStall]

/-! ## Quartz -/

@[simp] theorem State.setTree_core (s : State) (n : Nat) : (s.setTree n).epoch.core = s.epoch.core := by
  simp -implicitDefEqProofs [State.setTree]

@[simp] theorem State.setClk_epoch (s : State) (f : ClkState → ClkState) : (s.setClk f).epoch = s.epoch := rfl

@[simp] theorem State.gateCko_core (s : State) (gate : Bool) : (s.gateCko gate).epoch.core = s.epoch.core := by
  simp -implicitDefEqProofs [State.gateCko]

@[simp] theorem State.startRelock_core (s : State) : s.startRelock.epoch.core = s.epoch.core := by
  simp -implicitDefEqProofs [State.startRelock]

@[simp] theorem State.dropReturn_epoch (s : State) : s.dropReturn.epoch = s.epoch := rfl

@[simp] theorem State.restartRelock_core (s : State) : s.restartRelock.epoch.core = s.epoch.core := by
  simp -implicitDefEqProofs [State.restartRelock]

@[simp] theorem State.relockCause_core (s : State) : s.relockCause.epoch.core = s.epoch.core := by
  simp -implicitDefEqProofs [State.relockCause]

@[simp] theorem State.relockDone_core (s : State) : s.relockDone.epoch.core = s.epoch.core := by
  simp -implicitDefEqProofs [State.relockDone]

@[simp] theorem State.returnLocked_core (s : State) : s.returnLocked.epoch.core = s.epoch.core := by
  simp -implicitDefEqProofs [State.returnLocked]

/-! ## Channels and comparators -/

@[simp] theorem State.holdChan_epoch (s : State) (c i : Nat) (changed : Bool) :
    (s.holdChan c i changed).epoch = s.epoch := rfl

@[simp] theorem State.endCalHold_epoch (s : State) (c i : Nat) : (s.endCalHold c i).epoch = s.epoch := rfl

/-! ## Calibration -/

@[simp] theorem State.setCalDie_epoch (s : State) (k : Nat) (x : CalDie) : (s.setCalDie k x).epoch = s.epoch := rfl

@[simp] theorem State.handover_core (s : State) (c sl : Nat) : (s.handover c sl).epoch.core = s.epoch.core := by
  simp -implicitDefEqProofs [State.handover]

@[simp] theorem State.retireSlice_epoch (s : State) (k sl : Nat) : (s.retireSlice k sl).epoch = s.epoch := rfl

@[simp] theorem State.calQueue_core (s : State) (k sl : Nat) (task : CalTask) (host : Bool) :
    (s.calQueue k sl task host).epoch.core = s.epoch.core := by
  simp -implicitDefEqProofs [State.calQueue]

@[simp] theorem State.calResult_epoch (s : State) (r : Nat) : (s.calResult r).epoch = s.epoch := rfl

@[simp] theorem State.applyEntry_epoch (s : State) (k sl : Nat) : (s.applyEntry k sl).epoch = s.epoch := rfl

@[simp] theorem State.applyDone_core (s : State) : s.applyDone.epoch.core = s.epoch.core := by
  simp -implicitDefEqProofs [State.applyDone]

@[simp] theorem State.calIdle_core (s : State) (k : Nat) : (s.calIdle k).epoch.core = s.epoch.core := by
  simp -implicitDefEqProofs [State.calIdle]

@[simp] theorem State.sliceSwapped_core (s : State) (k sl p : Nat) (cause : SwapCause) :
    (s.sliceSwapped k sl p cause).epoch.core = s.epoch.core := by
  simp -implicitDefEqProofs [State.sliceSwapped]

@[simp] theorem State.calStep4_core (s : State) (k : Nat) (cur : CalCur) (c p : Nat) :
    (s.calStep4 k cur c p).epoch.core = s.epoch.core := by
  unfold State.calStep4
  repeat' split
  all_goals simp -implicitDefEqProofs

@[simp] theorem State.calBoundary_core (s : State) (k : Nat) : (s.calBoundary k).epoch.core = s.epoch.core := by
  unfold State.calBoundary
  repeat' split
  all_goals simp -implicitDefEqProofs

@[simp] theorem State.calHand_core (s : State) (k : Nat) (cur : CalCur) (c sl : Nat) :
    (s.calHand k cur c sl).epoch.core = s.epoch.core := by
  simp -implicitDefEqProofs [State.calHand]

@[simp] theorem State.calAbandon_core (s : State) (c i : Nat) : (s.calAbandon c i).epoch.core = s.epoch.core := by
  simp only [State.calAbandon]
  repeat' split
  all_goals simp -implicitDefEqProofs

/-! ## The time base -/

@[simp] theorem State.holdRate_epoch (s : State) : s.holdRate.epoch = s.epoch := rfl
@[simp] theorem State.undisciplined_epoch (s : State) : s.undisciplined.epoch = s.epoch := rfl

@[simp] theorem State.timeSrcLost_core (s : State) : s.timeSrcLost.epoch.core = s.epoch.core := by
  simp -implicitDefEqProofs [State.timeSrcLost]

/-! ## Links and addresses of the fabric -/

@[simp] theorem State.fabTimeOk_core (s : State) : s.fabTimeOk.epoch.core = s.epoch.core := by
  simp -implicitDefEqProofs [State.fabTimeOk]

@[simp] theorem State.nbrDown_core (s : State) (p cause : Nat) : (s.nbrDown p cause).epoch.core = s.epoch.core := by
  simp -implicitDefEqProofs [State.nbrDown]

@[simp] theorem State.linkDrop_core (s : State) (p : Nat) : (s.linkDrop p).epoch.core = s.epoch.core := by
  simp -implicitDefEqProofs [State.linkDrop]

@[simp] theorem State.linkRetrain_core (s : State) (p cause : Nat) :
    (s.linkRetrain p cause).epoch.core = s.epoch.core := by
  simp -implicitDefEqProofs [State.linkRetrain]

@[simp] theorem State.setAddr_epoch (s : State) (addr st : Nat) : (s.setAddr addr st).epoch = s.epoch := rfl

@[simp] theorem State.resolveAddr_core (s : State) : s.resolveAddr.epoch.core = s.epoch.core := by
  simp only [State.resolveAddr]
  repeat' split
  all_goals simp -implicitDefEqProofs

@[simp] theorem State.fabReaddress_core (s : State) : s.fabReaddress.epoch.core = s.epoch.core := by
  unfold State.fabReaddress
  extract_lets +onlyGivenNames t _ u
  have ht : t.epoch.core = s.epoch.core := by
    unfold t
    split
    · exact congrArg EpochState.core (s.setAddr_epoch _ _)
    · exact congrArg EpochState.core (s.setAddr_epoch _ _)
    · split
      · rfl
      · exact congrArg EpochState.core (s.setAddr_epoch _ _)
  exact (State.resolveAddr_core _).trans ((State.newLsa_core u).trans ht)

/-! ## Renderers -/

@[simp] theorem State.setOpal_epoch (s : State) (p : Nat) (o : Opal) : (s.setOpal p o).epoch = s.epoch := rfl
@[simp] theorem State.setScan_epoch (s : State) (d : Nat) (x : Scan) : (s.setScan d x).epoch = s.epoch := rfl
@[simp] theorem State.oplSetup_epoch (s : State) (p n : Nat) : (s.oplSetup p n).epoch = s.epoch := rfl

@[simp] theorem State.oplSwapStart_core (s : State) (l : Nat) (c : SwapCause) :
    (s.oplSwapStart l c).2.epoch.core = s.epoch.core := by
  unfold State.oplSwapStart
  split
  · rfl
  · split
    all_goals simp -implicitDefEqProofs

/-! ## A tile at the switch point -/

@[simp] theorem State.reloadGt_core (s : State) (n : Nat) : (s.reloadGt n).epoch.core = s.epoch.core := by
  simp -implicitDefEqProofs [State.reloadGt]

@[simp] theorem State.tileSwitch_core (s : State) (n w : Nat) : (s.tileSwitch n w).epoch.core = s.epoch.core := by
  simp -implicitDefEqProofs [State.tileSwitch]

/-! ## Swaps of the pantry -/

@[simp] theorem State.postOffline_epoch (s : State) (core : Nat) : (s.postOffline core).epoch = s.epoch := rfl

@[simp] theorem State.trySwap_core (s : State) (w : PanSwap) : (s.trySwap w).2.epoch.core = s.epoch.core := by
  unfold State.trySwap
  dsimp only
  split
  · rfl
  · split
    case h_2 =>
      have hmig := s.migStart_core w
      repeat' split
      all_goals simp_all -implicitDefEqProofs
    case h_3 =>
      split
      · rfl
      · next l _ =>
        have hopl := s.oplSwapStart_core l w.cause
        repeat' split
        all_goals simp_all -implicitDefEqProofs
    all_goals
      repeat' split
      all_goals simp -implicitDefEqProofs

@[simp] theorem State.swapWaits_epoch (s : State) (w : PanSwap) : (s.swapWaits w).epoch = s.epoch := rfl

@[simp] theorem State.autoSwap_core (s : State) (w : PanSwap) : (s.autoSwap w).epoch.core = s.epoch.core := by
  have htry := s.trySwap_core w
  unfold State.autoSwap
  split
  all_goals simp_all -implicitDefEqProofs

@[simp] theorem State.panNext_core (s : State) : s.panNext.epoch.core = s.epoch.core := by
  unfold State.panNext
  split
  · rfl
  · exact State.over_core fun t w => t.autoSwap_core w

/-! ## Log sets -/

@[simp] theorem State.setDrive_epoch (s : State) (d : Nat) (x : NvmDrive) : (s.setDrive d x).epoch = s.epoch := rfl
@[simp] theorem State.setSub_epoch (s : State) (i : Nat) (x : Sub) : (s.setSub i x).epoch = s.epoch := rfl

@[simp] theorem State.subDrop_core (s : State) (i n : Nat) : (s.subDrop i n).epoch.core = s.epoch.core := by
  simp -implicitDefEqProofs [State.subDrop]

@[simp] theorem State.nvmSend_core (s : State) (d : Nat) (io : Bool) (op : Nat) (args : List Nat) (bs : List Byte) :
    (s.nvmSend d io op args bs).epoch.core = s.epoch.core := by
  simp -implicitDefEqProofs [State.nvmSend]

@[simp] theorem State.nvmOut_core (s : State) (d : Nat) (o : NvmOp) : (s.nvmOut d o).epoch.core = s.epoch.core := by
  unfold State.nvmOut
  repeat' split
  all_goals simp -implicitDefEqProofs

@[simp] theorem State.nvmSetup_core (s : State) (d : Nat) : (s.nvmSetup d).epoch.core = s.epoch.core := by
  simp -implicitDefEqProofs [State.nvmSetup]

@[simp] theorem State.nvmRelease_core (s : State) (d : Nat) : (s.nvmRelease d).epoch.core = s.epoch.core := by
  simp -implicitDefEqProofs [State.nvmRelease]

@[simp] theorem State.stopSet_core (s : State) (n : Nat) : (s.stopSet n).epoch.core = s.epoch.core := by
  simp -implicitDefEqProofs [State.stopSet]

@[simp] theorem State.beginSet_core (s : State) (n : Nat) : (s.beginSet n).epoch.core = s.epoch.core := by
  simp -implicitDefEqProofs [State.beginSet]

/-! ## Streams -/

@[simp] theorem State.setEntry_core (s : State) (i : Nat) (e : List Byte) :
    (s.setEntry i e).epoch.core = s.epoch.core := by
  simp -implicitDefEqProofs [State.setEntry]

@[simp] theorem State.setStream_epoch (s : State) (k : Nat) (x : Stream) : (s.setStream k x).epoch = s.epoch := rfl

@[simp] theorem State.subJoin_core (s : State) (i : Nat) (e : List Byte) (seed : Bool) :
    (s.subJoin i e seed).epoch.core = s.epoch.core := by
  simp -implicitDefEqProofs [State.subJoin]

@[simp] theorem State.subLeave_core (s : State) (i cause : Nat) : (s.subLeave i cause).epoch.core = s.epoch.core := by
  simp -implicitDefEqProofs [State.subLeave]

@[simp] theorem State.skipTo_core (s : State) (i pos : Nat) : (s.skipTo i pos).epoch.core = s.epoch.core := by
  simp only [State.skipTo]
  repeat' split
  all_goals simp -implicitDefEqProofs

@[simp] theorem State.streamsHold_core (s : State) : s.streamsHold.epoch.core = s.epoch.core := by
  simp -implicitDefEqProofs [State.streamsHold]

/-! ## Outputs and the ring writer -/

@[simp] theorem State.stopOutputs_core (s : State) : s.stopOutputs.epoch.core = s.epoch.core := by
  simp -implicitDefEqProofs [State.stopOutputs]

/-! ## The end of BOOT -/

@[simp] theorem State.bootEnded_core (s : State) : s.bootEnded.epoch.core = s.epoch.core := by
  simp only [State.bootEnded]
  repeat' split
  all_goals simp -implicitDefEqProofs

/-! ## Scan-outs -/

@[simp] theorem State.flipRetired_core (s : State) (d addr frame : Nat) (skipped : Bool) :
    (s.flipRetired d addr frame skipped).epoch.core = s.epoch.core := by
  simp -implicitDefEqProofs [State.flipRetired]

@[simp] theorem State.baseSkipped_core (s : State) (d : Nat) (l : List (Nat × Nat)) :
    (s.baseSkipped d l).epoch.core = s.epoch.core := by
  simp -implicitDefEqProofs [State.baseSkipped]

@[simp] theorem State.baseCommit_core (s : State) (d addr : Nat) : (s.baseCommit d addr).epoch.core = s.epoch.core := by
  simp -implicitDefEqProofs [State.baseCommit]

/-! ## The staging bank -/

@[simp] theorem State.takeStaged_core (s : State) : s.takeStaged.epoch.core = s.epoch.core := by
  unfold State.takeStaged
  repeat' split
  all_goals simp -implicitDefEqProofs

/-! ## Refused commits -/

@[simp] theorem State.enterHeld_core (s : State) (cause : Nat) : (s.enterHeld cause).epoch.core = s.epoch.core := by
  simp -implicitDefEqProofs [State.enterHeld]

@[simp] theorem State.refuse_core (s : State) (fs : List Failure) : (s.refuse fs).epoch.core = s.epoch.core := by
  simp -implicitDefEqProofs [State.refuse]

/-! ## Comparators over SERV -/

@[simp] theorem State.cmpResettle_epoch (s : State) (c : Nat) : (s.cmpResettle c).epoch = s.epoch := rfl

@[simp] theorem State.cmpRestart_core (s : State) (k : Nat) : (s.cmpRestart k).epoch.core = s.epoch.core := by
  simp -implicitDefEqProofs [State.cmpRestart]

/-! ## Pages -/

@[simp] theorem State.pageWrite_core (s : State) (a : Nat) (bs : List Byte) :
    (s.pageWrite a bs).epoch.core = s.epoch.core := by
  simp -implicitDefEqProofs [State.pageWrite]

/-! ## The switch point -/

@[simp] theorem State.switchChan_core (u s : State) (c i : Nat) : (u.switchChan s c i).epoch.core = s.epoch.core := by
  simp -implicitDefEqProofs [State.switchChan]

@[simp] theorem State.switchDie_core (u s : State) (k i : Nat) : (u.switchDie s k i).epoch.core = s.epoch.core := by
  simp -implicitDefEqProofs [State.switchDie]

@[simp] theorem State.switchRing_core (u s : State) (bound : Nat → Nat) :
    (u.switchRing s bound).epoch.core = s.epoch.core := by
  simp -implicitDefEqProofs [State.switchRing]

@[simp] theorem State.switchStore_core (u s : State) : (u.switchStore s).epoch.core = s.epoch.core := by
  simp -implicitDefEqProofs [State.switchStore]

@[simp] theorem State.ckoSync_epoch (s : State) (n : Nat) : (s.ckoSync n).epoch = s.epoch := rfl

@[simp] theorem State.ckoStretch_core (u s : State) (n : Nat) : (u.ckoStretch s n).epoch.core = s.epoch.core := by
  simp -implicitDefEqProofs [State.ckoStretch]

@[simp] theorem State.switchSlew_core (u s : State) : (u.switchSlew s).epoch.core = s.epoch.core := by
  simp -implicitDefEqProofs [State.switchSlew]

@[simp] theorem State.switchClk_core (u s : State) : (u.switchClk s).epoch.core = s.epoch.core := by
  simp -implicitDefEqProofs [State.switchClk]

@[simp] theorem State.switchTin_core (u s : State) (i : Nat) : (u.switchTin s i).epoch.core = s.epoch.core := by
  simp -implicitDefEqProofs [State.switchTin]

@[simp] theorem State.switchTime_core (u s : State) : (u.switchTime s).epoch.core = s.epoch.core := by
  simp -implicitDefEqProofs [State.switchTime]

@[simp] theorem State.turnJoin_core (u s : State) (tB : Nat) : (u.turnJoin s tB).epoch.core = s.epoch.core := by
  unfold State.turnJoin
  repeat' split
  all_goals simp -implicitDefEqProofs

@[simp] theorem State.switchTurn_core (u s : State) (tB : Nat) : (u.switchTurn s tB).epoch.core = s.epoch.core := by
  simp -implicitDefEqProofs [State.switchTurn]

@[simp] theorem State.switchEpo_core (u s : State) : (u.switchEpo s).epoch.core = s.epoch.core := by
  unfold State.switchEpo
  split
  all_goals rfl

@[simp] theorem State.switchCells_core (u s : State) (tB : Nat) : (u.switchCells s tB).epoch.core = s.epoch.core := by
  simp -implicitDefEqProofs [State.switchCells]

@[simp] theorem State.switchStreams_core (u s : State) : (u.switchStreams s).epoch.core = s.epoch.core := by
  unfold State.switchStreams
  extract_lets +onlyGivenNames new seeds t gone _ v w
  have ht : t.epoch.core = s.epoch.core := State.over_core fun x i => by simp -implicitDefEqProofs
  have hw : w.epoch.core = v.epoch.core := State.over_core fun x k => by simp -implicitDefEqProofs
  refine (State.over_core fun x e => ?_).trans (hw.trans ht)
  repeat' split
  all_goals simp -implicitDefEqProofs

@[simp] theorem State.switchOpal_core (u s : State) (p : Nat) : (u.switchOpal s p).epoch.core = s.epoch.core := by
  simp -implicitDefEqProofs [State.switchOpal]

@[simp] theorem State.switchScan_core (u s : State) (d : Nat) : (u.switchScan s d).epoch.core = s.epoch.core := by
  simp -implicitDefEqProofs [State.switchScan]

@[simp] theorem State.fabRtvAbort_core (s : State) (p : Nat) : (s.fabRtvAbort p).epoch.core = s.epoch.core := by
  refine (State.over_core fun t j => ?_).trans rfl
  dsimp only
  split
  · exact State.startXfer_core _ _ _ _ _
  · rfl

@[simp] theorem State.switchPort_core (u s : State) (p : Nat) : (u.switchPort s p).epoch.core = s.epoch.core := by
  simp -implicitDefEqProofs [State.switchPort]

@[simp] theorem State.switchCosts_core (u s : State) : (u.switchCosts s).epoch.core = s.epoch.core := by
  simp -implicitDefEqProofs [State.switchCosts]

@[simp] theorem State.switchSet_core (u s : State) (n : Nat) : (u.switchSet s n).epoch.core = s.epoch.core := by
  simp -implicitDefEqProofs [State.switchSet]

@[simp] theorem State.switchTile_core (u s : State) (n g w : Nat) (reload : Bool) :
    (u.switchTile s n g w reload).epoch.core = s.epoch.core := by
  simp -implicitDefEqProofs [State.switchTile]

@[simp] theorem State.switchIdle_core (u s : State) (g : Nat) : (u.switchIdle s g).epoch.core = s.epoch.core := by
  simp -implicitDefEqProofs [State.switchIdle]

@[simp] theorem State.switchLive_core (u s : State) (g w : Nat) : (u.switchLive s g w).epoch.core = s.epoch.core := by
  simp -implicitDefEqProofs [State.switchLive]

@[simp] theorem State.switchGroups_core (u s : State) (w : Nat → Nat) :
    (u.switchGroups s w).epoch.core = s.epoch.core := by
  simp -implicitDefEqProofs [State.switchGroups]

@[simp] theorem State.enterRun_core (u s : State) (resume : Bool) (bound : Nat → Nat) :
    (u.enterRun s resume bound).epoch.core = s.epoch.core := by
  simp -implicitDefEqProofs [State.enterRun]

@[simp] theorem State.takeBank_core (u : State) : u.takeBank.epoch.core = u.epoch.core := by
  simp -implicitDefEqProofs [State.takeBank]

/-- A switch point brings a program into force and leaves the epoch that has begun as it is. -/
@[simp] theorem State.switchPoint_core (u : State) (tB e : Nat) (bound : Nat → Nat) (boot : Bool) :
    (u.switchPoint tB e bound boot).epoch.core = u.epoch.core := by
  simp -implicitDefEqProofs [State.switchPoint]

/-! ## The boundary's other parts -/

@[simp] theorem State.epochAnchors_core (s : State) (marks : List Nat) :
    (s.epochAnchors marks).epoch.core = s.epoch.core := by
  simp -implicitDefEqProofs [State.epochAnchors]

@[simp] theorem State.quartzStep_core (s : State) (tB : Nat) : (s.quartzStep tB).epoch.core = s.epoch.core := by
  simp -implicitDefEqProofs [State.quartzStep]

@[simp] theorem State.lateCommit_core (s : State) (tB e : Nat) : (s.lateCommit tB e).epoch.core = s.epoch.core := by
  unfold State.lateCommit
  repeat' split
  all_goals simp -implicitDefEqProofs

@[simp] theorem State.epochTiles_core (s : State) : s.epochTiles.epoch.core = s.epoch.core := by
  refine State.each_core fun t n => ?_
  dsimp only
  split
  all_goals simp -implicitDefEqProofs

end Sys2Proof.Machine
end

section
/-! PROOFS. Epochs, their boundaries and pages, and the loss of the turn (R124 to R129, R259). -/

namespace Sys2Proof.Machine

/-! ## Announcements (R124, R125) -/

theorem State.exec_epochAnnounce_idle (s : State) (hsrc : s.fld EPO_CFG.SRC 0 ≠ 0) (h : s.epoch.candidates = []) :
    exec .epochAnnounce s = .next s := by
  show execEpochAnnounce s = _
  simp only [execEpochAnnounce, State.nextCandidate, if_neg hsrc, h, List.head?_nil]

/-- A source of edges has its oldest candidate judged. -/
theorem State.exec_epochAnnounce_edge (s : State) (c : Nat) (cs : List Nat) (hsrc : s.fld EPO_CFG.SRC 0 ≠ 0)
    (h : s.epoch.candidates = c :: cs) :
    let u : State := { s with epoch := { s.epoch with candidates := cs } }
    exec .epochAnnounce s = .next (match s.epoch.announced with
      | some a => if c < a + nsToOt 1000 then u.addFld EPO_COUNTS.SHORT 0 1 else s
      | none =>
        if s.epoch.lastOt ≠ 0 ∧ c < s.epoch.lastOt + nsToOt 1000 then u.addFld EPO_COUNTS.SHORT 0 1
        else { u with epoch := { u.epoch with announced := some c } }) := by
  intro u
  have hnext : s.nextCandidate = some c := by rw [State.nextCandidate, if_neg hsrc, h, List.head?_cons]
  have hdrop : s.dropCandidate c = u := by
    unfold State.dropCandidate
    rw [if_neg hsrc, h, List.drop_one, List.tail_cons]
  show execEpochAnnounce s = _
  unfold execEpochAnnounce
  rw [hnext]
  dsimp only
  rw [hdrop]
  cases s.epoch.announced <;> simp [tooShort]

/-- The timer has its next instant judged. -/
theorem State.exec_epochAnnounce_timer (s : State) (hsrc : s.fld EPO_CFG.SRC 0 = 0) (h : s.epoch.announced = none) :
    let c := s.timerInstant (max s.time.ot s.epoch.ignored)
    ∃ t, exec .epochAnnounce s = .next t ∧ t.epoch.announced = (if s.epoch.lastOt ≠ 0 ∧
      c < s.epoch.lastOt + nsToOt 1000 then none else some c) ∧ t.time = s.time ∧ t.mem = s.mem := by
  intro c
  have hnext : s.nextCandidate = some c := by
    rw [State.nextCandidate, if_pos hsrc, h, Option.isSome_none, if_neg Bool.false_ne_true]
  have hexec : exec .epochAnnounce s = .next (
      if s.epoch.lastOt != 0 && tooShort s.epoch.lastOt c then (s.dropCandidate c).addFld EPO_COUNTS.SHORT 0 1
      else { s.dropCandidate c with epoch := { (s.dropCandidate c).epoch with announced := some c } }) := by
    show execEpochAnnounce s = _
    unfold execEpochAnnounce
    rw [hnext, h]
  refine ⟨_, hexec, ?_⟩
  by_cases hshort : s.epoch.lastOt ≠ 0 ∧ c < s.epoch.lastOt + nsToOt 1000
  · rw [if_pos (by simpa [tooShort] using hshort), if_pos hshort]
    exact ⟨h, rfl, rfl⟩
  · rw [if_neg (by simpa [tooShort] using hshort), if_neg hshort]
    exact ⟨rfl, rfl, rfl⟩

/-- The multiple of a period that follows t, both times 10^6, and its rounding up to a multiple of 10^6. -/
theorem next_multiple_roundUp (t P : Nat) (h : 0 < P) :
    let x := (t * 1000000 / P + 1) * P
    t < (x + 999999) / 1000000 ∧ ((x + 999999) / 1000000 - 1) * 1000000 < x ∧ x ≤ (x + 999999) / 1000000 * 1000000 := by
  intro x
  have hahead : t * 1000000 < x := by
    show t * 1000000 < (t * 1000000 / P + 1) * P
    rw [Nat.add_one_mul]
    exact Nat.lt_div_mul_add h
  clear_value x
  omega

/-- Timer instants are the multiples of the period, rounded up to 2^-80 s; the next one lies ahead (R124). -/
theorem State.timerInstant_next (s : State) (t : Nat) (h : 0 < (s.reg .EPO_PERIOD 0).toNat) : t < s.timerInstant t ∧
    ∃ m, (s.timerInstant t - 1) * 1000000 < m * (s.reg .EPO_PERIOD 0).toNat * 2 ^ 80 ∧
      m * (s.reg .EPO_PERIOD 0).toNat * 2 ^ 80 ≤ s.timerInstant t * 1000000 := by
  unfold State.timerInstant
  generalize (s.reg .EPO_PERIOD 0).toNat = p at h ⊢
  obtain ⟨hahead, hbelow, habove⟩ := next_multiple_roundUp t (p * 2 ^ 80) (Nat.mul_pos h (Nat.two_pow_pos 80))
  dsimp only
  rw [if_neg (Nat.pos_iff_ne_zero.mp h), Nat.mul_assoc _ p]
  refine ⟨hahead, t * 1000000 / (p * 2 ^ 80) + 1, ?_⟩
  rw [Nat.mul_assoc _ p]
  exact ⟨hbelow, habove⟩

/-- After 1,000 s a boundary is forced, unless one is due (R124). -/
theorem State.exec_epochTimeout (s : State) : exec .epochTimeout s = .next (
    if s.now < s.epoch.lastCycle + 1000 * sCycles ∨ s.boundaryDue = true then s else
    let u := if s.epoch.announced.isSome then s.addFld EPO_COUNTS.SHORT 0 1 else s
    State.raise { u with epoch := { u.epoch with announced := some s.time.ot, forced := true } }
      Ev.EPOCH_TIMEOUT 0 [(0, 8, s.epoch.num + 1)]) := by
  show execEpochTimeout s = _
  unfold execEpochTimeout
  simp only [Bool.or_eq_true, decide_eq_true_eq]
  split
  · rfl
  · unfold State.when
    split <;> rfl

/-- Before the boundary, and with none announced, nothing happens. -/
theorem State.exec_epochBoundary_early (s : State) (marks : List Nat)
    (h : s.epoch.announced = none ∨ ∃ t, s.epoch.announced = some t ∧ s.time.ot < t) :
    exec (.epochBoundary marks) s = .next s := by
  show execEpochBoundary marks s = _
  unfold execEpochBoundary
  obtain hnone | ⟨t, hsome, hahead⟩ := h
  · rw [hnone]
  · rw [hsome]
    dsimp only
    rw [if_neg (Nat.not_le.mpr hahead)]

/-! ## The page of an epoch (R126, R127) -/

/-- The words of a page lie in memory, and nothing else is written. -/
theorem State.pageWrite_written (s : State) (a : Nat) (bs : List Byte) : Written s (s.pageWrite a bs) := by
  unfold State.pageWrite State.devPut
  split
  · obtain ⟨m, hm⟩ : ∃ m, s.devWrite a bs = { s with mem := m } := ⟨_, s.devWrite_shape a bs⟩
    rw [hm]
    exact ⟨rfl, State.memLog_moved _ _ _ _ _,
      congrArg (fun v => v.cel.pc) (State.memLog_pcs ({ s with mem := m } : State) s.srcOther true a bs.length).same⟩
  · exact .refl s

theorem State.pageWrites_written (s : State) (l : List (Nat × List Byte)) (a : Nat) :
    Written s (s.over l (fun s x => s.pageWrite (a + x.1) x.2)) := by
  induction l generalizing s with
  | nil => exact .refl s
  | cons x l ih => exact (s.pageWrite_written (a + x.1) x.2).trans (ih _)

/-- The first bytes of the two pages of a base lie on one pseudo-channel. -/
theorem State.poisoned_pageBase (s : State) (e i : Nat) (h : i < 64) :
    s.poisoned (s.pageBase e + i) = s.poisoned (s.pageBase e) := by
  have hunit : (s.pageBase e + i) / 128 * 128 = s.pageBase e / 128 * 128 := by
    unfold State.pageBase
    omega
  have hpc : s.hpcOf (s.pageBase e + i) = s.hpcOf (s.pageBase e) :=
    calc s.hpcOf (s.pageBase e + i)
      _ = s.cel.hpcOf ((s.pageBase e + i) / 128 * 128) := (s.cel.hpcOf_unit _).symm
      _ = s.hpcOf (s.pageBase e) := by rw [hunit]; exact s.cel.hpcOf_unit _
  unfold State.poisoned
  rw [hpc]

/-- Bytes written where every pseudo-channel serves read back. -/
theorem State.bytes_pageWrite (s : State) (a : Nat) (bs : List Byte) (hin : inSystem a bs.length = true)
    (hserve : ∀ i, i < bs.length → s.poisoned (a + i) = false) : (s.pageWrite a bs).bytes a bs.length = bs := by
  unfold State.pageWrite
  rw [if_pos hin]
  refine List.ext_getElem (by simp [State.bytes]) fun i _ hi => ?_
  have hbyte : (s.devPut s.srcOther a bs).byte (a + i) = nth bs i 0 :=
    calc (s.devPut s.srcOther a bs).byte (a + i)
      _ = (s.devWrite a bs).byte (a + i) := State.byte_of_mem rfl _
      _ = nth bs i 0 := by rw [s.byte_devWrite_in a i bs hi, hserve i hi]; rfl
  simp [State.bytes, hbyte, nth, hi]

/-! ### The header -/

theorem slice_append_left (l t : List Byte) : slice (l ++ t) 0 l.length = l := by
  simp [slice]

/-- A field behind others of a known length. -/
theorem slice_append_right (l t : List Byte) (n : Nat) : slice (l ++ t) l.length n = slice t 0 n := by
  simp [slice]

theorem le_append (l t : List Byte) (n v : Nat) : le (l ++ (leBytes n v ++ t)) l.length n = v % 256 ^ n := by
  have hfield : slice (leBytes n v ++ t) 0 n = leBytes n v := by
    simpa using slice_append_left (leBytes n v) t
  rw [le, slice_append_right, hfield, ofLe_leBytes]

theorem otBytes_length (t : Nat) : (otBytes t).length = 12 := by simp [otBytes]

theorem PageInfo.header_length (p : PageInfo) : p.header.length = 64 := by
  simp [PageInfo.header, otBytes_length, zeros]

theorem PageInfo.header_epoch (p : PageInfo) : le p.header 0 8 = p.epoch % 2 ^ 64 := by
  unfold PageInfo.header
  simp only [List.append_assoc]
  exact le_append [] _ 8 p.epoch

theorem PageInfo.header_version (p : PageInfo) : le p.header 32 4 = 1 := by
  have h := le_append (leBytes 8 p.epoch ++ otBytes p.start ++ otBytes p.stop)
    (leBytes 2 p.sect ++ leBytes 1 p.type ++ leBytes 1 p.flags ++ leBytes 4 pageLength ++ zeros 20) 4 1
  simpa [PageInfo.header, otBytes_length] using h

theorem PageInfo.header_size (p : PageInfo) : le p.header 40 4 = 14336 := by
  have h := le_append (leBytes 8 p.epoch ++ otBytes p.start ++ otBytes p.stop ++ leBytes 4 1 ++ leBytes 2 p.sect ++
    leBytes 1 p.type ++ leBytes 1 p.flags) (zeros 20) 4 pageLength
  simpa [PageInfo.header, otBytes_length, pageLength] using h

/-! ### Its completion -/

theorem State.exec_epoPageComplete_idle (s : State) (h : s.epoch.writing = false) : exec .epoPageComplete s = .next s := by
  show execEpoPageComplete s = _
  unfold execEpoPageComplete
  rw [h]
  rfl

/-- The page and its header, written last. -/
def State.pageDone (s : State) : State :=
  (s.over s.pageParts (fun t x => t.pageWrite (s.pageBase s.epoch.page.epoch + x.1) x.2)).pageWrite
    (s.pageBase s.epoch.page.epoch) s.epoch.page.header

theorem State.pageDone_written (s : State) : Written s s.pageDone :=
  (s.pageWrites_written _ _).trans (State.pageWrite_written _ _ _)

theorem State.pageDone_header (s : State) (hin : inSystem (s.pageBase s.epoch.page.epoch) 14336 = true)
    (hserve : s.poisoned (s.pageBase s.epoch.page.epoch) = false) :
    s.pageDone.bytes (s.pageBase s.epoch.page.epoch) 64 = s.epoch.page.header := by
  have hlen := s.epoch.page.header_length
  have hroom : inSystem (s.pageBase s.epoch.page.epoch) s.epoch.page.header.length = true := by
    rw [hlen]
    simp only [inSystem, Bool.and_eq_true, decide_eq_true_eq] at hin ⊢
    omega
  have hread := State.bytes_pageWrite
    (s.over s.pageParts (fun t x => t.pageWrite (s.pageBase s.epoch.page.epoch + x.1) x.2)) _ _ hroom (fun i hi => by
      rw [(s.pageWrites_written _ _).poisoned, s.poisoned_pageBase _ i (hlen ▸ hi), hserve])
  rw [hlen] at hread
  exact hread

theorem State.exec_epoPageComplete (s : State) (h : s.epoch.writing = true) : exec .epoPageComplete s = .next (
    State.raise { s.pageDone with epoch := { s.pageDone.epoch with writing := false, prev := [] } }
      Ev.PAGE_READY 0 [(0, 8, s.epoch.page.epoch)]) := by
  show execEpoPageComplete s = _
  unfold execEpoPageComplete
  rw [h]
  rfl

/-- Once the page is written PAGE_READY is raised; the header reads back. -/
theorem State.pageReady_after (s : State) :
    let t := State.raise { s.pageDone with epoch := { s.pageDone.epoch with writing := false, prev := [] } }
      Ev.PAGE_READY 0 [(0, 8, s.epoch.page.epoch)]
    t.epoch.writing = false ∧ t.evq.count = s.evq.count + 1 ∧ t.epoch.num = s.epoch.num ∧ t.time = s.time ∧
      (inSystem (s.pageBase s.epoch.page.epoch) 14336 = true → s.poisoned (s.pageBase s.epoch.page.epoch) = false →
        t.bytes (s.pageBase s.epoch.page.epoch) 64 = s.epoch.page.header) := by
  intro t
  have hdone := s.pageDone_written.only
  have hheader := s.pageDone_header
  have hcore : t.epoch.core = EpochState.core { s.pageDone.epoch with writing := false, prev := [] } :=
    State.raise_core _ _ _ _
  have hmem : t.mem = s.pageDone.mem := State.raise_mem _ _ _ _
  have hcount : t.evq.count = s.pageDone.evq.count + 1 := State.raise_count _ _ _ _
  have htime : t.time = s.pageDone.time := by
    unfold t
    rw [(State.raise_raised _ _ _ _).1]
  obtain ⟨hnum, -, -, -, -, hwriting, -⟩ := EpochState.of_core hcore
  refine ⟨hwriting, hcount.trans ?_, hnum.trans ?_, htime.trans ?_, fun hin hserve => ?_⟩
  · rw [hdone]
  · show s.pageDone.epoch.num = _
    rw [hdone]
  · rw [hdone]
  · rw [State.bytes_of_mem hmem, hheader hin hserve]

/-! ### Its acknowledgement -/

theorem State.epoAck_acked (s : State) (v : BitVec 32) :
    (s.epoAck v.toNat).epoch.acked = v.toNat :: s.epoch.acked.filter (· != v.toNat) := by
  unfold State.epoAck
  rw [Nat.mod_eq_of_lt v.isLt]

theorem State.mem_epoAck (s : State) (v : BitVec 32) (e : Nat) :
    e ∈ (s.epoAck v.toNat).epoch.acked ↔ e = v.toNat ∨ e ∈ s.epoch.acked := by
  rw [s.epoAck_acked v, List.mem_cons, List.mem_filter, bne_iff_ne]
  tauto

theorem State.exec_epoAck (s : State) (path : Path) (v : BitVec 32) : ∃ t, exec (.epoAck path v) s = .next t ∧
    v.toNat ∈ t.epoch.acked ∧ (∀ e ∈ s.epoch.acked, e ∈ t.epoch.acked) ∧ t.regs = s.regs ∧ t.mem = s.mem :=
  ⟨_, rfl, (s.mem_epoAck v _).mpr (.inl rfl), fun _ he => (s.mem_epoAck v _).mpr (.inr he), rfl, rfl⟩

/-! ## The boundary (R125, R126, R128, R129) -/

/-! ### What the samples of a boundary rest on -/

/-- The registers that tell of epochs and lost events. -/
def epochTellers : List (Reg × Nat) := [(.EPO_COUNTS, 0), (.EPO_SKIPPED, 0), (.EVQ_DROPPED, 0)]

/-- From s to t the dies, the clock tree, the cycle, the epoch's number and what follows from the other registers stay. -/
structure SameSamples (s t : State) : Prop where
  dies : t.dies = s.dies
  clk : t.clk = s.clk
  now : t.now = s.now
  num : t.epoch.num = s.epoch.num
  reg : ∀ r i, (r, i) ∉ epochTellers → t.reg r i = s.reg r i

theorem SameSamples.trans {s t u : State} (h : SameSamples s t) (k : SameSamples t u) : SameSamples s u where
  dies := k.dies.trans h.dies
  clk := k.clk.trans h.clk
  now := k.now.trans h.now
  num := k.num.trans h.num
  reg r i hr := (k.reg r i hr).trans (h.reg r i hr)

theorem SameSamples.setEpoch (s : State) (e : EpochState) (h : e.num = s.epoch.num) :
    SameSamples s { s with epoch := e } := ⟨rfl, rfl, rfl, h, fun _ _ _ => rfl⟩

theorem State.addFld_sameSamples (s : State) (f : Fld) (i n : Nat) (h : (f.reg, i) ∈ epochTellers) :
    SameSamples s (s.addFld f i n) where
  dies := rfl
  clk := rfl
  now := rfl
  num := rfl
  reg r j hr := s.reg_setFld_ne f r i j _ fun heq => hr (heq ▸ h)

theorem State.raise_sameSamples (s : State) (k : EventKind) (inst : Nat) (fs : List (Nat × Nat × Nat)) :
    SameSamples s (s.raise k inst fs) := by
  obtain ⟨hstate, hreg, hepoch⟩ := s.raise_raised k inst fs
  refine ⟨?_, ?_, ?_, ?_, fun r i hr => hreg r i fun heq => hr (heq ▸ by decide)⟩
  · rw [hstate]
  · rw [hstate]
  · rw [hstate]
  · rw [hepoch]

theorem State.pageWrite_sameSamples (s : State) (a : Nat) (bs : List Byte) : SameSamples s (s.pageWrite a bs) := by
  rw [(s.pageWrite_written a bs).only]
  exact ⟨rfl, rfl, rfl, rfl, fun _ _ _ => rfl⟩

theorem SameSamples.fld {s t : State} (h : SameSamples s t) (f : Fld) (i : Nat) (hf : (f.reg, i) ∉ epochTellers) :
    t.fld f i = s.fld f i := by
  simp only [State.fld, h.reg f.reg i hf]

theorem SameSamples.period {s t : State} (h : SameSamples s t) (k : Nat) : t.period k = s.period k := by
  have hdie : t.die k = s.die k := State.die_of_dies h.dies k
  have htree : t.fTree = s.fTree := by
    unfold State.fTree State.fSyn State.fSrc State.treePpb State.offsetNow
    simp only [h.clk, h.now, h.fld CLK_REF_CFG.SRC_SEL 0 (by decide), h.fld CLK_REF_NOM.NOM_HZ 0 (by decide),
      h.fld CLK_SYN_INT.N_INT 0 (by decide), h.fld CLK_SYN_FRAC.N_FRAC 0 (by decide),
      h.fld CLK_REF_CFG.REF_DIV 0 (by decide), h.fld CLK_POLICY.RET_SLEW 0 (by decide),
      h.fld CLK_JUMP.JUMP_PS 0 (by decide), h.fld CLK_POLICY.SLEW_RATE 0 (by decide)]
  have hoct : t.fOct k = s.fOct k := by
    have hdiv : (SYS_OCT_STAT.RATE_DIV.reg, k) ∉ epochTellers := by
      simp [epochTellers]
    unfold State.fOct
    simp only [hdie, htree, h.fld SYS_OCT_STAT.RATE_DIV k hdiv, h.fld CLK_BYP.BYP_MULT 0 (by decide)]
  unfold State.period
  rw [hoct]

theorem SameSamples.sampleAt {s t : State} (h : SameSamples s t) (k tB : Nat) : t.sampleAt k tB = s.sampleAt k tB := by
  unfold State.sampleAt
  rw [State.die_of_dies h.dies k, h.period k]

/-- The first sample at or after the boundary, die by die. -/
theorem State.boundsAt_getD (s : State) (tB k : Nat) (h : k < 8) : Table.getD (s.boundsAt tB) k 0 = s.sampleAt k tB := by
  have hfold : ∀ n, k < n → Table.getD ((List.range n).foldl (fun t j => Table.set 0 t j (s.sampleAt j tB)) []) k 0 =
      s.sampleAt k tB := by
    intro n
    induction n with
    | zero => omega
    | succ n ih =>
      intro hk
      rw [List.range_succ, List.foldl_append, List.foldl_cons, List.foldl_nil]
      by_cases heq : k = n
      · rw [heq, Table.getD_set_same]
      · rw [Table.getD_set_ne _ _ _ _ _ _ heq]
        exact ih (by omega)
  exact hfold 8 h

/-! ### The page that the boundary starts -/

theorem State.pageMissed_sameSamples (s : State) (e : Nat) : SameSamples s (s.pageMissed e) := by
  unfold State.pageMissed
  split
  · exact (s.addFld_sameSamples _ 0 1 (by decide)).trans (State.raise_sameSamples _ _ _ _)
  · exact .setEpoch s s.epoch rfl

theorem State.pageStart_sameSamples (s : State) (e tB : Nat) : SameSamples s (s.pageStart e tB) := by
  unfold State.pageStart
  extract_lets +onlyGivenNames s1 p prev _ s2
  have hs2 : SameSamples s1 s2 := .setEpoch s1 _ rfl
  exact ((s.pageMissed_sameSamples e).trans hs2).trans (State.pageWrite_sameSamples _ _ _)

theorem State.pageSkip_sameSamples (s : State) (e : Nat) : SameSamples s (s.pageSkip e) := by
  unfold State.pageSkip
  extract_lets +onlyGivenNames fresh _ s1
  have hs1 : SameSamples s s1 := .setEpoch s _ rfl
  have hcount := hs1.trans (s1.addFld_sameSamples EPO_SKIPPED.COUNT 0 1 (by decide))
  unfold State.when
  split
  · exact hcount.trans (State.raise_sameSamples _ _ _ _)
  · exact hcount

theorem State.epochLatch_sameSamples (s : State) (tB : Nat) : SameSamples s (s.epochLatch tB) := by
  unfold State.epochLatch
  split
  · exact s.pageStart_sameSamples _ tB
  · exact s.pageSkip_sameSamples _

theorem State.pageMissed_lastOt (s : State) (e : Nat) : (s.pageMissed e).epoch.lastOt = s.epoch.lastOt := by
  unfold State.pageMissed
  split
  · rw [(State.raise_raised _ _ _ _).2.2]
    rfl
  · rfl

/-- A page starts when the one before it is written; it is that of the epoch which ends. -/
theorem State.epochLatch_page (s : State) (tB : Nat) (h : s.pageFree = true) :
    (s.epochLatch tB).epoch.core.writing = true ∧ (s.epochLatch tB).epoch.core.page.epoch = s.epoch.num ∧
      (s.epochLatch tB).epoch.core.page.stop = tB ∧ (s.epochLatch tB).epoch.core.page.start = s.epoch.lastOt := by
  unfold State.epochLatch State.pageStart
  rw [if_pos h]
  extract_lets +onlyGivenNames s1 p prev _ s2
  have hlast : s1.epoch.lastOt = s.epoch.lastOt := s.pageMissed_lastOt s.epoch.num
  rw [State.pageWrite_core]
  exact ⟨rfl, rfl, rfl, hlast⟩

/-! ### Steps of device time -/

/-- The shift of the boundaries by a step says nothing of a boundary that is not announced. -/
theorem EpochState.core_shift (e : EpochState) (lastOt : Nat) (timer : Prop) [Decidable timer] (shift : Nat → Nat)
    (candidates : List Nat) (h : e.announced = none) :
    EpochState.core { e with
      stepped := true, lastOt := lastOt, ignored := 0
      announced := if timer then none else e.announced.map shift
      candidates := candidates } = e.core := by
  simp [EpochState.core, h]

/-- A step of device time moves an announced boundary; with none announced it leaves the counter as it is. -/
theorem State.otStep_core (s : State) (step : Int) (t : Nat) (host : Bool) (h : s.epoch.announced = none) :
    (s.otStep step t host).epoch.core = s.epoch.core := by
  unfold State.otStep
  extract_lets +onlyGivenNames s1 fs s2 _ _ s3
  have hs1 : s1.epoch.core = s.epoch.core := State.when_core fun _ => rfl
  have hs2 : s2.epoch.core = s.epoch.core := by
    refine Eq.trans (State.each_core fun u k => ?_) hs1
    simp -implicitDefEqProofs
  have hnone : s2.epoch.announced = none := (EpochState.announced_of_core hs2).trans h
  have hs3 : s3.epoch.core = s2.epoch.core := EpochState.core_shift _ _ _ _ _ hnone
  rw [State.raise_core, hs3, hs2]

theorem State.applySet_core (s : State) (t : Nat) (h : s.epoch.announced = none) :
    (s.applySet t).epoch.core = s.epoch.core := by
  have harm := s.setFlag_epoch TDC_TIME_CFG.SET_ARM 0 false
  unfold State.applySet
  generalize s.setFlag TDC_TIME_CFG.SET_ARM 0 false = u at harm ⊢
  rw [u.otStep_core _ _ _ (harm ▸ h), harm]

theorem State.boundaryStep_core (s : State) (tB : Nat) (h : s.epoch.announced = none) :
    (s.boundaryStep tB).epoch.core = s.epoch.core := by
  unfold State.boundaryStep
  split
  · exact s.applySet_core tB h
  · split
    · extract_lets +onlyGivenNames s1
      have hs1 : s1.epoch.core = s.epoch.core := State.when_core fun _ => rfl
      clear_value s1
      exact (s1.otStep_core _ _ _ ((EpochState.announced_of_core hs1).trans h)).trans hs1
    · rfl

/-! ### The whole boundary -/

/-- What the boundary at t_B makes of the epoch counter. -/
def State.boundaryCore (s : State) (tB : Nat) : EpochState :=
  { s.epoch.core with
    num := (s.epoch.num + 1) % 2 ^ 64, lastCycle := s.now, announced := none, forced := false, bounds := s.boundsAt tB }

/-- After the page is taken the counter takes its next number; anchors, steps, a switch point and the events that follow
leave it. -/
theorem State.boundary_core (s : State) (tB : Nat) (marks : List Nat) :
    (s.boundary tB marks).epoch.core = (s.epochLatch tB).boundaryCore tB := by
  unfold State.boundary
  extract_lets +onlyGivenNames s1
  extract_lets +onlyGivenNames e bounds _ s2
  have hs2 : s2.epoch.core = s1.boundaryCore tB := rfl
  extract_lets +onlyGivenNames s3
  have hs3 : s3.epoch.core = s1.boundaryCore tB := by
    rw [← hs2]
    exact (State.quartzStep_core _ _).trans (State.epochAnchors_core _ _)
  extract_lets +onlyGivenNames before s4
  have hnone : s3.epoch.announced = none := EpochState.announced_of_core hs3
  have hs4 : s4.epoch.core = s1.boundaryCore tB := (s3.boundaryStep_core tB hnone).trans hs3
  clear_value s4
  extract_lets +onlyGivenNames label _ s5
  have hs5 : s5.epoch.core = s1.boundaryCore tB := by
    rw [← hs4]
    unfold s5
    clear_value label
    rfl
  extract_lets +onlyGivenNames s6
  have hs6 : s6.epoch.core = s1.boundaryCore tB := (State.lateCommit_core _ _ _).trans hs5
  extract_lets +onlyGivenNames s7
  have hs7 : s7.epoch.core = s1.boundaryCore tB := by
    rw [← hs6]
    unfold s7
    split
    · exact State.switchPoint_core _ _ _ _ _
    · split
      · exact State.enterRun_core _ _ _ _
      · rfl
  extract_lets +onlyGivenNames _ s8
  have hs8 : s8.epoch.core = s1.boundaryCore tB := hs7
  exact (State.epochTiles_core _).trans ((State.combEvent_core _ _ _ _).trans hs8)

/-- Device time has reached the announced boundary: it begins the next epoch. -/
theorem State.exec_epochBoundary_due (s : State) (marks : List Nat) (tB : Nat) (ha : s.epoch.announced = some tB)
    (hdue : tB ≤ s.time.ot) : exec (.epochBoundary marks) s = .next (s.boundary tB marks) := by
  show execEpochBoundary marks s = _
  unfold execEpochBoundary
  rw [ha]
  dsimp only
  rw [if_pos hdue]

/-- The counter after the boundary, in the terms of the state before it. -/
theorem State.boundary_counter (s : State) (tB : Nat) (marks : List Nat) (t : State) (ht : t = s.boundary tB marks) :
    t.epoch.num = (s.epoch.num + 1) % 2 ^ 64 ∧ t.epoch.announced = none ∧ t.epoch.lastCycle = s.now ∧
      t.epoch.forced = false ∧ (∀ k, k < 8 → Table.getD t.epoch.bounds k 0 = s.sampleAt k tB) ∧
      (s.pageFree = true → t.epoch.writing = true ∧ t.epoch.page.epoch = s.epoch.num ∧ t.epoch.page.stop = tB ∧
        t.epoch.page.start = s.epoch.lastOt) := by
  have hcore : t.epoch.core = (s.epochLatch tB).boundaryCore tB := ht ▸ s.boundary_core tB marks
  have hlatch := s.epochLatch_sameSamples tB
  obtain ⟨hnum, hcycle, hbounds, hannounced, hforced, hwriting, hpage⟩ := EpochState.of_core hcore
  refine ⟨?_, hannounced, hcycle.trans hlatch.now, hforced, fun k hk => ?_, fun hfree => ?_⟩
  · rw [hnum, State.boundaryCore, hlatch.num]
  · rw [hbounds]
    exact ((s.epochLatch tB).boundsAt_getD tB k hk).trans (hlatch.sampleAt k tB)
  · rw [hwriting, hpage]
    exact s.epochLatch_page tB hfree

/-! ## The loss of the turn (R259) -/

theorem State.turnsMissed_iff (s : State) : s.turnsMissed = true ↔
    ∃ k, s.syncOctants.head? = some k ∧ s.fld EPO_TURN_STAT.STATE 0 ≠ 0 ∧ s.turn.lost = false ∧
      s.sampleTime k (s.turn.countFrom + 16 * s.spt k) ≤ s.time.ot := by
  unfold State.turnsMissed
  cases s.syncOctants with
  | nil => simp
  | cons k ks => simp [and_assoc]

theorem State.exec_turnLost (s : State) :
    let missed := ∃ k, s.syncOctants.head? = some k ∧ s.fld EPO_TURN_STAT.STATE 0 ≠ 0 ∧ s.turn.lost = false ∧
      s.sampleTime k (s.turn.countFrom + 16 * s.spt k) ≤ s.time.ot
    (missed → exec .turnLost s = .next (((({ s with turn := { s.turn with lost := true } } : State).setFld
      EPO_TURN_STAT.STATE 0 2).raise Ev.TURN_LOST 0 [(0, 8, s.turn.confirmed)]))) ∧
    (¬ missed → exec .turnLost s = .next s) := by
  intro missed
  have hexec : exec .turnLost s = .next (if s.turnsMissed then
      (({ s with turn := { s.turn with lost := true } } : State).setFld EPO_TURN_STAT.STATE 0 2).raise Ev.TURN_LOST 0
        [(0, 8, s.turn.confirmed)] else s) := rfl
  constructor <;> intro h
  · rw [hexec, if_pos (s.turnsMissed_iff.mpr h)]
  · rw [hexec, if_neg (mt s.turnsMissed_iff.mp h)]

/-- Settles O27: the counter's part of the epoch state is what a boundary sets and nothing after it touches
(`State.boundary_core`); a page is memory written (`Written`), its header last; the other commands are read off. -/
theorem epochsAndPages : Obligations.EpochsAndPages := by
  unfold Obligations.EpochsAndPages
  refine ⟨State.exec_epochAnnounce_idle, State.exec_epochAnnounce_edge, State.exec_epochAnnounce_timer,
    State.timerInstant_next, State.exec_epochBoundary_early, fun s marks tB hannounced hdue => ?_, State.exec_epochTimeout,
    State.exec_epoPageComplete_idle, fun s hwriting => ?_,
    fun p => ⟨p.header_length, p.header_epoch, p.header_version, p.header_size⟩, State.exec_epoAck, State.exec_turnLost⟩
  · exact ⟨_, s.exec_epochBoundary_due marks tB hannounced hdue, s.boundary_counter tB marks _ rfl⟩
  · exact ⟨_, s.exec_epoPageComplete hwriting, s.pageReady_after⟩

end Sys2Proof.Machine
end
